-- ==== Sys2Proof/Word.lean ====
section
/-! DEFINITION. The word types of the part and the plainest arithmetic on them (R6: registers are 32 bits wide). -/

namespace Sys2Proof

/-- A 32-bit register or bus word (R6). -/
abbrev Word := BitVec 32

/-- A byte of memory (R12). -/
abbrev Byte := BitVec 8

/-- The all-ones word of the low `n` bits. -/
def ones (n : Nat) : Word := BitVec.ofNat 32 (2 ^ n - 1)

end Sys2Proof
end

