-- ==== Sys2Proof/Types.lean ====
section
/-! DEFINITION. The operand types of the commands: bus accesses, the units a command names, the outcomes the outside
world decides. -/

namespace Sys2Proof

/-- A master ID (Table 0.4). -/
abbrev Master := Fin 32

/-- A bus access: a read, or a write of a value. -/
inductive Acc where
  | rd
  | wr (v : Word)
deriving DecidableEq, Repr

/-- The size of a bus access in bytes (R6, R312). -/
inductive Size where
  | b | h | w
deriving DecidableEq, Repr

/-- Bytes of an access of this size. -/
def Size.bytes : Size → Nat
  | .b => 1 | .h => 2 | .w => 4

/-- What the check bits of a memory word show when it is accessed (R315, R441). -/
inductive Upset where
  | good | single | double
deriving DecidableEq, Repr

/-- A check-value unit (R88). -/
inductive ChkUnit where
  | cell (c : Fin 256)
  | pe (n : Fin 8)
  | hx (n : Fin 32)
deriving DecidableEq, Repr

/-- The parameter registers of a check unit beside CFG (R92). -/
inductive ChkParam where
  | poly | init | xorout
deriving DecidableEq, Repr

/-- The widths of a check-unit feed register (Table 4.8). -/
inductive FeedN where
  | n1 | n2 | n4
deriving DecidableEq, Repr

/-- Who executes Jaedin instructions: context `k` of engine `n` (R119), or a control pair (R333; `false` is pair A). -/
inductive CtxId where
  | pe (n k : Fin 8)
  | pair (b : Bool)
deriving DecidableEq, Repr

/-- A CAN frame as it stands on the bus (R270, R275). -/
structure CanFrame where
  id : BitVec 29
  ide : Bool
  fdf : Bool
  brs : Bool
  rtr : Bool
  esi : Bool
  dlc : Fin 16
  data : List Byte
deriving DecidableEq, Repr

/-- How an error moves the error counters (R280, ISO 11898-1): a receiver's error, a receiver's error with a dominant bit
after its error flag, a transmitter's error, or one of the standard's exceptions. -/
inductive CanErr where
  | receiver | receiverDominant | transmitter | exempt
deriving DecidableEq, Repr

/-- How a transmit attempt ends (R276). -/
inductive CanEnd where
  | sent | arbLost | error (lec : Fin 8)
deriving DecidableEq, Repr

/-- What the FCS of a received Ethernet frame shows (R288): good, wrong (or a PCS error inside the frame), or the inverted
FCS of a stomped frame. -/
inductive Fcs where
  | good | bad | stomped
deriving DecidableEq, Repr

/-- What the supply monitors watch (R390, R391, Table 18.15): the four monitored rails in MONSTAT order (VDD, VDDS, VDDA,
VDDIO_SYS), VIN_WARN, VBAT, and the bank rails. -/
inductive Rail where
  | main (i : Fin 4)
  | vin
  | bat
  | bank (g : Fin 16)
deriving DecidableEq, Repr

/-- The reset sources that time releases (Table 18.7). -/
inductive TimedSrc where
  | pllLoss | swCold | swWarm
  | wdrst (n : Fin 8)
  | pulse (t : Fin 29)
deriving DecidableEq, Repr

/-- A word of an inbound PCIe request: its byte enables and, for a write, its data (R353). -/
structure PcieWord where
  be : BitVec 4
  data : Word
deriving DecidableEq, Repr

/-- The BARs of Table 16.1. -/
inductive Bar where
  | bar0 | bar2 | bar4
deriving DecidableEq, Repr

/-- What the flash device and its reads show in a load attempt (R370, R373): capacity; whether it has what R370 asks and every
read succeeds; whether it can suspend an erase or program (R378); whether pass 2 reads what pass 1 read. -/
structure FlashShow where
  cap : Nat
  ok : Bool
  suspend : Bool
  same : Bool
deriving DecidableEq, Repr

/-- What the check bits of a protected memory show when a command uses it, and the index of the word (R441, Table 20.2). -/
structure EccSeen where
  index : Nat
  u : Upset
deriving DecidableEq, Repr

end Sys2Proof
end

