-- ==== Sys2Proof/Syntax.lean ====
section
/-! DEFINITION. The commands of the block: one constructor per row of spec/opcode_table.json, with the row's operands. -/

namespace Sys2Proof

/-- The commands, in the order of the table. -/
inductive Instr where
  /-- REGISTER_WRITE (R8): A write to a register field that has no row of its own updates the field according to its access type. -/
  | registerWrite (m : Master) (a : Word) (sz : Size) (x : Acc)
  /-- MEMORY_ACCESS (R312): A master reads or writes shared memory, one indivisible word access per word, with ECC and ownership checks. -/
  | memoryAccess (m : Master) (a : Word) (sz : Size) (x : Acc) (u : Upset)
  /-- ROUTE_WRITE (R28): A write to a route register moves an asserted interrupt source to its new destination without loss or duplication. -/
  | routeWrite (m : Master) (a v : Word)
  /-- PLL_LOSS (R26): Loss of root PLL lock drives all pins safe, clears the token and asserts a cold reset source. -/
  | pllLoss
  /-- CELL_TICK (R34): A tick of a cell's divider runs the sample, stall test, actions and successor phases of the current entry. -/
  | cellTick (c : Fin 256) (la lb : Bool) (dt : Nat) (u : Upset)
  /-- CELL_RESTART (R38): RESTART clears the shifter, edge history and latches, reloads the counters and starts execution at the given index. -/
  | cellRestart (m : Master) (c : Fin 256) (idx : Fin 128)
  /-- CELL_STOP (R39): STOP records the position and puts the cell in STOPPED, applying a pending swap. -/
  | cellStop (m : Master) (c : Fin 256)
  /-- CELL_RESUME (R39): RESUME continues a stopped cell from its recorded position at the next tick. -/
  | cellResume (m : Master) (c : Fin 256)
  /-- CELL_SWAP (R58): SWAP requests a bank swap and sets SWPEND. -/
  | cellSwap (m : Master) (c : Fin 256)
  /-- FLUSHTX (R64): FLUSHTX empties the cell's TX FIFO, including words added earlier in the same cycle. -/
  | flushtx (m : Master) (c : Fin 256)
  /-- FLUSHRX (R64): FLUSHRX empties the cell's RX FIFO. -/
  | flushrx (m : Master) (c : Fin 256)
  /-- CELL_STEP (R39): STEP runs exactly one tick of a stopped cell and leaves it STOPPED. -/
  | cellStep (m : Master) (c : Fin 256)
  /-- TXDATA_WRITE (R62): A write to CELL_TXDATA appends a word to the TX FIFO, or fails and sets TXOVF when full. -/
  | txdataWrite (m : Master) (c : Fin 256) (v : Word)
  /-- RXDATA_READ (R62): A read of CELL_RXDATA removes the RX head word, or fails and sets RXUNF when empty. -/
  | rxdataRead (m : Master) (c : Fin 256)
  /-- CELL_BANK_WRITE (R57): A write to a state-table bank entry is accepted or refused by cell state and pending swap. -/
  | cellBankWrite (m : Master) (c : Fin 256) (b : Bool) (e : Fin 128) (hi : Bool) (v : Word)
  /-- FIFO_JOIN_WRITE (R67): A write that changes JOINTX or JOINRX joins or splits FIFO runs when the cells are stopped and the FIFOs empty. -/
  | fifoJoinWrite (m : Master) (c : Fin 256) (v : Word)
  /-- CELL_MODE_WRITE (R76): A write to CELL_MODE binds or unbinds the cell's pins to a CAN controller or Huxon sequencer. -/
  | cellModeWrite (m : Master) (c : Fin 256) (v : Word)
  /-- EDGE_CAPTURE (R55): A selected edge at a pin's first synchroniser stage is timestamped with 125 ps resolution while VALID is 0. -/
  | edgeCapture (c : Fin 256) (pinB rise : Bool) (sub : Fin 8) (dt : Nat)
  /-- DIRECT_SOURCE_EDGE (R103): An edge seen by a direct-source detector pulses the drive slot's channel. -/
  | directSourceEdge (c : Fin 256) (pinB rise : Bool)
  /-- SGCMD_WRITE (R71): A write to EVF_SGCMD starts every start group whose bit is set. -/
  | sgcmdWrite (m : Master) (v : Word)
  /-- DMA_TRANSFER (R85): The cell array DMA moves one record between a bound FIFO and its ring or image buffer. -/
  | dmaTransfer (ch : Fin 32)
  /-- DMA_ENABLE (R84): A write that sets EN enables a DMA channel after its configuration checks. -/
  | dmaEnable (m : Master) (ch : Fin 32) (v : Word)
  /-- DMA_DISABLE (R84): A write that clears EN finishes the record in flight and discards collected image words. -/
  | dmaDisable (m : Master) (ch : Fin 32) (v : Word)
  /-- DMA_LEN_WRITE (R84): A write to a channel's LEN sets HWPTR and SWPTR to 0. -/
  | dmaLenWrite (m : Master) (ch : Fin 32) (v : Word)
  /-- CHK_CFG_WRITE (R90): An accepted write to _CHK_CFG sets the unit's parameters and performs INIT. -/
  | chkCfgWrite (m : Master) (u : ChkUnit) (v : Word)
  /-- CHK_PARAM_WRITE (R92): An accepted write to _CHK_POLY, _CHK_INIT or _CHK_XOROUT sets the value and performs INIT. -/
  | chkParamWrite (m : Master) (u : ChkUnit) (p : ChkParam) (v : Word)
  /-- CHK_INIT (R92): The INIT command of _CHK_CMD loads the initial value and opens the unit. -/
  | chkInit (m : Master) (u : ChkUnit)
  /-- CHK_END (R93): The END command of _CHK_CMD closes the check as the unit's mode defines. -/
  | chkEnd (m : Master) (u : ChkUnit)
  /-- CHK_FEED (R97): A write to _CHK_FEED1, FEED2 or FEED4 feeds 1, 2 or 4 bytes to an engine-side unit. -/
  | chkFeed (m : Master) (u : ChkUnit) (n : FeedN) (v : Word)
  /-- SWPULSE_WRITE (R101): A write to EVF_SWPULSE0 or EVF_SWPULSE1 pulses every channel whose bit is set. -/
  | swpulseWrite (m : Master) (hi : Bool) (v : Word)
  /-- SHADOW_SNAPSHOT (R110): At the end of COPY the shadow cell takes the cell's full state and begins COMPARE. -/
  | shadowSnapshot (g : Fin 16)
  /-- SHADOW_COMPARE_END (R112): A COMPARE phase runs to its end with no difference, and the next visit begins. -/
  | shadowCompareEnd (g : Fin 16)
  /-- SHADOW_MISMATCH (R113): A difference between cell and shadow flags both, records the mismatch and applies POLICY. -/
  | shadowMismatch (g : Fin 16) (kind : BitVec 9) (inCell : Bool)
  /-- SHADOW_RELEASE (R114): RELEASE copies the shadow's state into the cell and ends the takeover. -/
  | shadowRelease (m : Master) (g : Fin 16)
  /-- SHADOW_SKIP (R112): SKIP ends the current visit with no verdict. -/
  | shadowSkip (m : Master) (g : Fin 16)
  /-- SHADOW_RETIRE (R115): RETIRE from a supervisor stops the shadow in SUSPECT until a reset of the group. -/
  | shadowRetire (m : Master) (g : Fin 16)
  /-- ADD (R130): ADD writes RA + RB to RD. -/
  | add (x : CtxId) (f : Upset)
  /-- SUB (R130): SUB writes RA − RB to RD. -/
  | sub (x : CtxId) (f : Upset)
  /-- AND (R130): AND writes RA AND RB to RD. -/
  | andI (x : CtxId) (f : Upset)
  /-- OR (R130): OR writes RA OR RB to RD. -/
  | orI (x : CtxId) (f : Upset)
  /-- XOR (R130): XOR writes RA XOR RB to RD. -/
  | xorI (x : CtxId) (f : Upset)
  /-- NOR (R130): NOR writes NOT (RA OR RB) to RD. -/
  | nor (x : CtxId) (f : Upset)
  /-- SLL (R130): SLL shifts RA left by RB[4:0]. -/
  | sll (x : CtxId) (f : Upset)
  /-- SRL (R130): SRL shifts RA right logically by RB[4:0]. -/
  | srl (x : CtxId) (f : Upset)
  /-- SRA (R130): SRA shifts RA right arithmetically by RB[4:0]. -/
  | sra (x : CtxId) (f : Upset)
  /-- ROR (R130): ROR rotates RA right by RB[4:0]. -/
  | ror (x : CtxId) (f : Upset)
  /-- SLT (R130): SLT writes 1 if RA < RB signed, else 0. -/
  | slt (x : CtxId) (f : Upset)
  /-- SLTU (R130): SLTU writes 1 if RA < RB unsigned, else 0. -/
  | sltu (x : CtxId) (f : Upset)
  /-- MIN (R130): MIN writes the signed minimum of RA and RB. -/
  | minI (x : CtxId) (f : Upset)
  /-- MAX (R130): MAX writes the signed maximum of RA and RB. -/
  | maxI (x : CtxId) (f : Upset)
  /-- MINU (R130): MINU writes the unsigned minimum of RA and RB. -/
  | minu (x : CtxId) (f : Upset)
  /-- MAXU (R130): MAXU writes the unsigned maximum of RA and RB. -/
  | maxu (x : CtxId) (f : Upset)
  /-- MUL (R130): MUL writes the low 32 bits of RA × RB. -/
  | mul (x : CtxId) (f : Upset)
  /-- MULHU (R130): MULHU writes the high 32 bits of the unsigned product. -/
  | mulhu (x : CtxId) (f : Upset)
  /-- MULH (R130): MULH writes the high 32 bits of the signed product. -/
  | mulh (x : CtxId) (f : Upset)
  /-- CLZ (R130): CLZ writes the count of leading zeros of RA. -/
  | clz (x : CtxId) (f : Upset)
  /-- POPC (R130): POPC writes the count of ones in RA. -/
  | popc (x : CtxId) (f : Upset)
  /-- BSWAP (R130): BSWAP writes RA with its bytes reversed. -/
  | bswap (x : CtxId) (f : Upset)
  /-- BREV (R130): BREV writes RA with its bits reversed. -/
  | brev (x : CtxId) (f : Upset)
  /-- SLLI (R129): SLLI shifts RA left by an immediate amount. -/
  | slli (x : CtxId) (f : Upset)
  /-- SRLI (R129): SRLI shifts RA right logically by an immediate amount. -/
  | srli (x : CtxId) (f : Upset)
  /-- SRAI (R129): SRAI shifts RA right arithmetically by an immediate amount. -/
  | srai (x : CtxId) (f : Upset)
  /-- RORI (R129): RORI rotates RA right by an immediate amount. -/
  | rori (x : CtxId) (f : Upset)
  /-- EXTU (R129): EXTU extracts a bit field of RA, zero-extended. -/
  | extu (x : CtxId) (f : Upset)
  /-- EXTS (R129): EXTS extracts a bit field of RA, sign-extended. -/
  | exts (x : CtxId) (f : Upset)
  /-- INS (R129): INS inserts the low bits of RA into a bit field of RD. -/
  | ins (x : CtxId) (f : Upset)
  /-- ADDI (R129): ADDI writes RA plus the sign-extended immediate. -/
  | addi (x : CtxId) (f : Upset)
  /-- ANDI (R129): ANDI writes RA AND the zero-extended immediate. -/
  | andi (x : CtxId) (f : Upset)
  /-- ORI (R129): ORI writes RA OR the zero-extended immediate. -/
  | ori (x : CtxId) (f : Upset)
  /-- XORI (R129): XORI writes RA XOR the zero-extended immediate. -/
  | xori (x : CtxId) (f : Upset)
  /-- SLTI (R129): SLTI writes 1 if RA is below the immediate, signed. -/
  | slti (x : CtxId) (f : Upset)
  /-- SLTIU (R129): SLTIU writes 1 if RA is below the sign-extended immediate, unsigned. -/
  | sltiu (x : CtxId) (f : Upset)
  /-- LUI (R129): LUI writes the immediate shifted left by 16. -/
  | lui (x : CtxId) (f : Upset)
  /-- LW (R123): LW loads a word from memory at RA + IMM16. -/
  | lw (x : CtxId) (f u : Upset)
  /-- LH (R123): LH loads a sign-extended half-word. -/
  | lh (x : CtxId) (f u : Upset)
  /-- LHU (R123): LHU loads a zero-extended half-word. -/
  | lhu (x : CtxId) (f u : Upset)
  /-- LB (R123): LB loads a sign-extended byte. -/
  | lb (x : CtxId) (f u : Upset)
  /-- LBU (R123): LBU loads a zero-extended byte. -/
  | lbu (x : CtxId) (f u : Upset)
  /-- SW (R125): SW stores a word, posted when it goes through the interconnect. -/
  | sw (x : CtxId) (f u : Upset)
  /-- SH (R125): SH stores the low half-word of RD. -/
  | sh (x : CtxId) (f u : Upset)
  /-- SB (R125): SB stores the low byte of RD. -/
  | sb (x : CtxId) (f u : Upset)
  /-- PUSH (R136): PUSH stores RD below g29 after the DSLO check and lowers g29. -/
  | push (x : CtxId) (f u : Upset)
  /-- POP (R136): POP loads RD from g29 after the DSHI check and raises g29. -/
  | pop (x : CtxId) (f u : Upset)
  /-- BEQ (R132): BEQ branches if RA equals RB, with its delay slot. -/
  | beq (x : CtxId) (f : Upset)
  /-- BNE (R132): BNE branches if RA differs from RB. -/
  | bne (x : CtxId) (f : Upset)
  /-- BLT (R132): BLT branches if RA < RB signed. -/
  | blt (x : CtxId) (f : Upset)
  /-- BGE (R132): BGE branches if RA ≥ RB signed. -/
  | bge (x : CtxId) (f : Upset)
  /-- BLTU (R132): BLTU branches if RA < RB unsigned. -/
  | bltu (x : CtxId) (f : Upset)
  /-- BGEU (R132): BGEU branches if RA ≥ RB unsigned. -/
  | bgeu (x : CtxId) (f : Upset)
  /-- J (R131): J jumps to p + 4 × OFF26. -/
  | j (x : CtxId) (f : Upset)
  /-- CALL (R131): CALL jumps and pushes p + 8 onto the return stack. -/
  | call (x : CtxId) (f : Upset)
  /-- JR (R131): JR jumps to RA. -/
  | jr (x : CtxId) (f : Upset)
  /-- CALLR (R131): CALLR jumps to RA and pushes the return address. -/
  | callr (x : CtxId) (f : Upset)
  /-- RET (R131): RET pops the return address and jumps to it. -/
  | ret (x : CtxId) (f : Upset)
  /-- FENCE (R126): SYS FENCE blocks the context until its posted stores have completed. -/
  | fence (x : CtxId) (f : Upset)
  /-- SYS_WAIT (R151): SYS WAIT puts the context in WAIT until an unmasked interrupt line is pending. -/
  | sysWait (x : CtxId) (f : Upset)
  /-- TRET (R152): TRET leaves handler mode and executes the instruction at RPC with RNEXT as its successor. -/
  | tret (x : CtxId) (f : Upset)
  /-- TRAP (R148): SYS TRAP raises the TRAP exception with the given code. -/
  | trap (x : CtxId) (f : Upset)
  /-- CSRR (R156): CSRR reads a context register of the executing context. -/
  | csrr (x : CtxId) (f : Upset)
  /-- CSRW (R156): CSRW writes a context register of the executing context. -/
  | csrw (x : CtxId) (f : Upset)
  /-- SYS_HALT (R120): SYS HALT puts the context in STOPPED with PC after the HALT. -/
  | sysHalt (x : CtxId) (f : Upset)
  /-- CRX (R140): CRX reads the RX FIFO head of a cell. -/
  | crx (x : CtxId) (f : Upset)
  /-- CRXW (R141): CRXW waits until a cell's RX FIFO holds a word, then reads it. -/
  | crxw (x : CtxId) (f : Upset)
  /-- CTX (R140): CTX writes RD to a cell's TX FIFO. -/
  | ctx (x : CtxId) (f : Upset)
  /-- CTXW (R141): CTXW waits until a cell's TX FIFO has room, then writes RD. -/
  | ctxw (x : CtxId) (f : Upset)
  /-- CSTAT (R140): CSTAT reads CELL_FIFOSTAT of a cell. -/
  | cstat (x : CtxId) (f : Upset)
  /-- CRD (R140): CRD reads a cell register at offset IMM12. -/
  | crd (x : CtxId) (f : Upset)
  /-- CWR (R140): CWR writes RD to a cell register at offset IMM12. -/
  | cwr (x : CtxId) (f : Upset)
  /-- BLOCKING_WAIT_ISSUE (R141): The condition of a blocking form holds and its access is issued. -/
  | blockingWaitIssue (x : CtxId)
  /-- CKF1 (R142): CKF1 feeds the low byte of RA to the engine-side check unit. -/
  | ckf1 (x : CtxId) (f : Upset)
  /-- CKF2 (R142): CKF2 feeds the low 2 bytes of RA. -/
  | ckf2 (x : CtxId) (f : Upset)
  /-- CKF4 (R142): CKF4 feeds the 4 bytes of RA. -/
  | ckf4 (x : CtxId) (f : Upset)
  /-- CKINIT (R142): CKINIT performs INIT on the engine-side check unit. -/
  | ckinit (x : CtxId) (f : Upset)
  /-- CKEND (R142): CKEND performs END on the engine-side check unit. -/
  | ckend (x : CtxId) (f : Upset)
  /-- CKRES (R142): CKRES reads _CHK_RESULT. -/
  | ckres (x : CtxId) (f : Upset)
  /-- CKST (R142): CKST reads _CHK_STATE. -/
  | ckst (x : CtxId) (f : Upset)
  /-- CKRD (R142): CKRD reads a check-unit register at IMM12. -/
  | ckrd (x : CtxId) (f : Upset)
  /-- CKWR (R142): CKWR writes a check-unit register at IMM12. -/
  | ckwr (x : CtxId) (f : Upset)
  /-- TSNAP (R143): TSNAP captures a timebase, returning nanoseconds and latching seconds and sub-nanoseconds. -/
  | tsnap (x : CtxId) (f : Upset)
  /-- TSECL (R143): TSECL returns the latched seconds [31:0]. -/
  | tsecl (x : CtxId) (f : Upset)
  /-- TSECH (R143): TSECH returns the latched seconds [63:32]. -/
  | tsech (x : CtxId) (f : Upset)
  /-- TSUB (R143): TSUB returns the latched sub-nanoseconds. -/
  | tsub (x : CtxId) (f : Upset)
  /-- TWAIT (R143): TWAIT blocks until TB0 reaches the latched seconds and RA nanoseconds. -/
  | twait (x : CtxId) (f : Upset)
  /-- TRD (R143): TRD reads a time unit word. -/
  | trd (x : CtxId) (f : Upset)
  /-- TWR (R143): TWR writes a time unit word. -/
  | twr (x : CtxId) (f : Upset)
  /-- IGET (R144): IGET fills the point buffer from the current or pinned view and returns the quality. -/
  | iget (x : CtxId) (f u : Upset)
  /-- IRB (R144): IRB reads a point buffer word. -/
  | irb (x : CtxId) (f : Upset)
  /-- IWB (R144): IWB writes a point buffer word. -/
  | iwb (x : CtxId) (f : Upset)
  /-- IPUT (R144): IPUT writes a point from the buffer into the open epoch with the given quality. -/
  | iput (x : CtxId) (f : Upset)
  /-- ISTN (R144): ISTN sets the buffer timestamp nanoseconds. -/
  | istn (x : CtxId) (f : Upset)
  /-- ISTS (R144): ISTS sets the buffer timestamp seconds. -/
  | ists (x : CtxId) (f : Upset)
  /-- IRTS (R144): IRTS reads the buffer timestamp nanoseconds. -/
  | irts (x : CtxId) (f : Upset)
  /-- IEPO (R144): IEPO reads the low 32 bits of the epoch counter. -/
  | iepo (x : CtxId) (f : Upset)
  /-- MSEND (R145): MSEND sends a pointer and tag to a mailbox. -/
  | msend (x : CtxId) (f : Upset)
  /-- MTAG (R145): MTAG reads a mailbox tag without clearing FULL. -/
  | mtag (x : CtxId) (f : Upset)
  /-- MRECV (R145): MRECV reads a mailbox pointer and clears FULL. -/
  | mrecv (x : CtxId) (f : Upset)
  /-- MSTAT (R145): MSTAT reads a mailbox status. -/
  | mstat (x : CtxId) (f : Upset)
  /-- LKACQ (R145): LKACQ reads a lock, acquiring it when free. -/
  | lkacq (x : CtxId) (f : Upset)
  /-- LKREL (R145): LKREL writes 0 to a lock to release it. -/
  | lkrel (x : CtxId) (f : Upset)
  /-- X7 (R146): X7 writes RA to a CP7 cell's TX FIFO and optionally waits for a result word. -/
  | x7 (x : CtxId) (f : Upset)
  /-- FADD (R335): FADD adds two binary64 registers, rounded by FCSR. -/
  | fadd (x : CtxId) (f : Upset)
  /-- FSUB (R335): FSUB subtracts two binary64 registers. -/
  | fsub (x : CtxId) (f : Upset)
  /-- FMUL (R335): FMUL multiplies two binary64 registers. -/
  | fmul (x : CtxId) (f : Upset)
  /-- FDIV (R335): FDIV divides two binary64 registers. -/
  | fdiv (x : CtxId) (f : Upset)
  /-- FSQRT (R335): FSQRT writes the square root of fRA. -/
  | fsqrt (x : CtxId) (f : Upset)
  /-- FMIN (R335): FMIN writes the IEEE minimumNumber. -/
  | fmin (x : CtxId) (f : Upset)
  /-- FMAX (R335): FMAX writes the IEEE maximumNumber. -/
  | fmax (x : CtxId) (f : Upset)
  /-- FNEG (R335): FNEG inverts the sign bit. -/
  | fneg (x : CtxId) (f : Upset)
  /-- FABS (R335): FABS clears the sign bit. -/
  | fabs (x : CtxId) (f : Upset)
  /-- FEQ (R335): FEQ writes 1 to gRD if fRA equals fRB. -/
  | feq (x : CtxId) (f : Upset)
  /-- FLT (R335): FLT writes 1 to gRD if fRA < fRB. -/
  | flt (x : CtxId) (f : Upset)
  /-- FLE (R335): FLE writes 1 to gRD if fRA ≤ fRB. -/
  | fle (x : CtxId) (f : Upset)
  /-- FCVTDW (R335): FCVTDW converts signed gRA to binary64. -/
  | fcvtdw (x : CtxId) (f : Upset)
  /-- FCVTWD (R335): FCVTWD converts fRA to a saturated signed 32-bit integer. -/
  | fcvtwd (x : CtxId) (f : Upset)
  /-- FCVTDS (R335): FCVTDS converts the binary32 value in gRA to binary64. -/
  | fcvtds (x : CtxId) (f : Upset)
  /-- FCVTSD (R335): FCVTSD converts fRA to binary32 in gRD. -/
  | fcvtsd (x : CtxId) (f : Upset)
  /-- FLD (R335): FLD loads 8 bytes into an FPU register. -/
  | fld (x : CtxId) (f u : Upset)
  /-- FST (R335): FST stores an FPU register as 8 bytes. -/
  | fst (x : CtxId) (f u : Upset)
  /-- CTX_START (R120): START begins a stopped context at PC with HM and IE cleared and the watchdog reloaded. -/
  | ctxStart (m : Master) (x : CtxId)
  /-- CTX_STOP (R120): STOP stops a running or waiting context at its next instruction boundary. -/
  | ctxStop (m : Master) (x : CtxId)
  /-- CTX_RESUME (R120): RESUME continues a stopped context from its recorded position and state. -/
  | ctxResume (m : Master) (x : CtxId)
  /-- CTX_STEP (R120): STEP executes one instruction or issue pair of a stopped context. -/
  | ctxStep (m : Master) (x : CtxId)
  /-- CTX_CLEAR (R120): CLEAR moves a FAULTED context to STOPPED, keeping its registers. -/
  | ctxClear (m : Master) (x : CtxId)
  /-- INT_TAKEN (R151): An unmasked pending interrupt is taken as INT at a boundary while IE is 1 and HM is 0. -/
  | intTaken (x : CtxId)
  /-- CONTEXT_WAKE (R151): A waiting context wakes when IPEND AND IMASK becomes non-zero. -/
  | contextWake (x : CtxId)
  /-- REMOTE_LOAD_DONE (R125): A load through the interconnect completes and unblocks its context. -/
  | remoteLoadDone (x : CtxId) (u : Upset)
  /-- POSTED_STORE_DONE (R125): A posted store completes at its target, or its error response sets DBWPEND. -/
  | postedStoreDone (x : CtxId) (i : Fin 4) (u : Upset)
  /-- DBUSW_TAKEN (R150): A pending posted-store error is taken as DBUSW at the next boundary with HM 0. -/
  | dbuswTaken (x : CtxId)
  /-- WDOG_EXPIRY (R154): A context watchdog expires, raising WDOG or, if EXP is set, faulting the context. -/
  | wdogExpiry (x : CtxId) (dt : Nat)
  /-- WDOG_WRITE (R154): A write to PE_CTX_WDOG reloads the count from PERIOD and clears EXP. -/
  | wdogWrite (m : Master) (x : CtxId) (v : Word)
  /-- POINT_TIMEOUT (R167): A point receiving no new value within its timeout is rewritten with STALE set. -/
  | pointTimeout (n : Fin 8) (p : Fin 65536)
  /-- INSTANCE_FAULT_RECOVERY (R170): The device service marks a faulted instance failed, stales its inputs, reloads the engine and restarts it. -/
  | instanceFaultRecovery (n k : Fin 8) (diag : Fin 65536) (inputs : List (Fin 65536)) (run : List (Fin 8))
  /-- TB_NS_READ (R173): A read of TU_TB_NS returns nanoseconds and latches seconds and sub-nanoseconds for the master. -/
  | tbNsRead (m : Master) (t : Fin 4)
  /-- TB_RATE_WRITE (R174): A write to TU_TB_RATE sets the timebase rate from the next cycle. -/
  | tbRateWrite (m : Master) (t : Fin 4) (v : Word)
  /-- TB_STEP (R174): STEP adds the signed offset to a timebase and re-tests its trigger entries. -/
  | tbStep (m : Master) (t : Fin 4)
  /-- TB_LOAD (R174): LOAD sets a timebase to the given seconds and nanoseconds. -/
  | tbLoad (m : Master) (t : Fin 4)
  /-- DISC_WRITE (R175): A write to TU_CTRL.DISC selects the root PLL discipline source and begins a slew. -/
  | discWrite (m : Master) (v : Word)
  /-- PLL_SLEW_DONE (R175): The root PLL finishes moving to its DISC frequency and DISCLK becomes 1. -/
  | pllSlewDone
  /-- REF_LOSS (R176): 10MHZ_IN shows no edge for 400 ns, clearing REFOK and entering holdover. -/
  | refLoss
  /-- REF_RETURN (R176): 10MHZ_IN shows edges for 1 ms, setting REFOK and slewing back to it. -/
  | refReturn
  /-- TRIGGER_FIRE (R187): An enabled trigger entry fires at its trigger time and acts on its target. -/
  | triggerFire (i : Fin 1024) (dt : Nat) (busy : Bool) (ready : Nat) (bad : List (Fin 65536))
  /-- TRIGGER_ENABLE (R188): A write that sets EN admits an entry to comparison and skips instants already passed. -/
  | triggerEnable (m : Master) (i : Fin 1024) (v : Word)
  /-- TRIGGER_DISABLE (R189): A write to TU_TRG_CTRL with EN = 0 clears EN and sets the other CTRL fields. -/
  | triggerDisable (m : Master) (i : Fin 1024) (v : Word)
  /-- TSQ_READ (R184): A read of TU_TSQ_W3 with VALID = 1 removes the head entry. -/
  | tsqRead (m : Master)
  /-- PPS_OUT_EDGE (R191): The time unit drives 1PPS_OUT high at each whole second plus offset for WIDTH µs. -/
  | ppsOutEdge (rise : Bool) (dt refCycles : Nat)
  /-- PPS_KEEPER_EDGE (R192): The keeper drives a 1PPS_OUT edge one learnt period after the last. -/
  | ppsKeeperEdge (rise : Bool) (dt : Nat)
  /-- PPS_HOLDOVER_EXPIRY (R192): After 10 s without handback the keeper drives 1PPS_OUT low and sets EXPIRED. -/
  | ppsHoldoverExpiry (dt : Nat)
  /-- PPS_IN_EDGE (R193): A rising edge of 1PPS_IN is captured by capture port 8. -/
  | ppsInEdge (sub : Fin 8) (dt : Nat)
  /-- POINT_TABLE_WRITE (R199): A write to IMG_PTW defines, redefines or undefines a point while commits are disabled. -/
  | pointTableWrite (m : Master) (v : Word)
  /-- COMMIT_ENABLE (R202): A write of CEN = 1 sets E and arms the sample and commit triggers. -/
  | commitEnable (m : Master) (v : Word)
  /-- COMMIT_DISABLE (R203): Clearing CEN disarms both triggers, clears TB0LOCK and stops exports and imports. -/
  | commitDisable (m : Master) (v : Word)
  /-- IMG_PIN (R207): PIN sets Q to E and records the owner. -/
  | imgPin (m : Master)
  /-- IMG_UNPIN (R207): UNPIN from the owner releases the pin. -/
  | imgUnpin (m : Master)
  /-- IMG_WINDOW_READ (R213): A window read returns point data and loads the reading master's quality, timestamp and tag registers. -/
  | imgWindowRead (m : Master) (o : Fin 0x400000) (sz : Size) (tags : Bool) (u : Upset)
  /-- IMG_WPUT (R213): A write to IMG_WPUT performs a point write from the master's write registers. -/
  | imgWput (m : Master) (v : Word)
  /-- EXPORT_ENABLE (R215): A write that sets EN of an export set enables it after its checks. -/
  | exportEnable (m : Master) (x : Fin 16) (v : Word)
  /-- EXPORT_DISABLE (R215): A write to IMG_XCFG that clears EN disables the set and sets its other fields. -/
  | exportDisable (m : Master) (x : Fin 16) (v : Word)
  /-- EXPORT_LATE (R216): A set not handed over by t_k + XOFF − 1 µs is abandoned and EXPLATE counted. -/
  | exportLate (x : Fin 16) (ready dt : Nat)
  /-- IMPORT_FRAME (R219): The importer tests a frame from the IMG port and imports it on time or discards it. -/
  | importFrame (dt : Nat)
  /-- IMPORT_MISS_CHECK (R221): At t_E + D every enabled subscription without a frame for E counts a MISS. -/
  | importMissCheck (dt : Nat)
  /-- SUBSCRIPTION_WRITE (R218): A write of a subscription entry is accepted or refused by its enable and uniqueness rules. -/
  | subscriptionWrite (m : Master) (v : Word)
  /-- MAPPING_WRITE (R218): A write of a mapping entry is accepted or refused by its enable and uniqueness rules. -/
  | mappingWrite (m : Master) (w1 : Bool) (v : Word)
  /-- EPOCH_READ (R222): A read of IMG_EPOCH_LO latches IMG_EPOCH_HI for the reading master. -/
  | epochRead (m : Master)
  /-- HX_START (R241): START checks the schedule and bindings and enters LISTEN, or refuses with SCHERR. -/
  | hxStart (m : Master) (n : Fin 32)
  /-- HX_STOP (R253): STOP finishes the current cycle, or acts as HALT outside ACTIVE and MASTER, then STOPPED. -/
  | hxStop (m : Master) (n : Fin 32)
  /-- HX_HALT (R253): HALT releases the driver within one character and enters STOPPED. -/
  | hxHalt (m : Master) (n : Fin 32)
  /-- DAWN_SEND (R236): A time master sends the dawn message at its expected instant or on the cycle-start pulse. -/
  | dawnSend (n : Fin 32) (dt : Nat)
  /-- POLL_SEND (R238): The time master sends a POLL at the slot start. -/
  | pollSend (n : Fin 32) (late : Bool) (dt : Nat)
  /-- RESP_SEND (R238): A node that received its POLL good and on time sends its RESP at the action point. -/
  | respSend (n : Fin 32) (late : Bool) (dt : Nat)
  /-- HX_FRAME_RECEIVE (R234): A sequencer tests a received frame and uses it, records it or rejects it. -/
  | hxFrameReceive (n : Fin 32) (bytes : List Byte) (framing : Bool) (dt len : Nat)
  /-- RESPONSE_WINDOW_CLOSE (R245): A response window closes with no frame start and NORESP is recorded. -/
  | responseWindowClose (n : Fin 32) (j : Fin 256) (dt : Nat)
  /-- DUSK_START (R237): The dusk window begins at HX_DUSK and the DUSK interrupt is set. -/
  | duskStart (n : Fin 32) (dt : Nat)
  /-- DUSK_SEND (R240): A sender starts a DMSG or CLAIM after the idle time its address requires. -/
  | duskSend (n : Fin 32) (dt : Nat)
  /-- READBACK_ERROR (R227): A transmitted bit differing from its readback stops the driver and abandons the frame. -/
  | readbackError (n : Fin 32) (dt : Nat)
  /-- DUSK_TX_QUEUE (R240): Writing GO = 1 in HX_DTXCTL queues the dusk frame. -/
  | duskTxQueue (m : Master) (n : Fin 32) (v : Word)
  /-- DUSK_TX_WITHDRAW (R240): Writing GO = 0 withdraws the dusk frame unless its transmission has begun. -/
  | duskTxWithdraw (m : Master) (n : Fin 32) (v : Word)
  /-- LISTEN_TIMEOUT (R255): The listen timer of a cold-start-capable sequencer expires and it enters DAYBREAK. -/
  | listenTimeout (n : Fin 32) (dt : Nat)
  /-- CONFIRMATION_END (R255): The confirmation period ends with no yield and the sequencer enters MASTER. -/
  | confirmationEnd (n : Fin 32) (dt : Nat)
  /-- DAYBREAK_BACKOFF_END (R256): The daybreak backoff ends and the sequencer sends its DAYBREAK again. -/
  | daybreakBackoffEnd (n : Fin 32) (dt : Nat)
  /-- DAWN_WINDOW_CLOSE (R260): The last dawn window closes with no dawn accepted; the reference becomes R_exp. -/
  | dawnWindowClose (n : Fin 32) (dt : Nat)
  /-- PASSIVE_TIMEOUT (R261): HX_CYCLEN after entry to PASSIVE the sequencer returns to LISTEN. -/
  | passiveTimeout (n : Fin 32) (dt : Nat)
  /-- BACKUP_TAKEOVER (R263): A standby that heard no frame by its takeover instant sends a DAWN and enters MASTER. -/
  | backupTakeover (n : Fin 32) (dt : Nat)
  /-- CLAIM_WRITE (R265): Writing HX_CLAIM with GO = 1 requests a twilight slot. -/
  | claimWrite (m : Master) (n : Fin 32) (v : Word)
  /-- CLAIM_WITHDRAW (R265): Writing GO = 0 withdraws a claim unless its CLAIM transmission has begun. -/
  | claimWithdraw (m : Master) (n : Fin 32) (v : Word)
  /-- GRANT_WRITE (R266): A write of HX_GRANT queues a grant or release on a master. -/
  | grantWrite (m : Master) (n : Fin 32) (v : Word)
  /-- CAN_START (R272): START moves a bound controller with valid timing to INTEGRATING. -/
  | canStart (m : Master) (n : Fin 32)
  /-- CAN_STOP (R271): STOP ends transfers and pending buffers and enters STOPPED, after recovery if bus-off. -/
  | canStop (m : Master) (n : Fin 32)
  /-- CAN_INTEGRATION_DONE (R271): Eleven consecutive recessive bits move an integrating controller to ACTIVE. -/
  | canIntegrationDone (n : Fin 32)
  /-- CAN_FRAME_RECEIVE (R279): A valid received frame is filtered and stored in the receive FIFO with its timestamp. -/
  | canFrameReceive (n : Fin 32) (frame : CanFrame) (dt len : Nat)
  /-- CAN_TX_SELECT (R276): At intermission end the controller selects a requested buffer for transmission. -/
  | canTxSelect (n : Fin 32)
  /-- CAN_TX_END (R276): A transmit attempt ends as SENT, arbitration lost or error, per the mode. -/
  | canTxEnd (n : Fin 32) (e : CanEnd) (dt len loop : Nat)
  /-- CAN_ERROR (R280): A detected bus error updates LEC, the error counters and ERRS. -/
  | canError (n : Fin 32) (lec : Fin 8) (k : CanErr)
  /-- BUSOFF_RECOVERY (R280): The 128th occurrence of 11 recessive bits returns the controller to ACTIVE. -/
  | busoffRecovery (n : Fin 32) (k : Nat)
  /-- CAN_PROTOCOL_EXCEPTION (R270): A protocol exception returns the controller to INTEGRATING without an error flag. -/
  | canProtocolException (n : Fin 32)
  /-- CAN_REQUEST (R275): REQUEST marks a transmit buffer requested. -/
  | canRequest (m : Master) (n : Fin 32) (b : Fin 3) (v : Word)
  /-- CAN_ABORT (R276): ABORT ends a buffer's request at once, or when its attempt ends. -/
  | canAbort (m : Master) (n : Fin 32) (b : Fin 3)
  /-- CAN_POP (R279): POP removes the head frame of the receive FIFO. -/
  | canPop (m : Master) (n : Fin 32)
  /-- FRAME_FORWARD (R289): A received frame passes the forwarding steps and is queued at each egress port. -/
  | frameForward (p : Fin 12) (data : List Byte) (fcs : Fcs) (busy : Word) (dt : Nat) (sub : Fin 8) (rest : Nat) (csub : Fin 8) (u : EccSeen)
  /-- FRAME_TRANSMIT (R295): An egress port starts its next frame from the highest ready class. -/
  | frameTransmit (p : Fin 12) (dt : Nat) (sub : Fin 8) (u : EccSeen)
  /-- PFC_REFRESH (R298): While a hold lasts the port resends its PFC frame every PFCQ / 2 quanta. -/
  | pfcRefresh (p : Fin 16) (c : Fin 8)
  /-- PFC_FRAME_RECEIVE (R299): A received PFC frame pauses the named classes. -/
  | pfcFrameReceive (p : Fin 12) (classes : Word) (quanta : List Nat)
  /-- PFC_PAUSE_END (R299): A class's pause time runs out. -/
  | pfcPauseEnd (p : Fin 12) (c : Fin 8)
  /-- PRIV_COPY_RESUME (R298): A privileged copy waiting on a full RX ring is written once the ring has room. -/
  | privCopyResume (q : Fin 128)
  /-- FDB_AGEING (R290): A dynamic entry unrefreshed for two ageing periods is removed. -/
  | fdbAgeing
  /-- FDB_READ (R291): READ looks up an FDB entry by key. -/
  | fdbRead (m : Master)
  /-- FDB_WRITE (R291): WRITE writes a static FDB entry, or sets FULL. -/
  | fdbWrite (m : Master)
  /-- FDB_DELETE (R291): DELETE removes the FDB entry with the key. -/
  | fdbDelete (m : Master)
  /-- FDB_FLUSH (R291): FLUSH removes dynamic entries whose ports meet DATA.PORTS. -/
  | fdbFlush (m : Master)
  /-- GATE_CYCLE_START (R300): A gate cycle starts at T_n and the active list runs from entry 0. -/
  | gateCycleStart (p : Fin 12) (dt : Nat)
  /-- GATE_ENTRY_ADVANCE (R300): A gate list entry's interval ends and the next entry's gate states apply. -/
  | gateEntryAdvance (p : Fin 12) (dt : Nat)
  /-- GATE_SWAP (R302): SWAP requests a gate list bank swap and sets PEND. -/
  | gateSwap (m : Master) (p : Fin 12) (v : Word)
  /-- LAUNCH_TIME_REACHED (R304): A head frame waiting for its launch time is launched, or marked late. -/
  | launchTimeReached (q : Fin 96) (dt : Nat) (busy : Bool)
  /-- LINK_UP (R284): An Ethernet link comes up at full duplex, or is held down and REFUSED set. -/
  | linkUp (p : Fin 12) (speed : Fin 8) (half fec : Bool)
  /-- LINK_DOWN (R284): An Ethernet link goes down. -/
  | linkDown (p : Fin 12)
  /-- LMODE_WRITE (R284): A write to SW_P_MODE.LMODE takes the link down and restarts it. -/
  | lmodeWrite (m : Master) (p : Fin 12) (v : Word)
  /-- TX_DESCRIPTOR (R307): The switch reads a TX descriptor and takes or refuses its frame. -/
  | txDescriptor (r : Fin 128)
  /-- RING_ENABLE (R305): A write that sets EN enables a switch ring after its checks. -/
  | ringEnable (m : Master) (r : Fin 128) (v : Word)
  /-- RING_DISABLE (R305): A write that clears EN disables a switch ring. -/
  | ringDisable (m : Master) (r : Fin 128) (v : Word)
  /-- RING_LEN_WRITE (R305): A write to a ring's LEN sets both pointers to 0. -/
  | ringLenWrite (m : Master) (r : Fin 128) (v : Word)
  /-- PRP_ENABLE (R309): A write that sets EN of a PRP pair is accepted only with both ports DISABLED. -/
  | prpEnable (m : Master) (k : Fin 6) (v : Word)
  /-- PRP_FORGET (R309): A duplicate table entry is forgotten after FORGET ms and ONLYA or ONLYB counted. -/
  | prpForget (k : Fin 6) (dt : Nat)
  /-- SEQ_RECOVERY_RESET (R292): A stream's sequence recovery resets after its reset timeout. -/
  | seqRecoveryReset (i : Fin 1024)
  /-- BANK_HANDOVER (R318): A write to MEM_OWN changes a bank's owner from that cycle. -/
  | bankHandover (m : Master) (b : Fin 32) (v : Word)
  /-- GROUP_MEMBERS_WRITE (R318): A supervisor write to MEM_GRP changes ownership of every bank the group owns. -/
  | groupMembersWrite (m : Master) (g : Fin 8) (v : Word)
  /-- MAILBOX_SEND (R322): A write to MBX_PTR stores a pointer and tag and sets FULL, or is refused. -/
  | mailboxSend (m : Master) (k : Fin 64) (v : Word)
  /-- MAILBOX_RECEIVE (R323): A read of MBX_PTR by DST returns the pointer and clears FULL. -/
  | mailboxReceive (m : Master) (k : Fin 64)
  /-- MAILBOX_CONFIG (R321): A supervisor write to MBX_CFG sets a mailbox's sender and receiver while empty. -/
  | mailboxConfig (m : Master) (k : Fin 64) (v : Word)
  /-- MAILBOX_CROSSED (R327): A crossed pair full for XTIME µs sets XING in both mailboxes. -/
  | mailboxCrossed (a b : Fin 64) (dt : Nat)
  /-- LOCK_ACQUIRE (R329): A read of a free lock records the reader as owner. -/
  | lockAcquire (m : Master) (k : Fin 32)
  /-- LOCK_RELEASE (R329): A write of 0 by the owner or a supervisor releases a lock. -/
  | lockRelease (m : Master) (k : Fin 32)
  /-- LOCKSTEP_FAULT (R339): A lockstep difference or cache parity error discards held accesses and resets the pair. -/
  | lockstepFault (p : Fin 2)
  /-- INVALIDATE_DCACHE (R337): A write of INVD invalidates the data caches of both cores. -/
  | invalidateDcache (m : Master) (p : Fin 2)
  /-- INVALIDATE_ICACHE (R337): A write of INVI invalidates the instruction caches of both cores. -/
  | invalidateIcache (m : Master) (p : Fin 2)
  /-- REGION_WRITE (R336): A write to a protection region register is accepted unless locked or invalid. -/
  | regionWrite (m : Master) (p : Fin 2) (r : Fin 32) (o : Fin 3) (v : Word)
  /-- HEARTBEAT (R341): A pair's write of its heartbeat register resets its heartbeat age. -/
  | heartbeat (m : Master) (p : Fin 2) (v : Word)
  /-- HEARTBEAT_TIMEOUT (R341): A ready pair's heartbeat age exceeds HBTO, clearing READY and counting a fault. -/
  | heartbeatTimeout (p : Fin 2) (dt : Nat)
  /-- CLAIM (R343): CLAIM sets READY of the writing pair. -/
  | claim (m : Master)
  /-- UNREADY (R343): UNREADY clears READY of a pair that does not hold the token. -/
  | unready (m : Master)
  /-- RESIGN (R343): RESIGN from the holder sets RESPEND. -/
  | resign (m : Master)
  /-- RESIGN_DUE (R344): A pending resignation falls due and moves the token or lapses. -/
  | resignDue
  /-- ESCALATE (R343): ESCALATE records a fault escalation of a pair. -/
  | escalate (m : Master) (p : Fin 2)
  /-- SAFEREL (R346): SAFEREL from the holder ends SAFE and hands the pins back. -/
  | saferel (m : Master)
  /-- REARM (R343): REARM clears LSF and SPARE of a pair and releases it at ARB_ENTRY. -/
  | rearm (m : Master) (p : Fin 2)
  /-- FAULT_COUNT_CLEAR (R342): A write of ARB_FCNT.CLR = 1 by the boot loader or debug clears FCA and FCB. -/
  | faultCountClear (m : Master)
  /-- PCIE_INBOUND_REQUEST (R353): An inbound PCIe request is split into word accesses and completed or logged. -/
  | pcieInboundRequest (bar : Bar) (o : BitVec 32) (wr : Bool) (ws : List PcieWord) (k : Nat)
  /-- PREFETCH_EXPIRY (R361): Prefetched data older than LIFE µs is dropped. -/
  | prefetchExpiry (spi : Bool) (dt : Nat)
  /-- OUTBOUND_ACCESS (R354): An access to the outbound window is translated to PCIe or refused. -/
  | outboundAccess (m : Master) (o : Fin 0x80000000) (sz : Size) (x : Acc)
  /-- OUTBOUND_TIMEOUT (R354): An outbound read without completion in 50 ms receives an error response. -/
  | outboundTimeout (i : Fin 64) (dt : Nat)
  /-- PCIE_LINK_UP (R30): The PCIe link comes up and held interrupts become deliverable. -/
  | pcieLinkUp (speed width : Fin 8)
  /-- PCIE_LINK_DOWN (R354): Link down or hot reset fails waiting outbound requests and sets LINK. -/
  | pcieLinkDown
  /-- SPI_WRITE (R358): The SPI WRITE command writes each completed word. -/
  | spiWrite (a : Word) (bytes : List Byte)
  /-- SPI_READREQ (R358): The SPI READREQ command starts a delayed read of N words. -/
  | spiReadreq (a : Word) (n : Byte)
  /-- SPI_FETCH (R358): The SPI FETCH command shifts out and releases the held read result. -/
  | spiFetch (n : Nat)
  /-- SPI_STATUS (R358): The SPI STATUS command returns only the status byte. -/
  | spiStatus
  /-- SPI_BAD_COMMAND (R358): An unknown SPI command byte makes the bridge ignore the frame and count BADCMD. -/
  | spiBadCommand
  /-- SPI_READ_DONE (R359): A delayed SPI read completes, sets RDY and starts the discard timer. -/
  | spiReadDone (k : Nat)
  /-- SPI_DISCARD (R359): A read result not fetched within DTIMER is discarded and DISC set. -/
  | spiDiscard (dt : Nat)
  /-- COLD_START (R369): Release of the last cold source starts the fuse load, PLL start and image load. -/
  | coldStart (cut : Bool)
  /-- PLL_LOCK (R369): The root PLL locks, the dividers are released and the loader starts. -/
  | pllLock
  /-- WARM_START (R371): Release of a warm reset restarts start-up from the PLL or memory initialisation step. -/
  | warmStart
  /-- LOAD_ATTEMPT (R375): The loader attempts to load copy A or B, counting failures and falling back. -/
  | loadAttempt (d : FlashShow) (run : Option (List Nat)) (late : Bool)
  /-- REGISTER_REPLAY (R377): After a narrower reset the loader rewrites a target's image register values and releases it. -/
  | registerReplay (fail : Bool)
  /-- FLASH_ERASE (R378): ERASE erases one 64 KiB flash sector. -/
  | flashErase (m : Master)
  /-- FLASH_PROGRAM (R378): PROGRAM programs a 256-byte flash page from FUSRC. -/
  | flashProgram (m : Master)
  /-- FLASH_VERIFY (R378): VERIFY checks a copy without writing destinations and sets VCODE. -/
  | flashVerify (m : Master) (copy : Bool)
  /-- CLRCNT (R378): CLRCNT clears CONSEC after a good VERIFY of copy A. -/
  | clrcnt (m : Master)
  /-- RAISESVN (R378): RAISESVN blows ROLLBACK bits up to the loaded image's SVN. -/
  | raisesvn (m : Master)
  /-- FLASH_ABORT (R378): ABORT stops new flash commands and sets RES to ABORTED. -/
  | flashAbort (m : Master)
  /-- RELOADPE (R378): RELOADPE rewrites an engine's scratchpad sections and registers from the loaded copy. -/
  | reloadpe (m : Master)
  /-- FLASH_OP_DONE (R379): A flash update operation completes, setting FUDONE and RES. -/
  | flashOpDone (fail manifest : Bool)
  /-- DEBUG_UNLOCK (R380): An unlock token is checked and debug becomes usable or stays locked. -/
  | debugUnlock (qx qy r t : BitVec 256)
  /-- EXTEST_SELECT (R381): Selecting EXTEST drives the field pins from the boundary register and asserts a cold source. -/
  | extestSelect
  /-- EXTEST_EXIT (R381): Leaving EXTEST releases its cold source and a cold start follows. -/
  | extestExit
  /-- FUSE_BLOW (R382): A write to LDR_FPROG blows one fuse bit if allowed. -/
  | fuseBlow (m : Master) (b : BitVec 12)
  /-- FUSE_BLOW_DONE (R382): A fuse blow ends with read-back, setting ERR on failure and FPDONE. -/
  | fuseBlowDone (ok : Bool)
  /-- POWER_UP_START (R387): After 10 ms of valid VAON without VIN_WARN the sequencer raises PWR_EN0. -/
  | powerUpStart
  /-- POWER_UP_STEP (R387): A power-good condition holds and the next regulator enables rise. -/
  | powerUpStep (pg : BitVec 6) (vdd : Bool)
  /-- POWER_UP_SETTLED (R387): The 1 ms settling ends, COREPOR is released and STATE becomes ON. -/
  | powerUpSettled
  /-- POWER_UP_TIMEOUT (R388): A power-up step not met within TPG powers down and enters RETRY. -/
  | powerUpTimeout
  /-- RETRY_END (R388): The 1 s RETRY wait ends. -/
  | retryEnd
  /-- POWER_DOWN_STEP (R389): The next power-down lowering follows power-good low or its 20 ms limit plus TDN. -/
  | powerDownStep (pg : BitVec 6) (limit : Bool)
  /-- SUPPLY_WARNING (R390): A warning crossing on a monitored rail is an internal brown-out warning. -/
  | supplyWarning (rail : Rail)
  /-- SUPPLY_FAIL (R390): A fail crossing asserts the BROWNOUT source. -/
  | supplyFail (i : Fin 4)
  /-- BANK_UNDERVOLTAGE (R390): A VDDIO_Bg fail crossing asserts BANKUV of the group. -/
  | bankUndervoltage (g : Fin 16)
  /-- RAIL_RECOVERY (R390): A rail above its threshold for 1 ms counts as recovered and releases its source. -/
  | railRecovery (full : Bool) (rail : Rail)
  /-- HOLD_UP_START (R391): A persisted warning begins hold-up: commits stop, pins go safe, wear is persisted. -/
  | holdUpStart
  /-- HOLD_UP_END (R391): At t_w + HOLDT COREPOR is asserted and power-down begins. -/
  | holdUpEnd
  /-- DOMAIN_OFF (R393): Setting a PMU_PDCTRL bit asserts PDOFF, isolates and switches the domain off. -/
  | domainOff (m : Master) (d : Fin 27)
  /-- DOMAIN_ON (R393): Clearing a PMU_PDCTRL bit switches the domain on and clears its memories. -/
  | domainOn (m : Master) (d : Fin 27)
  /-- DOMAIN_OFF_DONE (R393): PMU_PDSTAT shows the domain off. -/
  | domainOffDone (d : Fin 27)
  /-- DOMAIN_ON_DONE (R393): The domain's memories are cleared, PDOFF is released and PDDONE is set. -/
  | domainOnDone (d : Fin 27)
  /-- RESETIN_ASSERT (R396): RESETIN held for 1 µs asserts a cold reset source. -/
  | resetinAssert
  /-- RESETIN_RELEASE (R396): RESETIN deasserted releases its source. -/
  | resetinRelease
  /-- AONPOR_ASSERT (R396): VAON and VBAT both invalid assert AONPOR and clear PD_AON. -/
  | aonporAssert
  /-- AONPOR_RELEASE (R396): AONPOR is released 10 ms after a supply becomes valid. -/
  | aonporRelease (vaon : Bool)
  /-- RESET_SOURCE_EXPIRY (R396): A timed reset source is released after its fixed duration. -/
  | resetSourceExpiry (src : TimedSrc)
  /-- SWSUB_ASSERT (R402): ASSERT sets the SWSUB source of a target. -/
  | swsubAssert (m : Master) (t : Fin 29)
  /-- SWSUB_RELEASE (R402): RELEASE clears the SWSUB source of a target. -/
  | swsubRelease (m : Master) (t : Fin 29)
  /-- SWSUB_PULSE (R402): PULSE asserts SWSUB on a target for 1 µs. -/
  | swsubPulse (m : Master) (t : Fin 29)
  /-- SW_WARM_RESET (R402): WARM asserts the SWWARM source. -/
  | swWarmReset (m : Master)
  /-- SW_COLD_RESET (R402): COLD asserts the SWCOLD source. -/
  | swColdReset (m : Master)
  /-- BLOCK_RESET_WRITE (R396): A write to RST_BLKCAN or RST_BLKHX asserts or releases BLOCK for each controller or sequencer. -/
  | blockResetWrite (m : Master) (hx : Bool) (v : Word)
  /-- ADC_SAMPLE (R408): A list entry is sampled and its code written; the last ends the list and pulses the drive port. -/
  | adcSample (x : Fin 2) (code : BitVec 16)
  /-- RTC_TICK (R415): The RTC advances one second, driving wear timing and calendar evaluation. -/
  | rtcTick
  /-- RTC_LOAD (R416): LOAD sets the RTC count and clears the prescaler at the next CLK_32K edge. -/
  | rtcLoad (m : Master)
  /-- RTC_READ (R415): A read of AON_RTC_SECLO returns the count and latches the other RTC fields. -/
  | rtcRead (m : Master)
  /-- OSC_LOSS (R415): No CLK_32K edge for 200 µs clears OSCOK and stops the RTC. -/
  | oscLoss
  /-- OSC_READY (R415): After 32,768 crystal cycles OSCOK becomes 1. -/
  | oscReady
  /-- AON_SUPPLY_SWITCH (R413): PD_AON changes between VAON and VBAT, counting changes to VBAT. -/
  | aonSupplySwitch (vaon : Bool)
  /-- SLOT_REMOVE (R421): SLOT_PRS_n deasserted for 1 ms cuts slot power and enters EMPTY. -/
  | slotRemove (k : Fin 32)
  /-- SLOT_INSERT (R421): SLOT_PRS_n asserted for 100 ms enters IDENT and reads the module records. -/
  | slotInsert (k : Fin 32)
  /-- SLOT_IDENTIFY (R427): Identification completes, choosing the wear record and charging the insertion, or rejects. -/
  | slotIdentify (k : Fin 32) (ok : Bool) (id p0 p1 : List Byte) (flt : Bool)
  /-- SLOT_ON (R421): The ON command asserts SLOT_EN_n. -/
  | slotOn (m : Master) (k : Fin 32)
  /-- SLOT_OFF (R421): The OFF command deasserts SLOT_EN_n and writes the record. -/
  | slotOff (m : Master) (k : Fin 32)
  /-- SLOT_CLEAR (R421): CLEAR moves a FAULT slot to OFF or a REJECT slot to IDENT. -/
  | slotClear (m : Master) (k : Fin 32)
  /-- SLOT_OVERCURRENT (R423): SLOT_FLT_n held for tOC cuts power and enters FAULT. -/
  | slotOvercurrent (k : Fin 32)
  /-- SURGE_PULSE (R424): A classified SLOT_FLT_n pulse counts its class and adds its wear weight. -/
  | surgePulse (k : Fin 32) (w : Nat)
  /-- SLOT_TEMP_READ (R429): The slot manager reads a module's temperature and sets its wear band. -/
  | slotTempRead (k : Fin 32) (t : Option Nat)
  /-- WEAR_WRITE_DONE (R430): The EEPROM acknowledges the write, PEND clears and SEQ advances. -/
  | wearWriteDone (k : Fin 32)
  /-- WEAR_WRITE_ABANDON (R430): A write without acknowledgement in 10 ms, or with a bus error or removal, is abandoned. -/
  | wearWriteAbandon (k : Fin 32)
  /-- WEAR_WRITE_RETRY (R430): An abandoned write is retried after 60 RTC ticks. -/
  | wearWriteRetry (k : Fin 32)
  /-- SURVEY_WRITE (R434): A supervisor write of an AON_SURV entry clears its latches and evaluates it. -/
  | surveyWrite (m : Master) (i : Fin 16) (v : Word)
  /-- ELOG_READ (R440): A read of MEM_ELOG_W3 with VALID = 1 removes the oldest entry. -/
  | elogRead (m : Master)
  /-- BIST_START (R444): START runs March C− on a bank owned by ID 12, or reports BUSY. -/
  | bistStart (m : Master) (b : Fin 32)
  /-- BIST_ABORT (R444): ABORT ends a running BIST with RES = ABORTED. -/
  | bistAbort (m : Master)
  /-- BIST_DONE (R444): A BIST ends with PASS or FAIL and clears the bank. -/
  | bistDone (fails : Nat) (word : BitVec 16)
  /-- FT_START (R447): START runs a forced test on a target held only by SWSUB. -/
  | ftStart (m : Master) (t : Fin 29)
  /-- FT_DONE (R447): A forced test ends and reports its result. -/
  | ftDone (fails cells : Nat)
  /-- ADC_CAL_REQUEST (R445): A write of an ADC bit of MEM_CAL_CMD requests converter calibration. -/
  | adcCalRequest (m : Master) (x : Fin 2)
  /-- ADC_CAL_DONE (R445): ADC calibration completes, coefficients apply from the next list and DONE increments. -/
  | adcCalDone (x : Fin 2)
  /-- SERDES_CAL_REQUEST (R446): A write of an ETH bit of MEM_CAL_CMD requests SERDES recalibration. -/
  | serdesCalRequest (m : Master) (p : Fin 12)
  /-- SERDES_CAL_START (R446): A pending recalibration starts at link down or in a closed gate window. -/
  | serdesCalStart (p : Fin 12)
  /-- SERDES_CAL_DONE (R446): A SERDES recalibration completes and clears its pending bit. -/
  | serdesCalDone (p : Fin 12)
  /-- UNCLAIMED_HEARTBEAT_AGE_EXPIRY (R343): In single-pair mode with SPAREAUTO, pair A's heartbeat age since release exceeds HBTO before it ever claims, so failed(a) holds and the spare pair B is released. -/
  | unclaimedHeartbeatAgeExpiry (dt : Nat)
  /-- OUTBOUND_COMPLETION (R354): The host returns the completion of an outbound read, delivering the data or, for Unsupported Request or Completer Abort, an error response with cause 1. -/
  | outboundCompletion (i : Fin 64) (data : BitVec 64) (ok : Bool)
  /-- STOP_CYCLE_FINISHED (R253): A sequencer given STOP in ACTIVE or MASTER finishes its current cycle and then enters STOPPED. -/
  | stopCycleFinished (n : Fin 32) (dt : Nat)
  /-- PGOOD_FALL (R388): A PGOOD input that falls while the sequencer is ON is an internal brown-out warning that starts hold-up. -/
  | pgoodFall (i : Fin 6)
  /-- PCIE_CONFIG_REQUEST (R351): A host configuration request enables or disables bus mastering or moves the function between D0 and D3hot, making held MSI-X messages deliverable or not. -/
  | pcieConfigRequest (bme d3 : Bool)
deriving DecidableEq, Repr

end Sys2Proof
end

