-- ==== Sys2Proof/Config.lean ====
section
/-! DEFINITION. What an implementation fixes and the spec leaves open: free values, as constants without a body, so that no
proof can see what they are (DESIGN CHOICE, log entry 4). -/

namespace Sys2Proof

/-- A free 32-bit value: the n-th value the spec leaves open. Nothing constrains it. -/
opaque Config.freeWord : Nat → Word

/-- A free bit. -/
opaque Config.freeBit : Nat → Bool

/-- The base of the exception vectors of a control pair, which no register gives (R147, R334; DESIGN CHOICE, log entry 24). -/
opaque Config.pairVBase : Bool → Word

/-- Whether the FPU detects tininess before rounding (IEEE 754-2019 section 7.5; PRESUMED, log entry 25). -/
opaque Config.tinyBefore : Bool

end Sys2Proof
end

