-- ==== Sys2Proof/Machine/Regs.lean ====
section
/-! DEFINITION. The registers of every block, from the register tables of spec/: one address per register, and one
descriptor per offset (which bits are RW, W1C, RC, WO and RWO under R8, and the reset word; every other bit reads as
reserved or read-only). Where a table gives a reset of "image", "fuse" or "PD_AON" the word here holds 0 (log entries 3, 5, 6). -/

namespace Sys2Proof.Machine

/-- The access types of the bits of one register (Table 0.3), and its reset word. -/
structure RegDesc where
  rw : Word
  w1c : Word
  rc : Word
  wo : Word
  rwo : Word
  reset : Word
deriving DecidableEq, Repr

/-! Addresses: check unit (Tables 4.2 to 4.8), offsets in the host block. -/
abbrev CHK_CFG (b : Nat) : Nat := b + 0x100
abbrev CHK_POLY (b : Nat) : Nat := b + 0x104
abbrev CHK_INIT (b : Nat) : Nat := b + 0x108
abbrev CHK_XOROUT (b : Nat) : Nat := b + 0x10C
abbrev CHK_RUN (b : Nat) : Nat := b + 0x110
abbrev CHK_HOLD (b : Nat) : Nat := b + 0x114
abbrev CHK_STATE (b : Nat) : Nat := b + 0x118
abbrev CHK_FED (b : Nat) : Nat := b + 0x11C
abbrev CHK_RESULT (b : Nat) : Nat := b + 0x120
abbrev CHK_RXVAL (b : Nat) : Nat := b + 0x124
abbrev CHK_STAT (b : Nat) : Nat := b + 0x128
abbrev CHK_COUNT (b : Nat) : Nat := b + 0x12C
abbrev CHK_CMD (b : Nat) : Nat := b + 0x130
abbrev CHK_FEED1 (b : Nat) : Nat := b + 0x134
abbrev CHK_FEED2 (b : Nat) : Nat := b + 0x138
abbrev CHK_FEED4 (b : Nat) : Nat := b + 0x13C
/-! Addresses: cell (Tables 2.16 to 2.35). -/
abbrev CELL_CTRL (c : Nat) : Nat := 0x30000000 + c * 0x1000
abbrev CELL_STATUS (c : Nat) : Nat := 0x30000000 + c * 0x1000 + 0x4
abbrev CELL_MODE (c : Nat) : Nat := 0x30000000 + c * 0x1000 + 0x8
abbrev CELL_SHCFG (c : Nat) : Nat := 0x30000000 + c * 0x1000 + 0xC
abbrev CELL_DIV (c : Nat) : Nat := 0x30000000 + c * 0x1000 + 0x10
abbrev CELL_SGRP (c : Nat) : Nat := 0x30000000 + c * 0x1000 + 0x14
abbrev CELL_FIFOCFG (c : Nat) : Nat := 0x30000000 + c * 0x1000 + 0x18
abbrev CELL_FIFOSTAT (c : Nat) : Nat := 0x30000000 + c * 0x1000 + 0x1C
abbrev CELL_TXDATA (c : Nat) : Nat := 0x30000000 + c * 0x1000 + 0x20
abbrev CELL_RXDATA (c : Nat) : Nat := 0x30000000 + c * 0x1000 + 0x24
abbrev CELL_SHIFT (c : Nat) : Nat := 0x30000000 + c * 0x1000 + 0x28
abbrev CELL_SHSTAT (c : Nat) : Nat := 0x30000000 + c * 0x1000 + 0x2C
abbrev CELL_CT0 (c : Nat) : Nat := 0x30000000 + c * 0x1000 + 0x30
abbrev CELL_CT1 (c : Nat) : Nat := 0x30000000 + c * 0x1000 + 0x34
abbrev CELL_FLAGS (c : Nat) : Nat := 0x30000000 + c * 0x1000 + 0x38
abbrev CELL_EVDRV (c : Nat) : Nat := 0x30000000 + c * 0x1000 + 0x3C
abbrev CELL_EVLSN (c : Nat) : Nat := 0x30000000 + c * 0x1000 + 0x40
abbrev CELL_PINCFG (c : Nat) : Nat := 0x30000000 + c * 0x1000 + 0x44
abbrev CELL_CAPCFG (c : Nat) : Nat := 0x30000000 + c * 0x1000 + 0x48
abbrev CELL_PINS (c : Nat) : Nat := 0x30000000 + c * 0x1000 + 0x4C
abbrev CELL_TSA_NS (c : Nat) : Nat := 0x30000000 + c * 0x1000 + 0x50
abbrev CELL_TSA_SEC (c : Nat) : Nat := 0x30000000 + c * 0x1000 + 0x54
abbrev CELL_TSB_NS (c : Nat) : Nat := 0x30000000 + c * 0x1000 + 0x58
abbrev CELL_TSB_SEC (c : Nat) : Nat := 0x30000000 + c * 0x1000 + 0x5C
abbrev CELL_IRQSTAT (c : Nat) : Nat := 0x30000000 + c * 0x1000 + 0x60
abbrev CELL_IRQEN (c : Nat) : Nat := 0x30000000 + c * 0x1000 + 0x64
abbrev CELL_IRQROUTE (c : Nat) : Nat := 0x30000000 + c * 0x1000 + 0x68
abbrev CELL_BANK (c i : Nat) : Nat := 0x30000000 + c * 0x1000 + 0x800 + i * 4
/-! Addresses: event fabric (Tables 5.7 to 5.11, 3.9 to 3.14). -/
abbrev EVF_CHCNT (i : Nat) : Nat := 0x30200000 + i * 4
abbrev EVF_SWPULSE0 : Nat := 0x30200100
abbrev EVF_SWPULSE1 : Nat := 0x30200104
abbrev EVF_DSRC (i : Nat) : Nat := 0x30201000 + i * 0x8
abbrev EVF_DRSP (i : Nat) : Nat := 0x30201004 + i * 0x8
abbrev EVF_SGCFG (i : Nat) : Nat := 0x30208000 + i * 4
abbrev EVF_SGCMD : Nat := 0x30208080
abbrev EVF_SGCNT (i : Nat) : Nat := 0x30208100 + i * 4
abbrev EVF_DMA_CFG (i : Nat) : Nat := 0x30209000 + i * 0x20
abbrev EVF_DMA_BASE (i : Nat) : Nat := 0x30209004 + i * 0x20
abbrev EVF_DMA_LEN (i : Nat) : Nat := 0x30209008 + i * 0x20
abbrev EVF_DMA_HWPTR (i : Nat) : Nat := 0x3020900C + i * 0x20
abbrev EVF_DMA_SWPTR (i : Nat) : Nat := 0x30209010 + i * 0x20
abbrev EVF_DMA_STAT (i : Nat) : Nat := 0x30209014 + i * 0x20
abbrev EVF_DMA_ROUTE (i : Nat) : Nat := 0x30209018 + i * 0x20
/-! Addresses: shadow cell (Tables 5.12 to 5.17). -/
abbrev EVF_SHD_CTRL (g : Nat) : Nat := 0x30100000 + g * 0x1000
abbrev EVF_SHD_STATUS (g : Nat) : Nat := 0x30100000 + g * 0x1000 + 0x4
abbrev EVF_SHD_EXCL (g : Nat) : Nat := 0x30100000 + g * 0x1000 + 0x8
abbrev EVF_SHD_MMREC (g : Nat) : Nat := 0x30100000 + g * 0x1000 + 0xC
abbrev EVF_SHD_MMTS_NS (g : Nat) : Nat := 0x30100000 + g * 0x1000 + 0x10
abbrev EVF_SHD_MMTS_SEC (g : Nat) : Nat := 0x30100000 + g * 0x1000 + 0x14
abbrev EVF_SHD_COUNT (g : Nat) : Nat := 0x30100000 + g * 0x1000 + 0x18
abbrev EVF_SHD_CMD (g : Nat) : Nat := 0x30100000 + g * 0x1000 + 0x1C
abbrev EVF_SHD_IRQSTAT (g : Nat) : Nat := 0x30100000 + g * 0x1000 + 0x20
abbrev EVF_SHD_IRQEN (g : Nat) : Nat := 0x30100000 + g * 0x1000 + 0x24
abbrev EVF_SHD_IRQROUTE (g : Nat) : Nat := 0x30100000 + g * 0x1000 + 0x28
/-! Addresses: engine (Tables 6.12 to 6.19). -/
abbrev PE_CTRL (n : Nat) : Nat := 0x100F0000 + n * 0x100000
abbrev PE_VBASE (n : Nat) : Nat := 0x100F0000 + n * 0x100000 + 0x4
abbrev PE_CP7CFG (n : Nat) : Nat := 0x100F0000 + n * 0x100000 + 0x8
abbrev PE_FAULT (n : Nat) : Nat := 0x100F0000 + n * 0x100000 + 0xC
abbrev PE_FAULTPC (n : Nat) : Nat := 0x100F0000 + n * 0x100000 + 0x10
abbrev PE_ECC (n : Nat) : Nat := 0x100F0000 + n * 0x100000 + 0x14
abbrev PE_IRQSTAT (n : Nat) : Nat := 0x100F0000 + n * 0x100000 + 0x18
abbrev PE_IRQEN (n : Nat) : Nat := 0x100F0000 + n * 0x100000 + 0x1C
abbrev PE_IRQROUTE (n : Nat) : Nat := 0x100F0000 + n * 0x100000 + 0x20
abbrev PE_IDLE (n : Nat) : Nat := 0x100F0000 + n * 0x100000 + 0x24
abbrev PE_CTX_CTRL (n i : Nat) : Nat := 0x100F0000 + n * 0x100000 + 0x100 + i * 0x80
abbrev PE_CTX_STAT (n i : Nat) : Nat := 0x100F0000 + n * 0x100000 + 0x104 + i * 0x80
abbrev PE_CTX_PC (n i : Nat) : Nat := 0x100F0000 + n * 0x100000 + 0x108 + i * 0x80
abbrev PE_CTX_RPC (n i : Nat) : Nat := 0x100F0000 + n * 0x100000 + 0x10C + i * 0x80
abbrev PE_CTX_TINFO (n i : Nat) : Nat := 0x100F0000 + n * 0x100000 + 0x110 + i * 0x80
abbrev PE_CTX_TADDR (n i : Nat) : Nat := 0x100F0000 + n * 0x100000 + 0x114 + i * 0x80
abbrev PE_CTX_DSLO (n i : Nat) : Nat := 0x100F0000 + n * 0x100000 + 0x118 + i * 0x80
abbrev PE_CTX_DSHI (n i : Nat) : Nat := 0x100F0000 + n * 0x100000 + 0x11C + i * 0x80
abbrev PE_CTX_RSBASE (n i : Nat) : Nat := 0x100F0000 + n * 0x100000 + 0x120 + i * 0x80
abbrev PE_CTX_RSLIMIT (n i : Nat) : Nat := 0x100F0000 + n * 0x100000 + 0x124 + i * 0x80
abbrev PE_CTX_RSPTR (n i : Nat) : Nat := 0x100F0000 + n * 0x100000 + 0x128 + i * 0x80
abbrev PE_CTX_WDOG (n i : Nat) : Nat := 0x100F0000 + n * 0x100000 + 0x12C + i * 0x80
abbrev PE_CTX_IPEND (n i : Nat) : Nat := 0x100F0000 + n * 0x100000 + 0x130 + i * 0x80
abbrev PE_CTX_IMASK (n i : Nat) : Nat := 0x100F0000 + n * 0x100000 + 0x134 + i * 0x80
abbrev PE_CTX_ISSUED (n i : Nat) : Nat := 0x100F0000 + n * 0x100000 + 0x138 + i * 0x80
abbrev PE_CTX_SCRATCH (n i : Nat) : Nat := 0x100F0000 + n * 0x100000 + 0x13C + i * 0x80
abbrev PE_CTX_RNEXT (n i : Nat) : Nat := 0x100F0000 + n * 0x100000 + 0x140 + i * 0x80
abbrev PE_CTX_G (n k i : Nat) : Nat := 0x100F0000 + n * 0x100000 + 0x800 + k * 0x80 + i * 4
/-! Addresses: time unit (Tables 8.4, 8.7 to 8.15). -/
abbrev TU_CTRL : Nat := 0x32000000
abbrev TU_STATUS : Nat := 0x32000004
abbrev TU_IRQSTAT : Nat := 0x32000008
abbrev TU_IRQEN : Nat := 0x3200000C
abbrev TU_IRQROUTE : Nat := 0x32000010
abbrev TU_CYCSTAT : Nat := 0x32000040
abbrev TU_CYCROUTE (i : Nat) : Nat := 0x32000080 + i * 4
abbrev TU_TB_NS (i : Nat) : Nat := 0x32000100 + i * 0x40
abbrev TU_TB_SECLO (i : Nat) : Nat := 0x32000104 + i * 0x40
abbrev TU_TB_SECHI (i : Nat) : Nat := 0x32000108 + i * 0x40
abbrev TU_TB_SUB (i : Nat) : Nat := 0x3200010C + i * 0x40
abbrev TU_TB_RATE (i : Nat) : Nat := 0x32000110 + i * 0x40
abbrev TU_TB_OFFNS (i : Nat) : Nat := 0x32000114 + i * 0x40
abbrev TU_TB_OFFSEC (i : Nat) : Nat := 0x32000118 + i * 0x40
abbrev TU_TB_LDSECHI (i : Nat) : Nat := 0x3200011C + i * 0x40
abbrev TU_TB_CMD (i : Nat) : Nat := 0x32000120 + i * 0x40
abbrev TU_TB_STAT (i : Nat) : Nat := 0x32000124 + i * 0x40
abbrev TU_CAP_CFG (i : Nat) : Nat := 0x32000400 + i * 0x10
abbrev TU_CAP_NS (i : Nat) : Nat := 0x32000404 + i * 0x10
abbrev TU_CAP_SEC (i : Nat) : Nat := 0x32000408 + i * 0x10
abbrev TU_PTPDOM (i : Nat) : Nat := 0x32000700 + i * 4
abbrev TU_PORT_INLAT (i : Nat) : Nat := 0x32000800 + i * 0x20
abbrev TU_PORT_EGLAT (i : Nat) : Nat := 0x32000804 + i * 0x20
abbrev TU_PORT_LINKDLY (i : Nat) : Nat := 0x32000808 + i * 0x20
abbrev TU_PORT_NRRO (i : Nat) : Nat := 0x3200080C + i * 0x20
abbrev TU_PORT_CFG (i : Nat) : Nat := 0x32000810 + i * 0x20
abbrev TU_PPS_CFG : Nat := 0x32000B00
abbrev TU_PPS_OFF : Nat := 0x32000B04
abbrev TU_PPS_STAT : Nat := 0x32000B08
abbrev TU_TSQ_W0 : Nat := 0x32000A00
abbrev TU_TSQ_W1 : Nat := 0x32000A04
abbrev TU_TSQ_W2 : Nat := 0x32000A08
abbrev TU_TSQ_W3 : Nat := 0x32000A0C
abbrev TU_TRG_CTRL (i : Nat) : Nat := 0x32010000 + i * 0x20
abbrev TU_TRG_NS (i : Nat) : Nat := 0x32010004 + i * 0x20
abbrev TU_TRG_SECLO (i : Nat) : Nat := 0x32010008 + i * 0x20
abbrev TU_TRG_SECHI (i : Nat) : Nat := 0x3201000C + i * 0x20
abbrev TU_TRG_PERLO (i : Nat) : Nat := 0x32010010 + i * 0x20
abbrev TU_TRG_PERHI (i : Nat) : Nat := 0x32010014 + i * 0x20
abbrev TU_TRG_STAT (i : Nat) : Nat := 0x32010018 + i * 0x20
/-! Addresses: image store (Tables 9.10 to 9.16). -/
abbrev IMG_CTRL : Nat := 0x24400000
abbrev IMG_DEVID : Nat := 0x24400004
abbrev IMG_ETYPE : Nat := 0x24400008
abbrev IMG_TRIG : Nat := 0x2440000C
abbrev IMG_DSTART_NS : Nat := 0x24400010
abbrev IMG_DSTART_SECLO : Nat := 0x24400014
abbrev IMG_DSTART_SECHI : Nat := 0x24400018
abbrev IMG_PERIOD_LO : Nat := 0x2440001C
abbrev IMG_PERIOD_HI : Nat := 0x24400020
abbrev IMG_LEAD : Nat := 0x24400024
abbrev IMG_IMPDL : Nat := 0x24400028
abbrev IMG_RECOV : Nat := 0x2440002C
abbrev IMG_EPOCH_LO : Nat := 0x24400030
abbrev IMG_EPOCH_HI : Nat := 0x24400034
abbrev IMG_PINCMD : Nat := 0x24400040
abbrev IMG_PINSTAT : Nat := 0x24400044
abbrev IMG_PINEP_LO : Nat := 0x24400048
abbrev IMG_PINEP_HI : Nat := 0x2440004C
abbrev IMG_PINMAX : Nat := 0x24400050
abbrev IMG_VIEW : Nat := 0x24400060
abbrev IMG_RQUAL : Nat := 0x24400064
abbrev IMG_RTS_NS : Nat := 0x24400068
abbrev IMG_RTS_SEC : Nat := 0x2440006C
abbrev IMG_RTAG : Nat := 0x24400070
abbrev IMG_WB (i : Nat) : Nat := 0x24400080 + i * 4
abbrev IMG_WTS_NS : Nat := 0x244000C0
abbrev IMG_WTS_SEC : Nat := 0x244000C4
abbrev IMG_WPUT : Nat := 0x244000C8
abbrev IMG_PTIDX : Nat := 0x244000D0
abbrev IMG_PTW : Nat := 0x244000D4
abbrev IMG_XLIDX : Nat := 0x244000D8
abbrev IMG_XLDAT : Nat := 0x244000DC
abbrev IMG_SBIDX : Nat := 0x244000E0
abbrev IMG_SBW0 : Nat := 0x244000E4
abbrev IMG_SBW1 : Nat := 0x244000E8
abbrev IMG_SBW2 : Nat := 0x244000EC
abbrev IMG_MPIDX : Nat := 0x244000F0
abbrev IMG_MPW0 : Nat := 0x244000F4
abbrev IMG_MPW1 : Nat := 0x244000F8
abbrev IMG_IRQSTAT : Nat := 0x24400100
abbrev IMG_IRQEN : Nat := 0x24400104
abbrev IMG_IRQROUTE : Nat := 0x24400108
abbrev IMG_CNT_WR : Nat := 0x24400110
abbrev IMG_CNT_MASK : Nat := 0x24400114
abbrev IMG_CNT_EXP : Nat := 0x24400118
abbrev IMG_CNT_IMP : Nat := 0x2440011C
abbrev IMG_XCFG (i : Nat) : Nat := 0x24400200 + i * 0x10
abbrev IMG_XDALO (i : Nat) : Nat := 0x24400204 + i * 0x10
abbrev IMG_XDAHI (i : Nat) : Nat := 0x24400208 + i * 0x10
abbrev IMG_XOFF (i : Nat) : Nat := 0x2440020C + i * 0x10
/-! Addresses: Huxon sequencer (Tables 10.12 to 10.19, 11.4 to 11.9). -/
abbrev HX_CTRL (n : Nat) : Nat := 0x36000000 + n * 0x1000
abbrev HX_STATUS (n : Nat) : Nat := 0x36000000 + n * 0x1000 + 0x4
abbrev HX_CFG (n : Nat) : Nat := 0x36000000 + n * 0x1000 + 0x8
abbrev HX_ENG (n : Nat) : Nat := 0x36000000 + n * 0x1000 + 0xC
abbrev HX_CYCLEN (n : Nat) : Nat := 0x36000000 + n * 0x1000 + 0x10
abbrev HX_DUSK (n : Nat) : Nat := 0x36000000 + n * 0x1000 + 0x14
abbrev HX_GUARD (n : Nat) : Nat := 0x36000000 + n * 0x1000 + 0x18
abbrev HX_ACCW (n : Nat) : Nat := 0x36000000 + n * 0x1000 + 0x1C
abbrev HX_SCHED (n : Nat) : Nat := 0x36000000 + n * 0x1000 + 0x20
abbrev HX_SCHBASE (n : Nat) : Nat := 0x36000000 + n * 0x1000 + 0x24
abbrev HX_ALTOFF (n : Nat) : Nat := 0x36000000 + n * 0x1000 + 0x28
abbrev HX_PDLY (n : Nat) : Nat := 0x36000000 + n * 0x1000 + 0x2C
abbrev HX_RBDLY (n : Nat) : Nat := 0x36000000 + n * 0x1000 + 0x30
abbrev HX_EVCFG (n : Nat) : Nat := 0x36000000 + n * 0x1000 + 0x34
abbrev HX_CYCNT (n : Nat) : Nat := 0x36000000 + n * 0x1000 + 0x40
abbrev HX_DAWNTS_NS (n : Nat) : Nat := 0x36000000 + n * 0x1000 + 0x44
abbrev HX_DAWNTS_SEC (n : Nat) : Nat := 0x36000000 + n * 0x1000 + 0x48
abbrev HX_MTIME_NS (n : Nat) : Nat := 0x36000000 + n * 0x1000 + 0x4C
abbrev HX_MTIME_SEC (n : Nat) : Nat := 0x36000000 + n * 0x1000 + 0x50
abbrev HX_CNT_SLOT (n : Nat) : Nat := 0x36000000 + n * 0x1000 + 0x54
abbrev HX_CNT_ERR (n : Nat) : Nat := 0x36000000 + n * 0x1000 + 0x58
abbrev HX_CNT_CYC (n : Nat) : Nat := 0x36000000 + n * 0x1000 + 0x5C
abbrev HX_IRQSTAT (n : Nat) : Nat := 0x36000000 + n * 0x1000 + 0x60
abbrev HX_IRQEN (n : Nat) : Nat := 0x36000000 + n * 0x1000 + 0x64
abbrev HX_IRQROUTE (n : Nat) : Nat := 0x36000000 + n * 0x1000 + 0x68
abbrev HX_LASTERR (n : Nat) : Nat := 0x36000000 + n * 0x1000 + 0x6C
abbrev HX_DTXCTL (n : Nat) : Nat := 0x36000000 + n * 0x1000 + 0x70
abbrev HX_DRXSTAT (n : Nat) : Nat := 0x36000000 + n * 0x1000 + 0x74
abbrev HX_BOFF (n : Nat) : Nat := 0x36000000 + n * 0x1000 + 0x80
abbrev HX_BKDLY (n : Nat) : Nat := 0x36000000 + n * 0x1000 + 0x84
abbrev HX_DRIFT (n : Nat) : Nat := 0x36000000 + n * 0x1000 + 0x88
abbrev HX_TWREL (n : Nat) : Nat := 0x36000000 + n * 0x1000 + 0x8C
abbrev HX_SUSTAT (n : Nat) : Nat := 0x36000000 + n * 0x1000 + 0x90
abbrev HX_CORR (n : Nat) : Nat := 0x36000000 + n * 0x1000 + 0x94
abbrev HX_CNT_SU (n : Nat) : Nat := 0x36000000 + n * 0x1000 + 0x98
abbrev HX_CNT_DAWN (n : Nat) : Nat := 0x36000000 + n * 0x1000 + 0x9C
abbrev HX_CLAIM (n : Nat) : Nat := 0x36000000 + n * 0x1000 + 0xA0
abbrev HX_GRANT (n : Nat) : Nat := 0x36000000 + n * 0x1000 + 0xA4
abbrev HX_GRSTAT (n : Nat) : Nat := 0x36000000 + n * 0x1000 + 0xA8
abbrev HX_BPDLY (n i : Nat) : Nat := 0x36000000 + n * 0x1000 + 0xB0 + i * 4
abbrev HX_TWADDR (n i : Nat) : Nat := 0x36000000 + n * 0x1000 + 0x200 + i * 4
abbrev HX_DRXBUF (n i : Nat) : Nat := 0x36000000 + n * 0x1000 + 0x300 + i * 4
abbrev HX_DTXBUF (n i : Nat) : Nat := 0x36000000 + n * 0x1000 + 0x380 + i * 4
abbrev HX_SNDERR (n i : Nat) : Nat := 0x36000000 + n * 0x1000 + 0x400 + i * 4
/-! Addresses: CAN controller (Tables 12.4 to 12.10); TXB b at 0x200 + b * 0x80. -/
abbrev CAN_CTRL (n : Nat) : Nat := 0x31000000 + n * 0x1000
abbrev CAN_STATUS (n : Nat) : Nat := 0x31000000 + n * 0x1000 + 0x4
abbrev CAN_CFG (n : Nat) : Nat := 0x31000000 + n * 0x1000 + 0x8
abbrev CAN_NBT (n : Nat) : Nat := 0x31000000 + n * 0x1000 + 0xC
abbrev CAN_DBT (n : Nat) : Nat := 0x31000000 + n * 0x1000 + 0x10
abbrev CAN_TDC (n : Nat) : Nat := 0x31000000 + n * 0x1000 + 0x14
abbrev CAN_ERR (n : Nat) : Nat := 0x31000000 + n * 0x1000 + 0x18
abbrev CAN_CNT (n : Nat) : Nat := 0x31000000 + n * 0x1000 + 0x1C
abbrev CAN_EVCFG (n : Nat) : Nat := 0x31000000 + n * 0x1000 + 0x20
abbrev CAN_IRQSTAT (n : Nat) : Nat := 0x31000000 + n * 0x1000 + 0x24
abbrev CAN_IRQEN (n : Nat) : Nat := 0x31000000 + n * 0x1000 + 0x28
abbrev CAN_IRQROUTE (n : Nat) : Nat := 0x31000000 + n * 0x1000 + 0x2C
abbrev CAN_RXSTAT (n : Nat) : Nat := 0x31000000 + n * 0x1000 + 0x30
abbrev CAN_RXCMD (n : Nat) : Nat := 0x31000000 + n * 0x1000 + 0x34
abbrev CAN_FLT_ID (n i : Nat) : Nat := 0x31000000 + n * 0x1000 + 0x100 + i * 0x8
abbrev CAN_FLT_MASK (n i : Nat) : Nat := 0x31000000 + n * 0x1000 + 0x104 + i * 0x8
abbrev CAN_TXB_CTRL (n b : Nat) : Nat := 0x31000000 + n * 0x1000 + 0x200 + b * 0x80
abbrev CAN_TXB_ID (n b : Nat) : Nat := 0x31000000 + n * 0x1000 + 0x204 + b * 0x80
abbrev CAN_TXB_STAT (n b : Nat) : Nat := 0x31000000 + n * 0x1000 + 0x208 + b * 0x80
abbrev CAN_TXB_TS_NS (n b : Nat) : Nat := 0x31000000 + n * 0x1000 + 0x20C + b * 0x80
abbrev CAN_TXB_TS_SEC (n b : Nat) : Nat := 0x31000000 + n * 0x1000 + 0x210 + b * 0x80
abbrev CAN_TXB_DATA (n b i : Nat) : Nat := 0x31000000 + n * 0x1000 + 0x240 + i * 4 + b * 0x80
abbrev CAN_RX_ID (n : Nat) : Nat := 0x31000000 + n * 0x1000 + 0x400
abbrev CAN_RX_CTL (n : Nat) : Nat := 0x31000000 + n * 0x1000 + 0x404
abbrev CAN_RX_TS_NS (n : Nat) : Nat := 0x31000000 + n * 0x1000 + 0x408
abbrev CAN_RX_TS_SEC (n : Nat) : Nat := 0x31000000 + n * 0x1000 + 0x40C
abbrev CAN_RX_DATA (n i : Nat) : Nat := 0x31000000 + n * 0x1000 + 0x440 + i * 4
/-! Addresses: loader (Tables 17.8 to 17.11). -/
abbrev LDR_DEVID : Nat := 0x38000000
abbrev LDR_STATUS : Nat := 0x38000004
abbrev LDR_FUSESTAT : Nat := 0x38000008
abbrev LDR_BOOTCNT : Nat := 0x3800000C
abbrev LDR_IMGSVN : Nat := 0x38000010
abbrev LDR_FLASHCAP : Nat := 0x38000014
abbrev LDR_FUCFG : Nat := 0x38000020
abbrev LDR_FUCMD : Nat := 0x38000024
abbrev LDR_FUADDR : Nat := 0x38000028
abbrev LDR_FUSRC : Nat := 0x3800002C
abbrev LDR_FUSTAT : Nat := 0x38000030
abbrev LDR_IRQSTAT : Nat := 0x38000034
abbrev LDR_IRQEN : Nat := 0x38000038
abbrev LDR_IRQROUTE : Nat := 0x3800003C
abbrev LDR_FPROG : Nat := 0x38000040
abbrev LDR_FPSTAT : Nat := 0x38000044
abbrev LDR_DBGNONCE (i : Nat) : Nat := 0x38000050 + i * 4
abbrev LDR_BUILDID (i : Nat) : Nat := 0x38000060 + i * 4
abbrev LDR_FUSE (i : Nat) : Nat := 0x38000200 + i * 4
abbrev RST_CAUSE : Nat := 0x38001000
abbrev RST_SWRST : Nat := 0x38001004
abbrev RST_SWSRC : Nat := 0x38001008
abbrev RST_SUBSTAT : Nat := 0x3800100C
abbrev RST_BLKCAN : Nat := 0x38001010
abbrev RST_BLKHX : Nat := 0x38001014
abbrev RST_CNT : Nat := 0x38001018
abbrev RST_CTRL : Nat := 0x3800101C
abbrev RST_CLKSTAT : Nat := 0x38001020
abbrev RST_SAFE (i : Nat) : Nat := 0x38001100 + i * 4
/-! Addresses: switch (Tables 13.8 to 13.13). -/
abbrev SW_CTRL : Nat := 0x33000000
abbrev SW_STATUS : Nat := 0x33000004
abbrev SW_STADDR_LO : Nat := 0x33000008
abbrev SW_STADDR_HI : Nat := 0x3300000C
abbrev SW_AGE : Nat := 0x33000010
abbrev SW_BUFCFG : Nat := 0x33000014
abbrev SW_BUFSTAT : Nat := 0x33000018
abbrev SW_RSEED : Nat := 0x3300001C
abbrev SW_IRQSTAT : Nat := 0x33000020
abbrev SW_IRQEN : Nat := 0x33000024
abbrev SW_IRQROUTE : Nat := 0x33000028
abbrev SW_FDB_MACLO : Nat := 0x33000040
abbrev SW_FDB_MACHI : Nat := 0x33000044
abbrev SW_FDB_DATA : Nat := 0x33000048
abbrev SW_FDB_CMD : Nat := 0x3300004C
abbrev SW_CNT : Nat := 0x33000050
abbrev SW_P_CFG (i : Nat) : Nat := 0x33010000 + i * 0x100
abbrev SW_P_MODE (i : Nat) : Nat := 0x33010004 + i * 0x100
abbrev SW_P_LINK (i : Nat) : Nat := 0x33010008 + i * 0x100
abbrev SW_P_PCPMAP (i : Nat) : Nat := 0x3301000C + i * 0x100
abbrev SW_P_PFC (i : Nat) : Nat := 0x33010010 + i * 0x100
abbrev SW_P_PFCTH (i : Nat) : Nat := 0x33010014 + i * 0x100
abbrev SW_P_GCTRL (i : Nat) : Nat := 0x33010018 + i * 0x100
abbrev SW_P_GBASE_NS (i : Nat) : Nat := 0x3301001C + i * 0x100
abbrev SW_P_GBASE_SECLO (i : Nat) : Nat := 0x33010020 + i * 0x100
abbrev SW_P_GBASE_SECHI (i : Nat) : Nat := 0x33010024 + i * 0x100
abbrev SW_P_GCYCLE (i : Nat) : Nat := 0x33010028 + i * 0x100
abbrev SW_P_GCHG_NS (i : Nat) : Nat := 0x3301002C + i * 0x100
abbrev SW_P_GCHG_SECLO (i : Nat) : Nat := 0x33010030 + i * 0x100
abbrev SW_P_GCHG_SECHI (i : Nat) : Nat := 0x33010034 + i * 0x100
abbrev SW_P_CNT0 (i : Nat) : Nat := 0x33010080 + i * 0x100
abbrev SW_P_CNT1 (i : Nat) : Nat := 0x33010084 + i * 0x100
abbrev SW_P_CNT2 (i : Nat) : Nat := 0x33010088 + i * 0x100
abbrev SW_P_CNT3 (i : Nat) : Nat := 0x3301008C + i * 0x100
abbrev SW_P_CNT4 (i : Nat) : Nat := 0x33010090 + i * 0x100
abbrev SW_P_HASH (p i : Nat) : Nat := 0x33010040 + i * 4 + p * 0x100
abbrev SW_WRED_G (i : Nat) : Nat := 0x33020000 + i * 0x10
abbrev SW_WRED_Y (i : Nat) : Nat := 0x33020004 + i * 0x10
abbrev SW_WRED_R (i : Nat) : Nat := 0x33020008 + i * 0x10
abbrev SW_WRED_W (i : Nat) : Nat := 0x3302000C + i * 0x10
abbrev SW_Q_CFG (i : Nat) : Nat := 0x33030000 + i * 0x10
abbrev SW_Q_STAT (i : Nat) : Nat := 0x33030004 + i * 0x10
abbrev SW_Q_DROP (i : Nat) : Nat := 0x33030008 + i * 0x10
abbrev SW_Q_LATE (i : Nat) : Nat := 0x3303000C + i * 0x10
abbrev SW_R_CFG (i : Nat) : Nat := 0x33040000 + i * 0x20
abbrev SW_R_BASE (i : Nat) : Nat := 0x33040004 + i * 0x20
abbrev SW_R_LEN (i : Nat) : Nat := 0x33040008 + i * 0x20
abbrev SW_R_HWPTR (i : Nat) : Nat := 0x3304000C + i * 0x20
abbrev SW_R_SWPTR (i : Nat) : Nat := 0x33040010 + i * 0x20
abbrev SW_R_STAT (i : Nat) : Nat := 0x33040014 + i * 0x20
abbrev SW_R_ROUTE (i : Nat) : Nat := 0x33040018 + i * 0x20
abbrev SW_GATE (p b i : Nat) : Nat := 0x33100000 + p * 0x800 + b * 0x400 + i * 4
abbrev SW_ST_W0 (i : Nat) : Nat := 0x33200000 + i * 0x20
abbrev SW_ST_W1 (i : Nat) : Nat := 0x33200004 + i * 0x20
abbrev SW_ST_W2 (i : Nat) : Nat := 0x33200008 + i * 0x20
abbrev SW_ST_W3 (i : Nat) : Nat := 0x3320000C + i * 0x20
abbrev SW_ST_W4 (i : Nat) : Nat := 0x33200010 + i * 0x20
abbrev SW_ST_W5 (i : Nat) : Nat := 0x33200014 + i * 0x20
abbrev SW_ST_W6 (i : Nat) : Nat := 0x33200018 + i * 0x20
abbrev SW_ST_W7 (i : Nat) : Nat := 0x3320001C + i * 0x20
abbrev SW_MTR_CIR (i : Nat) : Nat := 0x33300000 + i * 0x10
abbrev SW_MTR_CBS (i : Nat) : Nat := 0x33300004 + i * 0x10
abbrev SW_MTR_EIR (i : Nat) : Nat := 0x33300008 + i * 0x10
abbrev SW_MTR_EBS (i : Nat) : Nat := 0x3330000C + i * 0x10
abbrev SW_PRP_CFG (i : Nat) : Nat := 0x33310000 + i * 0x40
abbrev SW_PRP_SEQ (i : Nat) : Nat := 0x33310004 + i * 0x40
abbrev SW_PRP_CNT0 (i : Nat) : Nat := 0x33310008 + i * 0x40
abbrev SW_PRP_CNT1 (i : Nat) : Nat := 0x3331000C + i * 0x40
abbrev SW_PRP_CNT2 (i : Nat) : Nat := 0x33310010 + i * 0x40
abbrev SW_VLAN (i : Nat) : Nat := 0x33320000 + i * 4
/-! Addresses: mailboxes, locks, shared memory and diagnostics (Tables 14.3 to 14.7, 20.6 to 20.8). -/
abbrev MBX_CFG (i : Nat) : Nat := 0x34000000 + i * 0x20
abbrev MBX_PTR (i : Nat) : Nat := 0x34000004 + i * 0x20
abbrev MBX_TAG (i : Nat) : Nat := 0x34000008 + i * 0x20
abbrev MBX_STAT (i : Nat) : Nat := 0x3400000C + i * 0x20
abbrev MBX_ROUTE (i : Nat) : Nat := 0x34000010 + i * 0x20
abbrev MBX_TAGSTG : Nat := 0x34000800
abbrev MBX_XTIME : Nat := 0x34000804
abbrev MBX_LKFREE : Nat := 0x34000808
abbrev MBX_LK (i : Nat) : Nat := 0x34000900 + i * 4
abbrev MEM_OWN (i : Nat) : Nat := 0x34008000 + i * 4
abbrev MEM_GRP (i : Nat) : Nat := 0x34008080 + i * 4
abbrev MEM_SUPV : Nat := 0x340080A0
abbrev MEM_ECC (i : Nat) : Nat := 0x34008100 + i * 4
abbrev MEM_VIOL (i : Nat) : Nat := 0x34008180 + i * 4
abbrev MEM_CONF (i : Nat) : Nat := 0x34008200 + i * 4
abbrev MEM_IRQSTAT : Nat := 0x34008300
abbrev MEM_IRQEN : Nat := 0x34008304
abbrev MEM_IRQROUTE : Nat := 0x34008308
abbrev MEM_ELOG_W0 : Nat := 0x3400C000
abbrev MEM_ELOG_W1 : Nat := 0x3400C004
abbrev MEM_ELOG_W2 : Nat := 0x3400C008
abbrev MEM_ELOG_W3 : Nat := 0x3400C00C
abbrev MEM_ELOG_STAT : Nat := 0x3400C010
abbrev MEM_ELOG_CAUSE0 : Nat := 0x3400C014
abbrev MEM_ELOG_CAUSE1 : Nat := 0x3400C018
abbrev MEM_DGECC_CNT (i : Nat) : Nat := 0x3400C040 + i * 0x8
abbrev MEM_DGECC_LOC (i : Nat) : Nat := 0x3400C044 + i * 0x8
abbrev MEM_BIST_CMD : Nat := 0x3400C080
abbrev MEM_BIST_STAT : Nat := 0x3400C084
abbrev MEM_FT_CMD : Nat := 0x3400C090
abbrev MEM_FT_STAT : Nat := 0x3400C094
abbrev MEM_FT_CELL : Nat := 0x3400C098
abbrev MEM_CAL_CMD : Nat := 0x3400C0A0
abbrev MEM_CAL_STAT : Nat := 0x3400C0A4
abbrev MEM_DG_IRQSTAT : Nat := 0x3400C0C0
abbrev MEM_DG_IRQEN : Nat := 0x3400C0C4
abbrev MEM_DG_IRQROUTE : Nat := 0x3400C0C8
/-! Addresses: leadership arbiter (Tables 15.5 to 15.7). -/
abbrev ARB_CFG : Nat := 0x39000000
abbrev ARB_STATUS : Nat := 0x39000004
abbrev ARB_CMD : Nat := 0x39000008
abbrev ARB_HB (i : Nat) : Nat := 0x3900000C + i * 4
abbrev ARB_FCNT : Nat := 0x39000014
abbrev ARB_LAST : Nat := 0x39000018
abbrev ARB_LAST_NS : Nat := 0x3900001C
abbrev ARB_MOVES : Nat := 0x39000020
abbrev ARB_MASK : Nat := 0x39000024
abbrev ARB_IRQSTAT : Nat := 0x39000028
abbrev ARB_IRQEN : Nat := 0x3900002C
abbrev ARB_IRQROUTE : Nat := 0x39000030
abbrev ARB_ENTRY : Nat := 0x39000034
/-! Addresses: pair-local registers (Tables 15.8 and 15.9). -/
abbrev ARB_PL_ID (p : Nat) : Nat := 0x40810000 + p * 0x10000
abbrev ARB_PL_CACHE (p : Nat) : Nat := 0x40810000 + p * 0x10000 + 0x4
abbrev ARB_PL_PLOCK (p : Nat) : Nat := 0x40810000 + p * 0x10000 + 0x8
abbrev PL_CTX_CTRL (p : Nat) : Nat := 0x40810000 + p * 0x10000 + 0x100
abbrev PL_CTX_STAT (p : Nat) : Nat := 0x40810000 + p * 0x10000 + 0x104
abbrev PL_CTX_PC (p : Nat) : Nat := 0x40810000 + p * 0x10000 + 0x108
abbrev PL_CTX_RPC (p : Nat) : Nat := 0x40810000 + p * 0x10000 + 0x10C
abbrev PL_CTX_TINFO (p : Nat) : Nat := 0x40810000 + p * 0x10000 + 0x110
abbrev PL_CTX_TADDR (p : Nat) : Nat := 0x40810000 + p * 0x10000 + 0x114
abbrev PL_CTX_DSLO (p : Nat) : Nat := 0x40810000 + p * 0x10000 + 0x118
abbrev PL_CTX_DSHI (p : Nat) : Nat := 0x40810000 + p * 0x10000 + 0x11C
abbrev PL_CTX_RSBASE (p : Nat) : Nat := 0x40810000 + p * 0x10000 + 0x120
abbrev PL_CTX_RSLIMIT (p : Nat) : Nat := 0x40810000 + p * 0x10000 + 0x124
abbrev PL_CTX_RSPTR (p : Nat) : Nat := 0x40810000 + p * 0x10000 + 0x128
abbrev PL_CTX_WDOG (p : Nat) : Nat := 0x40810000 + p * 0x10000 + 0x12C
abbrev PL_CTX_IPEND (p : Nat) : Nat := 0x40810000 + p * 0x10000 + 0x130
abbrev PL_CTX_IMASK (p : Nat) : Nat := 0x40810000 + p * 0x10000 + 0x134
abbrev PL_CTX_ISSUED (p : Nat) : Nat := 0x40810000 + p * 0x10000 + 0x138
abbrev PL_CTX_SCRATCH (p : Nat) : Nat := 0x40810000 + p * 0x10000 + 0x13C
abbrev PL_CTX_RNEXT (p : Nat) : Nat := 0x40810000 + p * 0x10000 + 0x140
abbrev PL_CTX_FCSR (p : Nat) : Nat := 0x40810000 + p * 0x10000 + 0x144
abbrev ARB_PL_RBASE (p i : Nat) : Nat := 0x40810000 + p * 0x10000 + 0x400 + i * 0x10
abbrev ARB_PL_RLIM (p i : Nat) : Nat := 0x40810000 + p * 0x10000 + 0x404 + i * 0x10
abbrev ARB_PL_RATTR (p i : Nat) : Nat := 0x40810000 + p * 0x10000 + 0x408 + i * 0x10
/-! Addresses: host bridge and slot manager (Tables 16.6, 16.7 and 19.9). -/
abbrev HB_CTRL : Nat := 0x3A000000
abbrev HB_STATUS : Nat := 0x3A000004
abbrev HB_IRQSTAT : Nat := 0x3A000008
abbrev HB_IRQEN : Nat := 0x3A00000C
abbrev HB_IRQROUTE : Nat := 0x3A000010
abbrev HB_ERRLOG0 : Nat := 0x3A000014
abbrev HB_ERRLOG1 : Nat := 0x3A000018
abbrev HB_SPICFG : Nat := 0x3A000020
abbrev HB_SPICNT : Nat := 0x3A000024
abbrev HB_PFCFG : Nat := 0x3A000030
abbrev HB_PFCNT : Nat := 0x3A000034
abbrev HB_PFW_BASE (i : Nat) : Nat := 0x3A000040 + i * 0x8
abbrev HB_PFW_LIM (i : Nat) : Nat := 0x3A000044 + i * 0x8
abbrev HB_PFLOG (i : Nat) : Nat := 0x3A000100 + i * 4
abbrev HB_OBT_LO (i : Nat) : Nat := 0x3A000200 + i * 0x8
abbrev HB_OBT_HI (i : Nat) : Nat := 0x3A000204 + i * 0x8
abbrev HB_MSIX (i : Nat) : Nat := 0x3A001000 + i * 4
abbrev HB_PBA (i : Nat) : Nat := 0x3A001400 + i * 4
abbrev SLOT_CFG (i : Nat) : Nat := 0x3A008000 + i * 0x20
abbrev SLOT_STAT (i : Nat) : Nat := 0x3A008004 + i * 0x20
abbrev SLOT_CMD (i : Nat) : Nat := 0x3A008008 + i * 0x20
abbrev SLOT_TEMP (i : Nat) : Nat := 0x3A00800C + i * 0x20
abbrev SLOT_SEQ (i : Nat) : Nat := 0x3A008010 + i * 0x20
abbrev SLOT_IRQSTAT : Nat := 0x3A008400
abbrev SLOT_IRQEN : Nat := 0x3A008404
abbrev SLOT_IRQROUTE : Nat := 0x3A008408
/-! Addresses: PMU and ADC (Tables 18.14 to 18.16). -/
abbrev PMU_SEQCFG : Nat := 0x37000000
abbrev PMU_SEQSTAT : Nat := 0x37000004
abbrev PMU_HOLDCFG : Nat := 0x37000008
abbrev PMU_MONSTAT : Nat := 0x3700000C
abbrev PMU_BANKV : Nat := 0x37000010
abbrev PMU_PDCTRL : Nat := 0x37000014
abbrev PMU_PDSTAT : Nat := 0x37000018
abbrev PMU_IRQSTAT : Nat := 0x37000020
abbrev PMU_IRQEN : Nat := 0x37000024
abbrev PMU_IRQROUTE : Nat := 0x37000028
abbrev PMU_ADC_CFG (i : Nat) : Nat := 0x37000100 + i * 0x80
abbrev PMU_ADC_EVCFG (i : Nat) : Nat := 0x37000104 + i * 0x80
abbrev PMU_ADC_STAT (i : Nat) : Nat := 0x37000108 + i * 0x80
abbrev PMU_ADC_LIST (x i : Nat) : Nat := 0x37000110 + i * 4 + x * 0x80
abbrev PMU_ADC_RES (x i : Nat) : Nat := 0x37000140 + i * 4 + x * 0x80
/-! Addresses: midnight domain (Tables 19.6 to 19.8). -/
abbrev AON_RTC_SECLO : Nat := 0x08000000
abbrev AON_RTC_SECHI : Nat := 0x08000004
abbrev AON_RTC_SUB : Nat := 0x08000008
abbrev AON_RTC_CAL0 : Nat := 0x0800000C
abbrev AON_RTC_CAL1 : Nat := 0x08000010
abbrev AON_RTC_SETLO : Nat := 0x08000014
abbrev AON_RTC_SETHI : Nat := 0x08000018
abbrev AON_RTC_CMD : Nat := 0x0800001C
abbrev AON_RTC_TRIM : Nat := 0x08000020
abbrev AON_STAT : Nat := 0x08000024
abbrev AON_BATSEC : Nat := 0x08000028
abbrev AON_BATCNT : Nat := 0x0800002C
abbrev AON_IRQSTAT : Nat := 0x08000030
abbrev AON_IRQEN : Nat := 0x08000034
abbrev AON_IRQROUTE : Nat := 0x08000038
abbrev AON_SURV (i : Nat) : Nat := 0x08000100 + i * 4
abbrev AON_SLOT_SERLO (i : Nat) : Nat := 0x08000400 + i * 0x20
abbrev AON_SLOT_SERHI (i : Nat) : Nat := 0x08000404 + i * 0x20
abbrev AON_SLOT_WEARLO (i : Nat) : Nat := 0x08000408 + i * 0x20
abbrev AON_SLOT_WEARHI (i : Nat) : Nat := 0x0800040C + i * 0x20
abbrev AON_SLOT_OPSEC (i : Nat) : Nat := 0x08000410 + i * 0x20
abbrev AON_SLOT_S12 (i : Nat) : Nat := 0x08000414 + i * 0x20
abbrev AON_SLOT_S34 (i : Nat) : Nat := 0x08000418 + i * 0x20
abbrev AON_SLOT_INSOCT (i : Nat) : Nat := 0x0800041C + i * 0x20
abbrev AON_IDW (k j : Nat) : Nat := 0x08000800 + k * 0x40 + j * 4

/-- Descriptor by offset: check unit (Tables 4.2 to 4.8), offsets in the host block. -/
def chkDesc (o : Nat) : Option RegDesc :=
  if o = 0x100 then some ⟨0xF33F, 0x0, 0x0, 0x0, 0x0, 0x10⟩  -- CHK_CFG
  else if o = 0x104 then some ⟨0xFFFFFFFF, 0x0, 0x0, 0x0, 0x0, 0x0⟩  -- CHK_POLY
  else if o = 0x108 then some ⟨0xFFFFFFFF, 0x0, 0x0, 0x0, 0x0, 0x0⟩  -- CHK_INIT
  else if o = 0x10C then some ⟨0xFFFFFFFF, 0x0, 0x0, 0x0, 0x0, 0x0⟩  -- CHK_XOROUT
  else if o = 0x110 then some ⟨0xFFFFFFFF, 0x0, 0x0, 0x0, 0x0, 0x0⟩  -- CHK_RUN
  else if o = 0x114 then some ⟨0xFFFFFFFF, 0x0, 0x0, 0x0, 0x0, 0x0⟩  -- CHK_HOLD
  else if o = 0x118 then some ⟨0xE7FCFF3F, 0x0, 0x0, 0x0, 0x0, 0x0⟩  -- CHK_STATE
  else if o = 0x11C then some ⟨0xFFFFFFFF, 0x0, 0x0, 0x0, 0x0, 0x0⟩  -- CHK_FED
  else if o = 0x120 then some ⟨0x0, 0x0, 0x0, 0x0, 0x0, 0x0⟩  -- CHK_RESULT
  else if o = 0x124 then some ⟨0x0, 0x0, 0x0, 0x0, 0x0, 0x0⟩  -- CHK_RXVAL
  else if o = 0x128 then some ⟨0x0, 0xF, 0x0, 0x0, 0x0, 0x0⟩  -- CHK_STAT
  else if o = 0x12C then some ⟨0x0, 0x0, 0xFFFFFFFF, 0x0, 0x0, 0x0⟩  -- CHK_COUNT
  else if o = 0x130 then some ⟨0x0, 0x0, 0x0, 0x3, 0x0, 0x0⟩  -- CHK_CMD
  else if o = 0x134 then some ⟨0x0, 0x0, 0x0, 0xFFFFFFFF, 0x0, 0x0⟩  -- CHK_FEED1
  else if o = 0x138 then some ⟨0x0, 0x0, 0x0, 0xFFFFFFFF, 0x0, 0x0⟩  -- CHK_FEED2
  else if o = 0x13C then some ⟨0x0, 0x0, 0x0, 0xFFFFFFFF, 0x0, 0x0⟩  -- CHK_FEED4
  else none

/-- Descriptor by offset: cell (Tables 2.16 to 2.35). -/
def cellDesc (o : Nat) : Option RegDesc :=
  if o = 0x0 then some ⟨0x0, 0x0, 0x0, 0x7F000F, 0x0, 0x0⟩  -- CELL_CTRL
  else if o = 0x4 then some ⟨0x0, 0x0, 0x0, 0x0, 0x0, 0x0⟩  -- CELL_STATUS
  else if o = 0x8 then some ⟨0x1F03, 0x0, 0x0, 0x0, 0x0, 0x0⟩  -- CELL_MODE
  else if o = 0xC then some ⟨0x13F, 0x0, 0x0, 0x0, 0x0, 0x20⟩  -- CELL_SHCFG
  else if o = 0x10 then some ⟨0xFFFFFF, 0x0, 0x0, 0x0, 0x0, 0x100⟩  -- CELL_DIV
  else if o = 0x14 then some ⟨0x7F031F, 0x0, 0x0, 0x0, 0x0, 0x0⟩  -- CELL_SGRP
  else if o = 0x18 then some ⟨0x3, 0x0, 0x0, 0x0, 0x0, 0x0⟩  -- CELL_FIFOCFG
  else if o = 0x1C then some ⟨0x0, 0x3000000, 0x0, 0x0, 0x0, 0x0⟩  -- CELL_FIFOSTAT
  else if o = 0x20 then some ⟨0x0, 0x0, 0x0, 0xFFFFFFFF, 0x0, 0x0⟩  -- CELL_TXDATA
  else if o = 0x24 then some ⟨0x0, 0x0, 0xFFFFFFFF, 0x0, 0x0, 0x0⟩  -- CELL_RXDATA
  else if o = 0x28 then some ⟨0xFFFFFFFF, 0x0, 0x0, 0x0, 0x0, 0x0⟩  -- CELL_SHIFT
  else if o = 0x2C then some ⟨0x33F, 0x0, 0x0, 0x0, 0x0, 0x0⟩  -- CELL_SHSTAT
  else if o = 0x30 then some ⟨0xFFFFFFFF, 0x0, 0x0, 0x0, 0x0, 0x0⟩  -- CELL_CT0
  else if o = 0x34 then some ⟨0xFFFFFFFF, 0x0, 0x0, 0x0, 0x0, 0x0⟩  -- CELL_CT1
  else if o = 0x38 then some ⟨0xF, 0x0, 0x0, 0x0, 0x0, 0x0⟩  -- CELL_FLAGS
  else if o = 0x3C then some ⟨0xBFBFBFBF, 0x0, 0x0, 0x0, 0x0, 0x0⟩  -- CELL_EVDRV
  else if o = 0x40 then some ⟨0xBFBFBFBF, 0x0, 0x0, 0x0, 0x0, 0x0⟩  -- CELL_EVLSN
  else if o = 0x44 then some ⟨0x7F007F, 0x0, 0x0, 0x0, 0x0, 0x110011⟩  -- CELL_PINCFG
  else if o = 0x48 then some ⟨0xF, 0x0, 0x0, 0x0, 0x0, 0x0⟩  -- CELL_CAPCFG
  else if o = 0x4C then some ⟨0x0, 0x0, 0x0, 0x0, 0x0, 0x0⟩  -- CELL_PINS
  else if o = 0x50 then some ⟨0x0, 0x0, 0x0, 0x0, 0x0, 0x0⟩  -- CELL_TSA_NS
  else if o = 0x54 then some ⟨0x0, 0xC0, 0x0, 0x0, 0x0, 0x0⟩  -- CELL_TSA_SEC
  else if o = 0x58 then some ⟨0x0, 0x0, 0x0, 0x0, 0x0, 0x0⟩  -- CELL_TSB_NS
  else if o = 0x5C then some ⟨0x0, 0xC0, 0x0, 0x0, 0x0, 0x0⟩  -- CELL_TSB_SEC
  else if o = 0x60 then some ⟨0x0, 0x3F, 0x0, 0x0, 0x0, 0x0⟩  -- CELL_IRQSTAT
  else if o = 0x64 then some ⟨0x3F, 0x0, 0x0, 0x0, 0x0, 0x0⟩  -- CELL_IRQEN
  else if o = 0x68 then some ⟨0xFF1F, 0x0, 0x0, 0x0, 0x0, 0x0⟩  -- CELL_IRQROUTE
  else if 0x800 ≤ o ∧ o < 0x1000 ∧ (o - 0x800) % 4 = 0 then some ⟨0xFFFFFFFF, 0x0, 0x0, 0x0, 0x0, 0x0⟩  -- CELL_BANK
  else none

/-- Descriptor by offset: event fabric (Tables 5.7 to 5.11, 3.9 to 3.14). -/
def evfDesc (o : Nat) : Option RegDesc :=
  if 0x0 ≤ o ∧ o < 0x100 ∧ (o - 0x0) % 4 = 0 then some ⟨0x0, 0x0, 0x0, 0x0, 0x0, 0x0⟩  -- EVF_CHCNT
  else if o = 0x100 then some ⟨0x0, 0x0, 0x0, 0xFFFFFFFF, 0x0, 0x0⟩  -- EVF_SWPULSE0
  else if o = 0x104 then some ⟨0x0, 0x0, 0x0, 0xFFFFFFFF, 0x0, 0x0⟩  -- EVF_SWPULSE1
  else if 0x1000 ≤ o ∧ o < 0x1800 ∧ (o - 0x1000) % 8 = 0 then some ⟨0x7777, 0x0, 0x0, 0x0, 0x0, 0x0⟩  -- EVF_DSRC
  else if 0x1004 ≤ o ∧ o < 0x1804 ∧ (o - 0x1004) % 8 = 0 then some ⟨0xF370F37, 0x0, 0x0, 0x0, 0x0, 0x0⟩  -- EVF_DRSP
  else if 0x8000 ≤ o ∧ o < 0x8080 ∧ (o - 0x8000) % 4 = 0 then some ⟨0xC03F, 0x0, 0x0, 0x0, 0x0, 0x0⟩  -- EVF_SGCFG
  else if o = 0x8080 then some ⟨0x0, 0x0, 0x0, 0xFFFFFFFF, 0x0, 0x0⟩  -- EVF_SGCMD
  else if 0x8100 ≤ o ∧ o < 0x8180 ∧ (o - 0x8100) % 4 = 0 then some ⟨0x0, 0x0, 0x0, 0x0, 0x0, 0x0⟩  -- EVF_SGCNT
  else if 0x9000 ≤ o ∧ o < 0x9400 ∧ (o - 0x9000) % 32 = 0 then some ⟨0xE0FF1FFF, 0x0, 0x0, 0x0, 0x0, 0x0⟩  -- EVF_DMA_CFG
  else if 0x9004 ≤ o ∧ o < 0x9404 ∧ (o - 0x9004) % 32 = 0 then some ⟨0xFFFFFFFF, 0x0, 0x0, 0x0, 0x0, 0x0⟩  -- EVF_DMA_BASE
  else if 0x9008 ≤ o ∧ o < 0x9408 ∧ (o - 0x9008) % 32 = 0 then some ⟨0xFFFF, 0x0, 0x0, 0x0, 0x0, 0x0⟩  -- EVF_DMA_LEN
  else if 0x900C ≤ o ∧ o < 0x940C ∧ (o - 0x900C) % 32 = 0 then some ⟨0x0, 0x0, 0x0, 0x0, 0x0, 0x0⟩  -- EVF_DMA_HWPTR
  else if 0x9010 ≤ o ∧ o < 0x9410 ∧ (o - 0x9010) % 32 = 0 then some ⟨0xFFFF, 0x0, 0x0, 0x0, 0x0, 0x0⟩  -- EVF_DMA_SWPTR
  else if 0x9014 ≤ o ∧ o < 0x9414 ∧ (o - 0x9014) % 32 = 0 then some ⟨0x0, 0x7, 0xFFFF0000, 0x0, 0x0, 0x0⟩  -- EVF_DMA_STAT
  else if 0x9018 ≤ o ∧ o < 0x9418 ∧ (o - 0x9018) % 32 = 0 then some ⟨0xFF1F, 0x0, 0x0, 0x0, 0x0, 0x0⟩  -- EVF_DMA_ROUTE
  else none

/-- Descriptor by offset: shadow cell (Tables 5.12 to 5.17). -/
def shdDesc (o : Nat) : Option RegDesc :=
  if o = 0x0 then some ⟨0x0, 0x0, 0x0, 0x0, 0xF3, 0x0⟩  -- EVF_SHD_CTRL
  else if o = 0x4 then some ⟨0x0, 0x1000FFFF, 0x0, 0x0, 0x0, 0x0⟩  -- EVF_SHD_STATUS
  else if o = 0x8 then some ⟨0x0, 0x0, 0x0, 0x0, 0xFFFF, 0x0⟩  -- EVF_SHD_EXCL
  else if o = 0xC then some ⟨0x0, 0x80000000, 0x0, 0x0, 0x0, 0x0⟩  -- EVF_SHD_MMREC
  else if o = 0x10 then some ⟨0x0, 0x0, 0x0, 0x0, 0x0, 0x0⟩  -- EVF_SHD_MMTS_NS
  else if o = 0x14 then some ⟨0x0, 0x0, 0x0, 0x0, 0x0, 0x0⟩  -- EVF_SHD_MMTS_SEC
  else if o = 0x18 then some ⟨0x0, 0x0, 0xFFFF0000, 0x0, 0x0, 0x0⟩  -- EVF_SHD_COUNT
  else if o = 0x1C then some ⟨0x0, 0x0, 0x0, 0x3, 0x0, 0x0⟩  -- EVF_SHD_CMD
  else if o = 0x20 then some ⟨0x0, 0xF, 0x0, 0x0, 0x0, 0x0⟩  -- EVF_SHD_IRQSTAT
  else if o = 0x24 then some ⟨0xF, 0x0, 0x0, 0x0, 0x0, 0x0⟩  -- EVF_SHD_IRQEN
  else if o = 0x28 then some ⟨0xFF1F, 0x0, 0x0, 0x0, 0x0, 0x0⟩  -- EVF_SHD_IRQROUTE
  else none

/-- Descriptor by offset: engine (Tables 6.12 to 6.19). -/
def peDesc (o : Nat) : Option RegDesc :=
  if o = 0x0 then some ⟨0x1, 0x0, 0x0, 0x0, 0x0, 0x0⟩  -- PE_CTRL
  else if o = 0x4 then some ⟨0xFFFFFFFF, 0x0, 0x0, 0x0, 0x0, 0x0⟩  -- PE_VBASE
  else if o = 0x8 then some ⟨0x8000000F, 0x0, 0x0, 0x0, 0x0, 0x0⟩  -- PE_CP7CFG
  else if o = 0xC then some ⟨0x0, 0x80000000, 0xFF00, 0x0, 0x0, 0x0⟩  -- PE_FAULT
  else if o = 0x10 then some ⟨0x0, 0x0, 0x0, 0x0, 0x0, 0x0⟩  -- PE_FAULTPC
  else if o = 0x14 then some ⟨0x0, 0x0, 0xFFFFFFFF, 0x0, 0x0, 0x0⟩  -- PE_ECC
  else if o = 0x18 then some ⟨0x0, 0x7, 0x0, 0x0, 0x0, 0x0⟩  -- PE_IRQSTAT
  else if o = 0x1C then some ⟨0x7, 0x0, 0x0, 0x0, 0x0, 0x0⟩  -- PE_IRQEN
  else if o = 0x20 then some ⟨0xFF1F, 0x0, 0x0, 0x0, 0x0, 0x0⟩  -- PE_IRQROUTE
  else if o = 0x24 then some ⟨0x0, 0x0, 0x0, 0x0, 0x0, 0x0⟩  -- PE_IDLE
  else if 0x100 ≤ o ∧ o < 0x500 ∧ (o - 0x100) % 128 = 0 then some ⟨0x0, 0x0, 0x0, 0xF, 0x0, 0x0⟩  -- PE_CTX_CTRL
  else if 0x104 ≤ o ∧ o < 0x504 ∧ (o - 0x104) % 128 = 0 then some ⟨0x10000000, 0x0, 0x0, 0x0, 0x0, 0x0⟩  -- PE_CTX_STAT
  else if 0x108 ≤ o ∧ o < 0x508 ∧ (o - 0x108) % 128 = 0 then some ⟨0xFFFFFFFF, 0x0, 0x0, 0x0, 0x0, 0x0⟩  -- PE_CTX_PC
  else if 0x10C ≤ o ∧ o < 0x50C ∧ (o - 0x10C) % 128 = 0 then some ⟨0xFFFFFFFF, 0x0, 0x0, 0x0, 0x0, 0x0⟩  -- PE_CTX_RPC
  else if 0x110 ≤ o ∧ o < 0x510 ∧ (o - 0x110) % 128 = 0 then some ⟨0x80FF000F, 0x0, 0x0, 0x0, 0x0, 0x0⟩  -- PE_CTX_TINFO
  else if 0x114 ≤ o ∧ o < 0x514 ∧ (o - 0x114) % 128 = 0 then some ⟨0x0, 0x0, 0x0, 0x0, 0x0, 0x0⟩  -- PE_CTX_TADDR
  else if 0x118 ≤ o ∧ o < 0x518 ∧ (o - 0x118) % 128 = 0 then some ⟨0xFFFFFFFF, 0x0, 0x0, 0x0, 0x0, 0x0⟩  -- PE_CTX_DSLO
  else if 0x11C ≤ o ∧ o < 0x51C ∧ (o - 0x11C) % 128 = 0 then some ⟨0xFFFFFFFF, 0x0, 0x0, 0x0, 0x0, 0x0⟩  -- PE_CTX_DSHI
  else if 0x120 ≤ o ∧ o < 0x520 ∧ (o - 0x120) % 128 = 0 then some ⟨0xFFFFFFFF, 0x0, 0x0, 0x0, 0x0, 0x0⟩  -- PE_CTX_RSBASE
  else if 0x124 ≤ o ∧ o < 0x524 ∧ (o - 0x124) % 128 = 0 then some ⟨0xFFFFFFFF, 0x0, 0x0, 0x0, 0x0, 0x0⟩  -- PE_CTX_RSLIMIT
  else if 0x128 ≤ o ∧ o < 0x528 ∧ (o - 0x128) % 128 = 0 then some ⟨0x0, 0x0, 0x0, 0x0, 0x0, 0x0⟩  -- PE_CTX_RSPTR
  else if 0x12C ≤ o ∧ o < 0x52C ∧ (o - 0x12C) % 128 = 0 then some ⟨0x80FFFFFF, 0x0, 0x0, 0x0, 0x0, 0x0⟩  -- PE_CTX_WDOG
  else if 0x130 ≤ o ∧ o < 0x530 ∧ (o - 0x130) % 128 = 0 then some ⟨0x0, 0x0, 0x0, 0x0, 0x0, 0x0⟩  -- PE_CTX_IPEND
  else if 0x134 ≤ o ∧ o < 0x534 ∧ (o - 0x134) % 128 = 0 then some ⟨0xFFFFFFFF, 0x0, 0x0, 0x0, 0x0, 0x0⟩  -- PE_CTX_IMASK
  else if 0x138 ≤ o ∧ o < 0x538 ∧ (o - 0x138) % 128 = 0 then some ⟨0x0, 0x0, 0x0, 0x0, 0x0, 0x0⟩  -- PE_CTX_ISSUED
  else if 0x13C ≤ o ∧ o < 0x53C ∧ (o - 0x13C) % 128 = 0 then some ⟨0xFFFFFFFF, 0x0, 0x0, 0x0, 0x0, 0x0⟩  -- PE_CTX_SCRATCH
  else if 0x140 ≤ o ∧ o < 0x540 ∧ (o - 0x140) % 128 = 0 then some ⟨0xFFFFFFFF, 0x0, 0x0, 0x0, 0x0, 0x0⟩  -- PE_CTX_RNEXT
  else if 0x800 ≤ o ∧ o < 0xC00 ∧ (o - 0x800) % 4 = 0 then some ⟨0xFFFFFFFF, 0x0, 0x0, 0x0, 0x0, 0x0⟩  -- PE_CTX_G
  else none

/-- Descriptor by offset: time unit (Tables 8.4, 8.7 to 8.15). -/
def tuDesc (o : Nat) : Option RegDesc :=
  if o = 0x0 then some ⟨0x3, 0x0, 0x0, 0x0, 0x0, 0x0⟩  -- TU_CTRL
  else if o = 0x4 then some ⟨0x0, 0x0, 0x0, 0x0, 0x0, 0x0⟩  -- TU_STATUS
  else if o = 0x8 then some ⟨0x0, 0x2F, 0x0, 0x0, 0x0, 0x0⟩  -- TU_IRQSTAT
  else if o = 0xC then some ⟨0x3F, 0x0, 0x0, 0x0, 0x0, 0x0⟩  -- TU_IRQEN
  else if o = 0x10 then some ⟨0xFF1F, 0x0, 0x0, 0x0, 0x0, 0x0⟩  -- TU_IRQROUTE
  else if o = 0x40 then some ⟨0x0, 0xFFFF, 0x0, 0x0, 0x0, 0x0⟩  -- TU_CYCSTAT
  else if 0x80 ≤ o ∧ o < 0xC0 ∧ (o - 0x80) % 4 = 0 then some ⟨0xFF1F, 0x0, 0x0, 0x0, 0x0, 0x0⟩  -- TU_CYCROUTE
  else if 0x100 ≤ o ∧ o < 0x200 ∧ (o - 0x100) % 64 = 0 then some ⟨0x0, 0x0, 0x0, 0x0, 0x0, 0x0⟩  -- TU_TB_NS
  else if 0x104 ≤ o ∧ o < 0x204 ∧ (o - 0x104) % 64 = 0 then some ⟨0x0, 0x0, 0x0, 0x0, 0x0, 0x0⟩  -- TU_TB_SECLO
  else if 0x108 ≤ o ∧ o < 0x208 ∧ (o - 0x108) % 64 = 0 then some ⟨0x0, 0x0, 0x0, 0x0, 0x0, 0x0⟩  -- TU_TB_SECHI
  else if 0x10C ≤ o ∧ o < 0x20C ∧ (o - 0x10C) % 64 = 0 then some ⟨0x0, 0x0, 0x0, 0x0, 0x0, 0x0⟩  -- TU_TB_SUB
  else if 0x110 ≤ o ∧ o < 0x210 ∧ (o - 0x110) % 64 = 0 then some ⟨0xFFFFFFFF, 0x0, 0x0, 0x0, 0x0, 0x0⟩  -- TU_TB_RATE
  else if 0x114 ≤ o ∧ o < 0x214 ∧ (o - 0x114) % 64 = 0 then some ⟨0xFFFFFFFF, 0x0, 0x0, 0x0, 0x0, 0x0⟩  -- TU_TB_OFFNS
  else if 0x118 ≤ o ∧ o < 0x218 ∧ (o - 0x118) % 64 = 0 then some ⟨0xFFFFFFFF, 0x0, 0x0, 0x0, 0x0, 0x0⟩  -- TU_TB_OFFSEC
  else if 0x11C ≤ o ∧ o < 0x21C ∧ (o - 0x11C) % 64 = 0 then some ⟨0xFFFFFFFF, 0x0, 0x0, 0x0, 0x0, 0x0⟩  -- TU_TB_LDSECHI
  else if 0x120 ≤ o ∧ o < 0x220 ∧ (o - 0x120) % 64 = 0 then some ⟨0x0, 0x0, 0x0, 0x3, 0x0, 0x0⟩  -- TU_TB_CMD
  else if 0x124 ≤ o ∧ o < 0x224 ∧ (o - 0x124) % 64 = 0 then some ⟨0x0, 0x1, 0x0, 0x0, 0x0, 0x0⟩  -- TU_TB_STAT
  else if 0x400 ≤ o ∧ o < 0x490 ∧ (o - 0x400) % 16 = 0 then some ⟨0x8000033F, 0x0, 0x0, 0x0, 0x0, 0x0⟩  -- TU_CAP_CFG
  else if 0x404 ≤ o ∧ o < 0x494 ∧ (o - 0x404) % 16 = 0 then some ⟨0x0, 0x0, 0x0, 0x0, 0x0, 0x0⟩  -- TU_CAP_NS
  else if 0x408 ≤ o ∧ o < 0x498 ∧ (o - 0x408) % 16 = 0 then some ⟨0x0, 0xC0, 0x0, 0x0, 0x0, 0x0⟩  -- TU_CAP_SEC
  else if 0x700 ≤ o ∧ o < 0x710 ∧ (o - 0x700) % 4 = 0 then some ⟨0xF30F00FF, 0x0, 0x0, 0x0, 0x0, 0x0⟩  -- TU_PTPDOM
  else if 0x800 ≤ o ∧ o < 0x980 ∧ (o - 0x800) % 32 = 0 then some ⟨0xFFFFFFFF, 0x0, 0x0, 0x0, 0x0, 0x0⟩  -- TU_PORT_INLAT
  else if 0x804 ≤ o ∧ o < 0x984 ∧ (o - 0x804) % 32 = 0 then some ⟨0xFFFFFFFF, 0x0, 0x0, 0x0, 0x0, 0x0⟩  -- TU_PORT_EGLAT
  else if 0x808 ≤ o ∧ o < 0x988 ∧ (o - 0x808) % 32 = 0 then some ⟨0xFFFFFFFF, 0x0, 0x0, 0x0, 0x0, 0x0⟩  -- TU_PORT_LINKDLY
  else if 0x80C ≤ o ∧ o < 0x98C ∧ (o - 0x80C) % 32 = 0 then some ⟨0xFFFFFFFF, 0x0, 0x0, 0x0, 0x0, 0x0⟩  -- TU_PORT_NRRO
  else if 0x810 ≤ o ∧ o < 0x990 ∧ (o - 0x810) % 32 = 0 then some ⟨0x1, 0x0, 0xFFFF0000, 0x0, 0x0, 0x0⟩  -- TU_PORT_CFG
  else if o = 0xB00 then some ⟨0x803FFFFF, 0x0, 0x0, 0x0, 0x0, 0x186A0⟩  -- TU_PPS_CFG
  else if o = 0xB04 then some ⟨0xFFFFFFFF, 0x0, 0x0, 0x0, 0x0, 0x0⟩  -- TU_PPS_OFF
  else if o = 0xB08 then some ⟨0x0, 0x2, 0x0, 0x0, 0x0, 0x0⟩  -- TU_PPS_STAT
  else if o = 0xA00 then some ⟨0x0, 0x0, 0x0, 0x0, 0x0, 0x0⟩  -- TU_TSQ_W0
  else if o = 0xA04 then some ⟨0x0, 0x0, 0x0, 0x0, 0x0, 0x0⟩  -- TU_TSQ_W1
  else if o = 0xA08 then some ⟨0x0, 0x0, 0x0, 0x0, 0x0, 0x0⟩  -- TU_TSQ_W2
  else if o = 0xA0C then some ⟨0x0, 0x0, 0x0, 0x0, 0x0, 0x0⟩  -- TU_TSQ_W3
  else if 0x10000 ≤ o ∧ o < 0x18000 ∧ (o - 0x10000) % 32 = 0 then some ⟨0xFF00FFFF, 0x0, 0x0, 0x0, 0x0, 0x0⟩  -- TU_TRG_CTRL
  else if 0x10004 ≤ o ∧ o < 0x18004 ∧ (o - 0x10004) % 32 = 0 then some ⟨0x3FFFFFFF, 0x0, 0x0, 0x0, 0x0, 0x0⟩  -- TU_TRG_NS
  else if 0x10008 ≤ o ∧ o < 0x18008 ∧ (o - 0x10008) % 32 = 0 then some ⟨0xFFFFFFFF, 0x0, 0x0, 0x0, 0x0, 0x0⟩  -- TU_TRG_SECLO
  else if 0x1000C ≤ o ∧ o < 0x1800C ∧ (o - 0x1000C) % 32 = 0 then some ⟨0xFFFF, 0x0, 0x0, 0x0, 0x0, 0x0⟩  -- TU_TRG_SECHI
  else if 0x10010 ≤ o ∧ o < 0x18010 ∧ (o - 0x10010) % 32 = 0 then some ⟨0xFFFFFFFF, 0x0, 0x0, 0x0, 0x0, 0x0⟩  -- TU_TRG_PERLO
  else if 0x10014 ≤ o ∧ o < 0x18014 ∧ (o - 0x10014) % 32 = 0 then some ⟨0xF, 0x0, 0x0, 0x0, 0x0, 0x0⟩  -- TU_TRG_PERHI
  else if 0x10018 ≤ o ∧ o < 0x18018 ∧ (o - 0x10018) % 32 = 0 then some ⟨0x0, 0x3, 0xFF00, 0x0, 0x0, 0x0⟩  -- TU_TRG_STAT
  else none

/-- Descriptor by offset: image store (Tables 9.10 to 9.16). -/
def imgDesc (o : Nat) : Option RegDesc :=
  if o = 0x0 then some ⟨0xE0000000, 0x0, 0x0, 0x0, 0x0, 0x0⟩  -- IMG_CTRL
  else if o = 0x4 then some ⟨0xFFFF3FFF, 0x0, 0x0, 0x0, 0x0, 0x0⟩  -- IMG_DEVID
  else if o = 0x8 then some ⟨0xFFFF, 0x0, 0x0, 0x0, 0x0, 0x88B5⟩  -- IMG_ETYPE
  else if o = 0xC then some ⟨0x3FF03FF, 0x0, 0x0, 0x0, 0x0, 0x0⟩  -- IMG_TRIG
  else if o = 0x10 then some ⟨0x3FFFFFFF, 0x0, 0x0, 0x0, 0x0, 0x0⟩  -- IMG_DSTART_NS
  else if o = 0x14 then some ⟨0xFFFFFFFF, 0x0, 0x0, 0x0, 0x0, 0x0⟩  -- IMG_DSTART_SECLO
  else if o = 0x18 then some ⟨0xFFFF, 0x0, 0x0, 0x0, 0x0, 0x0⟩  -- IMG_DSTART_SECHI
  else if o = 0x1C then some ⟨0xFFFFFFFF, 0x0, 0x0, 0x0, 0x0, 0x0⟩  -- IMG_PERIOD_LO
  else if o = 0x20 then some ⟨0x3, 0x0, 0x0, 0x0, 0x0, 0x0⟩  -- IMG_PERIOD_HI
  else if o = 0x24 then some ⟨0xFFFFFFFF, 0x0, 0x0, 0x0, 0x0, 0x0⟩  -- IMG_LEAD
  else if o = 0x28 then some ⟨0xFFFFFFFF, 0x0, 0x0, 0x0, 0x0, 0x0⟩  -- IMG_IMPDL
  else if o = 0x2C then some ⟨0x80000007, 0x0, 0x0, 0x0, 0x0, 0x0⟩  -- IMG_RECOV
  else if o = 0x30 then some ⟨0x0, 0x0, 0x0, 0x0, 0x0, 0x0⟩  -- IMG_EPOCH_LO
  else if o = 0x34 then some ⟨0x0, 0x0, 0x0, 0x0, 0x0, 0x0⟩  -- IMG_EPOCH_HI
  else if o = 0x40 then some ⟨0x0, 0x0, 0x0, 0x3, 0x0, 0x0⟩  -- IMG_PINCMD
  else if o = 0x44 then some ⟨0x0, 0x0, 0x0, 0x0, 0x0, 0x0⟩  -- IMG_PINSTAT
  else if o = 0x48 then some ⟨0x0, 0x0, 0x0, 0x0, 0x0, 0x0⟩  -- IMG_PINEP_LO
  else if o = 0x4C then some ⟨0x0, 0x0, 0x0, 0x0, 0x0, 0x0⟩  -- IMG_PINEP_HI
  else if o = 0x50 then some ⟨0xFFFF, 0x0, 0x0, 0x0, 0x0, 0x0⟩  -- IMG_PINMAX
  else if o = 0x60 then some ⟨0x1, 0x0, 0x0, 0x0, 0x0, 0x0⟩  -- IMG_VIEW
  else if o = 0x64 then some ⟨0x0, 0x0, 0x0, 0x0, 0x0, 0x0⟩  -- IMG_RQUAL
  else if o = 0x68 then some ⟨0x0, 0x0, 0x0, 0x0, 0x0, 0x0⟩  -- IMG_RTS_NS
  else if o = 0x6C then some ⟨0x0, 0x0, 0x0, 0x0, 0x0, 0x0⟩  -- IMG_RTS_SEC
  else if o = 0x70 then some ⟨0x0, 0x0, 0x0, 0x0, 0x0, 0x0⟩  -- IMG_RTAG
  else if 0x80 ≤ o ∧ o < 0xC0 ∧ (o - 0x80) % 4 = 0 then some ⟨0xFFFFFFFF, 0x0, 0x0, 0x0, 0x0, 0x0⟩  -- IMG_WB
  else if o = 0xC0 then some ⟨0x3FFFFFFF, 0x0, 0x0, 0x0, 0x0, 0x0⟩  -- IMG_WTS_NS
  else if o = 0xC4 then some ⟨0xFFFFFFFF, 0x0, 0x0, 0x0, 0x0, 0x0⟩  -- IMG_WTS_SEC
  else if o = 0xC8 then some ⟨0x0, 0x0, 0x0, 0xFFFFFFFF, 0x0, 0x0⟩  -- IMG_WPUT
  else if o = 0xD0 then some ⟨0xFFFF, 0x0, 0x0, 0x0, 0x0, 0x0⟩  -- IMG_PTIDX
  else if o = 0xD4 then some ⟨0xFFFFFFFF, 0x0, 0x0, 0x0, 0x0, 0x0⟩  -- IMG_PTW
  else if o = 0xD8 then some ⟨0x3FF, 0x0, 0x0, 0x0, 0x0, 0x0⟩  -- IMG_XLIDX
  else if o = 0xDC then some ⟨0xFFFF, 0x0, 0x0, 0x0, 0x0, 0x0⟩  -- IMG_XLDAT
  else if o = 0xE0 then some ⟨0xFF, 0x0, 0x0, 0x0, 0x0, 0x0⟩  -- IMG_SBIDX
  else if o = 0xE4 then some ⟨0xBFFF000F, 0x0, 0x0, 0x0, 0x0, 0x0⟩  -- IMG_SBW0
  else if o = 0xE8 then some ⟨0x0, 0x0, 0xFFFFFFFF, 0x0, 0x0, 0x0⟩  -- IMG_SBW1
  else if o = 0xEC then some ⟨0x0, 0x0, 0x0, 0x0, 0x0, 0x0⟩  -- IMG_SBW2
  else if o = 0xF0 then some ⟨0xFFF, 0x0, 0x0, 0x0, 0x0, 0x0⟩  -- IMG_MPIDX
  else if o = 0xF4 then some ⟨0x800000FF, 0x0, 0x0, 0x0, 0x0, 0x0⟩  -- IMG_MPW0
  else if o = 0xF8 then some ⟨0xFFFFFFFF, 0x0, 0x0, 0x0, 0x0, 0x0⟩  -- IMG_MPW1
  else if o = 0x100 then some ⟨0x0, 0x7F, 0x0, 0x0, 0x0, 0x0⟩  -- IMG_IRQSTAT
  else if o = 0x104 then some ⟨0x7F, 0x0, 0x0, 0x0, 0x0, 0x0⟩  -- IMG_IRQEN
  else if o = 0x108 then some ⟨0xFF1F, 0x0, 0x0, 0x0, 0x0, 0x0⟩  -- IMG_IRQROUTE
  else if o = 0x110 then some ⟨0x0, 0x0, 0xFFFF0000, 0x0, 0x0, 0x0⟩  -- IMG_CNT_WR
  else if o = 0x114 then some ⟨0x0, 0x0, 0xFFFFFFFF, 0x0, 0x0, 0x0⟩  -- IMG_CNT_MASK
  else if o = 0x118 then some ⟨0x0, 0x0, 0xFFFF0000, 0x0, 0x0, 0x0⟩  -- IMG_CNT_EXP
  else if o = 0x11C then some ⟨0x0, 0x0, 0xFFFFFFFF, 0x0, 0x0, 0x0⟩  -- IMG_CNT_IMP
  else if 0x200 ≤ o ∧ o < 0x300 ∧ (o - 0x200) % 16 = 0 then some ⟨0xF8FFF07F, 0x0, 0x0, 0x0, 0x0, 0x38000000⟩  -- IMG_XCFG
  else if 0x204 ≤ o ∧ o < 0x304 ∧ (o - 0x204) % 16 = 0 then some ⟨0xFFFFFFFF, 0x0, 0x0, 0x0, 0x0, 0x0⟩  -- IMG_XDALO
  else if 0x208 ≤ o ∧ o < 0x308 ∧ (o - 0x208) % 16 = 0 then some ⟨0xFFFF, 0x0, 0x0, 0x0, 0x0, 0x0⟩  -- IMG_XDAHI
  else if 0x20C ≤ o ∧ o < 0x30C ∧ (o - 0x20C) % 16 = 0 then some ⟨0xFFFFFFFF, 0x0, 0x0, 0x0, 0x0, 0x0⟩  -- IMG_XOFF
  else none

/-- Descriptor by offset: Huxon sequencer (Tables 10.12 to 10.19, 11.4 to 11.9). -/
def hxDesc (o : Nat) : Option RegDesc :=
  if o = 0x0 then some ⟨0x0, 0x0, 0x0, 0xF, 0x0, 0x0⟩  -- HX_CTRL
  else if o = 0x4 then some ⟨0x0, 0x0, 0x0, 0x0, 0x0, 0xC000⟩  -- HX_STATUS
  else if o = 0x8 then some ⟨0xFF3F07FF, 0x0, 0x0, 0x0, 0x0, 0x0⟩  -- HX_CFG
  else if o = 0xC then some ⟨0x77, 0x0, 0x0, 0x0, 0x0, 0x0⟩  -- HX_ENG
  else if o = 0x10 then some ⟨0x3FFFFFFF, 0x0, 0x0, 0x0, 0x0, 0x0⟩  -- HX_CYCLEN
  else if o = 0x14 then some ⟨0x3FFFFFFF, 0x0, 0x0, 0x0, 0x0, 0x0⟩  -- HX_DUSK
  else if o = 0x18 then some ⟨0xFFFFF, 0x0, 0x0, 0x0, 0x0, 0x0⟩  -- HX_GUARD
  else if o = 0x1C then some ⟨0xFFFFF, 0x0, 0x0, 0x0, 0x0, 0x0⟩  -- HX_ACCW
  else if o = 0x20 then some ⟨0xFFFFFF, 0x0, 0x0, 0x0, 0x0, 0x0⟩  -- HX_SCHED
  else if o = 0x24 then some ⟨0xFFFFFFFF, 0x0, 0x0, 0x0, 0x0, 0x0⟩  -- HX_SCHBASE
  else if o = 0x28 then some ⟨0xFFFFFFFF, 0x0, 0x0, 0x0, 0x0, 0x0⟩  -- HX_ALTOFF
  else if o = 0x2C then some ⟨0xFFFF, 0x0, 0x0, 0x0, 0x0, 0x0⟩  -- HX_PDLY
  else if o = 0x30 then some ⟨0x3FF, 0x0, 0x0, 0x0, 0x0, 0x0⟩  -- HX_RBDLY
  else if o = 0x34 then some ⟨0xBFBFBF00, 0x0, 0x0, 0x0, 0x0, 0x0⟩  -- HX_EVCFG
  else if o = 0x40 then some ⟨0x0, 0x0, 0x0, 0x0, 0x0, 0x0⟩  -- HX_CYCNT
  else if o = 0x44 then some ⟨0x0, 0x0, 0x0, 0x0, 0x0, 0x0⟩  -- HX_DAWNTS_NS
  else if o = 0x48 then some ⟨0x0, 0x0, 0x0, 0x0, 0x0, 0x0⟩  -- HX_DAWNTS_SEC
  else if o = 0x4C then some ⟨0x0, 0x0, 0x0, 0x0, 0x0, 0x0⟩  -- HX_MTIME_NS
  else if o = 0x50 then some ⟨0x0, 0x0, 0x0, 0x0, 0x0, 0x0⟩  -- HX_MTIME_SEC
  else if o = 0x54 then some ⟨0x0, 0x0, 0xFFFF0000, 0x0, 0x0, 0x0⟩  -- HX_CNT_SLOT
  else if o = 0x58 then some ⟨0x0, 0x0, 0xFFFFFFFF, 0x0, 0x0, 0x0⟩  -- HX_CNT_ERR
  else if o = 0x5C then some ⟨0x0, 0x0, 0xFFFF, 0x0, 0x0, 0x0⟩  -- HX_CNT_CYC
  else if o = 0x60 then some ⟨0x0, 0x3FF, 0x0, 0x0, 0x0, 0x0⟩  -- HX_IRQSTAT
  else if o = 0x64 then some ⟨0x3FF, 0x0, 0x0, 0x0, 0x0, 0x0⟩  -- HX_IRQEN
  else if o = 0x68 then some ⟨0xFF1F, 0x0, 0x0, 0x0, 0x0, 0x0⟩  -- HX_IRQROUTE
  else if o = 0x6C then some ⟨0x0, 0x80000000, 0x0, 0x0, 0x0, 0x0⟩  -- HX_LASTERR
  else if o = 0x70 then some ⟨0xBF0000FF, 0x0, 0x0, 0x0, 0x0, 0x0⟩  -- HX_DTXCTL
  else if o = 0x74 then some ⟨0x0, 0xC0000000, 0x0, 0x0, 0x0, 0x0⟩  -- HX_DRXSTAT
  else if o = 0x80 then some ⟨0xFFFFF, 0x0, 0x0, 0x0, 0x0, 0x0⟩  -- HX_BOFF
  else if o = 0x84 then some ⟨0xFFFFF, 0x0, 0x0, 0x0, 0x0, 0x0⟩  -- HX_BKDLY
  else if o = 0x88 then some ⟨0x3FFF, 0x0, 0x0, 0x0, 0x0, 0x1F4⟩  -- HX_DRIFT
  else if o = 0x8C then some ⟨0xFF, 0x0, 0x0, 0x0, 0x0, 0x0⟩  -- HX_TWREL
  else if o = 0x90 then some ⟨0x0, 0xF0000000, 0x0, 0x0, 0x0, 0x0⟩  -- HX_SUSTAT
  else if o = 0x94 then some ⟨0x0, 0x0, 0x0, 0x0, 0x0, 0x0⟩  -- HX_CORR
  else if o = 0x98 then some ⟨0x0, 0x0, 0xFFFFFFFF, 0x0, 0x0, 0x0⟩  -- HX_CNT_SU
  else if o = 0x9C then some ⟨0x0, 0x0, 0xFFFFFFFF, 0x0, 0x0, 0x0⟩  -- HX_CNT_DAWN
  else if o = 0xA0 then some ⟨0x80FF0000, 0x0, 0x0, 0x0, 0x0, 0xFF⟩  -- HX_CLAIM
  else if o = 0xA4 then some ⟨0x0, 0x0, 0x0, 0x80FF003F, 0x0, 0x0⟩  -- HX_GRANT
  else if o = 0xA8 then some ⟨0x0, 0x0, 0xFFFFFF00, 0x0, 0x0, 0x0⟩  -- HX_GRSTAT
  else if 0xB0 ≤ o ∧ o < 0xBC ∧ (o - 0xB0) % 4 = 0 then some ⟨0xFFFF, 0x0, 0x0, 0x0, 0x0, 0x0⟩  -- HX_BPDLY
  else if 0x200 ≤ o ∧ o < 0x300 ∧ (o - 0x200) % 4 = 0 then some ⟨0x3F3F3F3F, 0x0, 0x0, 0x0, 0x0, 0x0⟩  -- HX_TWADDR
  else if 0x300 ≤ o ∧ o < 0x380 ∧ (o - 0x300) % 4 = 0 then some ⟨0x0, 0x0, 0x0, 0x0, 0x0, 0x0⟩  -- HX_DRXBUF
  else if 0x380 ≤ o ∧ o < 0x400 ∧ (o - 0x380) % 4 = 0 then some ⟨0xFFFFFFFF, 0x0, 0x0, 0x0, 0x0, 0x0⟩  -- HX_DTXBUF
  else if 0x400 ≤ o ∧ o < 0x500 ∧ (o - 0x400) % 4 = 0 then some ⟨0x0, 0x0, 0xFFFF, 0x0, 0x0, 0x0⟩  -- HX_SNDERR
  else none

/-- Descriptor by offset: CAN controller (Tables 12.4 to 12.10); TXB b at 0x200 + b * 0x80. -/
def canDesc (o : Nat) : Option RegDesc :=
  if o = 0x0 then some ⟨0x0, 0x0, 0x0, 0x3, 0x0, 0x0⟩  -- CAN_CTRL
  else if o = 0x4 then some ⟨0x0, 0x0, 0x0, 0x0, 0x0, 0x0⟩  -- CAN_STATUS
  else if o = 0x8 then some ⟨0xFF, 0x0, 0x0, 0x0, 0x0, 0x0⟩  -- CAN_CFG
  else if o = 0xC then some ⟨0xFE7FFF1F, 0x0, 0x0, 0x0, 0x0, 0x0⟩  -- CAN_NBT
  else if o = 0x10 then some ⟨0xF0F1F1F, 0x0, 0x0, 0x0, 0x0, 0x0⟩  -- CAN_DBT
  else if o = 0x14 then some ⟨0x7F007F, 0x0, 0x0, 0x0, 0x0, 0x0⟩  -- CAN_TDC
  else if o = 0x18 then some ⟨0x0, 0x0, 0x0, 0x0, 0x0, 0x0⟩  -- CAN_ERR
  else if o = 0x1C then some ⟨0x0, 0x0, 0xFFFFFFFF, 0x0, 0x0, 0x0⟩  -- CAN_CNT
  else if o = 0x20 then some ⟨0xBFBFBF03, 0x0, 0x0, 0x0, 0x0, 0x0⟩  -- CAN_EVCFG
  else if o = 0x24 then some ⟨0x0, 0x5F, 0x0, 0x0, 0x0, 0x0⟩  -- CAN_IRQSTAT
  else if o = 0x28 then some ⟨0x7F, 0x0, 0x0, 0x0, 0x0, 0x0⟩  -- CAN_IRQEN
  else if o = 0x2C then some ⟨0xFF1F, 0x0, 0x0, 0x0, 0x0, 0x0⟩  -- CAN_IRQROUTE
  else if o = 0x30 then some ⟨0x0, 0x0, 0xFFFF0000, 0x0, 0x0, 0x0⟩  -- CAN_RXSTAT
  else if o = 0x34 then some ⟨0x0, 0x0, 0x0, 0x1, 0x0, 0x0⟩  -- CAN_RXCMD
  else if 0x100 ≤ o ∧ o < 0x180 ∧ (o - 0x100) % 8 = 0 then some ⟨0xDFFFFFFF, 0x0, 0x0, 0x0, 0x0, 0x0⟩  -- CAN_FLT_ID
  else if 0x104 ≤ o ∧ o < 0x184 ∧ (o - 0x104) % 8 = 0 then some ⟨0x1FFFFFFF, 0x0, 0x0, 0x0, 0x0, 0x0⟩  -- CAN_FLT_MASK
  else if o = 0x200 then some ⟨0xFF, 0x0, 0x0, 0xC0000000, 0x0, 0x0⟩  -- CAN_TXB0_CTRL
  else if o = 0x204 then some ⟨0x1FFFFFFF, 0x0, 0x0, 0x0, 0x0, 0x0⟩  -- CAN_TXB0_ID
  else if o = 0x208 then some ⟨0x0, 0x0, 0x0, 0x0, 0x0, 0x0⟩  -- CAN_TXB0_STAT
  else if o = 0x20C then some ⟨0x0, 0x0, 0x0, 0x0, 0x0, 0x0⟩  -- CAN_TXB0_TS_NS
  else if o = 0x210 then some ⟨0x0, 0x0, 0x0, 0x0, 0x0, 0x0⟩  -- CAN_TXB0_TS_SEC
  else if 0x240 ≤ o ∧ o < 0x280 ∧ (o - 0x240) % 4 = 0 then some ⟨0xFFFFFFFF, 0x0, 0x0, 0x0, 0x0, 0x0⟩  -- CAN_TXB0_DATA
  else if o = 0x280 then some ⟨0xFF, 0x0, 0x0, 0xC0000000, 0x0, 0x0⟩  -- CAN_TXB1_CTRL
  else if o = 0x284 then some ⟨0x1FFFFFFF, 0x0, 0x0, 0x0, 0x0, 0x0⟩  -- CAN_TXB1_ID
  else if o = 0x288 then some ⟨0x0, 0x0, 0x0, 0x0, 0x0, 0x0⟩  -- CAN_TXB1_STAT
  else if o = 0x28C then some ⟨0x0, 0x0, 0x0, 0x0, 0x0, 0x0⟩  -- CAN_TXB1_TS_NS
  else if o = 0x290 then some ⟨0x0, 0x0, 0x0, 0x0, 0x0, 0x0⟩  -- CAN_TXB1_TS_SEC
  else if 0x2C0 ≤ o ∧ o < 0x300 ∧ (o - 0x2C0) % 4 = 0 then some ⟨0xFFFFFFFF, 0x0, 0x0, 0x0, 0x0, 0x0⟩  -- CAN_TXB1_DATA
  else if o = 0x300 then some ⟨0xFF, 0x0, 0x0, 0xC0000000, 0x0, 0x0⟩  -- CAN_TXB2_CTRL
  else if o = 0x304 then some ⟨0x1FFFFFFF, 0x0, 0x0, 0x0, 0x0, 0x0⟩  -- CAN_TXB2_ID
  else if o = 0x308 then some ⟨0x0, 0x0, 0x0, 0x0, 0x0, 0x0⟩  -- CAN_TXB2_STAT
  else if o = 0x30C then some ⟨0x0, 0x0, 0x0, 0x0, 0x0, 0x0⟩  -- CAN_TXB2_TS_NS
  else if o = 0x310 then some ⟨0x0, 0x0, 0x0, 0x0, 0x0, 0x0⟩  -- CAN_TXB2_TS_SEC
  else if 0x340 ≤ o ∧ o < 0x380 ∧ (o - 0x340) % 4 = 0 then some ⟨0xFFFFFFFF, 0x0, 0x0, 0x0, 0x0, 0x0⟩  -- CAN_TXB2_DATA
  else if o = 0x400 then some ⟨0x0, 0x0, 0x0, 0x0, 0x0, 0x0⟩  -- CAN_RX_ID
  else if o = 0x404 then some ⟨0x0, 0x0, 0x0, 0x0, 0x0, 0x0⟩  -- CAN_RX_CTL
  else if o = 0x408 then some ⟨0x0, 0x0, 0x0, 0x0, 0x0, 0x0⟩  -- CAN_RX_TS_NS
  else if o = 0x40C then some ⟨0x0, 0x0, 0x0, 0x0, 0x0, 0x0⟩  -- CAN_RX_TS_SEC
  else if 0x440 ≤ o ∧ o < 0x480 ∧ (o - 0x440) % 4 = 0 then some ⟨0x0, 0x0, 0x0, 0x0, 0x0, 0x0⟩  -- CAN_RX_DATA
  else none

/-- Descriptor by offset: loader (Tables 17.8 to 17.11). -/
def ldrDesc (o : Nat) : Option RegDesc :=
  if o = 0x0 then some ⟨0x0, 0x0, 0x0, 0x0, 0x0, 0x9256B000⟩  -- LDR_DEVID
  else if o = 0x4 then some ⟨0x0, 0x0, 0x0, 0x0, 0x0, 0x0⟩  -- LDR_STATUS
  else if o = 0x8 then some ⟨0x0, 0x0, 0x0, 0x0, 0x0, 0x0⟩  -- LDR_FUSESTAT
  else if o = 0xC then some ⟨0x0, 0x0, 0x0, 0x0, 0x0, 0x0⟩  -- LDR_BOOTCNT
  else if o = 0x10 then some ⟨0x0, 0x0, 0x0, 0x0, 0x0, 0x0⟩  -- LDR_IMGSVN
  else if o = 0x14 then some ⟨0x0, 0x0, 0x0, 0x0, 0x0, 0x0⟩  -- LDR_FLASHCAP
  else if o = 0x20 then some ⟨0x0, 0x0, 0x0, 0x0, 0x8000001F, 0x0⟩  -- LDR_FUCFG
  else if o = 0x24 then some ⟨0x0, 0x0, 0x0, 0xFFFF001F, 0x0, 0x0⟩  -- LDR_FUCMD
  else if o = 0x28 then some ⟨0xFFFFFFF, 0x0, 0x0, 0x0, 0x0, 0x0⟩  -- LDR_FUADDR
  else if o = 0x2C then some ⟨0xFFFFFFFF, 0x0, 0x0, 0x0, 0x0, 0x0⟩  -- LDR_FUSRC
  else if o = 0x30 then some ⟨0x0, 0x0, 0x0, 0x0, 0x0, 0x0⟩  -- LDR_FUSTAT
  else if o = 0x34 then some ⟨0x0, 0x1F, 0x0, 0x0, 0x0, 0x0⟩  -- LDR_IRQSTAT
  else if o = 0x38 then some ⟨0x1F, 0x0, 0x0, 0x0, 0x0, 0x0⟩  -- LDR_IRQEN
  else if o = 0x3C then some ⟨0xFF1F, 0x0, 0x0, 0x0, 0x0, 0x0⟩  -- LDR_IRQROUTE
  else if o = 0x40 then some ⟨0x0, 0x0, 0x0, 0xFFFF0FFF, 0x0, 0x0⟩  -- LDR_FPROG
  else if o = 0x44 then some ⟨0x0, 0x40000000, 0x0, 0x0, 0x0, 0x0⟩  -- LDR_FPSTAT
  else if 0x50 ≤ o ∧ o < 0x60 ∧ (o - 0x50) % 4 = 0 then some ⟨0x0, 0x0, 0x0, 0x0, 0x0, 0x0⟩  -- LDR_DBGNONCE
  else if 0x60 ≤ o ∧ o < 0x70 ∧ (o - 0x60) % 4 = 0 then some ⟨0x0, 0x0, 0x0, 0x0, 0x0, 0x0⟩  -- LDR_BUILDID
  else if 0x200 ≤ o ∧ o < 0x400 ∧ (o - 0x200) % 4 = 0 then some ⟨0x0, 0x0, 0x0, 0x0, 0x0, 0x0⟩  -- LDR_FUSE
  else if o = 0x1000 then some ⟨0x0, 0x1FFFF, 0x0, 0x0, 0x0, 0x0⟩  -- RST_CAUSE
  else if o = 0x1004 then some ⟨0x0, 0x0, 0x0, 0xFFFFF01F, 0x0, 0x0⟩  -- RST_SWRST
  else if o = 0x1008 then some ⟨0x0, 0x0, 0x0, 0x0, 0x0, 0x0⟩  -- RST_SWSRC
  else if o = 0x100C then some ⟨0x0, 0x0, 0x0, 0x0, 0x0, 0x1FFFFFFF⟩  -- RST_SUBSTAT
  else if o = 0x1010 then some ⟨0xFFFFFFFF, 0x0, 0x0, 0x0, 0x0, 0x0⟩  -- RST_BLKCAN
  else if o = 0x1014 then some ⟨0xFFFFFFFF, 0x0, 0x0, 0x0, 0x0, 0x0⟩  -- RST_BLKHX
  else if o = 0x1018 then some ⟨0x0, 0x0, 0x0, 0x0, 0x0, 0x0⟩  -- RST_CNT
  else if o = 0x101C then some ⟨0x1, 0x0, 0x0, 0x0, 0x0, 0x1⟩  -- RST_CTRL
  else if o = 0x1020 then some ⟨0x0, 0x0, 0xFFFF, 0x0, 0x0, 0x0⟩  -- RST_CLKSTAT
  else if 0x1100 ≤ o ∧ o < 0x1200 ∧ (o - 0x1100) % 4 = 0 then some ⟨0x77777777, 0x0, 0x0, 0x0, 0x0, 0x0⟩  -- RST_SAFE
  else none

/-- Descriptor by offset: switch (Tables 13.8 to 13.13). -/
def swDesc (o : Nat) : Option RegDesc :=
  if o = 0x0 then some ⟨0xB01F0000, 0x0, 0x0, 0x0, 0x0, 0x0⟩  -- SW_CTRL
  else if o = 0x4 then some ⟨0x0, 0x0, 0x0, 0x0, 0x0, 0x40000000⟩  -- SW_STATUS
  else if o = 0x8 then some ⟨0xFFFFFFFF, 0x0, 0x0, 0x0, 0x0, 0x0⟩  -- SW_STADDR_LO
  else if o = 0xC then some ⟨0xFFFF, 0x0, 0x0, 0x0, 0x0, 0x0⟩  -- SW_STADDR_HI
  else if o = 0x10 then some ⟨0xFFFF, 0x0, 0x0, 0x0, 0x0, 0x12C⟩  -- SW_AGE
  else if o = 0x14 then some ⟨0xFFFF, 0x0, 0x0, 0x0, 0x0, 0x0⟩  -- SW_BUFCFG
  else if o = 0x18 then some ⟨0x0, 0x0, 0x0, 0x0, 0x0, 0xC0000000⟩  -- SW_BUFSTAT
  else if o = 0x1C then some ⟨0x0, 0x0, 0x0, 0xFFFF, 0x0, 0x0⟩  -- SW_RSEED
  else if o = 0x20 then some ⟨0x0, 0xF, 0x0, 0x0, 0x0, 0x0⟩  -- SW_IRQSTAT
  else if o = 0x24 then some ⟨0xF, 0x0, 0x0, 0x0, 0x0, 0x0⟩  -- SW_IRQEN
  else if o = 0x28 then some ⟨0xFF1F, 0x0, 0x0, 0x0, 0x0, 0x0⟩  -- SW_IRQROUTE
  else if o = 0x40 then some ⟨0xFFFFFFFF, 0x0, 0x0, 0x0, 0x0, 0x0⟩  -- SW_FDB_MACLO
  else if o = 0x44 then some ⟨0xFFFFFFF, 0x0, 0x0, 0x0, 0x0, 0x0⟩  -- SW_FDB_MACHI
  else if o = 0x48 then some ⟨0x3FFFFFFF, 0x0, 0x0, 0x0, 0x0, 0x0⟩  -- SW_FDB_DATA
  else if o = 0x4C then some ⟨0x0, 0x0, 0x0, 0xE0000000, 0x0, 0x0⟩  -- SW_FDB_CMD
  else if o = 0x50 then some ⟨0x0, 0x0, 0xFFFFFFFF, 0x0, 0x0, 0x0⟩  -- SW_CNT
  else if 0x10000 ≤ o ∧ o < 0x11000 ∧ (o - 0x10000) % 256 = 0 then some ⟨0xFFFFF7FF, 0x0, 0x0, 0x0, 0x0, 0x15F2⟩  -- SW_P_CFG
  else if 0x10004 ≤ o ∧ o < 0x10C04 ∧ (o - 0x10004) % 256 = 0 then some ⟨0x3F, 0x0, 0x0, 0x0, 0x0, 0x0⟩  -- SW_P_MODE
  else if 0x10008 ≤ o ∧ o < 0x10C08 ∧ (o - 0x10008) % 256 = 0 then some ⟨0x0, 0x40000000, 0xFFFF, 0x0, 0x0, 0x0⟩  -- SW_P_LINK
  else if 0x1000C ≤ o ∧ o < 0x10C0C ∧ (o - 0x1000C) % 256 = 0 then some ⟨0xFFFFFF, 0x0, 0x0, 0x0, 0x0, 0xFAC688⟩  -- SW_P_PCPMAP
  else if 0x10010 ≤ o ∧ o < 0x10C10 ∧ (o - 0x10010) % 256 = 0 then some ⟨0xFFFFFFFF, 0x0, 0x0, 0x0, 0x0, 0xFFFF⟩  -- SW_P_PFC
  else if 0x10014 ≤ o ∧ o < 0x10C14 ∧ (o - 0x10014) % 256 = 0 then some ⟨0xFFFFFFFF, 0x0, 0x0, 0x0, 0x0, 0x0⟩  -- SW_P_PFCTH
  else if 0x10018 ≤ o ∧ o < 0x10C18 ∧ (o - 0x10018) % 256 = 0 then some ⟨0x81FF01FF, 0x0, 0x0, 0x18000000, 0x0, 0x10001⟩  -- SW_P_GCTRL
  else if 0x1001C ≤ o ∧ o < 0x10C1C ∧ (o - 0x1001C) % 256 = 0 then some ⟨0x3FFFFFFF, 0x0, 0x0, 0x0, 0x0, 0x0⟩  -- SW_P_GBASE_NS
  else if 0x10020 ≤ o ∧ o < 0x10C20 ∧ (o - 0x10020) % 256 = 0 then some ⟨0xFFFFFFFF, 0x0, 0x0, 0x0, 0x0, 0x0⟩  -- SW_P_GBASE_SECLO
  else if 0x10024 ≤ o ∧ o < 0x10C24 ∧ (o - 0x10024) % 256 = 0 then some ⟨0xFFFF, 0x0, 0x0, 0x0, 0x0, 0x0⟩  -- SW_P_GBASE_SECHI
  else if 0x10028 ≤ o ∧ o < 0x10C28 ∧ (o - 0x10028) % 256 = 0 then some ⟨0x3FFFFFFF, 0x0, 0x0, 0x0, 0x0, 0xF4240⟩  -- SW_P_GCYCLE
  else if 0x1002C ≤ o ∧ o < 0x10C2C ∧ (o - 0x1002C) % 256 = 0 then some ⟨0x3FFFFFFF, 0x0, 0x0, 0x0, 0x0, 0x0⟩  -- SW_P_GCHG_NS
  else if 0x10030 ≤ o ∧ o < 0x10C30 ∧ (o - 0x10030) % 256 = 0 then some ⟨0xFFFFFFFF, 0x0, 0x0, 0x0, 0x0, 0x0⟩  -- SW_P_GCHG_SECLO
  else if 0x10034 ≤ o ∧ o < 0x10C34 ∧ (o - 0x10034) % 256 = 0 then some ⟨0xFFFF, 0x0, 0x0, 0x0, 0x0, 0x0⟩  -- SW_P_GCHG_SECHI
  else if 0x10080 ≤ o ∧ o < 0x11080 ∧ (o - 0x10080) % 256 = 0 then some ⟨0x0, 0x0, 0x0, 0x0, 0x0, 0x0⟩  -- SW_P_CNT0
  else if 0x10084 ≤ o ∧ o < 0x11084 ∧ (o - 0x10084) % 256 = 0 then some ⟨0x0, 0x0, 0x0, 0x0, 0x0, 0x0⟩  -- SW_P_CNT1
  else if 0x10088 ≤ o ∧ o < 0x11088 ∧ (o - 0x10088) % 256 = 0 then some ⟨0x0, 0x0, 0xFFFFFFFF, 0x0, 0x0, 0x0⟩  -- SW_P_CNT2
  else if 0x1008C ≤ o ∧ o < 0x1108C ∧ (o - 0x1008C) % 256 = 0 then some ⟨0x0, 0x0, 0xFFFFFFFF, 0x0, 0x0, 0x0⟩  -- SW_P_CNT3
  else if 0x10090 ≤ o ∧ o < 0x11090 ∧ (o - 0x10090) % 256 = 0 then some ⟨0x0, 0x0, 0xFFFFFFFF, 0x0, 0x0, 0x0⟩  -- SW_P_CNT4
  else if 0x10040 ≤ o ∧ o < 0x10080 ∧ (o - 0x10040) % 4 = 0 then some ⟨0xFFFFFFFF, 0x0, 0x0, 0x0, 0x0, 0x0⟩  -- SW_P_HASH0
  else if 0x10140 ≤ o ∧ o < 0x10180 ∧ (o - 0x10140) % 4 = 0 then some ⟨0xFFFFFFFF, 0x0, 0x0, 0x0, 0x0, 0x0⟩  -- SW_P_HASH1
  else if 0x10240 ≤ o ∧ o < 0x10280 ∧ (o - 0x10240) % 4 = 0 then some ⟨0xFFFFFFFF, 0x0, 0x0, 0x0, 0x0, 0x0⟩  -- SW_P_HASH2
  else if 0x10340 ≤ o ∧ o < 0x10380 ∧ (o - 0x10340) % 4 = 0 then some ⟨0xFFFFFFFF, 0x0, 0x0, 0x0, 0x0, 0x0⟩  -- SW_P_HASH3
  else if 0x10440 ≤ o ∧ o < 0x10480 ∧ (o - 0x10440) % 4 = 0 then some ⟨0xFFFFFFFF, 0x0, 0x0, 0x0, 0x0, 0x0⟩  -- SW_P_HASH4
  else if 0x10540 ≤ o ∧ o < 0x10580 ∧ (o - 0x10540) % 4 = 0 then some ⟨0xFFFFFFFF, 0x0, 0x0, 0x0, 0x0, 0x0⟩  -- SW_P_HASH5
  else if 0x10640 ≤ o ∧ o < 0x10680 ∧ (o - 0x10640) % 4 = 0 then some ⟨0xFFFFFFFF, 0x0, 0x0, 0x0, 0x0, 0x0⟩  -- SW_P_HASH6
  else if 0x10740 ≤ o ∧ o < 0x10780 ∧ (o - 0x10740) % 4 = 0 then some ⟨0xFFFFFFFF, 0x0, 0x0, 0x0, 0x0, 0x0⟩  -- SW_P_HASH7
  else if 0x10840 ≤ o ∧ o < 0x10880 ∧ (o - 0x10840) % 4 = 0 then some ⟨0xFFFFFFFF, 0x0, 0x0, 0x0, 0x0, 0x0⟩  -- SW_P_HASH8
  else if 0x10940 ≤ o ∧ o < 0x10980 ∧ (o - 0x10940) % 4 = 0 then some ⟨0xFFFFFFFF, 0x0, 0x0, 0x0, 0x0, 0x0⟩  -- SW_P_HASH9
  else if 0x10A40 ≤ o ∧ o < 0x10A80 ∧ (o - 0x10A40) % 4 = 0 then some ⟨0xFFFFFFFF, 0x0, 0x0, 0x0, 0x0, 0x0⟩  -- SW_P_HASH10
  else if 0x10B40 ≤ o ∧ o < 0x10B80 ∧ (o - 0x10B40) % 4 = 0 then some ⟨0xFFFFFFFF, 0x0, 0x0, 0x0, 0x0, 0x0⟩  -- SW_P_HASH11
  else if 0x20000 ≤ o ∧ o < 0x20080 ∧ (o - 0x20000) % 16 = 0 then some ⟨0xFFFFFFFF, 0x0, 0x0, 0x0, 0x0, 0xFFFFFF⟩  -- SW_WRED_G
  else if 0x20004 ≤ o ∧ o < 0x20084 ∧ (o - 0x20004) % 16 = 0 then some ⟨0xFFFFFFFF, 0x0, 0x0, 0x0, 0x0, 0xFFFFFF⟩  -- SW_WRED_Y
  else if 0x20008 ≤ o ∧ o < 0x20088 ∧ (o - 0x20008) % 16 = 0 then some ⟨0xFFFFFFFF, 0x0, 0x0, 0x0, 0x0, 0xFFFFFF⟩  -- SW_WRED_R
  else if 0x2000C ≤ o ∧ o < 0x2008C ∧ (o - 0x2000C) % 16 = 0 then some ⟨0xF, 0x0, 0x0, 0x0, 0x0, 0x0⟩  -- SW_WRED_W
  else if 0x30000 ≤ o ∧ o < 0x30800 ∧ (o - 0x30000) % 16 = 0 then some ⟨0xF700FFFF, 0x0, 0x0, 0x0, 0x0, 0xFFFF⟩  -- SW_Q_CFG
  else if 0x30004 ≤ o ∧ o < 0x30804 ∧ (o - 0x30004) % 16 = 0 then some ⟨0x0, 0x0, 0x0, 0x0, 0x0, 0x0⟩  -- SW_Q_STAT
  else if 0x30008 ≤ o ∧ o < 0x30808 ∧ (o - 0x30008) % 16 = 0 then some ⟨0x0, 0x0, 0xFFFFFFFF, 0x0, 0x0, 0x0⟩  -- SW_Q_DROP
  else if 0x3000C ≤ o ∧ o < 0x3080C ∧ (o - 0x3000C) % 16 = 0 then some ⟨0x0, 0x0, 0xFFFFFFFF, 0x0, 0x0, 0x0⟩  -- SW_Q_LATE
  else if 0x40000 ≤ o ∧ o < 0x41000 ∧ o / 0x400 ≠ 0x102 ∧ (o - 0x40000) % 32 = 0 then some ⟨0xE70000FF, 0x0, 0x0, 0x0, 0x0, 0x0⟩  -- SW_R_CFG
  else if 0x40004 ≤ o ∧ o < 0x41004 ∧ o / 0x400 ≠ 0x102 ∧ (o - 0x40004) % 32 = 0 then some ⟨0xFFFFFFFF, 0x0, 0x0, 0x0, 0x0, 0x0⟩  -- SW_R_BASE
  else if 0x40008 ≤ o ∧ o < 0x41008 ∧ o / 0x400 ≠ 0x102 ∧ (o - 0x40008) % 32 = 0 then some ⟨0xFFFF, 0x0, 0x0, 0x0, 0x0, 0x0⟩  -- SW_R_LEN
  else if 0x4000C ≤ o ∧ o < 0x4100C ∧ o / 0x400 ≠ 0x102 ∧ (o - 0x4000C) % 32 = 0 then some ⟨0x0, 0x0, 0x0, 0x0, 0x0, 0x0⟩  -- SW_R_HWPTR
  else if 0x40010 ≤ o ∧ o < 0x41010 ∧ o / 0x400 ≠ 0x102 ∧ (o - 0x40010) % 32 = 0 then some ⟨0xFFFF, 0x0, 0x0, 0x0, 0x0, 0x0⟩  -- SW_R_SWPTR
  else if 0x40014 ≤ o ∧ o < 0x41014 ∧ o / 0x400 ≠ 0x102 ∧ (o - 0x40014) % 32 = 0 then some ⟨0x0, 0x7, 0xFFFF0000, 0x0, 0x0, 0x0⟩  -- SW_R_STAT
  else if 0x40018 ≤ o ∧ o < 0x41018 ∧ o / 0x400 ≠ 0x102 ∧ (o - 0x40018) % 32 = 0 then some ⟨0xFF1F, 0x0, 0x0, 0x0, 0x0, 0x0⟩  -- SW_R_ROUTE
  else if 0x100000 ≤ o ∧ o < 0x106000 ∧ (o - 0x100000) % 4 = 0 then some ⟨0xFFFFFFFF, 0x0, 0x0, 0x0, 0x0, 0x0⟩  -- SW_GATE
  else if 0x200000 ≤ o ∧ o < 0x220000 ∧ (o - 0x200000) % 32 = 0 then some ⟨0xFFFFFFFF, 0x0, 0x0, 0x0, 0x0, 0x0⟩  -- SW_ST_W0
  else if 0x200004 ≤ o ∧ o < 0x220004 ∧ (o - 0x200004) % 32 = 0 then some ⟨0xFFFFFF9F, 0x0, 0x0, 0x0, 0x0, 0x100⟩  -- SW_ST_W1
  else if 0x200008 ≤ o ∧ o < 0x220008 ∧ (o - 0x200008) % 32 = 0 then some ⟨0xFFFFFFFF, 0x0, 0x0, 0x0, 0x0, 0x10000⟩  -- SW_ST_W2
  else if 0x20000C ≤ o ∧ o < 0x22000C ∧ (o - 0x20000C) % 32 = 0 then some ⟨0x0, 0x0, 0x0, 0x0, 0x0, 0x0⟩  -- SW_ST_W3
  else if 0x200010 ≤ o ∧ o < 0x220010 ∧ (o - 0x200010) % 32 = 0 then some ⟨0x0, 0x0, 0x0, 0x0, 0x0, 0x0⟩  -- SW_ST_W4
  else if 0x200014 ≤ o ∧ o < 0x220014 ∧ (o - 0x200014) % 32 = 0 then some ⟨0x0, 0x0, 0xFFFFFFFF, 0x0, 0x0, 0x0⟩  -- SW_ST_W5
  else if 0x200018 ≤ o ∧ o < 0x220018 ∧ (o - 0x200018) % 32 = 0 then some ⟨0x0, 0x0, 0xFFFFFFFF, 0x0, 0x0, 0x0⟩  -- SW_ST_W6
  else if 0x20001C ≤ o ∧ o < 0x22001C ∧ (o - 0x20001C) % 32 = 0 then some ⟨0x0, 0x0, 0xFFFFFFFF, 0x0, 0x0, 0x0⟩  -- SW_ST_W7
  else if 0x300000 ≤ o ∧ o < 0x304000 ∧ (o - 0x300000) % 16 = 0 then some ⟨0xF0FFFFFF, 0x8000000, 0x0, 0x0, 0x0, 0x0⟩  -- SW_MTR_CIR
  else if 0x300004 ≤ o ∧ o < 0x304004 ∧ (o - 0x300004) % 16 = 0 then some ⟨0xFFFFFF, 0x0, 0x0, 0x0, 0x0, 0x0⟩  -- SW_MTR_CBS
  else if 0x300008 ≤ o ∧ o < 0x304008 ∧ (o - 0x300008) % 16 = 0 then some ⟨0xFFFFFF, 0x0, 0x0, 0x0, 0x0, 0x0⟩  -- SW_MTR_EIR
  else if 0x30000C ≤ o ∧ o < 0x30400C ∧ (o - 0x30000C) % 16 = 0 then some ⟨0xFFFFFF, 0x0, 0x0, 0x0, 0x0, 0x0⟩  -- SW_MTR_EBS
  else if 0x310000 ≤ o ∧ o < 0x310080 ∧ (o - 0x310000) % 64 = 0 then some ⟨0x8000FFFF, 0x0, 0x0, 0x0, 0x0, 0x190⟩  -- SW_PRP_CFG
  else if 0x310004 ≤ o ∧ o < 0x310084 ∧ (o - 0x310004) % 64 = 0 then some ⟨0x0, 0x0, 0x0, 0x0, 0x0, 0x0⟩  -- SW_PRP_SEQ
  else if 0x310008 ≤ o ∧ o < 0x310088 ∧ (o - 0x310008) % 64 = 0 then some ⟨0x0, 0x0, 0xFFFF, 0x0, 0x0, 0x0⟩  -- SW_PRP_CNT0
  else if 0x31000C ≤ o ∧ o < 0x31008C ∧ (o - 0x31000C) % 64 = 0 then some ⟨0x0, 0x0, 0xFFFFFFFF, 0x0, 0x0, 0x0⟩  -- SW_PRP_CNT1
  else if 0x310010 ≤ o ∧ o < 0x310090 ∧ (o - 0x310010) % 64 = 0 then some ⟨0x0, 0x0, 0xFFFF, 0x0, 0x0, 0x0⟩  -- SW_PRP_CNT2
  else if 0x320000 ≤ o ∧ o < 0x324000 ∧ (o - 0x320000) % 4 = 0 then some ⟨0xFFFFFFFF, 0x0, 0x0, 0x0, 0x0, 0x0⟩  -- SW_VLAN
  else none

/-- Descriptor by offset: mailboxes, locks, shared memory and diagnostics (Tables 14.3 to 14.7, 20.6 to 20.8). -/
def mbxDesc (o : Nat) : Option RegDesc :=
  if 0x0 ≤ o ∧ o < 0x800 ∧ (o - 0x0) % 32 = 0 then some ⟨0x801F1F80, 0x0, 0x0, 0x0, 0x0, 0x0⟩  -- MBX_CFG
  else if 0x4 ≤ o ∧ o < 0x804 ∧ (o - 0x4) % 32 = 0 then some ⟨0xFFFFFFFF, 0x0, 0x0, 0x0, 0x0, 0x0⟩  -- MBX_PTR
  else if 0x8 ≤ o ∧ o < 0x808 ∧ (o - 0x8) % 32 = 0 then some ⟨0x0, 0x0, 0x0, 0x0, 0x0, 0x0⟩  -- MBX_TAG
  else if 0xC ≤ o ∧ o < 0x80C ∧ (o - 0xC) % 32 = 0 then some ⟨0x0, 0x40000000, 0xFF0000, 0x0, 0x0, 0x0⟩  -- MBX_STAT
  else if 0x10 ≤ o ∧ o < 0x810 ∧ (o - 0x10) % 32 = 0 then some ⟨0xFF1F, 0x0, 0x0, 0x0, 0x0, 0x0⟩  -- MBX_ROUTE
  else if o = 0x800 then some ⟨0xFFFF, 0x0, 0x0, 0x0, 0x0, 0x0⟩  -- MBX_TAGSTG
  else if o = 0x804 then some ⟨0xFFFF, 0x0, 0x0, 0x0, 0x0, 0x0⟩  -- MBX_XTIME
  else if o = 0x808 then some ⟨0x0, 0x0, 0xFFFFFFFF, 0x0, 0x0, 0x0⟩  -- MBX_LKFREE
  else if 0x900 ≤ o ∧ o < 0x980 ∧ (o - 0x900) % 4 = 0 then some ⟨0x1F, 0x0, 0x0, 0x0, 0x0, 0x0⟩  -- MBX_LK
  else if 0x8000 ≤ o ∧ o < 0x8080 ∧ (o - 0x8000) % 4 = 0 then some ⟨0x11F, 0x0, 0x0, 0x0, 0x0, 0x10⟩  -- MEM_OWN
  else if 0x8080 ≤ o ∧ o < 0x80A0 ∧ (o - 0x8080) % 4 = 0 then some ⟨0x8001FFFE, 0x0, 0x0, 0x0, 0x0, 0x0⟩  -- MEM_GRP
  else if o = 0x80A0 then some ⟨0x0, 0x0, 0x0, 0x0, 0x1F, 0x0⟩  -- MEM_SUPV
  else if 0x8100 ≤ o ∧ o < 0x8180 ∧ (o - 0x8100) % 4 = 0 then some ⟨0x0, 0x80000000, 0x7FFF0000, 0x0, 0x0, 0x0⟩  -- MEM_ECC
  else if 0x8180 ≤ o ∧ o < 0x8200 ∧ (o - 0x8180) % 4 = 0 then some ⟨0x0, 0x80000000, 0x0, 0x0, 0x0, 0x0⟩  -- MEM_VIOL
  else if 0x8200 ≤ o ∧ o < 0x8280 ∧ (o - 0x8200) % 4 = 0 then some ⟨0x0, 0x0, 0xFFFFFFFF, 0x0, 0x0, 0x0⟩  -- MEM_CONF
  else if o = 0x8300 then some ⟨0x0, 0x7, 0x0, 0x0, 0x0, 0x0⟩  -- MEM_IRQSTAT
  else if o = 0x8304 then some ⟨0x7, 0x0, 0x0, 0x0, 0x0, 0x0⟩  -- MEM_IRQEN
  else if o = 0x8308 then some ⟨0xFF1F, 0x0, 0x0, 0x0, 0x0, 0x0⟩  -- MEM_IRQROUTE
  else if o = 0xC000 then some ⟨0x0, 0x0, 0x0, 0x0, 0x0, 0x0⟩  -- MEM_ELOG_W0
  else if o = 0xC004 then some ⟨0x0, 0x0, 0x0, 0x0, 0x0, 0x0⟩  -- MEM_ELOG_W1
  else if o = 0xC008 then some ⟨0x0, 0x0, 0x0, 0x0, 0x0, 0x0⟩  -- MEM_ELOG_W2
  else if o = 0xC00C then some ⟨0x0, 0x0, 0x0, 0x0, 0x0, 0x0⟩  -- MEM_ELOG_W3
  else if o = 0xC010 then some ⟨0x0, 0x0, 0xFF00, 0x0, 0x0, 0x0⟩  -- MEM_ELOG_STAT
  else if o = 0xC014 then some ⟨0x0, 0x0, 0xFFFFFFFF, 0x0, 0x0, 0x0⟩  -- MEM_ELOG_CAUSE0
  else if o = 0xC018 then some ⟨0x0, 0x0, 0xFFFFFF, 0x0, 0x0, 0x0⟩  -- MEM_ELOG_CAUSE1
  else if 0xC040 ≤ o ∧ o < 0xC070 ∧ (o - 0xC040) % 8 = 0 then some ⟨0x0, 0x0, 0xFFFFFFFF, 0x0, 0x0, 0x0⟩  -- MEM_DGECC_CNT
  else if 0xC044 ≤ o ∧ o < 0xC074 ∧ (o - 0xC044) % 8 = 0 then some ⟨0x0, 0x80000000, 0x0, 0x0, 0x0, 0x0⟩  -- MEM_DGECC_LOC
  else if o = 0xC080 then some ⟨0x0, 0x0, 0x0, 0x31F, 0x0, 0x0⟩  -- MEM_BIST_CMD
  else if o = 0xC084 then some ⟨0x0, 0x0, 0x0, 0x0, 0x0, 0x0⟩  -- MEM_BIST_STAT
  else if o = 0xC090 then some ⟨0x0, 0x0, 0x0, 0xFFFF031F, 0x0, 0x0⟩  -- MEM_FT_CMD
  else if o = 0xC094 then some ⟨0x0, 0x0, 0x0, 0x0, 0x0, 0x0⟩  -- MEM_FT_STAT
  else if o = 0xC098 then some ⟨0x0, 0x0, 0x0, 0x0, 0x0, 0x0⟩  -- MEM_FT_CELL
  else if o = 0xC0A0 then some ⟨0x0, 0x0, 0x0, 0x3FFF, 0x0, 0x0⟩  -- MEM_CAL_CMD
  else if o = 0xC0A4 then some ⟨0x0, 0x0, 0x0, 0x0, 0x0, 0x0⟩  -- MEM_CAL_STAT
  else if o = 0xC0C0 then some ⟨0x0, 0xF, 0x0, 0x0, 0x0, 0x0⟩  -- MEM_DG_IRQSTAT
  else if o = 0xC0C4 then some ⟨0x1F, 0x0, 0x0, 0x0, 0x0, 0x0⟩  -- MEM_DG_IRQEN
  else if o = 0xC0C8 then some ⟨0xFF1F, 0x0, 0x0, 0x0, 0x0, 0x0⟩  -- MEM_DG_IRQROUTE
  else none

/-- Descriptor by offset: leadership arbiter (Tables 15.5 to 15.7). -/
def arbDesc (o : Nat) : Option RegDesc :=
  if o = 0x0 then some ⟨0x0, 0x0, 0x0, 0x0, 0xF01FFFFF, 0xFFFF⟩  -- ARB_CFG
  else if o = 0x4 then some ⟨0x0, 0x14000000, 0x0, 0x0, 0x0, 0x0⟩  -- ARB_STATUS
  else if o = 0x8 then some ⟨0x0, 0x0, 0x0, 0x10F, 0x0, 0x0⟩  -- ARB_CMD
  else if 0xC ≤ o ∧ o < 0x14 ∧ (o - 0xC) % 4 = 0 then some ⟨0x0, 0x0, 0x0, 0x0, 0x0, 0x0⟩  -- ARB_HB
  else if o = 0x14 then some ⟨0x0, 0x0, 0x0, 0x80000000, 0x0, 0x0⟩  -- ARB_FCNT
  else if o = 0x18 then some ⟨0x0, 0x0, 0x0, 0x0, 0x0, 0x0⟩  -- ARB_LAST
  else if o = 0x1C then some ⟨0x0, 0x0, 0x0, 0x0, 0x0, 0x0⟩  -- ARB_LAST_NS
  else if o = 0x20 then some ⟨0x0, 0x0, 0x0, 0x0, 0x0, 0x0⟩  -- ARB_MOVES
  else if o = 0x24 then some ⟨0x0, 0x0, 0xFFFFFFFF, 0x0, 0x0, 0x0⟩  -- ARB_MASK
  else if o = 0x28 then some ⟨0x0, 0x3F, 0x0, 0x0, 0x0, 0x0⟩  -- ARB_IRQSTAT
  else if o = 0x2C then some ⟨0x3F, 0x0, 0x0, 0x0, 0x0, 0x0⟩  -- ARB_IRQEN
  else if o = 0x30 then some ⟨0xFF1F, 0x0, 0x0, 0x0, 0x0, 0x0⟩  -- ARB_IRQROUTE
  else if o = 0x34 then some ⟨0x0, 0x0, 0x0, 0x0, 0xFFFFFFFF, 0x0⟩  -- ARB_ENTRY
  else none

/-- Descriptor by offset: pair-local registers (Tables 15.8 and 15.9). -/
def plDesc (o : Nat) : Option RegDesc :=
  if o = 0x0 then some ⟨0x0, 0x0, 0x0, 0x0, 0x0, 0x0⟩  -- ARB_PL_ID
  else if o = 0x4 then some ⟨0x0, 0x0, 0x0, 0x3, 0x0, 0x0⟩  -- ARB_PL_CACHE
  else if o = 0x8 then some ⟨0x0, 0x0, 0x0, 0x0, 0x1, 0x0⟩  -- ARB_PL_PLOCK
  else if o = 0x100 then some ⟨0x0, 0x0, 0x0, 0xF, 0x0, 0x0⟩  -- PL_CTX_CTRL
  else if o = 0x104 then some ⟨0x10000000, 0x0, 0x0, 0x0, 0x0, 0x0⟩  -- PL_CTX_STAT
  else if o = 0x108 then some ⟨0xFFFFFFFF, 0x0, 0x0, 0x0, 0x0, 0x0⟩  -- PL_CTX_PC
  else if o = 0x10C then some ⟨0xFFFFFFFF, 0x0, 0x0, 0x0, 0x0, 0x0⟩  -- PL_CTX_RPC
  else if o = 0x110 then some ⟨0x80FF000F, 0x0, 0x0, 0x0, 0x0, 0x0⟩  -- PL_CTX_TINFO
  else if o = 0x114 then some ⟨0x0, 0x0, 0x0, 0x0, 0x0, 0x0⟩  -- PL_CTX_TADDR
  else if o = 0x118 then some ⟨0xFFFFFFFF, 0x0, 0x0, 0x0, 0x0, 0x0⟩  -- PL_CTX_DSLO
  else if o = 0x11C then some ⟨0xFFFFFFFF, 0x0, 0x0, 0x0, 0x0, 0x0⟩  -- PL_CTX_DSHI
  else if o = 0x120 then some ⟨0xFFFFFFFF, 0x0, 0x0, 0x0, 0x0, 0x0⟩  -- PL_CTX_RSBASE
  else if o = 0x124 then some ⟨0xFFFFFFFF, 0x0, 0x0, 0x0, 0x0, 0x0⟩  -- PL_CTX_RSLIMIT
  else if o = 0x128 then some ⟨0x0, 0x0, 0x0, 0x0, 0x0, 0x0⟩  -- PL_CTX_RSPTR
  else if o = 0x12C then some ⟨0x80FFFFFF, 0x0, 0x0, 0x0, 0x0, 0x0⟩  -- PL_CTX_WDOG
  else if o = 0x130 then some ⟨0x0, 0x0, 0x0, 0x0, 0x0, 0x0⟩  -- PL_CTX_IPEND
  else if o = 0x134 then some ⟨0xFFFFFFFF, 0x0, 0x0, 0x0, 0x0, 0x0⟩  -- PL_CTX_IMASK
  else if o = 0x138 then some ⟨0x0, 0x0, 0x0, 0x0, 0x0, 0x0⟩  -- PL_CTX_ISSUED
  else if o = 0x13C then some ⟨0xFFFFFFFF, 0x0, 0x0, 0x0, 0x0, 0x0⟩  -- PL_CTX_SCRATCH
  else if o = 0x140 then some ⟨0xFFFFFFFF, 0x0, 0x0, 0x0, 0x0, 0x0⟩  -- PL_CTX_RNEXT
  else if o = 0x144 then some ⟨0x7F, 0x0, 0x0, 0x0, 0x0, 0x0⟩  -- PL_CTX_FCSR
  else if 0x400 ≤ o ∧ o < 0x600 ∧ (o - 0x400) % 16 = 0 then some ⟨0xFFFFF000, 0x0, 0x0, 0x0, 0x0, 0x0⟩  -- ARB_PL_RBASE
  else if 0x404 ≤ o ∧ o < 0x604 ∧ (o - 0x404) % 16 = 0 then some ⟨0xFFFFF000, 0x0, 0x0, 0x0, 0x0, 0x0⟩  -- ARB_PL_RLIM
  else if 0x408 ≤ o ∧ o < 0x608 ∧ (o - 0x408) % 16 = 0 then some ⟨0x1F, 0x0, 0x0, 0x0, 0x0, 0x0⟩  -- ARB_PL_RATTR
  else none

/-- Descriptor by offset: host bridge and slot manager (Tables 16.6, 16.7 and 19.9). -/
def hbDesc (o : Nat) : Option RegDesc :=
  if o = 0x0 then some ⟨0x0, 0x0, 0x0, 0x0, 0xC0000000, 0x0⟩  -- HB_CTRL
  else if o = 0x4 then some ⟨0x0, 0x0, 0x0, 0x0, 0x0, 0x0⟩  -- HB_STATUS
  else if o = 0x8 then some ⟨0x0, 0x1F, 0x0, 0x0, 0x0, 0x0⟩  -- HB_IRQSTAT
  else if o = 0xC then some ⟨0x1F, 0x0, 0x0, 0x0, 0x0, 0x0⟩  -- HB_IRQEN
  else if o = 0x10 then some ⟨0xFF1F, 0x0, 0x0, 0x0, 0x0, 0x0⟩  -- HB_IRQROUTE
  else if o = 0x14 then some ⟨0x0, 0x0, 0x0, 0x0, 0x0, 0x0⟩  -- HB_ERRLOG0
  else if o = 0x18 then some ⟨0x0, 0x80000000, 0x0, 0x0, 0x0, 0x0⟩  -- HB_ERRLOG1
  else if o = 0x20 then some ⟨0xFFFF, 0x0, 0x0, 0x0, 0x0, 0x64⟩  -- HB_SPICFG
  else if o = 0x24 then some ⟨0x0, 0x0, 0xFFFFFFFF, 0x0, 0x0, 0x0⟩  -- HB_SPICNT
  else if o = 0x30 then some ⟨0xFFFF, 0x0, 0x0, 0x0, 0x0, 0x32⟩  -- HB_PFCFG
  else if o = 0x34 then some ⟨0x0, 0x0, 0xFFFFFFFF, 0x0, 0x0, 0x0⟩  -- HB_PFCNT
  else if 0x40 ≤ o ∧ o < 0xC0 ∧ (o - 0x40) % 8 = 0 then some ⟨0xFFFFF001, 0x0, 0x0, 0x0, 0x0, 0x0⟩  -- HB_PFW_BASE
  else if 0x44 ≤ o ∧ o < 0xC4 ∧ (o - 0x44) % 8 = 0 then some ⟨0xFFFFF000, 0x0, 0x0, 0x0, 0x0, 0x0⟩  -- HB_PFW_LIM
  else if 0x100 ≤ o ∧ o < 0x140 ∧ (o - 0x100) % 4 = 0 then some ⟨0x0, 0x0, 0x0, 0x0, 0x0, 0x0⟩  -- HB_PFLOG
  else if 0x200 ≤ o ∧ o < 0x240 ∧ (o - 0x200) % 8 = 0 then some ⟨0xF0000001, 0x0, 0x0, 0x0, 0x0, 0x0⟩  -- HB_OBT_LO
  else if 0x204 ≤ o ∧ o < 0x244 ∧ (o - 0x204) % 8 = 0 then some ⟨0xFFFFFFFF, 0x0, 0x0, 0x0, 0x0, 0x0⟩  -- HB_OBT_HI
  else if 0x1000 ≤ o ∧ o < 0x1400 ∧ (o - 0x1000) % 16 = 12 then some ⟨0x1, 0x0, 0x0, 0x0, 0x0, 0x1⟩  -- HB_MSIX vector control
  else if 0x1000 ≤ o ∧ o < 0x1400 ∧ (o - 0x1000) % 4 = 0 then some ⟨0xFFFFFFFF, 0x0, 0x0, 0x0, 0x0, 0x0⟩  -- HB_MSIX
  else if 0x1400 ≤ o ∧ o < 0x1408 ∧ (o - 0x1400) % 4 = 0 then some ⟨0x0, 0x0, 0x0, 0x0, 0x0, 0x0⟩  -- HB_PBA
  else if 0x8000 ≤ o ∧ o < 0x8400 ∧ (o - 0x8000) % 32 = 0 then some ⟨0xC000FF00, 0x0, 0x0, 0x0, 0x0, 0x0⟩  -- SLOT_CFG
  else if 0x8004 ≤ o ∧ o < 0x8404 ∧ (o - 0x8004) % 32 = 0 then some ⟨0x0, 0x1000000, 0xFFFF, 0x0, 0x0, 0x0⟩  -- SLOT_STAT
  else if 0x8008 ≤ o ∧ o < 0x8408 ∧ (o - 0x8008) % 32 = 0 then some ⟨0x0, 0x0, 0x0, 0x3, 0x0, 0x0⟩  -- SLOT_CMD
  else if 0x800C ≤ o ∧ o < 0x840C ∧ (o - 0x800C) % 32 = 0 then some ⟨0x0, 0x0, 0x0, 0x0, 0x0, 0x0⟩  -- SLOT_TEMP
  else if 0x8010 ≤ o ∧ o < 0x8410 ∧ (o - 0x8010) % 32 = 0 then some ⟨0x0, 0x0, 0x0, 0x0, 0x0, 0x0⟩  -- SLOT_SEQ
  else if o = 0x8400 then some ⟨0x0, 0x1F, 0x0, 0x0, 0x0, 0x0⟩  -- SLOT_IRQSTAT
  else if o = 0x8404 then some ⟨0x1F, 0x0, 0x0, 0x0, 0x0, 0x0⟩  -- SLOT_IRQEN
  else if o = 0x8408 then some ⟨0xFF1F, 0x0, 0x0, 0x0, 0x0, 0x0⟩  -- SLOT_IRQROUTE
  else none

/-- Descriptor by offset: PMU and ADC (Tables 18.14 to 18.16). -/
def pmuDesc (o : Nat) : Option RegDesc :=
  if o = 0x0 then some ⟨0xFF00FF, 0x0, 0x0, 0x0, 0x0, 0x2000A⟩  -- PMU_SEQCFG
  else if o = 0x4 then some ⟨0x0, 0x0, 0xFF, 0x0, 0x0, 0x0⟩  -- PMU_SEQSTAT
  else if o = 0x8 then some ⟨0xFFFF, 0x0, 0x0, 0x0, 0x0, 0x1402⟩  -- PMU_HOLDCFG
  else if o = 0xC then some ⟨0x0, 0x0, 0x0, 0x0, 0x0, 0x0⟩  -- PMU_MONSTAT
  else if o = 0x10 then some ⟨0x8000FFFF, 0x0, 0x0, 0x0, 0x0, 0x0⟩  -- PMU_BANKV
  else if o = 0x14 then some ⟨0x7FFFFFF, 0x0, 0x0, 0x0, 0x0, 0x0⟩  -- PMU_PDCTRL
  else if o = 0x18 then some ⟨0x0, 0x0, 0x0, 0x0, 0x0, 0x0⟩  -- PMU_PDSTAT
  else if o = 0x20 then some ⟨0x0, 0xF, 0x0, 0x0, 0x0, 0x0⟩  -- PMU_IRQSTAT
  else if o = 0x24 then some ⟨0xF, 0x0, 0x0, 0x0, 0x0, 0x0⟩  -- PMU_IRQEN
  else if o = 0x28 then some ⟨0xFF1F, 0x0, 0x0, 0x0, 0x0, 0x0⟩  -- PMU_IRQROUTE
  else if 0x100 ≤ o ∧ o < 0x200 ∧ (o - 0x100) % 128 = 0 then some ⟨0x8000000F, 0x0, 0x0, 0x0, 0x0, 0x0⟩  -- PMU_ADC_CFG
  else if 0x104 ≤ o ∧ o < 0x204 ∧ (o - 0x104) % 128 = 0 then some ⟨0xBFBF0000, 0x0, 0x0, 0x0, 0x0, 0x0⟩  -- PMU_ADC_EVCFG
  else if 0x108 ≤ o ∧ o < 0x208 ∧ (o - 0x108) % 128 = 0 then some ⟨0x0, 0x0, 0xFF00, 0x0, 0x0, 0x0⟩  -- PMU_ADC_STAT
  else if 0x110 ≤ o ∧ o < 0x120 ∧ (o - 0x110) % 4 = 0 then some ⟨0x3F3F3F3F, 0x0, 0x0, 0x0, 0x0, 0x0⟩  -- PMU_ADC0_LIST
  else if 0x140 ≤ o ∧ o < 0x180 ∧ (o - 0x140) % 4 = 0 then some ⟨0x0, 0x0, 0x0, 0x0, 0x0, 0x0⟩  -- PMU_ADC0_RES
  else if 0x190 ≤ o ∧ o < 0x1A0 ∧ (o - 0x190) % 4 = 0 then some ⟨0x3F3F3F3F, 0x0, 0x0, 0x0, 0x0, 0x0⟩  -- PMU_ADC1_LIST
  else if 0x1C0 ≤ o ∧ o < 0x200 ∧ (o - 0x1C0) % 4 = 0 then some ⟨0x0, 0x0, 0x0, 0x0, 0x0, 0x0⟩  -- PMU_ADC1_RES
  else none

/-- Descriptor by offset: midnight domain (Tables 19.6 to 19.8). -/
def aonDesc (o : Nat) : Option RegDesc :=
  if o = 0x0 then some ⟨0x0, 0x0, 0x0, 0x0, 0x0, 0x0⟩  -- AON_RTC_SECLO
  else if o = 0x4 then some ⟨0x0, 0x0, 0x0, 0x0, 0x0, 0x0⟩  -- AON_RTC_SECHI
  else if o = 0x8 then some ⟨0x0, 0x0, 0x0, 0x0, 0x0, 0x0⟩  -- AON_RTC_SUB
  else if o = 0xC then some ⟨0x0, 0x0, 0x0, 0x0, 0x0, 0x0⟩  -- AON_RTC_CAL0
  else if o = 0x10 then some ⟨0x0, 0x0, 0x0, 0x0, 0x0, 0x0⟩  -- AON_RTC_CAL1
  else if o = 0x14 then some ⟨0xFFFFFFFF, 0x0, 0x0, 0x0, 0x0, 0x0⟩  -- AON_RTC_SETLO
  else if o = 0x18 then some ⟨0xFFFFFFFF, 0x0, 0x0, 0x0, 0x0, 0x0⟩  -- AON_RTC_SETHI
  else if o = 0x1C then some ⟨0x0, 0x0, 0x0, 0x3, 0x0, 0x0⟩  -- AON_RTC_CMD
  else if o = 0x20 then some ⟨0xFF, 0x0, 0x0, 0x0, 0x0, 0x0⟩  -- AON_RTC_TRIM
  else if o = 0x24 then some ⟨0x80000000, 0x0, 0xFFFF, 0x0, 0x0, 0x0⟩  -- AON_STAT
  else if o = 0x28 then some ⟨0x0, 0x0, 0x0, 0x0, 0x0, 0x0⟩  -- AON_BATSEC
  else if o = 0x2C then some ⟨0x0, 0x0, 0x0, 0x0, 0x0, 0x0⟩  -- AON_BATCNT
  else if o = 0x30 then some ⟨0x0, 0xF, 0x0, 0x0, 0x0, 0x0⟩  -- AON_IRQSTAT
  else if o = 0x34 then some ⟨0xF, 0x0, 0x0, 0x0, 0x0, 0x0⟩  -- AON_IRQEN
  else if o = 0x38 then some ⟨0xFF1F, 0x0, 0x0, 0x0, 0x0, 0x0⟩  -- AON_IRQROUTE
  else if 0x100 ≤ o ∧ o < 0x140 ∧ (o - 0x100) % 4 = 0 then some ⟨0x80FFFFFF, 0x78000000, 0x0, 0x0, 0x0, 0x0⟩  -- AON_SURV
  else if 0x400 ≤ o ∧ o < 0x800 ∧ (o - 0x400) % 32 = 0 then some ⟨0x0, 0x0, 0x0, 0x0, 0x0, 0x0⟩  -- AON_SLOT_SERLO
  else if 0x404 ≤ o ∧ o < 0x804 ∧ (o - 0x404) % 32 = 0 then some ⟨0x0, 0x0, 0x0, 0x0, 0x0, 0x0⟩  -- AON_SLOT_SERHI
  else if 0x408 ≤ o ∧ o < 0x808 ∧ (o - 0x408) % 32 = 0 then some ⟨0x0, 0x0, 0x0, 0x0, 0x0, 0x0⟩  -- AON_SLOT_WEARLO
  else if 0x40C ≤ o ∧ o < 0x80C ∧ (o - 0x40C) % 32 = 0 then some ⟨0x0, 0xF00000, 0x0, 0x0, 0x0, 0x0⟩  -- AON_SLOT_WEARHI
  else if 0x410 ≤ o ∧ o < 0x810 ∧ (o - 0x410) % 32 = 0 then some ⟨0x0, 0x0, 0x0, 0x0, 0x0, 0x0⟩  -- AON_SLOT_OPSEC
  else if 0x414 ≤ o ∧ o < 0x814 ∧ (o - 0x414) % 32 = 0 then some ⟨0x0, 0x0, 0x0, 0x0, 0x0, 0x0⟩  -- AON_SLOT_S12
  else if 0x418 ≤ o ∧ o < 0x818 ∧ (o - 0x418) % 32 = 0 then some ⟨0x0, 0x0, 0x0, 0x0, 0x0, 0x0⟩  -- AON_SLOT_S34
  else if 0x41C ≤ o ∧ o < 0x81C ∧ (o - 0x41C) % 32 = 0 then some ⟨0x0, 0x0, 0x0, 0x0, 0x0, 0x0⟩  -- AON_SLOT_INSOCT
  else if 0x800 ≤ o ∧ o < 0x1000 ∧ (o - 0x800) % 4 = 0 then some ⟨0x0, 0x0, 0x0, 0x0, 0x0, 0x0⟩  -- AON_IDW
  else none

end Sys2Proof.Machine
end

