-- ==== Sys2Proof/Machine/Store.lean ====
section
/-! DEFINITION. Sparse stores in ONE canonical form: a list of (key, value) pairs with strictly rising keys and no entry
equal to what an unlisted key reads as, so that equal stores are equal lists. -/

namespace Sys2Proof.Machine

/-- A sparse store with natural keys. -/
abbrev SMap (α : Type) := List (Nat × α)

variable {α : Type}

/-- The entry at a key, if the store lists one. -/
def smFind : SMap α → Nat → Option α
  | [], _ => none
  | (j, v) :: r, k => if k = j then some v else if k < j then none else smFind r k

/-- The value at a key: the entry, or the default. -/
def smGet (d : α) (m : SMap α) (k : Nat) : α := (smFind m k).getD d

/-- The store without the key's entry; an entry out of order behind it goes too, so that the key reads as unlisted whatever the
list. -/
def smErase : SMap α → Nat → SMap α
  | [], _ => []
  | (j, v) :: r, k =>
    if k = j then r.dropWhile (fun e => decide (e.1 ≤ k)) else if k < j then (j, v) :: r else (j, v) :: smErase r k

/-- The store with the key's entry set. -/
def smInsert : SMap α → Nat → α → SMap α
  | [], k, v => [(k, v)]
  | (j, u) :: r, k, v =>
    if k = j then (k, v) :: r else if k < j then (k, v) :: (j, u) :: r else (j, u) :: smInsert r k v

/-- Writing a value: the default value removes the entry (the canonical form). -/
def smSet [DecidableEq α] (d : α) (m : SMap α) (k : Nat) (v : α) : SMap α :=
  if v = d then smErase m k else smInsert m k v

/-- Every key of the store lies above `k`, rising. -/
def smRising : SMap α → Bool
  | [] => true
  | [_] => true
  | (j, _) :: (k, v) :: r => decide (j < k) && smRising ((k, v) :: r)

/-- The canonical form: keys rise strictly, and no entry equals what its key reads as unlisted. -/
def smWf [DecidableEq α] (d : Nat → α) (m : SMap α) : Bool :=
  smRising m && m.all (fun e => decide (e.2 ≠ d e.1))

end Sys2Proof.Machine
end

