-- ==== Sys2Proof/Machine/State.lean ====
section
/-! DEFINITION. The state of the OZ9256: every register, FIFO, buffer, counter, mode and pin the spec names, and the queue of
waiting commands. Plain data. Registers with a bus address are one sparse store keyed by that address (an unlisted
register reads its reset word, Machine/Regs.lean); what has no address has a field of its own. -/

namespace Sys2Proof.Machine

/-- Reasons the machine could stop: none. The spec gives every command an effect or an error response (R6, R16, R439),
so no meaning faults; the type is closed and empty of raisers. Safe. -/
inductive Fault where
  /-- Raised by nobody: kept so that the type has a name a claim can list. Safe. -/
  | none
deriving DecidableEq, Repr

/-- Reasons the model refuses a command. -/
inductive Refusal where
  /-- Raised by an arm of Machine/Dispatch.lean whose command has no meaning yet. Safe. -/
  | notModelled (mnemonic : String)
deriving DecidableEq, Repr

/-- The response the last bus access got (R6, R16, R439): the model's own field (DESIGN CHOICE, log entry 8). -/
inductive Resp where
  | none
  | ok (data : Word)
  | err (cause : Nat)
deriving DecidableEq, Repr

/-- What a pin keeper holds for one pin while it is engaged: ball level, driver enable and pull (R404). -/
structure KeepH where
  level : Bool
  oe : Bool
  pull : Nat
deriving DecidableEq, Repr

/-- What the configuration space of the PCIe function shows that R351 gives: the IDs, the sizes of its MSI-X table and of its transfers,
bus mastering, and D3hot of its power management capability. -/
structure PcieCfg where
  device : Nat
  vendor : Nat
  subVendor : Nat
  subsystem : Nat
  vectors : Nat
  maxPayload : Nat
  maxRead : Nat
  bme : Bool
  d3 : Bool
deriving DecidableEq, Repr

/-- Something the block has sent out (DESIGN CHOICE, log entry 8): what the other end of a wire would have seen. -/
inductive Out where
  /-- An MSI-X message: vector (R30). -/
  | msix (vector : Nat)
  /-- A CAN frame sent to its end by a controller (R276). -/
  | can (n : Nat) (frame : CanFrame)
  /-- A level change of 1PPS_OUT (R191, R192). -/
  | pps (high : Bool)
  /-- A frame sent by an Ethernet port, from its destination to its end without FCS; `good` false: stomped (R288). -/
  | eth (port : Nat) (data : List Byte) (good : Bool)
  /-- A PFC frame sent for one class (R298). -/
  | pfc (port cls quanta : Nat)
  /-- A Huxon frame sent to its end, header to check field (R230). -/
  | hx (n : Nat) (data : List Byte)
  /-- A wear page written to the module of a slot (R430). -/
  | wear (slot page : Nat) (data : List Byte)
  /-- A read or write request sent to the host (R354). -/
  | outbound (pcie : Nat) (wr : Bool) (data size : Nat)
  /-- The completion of an inbound request: 0 success, 1 Unsupported Request, 2 Completer Abort, with read data (R353). -/
  | completion (status : Nat) (data : List Word)
  /-- What a configuration request left the function's configuration space at (R351). -/
  | config (c : PcieCfg)
  /-- Bytes the SPI port shifted out (R357, R358). -/
  | spi (data : List Byte)
  /-- What the pin keepers drove between the loss of the root PLL and the cold reset that ended it (R26, R405), by pin. -/
  | pinsSafe (keep : List (Nat × Option KeepH))
deriving DecidableEq, Repr

/-- The state of one cell that no register shows (R38, R45, R48, R49, R69). -/
structure CellH where
  /-- The samples of the previous tick (R48). -/
  prevA : Bool := false
  prevB : Bool := false
  /-- The edge history is cleared: the next sample is its own predecessor (R38). A reset clears it too. -/
  fresh : Bool := true
  /-- The start-group latch (R49). -/
  sgs : Bool := false
  /-- The tick grid (R69): the cycle of a tick of it, none for the tick 0 that follows the release of the group's reset, and the
  phase accumulator A before that tick; the cycle + 1 of a tick that a new CELL_DIV has put behind the grid (R70), and of the last
  tick taken. -/
  next : Option Nat := none
  acc : Nat := 0
  due : Nat := 0
  ran : Nat := 0
  /-- The cycle + 1 in which the last CELL_CTRL command completed, and a STEP whose tick is to come (R39). -/
  cmdAt : Nat := 0
  step : Bool := false
  /-- The shifter width in force, and the cycle + 1 of a CELL_SHCFG write whose WIDTH takes effect at the next tick (R45). -/
  width : Nat := 32
  newW : Nat := 0
  /-- The cycle + 1 of the last FIFO access, with the words added to TX and taken from RX in that cycle (R64). -/
  fifoAt : Nat := 0
  txIn : Nat := 0
  rxOut : Nat := 0
  /-- The cycle + 1 of the last software write of CT0 (bit 0), CT1 (bit 1) or the flags (bit 2), and which (R51). -/
  wrAt : Nat := 0
  wrSet : Nat := 0
  /-- The last action on pin A or B was ODSHB: its driver follows the ball level (R50, R53). -/
  odA : Bool := false
  odB : Bool := false
deriving DecidableEq, Repr

/-- What is on its way through the event fabric (R101, R102, R72): a pulse in the local stage of a group; a pulse in the global
stage, with the group of the cell it came from; a start whose members act; a pulse that a crossing holds for a CAN controller or
a converter; a LOAD of the RTC that waits for a CLK_32K edge (R416). -/
inductive DueK where
  | loc (ch grp : Nat)
  | glob (ch : Nat) (grp : Option Nat)
  | members (sg : Nat)
  | can (n : Nat)
  | adc (x : Nat)
  | rtc
deriving DecidableEq, Repr

/-- One such item, and the cycle at whose end it acts. -/
structure Due where
  at_ : Nat
  what : DueK
deriving DecidableEq, Repr

/-- The state of one cell DMA channel that no register shows: the image words collected, and the TB0 time of the
first (R83). -/
structure DmaH where
  words : List Word := []
  ns : Nat := 0
  sec : Nat := 0
  sub : Nat := 0
deriving DecidableEq, Repr

/-- The state of a cell in the set of R110: its registers of that set by address (unlisted: the reset word), what no register
shows, and the levels of its FIFOs. -/
structure ShdCopy where
  regs : SMap Word := []
  h : CellH := {}
  tx : Nat := 0
  rx : Nat := 0
deriving DecidableEq, Repr

/-- The state of one shadow cell that no register shows (R109 to R115): the cycle in which the visit began; Sg's own copy of the
visited cell from the snapshot on, and in TAKEOVER the stopped cell's; the cell of the last mismatch, if it fell in the visit
before this one. -/
structure ShadowH where
  since : Nat := 0
  copy : Option ShdCopy := none
  lastMis : Option Nat := none
deriving DecidableEq, Repr

/-- A timebase: seconds, nanoseconds and the fraction in units of 2^-32 ns (R172). -/
structure TB where
  sec : Nat := 0
  ns : Nat := 0
  frac : Nat := 0
deriving DecidableEq, Repr

/-- An entry of the device error log (R439, Table 20.7). -/
structure LogE where
  addr : Nat
  wr : Bool
  master : Nat
  cause : Nat
  ns : Nat
  sec : Nat
  sub : Nat
deriving DecidableEq, Repr

/-- A frame held in a CAN receive FIFO (R279). -/
structure CanRx where
  frame : CanFrame
  fidx : Nat
  tssrc : Bool
  ns : Nat
  sec : Nat
  sub : Nat
deriving DecidableEq, Repr

/-- An entry of the egress timestamp queue (R184, Table 8.14). -/
structure TsqE where
  port : Nat
  msgType : Nat
  domain : Nat
  seqId : Nat
  ns : Nat
  sec : Nat
  sub : Nat
deriving DecidableEq, Repr

/-- The PPS output and its keeper (R191, R192): the level, when the time unit last drove it high, the last 16 periods
counted in reference cycles, and the width in force. -/
structure PpsH where
  high : Bool := false
  /-- The time unit has driven a rising edge and drives on: the next one ends a period to learn. -/
  rose : Bool := false
  /-- The cycle of the last rising edge; of a keeper's edge, where the learnt period places it. -/
  roseAt : Nat := 0
  /-- The cycle of the takeover. -/
  heldAt : Nat := 0
  periods : List Nat := []
  width : Nat := 0
deriving DecidableEq, Repr
/-- A version slot of an image point (R197). -/
structure ImgSlot where
  used : Bool := false
  tag : Nat := 0
  data : List Byte := []
  qual : Nat := 0
  ns : Nat := 0
  sec : Nat := 0
  sub : Nat := 0
deriving DecidableEq, Repr

/-- An image point: its table entry (0: undefined) and its three slots (R197). -/
structure ImgPt where
  entry : Word := 0
  s0 : ImgSlot := {}
  s1 : ImgSlot := {}
  s2 : ImgSlot := {}
deriving DecidableEq, Repr

/-- A subscription: SBW0, the counts, the epoch last imported, none before the first, and every epoch of which a frame was accepted
(R218 to R221). -/
structure ImgSub where
  w0 : Word := 0
  miss : Nat := 0
  late : Nat := 0
  last : Option Nat := none
  took : List Nat := []
deriving DecidableEq, Repr

/-- A mapping: MPW0 and MPW1 (R218). -/
structure ImgMap where
  w0 : Word := 0
  w1 : Word := 0
deriving DecidableEq, Repr

/-- An assembled export frame not yet handed to the switch (R216): its set, bytes without FCS, launch time and class. -/
structure XFrame where
  set : Nat
  data : List Byte
  sec : Nat
  ns : Nat
  tc : Nat
deriving DecidableEq, Repr
/-- An entry of the forwarding database (R290). The key is the address (octet 0 lowest) and the VID; `hit` says it was
refreshed in this ageing period, `idle` counts whole periods without. -/
structure FdbE where
  mac : Nat
  vid : Nat
  static : Bool
  smatch : Bool := false
  stren : Bool := false
  stream : Nat := 0
  ports : Nat
  hit : Bool := true
  idle : Nat := 0
deriving DecidableEq, Repr

/-- A frame copy held in an egress queue (R286, R289): its addresses, the tags it leaves with, and the bytes from its
EtherType; its length as received with FCS; what forwarding found; its PTP instance and ingress time in that instance's
timebase in 125 ps; its launch time; its PRP sequence number and LAN; cells from the reserve (R297). -/
structure SwCopy where
  da : List Byte
  sa : List Byte
  tci : Option Nat := none
  rseq : Option Nat := none
  body : List Byte
  len : Nat
  src : Nat
  cls : Nat
  colour : Nat := 0
  stream : Option Nat := none
  ring : Option Nat := none
  ns : Nat := 0
  sec : Nat := 0
  sub : Nat := 0
  ptp : Option Nat := none
  tIn : Int := 0
  lt : Option Nat := none
  onestep : Bool := false
  tsq : Bool := false
  prp : Option (Nat × Nat) := none
  bad : Bool := false
  priv : Bool := false
  resv : Nat := 0
  /-- It waits for no launch any more: found late, it goes at the first opportunity; or launched to an internal port (R304). -/
  late : Bool := false
deriving DecidableEq, Repr

/-- The gate cycle of a port (R300): the instant from which cycles may start, the cycle running, its entry. -/
structure GateH where
  since : Nat := 0
  cycle : Option Nat := none
  on : Bool := false
  idx : Nat := 0
  /-- The cycle + 1 in which the entry began. -/
  begun : Nat := 0
deriving DecidableEq, Repr

/-- The token buckets of a meter in 10^-6 bit, and when they were last filled (R294). -/
structure MtrH where
  c : Nat := 0
  e : Nat := 0
  at_ : Nat := 0
deriving DecidableEq, Repr

/-- Sequence recovery of a stream (R292): TakeAny and the history, newest in bit 0. -/
structure RecH where
  takeAny : Bool := true
  hist : Nat := 0
  /-- The cycle of the last frame accepted. -/
  at_ : Nat := 0
deriving DecidableEq, Repr

/-- An entry of a PRP duplicate table (R309). -/
structure PrpE where
  src : Nat
  seq : Nat
  a : Bool
  b : Bool
  at_ : Nat
deriving DecidableEq, Repr
/-- A Huxon frame in transmission (R226, R227): its type, its slot, the cycle in which its last stop bit ends, its bytes. -/
structure HxTx where
  typ : Nat
  slot : Nat
  endAt : Nat
  data : List Byte
deriving DecidableEq, Repr

/-- What a Huxon sequencer has fetched for a slot (R244): its entry, QOK of its CTL word and its payload; `ok` false: an access got
an error response. -/
structure HxPre where
  slot : Nat
  ok : Bool := false
  entry : List Byte := []
  qok : Bool := false
  data : List Byte := []
deriving DecidableEq, Repr

/-- The state of a Huxon sequencer that no register shows (R235 to R268). Times are CLK_CELL cycle numbers. -/
structure HxH where
  /-- The dawn reference, and a master's next expected instant (R235, R236). -/
  ref : Nat := 0
  exp : Nat := 0
  /-- The master's first dawn is yet to be sent. -/
  first : Bool := false
  /-- A cycle-start pulse taken, as its cycle + 1; 0: none (R236). -/
  pulse : Nat := 0
  /-- What the timer of the state counts from: listen, confirmation, backoff, PASSIVE hold (R254). -/
  since : Nat := 0
  /-- DAYBREAK: 1 its frame is out, 2 confirmation period, 3 lost and receiving the winner, 4 backoff. -/
  brk : Nat := 0
  /-- The last frame start recognised, as its cycle + 1, and the end of the last frame heard (R240, R263). -/
  heard : Nat := 0
  idleFrom : Nat := 0
  tx : Option HxTx := none
  /-- The slot whose response a master awaits; the slot in which a node's response is due. -/
  await : Option Nat := none
  due : Option Nat := none
  /-- The master's next slot, and the slots recorded in this cycle. -/
  next : Nat := 0
  recd : List Nat := []
  /-- A STOP waits for the end of the cycle (R253). -/
  stopping : Bool := false
  /-- Consecutive own dawns lost on readback (R264). -/
  lost : Nat := 0
  /-- Queued grants: slot, address, dawns that have carried it (R266, R267). -/
  grants : List (Nat × Nat × Nat) := []
  /-- Consecutive NORESP records by slot (R267). -/
  noresp : SMap Nat := []
  /-- Consecutive non-silent cycles without a good POLL in the held slot (R268). -/
  noPoll : Nat := 0
  /-- The CLAIM of this dusk window has gone (R265). -/
  claimed : Bool := false
  /-- The slot fetched ahead (R244); a slot recorded NORESP whose late frame may still come (R262). -/
  pre : Option HxPre := none
  late : Option Nat := none
deriving DecidableEq, Repr
/-- The timing of a full mailbox (R327): the cycle in which it became full, MBX_XTIME.US at that instant, and its place in the
order in which the mailboxes now full became so. -/
structure MbxH where
  at_ : Nat := 0
  us : Nat := 0
  ord : Nat := 0
deriving DecidableEq, Repr
/-- What blocks a context (R122, R125, R126, R141, R146): a load through the interconnect (its register, sign extension,
whether POP or FLD issued it), a blocking form whose access is not issued (the instruction), an access to `a` that an instruction
has issued and that is not complete, the second wait of a CP7 instruction and whether its read is issued, a FENCE, a store that
waits for one of four to complete. -/
inductive Blk where
  | none
  | load (a n rd : Nat) (sign pop fpu : Bool)
  | wait (w : Word)
  | acc (w : Word) (a : Nat)
  | x7 (cell rd : Nat) (issued : Bool)
  | fence
  | store (a n v : Nat) (push : Bool)
deriving DecidableEq, Repr

/-- A posted store not yet complete (R125): its place in the order in which accesses were issued (R17) and the CLK_CPU cycle of its
issue (R338); `orphan`: its context has been reset since, and its response is discarded (R401). -/
structure PostE where
  addr : Nat
  size : Nat
  val : Nat
  seq : Nat := 0
  cyc : Nat := 0
  orphan : Bool := false
deriving DecidableEq, Repr

/-- The state of a Jaedin context that no register shows (R119, R133, R137, R143, R144, R154). -/
structure CtxH where
  /-- The destination a control transfer has resolved, while its delay slot is next (R132). -/
  slot : Option Nat := none
  /-- The successor TRET gave the instruction at PC, where that is no slot (R152). -/
  succ : Option Nat := none
  /-- Return addresses held on chip, newest first (R137). -/
  rs : List Word := []
  /-- A STOPPED context was stopped in WAIT (R120). -/
  waited : Bool := false
  /-- A STOP waits for the access in progress, or for the delay slot (R120, R132). -/
  stopping : Bool := false
  /-- A STEP is under way (R120). -/
  step : Bool := false
  blk : Blk := .none
  /-- The place in the order of R17 of the access that blocks the context, and the CLK_CPU cycle from which it may issue (R121,
  R122). -/
  seq : Nat := 0
  readyAt : Nat := 0
  posted : List PostE := []
  /-- A posted-store error is pending, and its address (R150). -/
  dbw : Option Nat := none
  /-- Seconds and sub-nanoseconds latched by TSNAP (R143). -/
  snap : Option (Nat × Nat) := none
  /-- The point buffer, its timestamp, and whether ISTN or ISTS has set that since the last IPUT (R144). -/
  buf : List Word := []
  bufNs : Nat := 0
  bufSec : Nat := 0
  bufSub : Nat := 0
  bufSet : Bool := false
  /-- The watchdog: nanoseconds counted before, and the cycle from which it counts now (R154). -/
  wdUsed : Nat := 0
  wdFrom : Nat := 0
  /-- A WDOG exception is pending (R153). -/
  wdPend : Bool := false
  /-- The pack that runs here was started by the loader or the device service, and no commit since has ended the not-valid state of
  its outputs (R165). -/
  starting : Bool := false
  /-- The device service has marked the instance of this FAULTED context failed, and its inputs stale (R170). -/
  marked : Bool := false
deriving DecidableEq, Repr

/-- The issue stage of an engine or a pair (R121, R334): the context that issued last, and the CLK_CPU cycle after that issue. -/
structure IssueH where
  last : Nat := 7
  at_ : Nat := 0
deriving DecidableEq, Repr

/-- What the arbiter holds beside its registers: when each pair last beat, a fault of pair A since its release, its claim
since then, and the epoch at which an aligned resignation was given (R341, R343, R344). -/
structure ArbH where
  beatA : Nat := 0
  beatB : Nat := 0
  failedA : Bool := false
  claimedA : Bool := false
  resignE : Nat := 0
deriving DecidableEq, Repr

/-- An outbound read that waits for its completion (R354): the master, the address, its size, when it was sent, and the key of
the context that reads, if one does. -/
structure ObRead where
  master : Nat
  addr : Nat
  size : Nat
  at_ : Nat
  ctx : Option Nat := none
deriving DecidableEq, Repr

/-- A prefetch buffer: the words not consumed, each with its address, lowest first, and when the prefetch completed (R360). -/
structure PfBuf where
  words : List (Nat × Word) := []
  at_ : Nat := 0
deriving DecidableEq, Repr

/-- The host bridge beside its registers (R354 to R361): outbound reads, the prefetch buffers of PCIe and SPI, the next
HB_PFLOG entry; the delayed SPI read (address, words), the result held with its error bit and since when, and the flags
of the status byte. -/
structure HbH where
  reads : List ObRead := []
  pfP : PfBuf := {}
  pfS : PfBuf := {}
  logAt : Nat := 0
  spiRead : Option (Nat × Nat) := none
  spiHeld : Option (List Word) := none
  spiErr : Bool := false
  spiAt : Nat := 0
  werr : Bool := false
  disc : Bool := false
deriving DecidableEq, Repr

/-- A wear record as a snapshot holds it (Table 19.5). -/
structure WearRec where
  wear : Nat := 0
  ins : Nat := 0
  opsec : Nat := 0
  s : List Nat := [0, 0, 0, 0]
  oct : Nat := 0
deriving DecidableEq, Repr

/-- The state of a slot that no register shows: the write running and one due after it, ticks of ON time since the last
write, ticks until a retry plus one (1: due, 0: none), ticks since a good temperature, the band it gave, the REPDAY latches
(R429, R430, R434). -/
structure SlotH where
  /-- SLOT_PRS_n, SLOT_FLT_n at the overcurrent level and SLOT_EN_n, asserted as true, and SLOT_STAT.STATE. -/
  prs : Bool := false
  flt : Bool := false
  en : Bool := false
  state : Nat := 0
  writing : Option WearRec := none
  due : Bool := false
  onTicks : Nat := 0
  retry : Nat := 0
  tempAge : Nat := 10
  band : Nat := 15
  latch : Nat := 0
  /-- Identification follows a warm reset: the slot was ON (R431). -/
  rejoin : Bool := false
deriving DecidableEq, Repr

/-- Loader, fuses and debug (R364 to R382): a VERIFY of copy A has passed since the last PROGRAM or ERASE; the flash command
running (operation, address, copy, page data); the fuse bit being blown; debug unlocked by a token, a token refused. -/
structure LdrH where
  verified : Bool := false
  op : Nat := 0
  opAddr : Nat := 0
  opCopy : Bool := false
  opData : List Byte := []
  blowing : Option Nat := none
  unlocked : Bool := false
  refused : Bool := false
  /-- The start that follows the release of the last wide source: 0 none, 1 cold, 2 warm (R369, R371). -/
  due : Nat := 1
  /-- The section whose REG entry waits for a block held in reset by another source (R374). -/
  wait : Option Nat := none
  /-- The cycle from which it waits. -/
  waitAt : Nat := 0
deriving DecidableEq, Repr

/-- The power sequencer beside PMU_SEQSTAT (R387 to R391): a power-up step has failed, the 1 s wait of RETRY is over, the
rails of the four below their fail threshold, and the cycles its waits are counted from. -/
structure SeqH where
  fail : Bool := false
  retryDone : Bool := false
  failed : Nat := 0
  /-- The latest of STATE reaching OFF, the end of the RETRY wait, and the last moments of VIN_WARN and of no VAON (R387). -/
  start : Nat := 0
  /-- The last step of power-up or power-down, or the start of hold-up, and HOLDT as it stood then (R391). -/
  stepAt : Nat := 0
  holdT : Nat := 0
  /-- Since when VIN_WARN, and an internal brown-out warning, have stood (R391). -/
  vinFrom : Nat := 0
  warnFrom : Nat := 0
  /-- When a source of fixed duration was asserted: by its bit of RST_CAUSE, 32 + n for WDRST, 64 + t for a PULSE (R396). -/
  srcAt : SMap Nat := []
deriving DecidableEq, Repr

/-- The state of an ADC converter that no register shows: the entry a running list samples next and the cycle of the list's start
(R408); the conversions of a pending calibration done before the present run of free slots, and the cycle that run began
(R445). -/
structure AdcH where
  pos : Nat := 0
  at_ : Nat := 0
  calN : Nat := 0
  calAt : Nat := 0
deriving DecidableEq, Repr

/-- The state. -/
structure State where
  /-- Commands waiting, first in, first out (the model's own). -/
  pending : List Instr := []
  /-- How many free values have been taken (the model's own, DESIGN CHOICE, log entry 4). -/
  freeCtr : Nat := 0
  /-- What the check bits show at the coming accesses whose command names no upset, in order, as far as it is given; past its end it
  is free (the model's own, DESIGN CHOICE, log entry 92). -/
  upsets : List Upset := []
  /-- CLK_CELL cycles counted since reset. -/
  cycles : Nat := 0
  resp : Resp := .none
  out : List Out := []
  /-- Registers by bus address; unlisted: the reset word. -/
  regs : SMap Word := []
  /-- Registers that each master has its own of: key is master ID * 2^32 + address. -/
  mregs : SMap Word := []
  /-- RWO registers already written since the reset that covers them (R8). -/
  rwoDone : SMap Bool := []
  /-- Memory: the bytes of shared memory, scratchpads, L2, retained RAM; unlisted: 0 (DESIGN CHOICE, log entry 7). -/
  mem : List Host.Cell := []
  /-- Check-bit status of memory words, by the word's address; unlisted: good (R315). -/
  ecc : SMap Upset := []
  /-- FIFO contents by 2 * owner cell (TX) or 2 * owner cell + 1 (RX): kind bit above the word (R62). -/
  fifo : SMap (List (BitVec 33)) := []
  cellH : SMap CellH := []
  /-- What is on its way through the event fabric, earliest first, each once (R100, R101). -/
  agenda : List Due := []
  /-- The cycle in which each cell group left reset (R69), and the one in which the clock dividers were released (R25). -/
  gridFrom : SMap Nat := []
  clk0 : Nat := 0
  /-- The last write to EVF_DSRC or EVF_DRSP, in force from the cycle after (R105): its cycle + 1, the address, the word before. -/
  evfWas : Nat × Nat × Word := (0, 0, 0)
  dmaH : SMap DmaH := []
  /-- The DMA channel served last, and the CLK_FAB cycle + 1 of that record (R85). -/
  dmaLast : Nat := 31
  dmaAt : Nat := 0
  shdH : SMap ShadowH := []
  /-- TB0 to TB3 (R172). -/
  tbs : SMap TB := []
  /-- The entries of the device error log, oldest first (R439). -/
  elog : List LogE := []
  /-- Ranges [lo, hi) of memory whose bytes are undefined (R316, R444, R447). -/
  undef : List (Nat × Nat) := []
  /-- The MSI-X vectors whose OR is asserted and could be delivered when last looked at (R30): bit v is vector v. -/
  msix : Nat := 0
  /-- The asserted cold and warm reset sources, in the bit places of RST_CAUSE (Table 18.7). -/
  srcs : Word := 0
  /-- Targets the loader has released: bit set by LOADER (R399); unlisted targets are held (`ldrHold` is true). -/
  ldrHold : SMap Bool := []
  /-- SWSUB sources asserted by PULSE (R402); WDRST, PDOFF and BANKUV sources (Table 18.7), one bit a target, engine,
  domain or group. -/
  pulseSrc : Word := 0
  wdrst : Word := 0
  pdoff : Word := 0
  bankuv : Word := 0
  /-- Hold-up, and the loss of the root PLL, as keeper conditions of every pin (Table 18.11). -/
  holdSafe : Bool := false
  pllSafe : Bool := false
  /-- What each engaged pin keeper holds, by pin number 2c + (0 for A, 1 for B) (R404, R405). -/
  keep : SMap (Option KeepH) := []
  /-- CAN receive FIFOs, oldest first (R279). -/
  canRx : SMap (List CanRx) := []
  /-- Controllers whose STOP waits for the attempt in progress (Table 12.2): bit n is CANn. -/
  canStopping : Word := 0
  /-- TB0 at the start of frame of a frame under reception whose start has been seen (R277, R278), by controller. -/
  canSof : SMap TB := []
  /-- Transmit buffers whose ABORT waits for the attempt in progress (R276): bit b of CANn's entry. -/
  canAborting : SMap Nat := []
  /-- The egress timestamp queue, oldest first (R184). -/
  tsq : List TsqE := []
  pps : PpsH := {}
  hxH : SMap HxH := []
  adcH : SMap AdcH := []
  /-- The points of the image store; unlisted: undefined (R197). -/
  img : SMap ImgPt := []
  /-- The epoch counter E (R201), and the cycle of its last commit (R344). -/
  imgE : Nat := 0
  imgAt : Nat := 0
  /-- The export list, subscriptions and mappings (R215, R218). -/
  xlist : SMap Nat := []
  subs : SMap ImgSub := []
  maps : SMap ImgMap := []
  /-- Assembled export frames of the current epoch not yet handed over (R216). -/
  xpend : List XFrame := []
  /-- A MISS check of the current epoch is due (R221). -/
  missDue : Bool := false
  /-- Masters whose IMG_WTS registers were written since their last IMG_WPUT (R144, R213). -/
  wtsSet : Word := 0
  /-- The forwarding database by bucket (R290). -/
  fdb : SMap (List FdbE) := []
  /-- Egress queues by q = 8p + c, head first; the average of R297 of each; when its head became head (R185). -/
  swq : SMap (List SwCopy) := []
  swAvg : SMap Nat := []
  headAt : SMap Nat := []
  /-- Holds of (port, class) by 8p + c, and the cycle until which a class is paused (R298, R299). -/
  swHold : SMap Bool := []
  swPause : SMap Nat := []
  /-- The cycle in which the transmission of port p ends; the cycle of the last PFC frame of a hold, by 8p + c (R298); the cycle until
  which an FDB command runs (R291); the start of the ageing period (R290). -/
  txEnd : SMap Nat := []
  pfcAt : SMap Nat := []
  fdbBusy : Nat := 0
  ageAt : Nat := 0
  gates : SMap GateH := []
  mtrs : SMap MtrH := []
  recs : SMap RecH := []
  prp : SMap (List PrpE) := []
  /-- Full mailboxes, and the crossed pairs whose detector has fired since one of them last emptied (R327). -/
  mbxH : SMap MbxH := []
  mbxX : List (Nat × Nat) := []
  /-- Jaedin contexts: 8n + k for context k of PEn, 64 and 65 for the pairs (R119, R333). -/
  ctxH : SMap CtxH := []
  /-- The issue stages, by engine, and by 8 and 9 for the pairs (R121); how many accesses contexts have issued (R17). -/
  issueH : SMap IssueH := []
  issueNo : Nat := 0
  /-- Words an engine's store has replaced in its instruction scratchpad that fetch may still return (R126): address, old
  word, storing context. -/
  stale : List (Nat × Word × Nat) := []
  /-- Copies the caches of the pairs hold, by pair * 2^32 + word address (R337). -/
  icache : SMap Word := []
  dcache : SMap Word := []
  /-- FPU registers, by 32 * pair + number (R335). -/
  fpr : SMap (BitVec 64) := []
  /-- The cycle in which each engine left reset (Table 6.16). -/
  peFrom : SMap Nat := []
  arbH : ArbH := {}
  /-- Groups whose present reset began as a cold one: the fuse map governs their pins (R368). -/
  coldHeld : Word := 0xFFFF
  /-- Targets that wait for a register replay (R377). -/
  replay : SMap Bool := []
  hbH : HbH := {}
  slotH : SMap SlotH := []
  /-- The latches of the survey entries (R434). -/
  survLatch : SMap Nat := []
  /-- RTC seconds, and the CLK_32K edge from which the prescaler counts (R415). -/
  rtc : Nat := 0
  rtcFrom : Nat := 0
  /-- The prescaler at that edge, the length of this second in CLK_32K cycles, the runs of 2^20 of them already trimmed, and a
  LOAD that waits for a CLK_32K edge (R415, R416). -/
  rtcPre : Nat := 0
  rtcLen : Nat := 32768
  rtcTrim : Nat := 0
  rtcLoad : Bool := false
  seqH : SeqH := {}
  ldrH : LdrH := {}
  /-- The boot flash by offset (unlisted: 0xFF, erased), and the fuse array (R365). -/
  flash : List Host.Cell := []
  fuses : SMap Word := []
  /-- Targets on which a forced test has run since SWSUB was asserted (R447). -/
  ftRan : Word := 0
  /-- Converters whose calibration runs, and ETH ports whose recalibration runs (R445, R446). -/
  serCal : Word := 0
deriving DecidableEq, Repr

/-- The memories that power-up leaves undefined: scratchpads, shared memory, L2 (R316). -/
def poweredMem : List (Nat × Nat) :=
  (List.range 8).map (fun n => (0x10000000 + n * 0x100000, 0x10040000 + n * 0x100000)) ++
    [(0x20000000, 0x21000000), (0x40000000, 0x40200000)]

/-- The machine right after the release of AONPOR, the supplies not yet up: every register at the reset the tables give,
everything covered by COREPOR and LOADER (R396, R403). The two words listed are RST_CAUSE, which shows AONPOR and COREPOR, and
RST_CNT, whose COLD counts the cold reset that continues after AONPOR (DESIGN CHOICE, log entry 3). The fuse array is that of a
factory-programmed part of grade IB: GRADE in W3 and the CRC of the factory region in W124 (DESIGN CHOICE, log entry 6). -/
def State.reset : State :=
  { regs := [(RST_CAUSE, 0x3), (RST_CNT, 0x10000)], undef := (0x08010000, 0x08012000) :: poweredMem, srcs := 0x2,
    fuses := [(3, 0x10), (124, 443751018)] }

end Sys2Proof.Machine
end

