-- ==== Sys2Proof/Machine/Ops.lean ====
section
/-! DEFINITION. The named operations every unit uses: bit fields, register access, memory bytes, bus responses with the
device error log (R16, R439), and the counters of R9. -/

namespace Sys2Proof.Machine

/-! ## Bit fields -/

/-- Field [hi:lo] of a word, as a number. -/
def fld (w : Word) (hi lo : Nat) : Nat := w.toNat / 2 ^ lo % 2 ^ (hi + 1 - lo)

/-- The word with field [hi:lo] set to `v` (its low bits). -/
def setFld (w : Word) (hi lo v : Nat) : Word :=
  BitVec.ofNat 32 (w.toNat / 2 ^ (hi + 1) * 2 ^ (hi + 1) + v % 2 ^ (hi + 1 - lo) * 2 ^ lo + w.toNat % 2 ^ lo)

/-- Bit `i` of a word. -/
def bitAt (w : Word) (i : Nat) : Bool := w.toNat / 2 ^ i % 2 == 1

/-- The word with bit `i` set to `b`. -/
def putBit (w : Word) (i : Nat) (b : Bool) : Word := setFld w i i b.toNat

/-- Sign extension of the low `n` bits of a number to an integer. -/
def sext (n v : Nat) : Int :=
  let u := v % 2 ^ n
  if u < 2 ^ (n - 1) then (u : Int) else (u : Int) - (2 ^ n : Nat)

/-- An integer wrapped into `n` bits. -/
def wrapI (n : Nat) (i : Int) : Nat := (i % (2 ^ n : Nat)).toNat

/-- The word of an integer. -/
def wordOfInt (i : Int) : Word := BitVec.ofInt 32 i

/-! ## Registers -/

/-- The block-relative register layout of the whole register space, by address (Table 1.3). -/
def regDesc (a : Nat) : Option RegDesc :=
  if a < 0x08000000 then none
  else if a < 0x08001000 then aonDesc (a - 0x08000000)
  else if 0x10000000 ≤ a ∧ a < 0x10800000 ∧ 0xF0000 ≤ a % 0x100000 ∧ a % 0x100000 < 0xF1000 then peDesc (a % 0x1000)
  else if 0x24400000 ≤ a ∧ a < 0x24401000 then imgDesc (a - 0x24400000)
  else if 0x30000000 ≤ a ∧ a < 0x30100000 then
    (if 0x100 ≤ a % 0x1000 ∧ a % 0x1000 < 0x140 then chkDesc (a % 0x1000) else cellDesc (a % 0x1000))
  else if 0x30100000 ≤ a ∧ a < 0x30110000 then shdDesc (a % 0x1000)
  else if 0x30200000 ≤ a ∧ a < 0x30210000 then evfDesc (a - 0x30200000)
  else if 0x31000000 ≤ a ∧ a < 0x31020000 then canDesc (a % 0x1000)
  else if 0x32000000 ≤ a ∧ a < 0x32040000 then tuDesc (a - 0x32000000)
  else if 0x33000000 ≤ a ∧ a < 0x33400000 then swDesc (a - 0x33000000)
  else if 0x34000000 ≤ a ∧ a < 0x34010000 then mbxDesc (a - 0x34000000)
  else if 0x35000000 ≤ a ∧ a < 0x35008000 then chkDesc (a % 0x1000)
  else if 0x36000000 ≤ a ∧ a < 0x36020000 then
    (if 0x100 ≤ a % 0x1000 ∧ a % 0x1000 < 0x140 then chkDesc (a % 0x1000) else hxDesc (a % 0x1000))
  else if 0x37000000 ≤ a ∧ a < 0x37010000 then pmuDesc (a - 0x37000000)
  else if 0x38000000 ≤ a ∧ a < 0x38010000 then ldrDesc (a - 0x38000000)
  else if 0x39000000 ≤ a ∧ a < 0x39010000 then arbDesc (a - 0x39000000)
  else if 0x3A000000 ≤ a ∧ a < 0x3A010000 then hbDesc (a - 0x3A000000)
  else if 0x40810000 ≤ a ∧ a < 0x40830000 then plDesc (a % 0x10000)
  else none

/-- The reset word of a register; 0 where no register sits. -/
def resetWord (a : Nat) : Word := ((regDesc a).map (·.reset)).getD 0

/-- The register word held at an address. -/
def State.rd (s : State) (a : Nat) : Word := smGet (resetWord a) s.regs a

/-- Setting the register word at an address. -/
def State.wr (s : State) (a : Nat) (v : Word) : State :=
  { s with regs := smSet (resetWord a) s.regs a v }

/-- A field of a register. -/
def State.fl (s : State) (a hi lo : Nat) : Nat := fld (s.rd a) hi lo

/-- Setting a field of a register. -/
def State.setFl (s : State) (a hi lo v : Nat) : State := s.wr a (setFld (s.rd a) hi lo v)

/-- A bit of a register. -/
def State.bt (s : State) (a i : Nat) : Bool := bitAt (s.rd a) i

/-- Setting a bit of a register. -/
def State.setBt (s : State) (a i : Nat) (b : Bool) : State := s.wr a (putBit (s.rd a) i b)

/-- Setting every bit of a mask in a register: a status bit raised by hardware. -/
def State.raise (s : State) (a : Nat) (mask : Word) : State := s.wr a (s.rd a ||| mask)

/-- A counter that stops at all ones (R9). -/
def State.satInc (s : State) (a hi lo : Nat) (by_ : Nat := 1) : State :=
  s.setFl a hi lo (min (s.fl a hi lo + by_) (2 ^ (hi + 1 - lo) - 1))

/-- A counter that wraps (R9). -/
def State.wrapInc (s : State) (a hi lo : Nat) (by_ : Nat := 1) : State :=
  s.setFl a hi lo (s.fl a hi lo + by_)

/-- The hidden state of a context. -/
def State.ctx (s : State) (k : Nat) : CtxH := smGet {} s.ctxH k

/-- Setting it. -/
def State.setCtx (s : State) (k : Nat) (h : CtxH) : State := { s with ctxH := smSet {} s.ctxH k h }

/-- The per-master copy of a register (R173, R213, R323, R415). -/
def State.mrd (s : State) (m a : Nat) : Word := smGet (resetWord a) s.mregs (m * 2 ^ 32 + a)

/-- Setting a per-master copy. -/
def State.mwr (s : State) (m a : Nat) (v : Word) : State :=
  { s with mregs := smSet (resetWord a) s.mregs (m * 2 ^ 32 + a) v }

/-- Every register listed in the store whose address satisfies `p`: what can differ from reset there. -/
def State.listed (s : State) (p : Nat → Bool) : List (Nat × Word) := s.regs.filter (fun e => p e.1)

/-- Registers in an address range back to their reset words, but for the addresses `keep` names. -/
def State.clearRegs (s : State) (lo hi : Nat) (keep : Nat → Bool := fun _ => false) : State :=
  { s with regs := s.regs.filter (fun e => decide (e.1 < lo) || decide (hi ≤ e.1) || keep e.1),
           rwoDone := s.rwoDone.filter (fun e => decide (e.1 < lo) || decide (hi ≤ e.1) || keep e.1),
           mregs := s.mregs.filter (fun e => decide (e.1 % 2 ^ 32 < lo) || decide (hi ≤ e.1 % 2 ^ 32) || keep (e.1 % 2 ^ 32)) }

/-- What a software write of `v` makes of a register's word, by the access types of its bits (R7, R8): RW bits take the
value, W1C bits clear where it has ones, RWO bits take it at the first write since the covering reset. -/
def writtenWord (d : RegDesc) (old v : Word) (first : Bool) : Word :=
  let set := if first then d.rw ||| d.rwo else d.rw
  ((old &&& ~~~set) ||| (v &&& set)) &&& ~~~(d.w1c &&& v)

/-- A plain software write of a register (R8). -/
def State.softWrite (s : State) (a : Nat) (v : Word) : State :=
  match regDesc a with
  | none => s
  | some d =>
    let first := !(smGet false s.rwoDone a)
    let s1 := s.wr a (writtenWord d (s.rd a) v first)
    if d.rwo = 0 then s1 else { s1 with rwoDone := smSet false s1.rwoDone a true }

/-- The part of a read that clears: RC bits go to 0 (R8). -/
def State.readClear (s : State) (a : Nat) : State :=
  match regDesc a with
  | none => s
  | some d => if d.rc = 0 then s else s.wr a (s.rd a &&& ~~~d.rc)

/-! ## Unit state without an address -/

/-- The hidden state of a cell. -/
def State.cell (s : State) (c : Nat) : CellH := smGet {} s.cellH c

/-- Setting the hidden state of a cell. -/
def State.setCell (s : State) (c : Nat) (h : CellH) : State := { s with cellH := smSet {} s.cellH c h }

/-! ## Memory bytes -/

/-- The byte of memory at an address; unlisted bytes read 0 (DESIGN CHOICE, log entry 7). -/
def State.byte (s : State) (a : Nat) : Byte := smGet 0 s.mem a

/-- Writing a byte of memory. -/
def State.setByte (s : State) (a : Nat) (v : Byte) : State := { s with mem := smSet 0 s.mem a v }

/-- `n` bytes of memory, lowest address first. -/
def State.bytes (s : State) (a : Nat) : Nat → List Byte
  | 0 => []
  | n + 1 => s.byte a :: s.bytes (a + 1) n

/-- Writing a list of bytes from an address up. -/
def State.setBytes (s : State) (a : Nat) : List Byte → State
  | [] => s
  | b :: r => (s.setByte a b).setBytes (a + 1) r

/-- Little-endian value of bytes (R12). -/
def leNat : List Byte → Nat
  | [] => 0
  | b :: r => b.toNat + 256 * leNat r

/-- The `n` little-endian bytes of a value (R12). -/
def leBytes : Nat → Nat → List Byte
  | 0, _ => []
  | n + 1, v => BitVec.ofNat 8 v :: leBytes n (v / 256)

/-- A memory word at an address. -/
def State.mem32 (s : State) (a : Nat) : Word := BitVec.ofNat 32 (leNat (s.bytes a 4))

/-- Writing a memory word. -/
def State.setMem32 (s : State) (a : Nat) (v : Word) : State := s.setBytes a (leBytes 4 v.toNat)

/-- A range of memory to zero with good check bits (R316). -/
def State.zeroMem (s : State) (lo hi : Nat) : State :=
  { s with mem := s.mem.filter (fun e => decide (e.1 < lo) || decide (hi ≤ e.1)),
           ecc := s.ecc.filter (fun e => decide (e.1 < lo) || decide (hi ≤ e.1)) }

/-! ## Free values -/

/-- A free word, and the state that has taken it (DESIGN CHOICE, log entry 4). -/
def State.free (s : State) : Word × State := (Config.freeWord s.freeCtr, { s with freeCtr := s.freeCtr + 1 })

/-- The hidden state of a slot. -/
def State.slot (s : State) (k : Nat) : SlotH := smGet {} s.slotH k

/-- Setting it. -/
def State.setSlot (s : State) (k : Nat) (h : SlotH) : State := { s with slotH := smSet {} s.slotH k h }

/-! ## Output -/

/-- Sending something out. -/
def State.emit (s : State) (o : Out) : State := { s with out := o :: s.out }

end Sys2Proof.Machine
end

