-- ==== Sys2Proof/Machine/Timebase.lean ====
section
/-! DEFINITION. The timebases TB0 to TB3 and their advance (R172, R174), and comparison of times. -/

namespace Sys2Proof.Machine

/-- Timebase `t`. -/
def State.tb (s : State) (t : Nat) : TB := smGet {} s.tbs t

/-- Setting timebase `t`. -/
def State.setTb (s : State) (t : Nat) (x : TB) : State := { s with tbs := smSet {} s.tbs t x }

/-- The sub-nanosecond field (R171). -/
def TB.sub (x : TB) : Nat := x.frac / 2 ^ 29

/-- A timebase from a seconds value and a total of 2^-32 ns, normalised (R172); seconds wrap at 64 bits. -/
def tbOf (sec total : Nat) : TB :=
  let ns := total / 2 ^ 32
  { sec := (sec + ns / 1000000000) % 2 ^ 64, ns := ns % 1000000000, frac := total % 2 ^ 32 }

/-- The advance of a timebase over `n` CLK_CELL cycles at a signed rate (R172). -/
def TB.advance (x : TB) (rate : Int) (n : Nat) : TB :=
  tbOf x.sec (x.ns * 2 ^ 32 + x.frac + (n * ((2 ^ 32 : Int) + rate)).toNat)

/-- A timebase as it stood `n` CLK_CELL cycles ago, at the same rate. -/
def TB.back (x : TB) (rate : Int) (n : Nat) : TB :=
  tbOf 0 ((x.sec * 1000000000 + x.ns) * 2 ^ 32 + x.frac - (n * ((2 ^ 32 : Int) + rate)).toNat)

/-- The rate a timebase advances with: none for TB0 in TB0 discipline mode (R172, R175). -/
def tbRate (s : State) (t : Nat) : Int :=
  if t = 0 ∧ s.fl TU_CTRL 1 0 = 2 then 0 else (s.rd (TU_TB_RATE t)).toInt

/-- TB0 in cycle `t`, now or earlier. -/
def tb0At (s : State) (t : Nat) : TB := if s.cycles ≤ t then s.tb 0 else (s.tb 0).back (tbRate s 0) (s.cycles - t)

/-- Advancing the timebases listed. -/
def tickTbs (s : State) (n : Nat) : List Nat → State
  | [] => s
  | t :: r => tickTbs (s.setTb t ((s.tb t).advance (tbRate s t) n)) n r

/-- `n` CLK_CELL cycles pass: the four timebases advance, unless a reset covers the time unit (R171, R172; DESIGN CHOICE, log entry 1). -/
def tick (s : State) (n : Nat) : State :=
  let s := { s with cycles := s.cycles + n }
  if s.srcs.toNat = 0 ∧ smGet true s.ldrHold 97 = false then tickTbs s n [0, 1, 2, 3] else s

/-- A time as nanoseconds since zero. -/
def nsOf (sec ns : Nat) : Nat := sec * 1000000000 + ns

/-- A timebase in units of 2^-32 ns since zero. -/
def TB.total (x : TB) : Nat := nsOf x.sec x.ns * 2 ^ 32 + x.frac

/-- A timebase from units of 2^-32 ns since zero. -/
def tbFrom (total : Nat) : TB := tbOf 0 total

/-- The instant `sub` eighths of a nanosecond after the value `x` (R177): the fraction of `x` counts. -/
def TB.after (x : TB) (sub : Nat) : TB := tbFrom (x.total + sub * 2 ^ 29)

end Sys2Proof.Machine
end

