-- ==== Sys2Proof/Machine/Cover.lean ====
section
/-! DEFINITION. Which reset sources cover which block (R395 to R401), which domain it lies in (Table 0.5), who may
supervise (R317), and the device error log (R439).

Blocks are numbered: 0 to 28 the subsystem targets of Table 18.9, 32 + n CANn, 64 + n HXn, 96 the event fabric, 97 the time
unit, 98 the image store, 99 the blocks of rank 1 (Table 18.8), 100 the midnight domain. -/

namespace Sys2Proof.Machine

/-- Block numbers beyond the subsystem targets. -/
abbrev blkEvf : Nat := 96
abbrev blkTu : Nat := 97
abbrev blkImg : Nat := 98
abbrev blkCore : Nat := 99
abbrev blkAon : Nat := 100

/-- The block of a cell group. -/
abbrev blkGrp (g : Nat) : Nat := 10 + g
/-- The block of a CAN controller. -/
abbrev blkCan (n : Nat) : Nat := 32 + n
/-- The block of a Huxon sequencer. -/
abbrev blkHx (n : Nat) : Nat := 64 + n

/-- The power-domain bit of a block in PMU_PDCTRL (Table 18.15); none for PD_CORE and PD_AON. -/
def domainOf (t : Nat) : Option Nat :=
  if t < 8 then some t
  else if t < 10 then some 8
  else if t < 26 then some (t - 1)
  else if t = 26 then some 25
  else if t = 28 then some 26
  else none

/-- A domain of PMU_PDSTAT is off. -/
def domOff (s : State) (d : Nat) : Bool := s.bt PMU_PDSTAT d

/-- A reset of cold or warm reach is asserted (Table 18.7). -/
def wideReset (s : State) : Bool := s.srcs.toNat != 0

/-- The loader holds the block by its LOADER source (Table 18.7). -/
def loaderHolds (s : State) (t : Nat) : Bool := smGet true s.ldrHold t

/-- A subsystem or block source other than LOADER covers the block (Table 18.7). -/
def narrowSource (s : State) (t : Nat) : Bool :=
  (decide (t < 29) && s.bt RST_SWSRC t) ||
  (match domainOf t with | some d => bitAt s.pdoff d | none => false) ||
  (decide (t < 8) && bitAt s.wdrst t) ||
  (t == 8 && s.bt ARB_STATUS 21) || (t == 9 && (s.bt ARB_STATUS 17 || s.bt ARB_STATUS 25)) ||
  (decide (10 ≤ t) && decide (t < 26) && bitAt s.bankuv (t - 10)) ||
  (decide (32 ≤ t) && decide (t < 64) && s.bt RST_BLKCAN (t - 32)) ||
  (decide (64 ≤ t) && decide (t < 96) && s.bt RST_BLKHX (t - 64))

/-- The block is in reset: the OR of every source that covers it (R397). -/
def inReset (s : State) (t : Nat) : Bool :=
  if t = blkAon then bitAt s.srcs 0
  else if t = blkCore then wideReset s
  else wideReset s || loaderHolds s t || narrowSource s t

/-- LOADER is the only source covering the block, so a transfer of the loader takes effect (R401). -/
def onlyLoader (s : State) (t : Nat) : Bool := loaderHolds s t && !wideReset s && !narrowSource s t

/-- The block cannot take a transfer of master `m` (R11, R401). -/
def closed (s : State) (m t : Nat) : Bool :=
  (match domainOf t with | some d => domOff s d | none => false) || (inReset s t && !(m == 16 && onlyLoader s t))

/-- RST_SUBSTAT: bit t is set while target t is in reset (Table 18.18). -/
def subStat (s : State) : Word :=
  BitVec.ofNat 32 ((List.range 29).foldl (fun acc t => acc + if inReset s t then 2 ^ t else 0) 0)

/-- A supervisor (R317). -/
def supervisor (s : State) (m : Nat) : Bool := m == 16 || m == 31 || (m != 0 && s.fl MEM_SUPV 4 0 == m)

/-- One error response in the device error log (R439): counted by cause, stored while fewer than 32 entries are held. -/
def logErr (s : State) (m a : Nat) (wr : Bool) (cause : Nat) : State :=
  let s := s.wrapInc MEM_ELOG_STAT 31 16
  let s := if cause < 4 then s.satInc MEM_ELOG_CAUSE0 (8 * cause + 7) (8 * cause)
           else s.satInc MEM_ELOG_CAUSE1 (8 * (cause - 4) + 7) (8 * (cause - 4))
  let t := s.tb 0
  if s.elog.length < 32 then
    let s : State := { s with elog := s.elog ++ [{ addr := a, wr := wr, master := m, cause := cause, ns := t.ns, sec := t.sec, sub := t.sub }] }
    (s.setFl MEM_ELOG_STAT 5 0 s.elog.length).raise MEM_DG_IRQSTAT 0x10
  else s.satInc MEM_ELOG_STAT 15 8

/-- A read of a MEM_ELOG_W register: the oldest entry (R440). -/
def elogWord (s : State) (i : Nat) : Word :=
  match s.elog with
  | [] => 0
  | e :: _ =>
    if i = 0 then BitVec.ofNat 32 e.addr
    else if i = 1 then BitVec.ofNat 32 (e.wr.toNat * 2 ^ 31 + e.master * 2 ^ 24 + e.cause * 2 ^ 20)
    else if i = 2 then BitVec.ofNat 32 e.ns
    else BitVec.ofNat 32 (e.sec % 2 ^ 16 * 2 ^ 16 + 0x80 + e.sub)

/-- Removing the oldest entry, as a read of W3 with VALID = 1 does (R440). -/
def elogPop (s : State) : State :=
  match s.elog with
  | [] => s
  | _ :: r =>
    let s : State := State.setFl { s with elog := r } MEM_ELOG_STAT 5 0 r.length
    if r.isEmpty then s.setBt MEM_DG_IRQSTAT 4 false else s

/-- An uncorrectable or corrected error of a MEM_DGECC unit (R441). -/
def dgEcc (s : State) (unit index : Nat) (u : Upset) : State :=
  match u with
  | .good => s
  | .single => s.satInc (MEM_DGECC_CNT unit) 15 0
  | .double =>
    let s := (s.satInc (MEM_DGECC_CNT unit) 31 16).raise MEM_DG_IRQSTAT 0x8
    if s.bt (MEM_DGECC_LOC unit) 31 then s
    else s.wr (MEM_DGECC_LOC unit) (BitVec.ofNat 32 (2 ^ 31 + index % 2 ^ 21))

end Sys2Proof.Machine
end

