-- ==== Sys2Proof/Machine/Adc.lean ====
section
/-! DEFINITION. The ADC converters (R408, R409). -/

namespace Sys2Proof.Machine

/-- Converter `x` beside its registers. -/
def State.adc (s : State) (x : Nat) : AdcH := smGet {} s.adcH x

/-- Setting it. -/
def State.setAdc (s : State) (x : Nat) (h : AdcH) : State := { s with adcH := smSet {} s.adcH x h }

/-- The calibration conversions of 1 µs that converter `x` has completed in free slots (R445). -/
def calCount (s : State) (x : Nat) : Nat :=
  (s.adc x).calN + if s.bt (PMU_ADC_STAT x) 0 then 0 else (s.cycles - (s.adc x).calAt) / 1000

/-- A start of converter `x`: the list begins, or the start is ignored and counted (R408, R409). -/
def adcStart (s : State) (x : Nat) : State :=
  if s.bt (PMU_ADC_STAT x) 0 || !s.bt (PMU_ADC_CFG x) 31 then
    (s.satInc (PMU_ADC_STAT x) 15 8).raise PMU_IRQSTAT 0x1
  else
    (s.setBt (PMU_ADC_STAT x) 0 true).setAdc x { s.adc x with pos := 0, at_ := s.cycles, calN := calCount s x }

/-- The converters whose listen port takes channel `ch` (R104). -/
def adcsOn (s : State) (ch : Nat) : List Nat :=
  [0, 1].filter (fun x => s.bt (PMU_ADC_EVCFG x) 23 && s.fl (PMU_ADC_EVCFG x) 21 16 == ch)

/-- Entry `i` of the running list is due: 250 ns + `i` × 1 µs after the start edge. -/
def adcDue (s : State) (x : Nat) : Bool :=
  s.bt (PMU_ADC_STAT x) 0 && decide ((s.adc x).at_ + 250 + (s.adc x).pos * 1000 ≤ s.cycles)

/-- One sample of a running list, once it is due: the code is written; the last ends the list (R408). The channel the drive
port pulses is returned. -/
def adcSample (s : State) (x : Nat) (code : Nat) : State × List Nat :=
  if adcDue s x = false then (s, [])
  else
    let i := (s.adc x).pos
    let lists := s.fl (PMU_ADC_STAT x) 31 16
    let s := s.wr (PMU_ADC_RES x i) (BitVec.ofNat 32 ((lists + 1) % 256 * 2 ^ 24 + code % 2 ^ 16))
    if i < s.fl (PMU_ADC_CFG x) 3 0 then (s.setAdc x { s.adc x with pos := i + 1 }, [])
    else
      let s := ((s.setBt (PMU_ADC_STAT x) 0 false).wrapInc (PMU_ADC_STAT x) 31 16).setAdc x
        { s.adc x with pos := 0, calAt := s.cycles }
      (s, if s.bt (PMU_ADC_EVCFG x) 31 then [s.fl (PMU_ADC_EVCFG x) 29 24] else [])

end Sys2Proof.Machine
end

