-- ==== Sys2Proof/Machine/Irq.lean ====
section
/-! DEFINITION. Interrupt sources, route registers, lines and MSI-X messages (R27 to R31). -/

namespace Sys2Proof.Machine

/-- The kinds of route register: what asserts the source beside it. -/
inductive RouteKind where
  /-- A status and an enable register stand 8 and 4 bytes below the route register. -/
  | masked
  /-- A status register of three bits stands 4 bytes below (R87, R311). -/
  | ring
  /-- Control-cycle source `j` (R196). -/
  | cyc (j : Nat)
  /-- The doorbell of a mailbox (R325). -/
  | mbx
deriving DecidableEq, Repr

/-- The route register at an address, if one stands there. -/
def routeKind (a : Nat) : Option RouteKind :=
  if 0x30000000 ≤ a ∧ a < 0x30100000 ∧ a % 0x1000 = 0x68 then some .masked
  else if 0x30100000 ≤ a ∧ a < 0x30110000 ∧ a % 0x1000 = 0x28 then some .masked
  else if 0x30209000 ≤ a ∧ a < 0x30209400 ∧ a % 0x20 = 0x18 then some .ring
  else if 0x10000000 ≤ a ∧ a < 0x10800000 ∧ a % 0x100000 = 0xF0020 then some .masked
  else if 0x32000080 ≤ a ∧ a < 0x320000C0 ∧ a % 4 = 0 then some (.cyc ((a - 0x32000080) / 4))
  else if 0x36000000 ≤ a ∧ a < 0x36020000 ∧ a % 0x1000 = 0x68 then some .masked
  else if 0x31000000 ≤ a ∧ a < 0x31020000 ∧ a % 0x1000 = 0x2C then some .masked
  else if 0x33040000 ≤ a ∧ a < 0x33041000 ∧ a % 0x20 = 0x18 then some .ring
  else if 0x34000000 ≤ a ∧ a < 0x34000800 ∧ a % 0x20 = 0x10 then some .mbx
  else if a = TU_IRQROUTE ∨ a = IMG_IRQROUTE ∨ a = LDR_IRQROUTE ∨ a = SW_IRQROUTE ∨ a = MEM_IRQROUTE ∨
      a = MEM_DG_IRQROUTE ∨ a = ARB_IRQROUTE ∨ a = HB_IRQROUTE ∨ a = SLOT_IRQROUTE ∨ a = PMU_IRQROUTE ∨
      a = AON_IRQROUTE then some .masked
  else none

/-- A word written to a route register, its reserved bits clear: CLASS 0b10 reserves [12:11] and [10:9] (Table 1.6, R7). -/
def routeClean (v : Word) : Word := if fld v 15 14 = 2 then v &&& 0xFFFFE1FF else v

/-- The source routed by the register at `a` is asserted. -/
def sourceOn (s : State) (a : Nat) : RouteKind → Bool
  | .masked => s.rd (a - 8) &&& s.rd (a - 4) != 0
  | .ring => s.fl (a - 4) 2 0 != 0
  | .cyc j => s.bt TU_CYCSTAT j
  | .mbx => s.bt (a - 4) 31 || (s.bt (a - 4) 30 && s.bt (a - 0x10) 7)

/-- The pair that holds the token: 1 A, 2 B, 0 none (R340). -/
def holder (s : State) : Nat := s.fl ARB_STATUS 31 30

/-- The destination code of a route word: CLASS with the engine and context, or with the pair after FOLLOW (Table 1.6). -/
def routesTo (s : State) (w : Word) (x : CtxId) : Bool :=
  match x with
  | .pe n k => fld w 15 14 == 1 && fld w 13 8 == n.val * 8 + k.val
  | .pair b => fld w 15 14 == 2 && (if bitAt w 13 then holder s == b.toNat + 1 else bitAt w 8 == b)

/-- The asserted lines at a context or pair (R28). -/
def lines (s : State) (x : CtxId) : Word :=
  s.regs.foldl (fun acc e =>
    match routeKind e.1 with
    | none => acc
    | some k => if routesTo s e.2 x && sourceOn s e.1 k then acc ||| BitVec.ofNat 32 (2 ^ fld e.2 4 0) else acc) 0

/-- The host can receive an interrupt: link up and bus mastering enabled, not in D3hot (R30, R351). -/
def hostReceives (s : State) : Bool := s.bt HB_STATUS 31 && s.bt HB_STATUS 30 && !s.bt HB_STATUS 29

/-- Bit v of a vector set. -/
def vecBit (m v : Nat) : Bool := m / 2 ^ v % 2 == 1

/-- The OR of the sources on every vector, as a bit set (R28, R30). -/
def vectorOr (s : State) : Nat :=
  s.regs.foldl (fun acc e =>
    match routeKind e.1 with
    | none => acc
    | some k => if fld e.2 15 14 == 3 && sourceOn s e.1 k then acc ||| 2 ^ fld e.2 13 8 else acc) 0

/-- MSI-X vector control: the mask bit of a vector (R352). -/
def vecMasked (s : State) (v : Nat) : Bool := s.bt (HB_MSIX (4 * v + 3)) 0

/-- The vectors whose OR is asserted while unmasked and the host can receive. -/
def vectorsDue (s : State) : Nat :=
  if hostReceives s then
    (List.range 64).foldl (fun acc v => if vecBit (vectorOr s) v && !vecMasked s v then acc + 2 ^ v else acc) 0
  else 0

/-- The messages for vectors newly due (R30): one for each. -/
def newMessages (old now : Nat) : List Out :=
  ((List.range 64).filter (fun v => vecBit now v && !vecBit old v)).map Out.msix

/-- After each command: MSI-X messages for the vectors that became due (R30). -/
def settle (s : State) : State :=
  if hostReceives s = false then { s with msix := 0 }
  else { s with msix := vectorsDue s, out := newMessages s.msix (vectorsDue s) ++ s.out }

end Sys2Proof.Machine
end

