-- ==== Sys2Proof/Machine/Checks.lean ====
section
/-! DEFINITION. The check-value units (R88 to R97): one arithmetic for the cell, engine-side and Huxon units. A unit is named
by the base address `b` of its host block; all of its state is in its registers. -/

namespace Sys2Proof.Machine

/-- The base address of a unit's host block (R88). -/
def chkBase : ChkUnit → Nat
  | .cell c => 0x30000000 + c.val * 0x1000
  | .pe n => 0x35000000 + n.val * 0x1000
  | .hx n => 0x36000000 + n.val * 0x1000

/-- The low `w` bits of `x` in reverse order (R89). -/
def reflect : Nat → Nat → Nat
  | 0, _ => 0
  | w + 1, x => x % 2 * 2 ^ w + reflect w (x / 2)

/-- One message bit into the running register of width `w` (R89). -/
def crcBit (w poly r : Nat) (b : Bool) : Nat :=
  let fb := (r / 2 ^ (w - 1) % 2 == 1) != b
  let r' := r * 2 % 2 ^ w
  if fb then r' ^^^ poly else r'

/-- The bits of a byte in the order REFIN gives (R89). -/
def byteBits (refin : Bool) (x : Nat) : List Bool :=
  (List.range 8).map (fun i => (if refin then x / 2 ^ i else x / 2 ^ (7 - i)) % 2 == 1)

/-- One message byte into the running register (R89). -/
def crcByte (w poly : Nat) (refin : Bool) (r x : Nat) : Nat :=
  (byteBits refin x).foldl (crcBit w poly) r

/-- The final value of a closed check (R89). -/
def crcFinal (w xorout : Nat) (refout : Bool) (r : Nat) : Nat :=
  (if refout then reflect w r else r) ^^^ xorout

/-- The message bytes into the running register, the first byte first (R89). -/
def crcRun (w poly : Nat) (refin : Bool) : List Byte → Nat → Nat
  | [], r => r
  | b :: bs, 0 => crcRun w poly refin bs (crcByte w poly refin 0 b.toNat)
  | b :: bs, r + 1 => crcRun w poly refin bs (crcByte w poly refin (r + 1) b.toNat)

/-- A whole check over bytes (R89, Table 4.1): used by the loader and the slot manager as well. -/
def crcBytes (w poly init xorout : Nat) (refin refout : Bool) (bs : List Byte) : Nat :=
  crcFinal w xorout refout (crcRun w poly refin bs init)

/-- CRC-32C (Table 4.1). -/
def crc32c (bs : List Byte) : Nat := crcBytes 32 0x1EDC6F41 0xFFFFFFFF 0xFFFFFFFF true true bs

/-- CRC-16/Huxon (Table 4.1). -/
def crc16hx (bs : List Byte) : Nat := crcBytes 16 0x8BB7 0xFFFF 0 false false bs

/-- The unit's width w. -/
def chkW (s : State) (b : Nat) : Nat := s.fl (CHK_CFG b) 5 0

/-- The unit's mode: 0 append, 1 check, 2 check and strip. -/
def chkMode (s : State) (b : Nat) : Nat := s.fl (CHK_CFG b) 9 8

/-- Bit granularity. -/
def chkGran (s : State) (b : Nat) : Bool := s.bt (CHK_CFG b) 12

/-- The unit is CLOSED (R92). -/
def chkClosed (s : State) (b : Nat) : Bool := s.bt (CHK_STATE b) 31

/-- INIT (R92): the register to INIT, the unit open and empty, no result; RESULT, RXVAL, STAT and COUNT kept. -/
def chkInit (s : State) (b : Nat) : State :=
  (((s.wr (CHK_RUN b) (s.rd (CHK_INIT b))).wr (CHK_HOLD b) 0).wr (CHK_FED b) 0).wr (CHK_STATE b) 0

/-- Processing one unit of data (a bit or a byte) into the running register (R89). -/
def chkProcess (s : State) (b x : Nat) : State :=
  let w := chkW s b
  let poly := (s.rd (CHK_POLY b)).toNat
  let r := (s.rd (CHK_RUN b)).toNat
  s.wr (CHK_RUN b) (BitVec.ofNat 32
    (if chkGran s b then crcBit w poly r (x % 2 == 1) else crcByte w poly (s.bt (CHK_CFG b) 13) r x))

/-- A completed unit of `n` bits: processed at once in append mode, through the holdback of w bits in the check modes
(R93, R94). It is placed above the bits the holdback holds: what software left in HOLD at or above HLVL is overwritten, and
HOLD[31:w] stay 0 (R89). DESIGN CHOICE (log 98): a level software wrote that leaves less than `n` bits of room becomes w. -/
def chkPush (s : State) (b n x : Nat) : State :=
  if chkMode s b = 0 then chkProcess s b x
  else
    let w := chkW s b
    let hold := (s.rd (CHK_HOLD b)).toNat
    let lvl := s.fl (CHK_STATE b) 5 0
    if w ≤ lvl then
      (chkProcess s b (hold % 2 ^ n)).wr (CHK_HOLD b) (BitVec.ofNat 32 (hold / 2 ^ n % 2 ^ (w - n) + x * 2 ^ (w - n)))
    else
      (s.wr (CHK_HOLD b) (BitVec.ofNat 32 ((hold % 2 ^ lvl + x * 2 ^ lvl) % 2 ^ w))).setFl (CHK_STATE b) 5 0 (min w (lvl + n))

/-- `x` with bit `i` set to `bit`. -/
def placeBit (x i : Nat) (bit : Bool) : Nat := x / 2 ^ (i + 1) * 2 ^ (i + 1) + bit.toNat * 2 ^ i + x % 2 ^ i

/-- A bit fed by a cell (R90): `dir` is CELL_SHCFG.DIR. The k-th bit fed is placed as bit k, or 7 - k, of the byte. -/
def chkFeedBit (s : State) (b : Nat) (dir bit : Bool) : State :=
  if chkClosed s b then s.raise (CHK_STAT b) 0x2
  else
    let s := s.wrapInc (CHK_FED b) 31 0
    if chkGran s b then chkPush s b 1 bit.toNat
    else
      let k := s.fl (CHK_STATE b) 20 18
      let p := s.fl (CHK_STATE b) 15 8
      let p' := placeBit p (if dir then 7 - k else k) bit
      if k = 7 then chkPush ((s.setFl (CHK_STATE b) 20 18 0).setFl (CHK_STATE b) 15 8 0) b 8 p'
      else (s.setFl (CHK_STATE b) 20 18 (k + 1)).setFl (CHK_STATE b) 15 8 p'

/-- A whole byte fed to an engine-side or Huxon unit (R90, R92). -/
def chkFeedByte (s : State) (b x : Nat) : State :=
  if chkClosed s b then s.raise (CHK_STAT b) 0x2
  else chkPush (s.wrapInc (CHK_FED b) 31 0 8) b 8 x

/-- The low `n` bytes of a word, byte [7:0] first (Table 4.8). -/
def chkFeedN (s : State) (b : Nat) : Nat → Nat → State
  | 0, _ => s
  | n + 1, x => chkFeedN (chkFeedByte s b (x % 256)) b n (x / 256)

/-- The bits of a check field of width `w` in sending order (R91). -/
def checkSeq (gran bord dir : Bool) (w f : Nat) : List Bool :=
  if gran then (List.range w).map (fun i => (if bord then f / 2 ^ (w - 1 - i) else f / 2 ^ i) % 2 == 1)
  else (List.range w).map (fun i =>
    let byteIx := if bord then w / 8 - 1 - i / 8 else i / 8
    let byteV := f / 2 ^ (8 * byteIx) % 256
    (if dir then byteV / 2 ^ (7 - i % 8) else byteV / 2 ^ (i % 8)) % 2 == 1)

/-- Reversal of the bytes of a value of `n` bytes. -/
def revBytes : Nat → Nat → Nat
  | 0, _ => 0
  | n + 1, x => x % 256 * 256 ^ n + revBytes n (x / 256)

/-- V assembled from the holdback in the order of R91. -/
def chkV (s : State) (b : Nat) : Nat :=
  let w := chkW s b
  let hold := (s.rd (CHK_HOLD b)).toNat
  if s.bt (CHK_CFG b) 15 then (if chkGran s b then reflect w hold else revBytes (w / 8) hold) else hold

/-- F of the unit as it stands (R89). -/
def chkF (s : State) (b : Nat) : Nat :=
  crcFinal (chkW s b) (s.rd (CHK_XOROUT b)).toNat (s.bt (CHK_CFG b) 14) (s.rd (CHK_RUN b)).toNat

/-- The shifter load of a cell unit's END in append mode: the next bits of the check field (R93). -/
def chkLoad (s : State) (b c : Nat) : State :=
  let w := chkW s b
  let rem := s.fl (CHK_STATE b) 26 21
  let W := (s.cell c).width
  let dir := s.bt (CELL_SHCFG c) 8
  let n := min W rem
  let bitsN := ((checkSeq (chkGran s b) (s.bt (CHK_CFG b) 15) dir w (s.rd (CHK_RESULT b)).toNat).drop (w - rem)).take n
  let v := (List.range n).foldl (fun acc j =>
    if bitsN.getD j false then acc + 2 ^ (if dir then W - 1 - j else j) else acc) 0
  ((s.wr (CELL_SHIFT c) (BitVec.ofNat 32 v)).setFl (CELL_SHSTAT c) 5 0 n).setFl (CHK_STATE b) 26 21 (rem - n)

/-- The stripping of a cell unit's END in check-and-strip mode (R95). -/
def chkStrip (s : State) (b c : Nat) : State :=
  let w := chkW s b
  let W := (s.cell c).width
  let bc := s.fl (CELL_SHSTAT c) 5 0
  let m := min w bc
  let sh := (s.rd (CELL_SHIFT c)).toNat
  let sh' := if s.bt (CELL_SHCFG c) 8 then sh / 2 ^ m else sh * 2 ^ m % 2 ^ W
  ((s.wr (CELL_SHIFT c) (BitVec.ofNat 32 sh')).setFl (CELL_SHSTAT c) 5 0 (bc - m)).setFl (CHK_STAT b) 13 8 (w - m)

/-- END (R93 to R95); `cell` is the cell of a cell unit. DESIGN CHOICE (log 95): an END that finds the holdback short
computes no F by step 3 of R94, and step 4 writes RESULT all the same: the model writes the F of the register as it
stands. -/
def chkEnd (s : State) (b : Nat) (cell : Option Nat) : State :=
  let w := chkW s b
  let part := s.fl (CHK_STATE b) 20 18 != 0
  if chkMode s b = 0 then
    if chkClosed s b then
      match cell with
      | some c => if s.fl (CHK_STATE b) 26 21 = 0 then s.raise (CHK_STAT b) 0x1 else chkLoad s b c
      | none => if s.fl (CHK_STATE b) 26 21 = 0 then s.raise (CHK_STAT b) 0x1 else s.setFl (CHK_STATE b) 26 21 0
    else
      let f := chkF s b
      let s := if part then s.raise (CHK_STAT b) 0x4 else s
      let s := ((s.setFl (CHK_STATE b) 20 18 0).setFl (CHK_STATE b) 15 8 0).wr (CHK_RESULT b) (BitVec.ofNat 32 f)
      let s := s.setBt (CHK_STATE b) 31 true
      match cell with
      | some c => chkLoad (s.setFl (CHK_STATE b) 26 21 w) b c
      | none => s.setFl (CHK_STATE b) 26 21 0
  else if chkClosed s b then s.raise (CHK_STAT b) 0x1
  else
    let short := s.fl (CHK_STATE b) 5 0 < w
    let f := chkF s b
    let v := if short then 0 else chkV s b
    let good := !part && !short && f == v
    let s := if part then s.raise (CHK_STAT b) 0x4 else s
    let s := if short then s.raise (CHK_STAT b) 0x8 else s
    let s := (s.setFl (CHK_STATE b) 20 18 0).setFl (CHK_STATE b) 15 8 0
    let s := (s.wr (CHK_RESULT b) (BitVec.ofNat 32 f)).wr (CHK_RXVAL b) (BitVec.ofNat 32 v)
    let s := ((s.setBt (CHK_STATE b) 30 true).setBt (CHK_STATE b) 29 good).setBt (CHK_STATE b) 31 true
    let s := if good then s.wrapInc (CHK_COUNT b) 15 0 else s.satInc (CHK_COUNT b) 31 16
    match cell with
    | some c => if chkMode s b = 2 then chkStrip s b c else s
    | none => s

/-- CFG values a write refuses (R90); `cellUnit`: the unit sits in a cell. -/
def chkCfgBad (cellUnit : Bool) (v : Word) : Bool :=
  let w := fld v 5 0
  fld v 9 8 == 3 || w == 0 || decide (32 < w) || (!bitAt v 12 && w % 8 != 0) || (bitAt v 12 && bitAt v 13) ||
    (bitAt v 12 && !cellUnit)

/-- A software write of a unit's register that the unit's own rules accept, with its effects (R92, R97, R99).
DESIGN CHOICE (log 96): a CFG write that narrows WIDTH clears the parameters' bits above it for good, so a later wider WIDTH
does not bring them back. DESIGN CHOICE (log 98): a STATE write is kept as written, with HLVL or REM above 32 too. -/
def chkWrite (s : State) (b off : Nat) (v : Word) (cell : Option Nat) : State :=
  let mask := ones (chkW s b)
  if off = 0x100 then
    let s := s.softWrite (b + off) v
    let k := ones (chkW s b)
    let s := ((s.wr (CHK_POLY b) (s.rd (CHK_POLY b) &&& k)).wr (CHK_INIT b) (s.rd (CHK_INIT b) &&& k)).wr (CHK_XOROUT b)
      (s.rd (CHK_XOROUT b) &&& k)
    chkInit s b
  else if off = 0x104 ∨ off = 0x108 ∨ off = 0x10C then chkInit (s.softWrite (b + off) (v &&& mask)) b
  else if off = 0x110 ∨ off = 0x114 then s.softWrite (b + off) (v &&& mask)
  else if off = 0x130 then
    (if fld v 1 0 = 1 then chkInit s b else if fld v 1 0 = 2 then chkEnd s b cell else s)
  else if off = 0x134 then chkFeedN s b 1 v.toNat
  else if off = 0x138 then chkFeedN s b 2 v.toNat
  else if off = 0x13C then chkFeedN s b 4 v.toNat
  else s.softWrite (b + off) v

/-- A write of a unit's register that its rules refuse (R90, R97, Table 4.8). DESIGN CHOICE (log 97): CMD with the reserved
OP 0b11 is refused. -/
def chkRefuses (off : Nat) (v : Word) (cellUnit hxUnit stopped : Bool) : Bool :=
  if off = 0x128 then false
  else if hxUnit then true
  else if cellUnit && !stopped then true
  else if cellUnit && (off == 0x134 || off == 0x138 || off == 0x13C) then true
  else if off = 0x100 then chkCfgBad cellUnit v
  else off == 0x130 && fld v 1 0 == 3

end Sys2Proof.Machine
end

