-- ==== Sys2Proof/Machine/Fabric.lean ====
section
/-! DEFINITION. What is on its way through the event fabric (R25, R72, R100 to R102): the stages that hold a pulse, one
CLK_CELL cycle each, the crossings to CLK_CAN and CLK_PER, and the starts whose members have yet to act. What an item does when
its cycle ends is in Machine/Events.lean. -/

namespace Sys2Proof.Machine

/-- An agenda with one more item, earliest first; an item that is there already stays one (R100). -/
def insertDue : List Due → Due → List Due
  | [], d => [d]
  | e :: r, d => if e = d then e :: r else if d.at_ < e.at_ then d :: e :: r else e :: insertDue r d

/-- An item that acts at the end of cycle `t`. -/
def State.plan (s : State) (t : Nat) (k : DueK) : State := { s with agenda := insertDue s.agenda { at_ := t, what := k } }

/-- Pulses that stand in the global stage in cycle `t`, from no cell. -/
def pulsesAt (s : State) (t : Nat) (chs : List Nat) : State :=
  if inReset s blkEvf then s else chs.foldl (fun s ch => s.plan t (.glob ch none)) s

/-- Pulses of the time unit, a Huxon sequencer or software, with this cycle as source cycle (Table 5.1). -/
def pulsesNow (s : State) (chs : List Nat) : State := pulsesAt s (s.cycles + 1) chs

/-- Pulses of a cell of group `g`, with this cycle as source cycle: the local stage, then the global stage (Table 5.1). -/
def pulsesCell (s : State) (g : Nat) (chs : List Nat) : State :=
  if inReset s blkEvf then s
  else chs.foldl (fun s ch => (s.plan (s.cycles + 1) (.loc ch g)).plan (s.cycles + 2) (.glob ch (some g))) s

/-- The first edge at or after `h`, both in units of 0.5 ns, of a clock of period `p` whose edges coincide with CLK_CELL at the
release of the dividers (R25). -/
def edgeFrom (s : State) (p h : Nat) : Nat := 2 * s.clk0 + (h - 2 * s.clk0 + p - 1) / p * p

/-- Periods of CLK_CAN and CLK_PER in units of 0.5 ns (Table 1.5). -/
abbrev canPeriod : Nat := 25
/-- See `canPeriod`. -/
abbrev perPeriod : Nat := 8

/-- Pulses of a block of a slower clock: asserted at its first edge from now on, and in the global stage from the first CLK_CELL
edge at least 2 ns after it (Table 5.1). -/
def pulsesFrom (s : State) (p : Nat) (chs : List Nat) : State :=
  pulsesAt s ((edgeFrom s p (2 * s.cycles) + 5) / 2) chs

/-- Pulses of a CAN controller. -/
def pulsesCan (s : State) (chs : List Nat) : State := pulsesFrom s canPeriod chs

/-- Pulses of a converter. -/
def pulsesPer (s : State) (chs : List Nat) : State := pulsesFrom s perPeriod chs

/-- The cycle at whose end a listener of a slower clock acts on a pulse of cycle `t`: the cycle before the one that holds the
first edge at least 1 ns after the end of `t` (R102, Table 8.5). -/
def crossAt (s : State) (p t : Nat) : Nat := edgeFrom s p (2 * (t + 2)) / 2 - 1

/-- A word that a write to EVF_DSRC or EVF_DRSP changes from the next cycle on (R105): in the cycle of the write, the word
before. -/
def evfNow (s : State) (a : Nat) : Word :=
  if s.evfWas.1 = s.cycles + 1 ∧ s.evfWas.2.1 = a then s.evfWas.2.2 else s.rd a

end Sys2Proof.Machine
end

