-- ==== Sys2Proof/Machine/Map.lean ====
section
/-! DEFINITION. The address map: the regions of Table 1.3 and the masters each admits (R18, R19). -/

namespace Sys2Proof.Machine

/-- The regions of Table 1.3. -/
inductive Region where
  | rom | aon | rram | scratch (n : Nat) | pe (n : Nat) | shared | imgWin | img | cell (c : Nat) | shd (g : Nat) | evf
  | can (n : Nat) | tu | sw | mbx | chk (n : Nat) | hx (n : Nat) | pmu | ldr | arb | hb | l2 | plOwn | pl (p : Nat) | flash | ob
deriving DecidableEq, Repr

/-- The region of an address. -/
def regionOf (a : Nat) : Option Region :=
  if a < 0x10000 then some .rom
  else if 0x08000000 ≤ a ∧ a < 0x08001000 then some .aon
  else if 0x08010000 ≤ a ∧ a < 0x08012000 then some .rram
  else if 0x10000000 ≤ a ∧ a < 0x10800000 then
    let n := (a - 0x10000000) / 0x100000
    let o := a % 0x100000
    if o < 0x40000 then some (.scratch n) else if 0xF0000 ≤ o ∧ o < 0xF1000 then some (.pe n) else none
  else if 0x20000000 ≤ a ∧ a < 0x21000000 then some .shared
  else if 0x24000000 ≤ a ∧ a < 0x24400000 then some .imgWin
  else if 0x24400000 ≤ a ∧ a < 0x24401000 then some .img
  else if 0x30000000 ≤ a ∧ a < 0x30100000 then some (.cell ((a - 0x30000000) / 0x1000))
  else if 0x30100000 ≤ a ∧ a < 0x30110000 then some (.shd ((a - 0x30100000) / 0x1000))
  else if 0x30200000 ≤ a ∧ a < 0x30210000 then some .evf
  else if 0x31000000 ≤ a ∧ a < 0x31020000 then some (.can ((a - 0x31000000) / 0x1000))
  else if 0x32000000 ≤ a ∧ a < 0x32040000 then some .tu
  else if 0x33000000 ≤ a ∧ a < 0x33400000 then some .sw
  else if 0x34000000 ≤ a ∧ a < 0x34010000 then some .mbx
  else if 0x35000000 ≤ a ∧ a < 0x35008000 then some (.chk ((a - 0x35000000) / 0x1000))
  else if 0x36000000 ≤ a ∧ a < 0x36020000 then some (.hx ((a - 0x36000000) / 0x1000))
  else if 0x37000000 ≤ a ∧ a < 0x37010000 then some .pmu
  else if 0x38000000 ≤ a ∧ a < 0x38010000 then some .ldr
  else if 0x39000000 ≤ a ∧ a < 0x39010000 then some .arb
  else if 0x3A000000 ≤ a ∧ a < 0x3A010000 then some .hb
  else if 0x40000000 ≤ a ∧ a < 0x40200000 then some .l2
  else if 0x40800000 ≤ a ∧ a < 0x40810000 then some .plOwn
  else if 0x40810000 ≤ a ∧ a < 0x40830000 then some (.pl ((a - 0x40810000) / 0x10000))
  else if 0x60000000 ≤ a ∧ a < 0x80000000 then some .flash
  else if 0x80000000 ≤ a ∧ a < 0x100000000 then some .ob
  else none

/-- The region is a memory, so narrow accesses are admitted (R6). -/
def Region.isMem : Region → Bool
  | .rom | .rram | .scratch _ | .shared | .imgWin | .l2 | .flash | .ob => true
  | _ => false

/-- The software masters S (R19). -/
def softMaster (m : Nat) : Bool := (decide (1 ≤ m) && decide (m ≤ 11)) || m == 16 || m == 31

/-- The data movers D (R19). -/
def dataMover (m : Nat) : Bool := decide (12 ≤ m) && decide (m ≤ 15)

/-- The master is named in the region's "Reached by" column (R19). -/
def admits (m : Nat) : Region → Bool
  | .scratch n => m == n + 1 || m == 12 || m == 16 || m == 31
  | .shared => softMaster m || dataMover m
  | .imgWin => softMaster m || m == 14 || m == 15
  | .l2 => m == 9 || m == 10 || m == 16 || m == 31
  | .plOwn => m == 9 || m == 10
  | .pl _ => m == 16 || m == 31
  | .ob => (decide (1 ≤ m) && decide (m ≤ 10)) || m == 12
  | _ => softMaster m

/-- The block of R17 in which an address lies: the image store's window and registers are one block. -/
def sameBlock (a b : Nat) : Bool :=
  let f (r : Option Region) : Option Region := match r with | some .imgWin => some .img | r => r
  (f (regionOf a)).isSome && f (regionOf a) == f (regionOf b)

end Sys2Proof.Machine
end

