-- ==== Sys2Proof/Machine/Memory.lean ====
section
/-! DEFINITION. Memories: undefined ranges, check bits, and shared memory with its ownership and ECC rules (R312 to R319). -/

namespace Sys2Proof.Machine

/-- The canonical form of a memory whose unlisted bytes read 0: addresses rise strictly, and no entry is 0. -/
def Memory.wf (m : List Host.Cell) : Bool := smWf (fun _ => (0 : Byte)) m

/-- A refused access: cause 0x3 (Table 20.1). -/
abbrev refuse (s : State) : State × Resp := (s, .err 3)

/-- An accepted access with its data. -/
abbrev accept (s : State) (v : Word := 0) : State × Resp := (s, .ok v)

/-- The parts of the undefined ranges outside [lo, hi). -/
def cutRanges (lo hi : Nat) (l : List (Nat × Nat)) : List (Nat × Nat) :=
  (l.flatMap (fun r => [(r.1, min r.2 lo), (max r.1 hi, r.2)])).filter (fun r => decide (r.1 < r.2))

/-- Memory in [lo, hi) is defined from now on. -/
def State.define (s : State) (lo hi : Nat) : State := { s with undef := cutRanges lo hi s.undef }

/-- Memory in [lo, hi) is undefined from now on; its listed bytes go. -/
def State.undefine (s : State) (lo hi : Nat) : State :=
  let s := s.zeroMem lo hi
  { s with undef := cutRanges lo hi s.undef ++ [(lo, hi)] }

/-- Memory in [lo, hi) written with zero and good check bits (R316). -/
def State.clearMem (s : State) (lo hi : Nat) : State := (s.zeroMem lo hi).define lo hi

/-- An address lies in an undefined range. -/
def undefAt (s : State) (a : Nat) : Bool := s.undef.any (fun r => decide (r.1 ≤ a) && decide (a < r.2))

/-- Giving the 8-byte word at `w` its value if it is undefined: 8 free bytes (DESIGN CHOICE, log entry 4). -/
def State.settleWord (s : State) (w : Nat) : State :=
  if undefAt s w then
    let (lo, s) := s.free
    let (hi, s) := s.free
    ((s.define w (w + 8)).setMem32 w lo).setMem32 (w + 4) hi
  else s

/-- The stored status of the check bits of the word that holds an address. -/
def State.eccAt (s : State) (a : Nat) : Upset := smGet .good s.ecc (a / 8 * 8)

/-- Setting the check-bit status of the word that holds an address. -/
def State.setEcc (s : State) (a : Nat) (u : Upset) : State := { s with ecc := smSet .good s.ecc (a / 8 * 8) u }

/-- The worse of two check results. -/
def worse : Upset → Upset → Upset
  | .double, _ => .double
  | _, .double => .double
  | .single, _ => .single
  | _, u => u

/-- What the check of the word at `a` shows: the upset now arising and the one stored (R315). -/
def checkAt (s : State) (a : Nat) (u : Upset) : Upset := worse u (s.eccAt a)

/-- The access, over the `n` bytes at `a` of one word: a read returns the bytes, a write stores them. -/
def rawAcc (s : State) (a n : Nat) (x : Option Nat) : State × Nat :=
  match x with
  | none => (s.settleWord (a / 8 * 8), leNat ((s.settleWord (a / 8 * 8)).bytes a n))
  | some v => ((s.settleWord (a / 8 * 8)).setBytes a (leBytes n v), 0)

/-- The owner test of a bank (R317). -/
def owns (s : State) (m bank : Nat) : Bool :=
  let o := s.rd (MEM_OWN bank)
  if bitAt o 8 then s.bt (MEM_GRP (fld o 2 0)) m else fld o 4 0 == m

/-- The bank of a shared-memory address. -/
def bankOf (a : Nat) : Nat := (a - 0x20000000) / 0x80000

/-- The word index of a shared-memory address in its bank. -/
def wordIx (a : Nat) : Nat := (a - 0x20000000) % 0x80000 / 8

/-- A refused non-owner access: MEM_VIOL and MEM_IRQSTAT.VIOL (R319). -/
def ownerViolation (s : State) (m a : Nat) (wr : Bool) : State :=
  let b := bankOf a
  let s := if s.bt (MEM_VIOL b) 31 then s
    else s.wr (MEM_VIOL b) (BitVec.ofNat 32 (2 ^ 31 + wr.toNat * 2 ^ 30 + m * 2 ^ 24 + wordIx a))
  s.raise MEM_IRQSTAT 0x4

/-- The ECC result of a shared-memory access: counters, record and interrupt (R315). -/
def memEccNote (s : State) (a : Nat) (u : Upset) : State :=
  let b := bankOf a
  match u with
  | .good => s
  | .single => ((s.satInc (MEM_ECC b) 23 16).raise MEM_IRQSTAT 0x1).setEcc a .good
  | .double =>
    let s := (s.satInc (MEM_ECC b) 30 24).raise MEM_IRQSTAT 0x2
    let s := if s.bt (MEM_ECC b) 31 then s else (s.setFl (MEM_ECC b) 15 0 (wordIx a)).raise (MEM_ECC b) 0x80000000
    s.setEcc a .double

/-- An access of master `m` to `n` bytes of one word of shared memory: owner test, check, data (R312 to R319). A write of a
whole 64-bit word needs no read and so no check. The error log entry is the caller's. -/
def sharedAcc (s : State) (m a n : Nat) (x : Option Nat) (u : Upset) : State × Sum Nat Nat :=
  if owns s m (bankOf a) = false then (ownerViolation s m a x.isSome, .inr 4)
  else if x.isSome ∧ n = 8 then
    (((s.define a (a + 8)).setEcc a .good).setBytes a (leBytes 8 (x.getD 0)), .inl 0)
  else
    match checkAt s a u with
    | .double => (memEccNote s a .double, .inr 5)
    | e =>
      let s := memEccNote s a e
      let (s, v) := rawAcc s a n x
      (s, .inl v)

/-- What the check bits show at an access whose command names no upset: the next of State.upsets, free past its end (DESIGN CHOICE,
log entry 92). -/
def seenUpset (s : State) : State × Upset :=
  match s.upsets with
  | u :: r => ({ s with upsets := r }, u)
  | [] =>
    let f := s.free
    (f.2, match f.1.toNat % 4 with | 1 => .single | 2 => .double | _ => .good)

/-- A logged access to shared memory by a data mover or a core: none if it got an error response (R16, R439). An address that no
block decodes has cause 0x0, a region that does not admit the master 0x1, another region 0x3 (DEDUCED, log entry 87). -/
def memAcc (s : State) (m a n : Nat) (x : Option Nat) : State × Option Nat :=
  match regionOf a with
  | none => (logErr s m a x.isSome 0, none)
  | some r =>
    if admits m r = false then (logErr s m a x.isSome 1, none)
    else if r ≠ .shared then (logErr s m a x.isSome 3, none)
    else
      let e := if x.isSome ∧ n = 8 then (s, .good) else seenUpset s
      match sharedAcc e.1 m a n x e.2 with
      | (s, .inl v) => (s, some v)
      | (s, .inr c) => (logErr s m a x.isSome c, none)

/-- The parts of [a, a + n) that lie in one 8-byte word each. -/
def chunks : Nat → Nat → Nat → List (Nat × Nat)
  | 0, _, _ => []
  | f + 1, a, n => if n = 0 then [] else (a, min n (8 - a % 8)) :: chunks f (a + min n (8 - a % 8)) (n - min n (8 - a % 8))

/-- A read of `n` bytes of shared memory by a data mover; none if an access got an error response. -/
def memRead (s : State) (m a n : Nat) : State × Option (List Byte) :=
  (chunks n a n).foldl (fun r c =>
    match r with
    | (s, none) => (s, none)
    | (s, some l) =>
      match memAcc s m c.1 c.2 none with
      | (s, none) => (s, none)
      | (s, some v) => (s, some (l ++ leBytes c.2 v))) (s, some [])

/-- A write of bytes to shared memory by a data mover; false if an access got an error response. -/
def memWrite (s : State) (m a : Nat) (bs : List Byte) : State × Bool :=
  (chunks bs.length a bs.length).foldl (fun r c =>
    match r with
    | (s, false) => (s, false)
    | (s, true) =>
      match memAcc s m c.1 c.2 (some (leNat ((bs.drop (c.1 - a)).take c.2))) with
      | (s, none) => (s, false)
      | (s, some _) => (s, true)) (s, true)

/-- A memory word with SECDED that is no shared memory (scratchpads, L2): check, then data. -/
def localAcc (s : State) (a n : Nat) (x : Option Nat) (u : Upset) : State × Upset × Nat :=
  if x.isSome ∧ n = 8 then
    (((s.define a (a + 8)).setEcc a .good).setBytes a (leBytes 8 (x.getD 0)), .good, 0)
  else
    match checkAt s a u with
    | .double => (s.setEcc a .double, .double, 0)
    | e =>
      let (s, v) := rawAcc (s.setEcc a .good) a n x
      (s, e, v)

/-- An engine's scratchpads: instruction and data (Table 1.3). -/
def inScratch (e a : Nat) : Bool := decide (0x10000000 + e * 0x100000 ≤ a) && decide (a < 0x10040000 + e * 0x100000)

/-- An access to a scratchpad word of engine `e`: corrected and uncorrectable errors are counted and raised in the engine's
registers (R124). None: uncorrectable. -/
def scratchAcc (s : State) (e a n : Nat) (x : Option Nat) (u : Upset) : State × Option Nat :=
  match localAcc s a n x u with
  | (s, .good, v) => (s, some v)
  | (s, .single, v) => ((s.wrapInc (PE_ECC e) 15 0).raise (PE_IRQSTAT e) 0x2, some v)
  | (s, .double, _) => ((s.satInc (PE_ECC e) 31 16).raise (PE_IRQSTAT e) 0x4, none)

end Sys2Proof.Machine
end

