-- ==== Sys2Proof/Machine/Cells.lean ====
section
/-! DEFINITION. The port cells (R33 to R80): FIFOs and runs, the state-table entry, the phases of a tick, the commands and
the register rules of one cell. Pulses a tick emits are returned as a list of channels; Machine/Events.lean carries them
on. -/

namespace Sys2Proof.Machine

/-! ## FIFOs (R62 to R67) -/

/-- JOINTX (`rx` false) or JOINRX of a cell. -/
def joined (s : State) (rx : Bool) (c : Nat) : Bool := c % 16 != 15 && s.bt (CELL_FIFOCFG c) (if rx then 1 else 0)

/-- The owner of the run that holds a cell, walking down through the group (R65). -/
def runOwner (s : State) (rx : Bool) : Nat → Nat → Nat
  | 0, c => c
  | n + 1, c => if c % 16 ≠ 0 ∧ joined s rx (c - 1) then runOwner s rx n (c - 1) else c

/-- The owner of a cell's run (R65). -/
def owner (s : State) (rx : Bool) (c : Nat) : Nat := runOwner s rx 15 c

/-- Cells of the run from `c` upward (R65). -/
def runLen (s : State) (rx : Bool) : Nat → Nat → Nat
  | 0, _ => 1
  | n + 1, c => if joined s rx c then 1 + runLen s rx n (c + 1) else 1

/-- The cell is a donor in a direction (R66). -/
def donor (s : State) (rx : Bool) (c : Nat) : Bool := owner s rx c != c

/-- The depth of the FIFO a cell owns (R65). -/
def depth (s : State) (rx : Bool) (c : Nat) : Nat := 4 * runLen s rx 15 c

/-- The FIFO a cell owns, oldest first. -/
def fifoOf (s : State) (rx : Bool) (c : Nat) : List (BitVec 33) := smGet [] s.fifo (2 * c + rx.toNat)

/-- Setting the FIFO a cell owns. -/
def setFifo (s : State) (rx : Bool) (c : Nat) (l : List (BitVec 33)) : State :=
  { s with fifo := smSet [] s.fifo (2 * c + rx.toNat) l }

/-- Words that accesses of this cycle have added to the TX FIFO of a cell, and taken from its RX FIFO: a tick of the cycle
comes before them (R64, Table 3.1). -/
def txFresh (s : State) (c : Nat) : Nat := if (s.cell c).fifoAt = s.cycles + 1 then (s.cell c).txIn else 0
/-- See `txFresh`. -/
def rxFresh (s : State) (c : Nat) : Nat := if (s.cell c).fifoAt = s.cycles + 1 then (s.cell c).rxOut else 0

/-- An access of this cycle that added `i` words to TX and took `o` words from RX. -/
def fifoMark (s : State) (c i o : Nat) : State :=
  s.setCell c { s.cell c with fifoAt := s.cycles + 1, txIn := txFresh s c + i, rxOut := rxFresh s c + o }

/-- TXE as the cell's tick sees it: a donor's TX FIFO reads as empty (R66), and words added in this cycle are not yet there. -/
def txEmpty (s : State) (c : Nat) : Bool := donor s false c || decide ((fifoOf s false c).length ≤ txFresh s c)

/-- RXF as the cell's tick sees it: a donor's RX FIFO reads as full (R66), and words taken in this cycle are still there. -/
def rxFull (s : State) (c : Nat) : Bool :=
  donor s true c || decide (depth s true c ≤ (fifoOf s true c).length + rxFresh s c)

/-- Adding a word to the RX FIFO the cell owns. -/
def rxPush (s : State) (c : Nat) (kind : Bool) (v : Word) : State :=
  setFifo s true c (fifoOf s true c ++ [BitVec.ofNat 33 (v.toNat + kind.toNat * 2 ^ 32)])

/-- FLUSHTX or FLUSHRX: the FIFO empties; no effect in a donor (R66). -/
def flushFifo (s : State) (rx : Bool) (c : Nat) : State := if donor s rx c then s else setFifo s rx c []

/-! ## The tick grid (R69) -/

/-- The instant of tick `k` of a grid whose tick 0 falls in cycle `n` with accumulator `a` (R69). -/
def tickAt (n a int frac k : Nat) : Nat := n + k * int + (a + k * frac) / 256

/-- The last tick of that grid at or before cycle `t`; none before tick 0. -/
def tickIx (n a int frac t : Nat) : Option Nat :=
  if t < n then none else some (((t - n + 1) * 256 - a - 1) / (256 * int + frac))

/-- The cycle from which a cell's grid counts: a tick of it, or the release of its group (R69). -/
def gridBase (s : State) (c : Nat) : Nat := (s.cell c).next.getD (smGet 0 s.gridFrom (c / 16))

/-- CELL_DIV.INT and FRAC. -/
def divInt (s : State) (c : Nat) : Nat := s.fl (CELL_DIV c) 23 8
/-- See `divInt`. -/
def divFrac (s : State) (c : Nat) : Nat := s.fl (CELL_DIV c) 7 0

/-- The last tick of a cell's grid at or before cycle `t`. -/
def gridIx (s : State) (c t : Nat) : Option Nat := tickIx (gridBase s c) (s.cell c).acc (divInt s c) (divFrac s c) t

/-- The cycle of tick `k` of a cell's grid. -/
def gridTick (s : State) (c k : Nat) : Nat := tickAt (gridBase s c) (s.cell c).acc (divInt s c) (divFrac s c) k

/-- The first tick of a cell's grid after cycle `t`. -/
def tickAfter (s : State) (c t : Nat) : Nat :=
  match gridIx s c t with
  | none => gridBase s c
  | some k => gridTick s c (k + 1)

/-- This cycle is a tick of the cell's grid that has not been taken (R34: one tick in a cycle). -/
def onGrid (s : State) (c : Nat) : Bool :=
  (s.cell c).ran != s.cycles + 1 &&
    ((s.cell c).due == s.cycles + 1 || (match gridIx s c s.cycles with | some k => gridTick s c k == s.cycles | none => false))

/-- A new CELL_DIV sets the interval that begins at the first tick in a later cycle (R70): the grid is carried to that tick, and
a tick of this cycle stays due. -/
def gridHold (s : State) (c : Nat) : State :=
  match gridIx s c s.cycles with
  | none => s
  | some k =>
    s.setCell c { s.cell c with next := some (gridTick s c (k + 1)), acc := ((s.cell c).acc + (k + 1) * divFrac s c) % 256,
                                due := if gridTick s c k = s.cycles then s.cycles + 1 else (s.cell c).due }

/-- A new shifter width in force (R45): bits above it clear, and BC is clamped. -/
def widthSet (s : State) (c : Nat) : State :=
  let W := s.fl (CELL_SHCFG c) 5 0
  let s := s.setCell c { s.cell c with width := W, newW := 0 }
  (s.wr (CELL_SHIFT c) (s.rd (CELL_SHIFT c) &&& ones W)).setFl (CELL_SHSTAT c) 5 0 (min (s.fl (CELL_SHSTAT c) 5 0) W)

/-- The widths written before a tick of their cell that has come by now are in force (R45). -/
def widthsDue (s : State) : State :=
  s.cellH.foldl (fun s e =>
    if e.2.newW ≠ 0 ∧ (smGet 0 s.gridFrom (e.1 / 16) ≤ s.cycles) ∧ tickAfter s e.1 (e.2.newW - 1) ≤ s.cycles then widthSet s e.1
    else s) s

/-- A divider restart: A = 0, and tick 0 falls in the next cycle (R72, Table 3.4). -/
def dividerRestart (s : State) (c : Nat) : State :=
  s.setCell c { s.cell c with acc := 0, next := some (s.cycles + 1), due := 0 }

/-! ## Pins (R53, Table 2.6) -/

/-- PINS bit of the output data of pin A or B. -/
def dBit (pinB : Bool) : Nat := if pinB then 3 else 2

/-- PINS bit of the driver enable of pin A or B. -/
def oeBit (pinB : Bool) : Nat := if pinB then 5 else 4

/-- CELL_PINCFG.INV of a pin. -/
def pinInv (s : State) (c : Nat) (pinB : Bool) : Bool := s.bt (CELL_PINCFG c) (if pinB then 18 else 2)

/-- Setting a pin's output data bit and driver enable. -/
def setDrive (s : State) (c : Nat) (pinB d oe : Bool) : State :=
  (s.setBt (CELL_PINS c) (dBit pinB) d).setBt (CELL_PINS c) (oeBit pinB) oe

/-- Pass-through (CELL_MODE.PASS is not 0). -/
def inPass (s : State) (c : Nat) : Bool := s.fl (CELL_MODE c) 1 0 != 0

/-- Whether the last action on a pin was ODSHB. -/
def odPin (s : State) (c : Nat) (pinB : Bool) : Bool := if pinB then (s.cell c).odB else (s.cell c).odA

/-- Recording it. -/
def setOd (s : State) (c : Nat) (pinB v : Bool) : State :=
  s.setCell c (if pinB then { s.cell c with odB := v } else { s.cell c with odA := v })

/-- The logical sample of a pin whose ball has the level `ball` (R48, R53). -/
def sampleOf (s : State) (c : Nat) (pinB ball : Bool) : Bool := ball != pinInv s c pinB

/-- A pin action of Table 2.6 on the cell's own drive; nothing at the pad in pass-through (R77, R107). OEA and OEB show the enable
the actions set: an ODSHB release clears it, a release by CELL_PINCFG.OD does not (DESIGN CHOICE, log entry 85). -/
def pinAct (s : State) (c : Nat) (pinB : Bool) (act : Nat) : State :=
  if inPass s c ∨ act = 0 then s
  else
    let s := setOd s c pinB (act == 7)
    let d := s.bt (CELL_PINS c) (dBit pinB)
    let ob := s.bt (CELL_SHSTAT c) 8
    if act = 1 then setDrive s c pinB false true
    else if act = 2 then setDrive s c pinB true true
    else if act = 3 then s.setBt (CELL_PINS c) (oeBit pinB) false
    else if act = 4 then setDrive s c pinB ob true
    else if act = 5 then setDrive s c pinB (!ob) true
    else if act = 6 then setDrive s c pinB (!d) true
    else if act = 7 then setDrive s c pinB ob (ob == pinInv s c pinB)
    else s

/-! ## Timestamp capture (R55) -/

/-- A capture on a pin: stored while VALID is 0, else OVR and TSOVR. -/
def capture (s : State) (c : Nat) (pinB : Bool) (t : TB) (sub : Nat) : State :=
  let aNs := if pinB then CELL_TSB_NS c else CELL_TSA_NS c
  let aSec := if pinB then CELL_TSB_SEC c else CELL_TSA_SEC c
  if s.bt aSec 7 then (s.raise aSec 0x40).raise (CELL_IRQSTAT c) 0x20
  else ((s.wr aNs (BitVec.ofNat 32 t.ns)).setFl aSec 31 16 t.sec).setFl aSec 2 0 sub |>.raise aSec 0x80

/-! ## The entry (R42) -/

/-- The fields of a state-table entry that a tick uses (Table 2.4). -/
structure Entry where
  target : Nat
  nxt : Nat
  cpol : Bool
  cond : Nat
  dly : Nat
  swp : Bool
  irq : Bool
  halt : Bool
  pinA : Nat
  pinB : Nat
  shop : Nat
  fifo : Nat
  ct0 : Nat
  ct1 : Nat
  flag : Nat
  emit : Nat
  cap : Nat
  chk : Nat
  imm : Nat
deriving DecidableEq, Repr

/-- An entry from its two words, bits [31:0] and [63:32] (R42, R43). -/
def entryOf (lo hi : Word) : Entry :=
  { target := fld hi 31 25, nxt := fld hi 24 23, cpol := bitAt hi 22, cond := fld hi 21 17, dly := fld hi 16 9,
    swp := bitAt hi 8, irq := bitAt hi 7, halt := bitAt hi 6, pinA := fld hi 5 3, pinB := fld hi 2 0,
    shop := fld lo 31 29, fifo := fld lo 28 27, ct0 := fld lo 26 25, ct1 := fld lo 24 23, flag := fld lo 22 19,
    emit := fld lo 18 16, cap := fld lo 15 14, chk := fld lo 13 12, imm := fld lo 11 0 }

/-- The state-table word at address `a`: a free value where a forced test cut short has left it undefined (R447; DESIGN CHOICE,
log entry 4). -/
def bankRd (s : State) (a : Nat) : Word := if undefAt s a then Config.freeWord (2 ^ 64 + a) else s.rd a

/-- Entry `e` of bank `b` of a cell (R56). -/
def entryAt (s : State) (c b e : Nat) : Entry :=
  entryOf (bankRd s (CELL_BANK c (b * 256 + e * 2))) (bankRd s (CELL_BANK c (b * 256 + e * 2 + 1)))

/-! ## Cell state (R36, R58) -/

/-- STATUS.STATE: 0 STOPPED, 1 RUNNING, 2 STALLED. -/
def cellState (s : State) (c : Nat) : Nat := s.fl (CELL_STATUS c) 31 30

/-- A pending swap takes effect: ABANK changes, SWPEND clears, SWAPS increments (R58). -/
def doSwap (s : State) (c : Nat) : State :=
  ((s.setBt (CELL_STATUS c) 29 (!s.bt (CELL_STATUS c) 29)).setBt (CELL_STATUS c) 28 false).wrapInc (CELL_STATUS c) 7 0

/-- A software write of CT0, CT1 or the flags (`set`: the bit of Machine/State.lean's wrSet) completes in this cycle, or, where
the cell's tick of this cycle has run, in the next (R51, R64). -/
def wrMark (s : State) (c set : Nat) : State :=
  let h := s.cell c
  let t := if h.ran = s.cycles + 1 then s.cycles + 2 else s.cycles + 1
  s.setCell c { h with wrAt := t, wrSet := if h.wrAt = t ∧ h.wrSet / set % 2 = 0 then h.wrSet + set else if h.wrAt = t then h.wrSet else set }

/-- A software write of this cycle wins over an entry action on the register (R8, R51). -/
def wrWins (s : State) (c set : Nat) : Bool := (s.cell c).wrAt == s.cycles + 1 && (s.cell c).wrSet / set % 2 == 1

/-- Entering STOPPED other than by a reset: the position is kept and a pending swap takes effect (R36, R58). -/
def enterStopped (s : State) (c : Nat) : State :=
  let s := (s.setFl (CELL_STATUS c) 31 30 0).setFl (CELL_STATUS c) 27 26 0
  if s.bt (CELL_STATUS c) 28 then doSwap s c else s

/-- The effects of RESTART at an index (R38). -/
def restartCell (s : State) (c idx : Nat) : State :=
  let s := (s.wr (CELL_SHIFT c) 0).wr (CELL_SHSTAT c) 0
  let s := s.setCell c { s.cell c with fresh := true, sgs := false, step := false }
  let s := s.wr (CELL_EVLSN c) (s.rd (CELL_EVLSN c) &&& 0xBFBFBFBF)
  let s := (s.setFl (CELL_CT0 c) 15 0 (s.fl (CELL_CT0 c) 31 16)).setFl (CELL_CT1 c) 15 0 (s.fl (CELL_CT1 c) 31 16)
  let s := chkInit s (chkBase (.cell (Fin.ofNat 256 c)))
  let st := s.rd (CELL_STATUS c)
  s.wr (CELL_STATUS c) (setFld (setFld (setFld (setFld st 31 30 1) 27 24 0) 22 16 idx) 15 8 0)

/-! ## The phases of a tick (R34, R35) -/

/-- The shifter operation of phase 3 (Table 2.7): the state after, and the bit moved in and out (for CHK FEED). -/
def shopAct (s : State) (c op imm : Nat) (pa pb : Bool) : State × Option (Bool × Bool) :=
  let W := (s.cell c).width
  let dir := s.bt (CELL_SHCFG c) 8
  let sh := (s.rd (CELL_SHIFT c)).toNat
  let bc := s.fl (CELL_SHSTAT c) 5 0
  let outB := (if dir then sh / 2 ^ (W - 1) else sh) % 2 == 1
  let shifted (i : Bool) : Word :=
    BitVec.ofNat 32 (if dir then (sh * 2 + i.toNat) % 2 ^ W else sh / 2 + i.toNat * 2 ^ (W - 1))
  if op = 1 ∨ op = 2 then
    let i := if op = 1 then pa else pb
    (((s.wr (CELL_SHIFT c) (shifted i)).setBt (CELL_SHSTAT c) 9 i).setFl (CELL_SHSTAT c) 5 0 (min W (bc + 1)), some (i, i))
  else if op = 3 then
    (((s.wr (CELL_SHIFT c) (shifted false)).setBt (CELL_SHSTAT c) 8 outB).setFl (CELL_SHSTAT c) 5 0 (bc - 1),
      some (outB, outB))
  else if op = 4 ∨ op = 5 then
    let i := if op = 4 then pa else pb
    (((s.wr (CELL_SHIFT c) (shifted i)).setBt (CELL_SHSTAT c) 9 i).setBt (CELL_SHSTAT c) 8 outB, some (i, outB))
  else if op = 6 then ((s.wr (CELL_SHIFT c) 0).setFl (CELL_SHSTAT c) 5 0 0, none)
  else if op = 7 then ((s.wr (CELL_SHIFT c) (BitVec.ofNat 32 (imm % 2 ^ W))).setFl (CELL_SHSTAT c) 5 0 W, none)
  else (s, none)

/-- The status word of Table 2.11 (R52). -/
def statusWord (s : State) (c : Nat) (pa pb : Bool) : Word :=
  let k := chkBase (.cell (Fin.ofNat 256 c))
  BitVec.ofNat 32 (s.fl (CELL_FLAGS c) 3 0 * 2 ^ 28 + (s.bt (CHK_STATE k) 30).toNat * 2 ^ 27 +
    (s.bt (CHK_STATE k) 29).toNat * 2 ^ 26 + pb.toNat * 2 ^ 25 + pa.toNat * 2 ^ 24 +
    s.fl (CELL_SHSTAT c) 5 0 * 2 ^ 16 + s.fl (CELL_CT0 c) 15 0)

/-- The FIFO operation of phase 3 (Table 2.8). -/
def fifoAct (s : State) (c op : Nat) (pa pb : Bool) : State :=
  let W := (s.cell c).width
  if op = 1 then
    match fifoOf s false c with
    | [] => s
    | w :: r =>
      ((setFifo s false c r).wr (CELL_SHIFT c) (BitVec.ofNat 32 (w.toNat % 2 ^ W))).setFl (CELL_SHSTAT c) 5 0 W
  else if op = 2 then
    ((rxPush s c false (s.rd (CELL_SHIFT c))).wr (CELL_SHIFT c) 0).setFl (CELL_SHSTAT c) 5 0 0
  else if op = 3 then rxPush s c true (statusWord s c pa pb)
  else s

/-- A counter operation of phase 3 (Table 2.8) on CT0 or CT1 at address `a`. -/
def ctAct (s : State) (a op imm : Nat) : State :=
  if op = 1 then s.setFl a 15 0 (s.fl a 15 0 - 1)
  else if op = 2 then s.setFl a 15 0 (s.fl a 31 16)
  else if op = 3 then s.setFl a 15 0 imm
  else s

/-- The flag operation of phase 3 (Table 2.8). -/
def flagAct (s : State) (c op : Nat) : State :=
  let i := op % 4
  if op / 4 = 1 then s.setBt (CELL_FLAGS c) i true
  else if op / 4 = 2 then s.setBt (CELL_FLAGS c) i false
  else if op / 4 = 3 then s.setBt (CELL_FLAGS c) i (!s.bt (CELL_FLAGS c) i)
  else s

/-- The check action of phase 3 (Table 2.8, R90). -/
def chkAct (s : State) (c op : Nat) (moved : Option (Bool × Bool)) : State :=
  let k := chkBase (.cell (Fin.ofNat 256 c))
  if op = 1 then
    match moved with
    | none => s
    | some (i, o) => chkFeedBit s k (s.bt (CELL_SHCFG c) 8) (if chkMode s k = 0 then o else i)
  else if op = 2 then chkEnd s k (some c)
  else if op = 3 then chkInit s k
  else s

/-- The channel a drive slot pulses, if it is enabled (R103). -/
def driveSlot (s : State) (c k : Nat) : List Nat :=
  if s.bt (CELL_EVDRV c) (8 * k + 7) then [s.fl (CELL_EVDRV c) (8 * k + 5) (8 * k)] else []

/-- Phase 3 (Table 2.2): SHOP, FIFO, CT0, CT1, FLAG, CHK, CAP, EMIT, PINA and PINB, IRQ, each seeing the results of those
before it; with the channels pulsed. -/
def phase3 (s : State) (c : Nat) (e : Entry) (pa pb : Bool) : State × List Nat :=
  let (s, moved) := shopAct s c e.shop e.imm pa pb
  let s := fifoAct s c e.fifo pa pb
  let s := if wrWins s c 1 then s else ctAct s (CELL_CT0 c) e.ct0 e.imm
  let s := if wrWins s c 2 then s else ctAct s (CELL_CT1 c) e.ct1 e.imm
  let s := if wrWins s c 4 then s else flagAct s c e.flag
  let s := chkAct s c e.chk moved
  let s := if e.cap % 2 = 1 then capture s c false (s.tb 0) 0 else s
  let s := if 2 ≤ e.cap then capture s c true (s.tb 0) 0 else s
  let ch := if 4 ≤ e.emit then driveSlot s c (e.emit % 4) else []
  let s := pinAct s c false e.pinA
  let s := pinAct s c true e.pinB
  (if e.irq then s.raise (CELL_IRQSTAT c) 0x1 else s, ch)

/-- The condition source of Table 2.9, before CPOL. -/
def condAt (s : State) (c cond : Nat) (pa pb preA preB : Bool) : Bool :=
  let k := chkBase (.cell (Fin.ofNat 256 c))
  let W := (s.cell c).width
  match cond with
  | 0 => true
  | 1 => pa
  | 2 => pb
  | 3 => pa && !preA
  | 4 => !pa && preA
  | 5 => pb && !preB
  | 6 => !pb && preB
  | 7 => s.fl (CELL_CT0 c) 15 0 == 0
  | 8 => s.fl (CELL_CT1 c) 15 0 == 0
  | 9 => s.fl (CELL_SHSTAT c) 5 0 == 0
  | 10 => s.fl (CELL_SHSTAT c) 5 0 == W
  | 11 => s.bt (CELL_SHIFT c) (if s.bt (CELL_SHCFG c) 8 then W - 1 else 0)
  | 12 => s.bt (CELL_SHSTAT c) 9
  | 13 | 14 | 15 | 16 => s.bt (CELL_FLAGS c) (cond - 13)
  | 17 | 18 | 19 | 20 => s.bt (CELL_EVLSN c) (8 * (cond - 17) + 6)
  | 21 => txEmpty s c
  | 22 => rxFull s c
  | 23 => s.bt (CHK_STATE k) 29
  | 24 => (s.bt (CELL_PINS c) 4 || odPin s c false) && pa != s.bt (CELL_PINS c) 2
  | 25 => (s.bt (CELL_PINS c) 5 || odPin s c true) && pb != s.bt (CELL_PINS c) 3
  | 26 => (s.cell c).sgs
  | _ => false

/-- The clearing of a latch that phase 4 evaluates and reads as 1 (R49). -/
def clearLatch (s : State) (c cond : Nat) : State :=
  if 17 ≤ cond ∧ cond ≤ 20 then s.setBt (CELL_EVLSN c) (8 * (cond - 17) + 6) false
  else if cond = 26 then s.setCell c { s.cell c with sgs := false }
  else s

/-- Phase 4 (R44, R35, R58): the successor, a permitted swap, HALT. `step`: the tick of a STEP, which leaves the cell
STOPPED; whether its HALT sets IRQSTAT.HALT the spec does not say, and here it does not (DESIGN CHOICE, log entry 84). -/
def phase4 (s : State) (c : Nat) (e : Entry) (pa pb preA preB step : Bool) : State :=
  let idx := s.fl (CELL_STATUS c) 22 16
  let src := condAt s c e.cond pa pb preA preB
  let evald := e.nxt = 1 ∨ e.nxt = 2
  let cond := src != e.cpol
  let s := if evald ∧ src then clearLatch s c e.cond else s
  if e.nxt = 2 ∧ cond = false then s.setBt (CELL_STATUS c) 25 true
  else
    let nxt := if e.nxt = 0 ∨ (e.nxt = 1 ∧ cond = false) then (idx + 1) % 128 else e.target
    let s := (s.setFl (CELL_STATUS c) 22 16 nxt).setBt (CELL_STATUS c) 25 false
    let s := if e.swp ∧ s.bt (CELL_STATUS c) 28 then doSwap s c else s
    if e.halt ∧ step = false then (enterStopped s c).raise (CELL_IRQSTAT c) 0x2 else s

/-- An entry's first tick: reserved encodings (R41), the stall test (R40), the actions and, at DLY 0, phase 4. -/
def firstTick (s : State) (c : Nat) (pa pb preA preB step : Bool) : State × List Nat :=
  let e := entryAt s c (s.fl (CELL_STATUS c) 29 29) (s.fl (CELL_STATUS c) 22 16)
  if 27 ≤ e.cond then
    (((enterStopped s c).raise (CELL_STATUS c) 0x01000000).raise (CELL_IRQSTAT c) 0x4, [])
  else
    let pull := e.fifo == 1 && txEmpty s c
    let push := decide (2 ≤ e.fifo) && rxFull s c
    if pull || push then
      if step then (s, [])
      else
        let was := cellState s c
        let s := (s.setFl (CELL_STATUS c) 31 30 2).setFl (CELL_STATUS c) 27 26 (if pull then 2 else 1)
        (if was = 2 then s else s.raise (CELL_IRQSTAT c) (if pull then 0x8 else 0x10), [])
    else
      let s := if step then s else (s.setFl (CELL_STATUS c) 31 30 1).setFl (CELL_STATUS c) 27 26 0
      let (s, ch) := phase3 s c e pa pb
      let s := s.setFl (CELL_STATUS c) 15 8 e.dly
      (if e.dly = 0 then phase4 s c e pa pb preA preB step else s, ch)

/-- The phases of one tick of a cell that runs (R35): the sample, then the first tick of an entry, a delay tick or the
tick of a wait. -/
def tickBody (s : State) (c : Nat) (pa pb step : Bool) : State × List Nat :=
  let h := s.cell c
  let preA := if h.fresh then pa else h.prevA
  let preB := if h.fresh then pb else h.prevB
  let s := s.setCell c { h with prevA := pa, prevB := pb, fresh := false }
  let s := if cellState s c = 2 ∧ s.bt (CELL_STATUS c) 28 then doSwap s c else s
  let rem := s.fl (CELL_STATUS c) 15 8
  let e := entryAt s c (s.fl (CELL_STATUS c) 29 29) (s.fl (CELL_STATUS c) 22 16)
  if rem ≠ 0 then
    let s := s.setFl (CELL_STATUS c) 15 8 (rem - 1)
    (if rem = 1 then phase4 s c e pa pb preA preB step else s, [])
  else if s.bt (CELL_STATUS c) 25 then (phase4 s c e pa pb preA preB step, [])
  else firstTick s c pa pb preA preB step

/-- What a tick does to a cell that runs it: `bad` where the entry it fetches cannot be corrected, which acts as a reserved
encoding (R41, R441). A STEP runs one tick and leaves the cell STOPPED (Table 2.3). -/
def tickRun (s : State) (c : Nat) (pa pb bad : Bool) : State × List Nat :=
  let step := (s.cell c).step
  let s := s.setCell c { s.cell c with step := false }
  if bad then
    let s := s.setCell c { s.cell c with prevA := pa, prevB := pb, fresh := false }
    let s := if cellState s c = 2 ∧ s.bt (CELL_STATUS c) 28 then doSwap s c else s
    (((enterStopped s c).raise (CELL_STATUS c) 0x01000000).raise (CELL_IRQSTAT c) 0x4, [])
  else tickBody s c pa pb step

/-- The cell runs the tick of this cycle: it is not STOPPED, or a STEP is to come; and no CELL_CTRL command completes in this
cycle (R39). -/
def tickRuns (s : State) (c : Nat) : Bool :=
  (cellState s c != 0 || (s.cell c).step) && decide ((s.cell c).cmdAt ≤ s.cycles)

/-- A tick of the cell's divider with the synchronised levels of the pins, with the channels pulsed (R34, R39). `runs`: its phases
run. -/
def cellTickOp (s : State) (c : Nat) (pa pb runs bad : Bool) : State × List Nat :=
  let s := s.setCell c { s.cell c with ran := s.cycles + 1 }
  let s := (s.setBt (CELL_PINS c) 0 pa).setBt (CELL_PINS c) 1 pb
  if runs then tickRun s c pa pb bad else (s, [])

/-- A STOP, RESTART, RESUME or STEP completes in this cycle, or, where the cell's tick of this cycle has run, in the next: no
tick of that cycle runs (R39). -/
def cmdMark (s : State) (c : Nat) : State :=
  s.setCell c { s.cell c with cmdAt := if (s.cell c).ran = s.cycles + 1 then s.cycles + 2 else s.cycles + 1 }

/-- A CELL_CTRL command (Table 2.17): 1 RESTART, 2 STOP, 3 RESUME, 4 SWAP, 5 FLUSHTX, 6 FLUSHRX, 7 STEP, whose tick is the first of
a later cycle (R36, R39). -/
def cellCommand (s : State) (c cmd idx : Nat) : State :=
  if cmd = 1 then restartCell (cmdMark s c) c idx
  else if cmd = 2 then (if cellState s c = 0 then cmdMark s c else enterStopped (cmdMark s c) c)
  else if cmd = 3 then
    (if cellState s c = 0 then
      let s := cmdMark s c
      (s.setCell c { s.cell c with step := false }).setFl (CELL_STATUS c) 31 30 1
     else s)
  else if cmd = 4 then
    (if s.bt (CELL_STATUS c) 28 then s
     else if cellState s c = 0 then doSwap s c else s.setBt (CELL_STATUS c) 28 true)
  else if cmd = 5 then flushFifo s false c
  else if cmd = 6 then flushFifo s true c
  else if cmd = 7 then
    (if cellState s c = 0 then
      let s := cmdMark s c
      s.setCell c { s.cell c with step := true }
     else s)
  else s

/-! ## Register rules of a cell -/

/-- A DMA channel that is enabled on a FIFO: the MODE directions of R81. -/
def dmaBound (s : State) (rx : Bool) (c : Nat) : Bool :=
  (List.range 32).any (fun i =>
    let cfg := s.rd (EVF_DMA_CFG i)
    bitAt cfg 31 && fld cfg 23 16 == c && (if rx then fld cfg 30 29 == 0 || fld cfg 30 29 == 2 else fld cfg 30 29 == 1))

/-- The FIFO an access names is closed to it: a donor (R66) or a FIFO a DMA channel serves (R81). -/
def fifoClosed (s : State) (rx : Bool) (c : Nat) : Bool := donor s rx c || dmaBound s rx c

/-- A word appended to the TX FIFO: none if it is full (Table 2.25). -/
def txAppend (s : State) (c : Nat) (v : Word) : Option State :=
  if depth s false c ≤ (fifoOf s false c).length then none
  else some (fifoMark (setFifo s false c (fifoOf s false c ++ [BitVec.ofNat 33 v.toNat])) c 1 0)

/-- The RX head removed: none if the FIFO is empty (Table 2.25). -/
def rxTake (s : State) (c : Nat) : Option (BitVec 33 × State) :=
  match fifoOf s true c with
  | [] => none
  | w :: r => some (w, fifoMark (setFifo s true c r) c 0 1)

/-- The FIFOs of a direction are empty in every run that holds `c` or `c + 1` (R67). -/
def runsEmpty (s : State) (rx : Bool) (c : Nat) : Bool :=
  (fifoOf s rx (owner s rx c)).isEmpty && (fifoOf s rx (owner s rx (c + 1))).isEmpty

/-- A FIFOCFG write that R67 accepts. -/
def joinOk (s : State) (c : Nat) (v : Word) : Bool :=
  let old := s.rd (CELL_FIFOCFG c)
  let s' := s.wr (CELL_FIFOCFG c) (v &&& 3)
  let chT := bitAt old 0 != bitAt v 0
  let chR := bitAt old 1 != bitAt v 1
  if c % 16 = 15 then true
  else if !chT && !chR then true
  else cellState s c == 0 && cellState s (c + 1) == 0 &&
    (!chT || (runsEmpty s false c && runsEmpty s' false c)) && (!chR || (runsEmpty s true c && runsEmpty s' true c))

/-- The cells bound to a unit in a mode (R75). -/
def boundCells (s : State) (pass unit : Nat) : List Nat :=
  ((s.listed (fun a => decide (0x30000000 ≤ a) && decide (a < 0x30100000) && a % 0x1000 == 8)).filter
    (fun e => fld e.2 1 0 == pass && fld e.2 12 8 == unit)).map (fun e => (e.1 - 0x30000000) / 0x1000)

/-- A CELL_MODE write that R76 accepts. -/
def modeOk (s : State) (c : Nat) (v : Word) : Bool :=
  let pass := fld v 1 0
  let others := (boundCells s pass (fld v 12 8)).filter (fun x => x != c)
  if pass = 0 then true
  else if pass = 1 then others.isEmpty
  else match others with
    | [] => true
    | [o] => o / 16 == c / 16 && (o + 1 == c || c + 1 == o)
    | _ => false

/-- A write that a cell's own rules refuse (R57, R58, R60, R66, R67, R76, R81); offsets as in Table 2.16. -/
def cellRefuses (s : State) (c off : Nat) (v : Word) : Bool :=
  let stopped := cellState s c == 0
  if off = 0x00 then decide (8 ≤ fld v 3 0)
  else if off = 0x08 then !stopped || fld v 1 0 == 3 || !modeOk s c v
  else if off = 0x0C then fld v 5 0 == 0 || decide (32 < fld v 5 0)
  else if off = 0x10 then fld v 23 8 == 0
  else if off = 0x18 then !joinOk s c v
  else if off = 0x20 then fifoClosed s false c
  else if off = 0x28 then !stopped
  else if off = 0x2C then !stopped || decide ((s.cell c).width < fld v 5 0)
  else if off = 0x44 then fld v 1 0 == 3 || fld v 17 16 == 3
  else if 0x800 ≤ off then
    s.bt (CELL_STATUS c) 28 || (!stopped && (off / 0x400 % 2 == (s.bt (CELL_STATUS c) 29).toNat))
  else if 0x100 ≤ off ∧ off < 0x140 then chkRefuses off v true false stopped
  else false

/-- A new CELL_PINCFG at one pin: INV acts at once on the synchronised level and on a driver that ODSHB left following the
ball level (R48, R53). -/
def invChange (old s : State) (c : Nat) (pinB : Bool) : State :=
  let b := if pinB then 1 else 0
  let s := if pinInv old c pinB = pinInv s c pinB then s else s.setBt (CELL_PINS c) b (!s.bt (CELL_PINS c) b)
  if odPin s c pinB then s.setBt (CELL_PINS c) (oeBit pinB) (s.bt (CELL_PINS c) (dBit pinB) == pinInv s c pinB) else s

/-- A write that a cell's rules accept, but for CELL_CTRL commands, TXDATA and CELL_MODE, with its effect. -/
def cellPlainWrite (s : State) (c off : Nat) (v : Word) : State :=
  if off = 0x18 then (if c % 16 = 15 then s else s.softWrite (CELL_FIFOCFG c) v)
  else if off = 0x0C then
    let s := s.softWrite (CELL_SHCFG c) v
    s.setCell c { s.cell c with newW := if s.fl (CELL_SHCFG c) 5 0 = (s.cell c).width then 0 else s.cycles + 1 }
  else if off = 0x10 then (gridHold s c).softWrite (CELL_DIV c) v
  else if off = 0x30 then wrMark (s.softWrite (CELL_CT0 c) v) c 1
  else if off = 0x34 then wrMark (s.softWrite (CELL_CT1 c) v) c 2
  else if off = 0x38 then wrMark (s.softWrite (CELL_FLAGS c) v) c 4
  else if off = 0x44 then
    let s1 := s.softWrite (CELL_PINCFG c) v
    invChange s (invChange s s1 c false) c true
  else if off = 0x28 then s.softWrite (CELL_SHIFT c) (v &&& ones ((s.cell c).width))
  else if 0x100 ≤ off ∧ off < 0x140 then chkWrite s (chkBase (.cell (Fin.ofNat 256 c))) off v (some c)
  else if 0x800 ≤ off then
    let a := 0x30000000 + c * 0x1000 + off
    (s.define a (a + 4)).softWrite a v
  else s.softWrite (0x30000000 + c * 0x1000 + off) v

/-- The word a read of a cell register returns where it is formed from other state: FIFOSTAT's levels (Table 2.24, R66). -/
def cellReadWord (s : State) (c off : Nat) : Word :=
  let w := s.rd (0x30000000 + c * 0x1000 + off)
  if off = 0x1C then
    let tx := if donor s false c then 0 else (fifoOf s false c).length
    let rx := if donor s true c then 0 else (fifoOf s true c).length
    let kind := if donor s true c then false else ((fifoOf s true c).head?.map (fun e => decide (2 ^ 32 ≤ e.toNat))).getD false
    setFld (setFld (putBit w 16 kind) 14 8 rx) 6 0 tx
  else if 0x800 ≤ off then bankRd s (0x30000000 + c * 0x1000 + off)
  else w

end Sys2Proof.Machine
end

