-- ==== Sys2Proof/Machine/Keepers.lean ====
section
/-! DEFINITION. Pin keepers, safe codes and the fuse reset states of the pins (R37, R368, R404 to R406). Pin i is pin A of
cell i / 2 when i is even, pin B when it is odd. -/

namespace Sys2Proof.Machine

/-- Bit offset of a pin's half in CELL_PINCFG. -/
def pinHalf (pinB : Bool) : Nat := if pinB then 16 else 0

/-- The PINMAP code of a pin: 0b00 until COMMIT (R368). -/
def pinMap (s : State) (i : Nat) : Nat :=
  if s.bt LDR_FUSESTAT 31 then s.fl (LDR_FUSE (24 + i / 16)) (2 * (i % 16) + 1) (2 * (i % 16)) else 0

/-- CELL_PINCFG.PULL of a pin reset code (Table 17.2). -/
def codePull (code : Nat) : Nat := if code = 1 then 0 else if code = 2 then 2 else 1

/-- The pin takes its fuse reset state in its cell's registers (R37, R368). -/
def pinReset (s : State) (i : Nat) : State :=
  let c := i / 2
  let b := i % 2 == 1
  let h := pinHalf b
  let code := pinMap s i
  ((s.setFl (CELL_PINCFG c) (h + 1) h (codePull code)).setBt (CELL_PINS c) (dBit b) false).setBt (CELL_PINS c) (oeBit b)
    (code == 3)

/-- The pins of a group take their fuse reset states. -/
def groupPinReset (s : State) (g : Nat) : State := (List.range 32).foldl (fun s k => pinReset s (32 * g + k)) s

/-- The drive of a pin at the ball: level, driver enable and pull (R53, Table 2.30). A released pin's level is the one
sampled. -/
def ballDrive (s : State) (i : Nat) : KeepH :=
  let c := i / 2
  let b := i % 2 == 1
  let h := pinHalf b
  let level := s.bt (CELL_PINS c) (dBit b) != pinInv s c b
  let oe := s.bt (CELL_PINS c) (oeBit b) && !(s.bt (CELL_PINCFG c) (h + 3) && level)
  { level := if oe then level else s.bt (CELL_PINS c) (if b then 1 else 0) != pinInv s c b, oe := oe,
    pull := s.fl (CELL_PINCFG c) (h + 1) h }

/-- The safe code of a pin, and its control-loss bit (R404). -/
def safeCode (s : State) (i : Nat) : Nat := s.fl (RST_SAFE (i / 8)) (4 * (i % 8) + 1) (4 * (i % 8))
/-- CL of a pin. -/
def ctlLoss (s : State) (i : Nat) : Bool := s.bt (RST_SAFE (i / 8)) (4 * (i % 8) + 2)

/-- What the keeper of a pin holds when it engages (R404). -/
def keepState (s : State) (i : Nat) : KeepH :=
  let now := ballDrive s i
  match safeCode s i with
  | 0 => { level := false, oe := pinMap s i == 3, pull := codePull (pinMap s i) }
  | 1 => { level := false, oe := true, pull := now.pull }
  | 2 => { level := true, oe := true, pull := now.pull }
  | _ => now

/-- The conditions of Table 18.11 that cover a whole bank. -/
def bankKept (s : State) (g : Nat) : Bool :=
  s.holdSafe || s.pllSafe || s.fl (EVF_SHD_STATUS g) 31 29 == 4 ||
    (!bitAt s.coldHeld g && (inReset s (blkGrp g) || domOff s (9 + g)))

/-- A condition of Table 18.11 covers the pin. A cold reset releases every keeper. -/
def pinKept (s : State) (bank : Bool) (i : Nat) : Bool :=
  s.srcs.toNat % 128 == 0 && (bank || (s.bt ARB_STATUS 29 && ctlLoss s i))

/-- What the keeper of a pin holds, if it is engaged. -/
def kept (s : State) (i : Nat) : Option KeepH := smGet none s.keep i

/-- One pin after a change of the conditions: first engagement fixes the level, the end of the last condition lets go
(R405). -/
def keepPin (bank : Bool) (s : State) (i : Nat) : State :=
  match kept s i, pinKept s bank i with
  | none, true => { s with keep := smSet none s.keep i (some (keepState s i)) }
  | some _, false => { s with keep := smSet none s.keep i none }
  | _, _ => s

/-- KEEPER_ENGAGE and release, over every pin (R405). -/
def keepSync (s : State) : State :=
  (List.range 16).foldl (fun s g =>
    (List.range 32).foldl (fun s k => keepPin (bankKept s g) s (32 * g + k)) s) s

/-- KEEPER_HANDBACK of a group that leaves reset: the cells take the keepers' drive (R406). -/
def handBack (s : State) (g : Nat) : State :=
  (List.range 32).foldl (fun s k =>
    let i := 32 * g + k
    match kept s i with
    | none => s
    | some x =>
      let c := i / 2
      let b := i % 2 == 1
      let h := pinHalf b
      let s := (s.setBt (CELL_PINS c) (oeBit b) x.oe).setBt (CELL_PINS c) (dBit b) (x.level != pinInv s c b)
      s.setFl (CELL_PINCFG c) (h + 1) h x.pull) s

end Sys2Proof.Machine
end

