-- ==== Sys2Proof/Machine/Arbiter.lean ====
section
/-! DEFINITION. The leadership arbiter: health, heartbeats, the token, SAFE and its commands (R340 to R350). Pair 0 is A,
pair 1 is B. What a released or reset pair does besides is in Machine/Reset.lean. -/

namespace Sys2Proof.Machine

/-- Bit of ARB_STATUS: HEALTH, READY, LSF and HBTO of a pair (Table 15.6). -/
def stBit (p k : Nat) : Nat := if p = 0 then 20 + k else 16 + k

/-- ARB_CFG.MODE: 0 unused, 1 duplex, 2 single pair (R340). -/
def arbMode (s : State) : Nat := s.fl ARB_CFG 31 30

/-- The cycle of a pair's last heartbeat, or of its release. -/
def beatAt (s : State) (p : Nat) : Nat := if p = 0 then s.arbH.beatA else s.arbH.beatB

/-- Setting it. -/
def setBeat (s : State) (p : Nat) : State :=
  { s with arbH := if p = 0 then { s.arbH with beatA := s.cycles } else { s.arbH with beatB := s.cycles } }

/-- The heartbeat age of a pair in microseconds (R341). -/
def beatAge (s : State) (p : Nat) : Nat := (s.cycles - beatAt s p) / 1000

/-- A pair is healthy (R341). -/
def healthy (s : State) (p : Nat) : Bool :=
  arbMode s != 0 && !domOff s 8 && !inReset s (8 + p) && !s.bt ARB_STATUS (stBit p 1) && s.bt ARB_STATUS (stBit p 2) &&
    decide (beatAge s p ≤ s.fl ARB_CFG 15 0)

/-- The fault count of a pair (R342). -/
def faultCount (s : State) (p : Nat) : Nat := s.fl ARB_FCNT (8 * p + 7) (8 * p)

/-- A fault of a pair counted (R342); pair A's is remembered until its release (R343). -/
def countFault (s : State) (p : Nat) : State :=
  let s := s.satInc ARB_FCNT (8 * p + 7) (8 * p)
  if p = 0 then { s with arbH := { s.arbH with failedA := true } } else s

/-- SAFE_ENTRY: with no holder, SAFE becomes 1 and the keepers take the control-loss pins (R343, R346). -/
def safeEntry (s : State) : State :=
  if arbMode s ≠ 0 ∧ holder s = 0 ∧ s.bt ARB_STATUS 29 = false then
    keepSync (((s.setBt ARB_STATUS 29 true).wrapInc ARB_MOVES 15 0).raise ARB_IRQSTAT 0x4)
  else s

/-- TOKEN_MOVE: the holder becomes `nxt` (R343, R344). A token lost otherwise than by resignation withdraws a pending one. -/
def tokenMove (s : State) (nxt cause : Nat) (aligned : Bool) : State :=
  let old := holder s
  let s := (s.setFl ARB_STATUS 31 30 nxt).setBt ARB_STATUS 27 false
  let s := s.wr ARB_LAST (BitVec.ofNat 32 (old * 2 ^ 30 + nxt * 2 ^ 28 + cause * 2 ^ 25 + aligned.toNat * 2 ^ 24))
  let s := ((s.wr ARB_LAST_NS (BitVec.ofNat 32 (s.tb 0).ns)).wrapInc ARB_MOVES 31 16).raise ARB_IRQSTAT 0x1
  if aligned then s else s.setBt ARB_STATUS 28 true

/-- The pair that takes a free token: the one with fewer faults if both are healthy, A in a tie (R343). -/
def tokenChoice (s : State) : Nat :=
  if healthy s 1 = false then 1 else if healthy s 0 = false then 2 else if faultCount s 1 < faultCount s 0 then 2 else 1

/-- A fault of a pair that clears its READY: heartbeat timeout (cause 2) or escalation (cause 4). -/
def pairFault (s : State) (p cause : Nat) : State :=
  let s := (countFault s p).setBt ARB_STATUS (stBit p 2) false
  if cause = 2 then (s.setBt ARB_STATUS (stBit p 0) true).raise ARB_IRQSTAT 0x10 else s.raise ARB_IRQSTAT 0x8

/-- The heartbeat age of a ready pair exceeds HBTO (R341). -/
def beatLate (s : State) (p : Nat) : Bool :=
  s.bt ARB_STATUS (stBit p 2) && decide (s.fl ARB_CFG 15 0 < beatAge s p)

/-- Heartbeat timeouts recorded (R341). -/
def beatRecord (s : State) : State :=
  let l := [0, 1].filter (beatLate s)
  l.foldl (fun s p => pairFault s p 2) s

/-- The cause recorded when the holder is found unhealthy (R343): that of the event, if it is the holder's, and a timeout
before a reset. -/
def loseCause (h : Nat) (late : Bool) (ev : Option (Nat × Nat)) : Nat :=
  match ev with
  | some (p, c) => if p + 1 = h ∧ ¬ (c = 5 ∧ late) then c else if late then 2 else 5
  | none => if late then 2 else 5

/-- The evaluation at a CLK_RC edge, after the event `ev` (pair, cause) has been recorded, with a resignation due, aligned
or not (R343). -/
def arbEval (s : State) (ev : Option (Nat × Nat)) (due : Option Bool) : State :=
  let h := holder s
  let o := 2 - h
  let late := beatLate s (h - 1)
  let s := beatRecord s
  let s :=
    if h ≠ 0 ∧ healthy s (h - 1) = false then tokenMove s (if healthy s o then o + 1 else 0) (loseCause h late ev) false
    else
      match due with
      | none => s
      | some aligned =>
        if h = 0 then s
        else if healthy s o then tokenMove s (o + 1) 1 aligned
        else ((s.setBt ARB_STATUS 27 false).setBt ARB_STATUS 26 true).raise ARB_IRQSTAT 0x2
  let s := if holder s = 0 ∧ (healthy s 0 || healthy s 1) then tokenMove s (tokenChoice s) 0 false else s
  safeEntry s

/-- failed(a) of R343. -/
def failedA (s : State) : Bool :=
  s.bt ARB_STATUS 21 || s.arbH.failedA ||
    (!s.arbH.claimedA && !inReset s 8 && decide (s.fl ARB_CFG 15 0 < beatAge s 0))

/-- The spare is to be released (R343). -/
def spareDue (s : State) : Bool := arbMode s == 2 && s.bt ARB_CFG 28 && s.bt ARB_STATUS 25 && failedA s

/-- HEARTBEAT_TIMEOUT: the age of a ready pair exceeds HBTO (R341). -/
def beatTimeout (s : State) (p : Nat) : State :=
  if beatLate s p then arbEval s none none else s

/-- A heartbeat of a pair (R341). -/
def heartbeatOf (s : State) (p : Nat) : State := (setBeat s p).wrapInc (ARB_HB p) 15 0

/-- A RESIGN falls due at once: ALIGN is 0 or commits are disabled (R344). -/
def resignNow (s : State) : Bool := !s.bt ARB_CFG 29 || !s.bt IMG_CTRL 31

/-- The first CLK_RC edge at or after a cycle: CLK_RC has an edge every 50 cycles (DESIGN CHOICE, log entry 88). -/
def rcEdge (t : Nat) : Nat := (t + 49) / 50 * 50

/-- RESIGN_DUE: an aligned resignation falls due at the first CLK_RC edge at least 50 ns after the commit instant that follows it, or
once CEN has cleared (R344). -/
def resignDue (s : State) : State :=
  if s.bt ARB_STATUS 27 = false then s
  else if s.bt IMG_CTRL 31 = false then arbEval s none (some false)
  else if s.arbH.resignE + 1 < s.imgE ∨ (s.arbH.resignE < s.imgE ∧ rcEdge (s.imgAt + 50) ≤ s.cycles) then arbEval s none (some true)
  else s

/-- CLAIM of pair p (Table 15.3). -/
def arbClaim (s : State) (p : Nat) : State :=
  let s := (s.setBt ARB_STATUS (stBit p 2) true).setBt ARB_STATUS (stBit p 0) false
  arbEval (if p = 0 then { s with arbH := { s.arbH with claimedA := true } } else s) none none

/-- RESIGN of the holder (Table 15.3, R344). -/
def arbResign (s : State) : State :=
  let s := s.setBt ARB_STATUS 27 true
  if resignNow s then arbEval s none (some false) else { s with arbH := { s.arbH with resignE := s.imgE } }

/-- SAFEREL: SAFE ends and the pins go back to their cells (R346). -/
def arbSaferel (s : State) : State := keepSync (s.setBt ARB_STATUS 29 false)

/-- A command but for REARM, written by master `m` (Table 15.3). -/
def arbCommand (s : State) (m op pair : Nat) : State × Resp :=
  let p := m - 9
  let isPair := m == 9 || m == 10
  if op = 1 ∧ isPair ∧ inReset s (8 + p) = false then accept (arbClaim s p)
  else if op = 2 ∧ isPair ∧ holder s ≠ p + 1 then accept (arbEval (s.setBt ARB_STATUS (stBit p 2) false) none none)
  else if op = 3 ∧ isPair ∧ holder s = p + 1 ∧ s.bt ARB_STATUS 27 = false then accept (arbResign s)
  else if op = 4 ∧ isPair then accept (arbEval (pairFault s p 4) (some (p, 4)) none)
  else if op = 4 ∧ (m = 31 ∨ (m ≠ 0 ∧ s.fl ARB_CFG 20 16 = m)) then accept (arbEval (pairFault s pair 4) (some (pair, 4)) none)
  else if op = 5 ∧ isPair ∧ holder s = p + 1 ∧ s.bt ARB_STATUS 29 then accept (arbSaferel s)
  else refuse s

/-- A REARM that Table 15.3 accepts. -/
def rearmOk (s : State) (m pair : Nat) : Bool :=
  (m == 16 || m == 31 || ((m == 9 || m == 10) && holder s == m - 8)) &&
    (s.bt ARB_STATUS (stBit pair 1) || (pair == 1 && s.bt ARB_STATUS 25))

/-- The flags a REARM clears: the pair's reset sources go with them. -/
def rearmFlags (s : State) (pair : Nat) : State :=
  let s := s.setBt ARB_STATUS (stBit pair 1) false
  if pair = 1 then s.setBt ARB_STATUS 25 false else s

/-- A write of FCNT (R342). -/
def fcntWrite (s : State) (m : Nat) (v : Word) : State × Resp :=
  if m = 16 ∨ m = 31 then accept (if bitAt v 31 then s.wr ARB_FCNT 0 else s) else refuse s

/-- A value of ARB_CFG or ARB_ENTRY that its field descriptions reserve (Tables 15.6, 15.7). -/
def arbReserved (off : Nat) (v : Word) : Bool :=
  if off = 0 then fld v 31 30 == 3 || (decide (17 ≤ fld v 20 16) && decide (fld v 20 16 ≤ 30)) || fld v 15 0 == 0
  else if off = 0x34 then v.toNat % 4 != 0 || decide (v.toNat < 0x40000000) || decide (0x40200000 ≤ v.toNat)
  else false

/-- The word a read of an arbiter register returns: health and ages as they stand (Tables 15.6, 15.7). -/
def arbReadWord (s : State) (off : Nat) : Word :=
  let w := s.rd (ARB_CFG + off)
  if off = 4 then putBit (putBit w 23 (healthy s 0)) 19 (healthy s 1)
  else if off = 0xC ∨ off = 0x10 then
    setFld w 31 16 (if wideReset s then 0 else min 65535 (beatAge s ((off - 0xC) / 4)))
  else w

end Sys2Proof.Machine
end

