-- ==== Sys2Proof/Machine/Time.lean ====
section
/-! DEFINITION. The time unit (R171 to R196): captures, commands, discipline, trigger comparison, the timestamp queue and
1PPS_OUT. What a trigger does at its target is in Machine/Triggers.lean. -/

namespace Sys2Proof.Machine

/-! ## Capture ports (R179) -/

/-- A capture at port `i` of its timebase, `sub` eighths of a nanosecond into the cycle (R177). -/
def tuCapture (s : State) (i sub : Nat) : State :=
  if s.bt (TU_CAP_CFG i) 31 = false then s
  else if s.bt (TU_CAP_SEC i) 7 then s.raise (TU_CAP_SEC i) 0x40
  else
    let t := (s.tb (s.fl (TU_CAP_CFG i) 9 8)).after sub
    (s.wr (TU_CAP_NS i) (BitVec.ofNat 32 t.ns)).wr (TU_CAP_SEC i)
      (BitVec.ofNat 32 (t.sec % 2 ^ 16 * 2 ^ 16 + (s.fl (TU_CAP_SEC i) 6 6) * 2 ^ 6 + 0x80 + t.sub))

/-- A pulse on channel `ch` at capture ports 0 to 7. -/
def tuListen (s : State) (ch : Nat) : State :=
  (List.range 8).foldl (fun s i =>
    if s.fl (TU_CAP_CFG i) 5 0 == ch then tuCapture s i 0 else s) s

/-! ## Trigger entries (R186 to R189) -/

/-- The trigger time of entry `i` in nanoseconds. -/
def trgTime (s : State) (i : Nat) : Nat :=
  nsOf (s.fl (TU_TRG_SECHI i) 15 0 * 2 ^ 32 + (s.rd (TU_TRG_SECLO i)).toNat) (s.fl (TU_TRG_NS i) 29 0)

/-- The period of entry `i` in nanoseconds. -/
def trgPer (s : State) (i : Nat) : Nat := s.fl (TU_TRG_PERHI i) 3 0 * 2 ^ 32 + (s.rd (TU_TRG_PERLO i)).toNat

/-- Setting the trigger time; the seconds keep 48 bits. -/
def setTrgTime (s : State) (i t : Nat) : State :=
  let sec := t / 1000000000 % 2 ^ 48
  ((s.setFl (TU_TRG_NS i) 29 0 (t % 1000000000)).wr (TU_TRG_SECLO i) (BitVec.ofNat 32 sec)).setFl (TU_TRG_SECHI i) 15 0
    (sec / 2 ^ 32)

/-- The entry is enabled. -/
def trgOn (s : State) (i : Nat) : Bool := s.bt (TU_TRG_CTRL i) 31

/-- The timebase of an entry. -/
def trgTb (s : State) (i : Nat) : TB := s.tb (s.fl (TU_TRG_CTRL i) 29 28)

/-- The start value of the timebase is at or after the trigger time (R186, R187). -/
def trgReached (s : State) (i : Nat) : Bool :=
  decide ((trgTb s i).sec < 2 ^ 48) && decide (trgTime s i * 2 ^ 32 ≤ (trgTb s i).total)

/-- Instants skipped: MISSED, MISS and the interrupt (R188). -/
def trgMiss (s : State) (i n : Nat) : State :=
  ((s.satInc (TU_TRG_STAT i) 15 8 n).raise (TU_TRG_STAT i) 0x1).raise TU_IRQSTAT 0x1

/-- The test of an entry at its enabling and at a STEP or LOAD of its timebase (R188). DESIGN CHOICE (log entry 101): a timebase at or
beyond 2^48 s, where no instant is reached (R186), has passed every trigger time, and a periodic entry's advanced time keeps 48
bits of seconds. -/
def trgTest (s : State) (i : Nat) : State :=
  let now := (trgTb s i).total
  let t := trgTime s i
  if trgOn s i = false ∨ now ≤ t * 2 ^ 32 then s
  else if s.bt (TU_TRG_CTRL i) 30 = false then (trgMiss s i 1).setBt (TU_TRG_CTRL i) 31 false
  else
    let per := trgPer s i
    let late := (now + 2 ^ 32 - 1) / 2 ^ 32 - t
    let k := (late + per - 1) / per
    trgMiss (setTrgTime s i (t + k * per)) i k

/-- KIND and TARGET of a CTRL word are reserved, or name TB1 to TB3 for a TB0-only kind (R189, Table 8.5). -/
def trgBadTarget (v : Word) : Bool :=
  let k := fld v 27 24
  let t := fld v 15 0
  decide (7 ≤ k) || (k == 0 && decide (63 < t)) || (k == 1 && decide (31 < t)) || (k == 2 && decide (1 < t)) ||
    (k == 3 && decide (15 < t)) || ((k == 4 || k == 5) && t != 0) || (k == 6 && decide (127 < t)) ||
    ((k == 1 || decide (4 ≤ k)) && fld v 29 28 != 0)

/-- An enabling write that R189 refuses. -/
def trgBadEnable (s : State) (i : Nat) (v : Word) : Bool :=
  trgBadTarget v || fld v 27 24 == 4 || fld v 27 24 == 5 || (bitAt v 30 && decide (trgPer s i < 16))

/-- The entry belongs to the image store: the two entries of IMG_TRIG while CEN is 1 (R202). -/
def trgOfStore (s : State) (i : Nat) : Bool :=
  s.bt IMG_CTRL 31 && (s.fl IMG_TRIG 9 0 == i || s.fl IMG_TRIG 25 16 == i)

/-- A write to a trigger entry (R188, R189, R195, R202); a reserved KIND is refused with EN clear too (DEDUCED, log entry 32). -/
def trgWrite (s : State) (i o : Nat) (v : Word) : State × Resp :=
  let a := 0x32010000 + i * 0x20 + o
  if trgOfStore s i ∨ (o = 0 ∧ 7 ≤ fld v 27 24) then (s, .err 3)
  else if trgOn s i then
    if o = 0 ∧ bitAt v 31 = false then (s.softWrite a v, .ok 0) else (s, .err 3)
  else if o = 0 ∧ bitAt v 31 then
    if trgBadEnable s i v then (s, .err 3) else (trgTest (s.softWrite a v) i, .ok 0)
  else if o = 4 ∧ 999999999 < fld v 29 0 then (s, .err 3)
  else (s.softWrite a v, .ok 0)

/-- The entries that can be enabled: those whose CTRL is listed. -/
def trgListed (s : State) : List Nat :=
  (s.listed (fun a => decide (0x32010000 ≤ a) && decide (a < 0x32018000) && a % 0x20 == 0)).map
    (fun e => (e.1 - 0x32010000) / 0x20)

/-- The re-test of every enabled entry of timebase `t` (R188). -/
def trgRetest (s : State) (t : Nat) : State :=
  (trgListed s).foldl (fun s i => if s.fl (TU_TRG_CTRL i) 29 28 == t then trgTest s i else s) s

/-! ## STEP, LOAD and RATE (R174) -/

/-- A refused command: TB_STAT.REFUSED and an error response. -/
def tbRefuse (s : State) (t : Nat) : State × Resp := (s.raise (TU_TB_STAT t) 0x1, .err 3)

/-- TB0 is locked against STEP and LOAD. -/
def tbLocked (s : State) (t : Nat) : Bool := t == 0 && s.bt TU_STATUS 0

/-- An accepted command: the new value, STEPS, the re-test of the entries, and for TB0 the gate cycles anew (R300). -/
def tbMoved (s : State) (t : Nat) (x : TB) : State × Resp :=
  let s := trgRetest ((s.setTb t x).wrapInc (TU_TB_STAT t) 31 16) t
  (if t = 0 then { s with gates := s.gates.map (fun e => (e.1, { e.2 with since := nsOf x.sec x.ns, cycle := none })) } else s,
    .ok 0)

/-- STEP: the signed offset is added; the fraction is kept. -/
def tbStep (s : State) (t : Nat) : State × Resp :=
  let off := (s.rd (TU_TB_OFFNS t)).toInt
  let x := s.tb t
  let sum : Int := (x.sec + (s.rd (TU_TB_OFFSEC t)).toInt) * 1000000000 + (x.ns + off)
  if tbLocked s t ∨ off < -999999999 ∨ 999999999 < off ∨ sum < 0 then tbRefuse s t
  else tbMoved s t { sec := sum.toNat / 1000000000 % 2 ^ 64, ns := sum.toNat % 1000000000, frac := x.frac }

/-- LOAD: seconds {LDSECHI, OFFSEC}, nanoseconds OFFNS, fraction 0. -/
def tbLoad (s : State) (t : Nat) : State × Resp :=
  let ns := (s.rd (TU_TB_OFFNS t)).toNat
  if tbLocked s t ∨ 999999999 < ns then tbRefuse s t
  else tbMoved s t { sec := (s.rd (TU_TB_LDSECHI t)).toNat * 2 ^ 32 + (s.rd (TU_TB_OFFSEC t)).toNat, ns := ns, frac := 0 }

/-- The reserved values of RATE (R175, Table 8.9). -/
def rateBad (s : State) (t : Nat) (v : Word) : Bool :=
  decide (0x400000 < v.toInt.natAbs) || (t == 0 && s.fl TU_CTRL 1 0 == 2 && decide (0x346DC < v.toInt.natAbs))

/-- A write of RATE; in TB0 discipline mode a new TB0 rate starts a slew (R175). -/
def rateWrite (s : State) (t : Nat) (v : Word) : State × Resp :=
  if rateBad s t v then (s, .err 3)
  else
    let s' := s.softWrite (TU_TB_RATE t) v
    (if t = 0 ∧ s.fl TU_CTRL 1 0 = 2 ∧ v ≠ s.rd (TU_TB_RATE 0) then s'.setBt TU_STATUS 1 false else s', .ok 0)

/-! ## Discipline (R175, R176) -/

/-- A write of DISC: a new source begins a slew, and DISCLK is 0 until it ends. -/
def discWrite (s : State) (v : Word) : State × Resp :=
  if fld v 1 0 = 3 then (s, .err 3)
  else
    let s' := s.softWrite TU_CTRL v
    (if fld v 1 0 = s.fl TU_CTRL 1 0 then s' else s'.setBt TU_STATUS 1 false, .ok 0)

/-- The slew ends: DISCLK as the mode defines. -/
def slewDone (s : State) : State :=
  if s.bt RST_CLKSTAT 31 = false ∨ (s.fl TU_CTRL 1 0 = 1 ∧ s.bt TU_STATUS 2 = false) then s
  else s.setBt TU_STATUS 1 true

/-- 10MHZ_IN is lost. -/
def refLoss (s : State) : State :=
  if s.fl TU_CTRL 1 0 = 1 then ((s.setBt TU_STATUS 2 false).setBt TU_STATUS 1 false).raise TU_IRQSTAT 0x2 else s

/-- 10MHZ_IN is back: REFOK, and the PLL slews back to it. -/
def refReturn (s : State) : State :=
  if s.fl TU_CTRL 1 0 = 1 then (s.setBt TU_STATUS 2 true).setBt TU_STATUS 1 false else s

/-! ## The egress timestamp queue (R184) -/

/-- A two-step egress time enters the queue, or is discarded with TSQOVF. -/
def tsqPush (s : State) (e : TsqE) : State :=
  if s.tsq.length < 64 then State.raise { s with tsq := s.tsq ++ [e] } TU_IRQSTAT 0x10 else s.raise TU_IRQSTAT 0x20

/-- The words of the head entry (Table 8.14). -/
def tsqWord (s : State) (i : Nat) : Word :=
  match s.tsq with
  | [] => 0
  | e :: _ =>
    if i = 0 then BitVec.ofNat 32 (e.port % 16 * 2 ^ 28 + e.msgType % 16 * 2 ^ 24 + e.domain % 256 * 2 ^ 16 + e.seqId % 2 ^ 16)
    else if i = 1 then BitVec.ofNat 32 e.ns
    else if i = 2 then BitVec.ofNat 32 e.sec
    else BitVec.ofNat 32 (e.sec / 2 ^ 32 % 2 ^ 16 * 2 ^ 16 + 0x80 + e.sub)

/-- A read of W3 with VALID = 1 removes the head; TSQ follows the queue. -/
def tsqPop (s : State) : State :=
  match s.tsq with
  | [] => s
  | _ :: r =>
    let s : State := { s with tsq := r }
    if r.isEmpty then s.setBt TU_IRQSTAT 4 false else s

/-! ## Pulse per second (R191, R192) -/

/-- A level change of 1PPS_OUT. -/
def setPps (s : State) (high : Bool) : State :=
  if s.pps.high = high then s else State.emit { s with pps := { s.pps with high := high } } (.pps high)

/-- The whole-second count of a timebase less the offset: it rises at each instant R191 names. -/
def ppsCount (s : State) (x : TB) : Int :=
  ((nsOf x.sec x.ns : Nat) - (s.rd TU_PPS_OFF).toInt) / 1000000000

/-- The keeper holds 1PPS_OUT. -/
def ppsHeld (s : State) : Bool := s.bt TU_PPS_STAT 0

/-- The time unit can drive 1PPS_OUT. -/
def ppsDriven (s : State) : Bool := s.bt TU_PPS_CFG 31 && !inReset s blkTu && s.bt RST_CLKSTAT 31

/-- An edge of the time unit (R191): rising where the timebase passed a whole second plus OFF since the state `before`, after
`refCycles` cycles of the reference since the last; falling WIDTH µs later. A rising edge hands the output back. -/
def ppsEdge (before s : State) (rise : Bool) (refCycles : Nat) : State :=
  let t := s.fl TU_PPS_CFG 21 20
  let before := before.tb t
  if ppsDriven s = false then s
  else if rise then
    if ppsCount s (s.tb t) ≤ ppsCount s before then s
    else
      let learnt := if s.pps.rose && !ppsHeld s then (s.pps.periods ++ [refCycles]).drop (s.pps.periods.length - 15) else s.pps.periods
      let h := { s.pps with rose := true, roseAt := s.cycles, width := s.fl TU_PPS_CFG 19 0, periods := learnt }
      setPps (State.setBt { s with pps := h } TU_PPS_STAT 0 false) true
  else if s.pps.high ∧ ppsHeld s = false ∧ s.pps.roseAt + s.fl TU_PPS_CFG 19 0 * 1000 ≤ s.cycles then setPps s false
  else s

/-- The learnt period in nanoseconds: the mean of the last 16 to 1/16 of a cycle of the 25 MHz reference (R192); none where no two
edges have followed one another. -/
def ppsPeriod (h : PpsH) : Option Nat :=
  if h.periods = [] then none else some (h.periods.sum * 16 / h.periods.length * 40 / 16)

/-- The keeper takes over while the time unit is in reset or the PLL is unlocked (R192): if the time unit was driving. -/
def ppsTakeover (s : State) (driving : Bool) : State :=
  if driving && !ppsHeld s then
    (State.setBt { s with pps := { s.pps with rose := false, heldAt := s.cycles } } TU_PPS_STAT 0 true |>.wrapInc TU_PPS_STAT 31 16).raise
      TU_IRQSTAT 0x4
  else s

/-- An edge of the keeper (R192): a rising edge lies within one reference cycle of one learnt period after the last, a falling one of the
width after that; an earlier row does nothing. DESIGN CHOICE (log entry 102): before two edges of the time unit have given it a
period, the keeper's edges fall at any time. -/
def ppsKeeperEdge (s : State) (rise : Bool) : State :=
  if ppsHeld s = false then s
  else if rise then
    match ppsPeriod s.pps with
    | none => setPps { s with pps := { s.pps with roseAt := s.cycles } } true
    | some n =>
      if s.cycles + 40 < s.pps.roseAt + n then s else setPps { s with pps := { s.pps with roseAt := s.pps.roseAt + n } } true
  else if s.cycles + 40 < s.pps.roseAt + s.pps.width * 1000 then s
  else setPps s false

/-- 10 s without a handback (R192). -/
def ppsExpire (s : State) : State :=
  if ppsHeld s && decide (s.pps.heldAt + 10000000000 ≤ s.cycles) then
    (((setPps s false).setBt TU_PPS_STAT 0 false).raise TU_PPS_STAT 0x2).raise TU_IRQSTAT 0x8
  else s

/-- A write of TU_PPS_CFG: EN clear with the keeper idle drives the output low (R191). -/
def ppsCfgWrite (s : State) (v : Word) : State × Resp :=
  if fld v 19 0 = 0 ∨ 500000 < fld v 19 0 then (s, .err 3)
  else
    let s := s.softWrite TU_PPS_CFG v
    (if bitAt v 31 then s else
      let s : State := { s with pps := { s.pps with rose := false } }
      if ppsHeld s then s else setPps s false, .ok 0)

/-! ## Register access (R173, R195) -/

/-- A PTP instance word that Table 8.11 reserves: UDP with MODE 0b11, or a timebase another enabled instance has. -/
def ptpBad (s : State) (i : Nat) (v : Word) : Bool :=
  (bitAt v 30 && fld v 25 24 == 3) ||
    (List.range 4).any (fun j => j != i && s.bt (TU_PTPDOM j) 31 && s.fl (TU_PTPDOM j) 29 28 == fld v 29 28)

/-- A write of a time-unit register at offset `off`. -/
def tuWrite (s : State) (off : Nat) (v : Word) : State × Resp :=
  let plain := (s.softWrite (0x32000000 + off) v, Resp.ok 0)
  let bad := (s, Resp.err 3)
  if 0x10000 ≤ off then trgWrite s ((off - 0x10000) / 0x20) (off % 0x20) v
  else if off = 0 then discWrite s v
  else if 0x100 ≤ off ∧ off < 0x200 then
    let t := (off - 0x100) / 0x40
    let o := off % 0x40
    if o = 0x10 then rateWrite s t v
    else if o = 0x20 then
      (if fld v 1 0 = 1 then tbStep s t else if fld v 1 0 = 2 then tbLoad s t else if fld v 1 0 = 3 then bad else (s, .ok 0))
    else plain
  else if 0x700 ≤ off ∧ off < 0x710 then (if ptpBad s ((off - 0x700) / 4) v then bad else plain)
  else if off = 0xB00 then ppsCfgWrite s v
  else if off = 0xB04 then (if 500000000 ≤ v.toInt.natAbs then bad else plain)
  else plain

/-- A read of a time-unit register by master `m`. -/
def tuRead (s : State) (m off : Nat) : State × Resp :=
  if 0x100 ≤ off ∧ off < 0x200 ∧ off % 0x40 = 0 then
    let t := (off - 0x100) / 0x40
    let x := s.tb t
    let s := ((s.mwr m (TU_TB_SECLO t) (BitVec.ofNat 32 x.sec)).mwr m (TU_TB_SECHI t) (BitVec.ofNat 32 (x.sec / 2 ^ 32))).mwr m
      (TU_TB_SUB t) (BitVec.ofNat 32 x.sub)
    (s, .ok (BitVec.ofNat 32 x.ns))
  else if 0x100 ≤ off ∧ off < 0x200 ∧ off % 0x40 ≤ 0xC then (s, .ok (s.mrd m (0x32000000 + off)))
  else if 0xA00 ≤ off ∧ off < 0xA10 then
    let i := (off - 0xA00) / 4
    (if i = 3 then tsqPop s else s, .ok (tsqWord s i))
  else (s.readClear (0x32000000 + off), .ok (s.rd (0x32000000 + off)))

end Sys2Proof.Machine
end

