-- ==== Sys2Proof/Machine/Image.lean ====
section
/-! DEFINITION. The process image store (R197 to R223): points and slots, epochs, pinning, windows, export frames and the
importer. -/

namespace Sys2Proof.Machine

/-! ## Points and slots -/

/-- The point of a number. -/
def State.pt (s : State) (p : Nat) : ImgPt := smGet {} s.img p

/-- Setting a point. -/
def State.setPt (s : State) (p : Nat) (x : ImgPt) : State := { s with img := smSet {} s.img p x }

/-- SIZE, WCLASS and WID of a table entry (Table 9.1). -/
def ptSize (w : Word) : Nat := fld w 6 0
/-- The writer class. -/
def ptClass (w : Word) : Nat := fld w 10 8
/-- The writer identity. -/
def ptWid (w : Word) : Nat := fld w 15 11

/-- The point is defined. -/
def defined (s : State) (p : Nat) : Bool := ptSize (s.pt p).entry != 0

/-- Slot `i` of a point. -/
def ImgPt.slot (x : ImgPt) (i : Nat) : ImgSlot := if i = 0 then x.s0 else if i = 1 then x.s1 else x.s2

/-- Setting slot `i`. -/
def ImgPt.setSlot (x : ImgPt) (i : Nat) (v : ImgSlot) : ImgPt :=
  if i = 0 then { x with s0 := v } else if i = 1 then { x with s1 := v } else { x with s2 := v }

/-- visible(e): the used slot with the largest tag not above `e` (R205). -/
def visible (x : ImgPt) (e : Nat) : Option Nat :=
  [0, 1, 2].foldl (fun best i =>
    let c := x.slot i
    if c.used && decide (c.tag ≤ e) then
      match best with
      | none => some i
      | some b => if (x.slot b).tag < c.tag then some i else best
    else best) none

/-- A pin is held, and its epoch Q (R207). -/
def pinHeld (s : State) : Bool := s.bt IMG_PINSTAT 31
/-- The pinned epoch. -/
def pinQ (s : State) : Nat := (s.rd IMG_PINEP_HI).toNat * 2 ^ 32 + (s.rd IMG_PINEP_LO).toNat

/-- Age order of slots: an unused slot is older than any tag (R205). -/
def slotAge (c : ImgSlot) : Nat := if c.used then c.tag + 1 else 0

/-- The slot a write of the open epoch `o` = E + 1 takes (R205). -/
def writeSlot (s : State) (x : ImgPt) : Nat :=
  let o := s.imgE + 1
  match [0, 1, 2].find? (fun i => (x.slot i).used && (x.slot i).tag == o) with
  | some i => i
  | none =>
    let c := visible x s.imgE
    let q := if pinHeld s then visible x (pinQ s) else none
    let free := [0, 1, 2].filter (fun i => some i != c && some i != q)
    free.foldl (fun best i => if slotAge (x.slot i) < slotAge (x.slot best) then i else best) (free.headD 0)

/-- POINT_WRITE: data, quality, timestamp and tag into the open epoch (R205). -/
def pointWrite (s : State) (p : Nat) (data : List Byte) (qual ns sec sub : Nat) : State :=
  let x := s.pt p
  s.setPt p (x.setSlot (writeSlot s x)
    { used := true, tag := s.imgE + 1, data := data, qual := qual, ns := ns, sec := sec % 2 ^ 48, sub := sub })

/-- The reported quality (R213, R220): a class-3 point is STALE when its slot's tag is not the epoch read. -/
def reported (x : ImgPt) (c : ImgSlot) (e : Nat) : Nat :=
  if ptClass x.entry = 3 ∧ c.tag ≠ e then c.qual / 2 * 2 + 1 else c.qual

/-- The slot a view reads: the current view (`pinned` false) or the pinned view; none where the read is refused (R207,
R213). -/
def pointRead (s : State) (p : Nat) (pinned : Bool) : Option (ImgSlot × Nat) :=
  if !defined s p || (pinned && !pinHeld s) then none
  else
    let x := s.pt p
    let e := if pinned then pinQ s else s.imgE
    (visible x e).map (fun i => (x.slot i, reported x (x.slot i) e))

/-- Byte `b` of a point's slot; bytes at or beyond its size read 0 (R213). -/
def slotByte (c : ImgSlot) (b : Nat) : Byte := c.data.getD b 0

/-! ## Writers (R209, R210, R212) -/

/-- The quality of a local write (R212). -/
def localQual (s : State) (q : Nat) : Nat :=
  q / 4096 % 16 * 4096 + (s.bt IMG_CTRL 30).toNat * 64 + q % 16

/-- Master `m` (with DMA channel `ch`, for ID 14) is the writer of an entry's class (Table 9.2, R209). -/
def writerOf (s : State) (m : Nat) (ch : Option Nat) (w : Word) : Bool :=
  match ptClass w with
  | 1 => m == 1 + ptWid w % 8 || (s.bt IMG_RECOV 31 && m == 1 + s.fl IMG_RECOV 2 0)
  | 2 => m == 9 || m == 10
  | 4 => m == 14 && ch == some (ptWid w)
  | 5 => m == 11
  | _ => false

/-- A refused write: counted, REFUSED set; the error response is the caller's (R209). -/
def imgRefuse (s : State) : State := (s.satInc IMG_CNT_WR 31 16).raise IMG_IRQSTAT 0x20

/-- A write of the first SIZE bytes of `data` to a point by a master (R209, R210): the state and whether it was accepted
(a masked write is). `len` is the length written where the interface gives one. -/
def imgPut (s : State) (m : Nat) (ch : Option Nat) (p : Nat) (data : List Byte) (len : Option Nat)
    (q ns sec sub : Nat) : State × Bool :=
  let w := (s.pt p).entry
  let size := ptSize w
  if size = 0 ∨ (len.isSome ∧ len ≠ some size) then (imgRefuse s, false)
  else if m = 16 ∧ s.bt IMG_CTRL 31 = false then
    (pointWrite s p (data.take size) (localQual s q + q / 128 % 2 * 128) ns sec sub, true)
  else if writerOf s m ch w = false then (imgRefuse s, false)
  else if ptClass w = 2 ∧ holder s + 8 ≠ m then
    (if m = 9 then s.satInc IMG_CNT_MASK 15 0 else s.satInc IMG_CNT_MASK 31 16, true)
  else (pointWrite s p (data.take size) (localQual s q) ns sec sub, true)

/-! ## The point table (R199) -/

/-- Data-memory cost of an entry (R197). -/
def ptCost (w : Word) : Nat := 24 * ((ptSize w + 7) / 8)

/-- The total cost over all points. -/
def imgCost (l : SMap ImgPt) : Nat := l.foldl (fun n e => n + ptCost e.2.entry) 0

/-- A table word whose values Table 9.1 or 9.2 reserve. -/
def ptBadWord (w : Word) : Bool :=
  let c := ptClass w
  decide (64 < ptSize w) || c == 7 ||
    (if c == 1 then decide (8 ≤ ptWid w) else if c == 4 then false else ptWid w != 0)

/-- NREC of an export set. -/
def nrec (s : State) (x : Nat) : Nat := s.fl (IMG_XCFG x) 6 0

/-- The points an export set's list entries in use name. -/
def xPoints (s : State) (x n : Nat) : List Nat := (List.range n).map (fun i => smGet 0 s.xlist (64 * x + i))

/-- A point fit for export: defined and not of class 3 (R215). -/
def exportable (w : Word) : Bool := ptSize w != 0 && ptClass w != 3

/-- An enabled export set uses the point. -/
def inExport (s : State) (p : Nat) : Bool :=
  (List.range 16).any (fun x => s.bt (IMG_XCFG x) 31 && (xPoints s x (nrec s x)).contains p)

/-- An enabled mapping writes the point. -/
def inMapping (s : State) (p : Nat) : Bool := s.maps.any (fun e => bitAt e.2.w0 31 && fld e.2.w1 31 16 == p)

/-- A point-table write (R199). -/
def ptWrite (s : State) (p : Nat) (v : Word) : State × Resp :=
  let v := v &&& 0xFFFFFF7F
  let old := (s.pt p).entry
  let fresh : ImgPt := { entry := v, s0 := { used := true, data := List.replicate (ptSize v) 0, qual := 0x80 } }
  let new : ImgPt := if ptSize v = 0 then {} else if fld v 15 0 = fld old 15 0 then { s.pt p with entry := v } else fresh
  if s.bt IMG_CTRL 31 ∨ ptBadWord v ∨ 4194304 < imgCost (s.setPt p new).img then (s, .err 3)
  else if ptSize v ≠ 0 ∧ ptClass v = 6 ∧
      (ptSize v ≠ 64 ∨ s.img.any (fun e => e.1 != p && ptSize e.2.entry != 0 && ptClass e.2.entry == 6)) then (s, .err 3)
  else if inExport s p ∧ exportable v = false then (s, .err 3)
  else if inMapping s p ∧ ¬ (ptSize v ≠ 0 ∧ ptClass v = 3) then (s, .err 3)
  else ((s.setPt p new), .ok 0)

/-! ## Commits (R200 to R204) -/

/-- The commit period P. -/
def imgP (s : State) : Nat := s.fl IMG_PERIOD_HI 1 0 * 2 ^ 32 + (s.rd IMG_PERIOD_LO).toNat
/-- The sample lead L. -/
def imgL (s : State) : Nat := (s.rd IMG_LEAD).toNat
/-- The import deadline D. -/
def imgD (s : State) : Nat := (s.rd IMG_IMPDL).toNat
/-- The domain start time T_D in nanoseconds. -/
def imgT (s : State) : Nat :=
  nsOf (s.fl IMG_DSTART_SECHI 15 0 * 2 ^ 32 + (s.rd IMG_DSTART_SECLO).toNat) (s.fl IMG_DSTART_NS 29 0)

/-- Commit instant k. -/
def commitAt (s : State) (k : Nat) : Nat := imgT s + k * imgP s

/-- The domain parameters lie within R200. -/
def imgParamsOk (s : State) : Bool :=
  let P := imgP s
  decide (s.fl IMG_DSTART_NS 29 0 < 1000000000) && decide (10000 ≤ P) && decide (P ≤ 10000000000) &&
    decide (1 ≤ imgL s) && decide (imgL s ≤ P - 1) && decide (1000 ≤ imgD s) && decide (imgD s ≤ P - 2000)

/-- k0 of an enable at the present TB0 value (R202). -/
def imgK0 (s : State) : Nat :=
  let need := ((s.tb 0).total + (2 ^ 32 - 1)) / 2 ^ 32 + 10000 + imgL s
  max 1 ((need - imgT s + (imgP s - 1)) / imgP s)

/-- Arming a trigger entry of the store (R202). -/
def armTrigger (s : State) (i t kind : Nat) : State :=
  (((setTrgTime s i t).wr (TU_TRG_PERLO i) (BitVec.ofNat 32 (imgP s))).setFl (TU_TRG_PERHI i) 3 0 (imgP s / 2 ^ 32)).wr
    (TU_TRG_CTRL i) (BitVec.ofNat 32 (0xC0000000 + kind * 2 ^ 24))

/-- COMMIT_ENABLE: an accepted or refused write of CEN = 1 while CEN is 0 (R202). -/
def commitEnable (s : State) (v : Word) : State × Resp :=
  let st := s.fl IMG_TRIG 9 0
  let ct := s.fl IMG_TRIG 25 16
  let k0 := imgK0 s
  if imgParamsOk s = false ∨ k0 - 1 < s.imgE ∨ 2 ^ 48 ≤ k0 ∨ st = ct ∨ trgOn s st ∨ trgOn s ct then
    (s.raise IMG_IRQSTAT 0x1, .err 3)
  else
    let s := armTrigger (armTrigger s st (commitAt s k0 - imgL s) 4) ct (commitAt s k0) 5
    let s := (s.softWrite IMG_CTRL v).setBt TU_STATUS 0 true
    ({ s with imgE := k0 - 1, missDue := false, xpend := [] }, .ok 0)

/-- CEN clears (R203). -/
def commitDisable (s : State) : State :=
  let s := (s.setBt (TU_TRG_CTRL (s.fl IMG_TRIG 9 0)) 31 false).setBt (TU_TRG_CTRL (s.fl IMG_TRIG 25 16)) 31 false
  let s := (s.setBt TU_STATUS 0 false).setBt IMG_CTRL 31 false
  { s with missDue := false, xpend := [] }

/-- A write of IMG_CTRL (R202, R203). -/
def imgCtrl (s : State) (v : Word) : State × Resp :=
  if bitAt v 31 ∧ s.bt IMG_CTRL 31 = false then commitEnable s v
  else if s.bt IMG_CTRL 31 ∧ bitAt v 31 = false then ((commitDisable s).softWrite IMG_CTRL v, .ok 0)
  else (s.softWrite IMG_CTRL v, .ok 0)

/-! ## Pinning (R207, R208) -/

/-- PIN and UNPIN. -/
def imgPin (s : State) (m op : Nat) : State × Resp :=
  if op = 0 then (s, .ok 0)
  else if op = 1 then
    if pinHeld s then (s, .err 3)
    else
      let s := (s.setBt IMG_PINSTAT 31 true).setFl IMG_PINSTAT 20 16 m
      ((s.wr IMG_PINEP_LO (BitVec.ofNat 32 s.imgE)).wr IMG_PINEP_HI (BitVec.ofNat 32 (s.imgE / 2 ^ 32)), .ok 0)
  else if op = 2 ∧ pinHeld s ∧ s.fl IMG_PINSTAT 20 16 = m then
    ((s.setBt IMG_PINSTAT 31 false).setFl IMG_PINSTAT 20 16 0, .ok 0)
  else (s, .err 3)

/-! ## Export (R215 to R217) -/

/-- Payload bytes of a record (R217). -/
def recBytes (w : Word) : Nat := 16 + 4 * ((ptSize w + 3) / 4)

/-- N of an export frame. -/
def xPayload (s : State) (x n : Nat) : Nat := 16 + (xPoints s x n).foldl (fun t p => t + recBytes (s.pt p).entry) 0

/-- A write that sets EN of export set `x` and is refused (R215). -/
def xBad (s : State) (x : Nat) (v : Word) : Bool :=
  let n := fld v 6 0
  n == 0 || decide (64 < n) || !(xPoints s x n).all (fun p => exportable (s.pt p).entry) || !s.bt (IMG_XDALO x) 0 ||
    decide ((s.rd (IMG_XOFF x)).toNat < 1000) || decide (imgP s ≤ (s.rd (IMG_XOFF x)).toNat) ||
    decide (1500 < xPayload s x n)

/-- A record of an export frame (Table 9.8); one of the points `bad`, whose data memory cannot be corrected, carries zero data
with INVALID set (Table 20.2). -/
def xRecord (s : State) (bad : List Nat) (p : Nat) : List Byte :=
  match pointRead s p false with
  | none => []
  | some (c, q) =>
    let size := ptSize (s.pt p).entry
    let lost := bad.contains p
    let data := (List.range ((size + 3) / 4 * 4)).map (fun b => if lost then 0 else slotByte c b)
    leBytes 2 p ++ leBytes 1 size ++ leBytes 1 c.sub ++ leBytes 2 (if lost then q ||| 2 else q) ++ leBytes 6 c.sec ++ leBytes 4 c.ns ++ data

/-- Big-endian bytes of a value. -/
def beBytes (n v : Nat) : List Byte := (leBytes n v).reverse

/-- An export frame from its destination to its padding, without FCS (Tables 9.6, 9.7). -/
def xFrame (s : State) (bad : List Nat) (x : Nat) : XFrame :=
  let cfg := s.rd (IMG_XCFG x)
  let tag := if bitAt cfg 30 then beBytes 2 0x8100 ++ beBytes 2 (fld cfg 29 27 * 2 ^ 13 + fld cfg 23 12) else []
  let dev := s.rd IMG_DEVID
  let head := leBytes 1 1 ++ leBytes 1 (s.bt IMG_CTRL 30).toNat ++ leBytes 2 (fld dev 31 16) ++ leBytes 2 (fld dev 13 0) ++
    leBytes 1 x ++ leBytes 1 (nrec s x) ++ leBytes 8 s.imgE
  let body := leBytes 4 (s.rd (IMG_XDALO x)).toNat ++ leBytes 2 (s.fl (IMG_XDAHI x) 15 0) ++
    leBytes 4 (s.rd SW_STADDR_LO).toNat ++ leBytes 2 (s.fl SW_STADDR_HI 15 0) ++ tag ++ beBytes 2 (s.fl IMG_ETYPE 15 0) ++
    head ++ (xPoints s x (nrec s x)).flatMap (xRecord s bad)
  let t := commitAt s s.imgE + (s.rd (IMG_XOFF x)).toNat
  { set := x, data := body ++ List.replicate (60 - body.length) 0, sec := t / 1000000000, ns := t % 1000000000,
    tc := fld cfg 29 27 }

/-- The export sets enabled, in ascending order. -/
def xEnabled (s : State) : List Nat := (List.range 16).filter (fun x => s.bt (IMG_XCFG x) 31)

/-- The first commit with a token holder, or with ARB_CFG.MODE 0b00 any commit, ends the not-valid state in which the instances
started hold their outputs (R165, R340). -/
def outputsValid (s : State) : State :=
  if holder s = 0 ∧ s.fl ARB_CFG 31 30 ≠ 0 then s
  else (List.range 64).foldl (fun s k => s.setCtx k { s.ctx k with starting := false }) s

/-- COMMIT (R204, R208, R216): E increments, an expired pin is released, the enabled sets are assembled, and the instances' outputs
may become valid (R165). `bad`: the points whose data memory cannot be corrected in that assembly (R441). -/
def imgCommit (s : State) (bad : List Nat) : State :=
  if s.bt IMG_CTRL 31 = false then s
  else
    let s : State := outputsValid { s with imgE := (s.imgE + 1) % 2 ^ 64, imgAt := s.cycles }
    let max := s.fl IMG_PINMAX 15 0
    let s := if pinHeld s && max != 0 && decide (max < s.imgE - pinQ s) then
        ((s.setBt IMG_PINSTAT 31 false).setFl IMG_PINSTAT 20 16 0).raise IMG_IRQSTAT 0x40
      else s
    let seen := (xEnabled s).flatMap (fun x => (xPoints s x (nrec s x)).filter bad.contains)
    { seen.foldl (fun s p => dgEcc s 1 (8 * p) .double) s with xpend := (xEnabled s).map (xFrame s bad), missDue := true }

/-- EXPORT_LATE: a set not handed over is abandoned and counted (R216). -/
def exportLate (s : State) (x : Nat) : State :=
  if s.xpend.any (fun f => f.set == x) then
    (State.satInc { s with xpend := s.xpend.filter (fun f => f.set != x) } IMG_CNT_EXP 31 16).raise IMG_IRQSTAT 0x2
  else s

/-- The PIN_SNAPSHOT of a sample instant `t` (R214). -/
def imgSample (s : State) (t : Nat) : State :=
  match s.img.find? (fun e => ptSize e.2.entry != 0 && ptClass e.2.entry == 6) with
  | none => s
  | some (p, _) =>
    if s.bt IMG_CTRL 29 = false ∨ s.bt IMG_CTRL 31 = false then s
    else
      let live (c : Nat) : Bool := !inReset s (blkGrp (c / 16)) && !domOff s (9 + c / 16)
      let two (c : Nat) : Nat := if live c then s.fl (CELL_PINS c) 1 0 else 0
      let data := (List.range 64).map (fun b =>
        BitVec.ofNat 8 (two (4 * b) + 4 * two (4 * b + 1) + 16 * two (4 * b + 2) + 64 * two (4 * b + 3)))
      pointWrite s p data (localQual s 0) (t % 1000000000) (t / 1000000000) 0

/-! ## Import (R218 to R221) -/

/-- Subscription `i`. -/
def State.sub (s : State) (i : Nat) : ImgSub := smGet {} s.subs i
/-- Setting a subscription. -/
def State.setSub (s : State) (i : Nat) (x : ImgSub) : State := { s with subs := smSet {} s.subs i x }
/-- Mapping `i`. -/
def State.mapg (s : State) (i : Nat) : ImgMap := smGet {} s.maps i
/-- Setting a mapping. -/
def State.setMapg (s : State) (i : Nat) (x : ImgMap) : State := { s with maps := smSet {} s.maps i x }

/-- A write of SBW0 (R218). -/
def subWrite (s : State) (i : Nat) (v : Word) : State × Resp :=
  let v := v &&& 0xBFFF000F
  let old := (s.sub i).w0
  if bitAt old 31 then
    if (v ^^^ old) &&& 0x7FFFFFFF = 0 then (s.setSub i { s.sub i with w0 := v }, .ok 0) else (s, .err 3)
  else if bitAt v 31 ∧ (fld v 29 16 = s.fl IMG_DEVID 13 0 ∨
      s.subs.any (fun e => e.1 != i && bitAt e.2.w0 31 && fld e.2.w0 29 16 == fld v 29 16 && fld e.2.w0 3 0 == fld v 3 0)) then
    (s, .err 3)
  else (s.setSub i { s.sub i with w0 := v }, .ok 0)

/-- A mapping that leaves EN at 1 passes the checks of R218. -/
def mapOk (s : State) (i : Nat) (x : ImgMap) : Bool :=
  let loc := fld x.w1 31 16
  ptSize (s.pt loc).entry != 0 && ptClass (s.pt loc).entry == 3 &&
    !s.maps.any (fun e => e.1 != i && bitAt e.2.w0 31 &&
      ((fld e.2.w0 7 0 == fld x.w0 7 0 && fld e.2.w1 15 0 == fld x.w1 15 0) || fld e.2.w1 31 16 == loc))

/-- A write of a mapping, which makes it `x` (R218). -/
def mapWrite (s : State) (i : Nat) (x : ImgMap) : State × Resp :=
  let on (j : Nat) : Bool := bitAt (s.sub j).w0 31
  if on (fld (s.mapg i).w0 7 0) ∨ on (fld x.w0 7 0) ∨ (bitAt x.w0 31 ∧ mapOk s i x = false) then (s, .err 3)
  else (s.setMapg i x, .ok 0)

/-- A frame discarded by the importer (R219). -/
def impDrop (s : State) : State := (s.satInc IMG_CNT_IMP 31 16).raise IMG_IRQSTAT 0x10

/-- A record of an import frame, and the bytes after it; none where the frame is too short. -/
def takeRecord (l : List Byte) : Option (List Byte × List Byte) :=
  match l with
  | _ :: _ :: sz :: r =>
    let n := 13 + 4 * ((sz.toNat + 3) / 4)
    if sz.toNat = 0 ∨ 64 < sz.toNat ∨ r.length < n then none else some (l.take (3 + n), r.drop n)
  | _ => none

/-- The records of a frame and the bytes that follow; none where the length does not agree. -/
def takeRecords : Nat → List Byte → Option (List (List Byte) × List Byte)
  | 0, l => some ([], l)
  | n + 1, l =>
    match takeRecord l with
    | none => none
    | some (r, rest) => (takeRecords n rest).map (fun x => (r :: x.1, x.2))

/-- IMPORT_WRITE: one record (R220). -/
def importRecord (i es : Nat) (s : State) (r : List Byte) : State :=
  let src := leNat (r.take 2)
  let size := leNat ((r.drop 2).take 1)
  match s.maps.find? (fun e => bitAt e.2.w0 31 && fld e.2.w0 7 0 == i && fld e.2.w1 15 0 == src) with
  | none => s
  | some (_, x) =>
    let loc := fld x.w1 31 16
    if ptSize (s.pt loc).entry ≠ size then s.satInc IMG_CNT_IMP 15 0
    else
      let q := leNat ((r.drop 4).take 2)
      let q := q / 4096 % 16 * 4096 + q / 64 % 4 * 64 + 32 + q % 16
      if s.imgE = es then
        pointWrite s loc ((r.drop 16).take size) q (leNat ((r.drop 12).take 4)) (leNat ((r.drop 6).take 6))
          (leNat ((r.drop 3).take 1) % 8)
      else s

/-- A late frame (R219). -/
def importLate (s : State) (i : Nat) : State :=
  (s.setSub i { s.sub i with late := min 65535 ((s.sub i).late + 1) }).raise IMG_IRQSTAT 0x4

/-- The tests and the import of a frame from its EtherType on; `long` is the frame's length with FCS, `tagged` whether a
tag was skipped (R219, R220). -/
def importBody (s : State) (l : List Byte) (long : Nat) (tagged : Bool) : State :=
  let et := leNat ((l.take 2).reverse)
  let h := (l.drop 2).take 16
  let n := leNat ((h.drop 7).take 1)
  let es := leNat ((h.drop 8).take 8)
  match takeRecords n (l.drop 18) with
  | none => impDrop s
  | some (recs, rest) =>
    let need := long - rest.length
    if et ≠ s.fl IMG_ETYPE 15 0 ∨ leNat (h.take 1) ≠ 1 ∨ leNat ((h.drop 2).take 2) ≠ s.fl IMG_DEVID 31 16 ∨
        n = 0 ∨ 64 < n ∨ ¬ (rest = [] ∨ (need < 64 ∧ long ≤ 64)) ∨ long < 22 + (if tagged then 4 else 0) then impDrop s
    else
      match s.subs.find? (fun e => bitAt e.2.w0 31 && fld e.2.w0 29 16 == leNat ((h.drop 4).take 2) &&
          fld e.2.w0 3 0 == leNat ((h.drop 6).take 1)) with
      | none => impDrop s
      | some (i, x) =>
        if x.took.contains es then impDrop s
        else if s.imgE < es then impDrop s
        else if es < s.imgE ∨ (commitAt s es + imgD s) * 2 ^ 32 < (s.tb 0).total then importLate s i
        else
          let s := recs.foldl (importRecord i es) s
          s.setSub i { s.sub i with last := some es, took := es :: x.took }

/-- IMPORT_FRAME: a frame the IMG port delivers, without its FCS; `bad`: its FCS is wrong or stomped (R219). While CEN is 0
every frame is discarded (R203). -/
def importFrame (s : State) (data : List Byte) (bad : Bool) : State :=
  if bad ∨ s.bt IMG_CTRL 31 = false then impDrop s
  else
    let l := data.drop 12
    if leNat ((l.take 2).reverse) = 0x8100 then
      let l2 := l.drop 4
      if leNat ((l2.take 2).reverse) = 0x8100 then impDrop s else importBody s l2 (data.length + 4) true
    else importBody s l (data.length + 4) false

/-- IMPORT_MISS_CHECK at t_E + D (R221). -/
def missCheck (s : State) : State :=
  if s.missDue = false ∨ s.bt IMG_CTRL 31 = false then s
  else
    let due := s.subs.filter (fun e => bitAt e.2.w0 31 && e.2.last != some s.imgE)
    let s := due.foldl (fun s e => s.setSub e.1 { s.sub e.1 with miss := min 65535 ((s.sub e.1).miss + 1) }) s
    let s : State := { s with missDue := false }
    if due.isEmpty then s else s.raise IMG_IRQSTAT 0x8

/-! ## Register and window access (R213, R222) -/

/-- A window read of `n` bytes at window offset `o` by master `m`, within one point (R213). -/
def imgWindowRead (s : State) (m o n : Nat) : State × Resp :=
  match pointRead s (o / 64) (bitAt (s.mrd m IMG_VIEW) 0) with
  | none => (s, .err 3)
  | some (c, q) =>
    let s := (s.mwr m IMG_RQUAL (BitVec.ofNat 32 q)).mwr m IMG_RTS_NS (BitVec.ofNat 32 (c.ns % 2 ^ 30))
    let s := (s.mwr m IMG_RTS_SEC (BitVec.ofNat 32 (c.sec % 2 ^ 16 * 2 ^ 16 + c.sub))).mwr m IMG_RTAG (BitVec.ofNat 32 c.tag)
    (s, .ok (BitVec.ofNat 32 (leNat ((List.range n).map (fun i => slotByte c (o % 64 + i))))))

/-- IMG_WPUT: a point write from the master's write registers (R213). -/
def imgWput (s : State) (m : Nat) (v : Word) : State × Resp :=
  let data := (List.range 64).map (fun i =>
    BitVec.ofNat 8 ((s.mrd m (IMG_WB (i / 4))).toNat / 2 ^ (8 * (i % 4))))
  let t := s.tb 0
  let own := bitAt s.wtsSet m
  let ns := if own then fld (s.mrd m IMG_WTS_NS) 29 0 else t.ns
  let sec := if own then t.sec / 2 ^ 32 * 2 ^ 32 + (s.mrd m IMG_WTS_SEC).toNat else t.sec
  let (s', ok) := imgPut s m none (fld v 15 0) data none (fld v 31 16) ns sec (if own then 0 else t.sub)
  if ok then ({ s' with wtsSet := putBit s'.wtsSet m false }, .ok 0) else (s', .err 3)

/-- A write of a register of export set `x` (R215). -/
def xWrite (s : State) (x o : Nat) (v : Word) : State × Resp :=
  let a := 0x24400200 + x * 0x10 + o
  if s.bt (IMG_XCFG x) 31 then
    if o = 0 ∧ bitAt v 31 = false then (s.softWrite a v, .ok 0) else (s, .err 3)
  else if o = 0 ∧ bitAt v 31 ∧ xBad s x v then (s, .err 3)
  else (s.softWrite a v, .ok 0)

/-- The registers that stand still while CEN is 1 (R202). -/
def imgLocked (off : Nat) : Bool :=
  off == 0x04 || off == 0x08 || off == 0x0C || (decide (0x10 ≤ off) && decide (off ≤ 0x2C))

/-- The per-master registers of Table 9.13 that software writes. -/
def imgMine (off : Nat) : Bool := off == 0x60 || (decide (0x80 ≤ off) && decide (off ≤ 0xC4))

/-- A write of an image-store register by master `m` (R222). -/
def imgWrite (s : State) (m off : Nat) (v : Word) : State × Resp :=
  let a := 0x24400000 + off
  if off = 0 then imgCtrl s v
  else if imgLocked off ∧ s.bt IMG_CTRL 31 then (s, .err 3)
  else if off = 0x08 ∧ (fld v 15 0 < 0x600 ∨ fld v 15 0 = 0x8100) then (s, .err 3)
  else if off = 0x40 then imgPin s m (fld v 1 0)
  else if imgMine off then
    let s := if off = 0xC0 ∨ off = 0xC4 then { s with wtsSet := putBit s.wtsSet m true } else s
    (s.mwr m a (v &&& ((regDesc a).map (·.rw)).getD 0), .ok 0)
  else if off = 0xC8 then imgWput s m v
  else if off = 0xD4 then ptWrite s (s.fl IMG_PTIDX 15 0) v
  else if off = 0xDC then
    let i := s.fl IMG_XLIDX 9 0
    if s.bt (IMG_XCFG (i / 64)) 31 ∧ i % 64 < nrec s (i / 64) then (s, .err 3)
    else ({ s with xlist := smSet 0 s.xlist i (fld v 15 0) }, .ok 0)
  else if off = 0xE4 then subWrite s (s.fl IMG_SBIDX 7 0) v
  else if off = 0xF4 then
    let i := s.fl IMG_MPIDX 11 0
    mapWrite s i { s.mapg i with w0 := v &&& 0x800000FF }
  else if off = 0xF8 then
    let i := s.fl IMG_MPIDX 11 0
    mapWrite s i { s.mapg i with w1 := v }
  else if 0x200 ≤ off then xWrite s ((off - 0x200) / 0x10) (off % 0x10) v
  else (s.softWrite a v, .ok 0)

/-- A read of an image-store register by master `m` (R222). -/
def imgRead (s : State) (m off : Nat) : State × Resp :=
  let a := 0x24400000 + off
  let sb := s.fl IMG_SBIDX 7 0
  let mp := s.fl IMG_MPIDX 11 0
  if off = 0x30 then (s.mwr m IMG_EPOCH_HI (BitVec.ofNat 32 (s.imgE / 2 ^ 32)), .ok (BitVec.ofNat 32 s.imgE))
  else if off = 0x34 ∨ (0x60 ≤ off ∧ off ≤ 0xC4) then (s, .ok (s.mrd m a))
  else if off = 0x44 then (s, .ok (setFld (s.rd a) 15 0 (if pinHeld s then s.imgE - pinQ s else 0)))
  else if off = 0xD4 then (s, .ok (s.pt (s.fl IMG_PTIDX 15 0)).entry)
  else if off = 0xDC then (s, .ok (BitVec.ofNat 32 (smGet 0 s.xlist (s.fl IMG_XLIDX 9 0))))
  else if off = 0xE4 then (s, .ok (s.sub sb).w0)
  else if off = 0xE8 then
    (s.setSub sb { s.sub sb with miss := 0, late := 0 }, .ok (BitVec.ofNat 32 ((s.sub sb).miss * 2 ^ 16 + (s.sub sb).late)))
  else if off = 0xEC then (s, .ok (BitVec.ofNat 32 ((s.sub sb).last.getD 0)))
  else if off = 0xF4 then (s, .ok (s.mapg mp).w0)
  else if off = 0xF8 then (s, .ok (s.mapg mp).w1)
  else (s.readClear a, .ok (s.rd a))

/-- The state of the image store at its reset: every point undefined (R203). -/
def imgReset (s : State) : State :=
  { s with img := [], imgE := 0, xlist := [], subs := [], maps := [], xpend := [], missDue := false, wtsSet := 0 }

end Sys2Proof.Machine
end

