-- ==== Sys2Proof/Machine/Dma.lean ====
section
/-! DEFINITION. The cell array DMA: rings, image mode, faults and configuration (R81 to R87), as master 14. -/

namespace Sys2Proof.Machine

/-- The hidden state of a channel. -/
def State.dma (s : State) (i : Nat) : DmaH := smGet {} s.dmaH i

/-- Setting it. -/
def State.setDma (s : State) (i : Nat) (h : DmaH) : State := { s with dmaH := smSet {} s.dmaH i h }

/-- DMA_BUSERR: EN clears, collected words go, BUSERR is set (R84). The log entry is the caller's. -/
def dmaFail (s : State) (i : Nat) : State :=
  ((s.setBt (EVF_DMA_CFG i) 31 false).raise (EVF_DMA_STAT i) 0x4).setDma i {}

/-- The access of a channel to its FIFO meets a group that is off or in reset: an error response (R84, R400, R439). -/
def dmaFifoErr (s : State) (i : Nat) : State :=
  let cfg := s.rd (EVF_DMA_CFG i)
  if fld cfg 30 29 = 1 then dmaFail (logErr s 14 (CELL_TXDATA (fld cfg 23 16)) true 6) i
  else dmaFail (logErr s 14 (CELL_RXDATA (fld cfg 23 16)) false 6) i

/-- LEN of a channel. -/
def dmaLen (s : State) (i : Nat) : Nat := s.fl (EVF_DMA_LEN i) 15 0

/-- The count that THR compares (Table 3.14): waiting records of an RX ring, free records of a TX ring. -/
def dmaCount (s : State) (i : Nat) (tx : Bool) : Nat :=
  let len := dmaLen s i
  let hw := s.fl (EVF_DMA_HWPTR i) 15 0
  let sw := s.fl (EVF_DMA_SWPTR i) 15 0
  if tx then len - 1 - (sw + len - hw) % len else (hw + len - sw) % len

/-- The pointer's advance, and THR when the count reaches THRESH. -/
def dmaAdvance (s : State) (i : Nat) (tx : Bool) : State :=
  let s := s.setFl (EVF_DMA_HWPTR i) 15 0 ((s.fl (EVF_DMA_HWPTR i) 15 0 + 1) % dmaLen s i)
  let t := s.fl (EVF_DMA_CFG i) 7 0
  if t ≠ 0 ∧ dmaCount s i tx = t then s.raise (EVF_DMA_STAT i) 0x1 else s

/-- An RX channel writes one record (R82). A word whose record meets an error response stays in the FIFO (DESIGN CHOICE, log entry
86). -/
def dmaRx (s : State) (i : Nat) : State :=
  let c := s.fl (EVF_DMA_CFG i) 23 16
  let hw := s.fl (EVF_DMA_HWPTR i) 15 0
  match fifoOf s true c with
  | [] => s
  | w :: r =>
    if (hw + 1) % dmaLen s i = s.fl (EVF_DMA_SWPTR i) 15 0 then s
    else
      match memAcc s 14 ((s.rd (EVF_DMA_BASE i)).toNat + 8 * hw) 8 (some w.toNat) with
      | (s, none) => dmaFail s i
      | (s, some _) => dmaAdvance (fifoMark (setFifo s true c r) c 0 1) i false

/-- A TX channel reads one record into the FIFO (R82). -/
def dmaTx (s : State) (i : Nat) : State :=
  let c := s.fl (EVF_DMA_CFG i) 23 16
  let hw := s.fl (EVF_DMA_HWPTR i) 15 0
  if hw = s.fl (EVF_DMA_SWPTR i) 15 0 ∨ depth s false c ≤ (fifoOf s false c).length then s
  else
    match memAcc s 14 ((s.rd (EVF_DMA_BASE i)).toNat + 8 * hw) 8 none with
    | (s, none) => dmaFail s i
    | (s, some v) =>
      match txAppend s c (BitVec.ofNat 32 v) with
      | none => s
      | some s => dmaAdvance s i true

/-- An image-mode channel takes one word; a full set is written to its point (R83). -/
def dmaImage (s : State) (i : Nat) : State :=
  let cfg := s.rd (EVF_DMA_CFG i)
  let c := fld cfg 23 16
  let h := s.dma i
  match fifoOf s true c with
  | [] => s
  | w :: r =>
    let s := fifoMark (setFifo s true c r) c 0 1
    if 2 ^ 32 ≤ w.toNat then
      (if h.words.isEmpty then s
       else ((s.setDma i {}).raise (EVF_DMA_STAT i) 0x2).satInc (EVF_DMA_STAT i) 31 16)
    else
      let t := s.tb 0
      let h : DmaH := { words := h.words ++ [BitVec.ofNat 32 w.toNat], ns := if h.words.isEmpty then t.ns else h.ns,
                        sec := if h.words.isEmpty then t.sec else h.sec, sub := if h.words.isEmpty then t.sub else h.sub }
      if h.words.length < fld cfg 12 8 then s.setDma i h
      else
        let p := s.fl (EVF_DMA_BASE i) 15 0
        let size := 4 * h.words.length
        match imgPut (s.setDma i {}) 14 (some i) p (h.words.flatMap (fun x => leBytes 4 x.toNat)) (some size) 0 h.ns h.sec h.sub with
        | (s, true) => s
        | (s, false) => dmaFail (logErr s 14 (0x24000000 + 64 * p) true 3) i

/-- An enabled channel has a record to move, or a FIFO whose group answers with an error (R82 to R85). -/
def dmaWaits (s : State) (i : Nat) : Bool :=
  let cfg := s.rd (EVF_DMA_CFG i)
  let c := fld cfg 23 16
  let hw := s.fl (EVF_DMA_HWPTR i) 15 0
  let sw := s.fl (EVF_DMA_SWPTR i) 15 0
  bitAt cfg 31 && (closed s 14 (blkGrp (c / 16)) ||
    (match fld cfg 30 29 with
     | 0 => !(fifoOf s true c).isEmpty && (hw + 1) % dmaLen s i != sw
     | 1 => hw != sw && decide ((fifoOf s false c).length < depth s false c)
     | _ => !(fifoOf s true c).isEmpty))

/-- The channel whose turn it is: the first that waits after the one served last, in rotation (R85). -/
def dmaTurn (s : State) : Option Nat := ((List.range 32).map (fun k => (s.dmaLast + 1 + k) % 32)).find? (dmaWaits s)

/-- DMA_TRANSFER: one record of an enabled channel whose turn it is, one in a CLK_FAB cycle (R85). -/
def dmaTransfer (s : State) (i : Nat) : State :=
  let cfg := s.rd (EVF_DMA_CFG i)
  let t := (s.cycles - s.clk0) / 2 + 1
  if inReset s blkEvf ∨ dmaTurn s ≠ some i ∨ s.dmaAt = t then s
  else
  let s : State := { s with dmaLast := i, dmaAt := t }
  if closed s 14 (blkGrp (fld cfg 23 16 / 16)) then dmaFifoErr s i
  else
    match fld cfg 30 29 with
    | 0 => dmaRx s i
    | 1 => dmaTx s i
    | _ => dmaImage s i

/-- A write that sets EN and is refused (R84). -/
def dmaBadEnable (s : State) (i : Nat) (v : Word) : Bool :=
  let c := fld v 23 16
  let mode := fld v 30 29
  let rx := mode != 1
  let base := (s.rd (EVF_DMA_BASE i)).toNat
  mode == 3 || donor s rx c || dmaBound s rx c ||
    (if mode = 2 then fld v 12 8 == 0 || decide (16 < fld v 12 8) || decide (65536 ≤ base)
     else decide (dmaLen s i < 2) || base % 8 != 0 || decide (base < 0x20000000) ||
       decide (0x21000000 < base + 8 * dmaLen s i))

/-- A write of a DMA channel register (R84). -/
def dmaWrite (s : State) (i o : Nat) (v : Word) : State × Resp :=
  let a := EVF_DMA_CFG i + o
  let on := s.bt (EVF_DMA_CFG i) 31
  if o = 0 then
    if on then (if bitAt v 31 ∨ fld v 30 29 = 3 then refuse s else accept ((s.softWrite a v).setDma i {}))
    else if fld v 30 29 = 3 ∨ (bitAt v 31 ∧ dmaBadEnable s i v) then refuse s
    else accept (s.softWrite a v)
  else if (o = 4 ∨ o = 8) ∧ on then refuse s
  else if o = 8 then accept (((s.softWrite a v).wr (EVF_DMA_HWPTR i) 0).wr (EVF_DMA_SWPTR i) 0)
  else if o = 0x10 ∧ dmaLen s i ≤ fld v 15 0 then refuse s
  else accept (s.softWrite a v)

/-- The channels that serve a group in reset fail (R400, R84). -/
def dmaGroupReset (s : State) (g : Nat) : State :=
  (List.range 32).foldl (fun s i =>
    let cfg := s.rd (EVF_DMA_CFG i)
    if bitAt cfg 31 && fld cfg 23 16 / 16 == g then
      dmaFifoErr s i else s) s

end Sys2Proof.Machine
end

