-- ==== Sys2Proof/Machine/Mailbox.lean ====
section
/-! DEFINITION. Mailboxes, the crossed-mailbox detector, locks and the ownership registers of shared memory (R317, R318,
R321 to R331). -/

namespace Sys2Proof.Machine

/-! ## Mailboxes (R321 to R328) -/

/-- SRC of a mailbox. -/
def mbxSrc (s : State) (k : Nat) : Nat := s.fl (MBX_CFG k) 20 16
/-- DST of a mailbox. -/
def mbxDst (s : State) (k : Nat) : Nat := s.fl (MBX_CFG k) 12 8
/-- EN of a mailbox. -/
def mbxOn (s : State) (k : Nat) : Bool := s.bt (MBX_CFG k) 31
/-- FULL of a mailbox. -/
def mbxFull (s : State) (k : Nat) : Bool := s.bt (MBX_STAT k) 31

/-- The power domain of a receiver that can be off (Table 14.1). -/
def masterDomain (m : Nat) : Option Nat :=
  if 1 ≤ m ∧ m ≤ 8 then some (m - 1) else if m = 9 ∨ m = 10 then some 8 else if m = 13 then some 25 else none

/-- The receiver's domain is off (R322, R326). -/
def mbxOff (s : State) (k : Nat) : Bool := match masterDomain (mbxDst s k) with | some d => domOff s d | none => false

/-- A pointer a send may carry (R322). -/
def mbxPtrOk (v : Word) : Bool := v.toNat % 8 == 0 && decide (0x20000000 ≤ v.toNat) && decide (v.toNat ≤ 0x20FFFFFF)

/-- The number of the next mailbox to become full. -/
def mbxOrd (s : State) : Nat := s.mbxH.foldl (fun n e => max n (e.2.ord + 1)) 0

/-- A send by master `m` (R322): accepted, or refused with an error response. -/
def mbxSend (s : State) (m k : Nat) (v : Word) (tag : Nat) : State × Resp :=
  if mbxOn s k = false ∨ (mbxSrc s k ≠ 0 ∧ mbxSrc s k ≠ m) then refuse s
  else if mbxFull s k then refuse (s.satInc (MBX_STAT k) 23 16)
  else if mbxPtrOk v = false ∨ mbxOff s k then refuse s
  else
    let s := ((s.wr (MBX_PTR k) v).setFl (MBX_TAG k) 15 0 tag).wrapInc (MBX_STAT k) 15 0
    let s := s.setBt (MBX_STAT k) 31 true
    accept { s with mbxH := smSet {} s.mbxH k { at_ := s.cycles, us := s.fl MBX_XTIME 15 0, ord := mbxOrd s } }

/-- A read of MBX_PTR by the receiver: the pointer, and FULL clears (R323). -/
def mbxReceive (s : State) (m k : Nat) : State × Resp :=
  if m ≠ mbxDst s k ∨ mbxOff s k ∨ mbxFull s k = false then refuse s
  else
    let s' := s.setBt (MBX_STAT k) 31 false
    accept { s' with mbxH := smErase s'.mbxH k, mbxX := s'.mbxX.filter (fun x => x.1 != k && x.2 != k) } (s.rd (MBX_PTR k))

/-- A read of MBX_TAG (R323). -/
def mbxTag (s : State) (m k : Nat) : State × Resp :=
  if m ≠ mbxDst s k ∨ mbxOff s k then refuse s else accept s (s.rd (MBX_TAG k))

/-- A reserved master ID in a mailbox field. -/
def reservedId (v : Nat) : Bool := decide (17 ≤ v) && decide (v ≤ 30)

/-- A write of MBX_CFG (R317, R321, Table 14.4). -/
def mbxConfig (s : State) (m k : Nat) (v : Word) : State × Resp :=
  if supervisor s m = false ∨ mbxFull s k ∨ reservedId (fld v 20 16) ∨ reservedId (fld v 12 8) ∨ fld v 12 8 = 0 then refuse s
  else accept (s.softWrite (MBX_CFG k) v)

/-- Two mailboxes are crossed (R327). -/
def crossed (s : State) (a b : Nat) : Bool :=
  a != b && mbxOn s a && mbxOn s b && mbxSrc s a == mbxDst s b && mbxDst s a == mbxSrc s b && mbxSrc s a != 0 && mbxSrc s b != 0

/-- When a full mailbox became full, and the XTIME of that instant. -/
def State.mbxAt (s : State) (k : Nat) : MbxH := smGet {} s.mbxH k

/-- MAILBOX_CROSSED: a crossed pair has been full for the XTIME that applies to it (R327). -/
def mbxCross (s : State) (a b : Nat) : State :=
  let late := if (s.mbxAt a).ord ≤ (s.mbxAt b).ord then s.mbxAt b else s.mbxAt a
  if crossed s a b && mbxFull s a && mbxFull s b && late.us != 0 && decide (late.at_ + late.us * 1000 ≤ s.cycles) &&
      !s.mbxX.contains (a, b) && !s.mbxX.contains (b, a) then
    let s := (s.setBt (MBX_STAT a) 30 true).setBt (MBX_STAT b) 30 true
    { s with mbxX := s.mbxX ++ [(a, b)] }
  else s

/-! ## Locks (R329, R330) -/

/-- A read of a lock: a free lock is taken by the reader (R329). -/
def lockRead (s : State) (m k : Nat) : State × Resp :=
  let o := s.fl (MBX_LK k) 4 0
  if o = 0 then accept (s.setFl (MBX_LK k) 4 0 m) 0 else accept s (BitVec.ofNat 32 o)

/-- A write of a lock: OWNER = 0 from the owner or a supervisor releases it (R329). -/
def lockWrite (s : State) (m k : Nat) (v : Word) : State × Resp :=
  let o := s.fl (MBX_LK k) 4 0
  if fld v 4 0 ≠ 0 ∨ o = 0 ∨ (m ≠ o ∧ supervisor s m = false) then refuse s
  else
    let s := s.setFl (MBX_LK k) 4 0 0
    accept (if m = o then s else s.satInc MBX_LKFREE 31 16)

/-- LOCK_RESET_RELEASE: the locks of a master in reset are released and counted (R330). -/
def locksOf (s : State) (m : Nat) : State :=
  (List.range 32).foldl (fun s k =>
    if s.fl (MBX_LK k) 4 0 == m && m != 0 then (s.setFl (MBX_LK k) 4 0 0).satInc MBX_LKFREE 15 0 else s) s

/-! ## Ownership registers (R317, R318) -/

/-- A write of MEM_OWN (R318, Table 14.6). -/
def ownWrite (s : State) (m n : Nat) (v : Word) : State × Resp :=
  let x := fld v 4 0
  let bad := if bitAt v 8 then decide (7 < x) else x == 0 || reservedId x
  if bad ∨ (owns s m n = false ∧ supervisor s m = false) then refuse s else accept (s.softWrite (MEM_OWN n) v)

/-- A write of MEM_GRP (R317, R318); its reserved bits are ignored (R7). -/
def grpWrite (s : State) (m g : Nat) (v : Word) : State × Resp :=
  if supervisor s m = false then refuse s else accept (s.softWrite (MEM_GRP g) v)

/-- A write of MEM_SUPV (R317). -/
def supvWrite (s : State) (m : Nat) (v : Word) : State × Resp :=
  if supervisor s m = false ∨ 15 < fld v 4 0 then refuse s else accept (s.softWrite MEM_SUPV v)

/-! ## The register block, but for the diagnostic registers (R331) -/

/-- A write of a mailbox, lock or shared-memory register. -/
def mbxWrite (s : State) (m off : Nat) (v : Word) : State × Resp :=
  let k := off / 0x20
  if off < 0x800 then
    (if off % 0x20 = 0 then mbxConfig s m k v
     else if off % 0x20 = 4 then mbxSend s m k v (fld (s.mrd m MBX_TAGSTG) 15 0)
     else if off % 0x20 = 8 ∧ mbxOff s k then refuse s
     else accept (s.softWrite (0x34000000 + off) v))
  else if off = 0x800 then accept (s.mwr m MBX_TAGSTG (v &&& 0xFFFF))
  else if 0x900 ≤ off ∧ off < 0x980 then lockWrite s m ((off - 0x900) / 4) v
  else if 0x8000 ≤ off ∧ off < 0x8080 then ownWrite s m ((off - 0x8000) / 4) v
  else if 0x8080 ≤ off ∧ off < 0x80A0 then grpWrite s m ((off - 0x8080) / 4) v
  else if off = 0x80A0 then supvWrite s m v
  else accept (s.softWrite (0x34000000 + off) v)

/-- A read of a mailbox, lock or shared-memory register. -/
def mbxRead (s : State) (m off : Nat) : State × Resp :=
  let k := off / 0x20
  let a := 0x34000000 + off
  if off < 0x800 ∧ off % 0x20 = 4 then mbxReceive s m k
  else if off < 0x800 ∧ off % 0x20 = 8 then mbxTag s m k
  else if off = 0x800 then accept s (s.mrd m MBX_TAGSTG)
  else if 0x900 ≤ off ∧ off < 0x980 then lockRead s m ((off - 0x900) / 4)
  else accept (s.readClear a) (s.rd a)

end Sys2Proof.Machine
end

