-- ==== Sys2Proof/Machine/Shadow.lean ====
section
/-! DEFINITION. Shadow cells: the rotation, Sg's own copy of the visited cell, which takes every input the cell takes (R110, R111),
mismatches, takeover and the SAFE and SUSPECT states (R109 to R118). -/

namespace Sys2Proof.Machine

/-- EVF_SHD_STATUS.STATE: 0 IDLE, 1 COPY, 2 COMPARE, 3 TAKEOVER, 4 SAFE, 5 SUSPECT. -/
def shdState (s : State) (g : Nat) : Nat := s.fl (EVF_SHD_STATUS g) 31 29

/-- STATUS.CUR. -/
def shdCur (s : State) (g : Nat) : Nat := s.fl (EVF_SHD_STATUS g) 23 20

/-- The state of a shadow cell that no register shows. -/
def State.shd (s : State) (g : Nat) : ShadowH := smGet {} s.shdH g

/-- Setting it. -/
def State.setShd (s : State) (g : Nat) (h : ShadowH) : State := { s with shdH := smSet {} s.shdH g h }

/-- A cell a visit may begin at (R109). -/
def shdEligible (s : State) (g i : Nat) : Bool :=
  !s.bt (EVF_SHD_EXCL g) i && s.fl (CELL_MODE (16 * g + i)) 1 0 == 0

/-- A visit of cell `i` begins in cycle `v` with its COPY phase. -/
def shdVisit (s : State) (g i v : Nat) : State :=
  ((s.setFl (EVF_SHD_STATUS g) 31 29 1).setFl (EVF_SHD_STATUS g) 23 20 i).setShd g { s.shd g with since := v, copy := none }

/-- The rotation after the cell CUR, in cycle `v`: the next eligible cell, from the first again after the last, which completes a
pass (R109, Table 5.16); IDLE with none. -/
def shdNext (s : State) (g v : Nat) : State :=
  let cur := shdCur s g
  match ((List.range 16).filter (fun i => decide (cur < i) && shdEligible s g i)),
      ((List.range 16).filter (fun i => shdEligible s g i)) with
  | i :: _, _ => shdVisit s g i v
  | [], i :: _ => shdVisit (s.wrapInc (EVF_SHD_COUNT g) 15 0) g i v
  | [], [] => (s.setFl (EVF_SHD_STATUS g) 31 29 0).setShd g { s.shd g with copy := none }

/-- The rotation begins with the group's lowest eligible cell, after a reset (R117). -/
def shdBegin (s : State) (g : Nat) : State :=
  match (List.range 16).filter (fun i => shdEligible s g i) with
  | i :: _ => shdVisit s g i s.cycles
  | [] => s

/-- An IDLE shadow cell finds a cell eligible (R109): the first above CUR, else the lowest; such a wrap counts no pass (DESIGN
CHOICE, log entry 82). -/
def shdWake (s : State) (g : Nat) : State :=
  if shdState s g = 0 ∧ inReset s (blkGrp g) = false then
    match (List.range 16).filter (fun i => shdEligible s g i) with
    | [] => s
    | i :: r => shdVisit s g (((i :: r).filter (fun j => decide (shdCur s g < j))).headD i) s.cycles
  else s

/-! ## Sg's copy (R110, R111) -/

/-- Offsets of a cell block in the set of R110: STATUS, SHCFG, DIV, SGRP, the shifter, the counters, the flags, the event slots,
PINCFG, PINS, the check-unit state but its counts, and the banks. -/
def shdOff (o : Nat) : Bool :=
  o == 0x04 || o == 0x0C || o == 0x10 || o == 0x14 || (decide (0x28 ≤ o) && decide (o < 0x48)) || o == 0x4C ||
    (decide (0x100 ≤ o) && decide (o < 0x128)) || decide (0x800 ≤ o)

/-- The register at `a` is of cell `c`'s set of R110. -/
def shdHolds (c a : Nat) : Bool :=
  (decide (CELL_CTRL c ≤ a) && decide (a < CELL_CTRL c + 0x1000) && shdOff (a % 0x1000)) || a == EVF_DSRC c || a == EVF_DRSP c

/-- The set of R110 of a cell, as it stands. -/
def shdTake (s : State) (c : Nat) : ShdCopy :=
  { regs := s.regs.filter (fun e => shdHolds c e.1), h := s.cell c, tx := (fifoOf s false c).length,
    rx := (fifoOf s true c).length }

/-- The set put in place of cell `c`'s own, but for the FIFOs. -/
def shdPut (s : State) (c : Nat) (k : ShdCopy) : State :=
  State.setCell { s with regs := k.regs.foldl (fun m e => smInsert m e.1 e.2) (s.regs.filter (fun e => !shdHolds c e.1)) } c k.h

/-- The part as Sg sees it: its own set in place of the cell's, its own FIFO levels, and the word the cell's TX FIFO presents at
its head (R111). -/
def shdView (s : State) (c : Nat) (k : ShdCopy) : State :=
  let s := shdPut s c k
  let s := if donor s false c then s else setFifo s false c (List.replicate k.tx ((fifoOf s false c).headD 0))
  if donor s true c then s else setFifo s true c (List.replicate k.rx 0)

/-- Sg's copy of cell `c`, if Sg compares with that cell. -/
def shdOn (s : State) (c : Nat) : Option ShdCopy :=
  if shdState s (c / 16) = 2 ∧ shdCur s (c / 16) = c % 16 then (s.shd (c / 16)).copy else none

/-- Sg's copy replaced. -/
def shdKeep (s : State) (c : Nat) (k : ShdCopy) : State := s.setShd (c / 16) { s.shd (c / 16) with copy := some k }

/-- An input `f` of cell `c` also reaches the shadow cell that compares with it (R111): `r` is the cell's part of it. -/
def mirrorOn (s r : State) (c : Nat) (f : State → State) : State :=
  match shdOn s c, shdOn r c with
  | some k, some _ => shdKeep r c (shdTake (f (shdView s c k)) c)
  | _, _ => r

/-- An input `f` of cell `c`, at the cell and at the shadow cell that compares with it (R111). -/
def mirror (s : State) (c : Nat) (f : State → State) : State := mirrorOn s (f s) c f

/-- The KIND bits 0 to 3 that differ between the cell and Sg (Table 5.5). -/
def pinDiff (s : State) (c : Nat) (k : ShdCopy) : Nat :=
  let x := s.rd (CELL_PINS c) ^^^ smGet (resetWord (CELL_PINS c)) k.regs (CELL_PINS c)
  (bitAt x 2).toNat + 2 * (bitAt x 4).toNat + 4 * (bitAt x 3).toNat + 8 * (bitAt x 5).toNat

/-- The word a tick pushed into the cell's RX FIFO, if it pushed one. -/
def pushed (s t : State) (c : Nat) : Option (BitVec 33) :=
  if (fifoOf s true c).length < (fifoOf t true c).length then (fifoOf t true c).getLast? else none

/-- The KIND bits 5 to 8 that differ between the tick of the cell, from `s` to `t` with pulses `ch`, and that of Sg (Table 5.5). -/
def tickDiff (s t : State) (ch : List Nat) (s' t' : State) (ch' : List Nat) (c : Nat) : Nat :=
  let pull := decide ((fifoOf t false c).length < (fifoOf s false c).length) != decide ((fifoOf t' false c).length < (fifoOf s' false c).length)
  let x := pushed s t c
  let y := pushed s' t' c
  let kind := x.map (fun w => decide (2 ^ 32 ≤ w.toNat)) != y.map (fun w => decide (2 ^ 32 ≤ w.toNat))
  let word := x.map (fun w => w.toNat % 2 ^ 32) != y.map (fun w => w.toNat % 2 ^ 32)
  32 * pull.toNat + 64 * kind.toNat + 128 * word.toNat + 256 * (ch != ch').toNat

/-- SHADOW_SNAPSHOT: the COPY phase has lasted its 129 cycles, and Sg takes the cell's state (R109, R110). Bank writes of the COPY
phase complete at both, so the banks are taken with the rest. -/
def shdSnapshot (s : State) (g : Nat) : State :=
  if shdState s g = 1 ∧ inReset s (blkGrp g) = false ∧ (s.shd g).since + 128 ≤ s.cycles then
    (s.setFl (EVF_SHD_STATUS g) 31 29 2).setShd g { s.shd g with copy := some (shdTake s (16 * g + shdCur s g)) }
  else s

/-- The cycle after the COMPARE phase of a visit: 129 cycles of COPY and 2^(DWELL + 10) of COMPARE after its begin (R109). -/
def shdEnd (s : State) (g : Nat) : Nat := (s.shd g).since + 129 + 2 ^ (s.fl (EVF_SHD_CTRL g) 7 4 + 10)

/-- SHADOW_COMPARE_END: the COMPARE phase has run to its end, a good compare; the next visit begins in the cycle after it (R109,
R112). -/
def shdGood (s : State) (g : Nat) : State :=
  if shdState s g = 2 ∧ inReset s (blkGrp g) = false ∧ shdEnd s g ≤ s.cycles then
    shdNext (s.setShd g { s.shd g with lastMis := none }) g (shdEnd s g)
  else s

/-- The visit of a cell ends with no verdict (R112): a mismatch before it and one after it are in no consecutive visits (R115;
DEDUCED, log entry 20). -/
def shdNoVerdict (s : State) (g : Nat) : State :=
  if shdState s g = 1 ∨ shdState s g = 2 then shdNext (s.setShd g { s.shd g with lastMis := none }) g (s.cycles + 1) else s

/-- Flags, record, count and interrupt of a mismatch (R113). -/
def shdRecord (s : State) (g kind : Nat) : State :=
  let cur := shdCur s g
  let s := (s.setBt (EVF_SHD_STATUS g) cur true).setBt (EVF_SHD_STATUS g) 28 true
  let t := s.tb 0
  let s := if s.bt (EVF_SHD_MMREC g) 31 then s
    else ((s.wr (EVF_SHD_MMREC g) (BitVec.ofNat 32 (2 ^ 31 + cur * 2 ^ 20 + kind % 512))).wr (EVF_SHD_MMTS_NS g)
      (BitVec.ofNat 32 t.ns)).wr (EVF_SHD_MMTS_SEC g) (BitVec.ofNat 32 (t.sec % 2 ^ 16 * 2 ^ 16))
  (s.satInc (EVF_SHD_COUNT g) 31 16).raise (EVF_SHD_IRQSTAT g) 0x1

/-- Sg stops in SUSPECT (R115). -/
def shdSuspect (s : State) (g : Nat) : State :=
  State.raise ((s.setFl (EVF_SHD_STATUS g) 31 29 5).setShd g { s.shd g with copy := none }) (EVF_SHD_IRQSTAT g) 0x8

/-- SHADOW_TAKEOVER: the cell enters STOPPED with its position recorded, and Sg's state takes its place at the registers, the pins,
the FIFOs and the channels (R113, R114). -/
def shdTakeover (s : State) (g : Nat) : State :=
  let c := 16 * g + shdCur s g
  let s := match (s.shd g).copy with
    | none => s
    | some k => shdKeep (shdPut s c k) c (shdTake (if cellState s c = 0 then s else enterStopped s c) c)
  (s.setFl (EVF_SHD_STATUS g) 31 29 3).raise (EVF_SHD_IRQSTAT g) 0x2

/-- SHADOW_SAFE: every cell of the group stops and the keepers take the bank (R113, Table 5.6). -/
def shdSafe (s : State) (g : Nat) : State :=
  let s := (List.range 16).foldl (fun s i => if cellState s (16 * g + i) = 0 then s else enterStopped s (16 * g + i)) s
  keepSync (State.raise ((s.setFl (EVF_SHD_STATUS g) 31 29 4).setShd g { s.shd g with copy := none }) (EVF_SHD_IRQSTAT g) 0x4)

/-- A difference in the signals `kind`: the record, then the policy (R113, R115). -/
def shdDiffer (s : State) (g kind : Nat) : State :=
  let cur := shdCur s g
  let s := shdRecord s g kind
  let policy := s.fl (EVF_SHD_CTRL g) 1 0
  if policy = 1 then shdTakeover s g
  else if policy = 2 then shdSafe s g
  else if (s.shd g).lastMis.isSome ∧ (s.shd g).lastMis ≠ some cur then shdSuspect s g
  else shdNext (s.setShd g { s.shd g with lastMis := some cur }) g (s.cycles + 1)

/-- The comparison of the pins after an input of cell `c` (R111, Table 5.5). -/
def shdCheck (s : State) (c : Nat) : State :=
  match shdOn s c with
  | none => s
  | some k => if pinDiff s c k = 0 then s else shdDiffer s (c / 16) (pinDiff s c k)

/-- An input of cell `c`, at the cell and at Sg, and the comparison. -/
def cellInput (s : State) (c : Nat) (f : State → State) : State := shdCheck (mirror s c f) c

/-- The faulty one of the two, in its set of R110: the pin bits that KIND names are inverted, and where it names the tick, the pull,
the push or its word, the divider and the shifter hold what the fault left there, which is free (DESIGN CHOICE, log entry 12). -/
def shdFaulty (s : State) (c kind : Nat) : State :=
  let flip (s : State) (b k : Nat) : State :=
    if kind / 2 ^ k % 2 = 1 then s.setBt (CELL_PINS c) b (!s.bt (CELL_PINS c) b) else s
  let s := flip (flip (flip (flip s 2 0) 4 1) 3 2) 5 3
  let s := if kind / 16 % 2 = 1 then
      (s.free.2).setCell c { s.cell c with acc := s.free.1.toNat % 256, next := some (s.cycles + 1 + s.free.1.toNat / 256 % 2 ^ 16) }
    else s
  if kind / 32 % 8 = 0 then s else (s.free.2).wr (CELL_SHIFT c) (s.free.1 &&& ones (s.cell c).width)

/-- SHADOW_MISMATCH: a fault in the cell or in Sg makes a compared signal differ (R113). -/
def shdMismatch (s : State) (g kind : Nat) (inCell : Bool) : State :=
  let c := 16 * g + shdCur s g
  if kind % 512 = 0 ∨ inReset s (blkGrp g) then s
  else
    match shdOn s c with
    | none => s
    | some k =>
      if inCell then shdDiffer (shdFaulty s c kind) g (kind % 512)
      else
        let v := shdFaulty (shdView s c k) c kind
        shdDiffer (shdKeep { s with freeCtr := v.freeCtr } c (shdTake v c)) g (kind % 512)

/-- A command written to EVF_SHD_CMD by master `m` (Table 5.16): RELEASE, SKIP, RETIRE. At RELEASE cell `c` enters STOPPED with Sg's
state. DESIGN CHOICE (log 99): a pending swap takes effect then, as at the entries to STOPPED that R58 names. -/
def shdCommand (s : State) (m g op : Nat) : State × Option Nat :=
  let st := shdState s g
  if op = 0 then (s, none)
  else if op = 1 then
    if st ≠ 3 then (s, some 3)
    else
      let c := 16 * g + shdCur s g
      (shdNext (if cellState s c = 0 then s else enterStopped s c) g (s.cycles + 1), none)
  else if op = 2 then (if st = 1 ∨ st = 2 then (shdNoVerdict s g, none) else (s, some 3))
  else if st = 3 ∨ st = 4 ∨ supervisor s m = false then (s, some 3)
  else (shdSuspect s g, none)

/-- A write of a register of SHD[g] by master `m` (R117). -/
def shdWrite (s : State) (m g o : Nat) (v : Word) : State × Option Nat :=
  if o = 0x1C then shdCommand s m g (fld v 1 0)
  else if o = 0 ∧ fld v 1 0 = 3 then (s, some 3)
  else (s.softWrite (EVF_SHD_CTRL g + o) v, none)

/-- The state of Sg at a reset of its group, its registers cleared by the caller. -/
def shdReset (s : State) (g : Nat) : State := s.setShd g {}

end Sys2Proof.Machine
end

