-- ==== Sys2Proof/Machine/Switch.lean ====
section
/-! DEFINITION. The Ethernet switch (R283 to R311): frames, the forwarding database, streams and meters, queues, gates,
launch times, descriptor rings and PRP, with the PTP handling of R178 to R184. -/

namespace Sys2Proof.Machine

/-! ## Frames -/

/-- Big-endian value of bytes. -/
def beNat (l : List Byte) : Nat := leNat l.reverse

/-- A frame taken apart: addresses, VLAN tag, R-tag sequence number, bytes from the EtherType. -/
structure Rx where
  da : List Byte
  sa : List Byte
  tci : Option Nat
  rseq : Option Nat
  body : List Byte
deriving DecidableEq, Repr

/-- Taking a frame apart: one VLAN tag (0x8100), then an R-tag (0xF1C1). -/
def parseFrame (d : List Byte) : Rx :=
  let r := d.drop 12
  let tagged := beNat (r.take 2) == 0x8100
  let tci := if tagged then some (beNat ((r.drop 2).take 2)) else none
  let r := if tagged then r.drop 4 else r
  let red := beNat (r.take 2) == 0xF1C1
  { da := d.take 6, sa := (d.drop 6).take 6, tci := tci, rseq := if red then some (beNat ((r.drop 4).take 2)) else none,
    body := if red then r.drop 6 else r }

/-- The Ethernet FCS function (R285). -/
def ethCrc (l : List Byte) : Nat := crcBytes 32 0x04C11DB7 0xFFFFFFFF 0xFFFFFFFF true true l

/-- A group destination. -/
def isGroup (da : List Byte) : Bool := (da.headD 0).toNat % 2 == 1

/-- The bytes a copy leaves with before padding and trailer. -/
def copyBytes (c : SwCopy) : List Byte :=
  c.da ++ c.sa ++ (match c.tci with | some t => [0x81, 0x00] ++ (leBytes 2 t).reverse | none => []) ++
    (match c.rseq with | some q => [0xF1, 0xC1, 0, 0] ++ (leBytes 2 q).reverse | none => []) ++ c.body

/-- Cells a frame of a length occupies (R286). -/
def cellsOf (len : Nat) : Nat := (len + 127) / 128

/-! ## PTP messages (R180 to R184) -/

/-- Where the PTP header starts in the bytes from the EtherType, and whether the message came by UDP: none if it is no PTP
message on 0x88F7 or port 319 or 320. -/
def ptpAt (body : List Byte) : Option (Nat × Bool) :=
  let et := beNat (body.take 2)
  if et = 0x88F7 then some (2, false)
  else if et = 0x0800 ∧ (body.getD 2 0).toNat / 16 = 4 ∧ body.getD 11 0 = 17 then
    let ihl := (body.getD 2 0).toNat % 16 * 4
    let port := beNat ((body.drop (4 + ihl)).take 2)
    if port = 319 ∨ port = 320 then some (10 + ihl, true) else none
  else none

/-- messageType of the message at an offset. -/
def ptpType (body : List Byte) (o : Nat) : Nat := (body.getD o 0).toNat % 16

/-- The enabled instance a message matches (R181). -/
def ptpInstance (s : State) (body : List Byte) : Option (Nat × Nat × Bool) :=
  match ptpAt body with
  | none => none
  | some (o, udp) =>
    ((List.range 4).find? (fun i =>
      let w := s.rd (TU_PTPDOM i)
      bitAt w 31 && (!udp || bitAt w 30) && fld w 19 16 == (body.getD o 0).toNat / 16 &&
        fld w 7 0 == (body.getD (o + 4) 0).toNat)).map (fun i => (i, o, udp))

/-- The message is an event message: Sync, Delay_Req, Pdelay_Req or Pdelay_Resp. -/
def ptpEvent (s : State) (body : List Byte) : Option Nat :=
  match ptpInstance s body with
  | some (i, o, _) => if ptpType body o < 4 then some i else none
  | none => none

/-- A Pdelay message that R182 sends to the device service. -/
def ptpToService (s : State) (body : List Byte) : Bool :=
  match ptpInstance s body with
  | some (i, o, _) => let k := ptpType body o; (k == 2 || k == 3 || k == 10) && decide (2 ≤ s.fl (TU_PTPDOM i) 25 24)
  | none => false

/-- Replacing the bytes of a list from an index. -/
def putAt (l : List Byte) (i : Nat) (v : List Byte) : List Byte := l.take i ++ v ++ l.drop (i + v.length)

/-- One's complement sum of two 16-bit words. -/
def ocAdd (a b : Nat) : Nat := if a + b < 65536 then a + b else a + b - 65535

/-- The one's complement sum after the octets `old` become `new`. -/
def ocFix : Nat → List Byte → List Byte → Nat
  | c, a :: b :: r, x :: y :: t => ocFix (ocAdd (ocAdd c (65535 - beNat [a, b])) (beNat [x, y])) r t
  | c, _, _ => c

/-- Writing octets of a message; the UDP checksum, if used, is corrected incrementally (R182). -/
def ptpPut (body : List Byte) (o : Nat) (udp : Bool) (i : Nat) (v : List Byte) : List Byte :=
  let new := putAt body (o + i) v
  if udp = false then new
  else
    let c := beNat ((body.drop (o - 2)).take 2)
    if c = 0 then new
    else
      let c' := 65535 - ocFix (65535 - c) ((body.drop (o + i)).take v.length) v
      putAt new (o - 2) ((leBytes 2 (if c' = 0 then 65535 else c')).reverse)

/-- Adding a signed amount to the correctionField (64 bits, two's complement). -/
def ptpAddCf (body : List Byte) (o : Nat) (udp : Bool) (x : Int) : List Byte :=
  let cf := beNat ((body.drop (o + 8)).take 8)
  ptpPut body o udp 8 ((leBytes 8 (wrapI 64 ((cf : Int) + x))).reverse)

/-- An instant of a timebase in 125 ps units, `sub` eighths of a cycle after its start, with a signed latency in ps. -/
def stamp125 (x : TB) (sub : Nat) (ps : Int) : Int := ((x.total + sub * 2 ^ 29 : Nat) + ps * 2 ^ 32 / 1000) / 2 ^ 29

/-- Seconds, nanoseconds and sub-nanoseconds of an instant in 125 ps units. -/
def split125 (t : Int) : Nat × Nat × Nat :=
  let n := t.toNat
  (n / 8000000000, n / 8 % 1000000000, n % 8)

/-- The recorded ingress instant in timebase `t` (R178). -/
def ingressAt (s : State) (p t sub : Nat) : Int := stamp125 (s.tb t) sub (-(s.rd (TU_PORT_INLAT p)).toInt)
/-- The recorded egress instant in timebase `t` (R178). -/
def egressAt (s : State) (p t sub : Nat) : Int := stamp125 (s.tb t) sub (s.rd (TU_PORT_EGLAT p)).toInt

/-- PTP_CORRECTION: residence and link delay into a transit message (R182). -/
def ptpCorrect (s : State) (p : Nat) (c : SwCopy) (i o : Nat) (udp : Bool) (tOut : Int) : State × List Byte :=
  let mode := s.fl (TU_PTPDOM i) 25 24
  let k := ptpType c.body o
  let alters := (mode == 1 && (k == 0 || k == 1)) || (decide (2 ≤ mode) && k == 0)
  if alters && decide (c.src < 12) && s.bt (TU_PORT_CFG p) 0 then
    let res := tOut - c.tIn
    let dly : Int := if 2 ≤ mode then (s.rd (TU_PORT_LINKDLY c.src)).toNat else 0
    let body := ptpAddCf c.body o udp (res * 8192 + dly)
    let body := if mode = 3 ∧ beNat ((body.drop (o + 44)).take 2) = 3 then
        let old := beNat ((body.drop (o + 54)).take 4)
        ptpPut body o udp 54 ((leBytes 4 (wrapI 32 ((old : Int) + (s.rd (TU_PORT_NRRO c.src)).toInt))).reverse)
      else body
    (if 8000000 < res then s.satInc (TU_PORT_CFG p) 31 16 else s, body)
  else (s, c.body)

/-- A one-step message of the device service: the egress time into originTimestamp of a Sync, else into correctionField
(R184). -/
def ptpOneStep (body : List Byte) (o : Nat) (udp : Bool) (tOut : Int) : List Byte :=
  let (sec, ns, _) := split125 tOut
  if ptpType body o = 0 then ptpPut body o udp 34 ((leBytes 6 sec).reverse ++ (leBytes 4 ns).reverse)
  else ptpAddCf body o udp (tOut * 8192)

/-- TSQ_ENTRY of a frame that leaves port `p` (R184). -/
def tsqRecord (s : State) (p : Nat) (c : SwCopy) (tOut : Int) : State :=
  let (sec, ns, sub) := split125 tOut
  match ptpAt c.body with
  | some (o, _) =>
    tsqPush s { port := p, msgType := ptpType c.body o, domain := (c.body.getD (o + 4) 0).toNat,
                seqId := beNat ((c.body.drop (o + 30)).take 2), ns := ns, sec := sec, sub := sub }
  | none =>
    let (w, s) := s.free
    tsqPush s { port := p, msgType := fld w 27 24, domain := fld w 23 16, seqId := fld w 15 0, ns := ns, sec := sec, sub := sub }

/-! ## Ports, queues and buffer accounting -/

/-- The switch is powered and out of reset. -/
def swLive (s : State) : Bool := !inReset s 26 && !domOff s 25

/-- Port state: internal ports are always FORWARDING (R289). -/
def portState (s : State) (p : Nat) : Nat := if 12 ≤ p then 3 else s.fl (SW_P_CFG p) 31 30

/-- The link is up; internal ports have none to lose. -/
def linkUp (s : State) (p : Nat) : Bool := decide (12 ≤ p) || s.bt (SW_P_LINK p) 31

/-- MAXLEN of a port. -/
def maxLen (s : State) (p : Nat) : Nat := s.fl (SW_P_CFG p) 10 0

/-- The PRP pair of a port, if that pair is enabled (R308). -/
def prpPair (s : State) (p : Nat) : Option Nat := if p < 4 ∧ s.bt (SW_PRP_CFG (p / 2)) 31 then some (p / 2) else none

/-- The copies of queue `q`, head first. -/
def swQueue (s : State) (q : Nat) : List SwCopy := smGet [] s.swq q
/-- Setting a queue. -/
def setSwQueue (s : State) (q : Nat) (l : List SwCopy) : State := { s with swq := smSet [] s.swq q l }

/-- Cells of a list of copies. -/
def cellsHeld (l : List SwCopy) : Nat := l.foldl (fun n c => n + cellsOf c.len) 0

/-- Every copy held. -/
def allCopies (s : State) : List SwCopy := s.swq.flatMap (fun e => e.2)

/-- Reserve cells in use (Table 13.9). -/
def privUsed (s : State) : Nat := (allCopies s).foldl (fun n c => n + c.resv) 0

/-- Free cells of the reserve, and of the shared remainder (R297). -/
def reserveFree (s : State) : Nat := s.fl SW_BUFCFG 15 0 - privUsed s
/-- Free shared cells. -/
def sharedFree (s : State) : Nat := 49152 - s.fl SW_BUFCFG 15 0 - (cellsHeld (allCopies s) - privUsed s)

/-- The queue is privileged (R296). -/
def privQueue (s : State) (q : Nat) : Bool := (q % 8 == 7 && decide (96 ≤ q)) || s.bt (SW_Q_CFG q) 31

/-- The charge of port `i` and class `c`: cells of the privileged copies held (R298). -/
def charge (s : State) (i c : Nat) : Nat := cellsHeld ((allCopies s).filter (fun x => x.priv && x.src == i && x.cls == c))

/-- The source (i, c) is held. -/
def held (s : State) (i c : Nat) : Bool := smGet false s.swHold (8 * i + c)

/-- Byte time of a line rate in ps, by SPEED code. -/
def byteTime (speed : Nat) : Nat := [80000, 80000, 8000, 3200, 1600, 800].getD speed 800

/-- The time of `n` pause quanta of 512 bit times in nanoseconds (R299). -/
def quantaTime (s : State) (p n : Nat) : Nat := n * 64 * byteTime (s.fl (SW_P_LINK p) 28 26) / 1000

/-- A PFC frame of an external port (R298). -/
def sendPfc (s : State) (p c quanta : Nat) : State :=
  State.emit { s.satInc (SW_P_CNT4 p) 15 0 with pfcAt := smSet 0 s.pfcAt (8 * p + c) s.cycles } (.pfc p c quanta)

/-- PFC_XOFF: the charge has risen to XOFF (R298). The thresholds of an internal port, whose register R310 refuses, stay 0 (DEDUCED, log
entry 103). -/
def pfcRise (s : State) (i c : Nat) : State :=
  if held s i c || decide (charge s i c < s.fl (SW_P_PFCTH i) 31 16) || charge s i c == 0 then s
  else if 12 ≤ i then { s with swHold := smSet false s.swHold (8 * i + c) true }
  else if s.bt (SW_P_PFC i) (24 + c) then
    sendPfc { s with swHold := smSet false s.swHold (8 * i + c) true } i c (s.fl (SW_P_PFC i) 15 0)
  else s

/-- PFC_XON: the charge has fallen to XON (R298). -/
def pfcFall (s : State) (i c : Nat) : State :=
  if held s i c && decide (charge s i c ≤ s.fl (SW_P_PFCTH i) 15 0) then
    let s : State := { s with swHold := smSet false s.swHold (8 * i + c) false }
    if 12 ≤ i then s else sendPfc s i c 0
  else s

/-- The end of every hold whose charge has fallen to XON, whichever copies have gone. -/
def pfcFalls (s : State) : State := s.swHold.foldl (fun s e => pfcFall s (e.1 / 8) (e.1 % 8)) s

/-! ## Gates and launch times (R300 to R304) -/

/-- The gate cycle of a port. -/
def gate (s : State) (p : Nat) : GateH := smGet {} s.gates p
/-- Setting it. -/
def setGate (s : State) (p : Nat) (g : GateH) : State := { s with gates := smSet {} s.gates p g }

/-- The active bank and its length. -/
def gBank (s : State) (p : Nat) : Nat := (s.bt (SW_P_GCTRL p) 30).toNat
/-- GLEN of the active bank. -/
def gLen (s : State) (p : Nat) : Nat := if gBank s p = 0 then s.fl (SW_P_GCTRL p) 8 0 else s.fl (SW_P_GCTRL p) 24 16
/-- Entry `e` of the active bank. -/
def gEntry (s : State) (p e : Nat) : Word := s.rd (SW_GATE p (gBank s p) e)

/-- Gates operate at the port: GEN is 1 and a first cycle has started (R300). -/
def gatesRun (s : State) (p : Nat) : Bool := decide (p < 12) && s.bt (SW_P_GCTRL p) 31 && (gate s p).on

/-- The gate of class `c` is open (R301). -/
def gateOpen (s : State) (p c : Nat) : Bool := !gatesRun s p || bitAt (gEntry s p (gate s p).idx) (24 + c)

/-- GBASE and T_n in nanoseconds. -/
def gBase (s : State) (p : Nat) : Nat :=
  nsOf (s.fl (SW_P_GBASE_SECHI p) 15 0 * 2 ^ 32 + (s.rd (SW_P_GBASE_SECLO p)).toNat) (s.fl (SW_P_GBASE_NS p) 29 0)
/-- GCHG in nanoseconds. -/
def gChg (s : State) (p : Nat) : Nat :=
  nsOf (s.fl (SW_P_GCHG_SECHI p) 15 0 * 2 ^ 32 + (s.rd (SW_P_GCHG_SECLO p)).toNat) (s.fl (SW_P_GCHG_NS p) 29 0)
/-- The cycle time. -/
def gCyc (s : State) (p : Nat) : Nat := s.fl (SW_P_GCYCLE p) 29 0

/-- The sum of the intervals of entries 0 to e - 1. -/
def gSum (s : State) (p e : Nat) : Nat := (List.range e).foldl (fun t i => t + fld (gEntry s p i) 23 0) 0

/-- A frame of `len` bytes fits before its gate next closes within the current list (R303): worked with 8 bytes of preamble
and 12 of gap as the spec's example does. -/
def gateFits (s : State) (p c len : Nat) : Bool :=
  if gatesRun s p = false then true
  else
    let g := gate s p
    match ((List.range (gLen s p)).filter (fun e => decide (g.idx < e))).find? (fun e => !bitAt (gEntry s p e) (24 + c)) with
    | none => true
    | some e =>
      let t0 := gBase s p + (g.cycle.getD 0) * gCyc s p
      let now := nsOf (s.tb 0).sec (s.tb 0).ns
      decide ((now + (len + 20) * byteTime (s.fl (SW_P_LINK p) 28 26) / 1000) < t0 + gSum s p e)

/-- Class `c` of port `p` is paused (R299): its pause, up to a cycle, has not run out. -/
def paused (s : State) (p c : Nat) : Bool := decide (s.cycles < smGet 0 s.swPause (8 * p + c))

/-- External port `p` is transmitting. -/
def portBusy (s : State) (p : Nat) : Bool := decide (s.cycles < smGet 0 s.txEnd p)

/-- The head frame waits for a launch (R304): with LTMODE 0b01 for LAUNCH_TIME_REACHED, or at an internal port, which has no reference
plane (R185), until its time has come (DESIGN CHOICE, log entry 104). -/
def waitsLaunch (s : State) (q : Nat) (x : SwCopy) : Bool :=
  let own := match x.lt with | some t => decide (q < 96) || decide (nsOf (s.tb 0).sec (s.tb 0).ns < t) | none => false
  !x.late && ((s.fl (SW_Q_CFG q) 30 29 == 1 && own) || s.fl (SW_Q_CFG q) 30 29 == 2)

/-- A head frame whose launch time lies more than 1 s ahead is discarded (R304). -/
def tooEarly (s : State) (q : Nat) (x : SwCopy) : Bool :=
  s.fl (SW_Q_CFG q) 30 29 == 1 &&
    (match x.lt with | some t => decide (nsOf (s.tb 0).sec (s.tb 0).ns + 1000000000 < t) | none => false)

/-- A new head of queue `q`: heads launched too early go, and the time it became head is kept (R185, R304). -/
def newHead (s : State) (q : Nat) : State :=
  let l := swQueue s q
  let early := l.takeWhile (tooEarly s q)
  let s := setSwQueue s q (l.drop early.length)
  let s := s.satInc (SW_Q_LATE q) 15 0 early.length
  { s with headAt := smSet 0 s.headAt q s.cycles }

/-- The head leaves queue `q`. -/
def popHead (s : State) (q : Nat) : State :=
  match swQueue s q with
  | [] => s
  | _ :: r => pfcFalls (newHead (setSwQueue s q r) q)

/-! ## Transmission -/

/-- The length on the line of a copy as it is queued, FCS included: tags and trailer counted, padded (R303, R308). -/
def outLen (x : SwCopy) : Nat :=
  match x.prp with
  | none => max 60 (copyBytes x).length + 4
  | some _ => max 54 (copyBytes x).length + 10

/-- External port `p` transmits for `len` bytes from now, with preamble and gap. -/
def portSends (s : State) (p len : Nat) : State :=
  { s with txEnd := smSet 0 s.txEnd p (s.cycles + ((len + 20) * byteTime (s.fl (SW_P_LINK p) 28 26) + 999) / 1000) }

/-- A copy leaves external port `p` at the present instant (R178, R182 to R184, R288, R308). -/
def sendCopy (s : State) (p : Nat) (x : SwCopy) (sub : Nat) (stomp : Bool) : State :=
  let tbn := match x.ptp with | some i => s.fl (TU_PTPDOM i) 29 28 | none => 0
  let tOut := egressAt s p tbn sub
  let (s, body) :=
    match x.ptp, ptpInstance s x.body with
    | some _, some (i, o, udp) =>
      if x.onestep then (s, ptpOneStep x.body o udp tOut) else ptpCorrect s p x i o udp tOut
    | _, _ =>
      match ptpAt x.body with
      | some (o, udp) => (s, if x.onestep then ptpOneStep x.body o udp tOut else x.body)
      | none => (s, x.body)
  let s := if x.tsq then tsqRecord s p x tOut else s
  let bytes := copyBytes { x with body := body }
  let out :=
    match x.prp with
    | none => bytes ++ List.replicate (60 - bytes.length) 0
    | some (seq, lan) =>
      let padded := bytes ++ List.replicate (54 - bytes.length) 0
      let lsdu := padded.length + 6 - 14 - (if x.tci.isSome then 4 else 0)
      padded ++ (leBytes 2 seq).reverse ++ (leBytes 2 (lan * 4096 + lsdu % 4096)).reverse ++ [0x88, 0xFB]
  let s := portSends s p (min (out.length + 4) (maxLen s p))
  if stomp then (s.satInc (SW_P_CNT3 p) 7 0).emit (.eth p (out.take (maxLen s p - 4)) false)
  else (s.wrapInc (SW_P_CNT1 p) 31 0).emit (.eth p out true)

/-- The class an external port that is not transmitting sends next (R295): the highest with a frame ready and a gate that leaves it time
(R303). -/
def nextClass (s : State) (p : Nat) : Option Nat :=
  if portBusy s p then none
  else [7, 6, 5, 4, 3, 2, 1, 0].find? (fun c =>
    match swQueue s (8 * p + c) with
    | [] => false
    | x :: _ => gateOpen s p c && !paused s p c && !waitsLaunch s (8 * p + c) x && gateFits s p c (outLen x))

/-- FRAME_TRANSMIT: the port starts its next frame (R295). -/
def frameTransmit (s : State) (p sub : Nat) : State :=
  if swLive s = false ∨ linkUp s p = false ∨ 12 ≤ p then s
  else match nextClass s p with
    | none => s
    | some c =>
      match swQueue s (8 * p + c) with
      | [] => s
      | x :: _ => popHead (sendCopy s p x sub false) (8 * p + c)

/-! ## Rings and internal ports (R305 to R307) -/

/-- The records waiting in an RX ring, and the free records of a TX ring (Table 3.14). -/
def ringWaiting (s : State) (r : Nat) : Nat :=
  let n := s.fl (SW_R_LEN r) 15 0
  (s.fl (SW_R_HWPTR r) 15 0 + n - s.fl (SW_R_SWPTR r) 15 0) % n
/-- Free records of a TX ring. -/
def ringFree (s : State) (r : Nat) : Nat :=
  let n := s.fl (SW_R_LEN r) 15 0
  n - 1 - (s.fl (SW_R_SWPTR r) 15 0 + n - s.fl (SW_R_HWPTR r) 15 0) % n

/-- HWPTR advances, with THR (Table 3.14). -/
def ringStep (s : State) (r : Nat) : State :=
  let n := s.fl (SW_R_LEN r) 15 0
  let s := s.setFl (SW_R_HWPTR r) 15 0 ((s.fl (SW_R_HWPTR r) 15 0 + 1) % n)
  let th := s.fl (SW_R_CFG r) 7 0
  let now := if s.bt (SW_R_CFG r) 30 then ringFree s r else ringWaiting s r
  if th ≠ 0 ∧ now = th then s.raise (SW_R_STAT r) 0x1 else s

/-- A ring access got an error response (R305). -/
def ringBusErr (s : State) (r : Nat) : State := (s.setBt (SW_R_CFG r) 31 false).raise (SW_R_STAT r) 0x4

/-- A copy discarded on a full ring. -/
def ringDrop (s : State) (r : Nat) : State := (s.satInc (SW_R_STAT r) 31 16).raise (SW_R_STAT r) 0x2

/-- The RX ring of a copy to internal port `p` (R306). -/
def ringFor (s : State) (p : Nat) (x : SwCopy) : Option Nat :=
  let base := (p - 12) * 32
  let rxOn (r : Nat) : Bool := s.bt (SW_R_CFG r) 31 && !s.bt (SW_R_CFG r) 30
  let pick : Option Nat :=
    match x.ring with
    | some j => some (base + j)
    | none =>
      match x.stream with
      | some st => if s.bt (SW_ST_W1 st) 7 then some (base + s.fl (SW_ST_W1 st) 4 0) else none
      | none => none
  match pick with
  | some r => if rxOn r then some r else none
  | none => ((List.range 32).map (· + base)).find? (fun r => rxOn r && s.bt (SW_R_CFG r) 29 && s.fl (SW_R_CFG r) 26 24 == x.cls)

/-- RX_RING_WRITE: a copy into ring `r` (Table 13.6). -/
def ringWrite (s : State) (r : Nat) (x : SwCopy) : State :=
  let d := (s.rd (SW_R_BASE r)).toNat + 32 * s.fl (SW_R_HWPTR r) 15 0
  match memRead s 13 d 8 with
  | (s, none) => ringBusErr s r
  | (s, some h) =>
    let buf := leNat (h.take 4)
    let buflen := leNat ((h.drop 4).take 2)
    let bytes := copyBytes x
    let flags := (decide (buflen < bytes.length)).toNat * 128 + x.tci.isSome.toNat * 64 + (ptpEvent s x.body).isSome.toNat * 32 +
      x.colour * 8 + x.cls
    let tail := leBytes 2 bytes.length ++ leBytes 1 x.src ++ leBytes 1 flags ++ leBytes 2 (x.stream.getD 0xFFFF) ++
      leBytes 4 x.ns ++ leBytes 6 x.sec ++ leBytes 1 x.sub ++ List.replicate 9 0
    match memWrite s 13 buf (bytes.take buflen) with
    | (s, false) => ringBusErr s r
    | (s, true) =>
      match memWrite s 13 (d + 6) tail with
      | (s, false) => ringBusErr s r
      | (s, true) => (ringStep s r).wrapInc (SW_P_CNT1 (12 + r / 32)) 31 0

/-- Delivery of the head copies of a queue of ENG, CTL or HST: each is written to its ring or discarded; a head that waits for a launch, or
a privileged copy to a full ring, waits (R295, R298, R306). -/
def deliver (q : Nat) : Nat → State → State
  | 0, s => s
  | n + 1, s =>
    match swQueue s q with
    | [] => s
    | x :: _ =>
      if waitsLaunch s q x then s
      else match ringFor s (q / 8) x with
      | none => deliver q n (popHead (s.satInc SW_CNT 7 0) q)
      | some r =>
        if ringWaiting s r + 1 = s.fl (SW_R_LEN r) 15 0 then
          if x.priv then s else deliver q n (popHead (ringDrop s r) q)
        else deliver q n (popHead (ringWrite s r x) q)

/-- PRIV_COPY_RESUME: waiting copies of the port of queue `q` once their ring has room, from the highest class down to its own (R295). -/
def privResume (s : State) (q : Nat) : State :=
  if swLive s && decide (96 ≤ q) && q / 8 != 14 then
    ([7, 6, 5, 4, 3, 2, 1, 0].filter (fun c => decide (q % 8 ≤ c))).foldl (fun s c =>
      let q := q / 8 * 8 + c
      deliver q (swQueue s q).length s) s
  else s

/-- How long after a set time a frame may start (R185), in nanoseconds. -/
def launchLimit (s : State) (p : Nat) : Nat := if s.fl (SW_P_LINK p) 28 26 = 1 then 40 else 8

/-- A launch due at queue `q` of an external port `ago` ns before now (R185, R304): the head goes if that lies within the limits, the
port was idle, its gate open, and it had been head for 1 µs; else it is late. -/
def launchHead (s : State) (q : Nat) (busy : Bool) (ago : Nat) : State :=
  match swQueue s q with
  | [] => s
  | x :: r =>
    let p := q / 8
    if !busy && !portBusy s p && linkUp s p && gateOpen s p (q % 8) && gateFits s p (q % 8) (outLen x) && !paused s p (q % 8) &&
        decide (ago ≤ launchLimit s p) && decide (smGet 0 s.headAt q + 1000 + ago ≤ s.cycles) then
      popHead (sendCopy s p x 0 false) q
    else
      let s := s.satInc (SW_Q_LATE q) 31 16
      if s.bt (SW_Q_CFG q) 28 then popHead s q else setSwQueue s q ({ x with late := true } :: r)

/-- LAUNCH_TIME_REACHED: the head's own launch time has come (R304). -/
def launchTime (s : State) (q : Nat) (busy : Bool) : State :=
  match swQueue s q with
  | [] => s
  | x :: _ =>
    match x.lt with
    | none => s
    | some t =>
      let now := nsOf (s.tb 0).sec (s.tb 0).ns
      if swLive s && s.fl (SW_Q_CFG q) 30 29 == 1 && !x.late && decide (t ≤ now) then launchHead s q busy (now - t) else s

/-- The head of a queue of an internal port is launched: it goes as soon as its port can take it. -/
def launchInternal (s : State) (q : Nat) : State :=
  match swQueue s q with
  | [] => s
  | x :: r => privResume (setSwQueue s q ({ x with late := true } :: r)) q

/-- A LAUNCH firing at queue `q`: false where it acts as at an empty queue (R190, R304). -/
def launchFire (s : State) (q : Nat) (busy : Bool) : State × Bool :=
  if swLive s = false ∨ s.fl (SW_Q_CFG q) 30 29 ≠ 2 ∨ (swQueue s q).isEmpty then (s, false)
  else (if 96 ≤ q then launchInternal s q else launchHead s q busy 0, true)

/-! ## Enqueueing (R289 step 8, R296, R297) -/

/-- WRED of a non-privileged queue: the state with the new average, and whether the copy is dropped (R297). -/
def wred (s : State) (q colour : Nat) : State × Bool :=
  let set := s.fl (SW_Q_CFG q) 26 24
  let held := cellsHeld (swQueue s q)
  let avg := smGet 0 s.swAvg q
  let new := ((avg : Int) + ((held * 256 : Nat) - (avg : Int)) / (2 ^ s.fl (SW_WRED_W set) 3 0 : Nat)).toNat
  let s : State := { s with swAvg := smSet 0 s.swAvg q new }
  let t := s.rd (if colour = 0 then SW_WRED_G set else if colour = 1 then SW_WRED_Y set else SW_WRED_R set)
  let tmin := fld t 11 0
  let tmax := fld t 23 12
  if new < tmin * 256 then (s, false)
  else if tmax * 256 ≤ new then (s, true)
  else
    let p := fld t 31 24 * (new / 256 - tmin) / (tmax - tmin)
    let (r, s) := s.free
    (s, decide (r.toNat % 65536 < p * 256))

/-- One copy arrives at queue `q`: the copy with the cells it takes, or none where it is tail-dropped, dropped by WRED, or a
privileged copy with no free cell (R296 to R298). -/
def takeCopy (s : State) (q : Nat) (x : SwCopy) : State × Option SwCopy :=
  let need := cellsOf x.len
  if privQueue s q then
    let r := min need (reserveFree s)
    if need ≤ r + sharedFree s then (s, some { x with priv := true, resv := r })
    else ((s.satInc SW_CNT 15 8).raise SW_IRQSTAT 0x4, none)
  else
    let full := decide (sharedFree s < need) || decide (s.fl (SW_Q_CFG q) 15 0 ≤ cellsHeld (swQueue s q))
    let (s, drop) := wred s q x.colour
    if full then (s.satInc (SW_Q_DROP q) 15 0, none)
    else if drop then (s.satInc (SW_Q_DROP q) 31 16, none)
    else (s, some { x with priv := false, resv := 0 })

/-- An admitted copy enters queue `q`, and a privileged one is charged (R298). -/
def enqueue (s : State) (q : Nat) (x : SwCopy) : State :=
  let t := setSwQueue s q (swQueue s q ++ [x])
  let t := if (swQueue s q).isEmpty then pfcFalls (newHead t q) else t
  if x.priv then pfcRise t x.src x.cls else t

/-- A copy may go cut-through (R287), and waits for no launch (R304): `idle` says that the egress port is not transmitting a frame that
began before. An internal port's 32 Gb/s is above every line rate. -/
def cutThrough (s : State) (p : Nat) (x : SwCopy) (idle : Bool) : Bool :=
  decide (p < 12) && idle && !portBusy s p &&
    (decide (12 ≤ x.src) || decide (s.fl (SW_P_LINK p) 28 26 ≤ s.fl (SW_P_LINK x.src) 28 26)) &&
    (prpPair s x.src).isNone && (swQueue s (8 * p + x.cls)).isEmpty && !paused s p x.cls && gateOpen s p x.cls &&
    gateFits s p x.cls (maxLen s p) && !waitsLaunch s (8 * p + x.cls) x

/-- One copy of a frame at port `p`: cut-through, queued, or delivered; a bad frame's other copies go, but for one to IMG
(R287, R288). Whether the port took it is answered too. -/
def sendTo (s : State) (p : Nat) (x : SwCopy) (idle : Bool) (sub : Nat) : State × Bool :=
  let q := 8 * p + x.cls
  let through := cutThrough s p x idle
  if through = false ∧ x.bad ∧ p ≠ 14 then (s, false)
  else match takeCopy s q x with
    | (s, none) => (s, false)
    | (s, some y) =>
      if through then (sendCopy s p y sub y.bad, true)
      else
        let s := enqueue s q y
        (if 12 ≤ p ∧ p ≠ 14 then deliver q (swQueue s q).length s else s, true)

/-! ## The forwarding database (R290, R291) -/

/-- The bucket of a key. -/
def fdbBucket (mac vid : Nat) : Nat := ethCrc (leBytes 6 mac ++ [BitVec.ofNat 8 (vid / 256), BitVec.ofNat 8 vid]) % 4096

/-- The entries of the bucket a key falls in. -/
def fdbIn (s : State) (mac vid : Nat) : List FdbE := smGet [] s.fdb (fdbBucket mac vid)

/-- The entry of a key. -/
def fdbFind (s : State) (mac vid : Nat) : Option FdbE := (fdbIn s mac vid).find? (fun e => e.mac == mac && e.vid == vid)

/-- Setting the bucket of a key. -/
def fdbSet (s : State) (mac vid : Nat) (l : List FdbE) : State := { s with fdb := smSet [] s.fdb (fdbBucket mac vid) l }

/-- Writing an entry over the one of its key, or beside the others: none if the bucket is full. -/
def fdbPut (s : State) (e : FdbE) : Option State :=
  let l := fdbIn s e.mac e.vid
  if l.any (fun x => x.mac == e.mac && x.vid == e.vid) then
    some (fdbSet s e.mac e.vid (l.map (fun x => if x.mac == e.mac && x.vid == e.vid then e else x)))
  else if l.length < 4 then some (fdbSet s e.mac e.vid (l ++ [e]))
  else none

/-- ADDRESS_LEARN (R290): `ports` is the port bit of the ingress, or both bits of its pair. -/
def fdbLearn (s : State) (mac vid ports : Nat) : State :=
  match fdbFind s mac vid with
  | some e =>
    if e.static then s else (fdbPut s { e with ports := ports, hit := true, idle := 0 }).getD s
  | none =>
    match fdbPut s { mac := mac, vid := vid, static := false, ports := ports } with
    | some s => s
    | none => (s.satInc SW_CNT 31 16).raise SW_IRQSTAT 0x2

/-- The end of an ageing period of SW_AGE seconds: dynamic entries unrefreshed for two go (R290). -/
def fdbAge (s : State) : State :=
  if s.fl SW_AGE 15 0 = 0 ∨ swLive s = false ∨ s.cycles < s.ageAt + s.fl SW_AGE 15 0 * 1000000000 then s
  else
    let age (l : List FdbE) : List FdbE :=
      (l.map (fun e => if e.static then e else { e with hit := false, idle := if e.hit then 0 else e.idle + 1 })).filter
        (fun e => e.static || decide (e.idle < 2))
    { s with fdb := (s.fdb.map (fun b => (b.1, age b.2))).filter (fun b => !b.2.isEmpty), ageAt := s.cycles }

/-- FDB entries in use (SW_STATUS.USED). -/
def fdbUsed (s : State) : Nat := s.fdb.foldl (fun n b => n + b.2.length) 0

/-- An FDB command is running: FDBBUSY (R291). -/
def fdbRuns (s : State) : Bool := decide (s.cycles < s.fdbBusy)

/-- A command begins: it completes within 1 µs, in a time the spec leaves open (R291; log entry 79). -/
def fdbStart (s : State) : State :=
  let (w, s) := s.free
  { s with fdbBusy := s.cycles + w.toNat % 1001 }

/-- An FDB command of SW_FDB_CMD: 1 READ, 2 WRITE, 3 DELETE, 4 FLUSH (R291, Table 13.10). -/
def fdbCommand (s : State) (op : Nat) : State :=
  let hi := s.rd SW_FDB_MACHI
  let mac := (s.rd SW_FDB_MACLO).toNat + fld hi 15 0 * 2 ^ 32
  let vid := fld hi 27 16
  let d := s.rd SW_FDB_DATA
  if op = 1 then
    match fdbFind s mac vid with
    | some e =>
      (s.wr SW_FDB_DATA (BitVec.ofNat 32 (2 ^ 31 + e.static.toNat * 2 ^ 30 + e.smatch.toNat * 2 ^ 29 + e.stren.toNat * 2 ^ 28 +
        e.stream % 4096 * 2 ^ 16 + e.ports % 65536))).setBt SW_FDB_CMD 0 true
    | none => (s.setBt SW_FDB_DATA 31 false).setBt SW_FDB_CMD 0 false
  else if op = 2 then
    match fdbPut s { mac := mac, vid := vid, static := true, smatch := bitAt d 29, stren := bitAt d 28, stream := fld d 27 16,
                     ports := fld d 15 0 } with
    | some s => s.setBt SW_FDB_CMD 1 false
    | none => s.setBt SW_FDB_CMD 1 true
  else if op = 3 then
    let l := fdbIn s mac vid
    let r := l.filter (fun e => !(e.mac == mac && e.vid == vid))
    (fdbSet s mac vid r).setBt SW_FDB_CMD 0 (decide (r.length < l.length))
  else
    let kept := s.fdb.map (fun b => (b.1, b.2.filter (fun e => e.static || e.ports &&& fld d 15 0 == 0)))
    { s with fdb := kept.filter (fun b => !b.2.isEmpty) }

/-! ## Streams and meters (R292 to R294) -/

/-- The buckets of a meter filled up to now. -/
def mtrFill (s : State) (k : Nat) : MtrH :=
  let h := smGet {} s.mtrs k
  let dt := s.cycles - h.at_
  { c := min (s.fl (SW_MTR_CBS k) 23 0 * 8000000) (h.c + s.fl (SW_MTR_CIR k) 23 0 * dt),
    e := min (s.fl (SW_MTR_EBS k) 23 0 * 8000000) (h.e + s.fl (SW_MTR_EIR k) 23 0 * dt), at_ := s.cycles }

/-- FLOW_METER: the colour of a frame of `len` bytes, 0 green, 1 yellow, 2 red (R294). -/
def meter (s : State) (k len colour : Nat) : State × Nat :=
  let w := s.rd (SW_MTR_CIR k)
  if bitAt w 31 = false then (s, colour)
  else if bitAt w 28 ∧ bitAt w 27 then (s, 2)
  else
    let h := mtrFill s k
    let need := len * 8000000
    let set (h : MtrH) : State := { s with mtrs := smSet {} s.mtrs k h }
    if (bitAt w 30 = false ∨ colour = 0) ∧ need ≤ h.c then (set { h with c := h.c - need }, 0)
    else if need ≤ h.e then (set { h with e := h.e - need }, 1)
    else (if bitAt w 28 then (set h).raise (SW_MTR_CIR k) 0x08000000 else set h, 2)

/-- One place shifted into the recovery history; a 0 that leaves it is a lost packet. -/
def recShift (s : State) (st hl : Nat) (h : Nat) (bit : Nat) : State × Nat :=
  (if h / 2 ^ (hl - 1) % 2 = 0 then s.satInc (SW_ST_W6 st) 15 0 else s, h * 2 % 2 ^ hl + bit)

/-- `n` zeros shifted in. -/
def recShifts (st hl : Nat) : Nat → State × Nat → State × Nat
  | 0, x => x
  | n + 1, (s, h) => recShifts st hl n (recShift s st hl h 0)

/-- Vector recovery of IEEE 802.1CB on sequence number `seq` (R292): true if the frame passes. -/
def recover (s : State) (st seq : Nat) : State × Bool :=
  let hl := s.fl (SW_ST_W1 st) 12 8 + 1
  let h := smGet {} s.recs st
  let last := s.fl (SW_ST_W3 st) 31 16
  let d := sext 16 (seq + 65536 - last)
  let set (s : State) (h : RecH) : State := { s with recs := smSet {} s.recs st h }
  let pass (s : State) : State := s.wrapInc (SW_ST_W4 st) 31 0
  let drop (s : State) : State := s.satInc (SW_ST_W5 st) 31 0
  if h.takeAny then (pass ((set s { takeAny := false, hist := 1, at_ := s.cycles }).setFl (SW_ST_W3 st) 31 16 seq), true)
  else if (hl : Int) ≤ d ∨ d ≤ -(hl : Int) then (drop s, false)
  else if d ≤ 0 then
    let i := (-d).toNat
    if h.hist / 2 ^ i % 2 = 1 then (drop s, false)
    else (pass ((set s { h with hist := h.hist + 2 ^ i, at_ := s.cycles }).satInc (SW_ST_W6 st) 31 16), true)
  else
    let s := if d = 1 then s else s.satInc (SW_ST_W6 st) 31 16
    let (s, v) := recShifts st hl (d.toNat - 1) (s, h.hist)
    let (s, v) := recShift s st hl v 1
    (pass ((set s { h with hist := v, at_ := s.cycles }).setFl (SW_ST_W3 st) 31 16 seq), true)

/-- SEQ_RECOVERY_RESET: no frame has been accepted for RESETMS milliseconds (R292). -/
def recReset (s : State) (st : Nat) : State :=
  let h := smGet {} s.recs st
  if s.bt (SW_ST_W0 st) 31 && s.bt (SW_ST_W1 st) 13 && !h.takeAny &&
      decide (h.at_ + s.fl (SW_ST_W2 st) 31 16 * 1000000 ≤ s.cycles) then
    State.satInc { s with recs := smSet {} s.recs st {} } (SW_ST_W7 st) 31 16
  else s

/-- STREAM_FILTER (R293; MAXSDU counts from the destination address to the payload's end, without the padding of a short internal frame):
the copy as the stream leaves it and the mask that replaces the lookup's; none if the frame is
discarded. -/
def streamFilter (s : State) (st : Nat) (x : SwCopy) (mask : Nat) : State × Option (SwCopy × Nat) :=
  let w0 := s.rd (SW_ST_W0 st)
  let w1 := s.rd (SW_ST_W1 st)
  if bitAt w0 31 = false then (s, some ({ x with stream := some st }, mask))
  else if fld w0 15 0 ≠ 0 ∧ fld w0 15 0 < (copyBytes x).length then (s.satInc (SW_ST_W7 st) 15 0, none)
  else
    let k := fld w0 25 16
    let (s, col) := if bitAt w0 26 then meter s k x.len x.colour else (s, x.colour)
    if bitAt w0 26 ∧ (col = 2 ∨ (col = 1 ∧ s.bt (SW_MTR_CIR k) 29)) then (s.satInc (SW_ST_W7 st) 15 0, none)
    else
      let cls := if bitAt w0 30 then fld w0 29 27 else x.cls
      let mask := if bitAt w1 15 then fld w1 31 16 else mask
      let (s, ok) :=
        match x.rseq with
        | some q => if bitAt w1 13 then recover s st q else (s, true)
        | none => (s, true)
      if ok = false then (s, none)
      else
        let gen := bitAt w1 14 && decide (12 ≤ x.src)
        let seq := if gen then some (s.fl (SW_ST_W2 st) 15 0) else x.rseq
        let s := if gen then s.wrapInc (SW_ST_W2 st) 15 0 else s
        (s, some ({ x with stream := some st, colour := col, cls := cls, rseq := seq }, mask))

/-! ## Forwarding (R289) -/

/-- MEMBER of a VLAN. -/
def vlanMember (s : State) (vid : Nat) : Nat := s.fl (SW_VLAN vid) 15 0

/-- Bit `i` of a mask. -/
def inMask (m i : Nat) : Bool := m / 2 ^ i % 2 == 1

/-- The mask of both ports of an enabled pair (R308), or the port's own bit. -/
def pairBits (s : State) (p : Nat) : Nat := match prpPair s p with | some k => 3 * 4 ^ k | none => 2 ^ p

/-- Step 7: the egress ports of a mask. -/
def egressPorts (s : State) (vid src mask : Nat) : List Nat :=
  let m := (mask &&& vlanMember s vid) % 65536
  (List.range 16).filter (fun p =>
    (inMask m p || (match prpPair s p with | some k => m &&& (3 * 4 ^ k) != 0 | none => false)) &&
      !inMask (pairBits s src) p && portState s p == 3 && linkUp s p)

/-- The result of steps 2 to 7: the copy, its VID, PCP and DEI, and its egress ports. -/
structure Fwd where
  copy : SwCopy
  vid : Nat
  tag : Nat
  ports : List Nat
deriving DecidableEq, Repr

/-- The link-local destinations of step 3. -/
def linkLocal (da : List Byte) : Bool := da.take 5 == [0x01, 0x80, 0xC2, 0x00, 0x00] && decide ((da.getD 5 0).toNat < 16)

/-- Steps 2 to 7 of Table 13.2 for a frame of port `x.src`; `cls`: the class a TX descriptor gives. None: no copy. -/
def forward (s : State) (x : SwCopy) (cls : Option Nat) : State × Option Fwd :=
  let i := x.src
  let cfg := s.rd (SW_P_CFG i)
  let own := match x.tci with | some t => t % 4096 != 0 | none => false
  let tci := x.tci.getD 0
  let vid := if own then tci % 4096 else fld cfg 23 12
  let pcp := if own then tci / 8192 else fld cfg 26 24
  let dei := if x.tci.isSome then tci / 4096 % 2 else 0
  let tag := pcp * 8192 + dei * 4096 + vid
  if inMask (vlanMember s vid) i = false then (s.satInc (SW_P_CNT3 i) 23 16, none)
  else
    let c := cls.getD (s.fl (SW_P_PCPMAP i) (3 * pcp + 2) (3 * pcp))
    let x := { x with cls := c, colour := if dei = 1 ∧ bitAt cfg 28 then 1 else 0, ptp := ptpEvent s x.body }
    if linkLocal x.da || ptpToService s x.body then
      let ctrl := s.rd SW_CTRL
      (s, some { copy := { x with ring := some (fld ctrl 20 16) }, vid := vid, tag := tag, ports := [12 + fld ctrl 29 28] })
    else if portState s i = 1 then (s, none)
    else
      let s := if decide (i < 12) && !x.bad && bitAt cfg 29 && !isGroup x.sa then fdbLearn s (leNat x.sa) vid (pairBits s i) else s
      if portState s i ≠ 3 then (s, none)
      else
        let dst := fdbFind s (leNat x.da) vid
        let src := fdbFind s (leNat x.sa) vid
        let mask :=
          match dst with
          | some e => e.ports
          | none => if isGroup x.da && x.da != List.replicate 6 0xFF && !s.bt SW_CTRL 31 then 0 else vlanMember s vid
        let stream :=
          match dst, src with
          | some e, f => if e.stren && !e.smatch then some e.stream else (f.bind (fun e => if e.stren && e.smatch then some e.stream else none))
          | none, f => f.bind (fun e => if e.stren && e.smatch then some e.stream else none)
        match stream with
        | none => (s, some { copy := x, vid := vid, tag := tag, ports := egressPorts s vid i mask })
        | some st =>
          match streamFilter s st x mask with
          | (s, none) => (s, none)
          | (s, some (x, mask)) => (s, some { copy := x, vid := vid, tag := tag, ports := egressPorts s vid i mask })

/-- A copy leaves per port, with no trailer (R308). -/
def noTrailer (s : State) (p : Nat) (x : SwCopy) : Bool :=
  x.ring.isSome || linkLocal x.da || (x.ptp.isSome && s.bt (TU_PORT_CFG p) 0)

/-- A copy for port `p` keeps its R-tag only where RTAG is set (R293). -/
def perPort (s : State) (p : Nat) (x : SwCopy) : SwCopy := { x with rseq := if s.bt (SW_P_CFG p) 27 then x.rseq else none }

/-- The copy as it is queued at port `p` (step 8): tagged unless UNTAG, its R-tag only where RTAG is set, its PRP trailer. -/
def copyFor (s : State) (f : Fwd) (p : Nat) : SwCopy :=
  { perPort s p f.copy with
    tci := if inMask (s.fl (SW_VLAN f.vid) 31 16) p then none else some f.tag,
    prp := match prpPair s p with
      | some k => if noTrailer s p f.copy then none else some (s.fl (SW_PRP_SEQ k) 15 0, if p % 2 = 0 then 10 else 11)
      | none => none }

/-- SeqNr of pair `k` increments after a frame that took one at a port of `took` (R308). -/
def prpAdvance (s : State) (took : List Nat) (k : Nat) : State :=
  if took.any (fun p => prpPair s p == some k) then s.wrapInc (SW_PRP_SEQ k) 15 0 else s

/-- Step 8: a copy at each egress port; `busy` has the bits of the ports in transmission. A copy with a trailer that its port takes uses up
the pair's SeqNr. -/
def sendAll (s : State) (f : Fwd) (busy : Word) (sub : Nat) : State :=
  let r := (f.ports.map (fun p => (p, copyFor s f p))).foldl (fun r c =>
    let t := sendTo r.1 c.1 c.2 (!bitAt busy c.1) sub
    (t.1, if t.2 && c.2.prp.isSome then c.1 :: r.2 else r.2)) (s, [])
  prpAdvance (prpAdvance r.1 r.2 0) r.2 1

/-! ## PRP reception (R309) -/

/-- The duplicate table of a pair, oldest first. -/
def prpTable (s : State) (k : Nat) : List PrpE := smGet [] s.prp k
/-- Setting it. -/
def setPrpTable (s : State) (k : Nat) (l : List PrpE) : State := { s with prp := smSet [] s.prp k l }

/-- The SeqNr and LanId of a valid trailer of a frame. -/
def prpTrailer (d : List Byte) : Option (Nat × Nat) :=
  let t := d.drop (d.length - 6)
  let w := beNat ((t.drop 2).take 2)
  let head := if beNat ((d.drop 12).take 2) = 0x8100 then 18 else 14
  if head + 6 ≤ d.length ∧ beNat (t.drop 4) = 0x88FB ∧ (w / 4096 = 10 ∨ w / 4096 = 11) ∧ w % 4096 = d.length - head then
    some (beNat (t.take 2), w / 4096)
  else none

/-- Forgetting an entry seen on one LAN only. -/
def prpForgotten (s : State) (k : Nat) (e : PrpE) : State :=
  if e.a && !e.b then s.satInc (SW_PRP_CNT1 k) 31 16 else if e.b && !e.a then s.satInc (SW_PRP_CNT1 k) 15 0 else s

/-- PRP_RECEIVE on port `p` of pair `k`: the frame with its trailer removed, or none for a duplicate. -/
def prpReceive (s : State) (p k : Nat) (d : List Byte) : State × Option (List Byte) :=
  match prpTrailer d with
  | none => (s, some d)
  | some (seq, lan) =>
    let d' := d.take (d.length - 6)
    if lan ≠ 10 + p % 2 then (s.satInc (SW_PRP_CNT0 k) 15 0, some d')
    else
      let src := leNat ((d.drop 6).take 6)
      let l := prpTable s k
      let same (e : PrpE) : Bool := e.src == src && e.seq == seq
      if l.any same then
        (setPrpTable (s.wrapInc (SW_PRP_CNT0 k) 31 16) k
          (l.map (fun e => if same e then { e with a := e.a || p % 2 == 0, b := e.b || p % 2 == 1 } else e)), none)
      else
        let full := decide (1024 ≤ l.length)
        let s := if full then s.satInc (SW_PRP_CNT2 k) 15 0 else s
        (setPrpTable s k ((if full then l.drop 1 else l) ++
          [{ src := src, seq := seq, a := p % 2 == 0, b := p % 2 == 1, at_ := s.cycles }]), some d')

/-- PRP_FORGET: the oldest entry, FORGET ms old (R309). -/
def prpForget (s : State) (k : Nat) : State :=
  match prpTable s k with
  | [] => s
  | e :: r => if e.at_ + s.fl (SW_PRP_CFG k) 15 0 * 1000000 ≤ s.cycles then prpForgotten (setPrpTable s k r) k e else s

/-! ## Reception -/

/-- The group-address filter of R285. -/
def hashPass (s : State) (p : Nat) (da : List Byte) : Bool :=
  let i := ethCrc da % 512
  !isGroup da || s.bt (SW_P_HASH p (i / 32)) (i % 32)

/-- PFC_FRAME_RECEIVE: the classes named pause for the quanta given, at 512 bit times each (R299). -/
def pfcReceive (s : State) (p : Nat) (classes : Word) (quanta : List Nat) : State :=
  if swLive s = false ∨ linkUp s p = false then s
  else
    (List.range 8).foldl (fun s c =>
      if bitAt classes c && s.bt (SW_P_PFC p) (16 + c) then
        { s with swPause := smSet 0 s.swPause (8 * p + c) (s.cycles + quantaTime s p (quanta.getD c 0 % 65536)) }
      else s) (s.satInc (SW_P_CNT4 p) 31 16)

/-- A MAC control frame (R284): a PFC frame acts, where its FCS is good; any other is discarded and counted. -/
def macControl (s : State) (p : Nat) (d : List Byte) (bad : Bool) : State :=
  if beNat ((d.drop 14).take 2) ≠ 0x0101 then s.satInc (SW_P_CNT3 p) 15 8
  else if bad then s
  else pfcReceive s p (BitVec.ofNat 32 (beNat ((d.drop 16).take 2)))
    ((List.range 8).map (fun c => beNat ((d.drop (18 + 2 * c)).take 2)))

/-- FRAME_FORWARD: a frame of external port `p`, without its FCS, whose ingress instants are those given (TB0 to TB3, in
125 ps); `busy`: ports in transmission; `u`: what the switch tables show in the lookup, which an uncorrectable error ends
(R284 to R289, R441). -/
def frameForward (s : State) (p : Nat) (d : List Byte) (fcs : Fcs) (busy : Word) (tin : List Int) (sub : Nat) (u : EccSeen) :
    State :=
  if swLive s = false ∨ linkUp s p = false then s
  else
    let len := d.length + 4
    let long := decide (maxLen s p < len)
    let bad := long || decide (fcs ≠ .good)
    let s := if long then s.satInc (SW_P_CNT2 p) 7 0 else s
    let s := match fcs with
      | .good => s
      | .bad => s.satInc (SW_P_CNT2 p) 31 24
      | .stomped => s.satInc (SW_P_CNT2 p) 23 16
    if len < 64 then s.satInc (SW_P_CNT2 p) 15 8
    else
      let s := if bad then s else s.wrapInc (SW_P_CNT0 p) 31 0
      if beNat ((d.drop 12).take 2) = 0x8808 then macControl s p d bad
      else if hashPass s p (d.take 6) = false then s.satInc (SW_P_CNT3 p) 31 24
      else if portState s p = 0 then s
      else
        let (s, d) := match prpPair s p with
          | some k => if bad then (s, some d) else prpReceive s p k d
          | none => (s, some d)
        match d with
        | none => s
        | some d =>
          let s := dgEcc s 4 u.index u.u
          if u.u = .double then s
          else
          let r := parseFrame d
          let t0 := split125 (tin.getD 0 0)
          let tbn := match ptpEvent s r.body with | some i => s.fl (TU_PTPDOM i) 29 28 | none => 0
          match forward s { da := r.da, sa := r.sa, tci := r.tci, rseq := r.rseq, body := r.body, len := d.length + 4, src := p,
                            cls := 0, sec := t0.1, ns := t0.2.1, sub := t0.2.2, tIn := tin.getD tbn 0, bad := bad } none with
          | (s, none) => s
          | (s, some f) => sendAll s f busy sub

/-- A frame from an internal port (R307, R216): class, launch time in ns, one-step and TSQ flags, and the direct port, if
any. None: the descriptor is refused for its length at an egress port. -/
def internalSend (s : State) (p : Nat) (d : List Byte) (cls : Nat) (lt : Option Nat) (onestep tsq : Bool) (dst : Option Nat) :
    Option State :=
  let r := parseFrame d
  let t := s.tb 0
  let x : SwCopy := { da := r.da, sa := r.sa, tci := r.tci, rseq := r.rseq, body := r.body, len := max 64 (d.length + 4), src := p,
                      cls := cls, sec := t.sec % 2 ^ 48, ns := t.ns, sub := t.sub, lt := lt, onestep := onestep, tsq := tsq,
                      ptp := ptpEvent s r.body }
  let s := s.wrapInc (SW_P_CNT0 p) 31 0
  match dst with
  | some e =>
    if maxLen s e - 4 < d.length then none else if linkUp s e then some (sendTo s e (perPort s e x) true 0).1 else some s
  | none =>
    match forward s x (some cls) with
    | (s, none) => some s
    | (s, some f) => if f.ports.any (fun e => decide (maxLen s e - 4 < d.length)) then none else some (sendAll s f 0 0)

/-- The answer to a descriptor: STAT, DROPS of a refusal, HWPTR (R307). -/
def txAnswer (s : State) (r d : Nat) (refused : Bool) : State :=
  match memWrite s 13 (d + 18) [if refused then 1 else 0] with
  | (s, false) => ringBusErr s r
  | (s, true) => ringStep (if refused then s.satInc (SW_R_STAT r) 31 16 else s) r

/-- TX_DESCRIPTOR: the switch reads the next descriptor of TX ring `r` (R307). -/
def txDescriptor (s : State) (r : Nat) : State :=
  if swLive s = false ∨ r / 32 = 2 ∨ s.bt (SW_R_CFG r) 31 = false ∨ s.bt (SW_R_CFG r) 30 = false ∨
      s.fl (SW_R_HWPTR r) 15 0 = s.fl (SW_R_SWPTR r) 15 0 then s
  else
    let p := 12 + r / 32
    let d := (s.rd (SW_R_BASE r)).toNat + 32 * s.fl (SW_R_HWPTR r) 15 0
    match memRead s 13 d 18 with
    | (s, none) => ringBusErr s r
    | (s, some h) =>
      let len := leNat ((h.drop 4).take 2)
      let dst := (h.getD 6 0).toNat
      let fl := (h.getD 7 0).toNat
      let cls := fl % 8
      let lt := if 128 ≤ fl then some (nsOf (leNat ((h.drop 12).take 6)) (leNat ((h.drop 8).take 4))) else none
      if held s p cls then s
      else if len < 14 ∨ (12 ≤ dst ∧ dst ≤ 254) then txAnswer s r d true
      else
        match memRead s 13 (leNat (h.take 4)) len with
        | (s, none) => ringBusErr s r
        | (s, some bytes) =>
          let one := fl / 64 % 2 == 1
          let event := match ptpAt (parseFrame bytes).body with | some (o, _) => decide (ptpType (parseFrame bytes).body o < 4) | none => false
          if one && !event then txAnswer s r d true
          else
            match internalSend s p bytes cls lt one (fl / 32 % 2 == 1) (if dst = 255 then none else some dst) with
            | none => txAnswer s r d true
            | some s => txAnswer s r d false

/-- An export frame handed to the switch through the IMG port (R216). -/
def exportSend (s : State) (f : XFrame) : State :=
  if swLive s then
    (internalSend s 14 f.data f.tc (some (nsOf f.sec f.ns)) false false none).getD s
  else s

/-! ## Links, PFC and gate events -/

/-- A link is lost: UP clears, DOWNS counts, LINK is set (Table 13.11). -/
def linkLost (s : State) (p : Nat) : State :=
  if s.bt (SW_P_LINK p) 31 then
    (((s.setBt (SW_P_LINK p) 31 false).setFl (SW_P_LINK p) 29 26 0).satInc (SW_P_LINK p) 15 0).raise SW_IRQSTAT 0x1
  else s

/-- A link would come up (R284): held down at half duplex or 10 Mb/s (`speed` 0). -/
def linkComes (s : State) (p speed : Nat) (half fec : Bool) : State :=
  if swLive s = false ∨ inReset s 28 ∨ domOff s 26 ∨ s.fl (SW_P_MODE p) 3 0 = 0 ∨ s.bt (SW_P_LINK p) 31 then s
  else if half ∨ speed = 0 then s.raise (SW_P_LINK p) 0x40000000
  else (((s.setBt (SW_P_LINK p) 31 true).setBt (SW_P_LINK p) 29 (fec && s.bt (SW_P_MODE p) 4)).setFl (SW_P_LINK p) 28 26
    speed).raise SW_IRQSTAT 0x1

/-- PFC_REFRESH: PFCQ / 2 quanta have passed since the last PFC frame of the hold (R298). -/
def pfcRefresh (s : State) (p c : Nat) : State :=
  if swLive s && decide (p < 12) && held s p c &&
      decide (smGet 0 s.pfcAt (8 * p + c) + quantaTime s p (s.fl (SW_P_PFC p) 15 0 / 2) ≤ s.cycles) then sendPfc s p c (s.fl (SW_P_PFC p) 15 0) else s

/-- PFC_PAUSE_END: the pause in force has run out (R299). -/
def pauseEnd (s : State) (p c : Nat) : State := if paused s p c then s else { s with swPause := smSet 0 s.swPause (8 * p + c) 0 }

/-- GATE_BANK_SWITCH (R302). -/
def gateSwitch (s : State) (p : Nat) : State :=
  ((s.setBt (SW_P_GCTRL p) 30 (!s.bt (SW_P_GCTRL p) 30)).setBt (SW_P_GCTRL p) 29 false).raise SW_IRQSTAT 0x8

/-- GATE_CYCLE_START: a new T_n has come (R300, R302). -/
def gateCycle (s : State) (p : Nat) : State :=
  let now := nsOf (s.tb 0).sec (s.tb 0).ns
  if swLive s = false ∨ s.bt (SW_P_GCTRL p) 31 = false ∨ now < gBase s p ∨ gCyc s p = 0 then s
  else
    let n := (now - gBase s p) / gCyc s p
    let t := gBase s p + n * gCyc s p
    let g := gate s p
    if t < g.since ∨ g.cycle = some n then s
    else
      let s := if s.bt (SW_P_GCTRL p) 29 && decide (gChg s p ≤ t) then gateSwitch s p else s
      setGate s p { g with cycle := some n, on := true, idx := 0, begun := s.cycles + 1 }

/-- GATE_ENTRY_ADVANCE: the interval of the running entry has ended (R300). -/
def gateAdvance (s : State) (p : Nat) : State :=
  let g := gate s p
  let now := nsOf (s.tb 0).sec (s.tb 0).ns
  match g.cycle with
  | none => s
  | some n =>
    if gatesRun s p && decide (g.idx + 1 < gLen s p) && decide (gBase s p + n * gCyc s p + gSum s p (g.idx + 1) ≤ now) then
      setGate s p { g with idx := g.idx + 1, begun := s.cycles + 1 }
    else s

/-! ## Registers (R310) -/

/-- A write of SW_P_GCTRL (R302). -/
def gctrlWrite (s : State) (p : Nat) (v : Word) : State × Resp :=
  let a := SW_P_GCTRL p
  let old := s.rd a
  let lens := fld v 24 16 != fld old 24 16 || fld v 8 0 != fld old 8 0
  let badLen (n : Nat) : Bool := n == 0 || decide (256 < n)
  if 2 ≤ fld v 28 27 ∨ badLen (fld v 24 16) ∨ badLen (fld v 8 0) ∨ (bitAt old 31 ∧ lens) then (s, .err 3)
  else
    let s := s.softWrite a v
    let s := if bitAt v 31 && !bitAt old 31 then setGate s p { since := nsOf (s.tb 0).sec (s.tb 0).ns }
      else if bitAt v 31 then s else setGate s p {}
    let s := if fld v 28 27 = 1 then s.setBt a 29 true else s
    (if s.bt a 29 && !bitAt v 31 then gateSwitch s p else s, .ok 0)

/-- A write of a port register (R284, R289, Table 13.11). -/
def portWrite (s : State) (p o : Nat) (v : Word) : State × Resp :=
  let a := 0x33010000 + p * 0x100 + o
  let plain := (s.softWrite a v, Resp.ok 0)
  let bad := (s, Resp.err 3)
  if o = 0 then
    if fld v 23 12 = 0 ∨ fld v 23 12 = 4095 ∨ fld v 10 0 < 1518 ∨ 2000 < fld v 10 0 then bad
    else (s.softWrite a (if 12 ≤ p then setFld v 31 30 0 else v), .ok 0)
  else if o = 4 then
    let k := fld v 3 0
    if k = 0 ∨ (p < 4 ∧ k ≤ 5) ∨ (4 ≤ p ∧ (k = 6 ∨ k = 7)) then (linkLost (s.softWrite a v) p, .ok 0) else bad
  else if o = 0x14 then (if fld v 31 16 ≤ fld v 15 0 then bad else plain)
  else if o = 0x18 then gctrlWrite s p v
  else if o = 0x1C ∨ o = 0x20 ∨ o = 0x24 ∨ o = 0x28 then
    if s.bt (SW_P_GCTRL p) 31 ∨ (o = 0x28 ∧ (fld v 29 0 < 1000 ∨ 1000000000 < fld v 29 0)) then bad else plain
  else plain

/-- A write of a gate list entry (R302). -/
def gateWrite (s : State) (p b e : Nat) (v : Word) : State × Resp :=
  if s.bt (SW_P_GCTRL p) 29 ∨ (s.bt (SW_P_GCTRL p) 31 ∧ gBank s p = b) ∨ fld v 23 0 = 0 then (s, .err 3)
  else (s.softWrite (SW_GATE p b e) v, .ok 0)

/-- A write that sets EN of ring `r` and is refused (R305, R306). -/
def ringBad (s : State) (r : Nat) (v : Word) : Bool :=
  let base := (s.rd (SW_R_BASE r)).toNat
  let n := s.fl (SW_R_LEN r) 15 0
  decide (n < 2) || decide (4096 < n) || base % 32 != 0 || decide (base < 0x20000000) || decide (0x21000000 < base + 32 * n) ||
    (!bitAt v 30 && bitAt v 29 && (List.range 32).any (fun j =>
      let k := r / 32 * 32 + j
      k != r && s.bt (SW_R_CFG k) 31 && !s.bt (SW_R_CFG k) 30 && s.bt (SW_R_CFG k) 29 && s.fl (SW_R_CFG k) 26 24 == fld v 26 24))

/-- A write of a ring register (R305). -/
def ringRegWrite (s : State) (r o : Nat) (v : Word) : State × Resp :=
  let a := 0x33040000 + r * 0x20 + o
  let on := s.bt (SW_R_CFG r) 31
  if o = 0 then
    if on then (if bitAt v 31 then (s, .err 3) else (s.softWrite a v, .ok 0))
    else if bitAt v 31 ∧ ringBad s r v then (s, .err 3)
    else (s.softWrite a v, .ok 0)
  else if o = 4 then (if on then (s, .err 3) else (s.softWrite a v, .ok 0))
  else if o = 8 then
    if on then (s, .err 3) else (((s.softWrite a v).wr (SW_R_HWPTR r) 0).wr (SW_R_SWPTR r) 0, .ok 0)
  else if o = 0x10 then (if s.fl (SW_R_LEN r) 15 0 ≤ fld v 15 0 then (s, .err 3) else (s.softWrite a v, .ok 0))
  else (s.softWrite a v, .ok 0)

/-- A write of a stream entry word (Table 13.13). -/
def streamWrite (s : State) (i o : Nat) (v : Word) : State × Resp :=
  let a := 0x33200000 + i * 0x20 + o
  if s.bt (SW_ST_W0 i) 31 then
    if o = 0 ∧ bitAt v 31 = false then (s.softWrite a v, .ok 0) else (s, .err 3)
  else if (o = 4 ∧ fld v 12 8 = 0) ∨ (o = 8 ∧ fld v 31 16 = 0) then (s, .err 3)
  else if o = 0 ∧ bitAt v 31 then (State.softWrite { s with recs := smSet {} s.recs i {} } a v, .ok 0)
  else (s.softWrite a v, .ok 0)

/-- A write of a meter register: setting EN fills its buckets (R294). -/
def meterWrite (s : State) (k o : Nat) (v : Word) : State × Resp :=
  let a := 0x33300000 + k * 0x10 + o
  if o = 0 ∧ bitAt v 31 ∧ s.bt (SW_MTR_CIR k) 31 = false then
    let h : MtrH := { c := s.fl (SW_MTR_CBS k) 23 0 * 8000000, e := s.fl (SW_MTR_EBS k) 23 0 * 8000000, at_ := s.cycles }
    (State.softWrite { s with mtrs := smSet {} s.mtrs k h } a v, .ok 0)
  else (State.softWrite { s with mtrs := smSet {} s.mtrs k (mtrFill s k) } a v, .ok 0)

/-- A write of a PRP register (R309). -/
def prpWrite (s : State) (k o : Nat) (v : Word) : State × Resp :=
  let a := 0x33310000 + k * 0x40 + o
  if o = 0 then
    if fld v 15 0 = 0 ∨ (bitAt v 31 ∧ s.bt (SW_PRP_CFG k) 31 = false ∧
        (portState s (2 * k) ≠ 0 ∨ portState s (2 * k + 1) ≠ 0)) then (s, .err 3)
    else (s.softWrite a v, .ok 0)
  else (s.softWrite a v, .ok 0)

/-- A write of a switch register at offset `o` (R310). -/
def swWrite (s : State) (o : Nat) (v : Word) : State × Resp :=
  let plain := (s.softWrite (0x33000000 + o) v, Resp.ok 0)
  let bad := (s, Resp.err 3)
  if o = 0 then (if fld v 29 28 = 2 then bad else plain)
  else if o = 0x14 then (if 49152 < fld v 15 0 ∨ (allCopies s).isEmpty = false then bad else plain)
  else if o = 0x1C then (if fld v 15 0 = 0 then bad else (s, .ok 0))
  else if 0x40 ≤ o ∧ o < 0x50 ∧ fdbRuns s then bad
  else if o = 0x4C then
    (if fld v 31 29 = 0 ∨ 4 < fld v 31 29 then bad else (fdbStart (fdbCommand s (fld v 31 29)), .ok 0))
  else if o < 0x10000 then plain
  else if o < 0x20000 then portWrite s ((o - 0x10000) / 0x100) (o % 0x100) v
  else if o < 0x30000 then (if o % 0x10 < 0xC ∧ fld v 23 12 < fld v 11 0 then bad else plain)
  else if o < 0x40000 then (if o % 0x10 = 0 ∧ fld v 30 29 = 3 then bad else plain)
  else if o < 0x100000 then ringRegWrite s ((o - 0x40000) / 0x20) (o % 0x20) v
  else if o < 0x200000 then
    let k := o - 0x100000
    gateWrite s (k / 0x800) (k / 0x400 % 2) (k % 0x400 / 4) v
  else if o < 0x300000 then streamWrite s ((o - 0x200000) / 0x20) (o % 0x20) v
  else if o < 0x310000 then meterWrite s ((o - 0x300000) / 0x10) (o % 0x10) v
  else if o < 0x320000 then prpWrite s ((o - 0x310000) / 0x40) (o % 0x40) v
  else if o = 0x320000 ∨ o = 0x320000 + 4095 * 4 then bad
  else plain

/-- The word a read of a switch register returns where it is formed from other state. -/
def swReadWord (s : State) (o : Nat) : Word :=
  let w := s.rd (0x33000000 + o)
  if o = 4 then BitVec.ofNat 32 ((fdbRuns s).toNat * 2 ^ 31 + (allCopies s).isEmpty.toNat * 2 ^ 30 + fdbUsed s)
  else if o = 0x18 then BitVec.ofNat 32 ((49152 - cellsHeld (allCopies s)) * 2 ^ 16 + privUsed s)
  else if 0x10C00 ≤ o ∧ o < 0x11000 ∧ o % 0x100 = 0 then setFld w 31 30 3
  else if 0x30000 ≤ o ∧ o < 0x30800 ∧ o % 0x10 = 4 then
    let l := swQueue s ((o - 0x30000) / 0x10)
    BitVec.ofNat 32 (l.length * 2 ^ 16 + cellsHeld l)
  else w

/-- The switch at its reset. -/
def swReset (s : State) : State :=
  { s with fdb := [], swq := [], swAvg := [], headAt := [], swHold := [], swPause := [], gates := [], mtrs := [], recs := [],
           prp := [], txEnd := [], pfcAt := [], fdbBusy := 0, ageAt := s.cycles }

end Sys2Proof.Machine
end

