-- ==== Sys2Proof/Machine/Reset.lean ====
section
/-! DEFINITION. Reset: what each source covers, what asserting and releasing it does to every block, and how the loader's
hold ends (R395 to R403, R377). A reset that comes about in a command takes effect within its step. -/

namespace Sys2Proof.Machine

/-- The issue stage of an engine, or of pair p at 8 + p. -/
def State.issue (s : State) (n : Nat) : IssueH := smGet {} s.issueH n

/-- Setting it. -/
def State.setIssue (s : State) (n : Nat) (h : IssueH) : State := { s with issueH := smSet {} s.issueH n h }

/-! ## What a reset does to one block (R120, R397, R400) -/

/-- A context in reset: its posted stores complete at their targets, and their responses are discarded (R401). -/
def ctxReset (s : State) (k : Nat) : State :=
  s.setCtx k { posted := (s.ctx k).posted.map (fun p => { p with orphan := true }) }

/-- PEn: contexts, engine registers, check unit; its locks are released (Table 18.9). The scratchpads are kept. -/
def peReset (s : State) (n : Nat) : State :=
  let s := (s.clearRegs (PE_CTRL n) (PE_CTRL n + 0x1000)).clearRegs (0x35000000 + n * 0x1000) (0x35001000 + n * 0x1000)
  let s := (List.range 8).foldl (fun s k => ctxReset s (8 * n + k)) s
  locksOf { s with stale := s.stale.filter (fun e => e.2.2 / 8 != n), issueH := smErase s.issueH n } (n + 1)

/-- Entries of a store of pair `p` with keys p * 2^32 and up removed. -/
def dropPair (l : SMap Word) (p : Nat) : SMap Word := l.filter (fun e => e.1 / 2 ^ 32 != p)

/-- The key of general register `i` of pair `p`, which has no bus address. -/
def pairG (p i : Nat) : Nat := 2 ^ 32 + p * 0x80 + 4 * i

/-- A pair: cores, caches, FPU, pair-local registers; READY and HBTO clear; its locks are released (Table 18.9, R341). -/
def pairReset (s : State) (p : Nat) : State :=
  let s := (s.clearRegs (ARB_PL_ID p) (ARB_PL_ID p + 0x10000)).clearRegs (pairG p 0) (pairG p 32)
  let s := ctxReset s (64 + p)
  let s : State := { s with icache := dropPair s.icache p, dcache := dropPair s.dcache p,
                            fpr := s.fpr.filter (fun e => e.1 / 32 != p) }
  locksOf ((s.setBt ARB_STATUS (stBit p 2) false).setBt ARB_STATUS (stBit p 0) false) (9 + p)

/-- Gg: its cells, Sg, their check units and pin logic; the DMA channels that serve it fail (Table 18.9). The state-table banks,
whose entries no table gives a reset value, are cleared with the registers (DESIGN CHOICE, log entry 83). -/
def groupReset (s : State) (g : Nat) : State :=
  let s := dmaGroupReset s g
  let s := (s.clearRegs (CELL_CTRL (16 * g)) (CELL_CTRL (16 * g + 16))).clearRegs (EVF_SHD_CTRL g) (EVF_SHD_CTRL (g + 1))
  let s : State := { s with fifo := s.fifo.filter (fun e => e.1 / 32 != g), cellH := s.cellH.filter (fun e => e.1 / 16 != g) }
  groupPinReset (shdReset (s.define (CELL_CTRL (16 * g)) (CELL_CTRL (16 * g + 16))) g) g

/-- PCIe goes down: requests that wait get error responses, LINK is set (R354). -/
def hbLinkDown (s : State) : State :=
  if s.bt HB_STATUS 31 = false then s
  else
    let s := s.hbH.reads.foldl (fun s r => logErr s r.master r.addr false 3) s
    let s : State := { s with hbH := { s.hbH with reads := [] } }
    (s.setFl HB_STATUS 31 25 0).raise HB_IRQSTAT 0x10

/-- A wear write in flight is abandoned: PEND stays, WRERR counts, a retry follows (R430). -/
def wearAbandon (s : State) (k : Nat) : State :=
  if (s.slot k).writing.isNone then s
  else ((s.setSlot k { s.slot k with writing := none, retry := 61 }).satInc (SLOT_STAT k) 15 8).raise SLOT_IRQSTAT 0x4

/-- A slot at a warm reset: power is kept, and the slot is identified again (R431). -/
def slotWarm (s : State) (k : Nat) : State :=
  let h := s.slot k
  s.setSlot k { h with state := 0, writing := none, due := false, retry := 0, rejoin := h.en }

/-- The host bridge: the link goes down, SPI results are lost, wear writes are abandoned, the locks of master 11 are released; the slots keep their power and are
identified again as after a warm reset (Table 18.9, R330, R431). -/
def bridgeReset (s : State) : State :=
  let s := (List.range 32).foldl wearAbandon (hbLinkDown (locksOf s 11))
  (List.range 32).foldl slotWarm (State.clearRegs { s with hbH := {} } HB_CTRL (HB_CTRL + 0x10000))

/-- The SERDES: every ETH and PCIe link goes down (Table 18.9). -/
def serdesReset (s : State) : State := hbLinkDown ((List.range 12).foldl linkLost { s with serCal := s.serCal &&& 3 })

/-- CANn. -/
def canReset (s : State) (n : Nat) : State :=
  let s := s.clearRegs (CAN_CTRL n) (CAN_CTRL n + 0x1000)
  { s with canRx := smErase s.canRx n, canAborting := smErase s.canAborting n, canStopping := putBit s.canStopping n false }

/-- HXn and its check unit. -/
def hxReset (s : State) (n : Nat) : State :=
  let s := s.clearRegs (HX_CTRL n) (HX_CTRL n + 0x1000)
  { s with hxH := smErase s.hxH n }

/-- RESET_ASSERT at one block (Table 18.9). -/
def blockReset (s : State) (t : Nat) : State :=
  if t < 8 then peReset s t
  else if t < 10 then pairReset s (t - 8)
  else if t < 26 then groupReset s (t - 10)
  else if t = 26 then (swReset s).clearRegs SW_CTRL (SW_CTRL + 0x400000)
  else if t = 27 then bridgeReset s
  else if t = 28 then serdesReset s
  else if t < 64 then canReset s (t - 32)
  else hxReset s (t - 64)

/-! ## What leaving reset does -/

/-- A pair starts at ARB_ENTRY with a fresh heartbeat age (Table 18.9, R341). -/
def pairStart (s : State) (p : Nat) : State :=
  let s := setBeat s p
  let s : State := if p = 0 then { s with arbH := { s.arbH with failedA := false, claimedA := false } } else s
  let s := (s.wr (PL_CTX_PC p) (s.rd ARB_ENTRY)).setFl (PL_CTX_STAT p) 31 30 1
  s.setCtx (64 + p) { s.ctx (64 + p) with wdFrom := s.cycles }

/-- A slot when the slot manager leaves reset: a present module is identified (R431). -/
def slotAgain (s : State) (k : Nat) : State :=
  if (s.slot k).prs ∧ (s.slot k).state = 0 then (s.setSlot k { s.slot k with state := 1 }).raise SLOT_IRQSTAT 0x1 else s

/-- RESET_RELEASE at one block (R399, R406, Table 18.9). -/
def blockLeave (s : State) (t : Nat) : State :=
  if t < 8 then { s with peFrom := smSet 0 s.peFrom t s.cycles }
  else if t < 10 then pairStart s (t - 8)
  else if t < 26 then
    let g := t - 10
    let s : State := { handBack s g with gridFrom := smSet 0 s.gridFrom g s.cycles }
    let s := keepSync { s with coldHeld := putBit s.coldHeld g false }
    shdBegin s g
  else if t = 27 then (List.range 32).foldl slotAgain s
  else s

/-- The loader releases LOADER of a block (R376, R377); the block leaves reset unless another source covers it (R397). -/
def ldrRelease (s : State) (t : Nat) : State :=
  let s' : State := { s with ldrHold := smSet true s.ldrHold t false, replay := smSet false s.replay t false }
  if inReset s t && !inReset s' t then blockLeave s' t else s'

/-! ## Narrower resets (R396, R397, R377) -/

/-- The blocks a narrower source can cover: the subsystem targets, the CAN controllers, the Huxon sequencers. -/
def narrowBlocks : List Nat := List.range 29 ++ (List.range 32).map (· + 32) ++ (List.range 32).map (· + 64)

/-- Start-up has ended: the loader serves replays (R364). -/
def ldrRun (s : State) : Bool := s.fl LDR_STATUS 31 28 == 8

/-- The last narrower source of a block has ended: LOADER covers it until its replay, unless a start is under way (R377). -/
def replayDue (s : State) (t : Nat) : State :=
  if wideReset s ∨ ldrRun s = false ∨ narrowSource s t ∨ (loaderHolds s t ∧ smGet false s.replay t = false) then s
  else
    let s : State := { s with ldrHold := smSet true s.ldrHold t true, replay := smSet false s.replay t true }
    s.raise RST_CAUSE 0x10000

/-- A change `f` of the narrower sources, with its RST_CAUSE bits, and all it does to the blocks: keepers engage, covered
blocks are reset, freed blocks wait for their replay, and the arbiter sees the pairs (`cause` 3 for a lockstep fault). -/
def narrowChange (s : State) (f : State → State) (cause : Word) (arb : Nat) : State :=
  let s1 := State.raise (f s) RST_CAUSE cause
  let freed := narrowBlocks.filter (fun t => narrowSource s t && !narrowSource s1 t)
  let s2 := freed.foldl replayDue s1
  let hit := narrowBlocks.filter (fun t => !inReset s t && inReset s2 t)
  let s3 := if hit.any (fun t => decide (10 ≤ t) && decide (t < 26)) then keepSync s2 else s2
  let s4 := hit.foldl blockReset s3
  if hit.contains 8 then arbEval s4 (some (0, arb)) none
  else if hit.contains 9 then arbEval s4 (some (1, arb)) none
  else s4

/-- SPARE_RELEASE: after an event of the arbiter, the spare is released if R343 says so. -/
def spareCheck (s : State) : State :=
  if spareDue s then narrowChange s (fun s => s.setBt ARB_STATUS 25 false) 0 5 else s

/-- A change of narrower sources, and the spare pair after it. -/
def narrowStep (s : State) (f : State → State) (cause : Word) : State := spareCheck (narrowChange s f cause 5)

/-- The CLK_CPU cycle an issue stage has reached: after its last issue, and not before the time that has passed (DESIGN CHOICE, log
entry 1: 4 CLK_CPU cycles to 5 CLK_CELL cycles). -/
def cpuNow (s : State) (n : Nat) : Nat := max (s.issue n).at_ (s.cycles * 4 / 5)

/-- Step 1 of Table 15.2: the posted stores of the pair that are still held for their comparison, 2 CLK_CPU cycles from their issue
(R338), are discarded. -/
def heldDiscard (s : State) (p : Nat) : State :=
  let h := s.ctx (64 + p)
  s.setCtx (64 + p) { h with posted := h.posted.filter (fun q => q.orphan || decide (q.cyc + 2 < cpuNow s (8 + p))) }

/-- LOCKSTEP_FAULT of a pair (R339, Table 15.2). -/
def lockstepFault (s : State) (p : Nat) : State :=
  if inReset s (8 + p) then s
  else
    let s := (countFault (heldDiscard s p) p).raise ARB_IRQSTAT 0x20
    spareCheck (narrowChange s (fun s => s.setBt ARB_STATUS (stBit p 1) true) 0x800 3)

/-- REARM (Table 15.3). -/
def arbRearm (s : State) (pair : Nat) : State := narrowChange s (fun s => rearmFlags s pair) 0 5

/-- ARB_CMD written by master `m` (R343). -/
def arbCmdWrite (s : State) (m : Nat) (v : Word) : State × Resp :=
  let pair := fld v 8 8
  if fld v 3 0 = 6 then (if rearmOk s m pair then accept (arbRearm s pair) else refuse s)
  else
    match arbCommand s m (fld v 3 0) pair with
    | (s, .ok d) => (spareCheck s, .ok d)
    | r => r

/-- ARB_CFG written: a MODE of 0b10 holds pair B as spare (R340, R403); with a mode and no holder SAFE is entered. -/
def arbCfgWrite (s : State) (v : Word) : State × Resp :=
  if arbReserved 0 v then refuse s
  else
    let was := arbMode s
    let s := s.softWrite ARB_CFG v
    if was ≠ 2 ∧ arbMode s = 2 then
      accept (spareCheck (arbEval (narrowChange s (fun s => s.setBt ARB_STATUS 25 true) 0x8000 5) none none))
    else accept (spareCheck (arbEval s none none))

/-- A write of an arbiter register by master `m` (R349). -/
def arbWrite (s : State) (m off : Nat) (v : Word) : State × Resp :=
  if off = 0 then arbCfgWrite s v
  else if off = 8 then arbCmdWrite s m v
  else if off = 0xC ∨ off = 0x10 then
    (if m = 9 + (off - 0xC) / 4 then accept (heartbeatOf s (m - 9)) else accept s)
  else if off = 0x14 then fcntWrite s m v
  else if arbReserved off v then refuse s
  else accept (s.softWrite (ARB_CFG + off) v)

/-! ## Cold and warm resets (R395 to R398) -/

/-- Registers that hold PD_AON state, levels of supplies, or the PPS keeper, which no cold reset clears (R192, R395). -/
def coldKeeps (a : Nat) : Bool :=
  (decide (0x08000000 ≤ a) && decide (a < 0x08001000)) || a == RST_CAUSE || a == RST_CNT ||
    (decide (0x38001100 ≤ a) && decide (a < 0x38001200)) || a == RST_CLKSTAT || a == LDR_BOOTCNT || a == ARB_FCNT ||
    a == PMU_SEQCFG || a == PMU_SEQSTAT || a == PMU_HOLDCFG || a == PMU_MONSTAT || a == TU_PPS_STAT

/-- Registers that a warm reset keeps besides: fuse shadows, and the state that holds the narrower sources (R371, R397). -/
def warmKeeps (a : Nat) : Bool :=
  coldKeeps a || (decide (0x38000200 ≤ a) && decide (a < 0x38000400)) || a == LDR_DEVID || a == LDR_FUSESTAT || a == LDR_FPSTAT ||
    (decide (0x38000050 ≤ a) && decide (a < 0x38000060)) || a == RST_SWSRC || a == RST_BLKCAN || a == RST_BLKHX ||
    a == PMU_PDCTRL || a == PMU_PDSTAT

/-- What every reset of PD_CORE leaves: the registers `keeps` names, memories, fuses and flash, PD_AON, and the model's own
fields; all else at its reset value. -/
def coreReset (s : State) (keeps : Nat → Bool) : State :=
  { pending := s.pending, freeCtr := s.freeCtr, cycles := s.cycles, resp := s.resp, out := s.out,
    regs := s.regs.filter (fun e => keeps e.1), mregs := s.mregs.filter (fun e => keeps (e.1 % 2 ^ 32)),
    rwoDone := s.rwoDone.filter (fun e => keeps e.1), mem := s.mem, ecc := s.ecc, undef := s.undef, srcs := s.srcs,
    pps := s.pps, rtc := s.rtc, rtcFrom := s.rtcFrom, rtcPre := s.rtcPre, rtcLen := s.rtcLen,
    rtcTrim := s.rtcTrim, rtcLoad := s.rtcLoad, agenda := s.agenda.filter (fun d => d.what == .rtc), seqH := s.seqH, survLatch := s.survLatch, slotH := s.slotH, flash := s.flash,
    fuses := s.fuses }

/-- A slot at a cold reset: power is cut, and the record of an ON slot waits (R431). -/
def slotCold (s : State) (k : Nat) : State :=
  let h := s.slot k
  let s := if h.en then s.setBt (AON_SLOT_WEARHI k) 30 true else s
  s.setSlot k { h with en := false, state := 0, writing := none, due := false, retry := 0, rejoin := false }

/-- A cold reset asserted: everything except PD_AON; the keepers let go, the PLL stops (R395, R398). -/
def coldEnter (s : State) : State :=
  let s := (List.range 32).foldl slotCold (coreReset s coldKeeps)
  State.setBt { s with ldrH := {} } RST_CLKSTAT 31 false

/-- DISCLK after a reset that returns DISC to 0b00: the PLL stays settled where it was free before (R175). -/
def discKept (old s : State) : State := s.setBt TU_STATUS 1 (old.bt TU_STATUS 1 && old.fl TU_CTRL 1 0 == 0)

/-- A warm reset asserted: the keepers take every pin, then all but what Table 18.6 keeps is reset. -/
def warmEnter (s : State) : State :=
  let k := keepSync s
  let c := coreReset k warmKeeps
  let c : State := { c with keep := k.keep, coldHeld := k.coldHeld, pulseSrc := k.pulseSrc, wdrst := k.wdrst,
                            pdoff := k.pdoff, bankuv := k.bankuv, holdSafe := k.holdSafe, ftRan := k.ftRan,
                            ldrH := { blowing := k.ldrH.blowing, unlocked := k.ldrH.unlocked, refused := k.ldrH.refused, due := if k.ldrH.due = 1 then 1 else 2 } }
  let c := discKept k (c.wr ARB_STATUS (k.rd ARB_STATUS &&& 0x00220000))
  (List.range 16).foldl groupPinReset ((List.range 32).foldl slotWarm c)

/-- The cycle in which a source of fixed duration is asserted (R396): `k` as SeqH.srcAt numbers it. -/
def State.sourceAt (s : State) (k : Nat) : State := { s with seqH := { s.seqH with srcAt := smSet 0 s.seqH.srcAt k s.cycles } }

/-- A source of cold or warm reach is asserted and recorded (R396, R403): `bit` as in RST_CAUSE. -/
def wideAssert (s : State) (bit : Nat) : State :=
  if bitAt s.srcs bit then s
  else
    let driving := ppsDriven s
    let cold := decide (bit < 7)
    let wasCold := s.srcs.toNat % 128 != 0
    let s1 : State := State.raise { (s.sourceAt bit) with srcs := putBit s.srcs bit true } RST_CAUSE (BitVec.ofNat 32 (2 ^ bit))
    if cold && wasCold then s1
    else if cold then ppsTakeover (coldEnter (s1.wrapInc RST_CNT 31 16)) driving
    else ppsTakeover (warmEnter (s1.wrapInc RST_CNT 15 0)) driving

/-- A source of cold or warm reach is released. -/
def wideRelease (s : State) (bit : Nat) : State :=
  let s : State := { s with srcs := putBit s.srcs bit false }
  if wideReset s then s else { s with arbH := { s.arbH with beatA := s.cycles, beatB := s.cycles } }

/-- AONPOR asserted: everything, PD_AON with it (R403). The levels of supplies, slots and pins stand. -/
def aonReset (s : State) : State :=
  let slots := s.slotH.map (fun e => (e.1, ({ prs := e.2.prs, flt := e.2.flt } : SlotH)))
  let s := coreReset s (fun a => a == PMU_MONSTAT)
  let s : State := { s with srcs := putBit s.srcs 0 true, pps := {}, rtc := 0, rtcFrom := 0, rtcPre := 0, rtcLen := 32768,
                            rtcLoad := false,
                            seqH := { start := s.cycles },
                            survLatch := [],
                            slotH := slots.filter (fun e => decide (e.2 ≠ {})) }
  ((s.undefine 0x08010000 0x08012000).setBt PMU_MONSTAT 26 false).wr RST_CAUSE 0x1

/-! ## Register replay (R377) -/

/-- An address lies in a register block of a target (R377). -/
def inTarget (t a : Nat) : Bool :=
  if t < 8 then (decide (PE_CTRL t ≤ a) && decide (a < PE_CTRL t + 0x1000)) ||
    (decide (0x35000000 + t * 0x1000 ≤ a) && decide (a < 0x35001000 + t * 0x1000))
  else if t < 10 then decide (ARB_PL_ID (t - 8) ≤ a) && decide (a < ARB_PL_ID (t - 8) + 0x10000)
  else if t < 26 then (decide (CELL_CTRL (16 * (t - 10)) ≤ a) && decide (a < CELL_CTRL (16 * (t - 10) + 16))) ||
    (decide (EVF_SHD_CTRL (t - 10) ≤ a) && decide (a < EVF_SHD_CTRL (t - 9)))
  else if t = 26 then decide (SW_CTRL ≤ a) && decide (a < SW_CTRL + 0x400000)
  else if t = 27 then decide (HB_CTRL ≤ a) && decide (a < HB_CTRL + 0x10000)
  else if t = 28 then false
  else if t < 64 then decide (CAN_CTRL (t - 32) ≤ a) && decide (a < CAN_CTRL (t - 31))
  else decide (HX_CTRL (t - 64) ≤ a) && decide (a < HX_CTRL (t - 63))

end Sys2Proof.Machine
end

