-- ==== Sys2Proof/Machine/Diag.lean ====
section
/-! DEFINITION. Self-test and calibration: the memory test engine, forced tests, calibration (R443 to R449). -/

namespace Sys2Proof.Machine

/-! ## BIST (R444) -/

/-- A BIST runs. -/
def bistRuns (s : State) : Bool := s.fl MEM_BIST_STAT 31 29 == 1

/-- The bank of the last request. -/
def bistBank (s : State) : Nat := s.fl MEM_BIST_STAT 28 24

/-- The range of bank `b`. -/
def bankLo (b : Nat) : Nat := 0x20000000 + b * 0x80000

/-- START on bank `b`: it runs while ID 12 alone owns the bank, else RES = BUSY (Table 20.4). -/
def bistStart (s : State) (b : Nat) : State × Resp :=
  if bistRuns s then refuse s
  else
    let own := s.rd (MEM_OWN b)
    let ok := fld own 4 0 == 12 && !bitAt own 8
    accept (s.wr MEM_BIST_STAT (BitVec.ofNat 32 ((if ok then 1 else 4) * 2 ^ 29 + b * 2 ^ 24)))

/-- ABORT, or a write of the owner of the bank under test: the bank's words are undefined. -/
def bistAbort (s : State) : State :=
  if bistRuns s = false then s
  else
    let b := bistBank s
    ((s.setFl MEM_BIST_STAT 31 29 5).undefine (bankLo b) (bankLo (b + 1))).raise MEM_DG_IRQSTAT 0x4

/-- A write to MEM_OWN[b] while its test runs ends the test. -/
def bistOwner (s : State) (b : Nat) : State := if bistRuns s && bistBank s == b then bistAbort s else s

/-- BIST_DONE: `fails` words failed, the first at `word`; the bank is zero with good check bits. -/
def bistDone (s : State) (fails word : Nat) : State :=
  if bistRuns s = false then s
  else
    let b := bistBank s
    let w := (if fails = 0 then 2 else 3) * 2 ^ 29 + b * 2 ^ 24 + min fails 255 * 2 ^ 16 + (if fails = 0 then 0 else word % 2 ^ 16)
    ((s.wr MEM_BIST_STAT (BitVec.ofNat 32 w)).clearMem (bankLo b) (bankLo (b + 1))).raise MEM_DG_IRQSTAT 0x4

/-! ## Forced tests (R447) -/

/-- A forced test runs. -/
def ftRuns (s : State) : Bool := s.fl MEM_FT_STAT 31 29 == 1

/-- The target is in reset with SWSUB as the only source covering it. -/
def onlySwsub (s : State) (t : Nat) : Bool :=
  s.bt RST_SWSRC t && !wideReset s && !loaderHolds s t && !narrowSource (s.setBt RST_SWSRC t false) t

/-- START of a forced test on target `t`. -/
def ftStart (s : State) (t : Nat) : State × Resp :=
  if onlySwsub s t = false ∨ bitAt s.ftRan t ∨ ftRuns s then refuse s
  else
    let l2 := (t == 8 || t == 9) && onlySwsub s 8 && onlySwsub s 9
    let s : State := { s with ftRan := putBit s.ftRan t true }
    accept ((s.wr MEM_FT_STAT (BitVec.ofNat 32 (2 ^ 29 + t * 2 ^ 24 + l2.toNat * 2 ^ 23))).wr MEM_FT_CELL 0)

/-- The memories a forced test covers: scratchpads, the L2 if FT_STAT.L2 shows it, the banks of a group's cells (Table 20.5). The
switch's tables and buffers are those its reset has left (DESIGN CHOICE, log entry 107). -/
def ftRanges (s : State) : List (Nat × Nat) :=
  let t := s.fl MEM_FT_STAT 28 24
  if t < 8 then [(0x10000000 + t * 0x100000, 0x10040000 + t * 0x100000)]
  else if 10 ≤ t ∧ t < 26 then (List.range 16).map (fun i => let a := CELL_BANK (16 * (t - 10) + i) 0; (a, a + 0x800))
  else if s.bt MEM_FT_STAT 23 then [(0x40000000, 0x40200000)]
  else []

/-- FT_DONE: `fails` words or elements failed; for a group, the cells and Sg that failed. -/
def ftDone (s : State) (fails cells : Nat) : State :=
  if ftRuns s = false then s
  else
    let t := s.fl MEM_FT_STAT 28 24
    let c := if 10 ≤ t ∧ t < 26 then cells % 2 ^ 17 else 0
    let bad := fails != 0 || c != 0
    let s := (ftRanges s).foldl (fun s r => s.clearMem r.1 r.2) s
    let s := (s.setFl MEM_FT_STAT 31 29 (if bad then 3 else 2)).setFl MEM_FT_STAT 15 0 (min fails 65535)
    (s.wr MEM_FT_CELL (BitVec.ofNat 32 c)).raise MEM_DG_IRQSTAT 0x2

/-- A test whose target has left reset ends with RES = ABORTED, its memories undefined. -/
def ftCheck (s : State) : State :=
  if ftRuns s && !inReset s (s.fl MEM_FT_STAT 28 24) then
    let s := (ftRanges s).foldl (fun s r => s.undefine r.1 r.2) s
    (s.setFl MEM_FT_STAT 31 29 5).raise MEM_DG_IRQSTAT 0x2
  else s

/-! ## Calibration (R445, R446) -/

/-- A calibration has ended: pending bit `i` clears, DONE counts. -/
def calEnd (s : State) (i : Nat) : State :=
  ((s.setBt MEM_CAL_STAT i false).wrapInc MEM_CAL_STAT 31 16).raise MEM_DG_IRQSTAT 0x1

/-- A request of calibrations: the conversions of a converter newly asked for begin (R445). -/
def calAsk (s : State) (v : Word) : State :=
  ([0, 1].filter (fun x => bitAt v x && !s.bt MEM_CAL_STAT x)).foldl
    (fun s x => s.setAdc x { s.adc x with calN := 0, calAt := s.cycles }) s

/-- ADC_CAL_DONE of converter `x`, after 32 conversions. -/
def adcCalDone (s : State) (x : Nat) : State := if s.bt MEM_CAL_STAT x ∧ 32 ≤ calCount s x then calEnd s x else s

/-- SERDES_CAL_START of ETHp: at link down, or as a gate-list entry begins that is closed for at least 5,000 ns. -/
def serCalStart (s : State) (p : Nat) : State :=
  let w := gEntry s p (gate s p).idx
  let window := gatesRun s p && (gate s p).begun == s.cycles + 1 && fld w 31 24 == 0 && decide (5000 ≤ fld w 23 0)
  if s.bt MEM_CAL_STAT (p + 2) && !bitAt s.serCal (p + 2) && (!linkUp s p || window) then
    { s with serCal := putBit s.serCal (p + 2) true }
  else s

/-- SERDES_CAL_DONE of ETHp. -/
def serCalDone (s : State) (p : Nat) : State :=
  if bitAt s.serCal (p + 2) then calEnd { s with serCal := putBit s.serCal (p + 2) false } (p + 2) else s

/-! ## Registers (R443, R448) -/

/-- A write of a diagnostic register at offset `off` of DG by master `m`. -/
def dgWrite (s : State) (m off : Nat) (v : Word) : State × Resp :=
  let sup := supervisor s m
  if (off = 0x80 ∨ off = 0x90 ∨ off = 0xA0) ∧ sup = false then refuse s
  else if off = 0x80 then
    (match fld v 9 8 with
     | 0 => accept s
     | 1 => bistStart s (fld v 4 0)
     | 2 => accept (bistAbort s)
     | _ => refuse s)
  else if off = 0x90 then
    (if fld v 31 16 ≠ 0xA55A ∨ fld v 9 8 ≠ 1 ∨ 29 ≤ fld v 4 0 then refuse s else ftStart s (fld v 4 0))
  else if off = 0xA0 then accept ((calAsk s v).raise MEM_CAL_STAT (v &&& 0x3FFF))
  else accept (s.softWrite (MEM_ELOG_W0 + off) v)

/-- A read of a diagnostic register. -/
def dgRead (s : State) (off : Nat) : State × Resp :=
  if off < 0xC then accept s (elogWord s (off / 4))
  else if off = 0xC then accept (elogPop s) (elogWord s 3)
  else accept (s.readClear (MEM_ELOG_W0 + off)) (s.rd (MEM_ELOG_W0 + off))

end Sys2Proof.Machine
end

