-- ==== Sys2Proof/Machine/Can.lean ====
section
/-! DEFINITION. The CAN FD controllers (R270 to R282). Pulses of the drive ports are returned as channels. -/

namespace Sys2Proof.Machine

/-- STATUS.STATE: 0 STOPPED, 1 INTEGRATING, 2 ACTIVE, 3 BUSOFF. -/
def canState (s : State) (n : Nat) : Nat := s.fl (CAN_STATUS n) 31 30

/-- A cell is bound (R272). -/
def canBound (s : State) (n : Nat) : Bool := !(boundCells s 1 n).isEmpty

/-- The receive FIFO. -/
def canFifo (s : State) (n : Nat) : List CanRx := smGet [] s.canRx n

/-- Setting the receive FIFO, with LVL and the RX interrupt bit that follows it (Table 12.10). -/
def setCanFifo (s : State) (n : Nat) (l : List CanRx) : State :=
  let s : State := { s with canRx := smSet [] s.canRx n l }
  (s.setFl (CAN_RXSTAT n) 5 0 l.length).setBt (CAN_IRQSTAT n) 5 (!l.isEmpty)

/-- Buffers of CANn whose ABORT waits for the end of their attempt. -/
def canAbortWait (s : State) (n b : Nat) : Bool := smGet 0 s.canAborting n / 2 ^ b % 2 == 1

/-- Setting or clearing the waiting ABORT of a buffer. -/
def setCanAbortWait (s : State) (n b : Nat) (v : Bool) : State :=
  let m := BitVec.ofNat 32 (smGet 0 s.canAborting n)
  { s with canAborting := smSet 0 s.canAborting n (putBit m b v).toNat }

/-- The bit timing of R273 is valid. -/
def canTimingOk (s : State) (n : Nat) : Bool :=
  let nb := s.rd (CAN_NBT n)
  let db := s.rd (CAN_DBT n)
  let bits (brp t1 t2 : Nat) : Nat := (brp + 1) * (1 + (t1 + 1) + (t2 + 1))
  let nom := decide (fld nb 31 25 ≤ fld nb 22 16) &&
    decide (80 ≤ bits (fld nb 4 0) (fld nb 15 8) (fld nb 22 16))
  let dat := decide (fld db 27 24 ≤ fld db 19 16) &&
    decide (10 ≤ bits (fld db 4 0) (fld db 12 8) (fld db 19 16))
  nom && (!s.bt (CAN_CFG n) 2 || dat)

/-- TEC and REC (Table 12.7). -/
def canTec (s : State) (n : Nat) : Nat := s.fl (CAN_ERR n) 8 0
/-- The receive error counter. -/
def canRec (s : State) (n : Nat) : Nat := s.fl (CAN_ERR n) 23 16

/-- Setting the error counters, with EPASS and its interrupt (R280). -/
def setCanErr (s : State) (n tec rec : Nat) : State :=
  let was := s.bt (CAN_STATUS n) 29
  let now := decide (127 < tec) || decide (127 < rec)
  let s := ((s.setFl (CAN_ERR n) 8 0 tec).setFl (CAN_ERR n) 23 16 rec).setBt (CAN_STATUS n) 29 now
  if now && !was then s.raise (CAN_IRQSTAT n) 0x1 else s

/-- START accepted (Table 12.2). -/
def canStart (s : State) (n : Nat) : State × Resp :=
  if canState s n ≠ 0 ∨ canBound s n = false ∨ canTimingOk s n = false then (s, .err 3)
  else ((setCanErr s n 0 0).setFl (CAN_STATUS n) 31 30 1, .ok 0)

/-- A buffer's request ends with a result (R276): 1 SENT, 2 ARBLOST, 3 ERROR, 4 ABORTED. -/
def canFinish (s : State) (n b res : Nat) : State :=
  let s := setCanAbortWait s n b false
  let s := ((s.setBt (CAN_TXB_STAT n b) 31 false).setBt (CAN_TXB_STAT n b) 30 false).setFl (CAN_TXB_STAT n b) 2 0 res
  s.raise (CAN_IRQSTAT n) (if res = 1 then 0x8 else 0x10)

/-- Every pending buffer not in an attempt ends with ABORTED. -/
def canAbortAll (s : State) (n : Nat) : State :=
  [0, 1, 2].foldl (fun s b =>
    if s.bt (CAN_TXB_STAT n b) 31 && !s.bt (CAN_TXB_STAT n b) 30 then canFinish s n b 4 else s) s

/-- A frame is under reception, with its start of frame seen at `t` (STATUS.RXACT), or none is (R278, R281). -/
def canRxAct (s : State) (n : Nat) (t : Option TB) : State :=
  let s := s.setBt (CAN_STATUS n) 26 t.isSome
  { s with canSof := match t with | some x => smInsert s.canSof n x | none => smErase s.canSof n }

/-- Entering STOPPED: pending buffers end, a frame being received is abandoned (Table 12.2). -/
def canEnterStopped (s : State) (n : Nat) : State :=
  let s := canAbortAll s n
  let s := (canRxAct (s.setFl (CAN_STATUS n) 31 30 0) n none).setBt (CAN_STATUS n) 25 false
  { s with canStopping := putBit s.canStopping n false }

/-- STOP (Table 12.2): at once; after the attempt in progress; or after recovery, with STOPPEND set. -/
def canStop (s : State) (n : Nat) : State :=
  if canState s n = 0 then s
  else if canState s n = 3 then s.setBt (CAN_STATUS n) 25 true
  else if s.bt (CAN_STATUS n) 27 then { s with canStopping := putBit s.canStopping n true }
  else canEnterStopped s n

/-- The control word and identifier of a REQUEST are inconsistent (R275). -/
def canInconsistent (s : State) (n : Nat) (ctrl id : Word) : Bool :=
  (bitAt ctrl 5 && !s.bt (CAN_CFG n) 2) || (bitAt ctrl 6 && !bitAt ctrl 5) || (bitAt ctrl 7 && bitAt ctrl 5) ||
    (!bitAt ctrl 4 && fld id 28 11 != 0)

/-- A write of CAN_TXB_CTRL: REQUEST, ABORT or the fields alone (R275, R276). -/
def canTxbCtrl (s : State) (n b : Nat) (v : Word) : State × Resp :=
  let cmd := fld v 31 30
  let req := s.bt (CAN_TXB_STAT n b) 31
  if cmd = 3 then (s, .err 3)
  else if cmd = 2 then
    if req = false then (s, .ok 0)
    else if s.bt (CAN_TXB_STAT n b) 30 then (setCanAbortWait s n b true, .ok 0)
    else (canFinish s n b 4, .ok 0)
  else if req then (s, .err 3)
  else if cmd = 1 then
    if canInconsistent s n v (s.rd (CAN_TXB_ID n b)) then (s, .err 3)
    else ((s.softWrite (CAN_TXB_CTRL n b) v).setBt (CAN_TXB_STAT n b) 31 true, .ok 0)
  else (s.softWrite (CAN_TXB_CTRL n b) v, .ok 0)

/-- A pulse at the listen port: a REQUEST of buffer EVCFG.TXB, or ignored and counted (R278). -/
def canListen (s : State) (n : Nat) : State :=
  let b := s.fl (CAN_EVCFG n) 1 0
  if inReset s (blkCan n) then s
  else if s.bt (CAN_TXB_STAT n b) 31 then s.satInc (CAN_RXSTAT n) 23 16
  else if canInconsistent s n (s.rd (CAN_TXB_CTRL n b)) (s.rd (CAN_TXB_ID n b)) then s
  else s.setBt (CAN_TXB_STAT n b) 31 true

/-- Bytes of a frame by its DLC (ISO 11898-1; R275). -/
def dlcBytes (fdf : Bool) (dlc : Nat) : Nat :=
  if dlc ≤ 8 then dlc
  else if !fdf then 8
  else [12, 16, 20, 24, 32, 48, 64].getD (dlc - 9) 64

/-- The bytes of register words from an address, lowest byte first. -/
def regBytes (s : State) (a n : Nat) : List Byte :=
  (List.range n).map (fun i => BitVec.ofNat 8 ((s.rd (a + i / 4 * 4)).toNat / 2 ^ (8 * (i % 4))))

/-- The frame a transmit buffer holds. -/
def canTxFrame (s : State) (n b : Nat) : CanFrame :=
  let c := s.rd (CAN_TXB_CTRL n b)
  let rtr := bitAt c 7
  { id := BitVec.ofNat 29 (s.rd (CAN_TXB_ID n b)).toNat, ide := bitAt c 4, fdf := bitAt c 5, brs := bitAt c 6, rtr := rtr,
    esi := bitAt c 5 && s.bt (CAN_STATUS n) 29, dlc := Fin.ofNat 16 (fld c 3 0),
    data := if rtr then [] else regBytes s (CAN_TXB_DATA n b 0) (dlcBytes (bitAt c 5) (fld c 3 0)) }

/-- The arbitration field as a number whose lower value wins (R276): base identifier, then RTR or SRR, then IDE, then the
extension, then RTR. -/
def arbKey (f : CanFrame) : Nat :=
  let id := f.id.toNat
  if f.ide then ((id / 2 ^ 18 * 2 + 1) * 2 + 1) * 2 ^ 19 + id % 2 ^ 18 * 2 + f.rtr.toNat
  else ((id % 2 ^ 11 * 2 + f.rtr.toNat) * 2) * 2 ^ 19

/-- The buffers with REQ = 1. -/
def canRequested (s : State) (n : Nat) : List Nat := [0, 1, 2].filter (fun b => s.bt (CAN_TXB_STAT n b) 31)

/-- The buffer chosen among those requested (R276). -/
def canChoose (s : State) (n : Nat) (l : List Nat) : Option Nat :=
  match l with
  | [] => none
  | b :: r =>
    if s.bt (CAN_CFG n) 3 then some b
    else some (r.foldl (fun best x => if arbKey (canTxFrame s n x) < arbKey (canTxFrame s n best) then x else best) b)

/-- The selection at intermission end (R276): the chosen buffer's attempt begins; none in bus monitoring mode (R270). -/
def canTxSelect (s : State) (n : Nat) : State :=
  if inReset s (blkCan n) || canState s n != 2 || s.bt (CAN_STATUS n) 27 || s.fl (CAN_CFG n) 1 0 == 1 then s
  else match canChoose s n (canRequested s n) with
    | none => s
    | some b => (s.setBt (CAN_TXB_STAT n b) 30 true).setBt (CAN_STATUS n) 27 true

/-- Drive port 0 (SOF) and port 1 (EOF or error flag): the channels pulsed (R278). -/
def canSofPulse (s : State) (n : Nat) : List Nat :=
  if s.bt (CAN_EVCFG n) 31 then [s.fl (CAN_EVCFG n) 29 24] else []
/-- Drive port 1. -/
def canEofPulse (s : State) (n : Nat) : List Nat :=
  if s.bt (CAN_EVCFG n) 23 then [s.fl (CAN_EVCFG n) 21 16] else []

/-- The timestamp of a frame: the bound cell's capture if it is VALID, else the controller's own (R79, R277). `pinB`: the
receive side. The result is ns, sec[15:0], sub and TSSRC. -/
def canStamp (s : State) (n : Nat) (pinB : Bool) (own : TB) : Nat × Nat × Nat × Bool :=
  match boundCells s 1 n with
  | [] => (own.ns, own.sec % 2 ^ 16, 0, false)
  | c :: _ =>
    let sec := s.rd (if pinB then CELL_TSB_SEC c else CELL_TSA_SEC c)
    let ns := s.rd (if pinB then CELL_TSB_NS c else CELL_TSA_NS c)
    if bitAt sec 7 then (ns.toNat, fld sec 31 16, fld sec 2 0, true) else (own.ns, own.sec % 2 ^ 16, 0, false)

/-- Clearing VALID and OVR of a cell's capture registers (R79). -/
def clearCaptures (s : State) (c : Nat) : State :=
  (s.wr (CELL_TSA_SEC c) (s.rd (CELL_TSA_SEC c) &&& 0xFFFFFF3F)).wr (CELL_TSB_SEC c) (s.rd (CELL_TSB_SEC c) &&& 0xFFFFFF3F)

/-- At the last bit of intermission the controller clears the captures of its cell (R79). The intermission ends with the row that
ends the frame or the error frame before it (DESIGN CHOICE, log entry 93). -/
def canTsClear (s : State) (n : Nat) : State := (boundCells s 1 n).foldl clearCaptures s

/-- The lowest matching filter (R279). -/
def canMatch (s : State) (n : Nat) (f : CanFrame) : Option Nat :=
  (List.range 16).find? (fun i =>
    let w := s.rd (CAN_FLT_ID n i)
    let id := if f.ide then f.id.toNat else f.id.toNat % 2 ^ 11
    bitAt w 31 && bitAt w 30 == f.ide && ((id ^^^ fld w 28 0) &&& s.fl (CAN_FLT_MASK n i) 28 0) == 0)

/-- Storing an offered frame (R279). -/
def canStore (s : State) (n : Nat) (f : CanFrame) (own : TB) : State :=
  if f.rtr && !s.bt (CAN_CFG n) 7 then s
  else
    match (if s.bt (CAN_CFG n) 6 then canMatch s n f else some 31) with
    | none => s
    | some fidx =>
      if (canFifo s n).length < 32 then
        let (ns, sec, sub, src) := canStamp s n true own
        setCanFifo s n (canFifo s n ++ [{ frame := f, fidx := fidx, tssrc := src, ns := ns, sec := sec, sub := sub }])
      else (s.satInc (CAN_RXSTAT n) 31 24).raise (CAN_IRQSTAT n) 0x40

/-- REC after a successful reception (R280, ISO 11898-1); unchanged in bus monitoring (R270). -/
def canRxGood (s : State) (n : Nat) : State :=
  if s.fl (CAN_CFG n) 1 0 = 1 then s
  else setCanErr s n (canTec s n) (if 127 < canRec s n then 127 else canRec s n - 1)

/-- The loop-delay measurement of a transmitted FD frame with BRS (R274): `loop` is the first cycle from which on RXD was low;
samples within the first TDCF cycles are ignored. A frame that an error ends before that edge has `loop` 0 and is not measured. -/
def canTdc (s : State) (n : Nat) (f : CanFrame) (loop : Nat) : State :=
  if s.bt (CAN_CFG n) 5 && f.fdf && f.brs then
    let v := max loop (s.fl (CAN_TDC n) 22 16 + 1)
    let s := (s.setFl (CAN_TDC n) 30 24 (min v 127)).setBt (CAN_TDC n) 23 (decide (127 < v))
    if 127 < min v 127 + s.fl (CAN_TDC n) 6 0 then s.satInc (CAN_CNT n) 7 0 else s
  else s

/-- The controller's input hears the bus: a cell is bound, and it is not in internal loopback (R80, R270). -/
def canHears (s : State) (n : Nat) : Bool := canBound s n && s.fl (CAN_CFG n) 1 0 != 2

/-- The attempt can end so: without the bus a frame goes nowhere but in internal loopback, and no other sender wins (R80, R270). -/
def canEndOk (s : State) (n : Nat) : CanEnd → Bool
  | .sent => canBound s n
  | .arbLost => canHears s n
  | .error _ => true

/-- The buffer in an attempt. -/
def canActive (s : State) (n : Nat) : Option Nat := [0, 1, 2].find? (fun b => s.bt (CAN_TXB_STAT n b) 30)

/-- The end of an attempt: the rows of R276, a waiting ABORT and a waiting STOP. `own` is the controller's own timestamp,
`loop` the TDC measurement. A frame sent in internal loopback does not leave the part (R270). The channels pulsed at the end of
frame are returned. -/
def canTxEnd (s : State) (n : Nat) (e : CanEnd) (own : TB) (loop : Nat) : State × List Nat :=
  match canActive s n with
  | none => (s, [])
  | some b =>
    let f := canTxFrame s n b
    let fail (s : State) (res : Nat) : State :=
      if canAbortWait s n b then canFinish s n b 4 else if s.bt (CAN_CFG n) 4 then canFinish s n b res else s
    let s := (s.setBt (CAN_STATUS n) 27 false).setBt (CAN_TXB_STAT n b) 30 false
    let (s, ch) :=
      match e with
      | .sent =>
        let s := canTdc s n f loop
        let (ns, sec, sub, src) := canStamp s n false own
        let s := (s.wr (CAN_TXB_TS_NS n b) (BitVec.ofNat 32 ns)).wr (CAN_TXB_TS_SEC n b) (BitVec.ofNat 32 (sec * 2 ^ 16 + sub))
        let s := (canFinish s n b 1).setBt (CAN_TXB_STAT n b) 11 src
        let s := setCanErr s n (canTec s n - 1) (canRec s n)
        (if s.fl (CAN_CFG n) 1 0 = 2 then canStore s n f own else s.emit (.can n f), canEofPulse s n)
      | .arbLost => (canRxAct (fail s 2) n (some own), [])
      | .error lec => (fail ((if loop = 0 then s else canTdc s n f loop).setFl (CAN_TXB_STAT n b) 10 8 lec) 3, [])
    let s := if e = .arbLost then s else canTsClear s n
    (if bitAt s.canStopping n ∧ canState s n ≠ 3 then canEnterStopped s n else s, ch)

/-- A detected error: LEC, ERRS, the counters and BUSOFF (R280): a receiver's error counts 1, and 8 more where a dominant bit follows
its flag; in bus monitoring the counters stand and no error flag is
sent (R270). -/
def canError (s : State) (n lec : Nat) (k : CanErr) : State × List Nat :=
  let s := (s.setFl (CAN_STATUS n) 18 16 lec).satInc (CAN_CNT n) 15 8
  if s.fl (CAN_CFG n) 1 0 = 1 then (s, [])
  else
    let ch := canEofPulse s n
    let rec' := match k with
      | .receiver => min 255 (canRec s n + 1)
      | .receiverDominant => min 255 (canRec s n + 9)
      | _ => canRec s n
    let tec' := if k = .transmitter then canTec s n + 8 else canTec s n
    if 255 < tec' then
      let s := (setCanErr s n 256 rec').setFl (CAN_STATUS n) 31 30 3
      let s := if bitAt s.canStopping n then s.setBt (CAN_STATUS n) 25 true else s
      (((s.setFl (CAN_STATUS n) 7 0 0).satInc (CAN_CNT n) 31 24).raise (CAN_IRQSTAT n) 0x2, ch)
    else (setCanErr s n tec' rec', ch)

/-- `k` further occurrences of 11 recessive bits in BUSOFF: at the 128th the controller returns to ACTIVE (R280), or to
STOPPED where a STOP waits. -/
def canRecover (s : State) (n k : Nat) : State :=
  if canState s n ≠ 3 then s
  else
    let r := min 128 (s.fl (CAN_STATUS n) 7 0 + k)
    let s := s.setFl (CAN_STATUS n) 7 0 r
    if r < 128 then s
    else
      let stop := s.bt (CAN_STATUS n) 25 || bitAt s.canStopping n
      let s := ((setCanErr s n 0 0).setFl (CAN_STATUS n) 31 30 2).raise (CAN_IRQSTAT n) 0x4
      if stop then canEnterStopped s n else s

/-- The word a read of a CAN register returns (R279, Table 12.9): the head of the FIFO, STATUS.BOUND. -/
def canReadWord (s : State) (n off : Nat) : Word :=
  if off = 0x04 then putBit (s.rd (CAN_STATUS n)) 28 (canBound s n)
  else if 0x400 ≤ off then
    match canFifo s n with
    | [] => 0
    | e :: _ =>
      let f := e.frame
      if off = 0x400 then BitVec.ofNat 32 f.id.toNat
      else if off = 0x404 then
        BitVec.ofNat 32 (2 ^ 31 + e.fidx * 2 ^ 26 + e.tssrc.toNat * 2 ^ 9 + f.fdf.toNat * 2 ^ 8 + f.brs.toNat * 2 ^ 7 +
          f.rtr.toNat * 2 ^ 6 + f.esi.toNat * 2 ^ 5 + f.ide.toNat * 2 ^ 4 + f.dlc.val)
      else if off = 0x408 then BitVec.ofNat 32 e.ns
      else if off = 0x40C then BitVec.ofNat 32 (e.sec % 2 ^ 16 * 2 ^ 16 + e.sub)
      else
        let d := f.data.take (if f.rtr then 0 else dlcBytes f.fdf f.dlc)
        BitVec.ofNat 32 (leNat ((d.drop (off - 0x440)).take 4))
  else s.rd (0x31000000 + n * 0x1000 + off)

/-- A write of a CAN register (R272, R275, R281). -/
def canWrite (s : State) (n off : Nat) (v : Word) : State × Resp :=
  let plain := (s.softWrite (0x31000000 + n * 0x1000 + off) v, Resp.ok 0)
  let bad := (s, Resp.err 3)
  if off = 0x00 then
    if fld v 1 0 = 1 then canStart s n
    else if fld v 1 0 = 2 then (canStop s n, .ok 0)
    else if fld v 1 0 = 3 then bad else (s, .ok 0)
  else if off = 0x08 ∨ off = 0x0C ∨ off = 0x10 ∨ off = 0x14 ∨ (0x100 ≤ off ∧ off < 0x180) then
    if canState s n ≠ 0 ∨ (off = 0x08 ∧ fld v 1 0 = 3) then bad else plain
  else if off = 0x20 then (if fld v 1 0 = 3 then bad else plain)
  else if off = 0x34 then
    if bitAt v 0 = false then (s, .ok 0)
    else match canFifo s n with
      | [] => bad
      | _ :: r => (setCanFifo s n r, .ok 0)
  else if 0x200 ≤ off ∧ off < 0x380 then
    let b := (off - 0x200) / 0x80
    let o := off % 0x80
    if o = 0 then canTxbCtrl s n b v
    else if (o = 4 ∨ 0x40 ≤ o) ∧ s.bt (CAN_TXB_STAT n b) 31 then bad
    else plain
  else plain

end Sys2Proof.Machine
end

