-- ==== Sys2Proof/Machine/Huxon.lean ====
section
/-! DEFINITION. The Huxon sequencers (R224 to R269): frames, cycle, records, start-up, integration, takeover, claims. Channels
that the event ports pulse are returned. -/

namespace Sys2Proof.Machine

/-! ## Registers and state -/

/-- The hidden state of HXn. -/
def State.hx (s : State) (n : Nat) : HxH := smGet {} s.hxH n
/-- Setting it. -/
def State.setHx (s : State) (n : Nat) (h : HxH) : State := { s with hxH := smSet {} s.hxH n h }

/-- STATUS.STATE: 0 STOPPED, 1 LISTEN, 2 DAYBREAK, 3 INTEGRATE, 4 ACTIVE, 5 MASTER, 6 PASSIVE. -/
def hxState (s : State) (n : Nat) : Nat := s.fl (HX_STATUS n) 31 28

/-- The bit time in cycles. -/
def hxTb (s : State) (n : Nat) : Nat := s.fl (HX_CFG n) 10 0
/-- Own address, role, cold-start rank, backup rank. -/
def hxAddr (s : State) (n : Nat) : Nat := s.fl (HX_CFG n) 21 16
/-- ROLE. -/
def hxRole (s : State) (n : Nat) : Nat := s.fl (HX_CFG n) 31 30
/-- CSRANK. -/
def hxRank (s : State) (n : Nat) : Nat := s.fl (HX_CFG n) 26 24
/-- BRANK. -/
def hxBrank (s : State) (n : Nat) : Nat := s.fl (HX_CFG n) 28 27
/-- The cycle length, dusk offset, guard, window half-width, backoff unit, takeover delay. -/
def hxLen (s : State) (n : Nat) : Nat := s.fl (HX_CYCLEN n) 29 0
/-- HX_DUSK. -/
def hxDusk (s : State) (n : Nat) : Nat := s.fl (HX_DUSK n) 29 0
/-- G. -/
def hxG (s : State) (n : Nat) : Nat := s.fl (HX_GUARD n) 19 0
/-- W. -/
def hxW (s : State) (n : Nat) : Nat := s.fl (HX_ACCW n) 19 0
/-- U. -/
def hxU (s : State) (n : Nat) : Nat := s.fl (HX_BOFF n) 19 0
/-- HX_BKDLY. -/
def hxBk (s : State) (n : Nat) : Nat := s.fl (HX_BKDLY n) 19 0
/-- NSLOT and the schedule ID. -/
def hxSlots (s : State) (n : Nat) : Nat := s.fl (HX_SCHED n) 23 16
/-- The schedule ID. -/
def hxSid (s : State) (n : Nat) : Nat := s.fl (HX_SCHED n) 15 0

/-- Interrupt bits of HXn. -/
def hxIrq (s : State) (n : Nat) (m : Word) : State := s.raise (HX_IRQSTAT n) m

/-- A change of STATE (R253); to a state that neither serves slots nor leads them, SILENT ends. -/
def hxGo (s : State) (n st : Nat) : State :=
  let s := if st = 4 then s else s.setBt (HX_STATUS n) 27 false
  let s := if st = 4 ∨ st = 5 then s else s.setFl (HX_STATUS n) 15 14 3
  hxIrq (s.setFl (HX_STATUS n) 31 28 st) n 0x200

/-- The binding matches PHY (R75, R241). -/
def hxBound (s : State) (n : Nat) : Bool := (boundCells s 2 n).length == (if s.bt (HX_CFG n) 29 then 1 else 2)

/-- The data cell: the lower of the bound cells. -/
def hxDataCell (s : State) (n : Nat) : Option Nat :=
  match boundCells s 2 n with
  | [] => none
  | c :: r => some (r.foldl min c)

/-- The frame-start timestamp: the data cell's pin B capture, else TB0 at the start bit (R79, R247). -/
def hxStamp (s : State) (n : Nat) (own : TB) : Nat × Nat × Nat :=
  match hxDataCell s n with
  | none => (own.ns, own.sec % 2 ^ 16, 0)
  | some c =>
    let sec := s.rd (CELL_TSB_SEC c)
    if bitAt sec 7 then ((s.rd (CELL_TSB_NS c)).toNat, fld sec 31 16, fld sec 2 0) else (own.ns, own.sec % 2 ^ 16, 0)

/-- At the end of every frame sent or received the captures of the data cell clear (R79). -/
def hxTsClear (s : State) (n : Nat) : State := match hxDataCell s n with | none => s | some c => clearCaptures s c

/-- The dawn port and the slot port (R246). -/
def hxDawnPulse (s : State) (n : Nat) : List Nat := if s.bt (HX_EVCFG n) 31 then [s.fl (HX_EVCFG n) 29 24] else []
/-- The slot port. -/
def hxSlotPulse (s : State) (n : Nat) : List Nat := if s.bt (HX_EVCFG n) 23 then [s.fl (HX_EVCFG n) 21 16] else []

/-- The cycle-start port acts on a pulse of the cycle before (R102, R236): only a master with CEN = 1. -/
def hxPulse (s : State) (n : Nat) : State :=
  let h := s.hx n
  let at_ := s.cycles - 1
  if hxState s n ≠ 5 then s
  else if h.first ∨ (h.exp ≤ at_ + hxW s n ∧ at_ ≤ h.exp + hxW s n) then
    if h.pulse = 0 then s.setHx n { h with pulse := at_ + 1 } else s
  else hxIrq (s.satInc (HX_CNT_CYC n) 15 8) n 0x100

/-! ## Frames (R230 to R232) -/

/-- The check field of a frame's header and payload (R231). -/
def hxCheck (l : List Byte) : List Byte := if l.length ≤ 32 then leBytes 2 (crc16hx l) else leBytes 4 (crc32c l)

/-- Bytes of a frame of LEN payload bytes. -/
def hxBytes (len : Nat) : Nat := 3 + len + (if len ≤ 29 then 2 else 4)

/-- d(LEN) in cycles (R232). -/
def hxDur (s : State) (n len : Nat) : Nat := 10 * hxBytes len * hxTb s n

/-- A frame's header and payload. -/
def hxHead (addr : Nat) (qok : Bool) (typ : Nat) (payload : List Byte) : List Byte :=
  leBytes 1 addr ++ leBytes 1 (qok.toNat * 16 + typ) ++ leBytes 1 payload.length ++ payload

/-- The check unit set up for a frame (R231): parameter set by LEN, mode, INIT. -/
def hxChkSet (s : State) (n len mode : Nat) : State :=
  let b := 0x36000000 + n * 0x1000
  let s := s.wr (CHK_CFG b) (BitVec.ofNat 32 ((if len ≤ 29 then 16 else 0x6000 + 32) + mode * 256))
  let s := s.wr (CHK_POLY b) (if len ≤ 29 then 0x8BB7 else 0x1EDC6F41)
  let s := s.wr (CHK_INIT b) (if len ≤ 29 then 0xFFFF else 0xFFFFFFFF)
  chkInit (s.wr (CHK_XOROUT b) (if len ≤ 29 then 0 else 0xFFFFFFFF)) b

/-- Feeding bytes to the unit and END. -/
def hxChkRun (s : State) (n : Nat) (l : List Byte) : State :=
  let b := 0x36000000 + n * 0x1000
  chkEnd (l.foldl (fun s x => chkFeedByte s b x.toNat) s) b none

/-- A transmission begins: the unit runs in append mode; the frame ends d(LEN) after cycle `at_`. -/
def hxTransmit (s : State) (n typ slot at_ : Nat) (addr : Nat) (qok : Bool) (payload : List Byte) : State :=
  let hp := hxHead addr qok typ payload
  let s := hxChkRun (hxChkSet s n payload.length 0) n hp
  s.setHx n { s.hx n with tx := some { typ := typ, slot := slot, endAt := at_ + hxDur s n payload.length, data := hp ++ hxCheck hp } }

/-- A frame sent to its end: what follows by type (R240, R255, R264). -/
def hxSent (s : State) (n : Nat) (x : HxTx) : State :=
  let s := hxTsClear (s.emit (.hx n x.data)) n
  let s := s.setHx n { s.hx n with tx := none, idleFrom := x.endAt }
  let h := s.hx n
  if x.typ = 1 then s.setHx n { h with lost := 0 }
  else if x.typ = 4 then (if hxState s n = 2 then s.setHx n { h with brk := 2, since := x.endAt } else s)
  else if x.typ = 6 then hxIrq (s.setBt (HX_DTXCTL n) 31 false) n 0x20
  else s

/-- A sequencer whose frame has ended by now completes it (R226). -/
def hxEndOne (s : State) (n : Nat) : State :=
  match (s.hx n).tx with
  | some x => if x.endAt ≤ s.cycles then hxSent s n x else s
  | none => s

/-- The sequencers whose frame has ended by now complete it. -/
def hxComplete (s : State) : State :=
  (List.range 32).foldl hxEndOne s

/-! ## Memory (R224, R242 to R244) -/

/-- An address range lies wholly in the bound engine's data scratchpad or in shared memory. -/
def hxRangeOk (s : State) (n lo hi : Nat) : Bool :=
  let d := 0x10010000 + s.fl (HX_ENG n) 6 4 * 0x100000
  (decide (d ≤ lo) && decide (hi ≤ d + 0x30000)) || (decide (0x20000000 ≤ lo) && decide (hi ≤ 0x21000000))

/-- One access of the sequencer, with the bound engine's master ID; none on an error response, logged (R16, R244). -/
def hxAcc (s : State) (n a k : Nat) (x : Option Nat) : State × Option Nat :=
  let e := s.fl (HX_ENG n) 6 4
  if inScratch e a then
    if closed s (e + 1) e then (logErr s (e + 1) a x.isSome 6, none)
    else match (let u := seenUpset s; scratchAcc u.1 e a k x u.2) with
      | (s, none) => (logErr s (e + 1) a x.isSome 5, none)
      | r => r
  else memAcc s (e + 1) a k x

/-- Reading `k` bytes. -/
def hxRead (s : State) (n a k : Nat) : State × Option (List Byte) :=
  (chunks k a k).foldl (fun r c =>
    match r with
    | (s, none) => (s, none)
    | (s, some l) =>
      match hxAcc s n c.1 c.2 none with
      | (s, none) => (s, none)
      | (s, some v) => (s, some (l ++ leBytes c.2 v))) (s, some [])

/-- Writing bytes; false on an error response. -/
def hxWriteMem (s : State) (n a : Nat) (bs : List Byte) : State × Bool :=
  (chunks bs.length a bs.length).foldl (fun r c =>
    match r with
    | (s, false) => (s, false)
    | (s, true) =>
      match hxAcc s n c.1 c.2 (some (leNat ((bs.drop (c.1 - a)).take c.2))) with
      | (s, none) => (s, false)
      | (s, some _) => (s, true)) (s, true)

/-- A schedule entry (Table 10.8). -/
structure HxEntry where
  kind : Nat
  start : Nat
  addr : Nat
  mlen : Nat
  nlen : Nat
  pad : Nat
  mptr : Nat
  nptr : Nat
deriving DecidableEq, Repr

/-- The entry of 16 bytes. -/
def hxEntryOf (l : List Byte) : HxEntry :=
  let w := leNat (l.take 4)
  { kind := w / 2 ^ 30, start := w % 2 ^ 30, addr := (l.getD 4 0).toNat, mlen := (l.getD 5 0).toNat, nlen := (l.getD 6 0).toNat,
    pad := (l.getD 7 0).toNat, mptr := leNat ((l.drop 8).take 4), nptr := leNat ((l.drop 12).take 4) }

/-- Entry `j` as the sequencer holds it from its fetch. -/
def hxEntry (s : State) (n j : Nat) : HxEntry := hxEntryOf (s.bytes ((s.rd (HX_SCHBASE n)).toNat + 16 * j) 16)

/-- The granted address of a twilight slot (R239); slot 255 reads 0. -/
def twAddr (s : State) (n j : Nat) : Nat := if 255 ≤ j then 0 else s.fl (HX_TWADDR n (j / 4)) (8 * (j % 4) + 5) (8 * (j % 4))

/-- Setting it. -/
def setTwAddr (s : State) (n j a : Nat) : State :=
  if 255 ≤ j then s else s.setFl (HX_TWADDR n (j / 4)) (8 * (j % 4) + 5) (8 * (j % 4)) a

/-- The address slot `j` serves in this cycle: 0 for an ungranted twilight slot (R238, R239). -/
def slotAddr (s : State) (n j : Nat) : Nat :=
  let e := hxEntry s n j
  if e.kind = 2 then twAddr s n j else e.addr % 64

/-- Slot `j` is a twilight slot below NSLOT. -/
def isTwilight (s : State) (n j : Nat) : Bool := decide (j < hxSlots s n) && (hxEntry s n j).kind == 2

/-- A polled slot carries address `a`. -/
def polledAddr (s : State) (n a : Nat) : Bool :=
  (List.range (hxSlots s n)).any (fun j => (hxEntry s n j).kind == 1 && (hxEntry s n j).addr == a)

/-- A_j = d(MLEN_j) + G (R237). -/
def actionOff (s : State) (n : Nat) (e : HxEntry) : Nat := hxDur s n e.mlen + hxG s n

/-- The buffer address of a pointer in the current cycle's parity (R243). -/
def hxBuf (s : State) (n p : Nat) : Nat :=
  if s.fl (HX_CYCNT n) 0 0 = 1 then (p + (s.rd (HX_ALTOFF n)).toNat) % 2 ^ 32 else p

/-- A slot is skipped (R244): SKIP counts; BUSERR on an error response. -/
def hxSkip (s : State) (n : Nat) (err : Bool) : State :=
  let s := s.satInc (HX_CNT_CYC n) 7 0
  if err then hxIrq s n 0x80 else s

/-! ## Records (R243, R245, R262) -/

/-- HX_LASTERR takes a record while it holds none. -/
def hxLastErr (s : State) (n slot code : Nat) : State :=
  if s.bt (HX_LASTERR n) 31 then s else s.wr (HX_LASTERR n) (BitVec.ofNat 32 (2 ^ 31 + slot * 256 + code))

/-- A master queues a grant or a release, or discards it (R266). -/
def hxQueue (s : State) (n slot a : Nat) : State :=
  let h := s.hx n
  if 8 ≤ h.grants.length then s.satInc (HX_GRSTAT n) 15 8
  else (s.setHx n { h with grants := h.grants ++ [(slot, a, 0)] }).setFl (HX_GRSTAT n) 3 0 (h.grants.length + 1)

/-- GRANT_LOST (R268). -/
def hxGrantLost (s : State) (n : Nat) : State :=
  let s := (s.setFl (HX_CLAIM n) 7 0 0xFF).raise (HX_SUSTAT n) 0x80000000
  s.setHx n { s.hx n with noPoll := 0 }

/-- The count of cycles without a good POLL in the held slot (R268). -/
def hxHeldPoll (s : State) (n j code : Nat) : State :=
  if hxState s n ≠ 4 ∨ s.fl (HX_CLAIM n) 7 0 ≠ j then s
  else if code = 0 then s.setHx n { s.hx n with noPoll := 0 }
  else if s.bt (HX_STATUS n) 27 then s
  else if 8 ≤ (s.hx n).noPoll + 1 then hxGrantLost s n
  else s.setHx n { s.hx n with noPoll := (s.hx n).noPoll + 1 }

/-- GRANT_RELEASE: TWREL consecutive NORESP records in a granted twilight slot (R267). -/
def hxNoResp (s : State) (n j code : Nat) : State :=
  let h := s.hx n
  if hxState s n ≠ 5 then s
  else if code ≠ 1 then s.setHx n { h with noresp := smSet 0 h.noresp j 0 }
  else
    let k := smGet 0 h.noresp j + 1
    let t := s.fl (HX_TWREL n) 7 0
    if t ≠ 0 ∧ isTwilight s n j ∧ t ≤ k then hxQueue (s.setHx n { h with noresp := smSet 0 h.noresp j 0 }) n j 0
    else s.setHx n { h with noresp := smSet 0 h.noresp j k }

/-- Fetching slot `j` ahead (R244): its entry, and what this sequencer would send in it, a master its poll and a node its response. -/
def hxFetch (s : State) (n j : Nat) : State :=
  if hxSlots s n ≤ j then s.setHx n { s.hx n with pre := none }
  else
    let bad (s : State) : State := hxIrq (s.setHx n { s.hx n with pre := some { slot := j } }) n 0x80
    match hxRead s n ((s.rd (HX_SCHBASE n)).toNat + 16 * j) 16 with
    | (s, none) => bad s
    | (s, some l) =>
      let e := hxEntryOf l
      let a := if e.kind = 2 then twAddr s n j else e.addr % 64
      let master := hxState s n == 5
      if a = 0 ∨ (master && a == hxAddr s n) then s.setHx n { s.hx n with pre := some { slot := j, ok := true, entry := l } }
      else
        let b := hxBuf s n (if master then e.mptr else e.nptr)
        match hxRead s n (b - 16) 4 with
        | (s, none) => bad s
        | (s, some ctl) =>
          match hxRead s n b (if master then e.mlen else e.nlen) with
          | (s, none) => bad s
          | (s, some d) =>
            s.setHx n { s.hx n with pre := some { slot := j, ok := true, entry := l, qok := leNat ctl % 2 == 1, data := d } }

/-- What is fetched of slot `j`, as soon as it can be where nothing was fetched ahead. -/
def hxFetched (s : State) (n j : Nat) : State × HxPre :=
  match (s.hx n).pre with
  | some p => if p.slot = j then (s, p) else let s := hxFetch s n j; (s, (s.hx n).pre.getD { slot := j })
  | none => let s := hxFetch s n j; (s, (s.hx n).pre.getD { slot := j })

/-- The slot whose response a node would send next. -/
def hxOwnSlot (s : State) (n : Nat) : Option Nat :=
  (List.range (hxSlots s n)).find? (fun j =>
    slotAddr s n j == hxAddr s n && decide (s.cycles ≤ (s.hx n).ref + (hxEntry s n j).start + actionOff s n (hxEntry s n j)))

/-- A node fetches its next slot from the start of the poll before it, or of the dawn, on (R244). -/
def hxFetchDue (s : State) (n : Nat) : State :=
  if hxState s n ≠ 4 ∨ hxAddr s n = 63 then s
  else match hxOwnSlot s n with
    | none => s
    | some j =>
      let from_ := (s.hx n).ref + (if j = 0 then 0 else (hxEntry s n (j - 1)).start)
      let held := match (s.hx n).pre with | some p => p.slot == j | none => false
      if held || decide (s.cycles < from_) then s else hxFetch s n j

/-- SLOT_RECORD: STAT code of slot `j`, with the timestamp of a frame and, for GOOD, its payload (R243, R245, R262). -/
def hxRecord (s : State) (n j code : Nat) (qok : Bool) (ts : Option (Nat × Nat × Nat)) (data : List Byte) : State :=
  let e := hxEntry s n j
  let b := hxBuf s n (if hxState s n = 5 then e.nptr else e.mptr)
  let cy := s.fl (HX_CYCNT n) 15 0
  let (s, ok1) := if code = 0 then hxWriteMem s n b data else (s, true)
  let (s, ok2) := match ts with
    | some (ns, sec, sub) => if ok1 then hxWriteMem s n (b - 12) (leBytes 4 ns ++ leBytes 4 (sec * 2 ^ 16 + sub)) else (s, ok1)
    | none => (s, ok1)
  let (s, ok3) := if ok2 then hxWriteMem s n (b - 4) (leBytes 4 (cy * 2 ^ 16 + qok.toNat * 256 + code)) else (s, ok2)
  let s := if ok3 then s else if code = 7 then hxIrq s n 0x80 else hxSkip s n true
  let s := s.setHx n { s.hx n with recd := j :: (s.hx n).recd }
  let s := hxHeldPoll (hxNoResp s n j code) n j code
  if code = 0 then s.wrapInc (HX_CNT_SLOT n) 15 0
  else if code = 6 then s
  else hxIrq (hxLastErr (s.satInc (HX_CNT_SLOT n) 31 16) n j code) n 0x4

/-- A charge to an address: `win` for a frame outside its window, else for one that failed test 4 (R262). -/
def hxCharge (s : State) (n a : Nat) (win : Bool) : State :=
  if a = 0 ∨ a = 63 ∨ (hxState s n ≠ 4 ∧ hxState s n ≠ 5) then s
  else if win then s.satInc (HX_SNDERR n a) 15 8 else s.satInc (HX_SNDERR n a) 7 0

/-! ## Dawns (R235, R236, R259 to R261) -/

/-- Entry to PASSIVE (R261, R264). -/
def hxPassive (s : State) (n : Nat) : State :=
  let s := (hxGo s n 6).satInc (HX_CNT_SU n) 7 0
  s.setHx n { s.hx n with since := s.cycles, await := none, due := none, tx := none }

/-- A silent cycle, or one that is not (R261). -/
def hxSilence (s : State) (n : Nat) (silent : Bool) : State :=
  if silent = false then (s.setBt (HX_STATUS n) 27 false).setFl (HX_SUSTAT n) 1 0 0
  else if 2 ≤ s.fl (HX_SUSTAT n) 1 0 then hxPassive (s.setFl (HX_SUSTAT n) 1 0 0) n
  else (s.setBt (HX_STATUS n) 27 true).setFl (HX_SUSTAT n) 1 0 (s.fl (HX_SUSTAT n) 1 0 + 1)

/-- A cycle begins: its reference, count, phase and marks. -/
def hxCycle (s : State) (n ref cycnt : Nat) : State :=
  let s := ((s.setFl (HX_CYCNT n) 15 0 cycnt).wrapInc (HX_CNT_CYC n) 31 16).setFl (HX_STATUS n) 15 14 0
  s.setHx n { s.hx n with ref := ref, await := none, due := none, next := 0, recd := [], claimed := false, pulse := 0,
                          pre := none, late := none }

/-- The grant of a dawn, applied by a node that accepts it or the master that sends it (R239, R260, R265, R268). -/
def hxGrant (s : State) (n slot a : Nat) : State :=
  if slot = 0xFF then s
  else if isTwilight s n slot = false then s.satInc (HX_CNT_DAWN n) 7 0
  else
    let s := setTwAddr s n slot a
    if hxState s n = 5 ∨ hxRole s n ≠ 0 then s
    else if a = hxAddr s n then
      let s := ((s.setFl (HX_CLAIM n) 7 0 slot).setBt (HX_CLAIM n) 31 false).raise (HX_SUSTAT n) 0x40000000
      s.setHx n { s.hx n with noPoll := 0 }
    else if s.fl (HX_CLAIM n) 7 0 = slot then hxGrantLost s n
    else s

/-- The dawn's time registers (R247); their reserved bits stay 0 (R7). -/
def hxTimes (s : State) (n : Nat) (ts : Nat × Nat × Nat) (tns tsec : Nat) : State :=
  (((s.wr (HX_DAWNTS_NS n) (BitVec.ofNat 32 ts.1)).wr (HX_DAWNTS_SEC n) (BitVec.ofNat 32 (ts.2.1 * 2 ^ 16 + ts.2.2))).wr
    (HX_MTIME_NS n) (BitVec.ofNat 32 (tns % 2 ^ 30))).wr (HX_MTIME_SEC n) (BitVec.ofNat 32 tsec)

/-- The dawn windows: the first j for which R_obs lies in R_exp + j BKDLY ± W (R259). -/
def hxWindow (s : State) (n rexp robs : Nat) : Option Nat :=
  (if hxBk s n = 0 then [0] else [0, 1, 2, 3, 4]).find? (fun j =>
    let c := rexp + j * hxBk s n
    decide (c ≤ robs + hxW s n) && decide (robs ≤ c + hxW s n))

/-- DAWN_ACCEPT of a good DAWN with the own schedule (R258 to R260): `robs` its observed reference, `p` its payload; `misfit` is what a
frame that fails test 4 does. -/
def hxAccept (s : State) (n robs : Nat) (p : List Byte) (ts : Nat × Nat × Nat) (misfit : State → State) : State × List Nat :=
  let cy := leNat (p.take 2)
  let st := hxState s n
  let rexp := (s.hx n).ref + hxLen s n
  let win := hxWindow s n rexp robs
  let load (s : State) : State :=
    hxIrq (hxTimes s n ts (leNat ((p.drop 8).take 4)) (leNat ((p.drop 12).take 4))) n 0x1
  let grant (s : State) : State := hxGrant s n (leNat ((p.drop 6).take 1)) (leNat ((p.drop 7).take 1) % 64)
  let mark (s : State) (j : Nat) : State :=
    let c : Int := (robs : Int) - ((rexp + j * hxBk s n : Nat) : Int)
    (s.setFl (HX_SUSTAT n) 10 8 j).wr (HX_CORR n) (wordOfInt c)
  if st = 1 ∨ st = 2 then
    let s := hxGo (s.setHx n { s.hx n with brk := 0, tx := none }) n 3
    (grant (load (hxCycle s n robs cy)), hxDawnPulse s n)
  else if st = 3 then
    let ok := win.isSome && cy == (s.fl (HX_CYCNT n) 15 0 + 1) % 65536
    let s := match win with | some j => mark s j | none => s
    let s := grant (load (hxCycle s n robs cy))
    (if ok then hxSilence (hxGo s n 4) n false else s, hxDawnPulse s n)
  else if st = 4 then
    match win with
    | none => (misfit s, [])
    | some j =>
      let c : Int := (robs : Int) - ((rexp + j * hxBk s n : Nat) : Int)
      let drift := decide (hxLen s n * s.fl (HX_DRIFT n) 13 0 / 1000000 < c.natAbs)
      let s := grant (load (hxCycle (mark s j) n robs cy))
      let s := if drift then s.satInc (HX_CNT_DAWN n) 23 16 else s
      (hxSilence s n drift, hxDawnPulse s n)
  else if st = 5 then (hxPassive (s.raise (HX_SUSTAT n) 0x10000000) n, [])
  else (s, [])

/-- The dawn a master sends (Table 10.4), with the time of its dawn reference (R233, R247): from cycle `at_`, with the grant at the head of the queue unless `takeover`. -/
def hxSendDawn (s : State) (n at_ : Nat) (takeover : Bool) : State × List Nat :=
  let h := s.hx n
  let (slot, a, rest, first) : Nat × Nat × List (Nat × Nat × Nat) × Bool :=
    match takeover, h.grants with
    | false, (g, a, k) :: r => (g, a, if k = 0 then (g, a, 1) :: r else r, k == 0)
    | _, l => (0xFF, 0, l, false)
  let cy := if h.first then 0 else (s.fl (HX_CYCNT n) 15 0 + 1) % 65536
  let t := tb0At s at_
  let rank := if hxRole s n = 2 then hxBrank s n else 0
  let payload := leBytes 2 cy ++ leBytes 2 (hxSid s n) ++ leBytes 1 rank ++ leBytes 1 (hxSlots s n) ++ leBytes 1 slot ++ leBytes 1 a ++
    leBytes 4 t.ns ++ leBytes 4 t.sec
  let s := hxCycle (s.setHx n { h with grants := rest, first := false, exp := at_ + hxLen s n }) n at_ cy
  let s := (s.setFl (HX_GRSTAT n) 3 0 rest.length).wr (HX_CORR n) 0
  let s := if first then hxGrant s n slot a else s
  let s := hxIrq (hxTimes s n (t.ns, t.sec % 2 ^ 16, t.sub) t.ns (t.sec % 2 ^ 32)) n 0x1
  let s := hxTransmit s n 1 0xFF at_ (hxAddr s n) false payload
  (hxFetch s n 0, hxDawnPulse s n)

/-- DAWN_SEND (R236). -/
def dawnSend (s : State) (n : Nat) : State × List Nat :=
  let h := s.hx n
  if hxState s n ≠ 5 ∨ h.stopping then (s, [])
  else if s.bt (HX_EVCFG n) 15 then
    if h.pulse ≠ 0 ∧ h.pulse ≤ s.cycles then hxSendDawn s n h.pulse false
    else if h.first = false ∧ h.exp ≤ s.cycles then
      hxSendDawn (hxIrq (s.satInc (HX_CNT_CYC n) 15 8) n 0x100) n h.exp false
    else (s, [])
  else if h.exp ≤ s.cycles then hxSendDawn s n h.exp false
  else (s, [])

/-! ## Slots (R237, R238) -/

/-- What a master does in slot `j` from cycle `at_` with what it has fetched (R238, R244, R245). -/
def pollSlot (s : State) (n j at_ : Nat) (p : HxPre) (late : Bool) : State × List Nat :=
  let e := hxEntryOf p.entry
  let a := if e.kind = 2 then twAddr s n j else e.addr % 64
  if p.ok = false then (hxRecord (hxSkip s n false) n j 7 false none [], [])
  else if a = 0 then (s, [])
  else if late then (hxRecord (hxSkip s n false) n j 7 false none [], [])
  else if a = hxAddr s n then (hxRecord s n j 6 false none [], [])
  else
    let s := hxTransmit s n 2 j at_ a p.qok p.data
    (s.setHx n { s.hx n with await := some j }, hxSlotPulse s n)

/-- POLL_SEND: the next slot of a master starts, and the fetch of the one after it begins (R238, R244, R245); `late`: its own fetch has
not completed. -/
def pollSend (s : State) (n : Nat) (late : Bool) : State × List Nat :=
  let h := s.hx n
  let j := h.next
  let at_ := h.ref + (hxEntry s n j).start
  if hxState s n ≠ 5 ∨ h.first ∨ hxSlots s n ≤ j ∨ s.cycles < at_ then (s, [])
  else
    let s := s.setHx n { h with next := j + 1, await := none, late := none }
    let f := hxFetched ((s.setFl (HX_STATUS n) 23 16 j).setFl (HX_STATUS n) 15 14 1) n j
    let r := pollSlot f.1 n j at_ f.2 late
    (hxFetch r.1 n (j + 1), r.2)

/-- RESP_SEND: a node's response at its action point (R238, R244, R261). -/
def respSend (s : State) (n : Nat) (late : Bool) : State × List Nat :=
  let h := s.hx n
  match h.due with
  | none => (s, [])
  | some j =>
    let e := hxEntry s n j
    let at_ := h.ref + e.start + actionOff s n e
    if hxState s n ≠ 4 ∨ s.cycles < at_ then (s, [])
    else
      let s := s.setHx n { h with due := none }
      if s.bt (HX_STATUS n) 27 then (s, [])
      else if late then (hxSkip s n false, [])
      else
        let f := hxFetched s n j
        if f.2.ok then (hxTransmit f.1 n 3 j at_ (hxAddr s n) f.2.qok f.2.data, hxSlotPulse s n) else (hxSkip f.1 n false, [])

/-- RESPONSE_WINDOW_CLOSE: slot `j` closes with no frame start (R245): the response window of a master, the poll window of
the node the slot belongs to. -/
def windowClose (s : State) (n j : Nat) : State :=
  let h := s.hx n
  let e := hxEntry s n j
  if hxSlots s n ≤ j ∨ h.recd.contains j then s
  else if hxState s n = 5 ∧ h.await = some j ∧ h.ref + e.start + actionOff s n e + hxW s n ≤ s.cycles then
    hxRecord (s.setHx n { h with await := none, late := some j }) n j 1 false none []
  else if hxState s n = 4 ∧ slotAddr s n j = hxAddr s n ∧ hxAddr s n ≠ 63 ∧ h.ref + e.start + hxW s n ≤ s.cycles then
    hxRecord (s.setHx n { h with late := some j }) n j 1 false none []
  else s

/-- DUSK_START (R237). -/
def duskStart (s : State) (n : Nat) : State :=
  let h := s.hx n
  if (hxState s n ≠ 4 ∧ hxState s n ≠ 5) ∨ h.first ∨ s.cycles < h.ref + hxDusk s n ∨ s.fl (HX_STATUS n) 15 14 = 2 then s
  else hxIrq ((s.setHx n { h with await := none, due := none, late := none }).setFl (HX_STATUS n) 15 14 2) n 0x2

/-- The bytes of the dusk transmit buffer. -/
def duskPayload (s : State) (n : Nat) : List Byte :=
  let c := s.rd (HX_DTXCTL n)
  leBytes 1 (fld c 29 24) ++ regBytes s (HX_DTXBUF n 0) (fld c 7 0)

/-- DUSK_SEND: a CLAIM, or else the queued DMSG, after the idle time of the address and if it still fits (R240, R265). -/
def duskSend (s : State) (n : Nat) : State :=
  let h := s.hx n
  let a := hxAddr s n
  let claim := s.bt (HX_CLAIM n) 31 && !h.claimed && hxState s n == 4
  let payload := if claim then leBytes 2 (hxSid s n) ++ leBytes 1 (s.fl (HX_CLAIM n) 23 16) ++ leBytes 1 0 else duskPayload s n
  let idle := max (h.ref + hxDusk s n) h.idleFrom + (12 + 2 * a) * hxTb s n
  if (hxState s n ≠ 4 ∧ hxState s n ≠ 5) ∨ s.fl (HX_STATUS n) 15 14 ≠ 2 ∨ s.bt (HX_STATUS n) 27 ∨ a = 63 ∨ h.tx.isSome ∨
      (claim = false ∧ s.bt (HX_DTXCTL n) 31 = false) ∨ s.cycles < idle ∨
      h.ref + hxLen s n < s.cycles + hxDur s n payload.length + hxG s n then s
  else if claim then
    hxTransmit ((s.satInc (HX_CLAIM n) 15 8).setHx n { h with claimed := true }) n 5 0xFF s.cycles a false payload
  else hxTransmit s n 6 0xFF s.cycles a false payload

/-! ## Daybreak and state changes (R253 to R258, R263, R264) -/

/-- DAYBREAK_SEND (R255). -/
def daybreakSend (s : State) (n : Nat) : State :=
  let s := (s.satInc (HX_CNT_SU n) 31 24).setHx n { s.hx n with brk := 1 }
  hxTransmit s n 4 0xFF s.cycles (hxAddr s n) false (leBytes 1 (hxRank s n) ++ leBytes 1 0 ++ leBytes 2 (hxSid s n))

/-- Entry to LISTEN: the listen timer starts. -/
def hxListen (s : State) (n : Nat) : State :=
  let s := hxGo s n 1
  s.setHx n { s.hx n with since := s.cycles, brk := 0, tx := none, await := none, due := none }

/-- LISTEN_TIMEOUT: 2 HX_CYCLEN + CSRANK U (Table 11.2). -/
def listenTimeout (s : State) (n : Nat) : State :=
  if hxState s n ≠ 1 ∨ hxRank s n = 0 ∨ s.cycles < (s.hx n).since + 2 * hxLen s n + hxRank s n * hxU s n then s
  else daybreakSend (hxGo s n 2) n

/-- CONFIRMATION_END: 5 U after the end of the own DAYBREAK (R255): MASTER, whose first dawn carries CYCNT 0 (Table 11.1). -/
def confirmEnd (s : State) (n : Nat) : State :=
  let h := s.hx n
  if hxState s n ≠ 2 ∨ h.brk ≠ 2 ∨ s.cycles < h.since + 5 * hxU s n then s
  else
    let s := s.setHx n { h with brk := 0, first := true, exp := s.cycles, pulse := 0, lost := 0 }
    (hxGo s n 5).wr (HX_CORR n) 0

/-- DAYBREAK_BACKOFF_END: CSRANK U (R256). -/
def backoffEnd (s : State) (n : Nat) : State :=
  let h := s.hx n
  if hxState s n ≠ 2 ∨ h.brk ≠ 4 ∨ s.cycles < h.since + hxRank s n * hxU s n then s else daybreakSend s n

/-- DAWN_WINDOW_CLOSE: no dawn by the close of the last window (R258, R260). -/
def dawnWindowClose (s : State) (n : Nat) : State :=
  let h := s.hx n
  let rexp := h.ref + hxLen s n
  if s.cycles < rexp + 4 * hxBk s n + hxW s n then s
  else if hxState s n = 3 then hxListen s n
  else if hxState s n = 4 then
    let s := hxCycle (s.satInc (HX_CNT_DAWN n) 31 24) n rexp ((s.fl (HX_CYCNT n) 15 0 + 1) % 65536)
    hxSilence s n true
  else s

/-- PASSIVE_TIMEOUT (R261). -/
def passiveTimeout (s : State) (n : Nat) : State :=
  if hxState s n = 6 ∧ (s.hx n).since + hxLen s n ≤ s.cycles then hxListen s n else s

/-- The standby index k; none for a sequencer that is no standby (R263). -/
def standby (s : State) (n : Nat) : Option Nat :=
  if hxRole s n = 2 then some (hxBrank s n)
  else if hxRole s n = 1 ∧ s.bt (HX_EVCFG n) 15 = false then some 4
  else none

/-- BACKUP_TAKEOVER (R263). -/
def takeover (s : State) (n : Nat) : State × List Nat :=
  let h := s.hx n
  let rexp := h.ref + hxLen s n
  match standby s n with
  | none => (s, [])
  | some k =>
    let at_ := rexp + k * hxBk s n
    if hxState s n ≠ 4 ∨ hxBk s n = 0 ∨ s.bt (HX_STATUS n) 27 ∨ h.stopping ∨ s.cycles < at_ ∨ rexp + 1 ≤ h.heard + hxW s n then (s, [])
    else
      let s := ((hxGo s n 5).satInc (HX_CNT_SU n) 15 8).raise (HX_SUSTAT n) 0x20000000
      hxSendDawn (s.setHx n { s.hx n with lost := 0 }) n at_ true

/-- Entering STOPPED: the driver is released (R253). -/
def hxEnterStopped (s : State) (n : Nat) : State :=
  let s := hxGo s n 0
  s.setHx n { s.hx n with tx := none, await := none, due := none, brk := 0, stopping := false, first := false, pulse := 0 }

/-- HALT. -/
def hxHaltOp (s : State) (n : Nat) : State := if hxState s n = 0 then s else hxEnterStopped s n

/-- STOP: at the end of the cycle in ACTIVE and MASTER, else as HALT (R253). -/
def hxStopOp (s : State) (n : Nat) : State :=
  if hxState s n = 4 ∨ (hxState s n = 5 ∧ (s.hx n).first = false) then s.setHx n { s.hx n with stopping := true } else hxHaltOp s n

/-- STOP_CYCLE_FINISHED. -/
def stopFinished (s : State) (n : Nat) : State :=
  let h := s.hx n
  if h.stopping ∧ h.ref + hxLen s n ≤ s.cycles then hxEnterStopped s n else s

/-- READBACK_ERROR: the frame in transmission is abandoned (R227, R240, R256, R264). The sender of a contention frame goes on hearing
the frame that began at its own start bit. -/
def readback (s : State) (n : Nat) : State :=
  let h := s.hx n
  match h.tx with
  | none => s
  | some x =>
    let s := (s.satInc (HX_CNT_ERR n) 7 0).setHx n
      { h with tx := none, idleFrom := if x.typ ≤ 3 then s.cycles else h.idleFrom }
    let h := s.hx n
    if x.typ = 1 then
      if 1 ≤ h.lost ∧ hxState s n = 5 then hxPassive ((s.setHx n { h with lost := 0 }).raise (HX_SUSTAT n) 0x10000000) n
      else s.setHx n { h with lost := h.lost + 1 }
    else if x.typ = 2 then hxRecord (s.setHx n { h with await := none }) n x.slot 8 false none []
    else if x.typ = 4 then (s.satInc (HX_CNT_SU n) 23 16).setHx n { h with brk := 3 }
    else if x.typ = 5 then s.setHx n { h with claimed := false }
    else if x.typ = 6 then s.satInc (HX_DTXCTL n) 15 8
    else s

/-! ## Reception (R234, R240, R255 to R262, R266) -/

/-- The sequencer recognises a frame start now: its data cell is bound (R80), and the line has been idle for 12 T_b (R229). -/
def hxHears (s : State) (n : Nat) : Bool := (hxDataCell s n).isSome && decide ((s.hx n).idleFrom + 12 * hxTb s n ≤ s.cycles)

/-- The next transmission that the sequencer has scheduled: a master's dawn or poll, a node's response (R229, R236 to R238). -/
def hxNextDue (s : State) (n : Nat) : Option Nat :=
  let h := s.hx n
  let slot (j : Nat) : List Nat :=
    if hxSlots s n ≤ j ∨ slotAddr s n j = 0 ∨ slotAddr s n j = hxAddr s n then [] else [h.ref + (hxEntry s n j).start]
  let l :=
    if hxState s n = 5 ∧ h.stopping = false then
      (if h.first then [] else slot h.next) ++ (if s.bt (HX_EVCFG n) 15 then (if h.pulse = 0 then [] else [h.pulse]) else [h.exp])
    else if hxState s n = 4 ∧ s.bt (HX_STATUS n) 27 = false then
      match h.due with
      | some j => [h.ref + (hxEntry s n j).start + actionOff s n (hxEntry s n j)]
      | none => []
    else []
  (l.filter (fun t => decide (s.cycles < t))).min?

/-! ## The pins (R75, R77, R226, Table 3.5) -/

/-- The bit of a frame that stands at the pins in cycle `t`, while the frame lasts. -/
def hxBitAt (x : HxTx) (tb t : Nat) : Option Bool :=
  let start := x.endAt - 10 * x.data.length * tb
  if t < start ∨ x.endAt ≤ t ∨ tb = 0 then none
  else
    let k := (t - start) / tb
    some (if k % 10 = 0 then false else if k % 10 = 9 then true else (x.data.getD (k / 10) 0).getLsbD (k % 10 - 1))

/-- What the sequencer drives in cycle `t` (R226): the data pin, and the driver enable of PHY 0. A driven frame has its enable from one
T_b before its start bit on; of a dawn that waits for a pulse it has none before the pulse. -/
def hxLine (s : State) (n t : Nat) : Bool × Bool :=
  let lead := !s.bt (HX_CFG n) 29 && (match hxNextDue s n with | some d => decide (d ≤ t + hxTb s n) | none => false)
  match (s.hx n).tx with
  | none => (true, lead)
  | some x =>
    match hxBitAt x (hxTb s n) t with
    | none => (true, lead)
    | some b => if s.bt (HX_CFG n) 29 || decide (x.typ ≤ 3) then (b, true) else (b, !b)

/-- The drive of a sequencer at the pins of its cells, 2 cycles after it changes (R78). -/
def hxShow (s : State) (n : Nat) : State :=
  let d := hxLine s n (s.cycles - 2)
  match hxDataCell s n with
  | none => s
  | some c =>
    let s := setDrive s c false d.1 true
    if s.bt (HX_CFG n) 29 || !(boundCells s 2 n).contains (c + 1) then s else setDrive s (c + 1) false d.2 true

/-- What passing time brings to the sequencers besides the ends of their frames: fetches (R244) and the drive of their pins. -/
def hxMove (s : State) : State := s.hxH.foldl (fun s e => hxShow (hxFetchDue s e.1) e.1) s

/-- The frame passes test 2 (R234): type, reserved bits, LEN. -/
def hxFormatOk (l : List Byte) : Bool :=
  let b0 := (l.getD 0 0).toNat
  let b1 := (l.getD 1 0).toNat
  let len := (l.getD 2 0).toNat
  let t := b1 % 16
  decide (3 ≤ l.length) && decide (b0 < 64) && decide (b1 < 32) && decide (1 ≤ t) && decide (t ≤ 6) &&
    (t == 2 || t == 3 || t == 6 || decide (b1 < 16)) &&
    (if t = 1 then len == 16 else if t = 4 ∨ t = 5 then len == 4 else if t = 6 then decide (1 ≤ len) && decide (len ≤ 128)
     else decide (len ≤ 128))

/-- The slot in which a frame that starts at offset `o` falls: the last that has opened (R237). -/
def slotAt (s : State) (n o : Nat) : Option Nat :=
  ((List.range (hxSlots s n)).filter (fun j => decide ((hxEntry s n j).start ≤ o + hxW s n))).getLast?

/-- |x - y| ≤ w. -/
def near (x y w : Nat) : Bool := decide (x ≤ y + w) && decide (y ≤ x + w)

/-- DMSG_RECEIVE (R240). -/
def dmsgReceive (s : State) (n src : Nat) (p : List Byte) : State :=
  let dst := (p.headD 0).toNat % 64
  if dst ≠ hxAddr s n ∧ dst ≠ 0 then s
  else if s.bt (HX_DRXSTAT n) 31 then s.raise (HX_DRXSTAT n) 0x40000000
  else
    let d := p.drop 1
    let s := (List.range ((d.length + 3) / 4)).foldl (fun s i =>
      let old := leBytes 4 (s.rd (HX_DRXBUF n i)).toNat
      let new := (d.drop (4 * i)).take 4
      s.wr (HX_DRXBUF n i) (BitVec.ofNat 32 (leNat (new ++ old.drop new.length)))) s
    let ovr := s.bt (HX_DRXSTAT n) 30
    hxIrq (s.wr (HX_DRXSTAT n) (BitVec.ofNat 32 (2 ^ 31 + ovr.toNat * 2 ^ 30 + src * 2 ^ 24 + dst * 2 ^ 16 + d.length))) n 0x10

/-- CLAIM_PROCESS (R266). -/
def claimProcess (s : State) (n src : Nat) (p : List Byte) : State :=
  let s := s.satInc (HX_GRSTAT n) 31 24
  let refuse := s.satInc (HX_GRSTAT n) 23 16
  let h := s.hx n
  let slots := (List.range (hxSlots s n)).filter (fun j => isTwilight s n j)
  let free (j : Nat) : Bool := twAddr s n j == 0 && !h.grants.any (fun g => g.1 == j)
  let want := (p.getD 2 0).toNat
  if leNat (p.take 2) ≠ hxSid s n ∨ polledAddr s n src then refuse
  else match slots.find? (fun j => twAddr s n j == src) with
    | some j => hxQueue s n j src
    | none =>
      match (if want = 0xFF then slots.find? free else slots.find? (fun j => j == want && free j)) with
      | some j => hxQueue s n j src
      | none => refuse

/-- A frame of a type that fits no phase or slot: test 4 fails (R234, R262). -/
def hxAlien (s : State) (n a : Nat) : State :=
  hxIrq (hxCharge (s.satInc (HX_CNT_ERR n) 15 8) n a false) n 0x8

/-- The slot of which a frame that starts at offset `o` is the frame a record is due for: the slot a master awaits, or the
slot of the node's own address before its poll was recorded. -/
def recordSlot (s : State) (n o : Nat) : Option Nat :=
  let h := s.hx n
  if hxState s n = 5 then h.await
  else if hxState s n = 4 ∧ o < hxDusk s n then
    match slotAt s n o with
    | some j => if slotAddr s n j = hxAddr s n ∧ h.recd.contains j = false ∧ hxAddr s n ≠ 63 then some j else none
    | none => none
  else none

/-- A frame that fails test 4, with the record of the slot it falls in (R234, R245, R262). -/
def hxMisfit (s : State) (n a o : Nat) (ts : Nat × Nat × Nat) : State :=
  match recordSlot s n o with
  | some j => hxRecord (hxAlien (s.setHx n { s.hx n with await := none }) n a) n j 4 false (some ts) []
  | none => hxAlien s n a

/-- A POLL or RESP in ACTIVE or MASTER (R234 test 4, R237, R238, R262). A good one that starts after the close of its window is recorded
WINDOW, over the NORESP recorded at the close (DEDUCED, log entry 94). -/
def slotFrame (s : State) (n typ a : Nat) (qok : Bool) (data : List Byte) (o : Nat) (ts : Nat × Nat × Nat) : State :=
  let fail (s : State) : State := hxMisfit s n a o ts
  match (if o < hxDusk s n then slotAt s n o else none) with
  | none => fail s
  | some j =>
    let e := hxEntry s n j
    let due := if typ = 2 then e.start else e.start + actionOff s n e
    let fits := a != 0 && slotAddr s n j == a && data.length == (if typ = 2 then e.mlen else e.nlen)
    let kind := if hxState s n = 5 then typ == 3 else typ == 2
    let mine := recordSlot s n o == some j && kind
    if fits = false then fail s
    else
      let s := (s.setFl (HX_STATUS n) 23 16 j).setFl (HX_STATUS n) 15 14 1
      let onTime := near o due (hxW s n)
      let s := if onTime then s else hxCharge s n a true
      if mine || (kind && !onTime && (s.hx n).late == some j) then
        let s := s.setHx n { s.hx n with await := none, late := none, due := if typ = 2 ∧ onTime then some j else none }
        hxRecord s n j (if onTime then 0 else 5) (qok && onTime) (some ts) data
      else s

/-- A frame that passed tests 1 to 3, in the state the sequencer is in: `start` the cycle of its start bit, `ts` its
timestamp. -/
def hxUse (s : State) (n : Nat) (l : List Byte) (start : Nat) (ts : Nat × Nat × Nat) : State × List Nat :=
  let st := hxState s n
  let a := (l.getD 0 0).toNat
  let b1 := (l.getD 1 0).toNat
  let t := b1 % 16
  let p := (l.drop 3).take (l.getD 2 0).toNat
  let o := start - (s.hx n).ref
  if t = 1 then
    let own := leNat ((p.drop 2).take 2) == hxSid s n && (p.getD 5 0).toNat == hxSlots s n
    let r := (p.getD 4 0).toNat % 4
    let robs := start - (if r = 0 then s.fl (HX_PDLY n) 15 0 else s.fl (HX_BPDLY n (r - 1)) 15 0)
    if own then
      if st = 4 ∧ start < (s.hx n).ref + hxDusk s n ∧ near robs (s.hx n).ref (4 * hxBk s n + 2 * hxW s n) then (s, [])
      else hxAccept s n robs p ts (fun s => hxMisfit s n a o ts)
    else
      let s := s.satInc (HX_CNT_DAWN n) 15 8
      (if st = 2 then hxListen s n else s, [])
  else if t = 4 then
    let own := leNat ((p.drop 2).take 2) == hxSid s n
    if st ≠ 1 ∧ st ≠ 2 then (hxMisfit (s.satInc (HX_CNT_DAWN n) 15 8) n a o ts, [])
    else if own = false then (s.satInc (HX_CNT_DAWN n) 15 8, [])
    else if st = 2 ∧ (p.getD 0 0).toNat ≤ hxRank s n then (hxListen s n, [])
    else (s, [])
  else if st ≠ 4 ∧ st ≠ 5 then (s, [])
  else if t = 2 ∨ t = 3 then (slotFrame s n t a (decide (16 ≤ b1)) p o ts, [])
  else if o < hxDusk s n ∨ hxLen s n ≤ o then (hxMisfit s n a o ts, [])
  else if t = 6 then (dmsgReceive s n a p, [])
  else (if st = 5 then claimProcess s n a p else s, [])

/-- Nanoseconds from the instant `own` to a timestamp, which holds 16 bits of the seconds (R247). -/
def stampDiff (ts : Nat × Nat × Nat) (own : TB) : Int :=
  let d : Int := ((ts.2.1 : Int) - (own.sec % 2 ^ 16 : Nat)) * 1000000000 + ((ts.1 : Int) - own.ns)
  let m : Int := 2 ^ 16 * 1000000000
  let r := d % m
  if r < m / 2 then r else r - m

/-- HX_FRAME_RECEIVE (R234): a frame whose start bit was asserted at cycle `start`, with TB0 `own` then, has ended; `framing`:
a character after the bytes given broke R228 or R229. The frame starts where its timestamp says (R235, R247). Bytes beyond its length are
no part of it, and a format error ends it at byte 2 (R229). The daybreak backoff counts from the end of a good frame, else from 12 T_b of idle after it
(Table 11.2). -/
def hxReceive (s : State) (n : Nat) (l : List Byte) (framing : Bool) (start : Nat) (own : TB) : State × List Nat :=
  let ts := hxStamp s n own
  let start := ((start : Int) + stampDiff ts own).toNat
  let o := start - (s.hx n).ref
  let bad (s : State) (code hi lo : Nat) : State :=
    let s := hxIrq (s.satInc (HX_CNT_ERR n) hi lo) n 0x8
    match recordSlot s n o with
    | some j => hxRecord (s.setHx n { s.hx n with await := none }) n j code false (some ts) []
    | none => s
  let len := (l.getD 2 0).toNat
  let l := l.take (max 3 (hxBytes len))
  let (s, ch, ok) : State × List Nat × Bool :=
    if l.length < 3 then (bad s 3 23 16, [], false)
    else if hxFormatOk l = false then (bad s 4 15 8, [], false)
    else if framing ∨ l.length ≠ hxBytes len then (bad s 3 23 16, [], false)
    else
      let s := hxChkRun (hxChkSet s n len 2) n l
      if s.bt (CHK_STATE (0x36000000 + n * 0x1000)) 29 then
        let r := hxUse s n l start ts
        (r.1, r.2, true)
      else (bad s 2 31 24, [], false)
  let s := hxTsClear s n
  let h := s.hx n
  (s.setHx n { h with idleFrom := s.cycles, brk := if h.brk = 3 then 4 else h.brk,
                      since := if h.brk = 3 then s.cycles + (if ok then 0 else 12 * hxTb s n) else h.since }, ch)

/-- A frame start recognised (R254): it restarts the listen timer. -/
def hxHear (s : State) (n : Nat) : State :=
  let h := s.hx n
  s.setHx n { h with heard := s.cycles + 1, since := if hxState s n = 1 then s.cycles else h.since }

/-- The sequencer takes part: out of reset, not STOPPED, not PASSIVE (R261). -/
def hxLive (s : State) (n : Nat) : Bool := !inReset s (blkHx n) && hxState s n != 0 && hxState s n != 6

/-! ## START (R241, R251) and registers -/

/-- The bit times of a PHY (Table 10.1). -/
def btOk (phy : Bool) (bt : Nat) : Bool :=
  if phy then decide (200 ≤ bt) && decide (bt ≤ 2000) else [1000, 500, 250, 200, 100, 80, 50].contains bt

/-- A buffer obeys R243 in both parities. -/
def bufOk (s : State) (n p len : Nat) : Bool :=
  let alt := (s.rd (HX_ALTOFF n)).toNat
  p % 4 == 0 && alt % 4 == 0 && decide (16 ≤ p) && hxRangeOk s n (p - 16) (p + len) && hxRangeOk s n (p + alt - 16) (p + alt + len)

/-- An entry obeys Table 10.8. -/
def entryOk (s : State) (n : Nat) (e : HxEntry) : Bool :=
  (if e.kind = 1 then decide (1 ≤ e.addr) && decide (e.addr ≤ 62) else e.kind == 2 && e.addr == 0) &&
    decide (e.start < hxDusk s n) && decide (e.mlen ≤ 128) && decide (e.nlen ≤ 128) && e.pad == 0 &&
    bufOk s n e.mptr e.mlen && bufOk s n e.nptr e.nlen

/-- The end of a slot's response with its guard. -/
def slotEnd (s : State) (n : Nat) (e : HxEntry) : Nat := e.start + actionOff s n e + hxDur s n e.nlen + hxG s n

/-- The first slot that fails conditions 3 to 5 or 7 of R241, if any. -/
def badSlot (s : State) (n : Nat) : Option Nat :=
  let N := hxSlots s n
  (List.range N).find? (fun j =>
    let e := hxEntry s n j
    !entryOk s n e || (j == 0 && decide (e.start < hxDur s n 16 + hxG s n)) ||
      (if j + 1 < N then
        let s' := (hxEntry s n (j + 1)).start
        decide (s' < slotEnd s n e) || decide (s' < e.start + 2000)
      else decide (hxDusk s n < slotEnd s n e)))

/-- The conditions of R241 and R251 tied to no slot. -/
def startOk (s : State) (n : Nat) : Bool :=
  let tb := hxTb s n
  let G := hxG s n
  let role := hxRole s n
  let cs := hxRank s n
  hxBound s n && decide (12 * tb + 2 * hxW s n ≤ G) && decide (hxDusk s n + 226 * tb + G ≤ hxLen s n) &&
    decide (100000 ≤ hxLen s n) && decide (hxLen s n ≤ 1000000000) &&
    (if role = 0 then cs == 0 else decide (1 ≤ cs) && decide (cs ≤ 4)) &&
    (role != 2 || (!s.bt (HX_EVCFG n) 15 && hxBk s n != 0)) && (cs == 0 || decide (90 * tb + G ≤ hxU s n)) &&
    (hxBk s n == 0 || decide (G ≤ hxBk s n)) && (role == 0 || hxAddr s n != 63)

/-- START: the schedule is read and checked; LISTEN, or SCHERR (R241, R251). -/
def hxStartOp (s : State) (n : Nat) : State × Resp :=
  if hxState s n ≠ 0 then (s, .err 3)
  else
    let s := s.setBt (HX_STATUS n) 25 false
    let refuse (s : State) (slot : Nat) : State :=
      hxIrq (hxLastErr (s.setBt (HX_STATUS n) 25 true) n slot 0xFF) n 0x40
    match hxRead s n (s.rd (HX_SCHBASE n)).toNat (16 * hxSlots s n) with
    | (s, none) => (refuse (hxIrq s n 0x80) 0xFF, .ok 0)
    | (s, some _) =>
      if startOk s n = false then (refuse s 0xFF, .ok 0)
      else match badSlot s n with
        | some j => (refuse s j, .ok 0)
        | none => (hxListen ((s.setFl (HX_SUSTAT n) 1 0 0).setHx n { grants := (s.hx n).grants }) n, .ok 0)

/-- A write of HX_CLAIM (R265). -/
def claimWrite (s : State) (n : Nat) (v : Word) : State × Resp :=
  let slot := fld v 23 16
  if bitAt v 31 then
    if hxRole s n = 0 ∧ 1 ≤ hxAddr s n ∧ hxAddr s n ≤ 62 ∧ hxState s n = 4 ∧ polledAddr s n (hxAddr s n) = false ∧
        s.fl (HX_CLAIM n) 7 0 = 0xFF ∧ (slot = 0xFF ∨ isTwilight s n slot) then
      let again := s.bt (HX_CLAIM n) 31
      let s := s.softWrite (HX_CLAIM n) v
      (if again then s else s.setFl (HX_CLAIM n) 15 8 0, .ok 0)
    else (s, .err 3)
  else
    let sending := match (s.hx n).tx with | some x => x.typ == 5 | none => false
    (if s.bt (HX_CLAIM n) 31 && sending then s else s.softWrite (HX_CLAIM n) v, .ok 0)

/-- A write of HX_GRANT (R266, R269): its conditions stand for every write; GO = 1 queues. -/
def grantWrite (s : State) (n : Nat) (v : Word) : State × Resp :=
  if hxState s n = 5 ∧ isTwilight s n (fld v 23 16) ∧ fld v 5 0 ≠ 63 ∧ (s.hx n).grants.length < 8 then
    (if bitAt v 31 then hxQueue s n (fld v 23 16) (fld v 5 0) else s, .ok 0)
  else (s, .err 3)

/-- A write of HX_DTXCTL: DUSK_TX_QUEUE and DUSK_TX_WITHDRAW (R240, R248). -/
def dtxWrite (s : State) (n : Nat) (v : Word) : State × Resp :=
  let old := s.rd (HX_DTXCTL n)
  let sending := match (s.hx n).tx with | some x => x.typ == 6 | none => false
  if 128 ≤ fld v 7 0 then (s, .err 3)
  else if bitAt old 31 then
    if fld v 29 24 ≠ fld old 29 24 ∨ fld v 7 0 ≠ fld old 7 0 then (s, .err 3)
    else if bitAt v 31 then (s, .ok 0)
    else (if sending then s else s.softWrite (HX_DTXCTL n) v, .ok 0)
  else
    let s := s.softWrite (HX_DTXCTL n) v
    (if bitAt v 31 then s.setFl (HX_DTXCTL n) 15 8 0 else s, .ok 0)

/-- HX_CFG values that Table 10.14 reserves. -/
def hxCfgBad (v : Word) : Bool :=
  fld v 31 30 == 3 || (if fld v 31 30 = 2 then fld v 28 27 == 0 else fld v 28 27 != 0) || decide (4 < fld v 26 24) ||
    fld v 21 16 == 0 || !btOk (bitAt v 29) (fld v 10 0)

/-- A write of a register of HXn (R248, R269). -/
def hxWrite (s : State) (n off : Nat) (v : Word) : State × Resp :=
  let plain := (s.softWrite (0x36000000 + n * 0x1000 + off) v, Resp.ok 0)
  let bad := (s, Resp.err 3)
  let run := decide (hxState s n ≠ 0)
  if off = 0 then
    let c := fld v 3 0
    if c = 1 then hxStartOp s n
    else if c = 2 then (hxStopOp s n, .ok 0)
    else if c = 3 then (hxHaltOp s n, .ok 0)
    else if c = 0 then (s, .ok 0) else bad
  else if 0x100 ≤ off ∧ off < 0x140 then
    (if chkRefuses off v false true false then bad else (chkWrite s (0x36000000 + n * 0x1000) off v none, .ok 0))
  else if run ∧ (off = 8 ∨ off = 0xC ∨ (0x10 ≤ off ∧ off ≤ 0x34) ∨ (0x80 ≤ off ∧ off ≤ 0x8C) ∨ (0xB0 ≤ off ∧ off < 0xBC) ∨
      (0x200 ≤ off ∧ off < 0x300)) then bad
  else if off = 8 then (if hxCfgBad v then bad else plain)
  else if off = 0x20 then (if fld v 23 16 = 0 then bad else plain)
  else if off = 0x24 then (if v.toNat % 16 ≠ 0 then bad else plain)
  else if off = 0x28 then (if v.toNat % 4 ≠ 0 then bad else plain)
  else if off = 0x88 then (if fld v 13 0 = 0 ∨ 10000 < fld v 13 0 then bad else plain)
  else if off = 0x70 then dtxWrite s n v
  else if off = 0xA0 then claimWrite s n v
  else if off = 0xA4 then grantWrite s n v
  else if off = 0x2FC then (s.softWrite (0x36000000 + n * 0x1000 + off) (v &&& 0x00FFFFFF), .ok 0)
  else if 0x380 ≤ off ∧ off < 0x400 ∧ s.bt (HX_DTXCTL n) 31 then bad
  else plain

/-- SLOT and PHASE of HX_STATUS in ACTIVE and MASTER, by the time of the cycle (R237, Table 10.13); before a master's first dawn
none. -/
def hxPhase (s : State) (n : Nat) (w : Word) : Word :=
  let o := s.cycles - (s.hx n).ref
  if (hxState s n ≠ 4 ∧ hxState s n ≠ 5) ∨ (s.hx n).first then setFld w 15 14 3
  else
    match ((List.range (hxSlots s n)).filter (fun j => decide ((hxEntry s n j).start ≤ o))).getLast? with
    | none => setFld w 15 14 0
    | some j => setFld (setFld w 23 16 j) 15 14 (if hxDusk s n ≤ o then 2 else 1)

/-- The word a read of a register of HXn returns. -/
def hxReadWord (s : State) (n off : Nat) : Word :=
  let w := s.rd (0x36000000 + n * 0x1000 + off)
  if off = 4 then hxPhase s n (putBit w 26 (hxBound s n)) else w

end Sys2Proof.Machine
end

