-- ==== Sys2Proof/Machine/Done.lean ====
section
/-! DEFINITION. What every command ends with. -/

namespace Sys2Proof.Machine

/-- The end of a command: frames whose transmission time has passed complete, a forced test whose target has gained another
reset source ends, and the MSI-X messages due go (R30, R447). -/
def close (s : State) : State := settle (ftCheck (hxComplete s))

/-- The outcome of every command: its effect, then its end. -/
def done (s : State) : Host.Outcome State Fault Refusal := .next (close s)

end Sys2Proof.Machine
end

