-- ==== Sys2Proof/Machine/Rtc.lean ====
section
/-! DEFINITION. The real-time clock and the calendar (R413 to R417, R434). -/

namespace Sys2Proof.Machine

/-! ## Real-time clock (R415 to R417) -/

/-- CLK_32K edges so far, the first of them at cycle 0 (its phase is a DESIGN CHOICE, log entry 106). -/
def clk32 (s : State) : Nat := s.cycles * 32768 / 1000000000

/-- The cycle of the next CLK_32K edge. -/
def clk32Next (s : State) : Nat := ((clk32 s + 1) * 1000000000 + 32767) / 32768

/-- The prescaler as it counts: CLK_32K cycles since the last second. -/
def rtcCount (s : State) : Nat := if s.bt AON_STAT 30 then s.rtcPre + (clk32 s - s.rtcFrom) else s.rtcPre

/-- PRE, in its 15 bits. -/
def rtcSub (s : State) : Nat := min 32767 (rtcCount s)

/-- The second that begins at edge `e`: the first one after the end of 2^20 CLK_32K cycles is longer or shorter by TRIM. -/
def rtcSecond (s : State) (e : Nat) : State :=
  let trimmed := decide (s.rtcTrim < e / 2 ^ 20)
  { s with rtcFrom := e, rtcPre := 0, rtcTrim := e / 2 ^ 20,
           rtcLen := if trimmed then (32768 - sext 8 (s.fl AON_RTC_TRIM 7 0)).toNat else 32768 }

/-- Year, month and day of a day number, day 0 being 1970-01-01, proleptic Gregorian (R417). -/
def civil (day : Nat) : Nat × Nat × Nat :=
  let z := day + 719468
  let era := z / 146097
  let doe := z % 146097
  let yoe := (doe - doe / 1460 + doe / 36524 - doe / 146096) / 365
  let doy := doe - (365 * yoe + yoe / 4 - yoe / 100)
  let mp := (5 * doy + 2) / 153
  let m := if mp < 10 then mp + 3 else mp - 9
  (yoe + era * 400 + (if m ≤ 2 then 1 else 0), m, doy - (153 * mp + 2) / 5 + 1)

/-- CAL0 of a count. -/
def cal0 (sec : Nat) : Word :=
  let d := civil (sec / 86400)
  BitVec.ofNat 32 (d.1 % 2 ^ 16 * 2 ^ 16 + d.2.1 * 2 ^ 8 + d.2.2)

/-- CAL1 of a count: the ISO weekday (day 0 is a Thursday), hour, minute, second. -/
def cal1 (sec : Nat) : Word :=
  let t := sec % 86400
  BitVec.ofNat 32 (((sec / 86400 + 3) % 7 + 1) * 2 ^ 24 + t / 3600 * 2 ^ 16 + t / 60 % 60 * 2 ^ 8 + t % 60)

/-- A read of AON_RTC_SECLO by master `m`: the count, and the other fields latched for it (R415). -/
def rtcReadLo (s : State) (m : Nat) : State × Word :=
  let s := s.mwr m AON_RTC_SECHI (BitVec.ofNat 32 (s.rtc / 2 ^ 32))
  let s := s.mwr m AON_RTC_SUB (BitVec.ofNat 32 (rtcSub s))
  let s := (s.mwr m AON_RTC_CAL0 (cal0 s.rtc)).mwr m AON_RTC_CAL1 (cal1 s.rtc)
  (s, BitVec.ofNat 32 s.rtc)

/-! ## Calendar (R434) -/

/-- The thresholds an entry of day `d` has reached: A90, A30, A7, DUE in bits 3 to 0. -/
def calReached (today d : Nat) : Nat :=
  (if d ≤ today + 90 then 8 else 0) + (if d ≤ today + 30 then 4 else 0) + (if d ≤ today + 7 then 2 else 0) +
    (if d ≤ today then 1 else 0)

/-- The thresholds not yet raised are raised. -/
def newlyReached (today d latch : Nat) : Nat :=
  (List.range 4).foldl (fun n b => if calReached today d / 2 ^ b % 2 = 1 ∧ latch / 2 ^ b % 2 = 0 then n + 2 ^ b else n) 0

/-- A survey entry evaluated. -/
def survEval (s : State) (i : Nat) : State :=
  if s.bt (AON_SURV i) 31 = false then s
  else
    let l := smGet 0 s.survLatch i
    let n := newlyReached (s.rtc / 86400) (s.fl (AON_SURV i) 15 0) l
    if n = 0 then s
    else State.raise { s.raise (AON_SURV i) (BitVec.ofNat 32 (n * 2 ^ 27)) with survLatch := smSet 0 s.survLatch i (l + n) }
      AON_IRQSTAT 0x4

/-- A slot's record belongs to an identified module. -/
def recValid (s : State) (k : Nat) : Bool := s.bt (AON_SLOT_WEARHI k) 31

/-- The REPDAY of a slot evaluated. -/
def repEval (s : State) (k : Nat) : State :=
  let d := s.fl (AON_IDW k 4) 31 16
  if recValid s k = false ∨ (s.slot k).prs = false ∨ d = 0 then s
  else
    let n := newlyReached (s.rtc / 86400) d (s.slot k).latch
    if n = 0 then s
    else ((s.setSlot k { s.slot k with latch := (s.slot k).latch + n }).raise (AON_SLOT_WEARHI k)
      (BitVec.ofNat 32 (n * 2 ^ 20))).raise AON_IRQSTAT 0x4

/-- CALENDAR_EVALUATION of every entry, which stands still without the crystal (R415, R434). -/
def calEval (s : State) : State :=
  if s.bt AON_STAT 30 then (List.range 32).foldl repEval ((List.range 16).foldl survEval s) else s

/-- The LOAD of the RTC at a CLK_32K edge, where one waits and the crystal runs (R416). -/
def rtcLoadNow (s : State) : State :=
  if s.rtcLoad && s.bt AON_STAT 30 then
    calEval { s with rtc := (s.rd AON_RTC_SETLO).toNat + 2 ^ 32 * (s.rd AON_RTC_SETHI).toNat, rtcPre := 0, rtcFrom := clk32 s,
                     rtcLoad := false }
  else s

end Sys2Proof.Machine
end

