-- ==== Sys2Proof/Machine/Slots.lean ====
section
/-! DEFINITION. The line modules: module records, wear, slots, and the registers of the midnight domain (R418 to R438). -/

namespace Sys2Proof.Machine

/-! ## Module records and wear (R425 to R430, R433) -/

/-- The slot manager is out of reset. -/
def slotsLive (s : State) : Bool := !inReset s 27

/-- A status bit of SLOT_IRQSTAT, where the slot manager can take it. -/
def slotIrq (s : State) (mask : Word) : State := if slotsLive s then s.raise SLOT_IRQSTAT mask else s

/-- W, in 1/16 wear unit. -/
def wearOf (s : State) (k : Nat) : Nat := (s.rd (AON_SLOT_WEARLO k)).toNat + 2 ^ 32 * s.fl (AON_SLOT_WEARHI k) 15 0

/-- Setting W. -/
def setWear (s : State) (k w : Nat) : State :=
  (s.wr (AON_SLOT_WEARLO k) (BitVec.ofNat 32 w)).setFl (AON_SLOT_WEARHI k) 15 0 (w / 2 ^ 32)

/-- The rated life of the identified module, in wear units. -/
def lifeOf (s : State) (k : Nat) : Nat := (s.rd (AON_IDW k 5)).toNat

/-- WEAR_ALARM: the thresholds tested after an update of W (R433). -/
def wearAlarm (s : State) (k : Nat) : State :=
  if recValid s k = false then s
  else
    let w := wearOf s k
    let adv := decide (64 * lifeOf s k ≤ 5 * w) && !s.bt (AON_SLOT_WEARHI k) 28
    let eol := decide (16 * lifeOf s k ≤ w) && !s.bt (AON_SLOT_WEARHI k) 29
    let s := if adv then (s.setBt (AON_SLOT_WEARHI k) 28 true).raise AON_IRQSTAT 0x1 else s
    if eol then (s.setBt (AON_SLOT_WEARHI k) 29 true).raise AON_IRQSTAT 0x2 else s

/-- Wear added; W is 48 bits and only grows (R428). -/
def wearAdd (s : State) (k n : Nat) : State := wearAlarm (setWear s k (min (2 ^ 48 - 1) (wearOf s k + n))) k

/-- The slot's record as it stands (R427). -/
def recOf (s : State) (k : Nat) : WearRec :=
  { wear := wearOf s k, ins := s.fl (AON_SLOT_INSOCT k) 31 16, opsec := (s.rd (AON_SLOT_OPSEC k)).toNat,
    s := [s.fl (AON_SLOT_S12 k) 15 0, s.fl (AON_SLOT_S12 k) 31 16, s.fl (AON_SLOT_S34 k) 15 0, s.fl (AON_SLOT_S34 k) 31 16],
    oct := s.fl (AON_SLOT_INSOCT k) 15 0 }

/-- Putting a record into PD_AON. -/
def setRec (s : State) (k : Nat) (r : WearRec) : State :=
  let g (i : Nat) : Nat := r.s.getD i 0
  let s := (setWear s k r.wear).wr (AON_SLOT_OPSEC k) (BitVec.ofNat 32 r.opsec)
  let s := (s.wr (AON_SLOT_S12 k) (BitVec.ofNat 32 (g 1 % 2 ^ 16 * 2 ^ 16 + g 0 % 2 ^ 16))).wr (AON_SLOT_S34 k)
    (BitVec.ofNat 32 (g 3 % 2 ^ 16 * 2 ^ 16 + g 2 % 2 ^ 16))
  s.wr (AON_SLOT_INSOCT k) (BitVec.ofNat 32 (r.ins % 2 ^ 16 * 2 ^ 16 + r.oct % 2 ^ 16))

/-- A little-endian field of a byte list. -/
def leAt (l : List Byte) (i n : Nat) : Nat := leNat ((l.drop i).take n)

/-- The wear page of a record (Table 19.5). -/
def wearPage (s : State) (k : Nat) (r : WearRec) : List Byte :=
  let host := s.fl IMG_DEVID 13 0 + s.fl (AON_SLOT_WEARHI k) 28 28 * 2 ^ 14 + s.fl (AON_SLOT_WEARHI k) 29 29 * 2 ^ 15
  let b := leBytes 4 (s.rd (SLOT_SEQ k)).toNat ++ leBytes 6 r.wear ++ leBytes 2 r.ins ++ leBytes 4 r.opsec ++
    ((List.range 4).flatMap (fun i => leBytes 2 (r.s.getD i 0))) ++ leBytes 2 r.oct ++ leBytes 2 host
  b ++ leBytes 4 (crc32c b)

/-- A valid wear page: its sequence number and record (R426). -/
def readPage (p : List Byte) : Option (Nat × WearRec) :=
  if p.length = 32 ∧ leAt p 28 4 = crc32c (p.take 28) then
    some (leAt p 0 4, { wear := leAt p 4 6, ins := leAt p 10 2, opsec := leAt p 12 4,
                        s := [leAt p 16 2, leAt p 18 2, leAt p 20 2, leAt p 22 2], oct := leAt p 24 2 })
  else none

/-- The newer of two pages (R426). -/
def newerPage : Option (Nat × WearRec) → Option (Nat × WearRec) → Option (Nat × WearRec)
  | none, q => q
  | p, none => p
  | some p, some q =>
    let d := (q.1 + 2 ^ 32 - p.1) % 2 ^ 32
    if 0 < d ∧ d < 2 ^ 31 then some q else some p

/-- WEAR_WRITE: a write of the record begins from a snapshot, or follows the one running; the record waits (PEND) until it
has reached the module (R430). -/
def wearStart (s : State) (k : Nat) : State :=
  let s := s.setBt (AON_SLOT_WEARHI k) 30 true
  let h := s.slot k
  if slotsLive s = false ∨ h.prs = false then s
  else if h.writing.isSome then s.setSlot k { h with due := true }
  else s.setSlot k { h with writing := some (recOf s k), due := false, onTicks := 0, retry := 0 }

/-- The write that was due during another follows it. -/
def wearNext (s : State) (k : Nat) : State :=
  if (s.slot k).due then wearStart (s.setSlot k { s.slot k with due := false }) k else s

/-- WEAR_WRITE_DONE: the EEPROM has acknowledged; PEND clears and SEQ advances (R430). -/
def wearDone (s : State) (k : Nat) : State :=
  match (s.slot k).writing with
  | none => s
  | some r =>
    let s := s.emit (.wear k ((s.rd (SLOT_SEQ k)).toNat % 2) (wearPage s k r))
    let s := (s.setSlot k { s.slot k with writing := none }).setBt (AON_SLOT_WEARHI k) 30 false
    wearNext (s.wrapInc (SLOT_SEQ k) 31 0) k

/-- WEAR_WRITE_ABANDON (R430). -/
def wearGiveUp (s : State) (k : Nat) : State :=
  if (s.slot k).writing.isNone then s else wearNext (wearAbandon s k) k

/-- WEAR_WRITE_RETRY after 60 RTC ticks (R430). -/
def wearRetry (s : State) (k : Nat) : State :=
  if (s.slot k).retry = 1 ∧ (s.slot k).prs ∧ slotsLive s then wearStart s k else s

/-! ## Slots (Table 19.2) -/

/-- A change of SLOT_STAT.STATE. -/
def slotTo (s : State) (k st : Nat) : State := slotIrq (s.setSlot k { s.slot k with state := st }) 0x1

/-- Power to the slot is cut, and the record is written (R421, R430). -/
def slotCut (s : State) (k : Nat) : State :=
  wearStart (s.setSlot k { s.slot k with en := false, rejoin := false }) k

/-- SLOT_REMOVE: the presence contact has been open for 1 ms (R421). -/
def slotRemove (s : State) (k : Nat) : State :=
  if (s.slot k).prs = false then s
  else
    let s := if (s.slot k).writing.isSome then wearAbandon s k else s
    let s := if (s.slot k).en then s.setBt (AON_SLOT_WEARHI k) 30 true else s
    slotTo (s.setSlot k { s.slot k with prs := false, en := false, rejoin := false, due := false }) k 0

/-- SLOT_INSERT: presence for 100 ms; the module is identified when the slot manager runs (R421, R431). -/
def slotInsert (s : State) (k : Nat) : State :=
  if (s.slot k).prs then s
  else
    let s := s.setSlot k { s.slot k with prs := true }
    if slotsLive s then slotTo s k 1 else s

/-- Power on (Table 19.2): the timer of the periodic write restarts. -/
def slotPower (s : State) (k : Nat) : State :=
  slotTo (s.setSlot k { s.slot k with en := true, onTicks := 0 }) k 3

/-- The module is refused (R421). -/
def slotReject (s : State) (k : Nat) : State :=
  let s := if (s.slot k).en then s.setSlot k { s.slot k with en := false } else s
  let s := slotTo (s.setSlot k { s.slot k with rejoin := false }) k 5
  (s.satInc (SLOT_STAT k) 7 0).raise SLOT_IRQSTAT 0x2

/-- The identity record is good (R425). -/
def idGood (id : List Byte) : Bool :=
  id.length == 128 && leAt id 0 4 == 0x4D4C5A4F && leAt id 4 1 == 1 && leAt id 124 4 == crc32c (id.take 124)

/-- Bytes 0 to 63 of the identity record in AON_IDW. -/
def setIdw (s : State) (k : Nat) (id : List Byte) : State :=
  (List.range 16).foldl (fun s j => s.wr (AON_IDW k j) (BitVec.ofNat 32 (leAt id (4 * j) 4))) s

/-- The same module as the slot's record names. -/
def sameModule (s : State) (k : Nat) (id : List Byte) : Bool :=
  recValid s k && (s.rd (AON_SLOT_SERLO k)).toNat == leAt id 8 4 && (s.rd (AON_SLOT_SERHI k)).toNat == leAt id 12 4

/-- The record is replaced by another module's: alarms and latches clear (R433, R434). -/
def newModule (s : State) (k : Nat) (id : List Byte) : State :=
  let s := if recValid s k && s.bt (AON_SLOT_WEARHI k) 30 then s.satInc AON_STAT 15 8 else s
  let s := (s.setSlot k { s.slot k with latch := 0 }).wr (AON_SLOT_WEARHI k) 0
  (s.wr (AON_SLOT_SERLO k) (BitVec.ofNat 32 (leAt id 8 4))).wr (AON_SLOT_SERHI k) (BitVec.ofNat 32 (leAt id 12 4))

/-- The record chosen at identification is loaded and the insertion charged (R427, R428). -/
def chargeIn (s : State) (k : Nat) (id : List Byte) (r : WearRec) : State :=
  let s := ((setRec (setIdw s k id) k r).setBt (AON_SLOT_WEARHI k) 31 true).satInc (AON_SLOT_INSOCT k) 31 16
  calEval (wearAdd s k (16 * leAt id 56 4))

/-- The insertion of an identified and admitted module (R427). -/
def slotLoad (s : State) (k : Nat) (id : List Byte) (m : Option (Nat × WearRec)) : State :=
  let same := sameModule s k id
  let a := recOf s k
  let own := same && (match m with | none => true | some p => decide (p.2.wear ≤ a.wear))
  let r := if own then a else match m with | none => {} | some p => p.2
  let pend := own && s.bt (AON_SLOT_WEARHI k) 30
  let s := if same then s else newModule s k id
  let s := s.wr (SLOT_SEQ k) (BitVec.ofNat 32 (match m with | none => 0 | some p => p.1 + 1))
  let s := if pend then wearStart s k else s.setBt (AON_SLOT_WEARHI k) 30 false
  chargeIn s k id r

/-- The module's life is over on the record R427 chooses (R421, R433). -/
def idEol (s : State) (k : Nat) (id : List Byte) (m : Option (Nat × WearRec)) : Bool :=
  let same := sameModule s k id
  let w := match m with | none => 0 | some p => p.2.wear
  decide (16 * leAt id 20 4 ≤ (if same then max (wearOf s k) w else w)) || (same && s.bt (AON_SLOT_WEARHI k) 29)

/-- SLOT_IDENTIFY: the records of the module have been read, or three transfers have failed (R421, R427, R431). -/
def slotIdentify (s : State) (k : Nat) (ok : Bool) (id p0 p1 : List Byte) (flt : Bool) : State :=
  if slotsLive s = false ∨ (s.slot k).state ≠ 1 then s
  else
    let s := s.setSlot k { s.slot k with flt := flt }
    let m := newerPage (readPage p0) (readPage p1)
    let cfg := s.rd (SLOT_CFG k)
    let back := (s.slot k).rejoin && (s.slot k).en
    if ok = false ∨ idGood id = false ∨ (fld cfg 15 8 ≠ 0 ∧ fld cfg 15 8 ≠ leAt id 5 1) then slotReject s k
    else if back ∧ sameModule s k id then
      let s := s.wr (SLOT_SEQ k) (BitVec.ofNat 32 (match m with | none => 0 | some p => p.1 + 1))
      let s := if s.bt (AON_SLOT_WEARHI k) 30 then wearStart s k else s
      calEval (slotTo (s.setSlot k { s.slot k with rejoin := false }) k 3)
    else if bitAt cfg 30 ∧ idEol s k id m then slotReject s k
    else
      let s := slotLoad (s.setSlot k { s.slot k with en := false, rejoin := false }) k id m
      let s := slotTo (if back then wearStart s k else s) k 2
      if bitAt cfg 31 && !flt then slotPower s k else s

/-- Whether SLOT_FLT_n stands at the overcurrent level (R423). -/
def slotFlt (s : State) (k : Nat) (flt : Bool) : State := s.setSlot k { s.slot k with flt := flt }

/-- SLOT_OVERCURRENT: the keeper cuts power at the end of tOC (R423). -/
def slotTrip (s : State) (k : Nat) : State :=
  let s := slotFlt s k true
  if (s.slot k).en = false then s
  else
    let s := slotCut (s.satInc (AON_SLOT_INSOCT k) 15 0) k
    slotIrq (if (s.slot k).state = 3 then slotTo s k 4 else s) 0x10

/-- The class of a pulse of `w` nanoseconds, measured to 50 ns; 0: ignored (Table 19.3). -/
def surgeClass (w : Nat) : Nat :=
  let w := w / 50 * 50
  if w < 1000 then 0 else if w < 5000 then 1 else if w < 10000 then 2 else if w < 20000 then 3 else 4

/-- SURGE_PULSE: an assertion of SLOT_FLT_n of `w` ns has ended; it is counted, and its weight added (R424, R428). One that had
reached the overcurrent level is not classified (R423; DEDUCED, log entry 44). -/
def surge (s : State) (k w : Nat) : State :=
  let c := surgeClass w
  if (s.slot k).flt then slotFlt s k false
  else if c = 0 then s
  else
    let s := s.satInc (if c < 3 then AON_SLOT_S12 k else AON_SLOT_S34 k) (if c % 2 = 1 then 15 else 31) (if c % 2 = 1 then 0 else 16)
    let s := if 50000 ≤ w / 50 * 50 ∧ slotsLive s then s.setBt (SLOT_STAT k) 24 true else s
    let s := if recValid s k then wearAdd s k (16 * (s.rd (AON_IDW k (9 + c))).toNat) else s
    slotIrq s 0x8

/-- SLOT_TEMP_READ: `t` is the 13-bit reading; none: the sensor gave no good one (R429). -/
def slotTemp (s : State) (k : Nat) (t : Option Nat) : State :=
  if slotsLive s = false ∨ (s.slot k).state ≠ 3 then s
  else
    match t with
    | none => s
    | some t =>
      let b := ((sext 13 t + 640) / 160).toNat
      (s.setSlot k { s.slot k with tempAge := 0, band := min 15 b }).wr (SLOT_TEMP k) (BitVec.ofNat 32 (2 ^ 31 + t % 2 ^ 13))

/-- The RTC tick at one slot: wear of an ON slot, and the timers (R428 to R430). -/
def slotTick (s : State) (k : Nat) : State :=
  let h := s.slot k
  let age := min 10 (h.tempAge + 1)
  let s := s.setSlot k { h with tempAge := age, band := if age = 10 then 15 else h.band,
                                retry := if 1 < h.retry then h.retry - 1 else h.retry }
  if h.en = false then s
  else
    let b := (s.slot k).band
    let s := (wearAdd s k (s.fl (AON_IDW k (6 + b / 4)) (8 * (b % 4) + 7) (8 * (b % 4)))).satInc (AON_SLOT_OPSEC k) 31 0
    let s := s.setSlot k { s.slot k with onTicks := h.onTicks + 1 }
    if 3600 ≤ h.onTicks + 1 ∧ slotsLive s then wearStart s k else s

/-- RTC_TICK, once the prescaler has counted the second: it ends (R415, R428, R434). -/
def rtcTick (s : State) : State :=
  if s.bt AON_STAT 30 = false ∨ rtcCount s < s.rtcLen then s
  else
    let s : State := { rtcSecond s (s.rtcFrom + s.rtcLen - s.rtcPre) with rtc := (s.rtc + 1) % 2 ^ 64 }
    let s := if s.bt PMU_MONSTAT 26 = false then s.satInc AON_BATSEC 31 0 else s
    let s := (List.range 32).foldl slotTick s
    if s.rtc % 86400 = 0 then calEval s else s

/-- The word a read of SLOT_STAT or SLOT_TEMP returns (Table 19.9). -/
def slotReadWord (s : State) (off : Nat) : Word :=
  let k := (off - 0x8000) / 0x20
  let w := s.rd (HB_CTRL + off)
  if off % 0x20 = 4 ∧ off < 0x8400 then
    let h := s.slot k
    setFld (putBit (setFld w 31 26 (h.state * 8 + h.prs.toNat * 4 + h.flt.toNat * 2 + h.en.toNat)) 25 (decide (h.tempAge < 10)))
      23 20 h.band
  else if off % 0x20 = 0xC ∧ off < 0x8400 then
    putBit w 31 (bitAt w 31 && decide ((s.slot k).tempAge < 10))
  else w

/-- A command of SLOT_CMD: 1 ON, 2 OFF, 3 CLEAR (R421). -/
def slotCommand (s : State) (k op : Nat) : State × Resp :=
  let h := s.slot k
  if op = 1 then (if h.state = 2 ∧ h.flt = false then accept (slotPower s k) else refuse s)
  else if op = 2 then (if h.state = 3 then accept (slotTo (slotCut s k) k 2) else refuse s)
  else if op = 3 then
    (if h.state = 5 then accept (slotTo s k 1)
     else if h.state = 4 then accept (if h.flt then s else slotTo s k 2) else refuse s)
  else accept s

/-- A write of a SLOT_ register at offset `off` of the bridge (R437). -/
def slotWrite (s : State) (m off : Nat) (v : Word) : State × Resp :=
  let k := (off - 0x8000) / 0x20
  let r := off % 0x20
  if off < 0x8400 ∧ (r = 0 ∨ r = 8) ∧ supervisor s m = false then refuse s
  else if off < 0x8400 ∧ r = 0 ∧ (s.slot k).state ≠ 0 ∧ (s.slot k).state ≠ 5 then refuse s
  else if off < 0x8400 ∧ r = 8 then slotCommand s k (fld v 1 0)
  else accept (s.softWrite (HB_CTRL + off) v)

/-! ## AON_ registers (R419, R435) -/

/-- A write of a survey entry by a supervisor: its latches clear and it is evaluated (R434). -/
def survWrite (s : State) (i : Nat) (v : Word) : State :=
  let s := s.softWrite (AON_SURV i) v
  let s : State := { s with survLatch := smSet 0 s.survLatch i 0 }
  if s.bt AON_STAT 30 then survEval s i else s

/-- A write of an AON_ register at offset `off` by master `m`. -/
def aonWrite (s : State) (m off : Nat) (v : Word) : State × Resp :=
  let a := AON_RTC_SECLO + off
  let sup := supervisor s m
  if 0x100 ≤ off ∧ off < 0x140 then
    (if sup then accept (survWrite s ((off - 0x100) / 4) v)
     else if v &&& 0x87FFFFFF = 0 ∨ v &&& 0x80FFFFFF = s.rd a &&& 0x80FFFFFF then accept (s.wr a (s.rd a &&& ~~~(v &&& 0x78000000)))
     else refuse s)
  else if (off = 0x14 ∨ off = 0x18 ∨ off = 0x1C ∨ off = 0x20) ∧ sup = false then refuse s
  else if off = 0x1C then
    (if 2 ≤ fld v 1 0 then refuse s
     else if fld v 1 0 = 0 then accept s
     else
       let s : State := { s with rtcLoad := true }
       accept (if s.bt AON_STAT 30 then s.plan (clk32Next s - 1) .rtc else s))
  else accept (s.softWrite a v)

/-- A read of an AON_ register by master `m`. -/
def aonRead (s : State) (m off : Nat) : State × Resp :=
  let a := AON_RTC_SECLO + off
  if off = 0 then let r := rtcReadLo s m; accept r.1 r.2
  else if off ≤ 0x10 then accept s (s.mrd m a)
  else accept (s.readClear a) (s.rd a)

/-- OSC_LOSS: the RTC stands still (R415). -/
def oscLoss (s : State) : State :=
  if s.bt AON_STAT 30 then State.setBt { s with rtcPre := rtcSub s } AON_STAT 30 false else s

/-- OSC_READY: the crystal has run for 32,768 cycles; a LOAD that waited takes effect (R415, R416). -/
def oscReady (s : State) : State :=
  if s.bt AON_STAT 30 then s
  else
    rtcLoadNow (State.setBt { s with rtcFrom := clk32 s, rtcTrim := clk32 s / 2 ^ 20 } AON_STAT 30 true)

end Sys2Proof.Machine
end

