-- ==== Sys2Proof/Machine/Bridge.lean ====
section
/-! DEFINITION. The host bridge's registers, error record, prefetch buffers and outbound window (R351 to R363). What PCIe and
SPI requests do on chip is in Machine/Host.lean. -/

namespace Sys2Proof.Machine

/-- A record in HB_ERRLOG unless one is held, and IRQSTAT.ERR (R353, R354, R358): cause, address, direction, port. -/
def hbErr (s : State) (cause a : Nat) (wr spi : Bool) : State :=
  let s := if s.bt HB_ERRLOG1 31 then s
    else (s.wr HB_ERRLOG0 (BitVec.ofNat 32 a)).wr HB_ERRLOG1
      (BitVec.ofNat 32 (2 ^ 31 + wr.toNat * 2 ^ 30 + spi.toNat * 2 ^ 29 + cause * 2 ^ 26))
  s.raise HB_IRQSTAT 0x8

/-! ## Prefetch (R360, R361) -/

/-- The prefetch buffer of a port: SPI or PCIe. -/
def pfBuf (s : State) (spi : Bool) : PfBuf := if spi then s.hbH.pfS else s.hbH.pfP

/-- Setting it. -/
def setPf (s : State) (spi : Bool) (b : PfBuf) : State :=
  { s with hbH := if spi then { s.hbH with pfS := b } else { s.hbH with pfP := b } }

/-- Unconsumed prefetched data of a port is dropped, logged and counted (R361). -/
def pfDrop (s : State) (spi : Bool) : State :=
  match (pfBuf s spi).words with
  | [] => s
  | w :: r =>
    let i := s.hbH.logAt
    let s := s.wr (HB_PFLOG i) (BitVec.ofNat 32 (w.1 / 4 * 4 + spi.toNat * 2 + 1))
    let s : State := { s with hbH := { s.hbH with logAt := (i + 1) % 16 } }
    setPf ((s.raise HB_IRQSTAT 0x1).satInc HB_PFCNT 31 0 (r.length + 1)) spi {}

/-- The window that holds `n` bytes at `a`, as its last address plus one. -/
def pfWindow (s : State) (a n : Nat) : Option Nat :=
  let hit := (List.range 16).find? (fun i =>
    s.bt (HB_PFW_BASE i) 0 && decide (s.fl (HB_PFW_BASE i) 31 12 * 4096 ≤ a) &&
      decide (a + n ≤ (s.fl (HB_PFW_LIM i) 31 12 + 1) * 4096))
  hit.map (fun i => (s.fl (HB_PFW_LIM i) 31 12 + 1) * 4096)

/-- How many words a prefetch beyond a read that ends at `e` may take, of the `n` the bridge would fetch: up to 256 bytes,
the window's end, a 4 KiB boundary; none with LIFE = 0 (R360). -/
def pfRoom (s : State) (a e n : Nat) : Nat :=
  match pfWindow s a (e - a) with
  | none => 0
  | some w =>
    if s.fl HB_PFCFG 15 0 = 0 ∨ e % 4096 = 0 then 0
    else min (min n 64) (min ((w - e) / 4) ((4096 - e % 4096) / 4))

/-- A read of `n` words at `a` served from the port's buffer: the words, and the buffer with them consumed (R360). -/
def pfServe (s : State) (spi : Bool) (a n : Nat) : Option (State × List Word) :=
  let b := pfBuf s spi
  let inRead (w : Nat × Word) : Bool := decide (a ≤ w.1) && decide (w.1 < a + 4 * n)
  let hit := b.words.filter inRead
  if a % 4 = 0 ∧ hit.length = n ∧ 0 < n then
    let rest := b.words.filter (fun w => !inRead w)
    some (setPf s spi (if rest.isEmpty then {} else { b with words := rest }), hit.map (·.2))
  else none

/-- PREFETCH_EXPIRY: LIFE microseconds have passed (R361). -/
def pfExpire (s : State) (spi : Bool) : State :=
  if (pfBuf s spi).at_ + s.fl HB_PFCFG 15 0 * 1000 ≤ s.cycles then pfDrop s spi else s

/-! ## Registers (R362) -/

/-- A write of a bridge register at offset `off`. -/
def hbWrite (s : State) (off : Nat) (v : Word) : State × Resp :=
  let a := HB_CTRL + off
  if off = 0x20 ∧ fld v 15 0 = 0 then refuse s
  else if 0x40 ≤ off ∧ off < 0xC0 then
    if off % 8 = 4 ∧ fld v 31 12 < s.fl (a - 4) 31 12 then refuse s
    else accept ((pfDrop (pfDrop s false) true).softWrite a v)
  else accept (s.softWrite a v)

/-- The pending-bit array: vectors whose OR is asserted and whose message has not gone (R30, R352). -/
def pbaWord (s : State) (i : Nat) : Word :=
  BitVec.ofNat 32 ((List.range 32).foldl (fun n b =>
    if vecBit (vectorOr s) (32 * i + b) && !vecBit s.msix (32 * i + b) then n + 2 ^ b else n) 0)

/-- A read of a bridge register. -/
def hbRead (s : State) (off : Nat) : State × Resp :=
  let a := HB_CTRL + off
  if off = 0x1400 ∨ off = 0x1404 then accept s (pbaWord s ((off - 0x1400) / 4))
  else accept (s.readClear a) (s.rd a)

/-! ## The outbound window (R22, R354) -/

/-- The PCIe address of an outbound address. -/
def obAddr (s : State) (a : Nat) : Nat :=
  let i := a / 2 ^ 28 % 8
  (s.rd (HB_OBT_HI i)).toNat * 2 ^ 32 + s.fl (HB_OBT_LO i) 31 28 * 2 ^ 28 + a % 2 ^ 28

/-- An access to the window: refused, posted, or a read that waits for its completion. -/
def obAcc (s : State) (m a n : Nat) (x : Option Nat) (ctx : Option Nat) : State × Resp :=
  if s.bt HB_STATUS 31 = false ∨ s.bt HB_STATUS 30 = false ∨ s.bt (HB_OBT_LO (a / 2 ^ 28 % 8)) 0 = false then refuse s
  else
    match x with
    | some v => accept (s.emit (.outbound (obAddr s a) true v n))
    | none =>
      let r : ObRead := { master := m, addr := a, size := n, at_ := s.cycles, ctx := ctx }
      (State.emit { s with hbH := { s.hbH with reads := s.hbH.reads ++ [r] } } (.outbound (obAddr s a) false 0 n), .none)

end Sys2Proof.Machine
end

