-- ==== Sys2Proof/Machine/Context.lean ====
section
/-! DEFINITION. Jaedin contexts of the engines and the pairs: registers, states and commands, exception entry, the watchdog
(R119, R120, R147 to R156, R334). A context has a key: 8n + k for context k of PEn, 64 and 65 for pairs A and B. -/

namespace Sys2Proof.Machine

/-! ## Keys and registers -/

/-- The key of a context. -/
def ctxKey : CtxId → Nat
  | .pe n k => 8 * n.val + k.val
  | .pair b => 64 + b.toNat

/-- The context of a key. -/
def ctxOf (k : Nat) : CtxId :=
  if k < 64 then .pe (Fin.ofNat 8 (k / 8)) (Fin.ofNat 8 (k % 8)) else .pair (k == 65)

/-- A context of an engine, not a pair. -/
def onEngine (k : Nat) : Bool := decide (k < 64)

/-- The address of context register `m` (Table 6.13). -/
def ctxReg (k m : Nat) : Nat :=
  if k < 64 then PE_CTX_CTRL (k / 8) (k % 8) + 4 * m else 0x40810100 + (k - 64) * 0x10000 + 4 * m

/-- The address of general register `i`. -/
def gReg (k i : Nat) : Nat := if k < 64 then PE_CTX_G (k / 8) (k % 8) i else pairG (k - 64) i

/-- The block a context lies in, and the master ID it carries (R119, R333). -/
def ctxBlk (k : Nat) : Nat := if k < 64 then k / 8 else k - 56
/-- The master ID. -/
def ctxMaster (k : Nat) : Nat := ctxBlk k + 1

/-- The engine or pair is powered and out of reset. -/
def ctxLive (s : State) (k : Nat) : Bool :=
  !inReset s (ctxBlk k) && (match domainOf (ctxBlk k) with | some d => !domOff s d | none => true)

/-- General register `i`; g0 reads 0 (R119). -/
def getG (s : State) (k i : Nat) : Word := if i = 0 then 0 else s.rd (gReg k i)

/-- Writing it; a write of g0 has no effect. -/
def setG (s : State) (k i : Nat) (v : Word) : State := if i = 0 then s else s.wr (gReg k i) v

/-- STAT.STATE: 0 STOPPED, 1 RUN, 2 WAIT, 3 FAULTED (Table 6.1). -/
def cst (s : State) (k : Nat) : Nat := s.fl (ctxReg k 1) 31 30

/-- HM and IE. -/
def ctxHM (s : State) (k : Nat) : Bool := s.bt (ctxReg k 1) 29
/-- Interrupts enabled. -/
def ctxIE (s : State) (k : Nat) : Bool := s.bt (ctxReg k 1) 28

/-- The PC. -/
def ctxPC (s : State) (k : Nat) : Nat := (s.rd (ctxReg k 2)).toNat

/-- Setting the PC. -/
def setPC (s : State) (k a : Nat) : State := s.wr (ctxReg k 2) (BitVec.ofNat 32 a)

/-- Posted stores that still answer the context. -/
def postedOf (s : State) (k : Nat) : List PostE := (s.ctx k).posted.filter (fun p => !p.orphan)

/-- IPEND AND IMASK (R151). -/
def intLines (s : State) (k : Nat) : Word := lines s (ctxOf k) &&& s.rd (ctxReg k 13)

/-- The word a read of context register `m` returns (Tables 6.17 to 6.19). -/
def ctxReadWord (s : State) (k m : Nat) : Word :=
  if m = 1 then
    let w := putBit (putBit (s.rd (ctxReg k 1)) 27 (decide ((s.ctx k).blk ≠ .none))) 26 (s.ctx k).dbw.isSome
    setFld (setFld w 21 16 (s.ctx k).rs.length) 2 0 (postedOf s k).length
  else if m = 12 then lines s (ctxOf k)
  else s.rd (ctxReg k m)

/-! ## The watchdog (R154) -/

/-- The watchdog counts: EN is 1 and the context is in RUN or WAIT. -/
def wdCounts (s : State) (k : Nat) : Bool := s.bt (ctxReg k 11) 31 && (cst s k == 1 || cst s k == 2)

/-- Cycles counted since the last reload. -/
def wdCount (s : State) (k : Nat) : Nat :=
  (s.ctx k).wdUsed + if wdCounts s k then s.cycles - (s.ctx k).wdFrom else 0

/-- A reload of the count. -/
def wdReload (s : State) (k : Nat) : State := s.setCtx k { s.ctx k with wdUsed := 0, wdFrom := s.cycles }

/-- The watchdog has run out: PERIOD microseconds counted. -/
def wdOut (s : State) (k : Nat) : Bool :=
  wdCounts s k && decide (s.fl (ctxReg k 11) 23 0 * 1000 ≤ wdCount s k)

/-- A change of the context's state, with the watchdog's count kept. -/
def setCst (s : State) (k st : Nat) : State :=
  (s.setCtx k { s.ctx k with wdUsed := wdCount s k, wdFrom := s.cycles }).setFl (ctxReg k 1) 31 30 st

/-- A write of PE_CTX_WDOG: reload, EXP clears, EN is only ever set (R154). -/
def wdogWrite (s : State) (k : Nat) (v : Word) : State :=
  let en := s.bt (ctxReg k 11) 31 || bitAt v 31
  let s := s.wr (ctxReg k 11) (putBit (v &&& 0x00FFFFFF) 31 en)
  wdReload s k

/-! ## Exceptions (R147, R148, R153) -/

/-- The base of the vectors. -/
def vBase (s : State) (k : Nat) : Nat :=
  if k < 64 then (s.rd (PE_VBASE (k / 8))).toNat else (Config.pairVBase (k == 65)).toNat

/-- Entry to FAULTED: PE_FAULT records it and PE_IRQSTAT.FAULT is set; on a pair it is a fault escalation (R153, R154, R334).
Handler mode ends (R152). -/
def ctxFault (s : State) (k code pc : Nat) : State :=
  let s := (setCst s k 3).setBt (ctxReg k 1) 29 false
  let s := s.setCtx k { s.ctx k with slot := none, succ := none, blk := .none, stopping := false, step := false, waited := false,
                                     marked := false }
  if k < 64 then
    let n := k / 8
    let s := if s.bt (PE_FAULT n) 31 then s
      else ((s.wr (PE_FAULT n) (setFld (setFld (putBit (s.rd (PE_FAULT n)) 31 true) 6 4 (k % 8)) 3 0 code)).wr (PE_FAULTPC n)
        (BitVec.ofNat 32 pc))
    s.raise (PE_IRQSTAT n) 0x1
  else spareCheck (arbEval (pairFault s (k - 64) 4) (some (k - 64, 4)) none)

/-- Taking an exception (R147): the saved position and cause, handler mode, the vector. While HM is 1 any but DBUSW, WDOG and
INT is a double fault (R153). -/
def takeExc (s : State) (k code rpc rnext : Nat) (slot : Bool) (sub : Nat) (taddr : Option Nat) : State :=
  if ctxHM s k ∧ code ≠ 6 ∧ code ≠ 13 ∧ code ≠ 14 then ctxFault s k code (if code = 3 then rpc else ctxPC s k)
  else
    let s := (s.wr (ctxReg k 3) (BitVec.ofNat 32 rpc)).wr (ctxReg k 16) (BitVec.ofNat 32 rnext)
    let s := s.wr (ctxReg k 4) (BitVec.ofNat 32 (slot.toNat * 2 ^ 31 + sub % 256 * 2 ^ 16 + code))
    let s := match taddr with | some a => s.wr (ctxReg k 5) (BitVec.ofNat 32 a) | none => s
    let s := s.setBt (ctxReg k 1) 29 true
    let s := setPC s k (vBase s k + code * 0x40)
    s.setCtx k { s.ctx k with slot := none, succ := none, blk := .none }

/-- The successor of the instruction at PC, where that is no slot. -/
def succOf (s : State) (k : Nat) : Nat := (s.ctx k).succ.getD (ctxPC s k + 4)

/-- The position an exception before the instruction at PC records: RNEXT and SLOT (R133, R141, R148). -/
def posNext (s : State) (k : Nat) : Nat := (s.ctx k).slot.getD (succOf s k)

/-- An issue of the context in CLK_CPU cycle `t`; the context may issue again `gap` cycles later (R121, R122). -/
def noteIssue (s : State) (k t gap : Nat) : State :=
  State.setIssue (s.setCtx k { s.ctx k with readyAt := t + gap }) (ctxBlk k) { last := k % 8, at_ := t + 1 }

/-- The issue opportunity that the entry of an exception takes (R147). -/
def entryIssue (s : State) (k : Nat) : State := noteIssue s k (max (cpuNow s (ctxBlk k)) (s.ctx k).readyAt) 2

/-- DBUSW, WDOG or INT taken at the position of the context (R149, R150). -/
def takeDbusw (s : State) (k : Nat) : State :=
  match (s.ctx k).dbw with
  | none => s
  | some a =>
    takeExc (entryIssue (s.setCtx k { s.ctx k with dbw := none }) k) k 6 (ctxPC s k) (posNext s k) (s.ctx k).slot.isSome 0 (some a)

/-- WDOG. -/
def takeWdog (s : State) (k : Nat) : State :=
  takeExc (entryIssue (s.setCtx k { s.ctx k with wdPend := false }) k) k 13 (ctxPC s k) (posNext s k) (s.ctx k).slot.isSome 0 none

/-- INT. -/
def takeInt (s : State) (k : Nat) : State := takeExc (entryIssue s k) k 14 (ctxPC s k) (posNext s k) (s.ctx k).slot.isSome 0 none

/-- The context waits in a blocking form whose access is not issued (R141). The second wait of a CP7 instruction is none: its first
access was issued, so the instruction completes before anything is taken (DEDUCED, log entry 89). -/
def abandonable (s : State) (k : Nat) : Bool := match (s.ctx k).blk with | .wait _ => true | _ => false

/-- The context is at a boundary: not blocked, and not before a slot; a wait not issued may be abandoned (R132, R141). -/
def atBoundary (s : State) (k : Nat) : Bool :=
  ((s.ctx k).blk == .none && (s.ctx k).slot.isNone) || abandonable s k

/-- A condition of R149 that comes before the instruction: 1 DBUSW, 2 WDOG, 3 INT; 0 none. WDOG and INT end a wait not issued, and
DBUSW alone does not (R141); once the wait ends, DBUSW comes first. -/
def excDue (s : State) (k : Nat) : Nat :=
  let int := ctxIE s k && intLines s k != 0
  if ctxHM s k || !atBoundary s k then 0
  else if (s.ctx k).dbw.isSome && (!abandonable s k || (s.ctx k).wdPend || int) then 1
  else if (s.ctx k).wdPend then 2
  else if int then 3
  else 0

/-! ## The issue stage (R121) -/

/-- The contexts that share the issue stage of a context. -/
def stageOf (k : Nat) : List Nat := if onEngine k then (List.range 8).map (fun j => k / 8 * 8 + j) else [k]

/-- The context is in RUN and not blocked, or an entry ends its wait (R121, R141, R147). -/
def issueReady (s : State) (k : Nat) : Bool :=
  ctxLive s k && cst s k == 1 && ((s.ctx k).blk == .none || excDue s k != 0)

/-- The next CLK_CPU cycle in which a context of the stage is ready. -/
def issueCyc (s : State) (k : Nat) : Nat :=
  match ((stageOf k).filter (issueReady s)).map (fun j => (s.ctx j).readyAt) with
  | [] => cpuNow s (ctxBlk k)
  | t :: l => max (cpuNow s (ctxBlk k)) (l.foldl min t)

/-- The stage takes the context in that cycle: the first ready one after the context that issued last (R121). -/
def jTurn (s : State) (k : Nat) : Bool :=
  let n := (stageOf k).length
  let from_ := if onEngine k then (s.issue (k / 8)).last + 1 else 0
  ((List.range n).map (fun i => (stageOf k).getD ((from_ + i) % n) k)).find?
    (fun j => issueReady s j && decide ((s.ctx j).readyAt ≤ issueCyc s k)) == some k

/-! ## Commands (Table 6.2) -/

/-- The context enters STOPPED. -/
def ctxStopNow (s : State) (k : Nat) : State :=
  let w := cst s k == 2
  (setCst s k 0).setCtx k { (setCst s k 0).ctx k with waited := w, stopping := false, step := false }

/-- After an instruction, an access or an entry: a STOP or a STEP that waited takes effect, else a pending WDOG is taken, in
that order (R120, R132, R149). -/
def boundary (s : State) (k : Nat) : State :=
  let h := s.ctx k
  if h.blk ≠ .none ∨ h.slot.isSome ∨ cst s k ≠ 1 then s
  else if h.stopping then ctxStopNow s k
  else if excDue s k = 2 then takeWdog s k
  else s

/-- START: HM and IE clear, the return stack empties, and the watchdog is reloaded; EXP, which only a write clears, and a WDOG
pending stay (R154). -/
def ctxStart (s : State) (k : Nat) : State :=
  let s := ((s.setBt (ctxReg k 1) 29 false).setBt (ctxReg k 1) 28 false).wr (ctxReg k 10) (s.rd (ctxReg k 8))
  let s := s.setCtx k { s.ctx k with rs := [], snap := none, slot := none, succ := none, blk := .none, stopping := false,
                                     step := false, waited := false }
  wdReload (s.setFl (ctxReg k 1) 31 30 1) k

/-- STOP: a wait not issued is abandoned, with RPC, RNEXT and SLOT as R141 gives them (log entry 90: in handler mode too); an access
issued, and a slot, come first. -/
def ctxStop (s : State) (k : Nat) : State :=
  let h := s.ctx k
  if abandonable s k then
    let t := (s.wr (ctxReg k 3) (BitVec.ofNat 32 (ctxPC s k))).wr (ctxReg k 16) (BitVec.ofNat 32 (posNext s k))
    ctxStopNow ((t.setBt (ctxReg k 4) 31 h.slot.isSome).setCtx k { h with blk := .none }) k
  else if h.blk ≠ .none ∨ h.slot.isSome then s.setCtx k { h with stopping := true }
  else ctxStopNow s k

/-- RESUME: RUN, or WAIT if it was stopped there. -/
def ctxResume (s : State) (k : Nat) : State :=
  let w := (s.ctx k).waited
  let s := s.setCtx k { s.ctx k with waited := false, step := false }
  boundary (setCst s k (if w then 2 else 1)) k

/-- A command of PE_CTX_CTRL: 1 START, 2 STOP, 3 RESUME, 4 STEP, 5 CLEAR; a reserved one is refused on a pair (R349) and does nothing
on an engine (DEDUCED, log entry 61). A STEP is marked here and carried out by
Machine/Engine.lean in the same step of the block. -/
def ctxCommand (s : State) (k cmd : Nat) : State × Resp :=
  let st := cst s k
  if (cmd = 1 ∨ cmd = 3 ∨ cmd = 4) ∧ st ≠ 0 then refuse s
  else if cmd = 1 then accept (ctxStart s k)
  else if cmd = 2 then accept (if st = 1 ∨ st = 2 then ctxStop s k else s)
  else if cmd = 3 then accept (ctxResume s k)
  else if cmd = 4 then accept (s.setCtx k { s.ctx k with step := true, waited := false })
  else if cmd = 5 then accept (if st = 3 then setCst s k 0 else s)
  else if 6 ≤ cmd ∧ onEngine k = false then refuse s
  else accept s

/-! ## Register writes (R155, R156) -/

/-- Where code, the return-stack spill area and the data scratchpad lie: [lo, hi). -/
def codeRange (k : Nat) : Nat × Nat :=
  if k < 64 then (0x10000000 + k / 8 * 0x100000, 0x10010000 + k / 8 * 0x100000) else (0, 2 ^ 32)
/-- The spill area's memory: the data scratchpad, or the L2. -/
def spillRange (k : Nat) : Nat × Nat :=
  if k < 64 then (0x10010000 + k / 8 * 0x100000, 0x10040000 + k / 8 * 0x100000) else (0x40000000, 0x40200000)

/-- A value of PC, RSBASE, RSLIMIT or WDOG that its field description forbids. -/
def ctxBadValue (s : State) (k m : Nat) (v : Word) : Bool :=
  let a := v.toNat
  if m = 2 then a % 4 != 0 || decide (a < (codeRange k).1) || decide ((codeRange k).2 ≤ a)
  else if m = 8 then a % 32 != 0 || decide (a < (spillRange k).1) || decide ((spillRange k).2 ≤ a)
  else if m = 9 then a % 32 != 0 || decide (a < (s.rd (ctxReg k 8)).toNat) || decide (a < (spillRange k).1) ||
    decide ((spillRange k).2 ≤ a)
  else m == 11 && fld v 23 0 == 0

/-- Registers that stand still on the bus while the context is in RUN or WAIT. -/
def ctxHeld (m : Nat) : Bool := [2, 3, 4, 6, 7, 8, 9, 16].contains m

/-- A write of context register `m` that its rules accept. -/
def ctxSet (s : State) (k m : Nat) (v : Word) : State :=
  if m = 11 then wdogWrite s k v
  else if m = 2 then
    let s := s.setCtx k { s.ctx k with slot := none, succ := none }
    s.softWrite (ctxReg k 2) v
  else s.softWrite (ctxReg k m) v

/-- A bus write of context register `m`. -/
def ctxWrite (s : State) (k m : Nat) (v : Word) : State × Resp :=
  if m = 0 then ctxCommand s k (fld v 3 0)
  else if ctxHeld m ∧ (cst s k = 1 ∨ cst s k = 2) then refuse s
  else if ctxBadValue s k m v then refuse s
  else accept (ctxSet s k m v)

/-- CSRW to a register R156 forbids. -/
def csrwIllegal (m : Nat) : Bool := [0, 2, 8, 9, 10].contains m

/-- CSRW (R156): as R8 says; a reserved WDOG period changes nothing. -/
def csrWrite (s : State) (k m : Nat) (v : Word) : State := if ctxBadValue s k m v then s else ctxSet s k m v

/-! ## Engine registers (Tables 6.12, 6.14 to 6.16) -/

/-- A bus write of an engine register at offset `off`. -/
def peWrite (s : State) (n off : Nat) (v : Word) : State × Resp :=
  let a := PE_CTRL n + off
  if 0x100 ≤ off ∧ off < 0x500 then ctxWrite s (8 * n + (off - 0x100) / 0x80) (off % 0x80 / 4) v
  else if 0x800 ≤ off then
    let k := 8 * n + (off - 0x800) / 0x80
    if cst s k = 1 ∨ cst s k = 2 then refuse s else accept (setG s k (off % 0x80 / 4) v)
  else if off = 4 ∧ (v.toNat % 0x400 ≠ 0 ∨ v.toNat / 0x10000 ≠ (0x10000000 + n * 0x100000) / 0x10000) then refuse s
  else accept (s.softWrite a v)

/-- PE_IDLE: CLK_CPU cycles without an issue since the engine left reset, at 4 CLK_CPU cycles to 5 CLK_CELL cycles (Table
6.16); a row of an instruction takes no time (DESIGN CHOICE, log entry 1). -/
def peIdle (s : State) (n : Nat) : Word :=
  if inReset s n then 0 else BitVec.ofNat 32 ((s.cycles - smGet 0 s.peFrom n) * 4 / 5)

/-- A bus read of an engine register. -/
def peRead (s : State) (n off : Nat) : State × Resp :=
  let a := PE_CTRL n + off
  if off = 0x24 then accept s (peIdle s n)
  else if 0x100 ≤ off ∧ off < 0x500 then accept s (ctxReadWord s (8 * n + (off - 0x100) / 0x80) (off % 0x80 / 4))
  else accept (s.readClear a) (s.rd a)

/-! ## Pair-local registers (Tables 15.8, 15.9, R336, R337) -/

/-- The address of a register of protection region `r` of pair `p`: 0 RBASE, 4 RLIM, 8 RATTR. -/
def rgn (p r o : Nat) : Nat := 0x40810400 + p * 0x10000 + r * 0x10 + o

/-- The region that holds an address range lies wholly in the L2, the boot ROM or the boot flash window. -/
def cacheableRange (base lim : Nat) : Bool :=
  let inR (lo hi : Nat) : Bool := decide (lo ≤ base) && decide (lim < hi) && decide (base ≤ lim)
  inR 0 0x10000 || inR 0x40000000 0x40200000 || inR 0x60000000 0x80000000

/-- A region write that R336 or Table 15.9 refuses: the region it leaves has C = 1 outside the cacheable memories, or LIMIT
below BASE; or the regions are locked. -/
def rgnRefuses (s : State) (p r o : Nat) (v : Word) : Bool :=
  let base := (if o = 0 then v else s.rd (rgn p r 0)).toNat / 4096 * 4096
  let lim := (if o = 4 then v else s.rd (rgn p r 4)).toNat / 4096 * 4096 + 4095
  let attr := if o = 8 then v else s.rd (rgn p r 8)
  s.bt (ARB_PL_PLOCK p) 0 || (bitAt attr 0 && !cacheableRange base lim) || (o == 4 && decide (lim < base))

/-- ARB_PL_CACHE: the data or instruction caches lose their copies (R337). -/
def cacheDrop (s : State) (p : Nat) (d i : Bool) : State :=
  { s with dcache := if d then dropPair s.dcache p else s.dcache, icache := if i then dropPair s.icache p else s.icache }

/-- A write of a pair-local register of pair `p`. -/
def plWrite (s : State) (p off : Nat) (v : Word) : State × Resp :=
  if off = 4 then accept (cacheDrop s p (bitAt v 1) (bitAt v 0))
  else if 0x100 ≤ off ∧ off < 0x148 then ctxWrite s (64 + p) ((off - 0x100) / 4) v
  else if 0x400 ≤ off then
    if rgnRefuses s p ((off - 0x400) / 0x10) (off % 0x10) v then refuse s
    else accept (s.softWrite (ARB_PL_ID p + off) v)
  else accept (s.softWrite (ARB_PL_ID p + off) v)

/-- A read of a pair-local register. -/
def plRead (s : State) (p off : Nat) : State × Resp :=
  if off = 0 then accept s (BitVec.ofNat 32 p)
  else if 0x100 ≤ off ∧ off < 0x148 then accept s (ctxReadWord s (64 + p) ((off - 0x100) / 4))
  else accept s (s.rd (ARB_PL_ID p + off))

end Sys2Proof.Machine
end

