-- ==== Sys2Proof/Machine/Power.lean ====
section
/-! DEFINITION. Supplies, the regulator sequencer, hold-up, power domains, and the registers of PMU and reset
(R385 to R412). -/

namespace Sys2Proof.Machine

/-! ## The regulator sequencer (R387 to R389) -/

/-- PMU_SEQSTAT.STATE: 0 OFF, 1 UP, 2 ON, 3 HOLDUP, 4 DOWN, 5 RETRY. -/
def seqState (s : State) : Nat := s.fl PMU_SEQSTAT 31 28

/-- Setting it. -/
def seqTo (s : State) (x : Nat) : State := s.setFl PMU_SEQSTAT 31 28 x

/-- The regulator enables raised. -/
def pwrEn (s : State) : Nat := s.fl PMU_SEQSTAT 13 8

/-- PGOOD inputs as last seen. -/
def pgood (s : State) : Nat := s.fl PMU_SEQSTAT 21 16

/-- Bits of `mask` all set in `x`. -/
def allOf (x mask : Nat) : Bool := x &&& mask == mask

/-- `ms` milliseconds have passed since the last step of the sequencer. -/
def seqWaited (s : State) (ms : Nat) : Bool := decide (s.seqH.stepAt + ms * 1000000 ≤ s.cycles)

/-- A step of the sequencer happens now. -/
def seqStepped (s : State) : State := { s with seqH := { s.seqH with stepAt := s.cycles } }

/-- The 10 ms of R387 begin again. -/
def seqRestart (s : State) : State := { s with seqH := { s.seqH with start := s.cycles } }

/-- POWER_UP_START, once the 10 ms are over (R387). -/
def powerUpStart (s : State) : State :=
  let ready := seqState s == 0 || (seqState s == 5 && s.seqH.retryDone)
  if ready && s.bt PMU_MONSTAT 26 && !s.bt PMU_MONSTAT 31 && !bitAt s.srcs 0 && decide (s.seqH.start + 10000000 ≤ s.cycles) then
    let s : State := { s with seqH := { s.seqH with fail := false, retryDone := false, stepAt := s.cycles } }
    seqTo (s.setFl PMU_SEQSTAT 13 8 1) 1
  else s

/-- The enables of the next step of Table 18.3, if its condition holds: `vdd` says that VDD is above 0.72 V. -/
def nextEn (en pg : Nat) (vdd : Bool) : Nat :=
  if en = 1 ∧ allOf pg 1 ∧ vdd then 7
  else if en = 7 ∧ allOf pg 6 then 15
  else if en = 15 ∧ allOf pg 8 then 63
  else en

/-- Every step of power-up is done. -/
def powerIsUp (s : State) : Bool := pwrEn s == 63 && allOf (pgood s) 48

/-- An internal brown-out warning stands: a rail below its warning threshold, or a power-good that is low (R388, R390). -/
def brownWarn (s : State) : Bool := s.fl PMU_MONSTAT 30 27 != 0 || pgood s != 63

/-- What of R391 has begun to stand between two states is counted from now. -/
def warnSince (old s : State) : State :=
  { s with seqH := { s.seqH with
      vinFrom := if s.bt PMU_MONSTAT 31 && !old.bt PMU_MONSTAT 31 then s.cycles else s.seqH.vinFrom,
      warnFrom := if brownWarn s && !brownWarn old then s.cycles else s.seqH.warnFrom } }

/-- POWER_UP_STEP with the PGOOD inputs `pg`. -/
def powerUpStep (s : State) (pg : Nat) (vdd : Bool) : State :=
  if seqState s ≠ 1 then s
  else
    let t := (s.setFl PMU_SEQSTAT 21 16 pg).setFl PMU_SEQSTAT 13 8 (nextEn (pwrEn s) pg vdd)
    warnSince s (if pwrEn t ≠ pwrEn s ∨ (powerIsUp t ∧ powerIsUp s = false) then seqStepped t else t)

/-- POWER_UP_SETTLED, 1 ms after the last step: COREPOR is released, STATE is ON. -/
def powerUpSettled (s : State) : State :=
  if seqState s = 1 ∧ powerIsUp s ∧ seqWaited s 1 then wideRelease (seqTo s 2) 1 else s

/-- The enables after the next lowering (R389). -/
def lowerEn (en : Nat) : Nat :=
  if en &&& 48 ≠ 0 then en &&& 15
  else if en &&& 8 ≠ 0 then en &&& 7
  else if en &&& 6 ≠ 0 then en &&& 1
  else 0

/-- The enables of the lowering before. -/
def lastLowered (en : Nat) : Nat := if en &&& 8 ≠ 0 then 48 else if en &&& 6 ≠ 0 then 8 else if en &&& 1 ≠ 0 then 6 else 0

/-- Every memory of PD_CORE and the gated domains has lost its power: its words are undefined (R316). -/
def losePower (s : State) : State := poweredMem.foldl (fun s r => s.undefine r.1 r.2) s

/-- PWR_EN0 is low: OFF, or RETRY after a failed power-up; BROWNOUT ends, the PPS keeper has lost its supply. -/
def powerOff (s : State) : State :=
  let s := wideRelease (losePower { (s.wr TU_PPS_STAT 0) with pps := {}, seqH := { s.seqH with failed := 0 } }) 2
  let s := seqRestart s
  if s.seqH.fail then seqTo (s.satInc PMU_SEQSTAT 7 0) 5 else seqTo s 0

/-- One lowering; the last ends power-down. -/
def lowerStep (s : State) : State :=
  let s := seqStepped (s.setFl PMU_SEQSTAT 13 8 (lowerEn (pwrEn s)))
  if pwrEn s = 0 then powerOff s else s

/-- The start of power-down: COREPOR, and the first lowering (R389). -/
def powerDown (s : State) (fail : Bool) : State :=
  let s := seqTo (wideAssert s 1) 4
  lowerStep { s with seqH := { s.seqH with fail := fail } }

/-- POWER_UP_TIMEOUT: TPG has passed since the last step (R388). -/
def powerUpTimeout (s : State) : State :=
  if seqState s = 1 ∧ powerIsUp s = false ∧ seqWaited s (s.fl PMU_SEQCFG 7 0) then powerDown s true else s

/-- RETRY_END: the 1 s wait is over (R388). -/
def retryEnd (s : State) : State :=
  if seqState s = 5 ∧ s.seqH.retryDone = false ∧ seqWaited s 1000 then
    seqRestart { s with seqH := { s.seqH with retryDone := true } }
  else s

/-- POWER_DOWN_STEP with the PGOOD inputs `pg`: TDN after the power-goods were low, or, as `limit` says, after the 20 ms
(R389). -/
def powerDownStep (s : State) (pg : Nat) (limit : Bool) : State :=
  let high := pg &&& lastLowered (pwrEn s) != 0
  if seqState s ≠ 4 ∨ (high ∧ limit = false) ∨ seqWaited s (s.fl PMU_SEQCFG 23 16 + if high then 20 else 0) = false then s
  else warnSince s (lowerStep (s.setFl PMU_SEQSTAT 21 16 pg))

/-! ## Monitors (R390) -/

/-- SUPPLY_WARNING: the monitor of the rail shows it; a bank rail has no warning threshold (Table 18.4). -/
def supplyWarning (s : State) : Rail → State
  | .main i => warnSince s (s.setBt PMU_MONSTAT (30 - i.val) true)
  | .vin => warnSince s (s.setBt PMU_MONSTAT 31 true)
  | .bat => s.setBt PMU_MONSTAT 25 true
  | .bank _ => s

/-- SUPPLY_FAIL of one of the four rails: BROWNOUT; in hold-up, power-down begins at once (R390, R392). -/
def supplyFail (s : State) (i : Nat) : State :=
  let s := wideAssert { s with seqH := { s.seqH with failed := s.seqH.failed ||| 2 ^ i } } 2
  if seqState s = 3 then powerDown s false else s

/-- The bank monitors act on the rails that have not recovered. -/
def bankAct (s : State) (g : Nat) : State :=
  if s.bt PMU_BANKV 31 ∧ bitAt s.bankuv g = false then
    narrowStep (s.raise PMU_IRQSTAT 0x4) (fun s => { s with bankuv := putBit s.bankuv g true }) 0x1000
  else s

/-- BANK_UNDERVOLTAGE of bank `g`. -/
def bankUndervoltage (s : State) (g : Nat) : State := bankAct (s.setBt PMU_MONSTAT g true) g

/-- RAIL_RECOVERY; `full`: the rail is above its warning threshold too. -/
def railRecovery (s : State) (full : Bool) : Rail → State
  | .main i =>
    let s := if full then s.setBt PMU_MONSTAT (30 - i.val) false else s
    let f := s.seqH.failed &&& (15 - 2 ^ i.val)
    let s : State := { s with seqH := { s.seqH with failed := f } }
    if f = 0 ∧ seqState s ≠ 4 then wideRelease s 2 else s
  | .vin => if s.bt PMU_MONSTAT 31 then seqRestart (s.setBt PMU_MONSTAT 31 false) else s
  | .bat => s.setBt PMU_MONSTAT 25 false
  | .bank g =>
    let s := s.setBt PMU_MONSTAT g.val false
    if bitAt s.bankuv g.val then narrowStep s (fun s => { s with bankuv := putBit s.bankuv g.val false }) 0 else s

/-- PGOOD_FALL of input `i` while ON: an internal brown-out warning (R388). -/
def pgoodFall (s : State) (i : Nat) : State := if seqState s = 2 then warnSince s (s.setBt PMU_SEQSTAT (16 + i) false) else s

/-- VIN_WARN, or an internal brown-out warning, has persisted for WARNFLT µs (R391). -/
def warned (s : State) : Bool :=
  let since := fun t => decide (t + s.fl PMU_HOLDCFG 7 0 * 1000 ≤ s.cycles)
  (s.bt PMU_MONSTAT 31 && since s.seqH.vinFrom) || (brownWarn s && since s.seqH.warnFrom)

/-! ## Hold-up (R391, R392, R432) -/

/-- A slot in hold-up: power is cut, and the record of a present slot is written. -/
def slotHold (s : State) (k : Nat) : State :=
  let h := s.slot k
  let s := s.setSlot k { h with en := false, rejoin := false }
  let s := if h.state = 3 then slotTo s k 2 else s
  if h.en ∨ (h.prs ∧ (h.state = 2 ∨ h.state = 3 ∨ h.state = 4)) then wearStart s k else s

/-- HOLD_UP_START (Table 18.5). -/
def holdUpStart (s : State) : State :=
  if seqState s ≠ 2 ∨ warned s = false then s
  else
    let s := (seqTo (seqStepped s) 3).raise RST_CAUSE 0x4000
    let s : State := { s with seqH := { s.seqH with holdT := s.fl PMU_HOLDCFG 15 8 } }
    let s := if wideReset s then s else s.raise PMU_IRQSTAT 0x8
    let s := if inReset s blkImg then s else commitDisable s
    let s := keepSync { s with holdSafe := true }
    (List.range 32).foldl slotHold s

/-- HOLD_UP_END: at t_w + HOLDT power-down begins. -/
def holdUpEnd (s : State) : State := if seqState s = 3 ∧ seqWaited s s.seqH.holdT then powerDown s false else s

/-! ## Power domains (R393, R394) -/

/-- Domains whose bit differs between request and state are switching. -/
def pdBusy (s : State) : Bool := s.fl PMU_PDCTRL 26 0 != s.fl PMU_PDSTAT 26 0

/-- A write of PMU_PDCTRL by a supervisor: the domains newly switched off are covered by PDOFF. -/
def pdWrite (s : State) (m : Nat) (v : Word) : State × Resp :=
  let v := v &&& 0x07FFFFFF
  let old := s.rd PMU_PDCTRL
  if supervisor s m = false ∨ (pdBusy s ∧ v ≠ old) then refuse s
  else
    let off := v &&& ~~~old
    accept (narrowStep (s.wr PMU_PDCTRL v) (fun s => { s with pdoff := s.pdoff ||| off }) (if off = 0 then 0 else 0x200))

/-- DOMAIN_OFF_DONE. -/
def domainOffDone (s : State) (d : Nat) : State :=
  if s.bt PMU_PDCTRL d && !s.bt PMU_PDSTAT d then s.setBt PMU_PDSTAT d true else s

/-- The memories of a domain that has bus addresses: zero with good check bits (R393, R394). -/
def domainClear (s : State) (d : Nat) : State :=
  if d < 8 then s.clearMem (0x10000000 + d * 0x100000) (0x10040000 + d * 0x100000)
  else if d = 8 then s.clearMem 0x40000000 0x40200000
  else s

/-- DOMAIN_ON_DONE: memories are cleared, PDOFF is released, PDDONE is set. -/
def domainOnDone (s : State) (d : Nat) : State :=
  if s.bt PMU_PDSTAT d && !s.bt PMU_PDCTRL d then
    let s := ((domainClear s d).setBt PMU_PDSTAT d false).raise PMU_IRQSTAT 0x2
    narrowStep s (fun s => { s with pdoff := putBit s.pdoff d false }) 0
  else s

/-! ## PMU registers (R410) -/

/-- A list entry that names a reserved channel (Table 18.13). -/
def adcBadList (v : Word) : Bool := (List.range 4).any (fun k => decide (50 ≤ fld v (8 * k + 5) (8 * k)))

/-- A write of a PMU register by master `m`. -/
def pmuWrite (s : State) (m off : Nat) (v : Word) : State × Resp :=
  let a := PMU_SEQCFG + off
  let x := (off - 0x100) / 0x80
  if off = 0 then (if fld v 23 16 = 0 ∨ fld v 7 0 = 0 then refuse s else accept (s.softWrite a v))
  else if off = 0x10 then
    let s := s.softWrite a v
    accept ((List.range 16).foldl (fun s g => if s.bt PMU_MONSTAT g then bankAct s g else s) s)
  else if off = 0x14 then pdWrite s m v
  else if 0x100 ≤ off ∧ s.bt (PMU_ADC_STAT x) 0 ∧ (off % 0x80 = 0 ∨ (0x10 ≤ off % 0x80 ∧ off % 0x80 < 0x20)) then refuse s
  else if 0x100 ≤ off ∧ 0x10 ≤ off % 0x80 ∧ off % 0x80 < 0x20 ∧ adcBadList v then refuse s
  else accept (s.softWrite a v)

/-- A read of a PMU register. -/
def pmuRead (s : State) (off : Nat) : State × Resp :=
  let a := PMU_SEQCFG + off
  accept (s.readClear a) (if off = 0x18 then putBit (s.rd a) 31 (pdBusy s) else s.rd a)

/-! ## Reset registers (R402, R411) -/

/-- Asserting SWSUB on target `t` (R402): `pulse` says that 1 µs releases it. -/
def swsubOn (s : State) (t : Nat) (pulse : Bool) : State :=
  let s : State := if pulse then { (s.sourceAt (64 + t)) with pulseSrc := putBit s.pulseSrc t true } else s
  if s.bt RST_SWSRC t then s
  else narrowStep { s with ftRan := putBit s.ftRan t false } (fun s => s.setBt RST_SWSRC t true) 0x100

/-- Releasing it. -/
def swsubOff (s : State) (t : Nat) : State :=
  narrowStep { s with pulseSrc := putBit s.pulseSrc t false } (fun s => s.setBt RST_SWSRC t false) 0

/-- RST_SWRST written by master `m`. -/
def swrstWrite (s : State) (m : Nat) (v : Word) : State × Resp :=
  let op := fld v 15 12
  let t := fld v 4 0
  if supervisor s m = false ∨ fld v 31 16 ≠ 0xA55A ∨ 6 ≤ op ∨ (1 ≤ op ∧ op ≤ 3 ∧ 29 ≤ t) then refuse s
  else if op = 1 then accept (swsubOn s t false)
  else if op = 2 then accept (swsubOff s t)
  else if op = 3 then (if s.bt RST_SWSRC t then refuse s else accept (swsubOn s t true))
  else if op = 4 then accept (wideAssert s 7)
  else if op = 5 then accept (wideAssert s 6)
  else accept s

/-- A write of a RST_ register by master `m` at offset `off` of 0x3800_0000. -/
def rstWrite (s : State) (m off : Nat) (v : Word) : State × Resp :=
  let a := LDR_DEVID + off
  if off = 0x1004 then swrstWrite s m v
  else if off = 0x1010 ∨ off = 0x1014 then
    (if supervisor s m = false then refuse s
     else accept (narrowStep s (fun s => s.wr a v) (if v &&& ~~~(s.rd a) = 0 then 0 else 0x2000)))
  else if 0x1100 ≤ off then (if m = 16 ∨ m = 31 then accept (s.softWrite a v) else refuse s)
  else accept (s.softWrite a v)

/-- A read of a RST_ register. -/
def rstRead (s : State) (off : Nat) : State × Resp :=
  let a := LDR_DEVID + off
  accept (s.readClear a) (if off = 0x100C then subStat s else s.rd a)

/-- The level of the RSTOUT ball, asserted as true (Table 18.18). -/
def rstOut (s : State) : Bool := s.bt RST_CTRL 0 || wideReset s

/-! ## Sources that end by themselves, and PD_AON's own (Table 18.7) -/

/-- The `ns` ns after the assertion of source `k` are over. -/
def sourceOver (s : State) (k ns : Nat) : Bool := decide (smGet 0 s.seqH.srcAt k + ns ≤ s.cycles)

/-- A wide source of 10 µs ends. -/
def wideExpiry (s : State) (bit : Nat) : State := if bitAt s.srcs bit ∧ sourceOver s bit 10000 then wideRelease s bit else s

/-- RESET_SOURCE_EXPIRY. -/
def sourceExpiry (s : State) : TimedSrc → State
  | .pllLoss => wideExpiry s 4
  | .swCold => wideExpiry s 6
  | .swWarm => wideExpiry s 7
  | .wdrst n =>
    if bitAt s.wdrst n.val ∧ sourceOver s (32 + n.val) 1000 then
      narrowStep s (fun s => { s with wdrst := putBit s.wdrst n.val false }) 0
    else s
  | .pulse t => if bitAt s.pulseSrc t.val ∧ sourceOver s (64 + t.val) 1000 then swsubOff s t.val else s

/-- PLL_LOSS: counted; the keepers drive every pin safe until the cold reset whose source is asserted (R26, Table 18.11). -/
def pllLoss (s : State) : State :=
  if s.bt RST_CLKSTAT 31 then
    let k := keepSync { s with pllSafe := true }
    wideAssert ((k.emit (.pinsSafe k.keep)).satInc RST_CLKSTAT 15 0) 4
  else s

/-- AONPOR_RELEASE, with PD_AON on VAON or on VBAT: the cold reset of COREPOR continues (R396, R403). -/
def aonRelease (s : State) (vaon : Bool) : State :=
  if bitAt s.srcs 0 then
    let s : State := { s with srcs := 0x2 }
    ((s.raise RST_CAUSE 0x2).wrapInc RST_CNT 31 16).setBt PMU_MONSTAT 26 vaon
  else s

/-- AON_SUPPLY_SWITCH (R413). -/
def aonSwitch (s : State) (vaon : Bool) : State :=
  if s.bt PMU_MONSTAT 26 = vaon then s
  else
    let s := s.setBt PMU_MONSTAT 26 vaon
    if vaon then seqRestart s else s.wrapInc AON_BATCNT 15 0

end Sys2Proof.Machine
end

