-- ==== Sys2Proof/Machine/LdrRegs.lean ====
section
/-! DEFINITION. The loader's registers: the flash update service's commands, fuse programming, debug lock (R378 to R383).
What a command does when it runs is in Machine/Loader.lean. -/

namespace Sys2Proof.Machine

/-- SECCFG.DBG from the fuse shadows (R380). -/
def dbgMode (s : State) : Nat := s.fl (LDR_FUSE 20) 1 0

/-- Debug is usable: ID 31 can issue accesses (R380). -/
def dbgUsable (s : State) : Bool := s.bt LDR_FUSESTAT 31 && (dbgMode s == 0 || (dbgMode s == 1 && s.ldrH.unlocked))

/-- The flash update service takes commands from master `m` (R378). -/
def fuOwner (s : State) (m : Nat) : Bool := s.bt LDR_FUCFG 31 && s.fl LDR_FUCFG 4 0 == m

/-- An operation runs. -/
def fuBusy (s : State) : Bool := s.bt LDR_FUSTAT 31

/-- Setting FUSTAT.RES: 0 OK, 1 ERROR, 2 ABORTED. -/
def fuRes (s : State) (r : Nat) : State := s.setFl LDR_FUSTAT 29 28 r

/-- A warning or hold-up stands, so no further flash command goes out (R379). -/
def fuWarned (s : State) : Bool := seqState s == 3 || (seqState s == 2 && (s.bt PMU_MONSTAT 31 || brownWarn s))

/-- Every context of PEn is STOPPED or FAULTED. -/
def peStill (s : State) (n : Nat) : Bool := (List.range 8).all (fun k => cst s (8 * n + k) == 0 || cst s (8 * n + k) == 3)

/-- A byte of the boot flash; unlisted bytes are erased. -/
def flashByte (s : State) (o : Nat) : Byte := smGet 0xFF s.flash o

/-- `n` bytes of the boot flash. -/
def flashBytes (s : State) (o n : Nat) : List Byte := (List.range n).map (fun i => flashByte s (o + i))

/-- An accepted command begins: the operation is recorded. PROGRAM takes its page from FUSRC as ID 16; one that cannot be
read, a misaligned operand, or a warning leaves nothing for the flash (operations 8 and 9: it ends ABORTED, in ERROR). -/
def fuBegin (s : State) (op : Nat) (copy : Bool) : State :=
  let adr := s.fl LDR_FUADDR 27 0
  let s := fuRes (s.setBt LDR_FUSTAT 31 true) 0
  if (op = 1 ∨ op = 2) ∧ fuWarned s then fuRes { s with ldrH := { s.ldrH with op := 8 } } 2
  else if op = 1 then
    { s with ldrH := { s.ldrH with op := if adr % 65536 = 0 then 1 else 9, opAddr := adr, verified := false } }
  else if op = 2 then
    let src := (s.rd LDR_FUSRC).toNat
    if adr % 256 ≠ 0 ∨ src % 8 ≠ 0 then { s with ldrH := { s.ldrH with op := 9, verified := false } }
    else
      match memRead s 16 src 256 with
      | (s, some l) => { s with ldrH := { s.ldrH with op := 2, opAddr := adr, opData := l, verified := false } }
      | (s, none) => { s with ldrH := { s.ldrH with op := 9, verified := false } }
  else { s with ldrH := { s.ldrH with op := op, opAddr := adr % 8, opCopy := copy } }

/-- LDR_FUCMD written by master `m` (R378, Table 17.6). -/
def fuCommand (s : State) (m : Nat) (v : Word) : State × Resp :=
  let op := fld v 3 0
  if fuOwner s m = false ∨ fld v 31 16 ≠ 0xA55A ∨ 8 ≤ op then refuse s
  else if op = 0 then accept s
  else if (fuBusy s ∧ op ≠ 6) ∨ (s.bt LDR_FUSTAT 30 = false ∧ op ≠ 3 ∧ op ≠ 7) then refuse s
  else if op = 4 ∧ s.ldrH.verified = false then refuse s
  else if op = 7 ∧ (peStill s (s.fl LDR_FUADDR 2 0) = false ∨ s.fl LDR_FUADDR 2 0 + 1 = m) then refuse s
  else if op = 6 then accept (fuRes s 2)
  else accept (fuBegin s op (bitAt v 4))

/-- A fuse bit R382 lets a write blow: the array's own words say which regions are closed. -/
def fuseOpen (s : State) (b : Nat) : Bool :=
  let w := b / 32
  let crc (i : Nat) : Bool := smGet 0 s.fuses i != 0
  !((decide (56 ≤ w) && decide (w < 124)) || w == 127 || decide (w < 12) || w == 124 ||
    (((decide (12 ≤ w) && decide (w < 20)) || w == 125) && crc 125) ||
    (((decide (24 ≤ w) && decide (w < 56)) || w == 126) && crc 126))

/-- LDR_FPROG written by master `m` (R382). -/
def fprogWrite (s : State) (m : Nat) (v : Word) : State × Resp :=
  if m ≠ 31 ∨ dbgUsable s = false ∨ fld v 31 16 ≠ 0xA55A ∨ s.bt LDR_FPSTAT 31 ∨ fuseOpen s (fld v 11 0) = false then refuse s
  else accept (State.setBt { s with ldrH := { s.ldrH with blowing := some (fld v 11 0) } } LDR_FPSTAT 31 true)

/-- A write of a loader register by master `m` at offset `off` of 0x3800_0000. -/
def ldrWrite (s : State) (m off : Nat) (v : Word) : State × Resp :=
  let a := LDR_DEVID + off
  let own := fld v 4 0
  if 0x1000 ≤ off then rstWrite s m off v
  else if off = 0x20 then (if own = 0 ∨ (17 ≤ own ∧ own ≤ 30) then refuse s else accept (s.softWrite a v))
  else if off = 0x24 then fuCommand s m v
  else if off = 0x28 ∨ off = 0x2C then (if fuOwner s m then accept (s.softWrite a v) else refuse s)
  else if off = 0x40 then fprogWrite s m v
  else accept (s.softWrite a v)

/-- A read of a loader or reset register. -/
def ldrRead (s : State) (off : Nat) : State × Resp :=
  if 0x1000 ≤ off then rstRead s off else accept s (s.rd (LDR_DEVID + off))

/-- A supply warning while an operation runs: no further flash command, RES becomes ABORTED (R379). -/
def fuWarn (s : State) : State := if fuBusy s && fuWarned s then fuRes s 2 else s

end Sys2Proof.Machine
end

