-- ==== Sys2Proof/Machine/Events.lean ====
section
/-! DEFINITION. The event fabric (R100 to R107) and start groups (R71 to R74): what the pulses of a cycle do at every listener when
the cycle ends, what a start does to its members, and the passing of time through the cycles in which something is due. -/

namespace Sys2Proof.Machine

/-- The register space of the cells. -/
def inCells (a : Nat) : Bool := decide (0x30000000 ≤ a) && decide (a < 0x30100000)

/-- The cell a cell-register address lies in. -/
def cellOfAddr (a : Nat) : Nat := (a - 0x30000000) / 0x1000

/-- The cell's group can act: powered and out of reset (R102). -/
def cellLive (s : State) (c : Nat) : Bool := !inReset s (blkGrp (c / 16)) && !domOff s (9 + c / 16)

/-- The cells whose CELL_SGRP names start group `g` as members. -/
def groupMembers (s : State) (g : Nat) : List Nat :=
  ((s.listed (fun a => inCells a && a % 0x1000 == 0x14)).filter (fun e => bitAt e.2 8 && fld e.2 4 0 == g)).map
    (fun e => cellOfAddr e.1)

/-- What a start does to one member at the end of cycle n + 1 (Table 3.4): in start mode RESTART at IDX; in both modes SGS and a
divider restart; nothing where a CELL_CTRL command completes at the member in that cycle (R74). -/
def startMember (s : State) (c : Nat) : State :=
  if cellLive s c = false ∨ s.cycles < (s.cell c).cmdAt then s
  else
    let w := s.rd (CELL_SGRP c)
    let s := if bitAt w 9 then s else restartCell s c (fld w 22 16)
    dividerRestart (s.setCell c { s.cell c with sgs := true }) c

/-- A tick of cell `c` in this cycle is lost to a start in start mode whose restart effects fall in it (Table 3.4). -/
def startHolds (s : State) (c : Nat) : Bool :=
  let w := s.rd (CELL_SGRP c)
  bitAt w 8 && !bitAt w 9 && s.agenda.contains { at_ := s.cycles, what := .members (fld w 4 0) }

/-- A start of group `g` whose start cycle is this one (R72): all its sources make one start, counted once; the members act in the
next cycle. -/
def groupStart (s : State) (g : Nat) : State :=
  if s.agenda.contains { at_ := s.cycles + 1, what := .members g } then s
  else (s.wrapInc (EVF_SGCNT g) 15 0).plan (s.cycles + 1) (.members g)

/-- Starts whose start cycle is this one. -/
def startGroups (s : State) (l : List Nat) : State := l.foldl groupStart s

/-- The start groups that listen on channel `ch` (R71). -/
def groupsOn (s : State) (ch : Nat) : List Nat :=
  (List.range 32).filter (fun g => s.bt (EVF_SGCFG g) 15 && s.fl (EVF_SGCFG g) 5 0 == ch)

/-- The listen slots of a CELL_EVLSN word enabled on channel `ch`. -/
def slotsOn (w : Word) (ch : Nat) : List Nat :=
  (List.range 4).filter (fun k => bitAt w (8 * k + 7) && fld w (8 * k + 5) (8 * k) == ch)

/-- The direct response of one pin to a pulse on the slots listed, at the end of the pulse's cycle (R106, R107). -/
def directResponse (s : State) (c : Nat) (pinB : Bool) (slots : List Nat) : State :=
  let p := if pinB then 16 else 0
  let w := evfNow s (EVF_DRSP c)
  if bitAt w (p + 11) && slots.contains (fld w (p + 5) (p + 4)) &&
      (!bitAt w (p + 10) || s.bt (CELL_FLAGS c) (fld w (p + 9) (p + 8))) then
    pinAct s c pinB (fld w (p + 2) p)
  else s

/-- A pulse at one cell: listen latches, then the direct responses of both pins (R102, R106, R107). -/
def cellListen (s : State) (c ch : Nat) : State :=
  if cellLive s c = false then s
  else
    let slots := slotsOn (s.rd (CELL_EVLSN c)) ch
    let s := slots.foldl (fun s k => s.setBt (CELL_EVLSN c) (8 * k + 6) true) s
    directResponse (directResponse s c false slots) c true slots

/-- The cells with a slot enabled on channel `ch`. -/
def cellsOn (s : State) (ch : Nat) : List Nat :=
  ((s.listed (fun a => inCells a && a % 0x1000 == 0x40)).filter (fun e => !(slotsOn e.2 ch).isEmpty)).map
    (fun e => cellOfAddr e.1)

/-- The CAN controllers whose listen port takes channel `ch`. -/
def cansOn (s : State) (ch : Nat) : List Nat :=
  (List.range 32).filter (fun n => s.bt (CAN_EVCFG n) 15 && s.fl (CAN_EVCFG n) 13 8 == ch)

/-- The Huxon sequencers whose cycle-start port takes channel `ch` (R236). -/
def hxsOn (s : State) (ch : Nat) : List Nat :=
  (List.range 32).filter (fun n => s.bt (HX_EVCFG n) 15 && s.fl (HX_EVCFG n) 13 8 == ch && !inReset s (blkHx n))

/-! ## The end of a cycle -/

/-- The channels of the pulses in the stages. -/
def fabChans (now : List DueK) : List Nat :=
  (now.filterMap (fun k => match k with | .loc ch _ => some ch | .glob ch _ => some ch | _ => none)).dedup

/-- The channels in the global stage: after merging, each once (R100). -/
def globChans (now : List DueK) : List Nat := (now.filterMap (fun k => match k with | .glob ch _ => some ch | _ => none)).dedup

/-- A pulse of channel `ch` is present at the cells of group `g`: in its local stage, or in the global stage from elsewhere (R101). -/
def presentAt (now : List DueK) (ch g : Nat) : Bool :=
  now.any (fun k => match k with
    | .loc ch' g' => ch' == ch && g' == g
    | .glob ch' src => ch' == ch && src != some g
    | _ => false)

/-- The pulses of a cycle at the cells (R102, R106), as its end. -/
def fabCells (s : State) (now : List DueK) : State :=
  (fabChans now).foldl (fun s ch =>
    ((cellsOn s ch).filter (fun c => presentAt now ch (c / 16))).foldl (fun s c => cellInput s c (fun s => cellListen s c ch)) s) s

/-- A pulse in the global stage at its end: counted, captured, and taken by the crossings to the CAN controllers and the
converters (R102, Table 5.8, Table 8.1). -/
def fabGlobal (s : State) (ch : Nat) : State :=
  let s := tuListen (s.wrapInc (EVF_CHCNT ch) 15 0) ch
  let s := (cansOn s ch).foldl (fun s n => s.plan (crossAt s canPeriod s.cycles) (.can n)) s
  (adcsOn s ch).foldl (fun s x => s.plan (crossAt s perPeriod s.cycles) (.adc x)) s

/-- The members whose start cycle was the one before act (Table 3.4). -/
def dueMembers (s : State) : DueK → State
  | .members g => (groupMembers s g).foldl (fun s c => cellInput s c (fun s => startMember s c)) s
  | _ => s

/-- What a global-stage pulse starts in the cycle after it: start groups, and Huxon cycles (R72, R102). -/
def fabNext (s : State) (ch : Nat) : State := (hxsOn s ch).foldl hxPulse (startGroups s (groupsOn s ch))

/-- A crossing lets its pulse through (R102): all held act once. A CLK_32K edge takes a LOAD of the RTC (R416). -/
def dueCross (s : State) : DueK → State
  | .can n => canListen s n
  | .adc x => adcStart s x
  | .rtc => rtcLoadNow s
  | _ => s

/-- The end of this cycle and the begin of the next, with all that is due. -/
def cycleEnd (s : State) : State :=
  let now := (s.agenda.filter (fun d => decide (d.at_ ≤ s.cycles))).map (·.what)
  let s : State := { s with agenda := s.agenda.filter (fun d => decide (s.cycles < d.at_)) }
  let s := fabCells (now.foldl dueMembers s) now
  let s := tick ((globChans now).foldl fabGlobal s) 1
  (globChans now).foldl fabNext (now.foldl dueCross s)

/-- `dt` cycles pass, through the end of each in which something is due; `fuel` bounds how many of those there are: an item makes
at most three more cycles due. -/
def passTo (s : State) (dt : Nat) : Nat → State
  | 0 => tick s dt
  | fuel + 1 =>
    match s.agenda with
    | [] => tick s dt
    | d :: _ =>
      let k := d.at_ - s.cycles
      if dt ≤ k then tick s dt else passTo (cycleEnd (tick s k)) (dt - k - 1) fuel

/-- `dt` CLK_CELL cycles pass (R172): the fabric moves on, and new shifter widths come into force. -/
def pass (s : State) (dt : Nat) : State := widthsDue (passTo s dt (4 * s.agenda.length + 1))

/-- `dt` CLK_CELL cycles pass before an event: what is due on the way happens, Huxon frames in transmission end, and the sequencers
fetch and drive on (R172, R226, R244). -/
def elapse (s : State) (dt : Nat) : State := hxMove (hxComplete (pass s dt))

/-- The channels whose bits are set in a word, from `base` (Table 5.9). -/
def bitsFrom (v : Word) (base : Nat) : List Nat := ((List.range 32).filter (fun i => bitAt v i)).map (· + base)

/-- The direct sources of cell `c` that an edge of the logical level of a pin meets (R103): the channels driven. -/
def directSources (s : State) (c : Nat) (pinB rise : Bool) : List Nat :=
  (List.range 4).flatMap (fun k =>
    let src := fld (evfNow s (EVF_DSRC c)) (4 * k + 2) (4 * k)
    let sel := if pinB then src - 3 else src
    if (if pinB then decide (4 ≤ src) && decide (src ≤ 6) else decide (1 ≤ src) && decide (src ≤ 3)) &&
        (sel == 3 || (sel == 1) == rise) then driveSlot s c k else [])

/-- A new logical level of a pin at the second synchroniser stage, and the direct sources that see the edge (R103). -/
def directEdge (s : State) (c : Nat) (pinB rise : Bool) : State :=
  pulsesCell (s.setBt (CELL_PINS c) (if pinB then 1 else 0) rise) (c / 16) (directSources s c pinB rise)

end Sys2Proof.Machine
end

