-- ==== Sys2Proof/Machine/Triggers.lean ====
section
/-! DEFINITION. What a firing trigger does at its target (R187, R190), and the hand-over of export frames (R216). -/

namespace Sys2Proof.Machine

/-- Handing assembled export frames to the switch, the first `n`: each is counted as sent (R216). -/
def handOver (s : State) : Nat → State
  | 0 => s
  | n + 1 =>
    match s.xpend with
    | [] => s
    | f :: r => handOver (exportSend (State.wrapInc { s with xpend := r } IMG_CNT_EXP 15 0) f) n

/-- The effect of a firing on its target (Table 8.5). `busy`: the port of a launch is sending; `ready`: export frames handed
over at once after a commit; `bad`: points whose
data memory cannot be corrected in its assembly. -/
def fireTarget (s : State) (i t : Nat) (busy : Bool) (ready : Nat) (bad : List Nat) : State :=
  let w := s.rd (TU_TRG_CTRL i)
  let x := fld w 15 0
  match fld w 27 24 with
  | 0 => pulsesNow s [x % 64]
  | 1 => if s.bt (EVF_SGCFG (x % 32)) 14 then startGroups s [x % 32] else s
  | 2 => s.plan (crossAt s perPeriod s.cycles) (.adc (x % 2))
  | 3 => s.raise TU_CYCSTAT (BitVec.ofNat 32 (2 ^ (x % 16)))
  | 4 => imgSample s t
  | 5 => handOver (imgCommit s bad) ready
  | 6 =>
    match launchFire s (x % 128) busy with
    | (s, true) => s
    | (s, false) => (s.raise (TU_TRG_STAT i) 0x2).raise TU_IRQSTAT 0x1
  | _ => s

/-- The entry after its firing: FIRES, and EN clears or the period is added (R187). -/
def fireNext (s : State) (i : Nat) : State :=
  let s := s.wrapInc (TU_TRG_STAT i) 31 16
  if s.bt (TU_TRG_CTRL i) 30 then setTrgTime s i (trgTime s i + trgPer s i) else s.setBt (TU_TRG_CTRL i) 31 false

/-- TRIGGER_FIRE: an enabled entry whose time has come fires (R187). -/
def fire (s : State) (i : Nat) (busy : Bool) (ready : Nat) (bad : List Nat) : State :=
  if inReset s blkTu ∨ trgOn s i = false ∨ trgReached s i = false then s
  else
    let t := trgTime s i
    fireTarget (fireNext s i) i t busy ready bad

end Sys2Proof.Machine
end

