-- ==== Sys2Proof/Machine/Bus.lean ====
section
/-! DEFINITION. The interconnect: the address map, admission, the order of error tests, and what an access does at its target
(R6, R16, R18 to R22, R439). -/

namespace Sys2Proof.Machine

/-- Where an address in the pair-local window of a pair's own lies in the windows of both (Table 1.3). -/
def ownWindow (m a : Nat) : Nat := 0x40810000 + (if m = 10 then 0x10000 else 0) + a % 0x10000

/-- The block behind whose wrapper the region sits (R401); the L2 only follows its domain (Table 18.9). -/
def regionBlk (m : Nat) : Region → Nat
  | .aon | .rram => blkAon
  | .scratch n | .pe n | .chk n => n
  | .imgWin | .img => blkImg
  | .cell c => blkGrp (c / 16)
  | .shd g => blkGrp g
  | .evf => blkEvf
  | .can n => blkCan n
  | .tu => blkTu
  | .sw => 26
  | .hx n => blkHx n
  | .hb | .ob => 27
  | .plOwn => m - 1
  | .pl p => 8 + p
  | _ => blkCore

/-- The target cannot take the access: its domain is off or it is in reset (R11, R401); debug reaches the pair-local windows while
LOADER alone holds the pair (R336). -/
def shut (s : State) (m : Nat) (r : Region) : Bool :=
  match r with
  | .l2 => domOff s 8
  | .pl p => closed s m (8 + p) && !(m == 31 && onlyLoader s (8 + p) && !domOff s 8)
  | _ => closed s m (regionBlk m r)

/-! ## Targets -/

/-- The pair `m` does not hold the token, so its writes to cells and events are masked (R345). -/
def maskedPair (s : State) (m : Nat) : Bool := (m == 9 || m == 10) && holder s + 8 != m

/-- A masked write, counted (R345). -/
def maskCount (s : State) (m : Nat) : State := if m = 9 then s.satInc ARB_MASK 15 0 else s.satInc ARB_MASK 31 16

/-- The enable cell of a Huxon pair: the cell below it in its group has the same MODE (R75). -/
def enableCell (s : State) (c : Nat) : Bool :=
  c % 16 != 0 && s.fl (CELL_MODE c) 1 0 == 2 && s.rd (CELL_MODE (c - 1)) == s.rd (CELL_MODE c)

/-- The drive of a bound unit between frames (R77, Table 3.5): pin A at 1, or at 0 for a driver enable; pin B not driven. -/
def unitDrive (s : State) (c : Nat) : State :=
  if inPass s c then
    setOd (setOd (setDrive (setDrive s c false (!enableCell s c) true) c true false false) c false false) c true false
  else s

/-- A write of CELL_MODE (R76, R77, R80): the unit's drive, or the last of it, stands at the pins; the shadow cell drops a cell that becomes a pass-through, or finds one eligible (R109, R112). -/
def cellModeSet (s : State) (c : Nat) (v : Word) : State :=
  let s := unitDrive (s.softWrite (CELL_MODE c) v) c
  let s := if c % 16 = 15 then s else unitDrive s (c + 1)
  if fld v 1 0 = 0 then shdWake s (c / 16)
  else if shdCur s (c / 16) = c % 16 then shdNoVerdict s (c / 16) else s

/-- A write of CELL_PINCFG: a new INV turns the logical level, which the direct-source detector sees as an edge (R48, R103). -/
def pinCfgSet (s : State) (c : Nat) (v : Word) : State :=
  let t := cellPlainWrite s c 0x44 v
  let edge (t : State) (pinB : Bool) : State :=
    if pinInv s c pinB = pinInv t c pinB then t else directEdge t c pinB (t.bt (CELL_PINS c) (if pinB then 1 else 0))
  edge (edge t false) true

/-- A write of a cell register (R57 to R67, R76, R81). -/
def cellWrite (s : State) (c off : Nat) (v : Word) : State × Resp :=
  if cellRefuses s c off v then refuse s
  else if off = 0 then
    accept (cellCommand s c (fld v 3 0) (fld v 22 16))
  else if off = 0x08 then accept (cellModeSet s c v)
  else if off = 0x44 then accept (pinCfgSet s c v)
  else if off = 0x20 then
    match txAppend s c v with
    | some s => accept s
    | none => refuse (s.raise (CELL_FIFOSTAT c) 0x1000000)
  else accept (cellPlainWrite s c off v)

/-- A read of a cell register (Tables 2.16 to 2.35). -/
def cellRead (s : State) (c off : Nat) : State × Resp :=
  if off = 0x24 then
    if fifoClosed s true c then refuse s
    else
      match rxTake s c with
      | some (w, s) => accept s (w.setWidth 32)
      | none => refuse (s.raise (CELL_FIFOSTAT c) 0x2000000)
  else accept (s.readClear (0x30000000 + c * 0x1000 + off)) (cellReadWord s c off)

/-- An access `f` to a register of cell `c` that completes there: it reaches Sg as well while Sg compares with the cell (R111). -/
def cellAccess (s : State) (c : Nat) (f : State → State × Resp) : State × Resp :=
  let r := f s
  match r.2 with
  | .ok _ => (shdCheck (mirrorOn s r.1 c (fun s => (f s).1)) c, r.2)
  | _ => r

/-- A write of EVF_DSRC or EVF_DRSP of cell `c`: it takes effect from the next cycle (R105), at Sg too (R111). -/
def dirWrite (s : State) (a : Nat) (v : Word) : State :=
  let c := (a - 0x30201000) / 8
  let old := evfNow s a
  mirror { s with evfWas := (s.cycles + 1, a, old) } c (fun s => s.softWrite a v)

/-- A write of an event-fabric register (R71, R84, R101, R105). -/
def evfWrite (s : State) (off : Nat) (v : Word) : State × Resp :=
  let a := 0x30200000 + off
  if off = 0x100 then accept (pulsesNow s (bitsFrom v 0))
  else if off = 0x104 then accept (pulsesNow s (bitsFrom v 32))
  else if off = 0x8080 then accept (startGroups s (bitsFrom v 0))
  else if 0x1000 ≤ off ∧ off < 0x1800 ∧ off % 8 = 0 ∧ (List.range 4).any (fun k => fld v (4 * k + 2) (4 * k) == 7) then refuse s
  else if 0x1000 ≤ off ∧ off < 0x1800 then accept (dirWrite s a v)
  else if 0x9000 ≤ off then dmaWrite s ((off - 0x9000) / 0x20) (off % 0x20) v
  else accept (s.softWrite a v)

/-- A write of a register of the memory block: mailboxes, locks, ownership, diagnostics (R331, R448). -/
def memRegWrite (s : State) (m off : Nat) (v : Word) : State × Resp :=
  if 0xC000 ≤ off then dgWrite s m (off - 0xC000) v
  else
    match mbxWrite s m off v with
    | (s, .ok d) => (if 0x8000 ≤ off ∧ off < 0x8080 then bistOwner s ((off - 0x8000) / 4) else s, .ok d)
    | r => r

/-- A cell block: every write of a pair without the token is masked before the cell examines it (R345). -/
def maskedCell : Region → Bool
  | .cell _ => true
  | _ => false

/-- The writes that are masked where R345 says so. -/
def maskedTarget (r : Region) (off : Nat) : Bool :=
  match r with
  | .cell _ => true
  | .evf => off == 0x100 || off == 0x104 || off == 0x8080 || (decide (0x1000 ≤ off) && decide (off < 0x1800))
  | _ => false

/-- A register write at its target. -/
def targetWrite (s : State) (m a : Nat) (r : Region) (v : Word) : State × Resp :=
  if maskedPair s m && maskedTarget r (match r with | .cell _ => a % 0x1000 | _ => a % 0x10000) then accept (maskCount s m)
  else
    match r with
    | .aon => aonWrite s m (a % 0x1000) v
    | .pe n => peWrite s n (a % 0x1000) v
    | .img => imgWrite s m (a % 0x1000) v
    | .cell c => cellAccess s c (fun s => cellWrite s c (a % 0x1000) v)
    | .shd g =>
      match shdWrite s m g (a % 0x1000) v with
      | (s, none) => accept (shdWake s g)
      | (s, some _) => refuse s
    | .evf => evfWrite s (a % 0x10000) v
    | .can n => canWrite s n (a % 0x1000) v
    | .tu => tuWrite s (a % 0x40000) v
    | .sw => swWrite s (a % 0x400000) v
    | .mbx => memRegWrite s m (a % 0x10000) v
    | .chk n =>
      if chkRefuses (a % 0x1000) v false false true then refuse s
      else accept (chkWrite s (0x35000000 + n * 0x1000) (a % 0x1000) v none)
    | .hx n => hxWrite s n (a % 0x1000) v
    | .pmu => pmuWrite s m (a % 0x10000) v
    | .ldr => ldrWrite s m (a % 0x10000) v
    | .arb => arbWrite s m (a % 0x10000) v
    | .hb => if a % 0x10000 < 0x8000 then hbWrite s (a % 0x10000) v else slotWrite s m (a % 0x10000) v
    | .plOwn => plWrite s (m - 9) (a % 0x10000) v
    | .pl p => plWrite s p (a % 0x10000) v
    | _ => refuse s

/-- A register read at its target. -/
def targetRead (s : State) (m a : Nat) (r : Region) : State × Resp :=
  match r with
  | .aon => aonRead s m (a % 0x1000)
  | .pe n => peRead s n (a % 0x1000)
  | .img => imgRead s m (a % 0x1000)
  | .cell c => cellAccess s c (fun s => cellRead s c (a % 0x1000))
  | .can n => accept (s.readClear a) (canReadWord s n (a % 0x1000))
  | .tu => tuRead s m (a % 0x40000)
  | .sw => accept (s.readClear a) (swReadWord s (a % 0x400000))
  | .mbx => if 0xC000 ≤ a % 0x10000 then dgRead s (a % 0x10000 - 0xC000) else mbxRead s m (a % 0x10000)
  | .hx n => accept (s.readClear a) (hxReadWord s n (a % 0x1000))
  | .pmu => pmuRead s (a % 0x10000)
  | .ldr => ldrRead s (a % 0x10000)
  | .arb => accept (s.readClear a) (arbReadWord s (a % 0x10000))
  | .hb =>
    if a % 0x10000 < 0x8000 then hbRead s (a % 0x10000)
    else accept (s.readClear a) (slotReadWord s (a % 0x10000))
  | .plOwn => plRead s (m - 9) (a % 0x10000)
  | .pl p => plRead s p (a % 0x10000)
  | _ => accept (s.readClear a) (s.rd a)

/-- A word of the retained RAM: a read that finds bad parity gets an error response (R418). -/
def rramAcc (s : State) (a n : Nat) (x : Option Nat) (u : Upset) : State × Resp :=
  let w := a / 4 * 4
  let bad := decide (u ≠ .good) || decide (smGet .good s.ecc w ≠ .good)
  match x with
  | none =>
    if bad then
      let s : State := { s with ecc := smSet .good s.ecc w .double }
      ((s.satInc AON_STAT 7 0).raise AON_IRQSTAT 0x8, .err 5)
    else
      let r := rawAcc s a n none
      accept r.1 (BitVec.ofNat 32 r.2)
  | some _ =>
    let r := rawAcc s a n x
    accept { r.1 with ecc := smSet .good r.1.ecc w .good }

/-- A memory access at its target, of `n` aligned bytes. -/
def targetMem (s : State) (m a n : Nat) (r : Region) (x : Option Nat) (u : Upset) (ctx : Option Nat) : State × Resp :=
  match r, x with
  | .rom, none => let f := s.free; accept f.2 (BitVec.ofNat 32 (f.1.toNat % 2 ^ (8 * n)))
  | .rram, _ => rramAcc s a n x u
  | .scratch e, _ =>
    match scratchAcc s e a n x u with
    | (s, some v) => accept s (BitVec.ofNat 32 v)
    | (s, none) => (s, .err 5)
  | .shared, _ =>
    match sharedAcc s m a n x u with
    | (s, .inl v) => accept s (BitVec.ofNat 32 v)
    | (s, .inr c) => (s, .err c)
  | .imgWin, none =>
    match u with
    | .double => if (pointRead s ((a - 0x24000000) / 64) (bitAt (s.mrd m IMG_VIEW) 0)).isNone then refuse s
        else (dgEcc s 1 ((a - 0x24000000) / 8) .double, .err 5)
    | _ => imgWindowRead (dgEcc s 1 ((a - 0x24000000) / 8) u) m (a - 0x24000000) n
  | .imgWin, some _ => refuse (imgRefuse s)
  | .l2, _ =>
    match localAcc s a n x u with
    | (s, .double, _) => (dgEcc s 0 ((a - 0x40000000) / 8) .double, .err 5)
    | (s, e, v) => accept (dgEcc s 0 ((a - 0x40000000) / 8) e) (BitVec.ofNat 32 v)
  | .flash, none =>
    if (s.rd LDR_FLASHCAP).toNat < a - 0x60000000 + n then refuse s
    else accept s (BitVec.ofNat 32 (leNat (flashBytes s (a - 0x60000000) n)))
  | .ob, _ => obAcc s m a n x ctx
  | _, _ => refuse s

/-! ## The access (R16, R439) -/

/-- An error response: logged with the first cause that applies. -/
def busFail (s : State) (m a : Nat) (wr : Bool) (c : Nat) : State × Resp := (logErr s m a wr c, .err c)

/-- The value of a write access, as its bytes; none for a read. -/
def accVal (n : Nat) : Acc → Option Nat
  | .rd => none
  | .wr v => some (v.toNat % 2 ^ (8 * n))

/-- The master can issue accesses: an ID of Table 0.4, debug while it is usable, and no reset of PD_CORE (R10, R380). -/
def canIssue (s : State) (m : Nat) : Bool :=
  !wideReset s && (decide (1 ≤ m) && decide (m ≤ 16) || (m == 31 && dbgUsable s))

/-- The protected tables that registers show: the MEM_DGECC unit and the index of the word (Table 20.2; DEDUCED, log entry 30). -/
def tableWord (a : Nat) : Option (Nat × Nat) :=
  if 0x30000000 ≤ a ∧ a < 0x30100000 ∧ 0x800 ≤ a % 0x1000 then some (5, (a - 0x30000000) / 0x1000 * 256 + a % 0x800 / 8)
  else if 0x33100000 ≤ a ∧ a < 0x33400000 then some (4, (a - 0x33000000) / 4)
  else none

/-- A register read that meets a table error is corrected, or gets an error response (R441). -/
def tableRead (s : State) (a : Nat) (u : Upset) : State × Bool :=
  match tableWord a with
  | some (unit, i) => (dgEcc s unit i u, decide (u = .double))
  | none => (s, false)

/-- One access of master `m`: the tests of R439 in order, then the target. `u` is what the check bits of a memory word show;
`ctx` the context a load is for. The address of a memory access is aligned to its size (R312). -/
def busAccFor (s : State) (m a : Nat) (sz : Size) (x : Acc) (u : Upset) (ctx : Option Nat) : State × Resp :=
  let wr := x != .rd
  if canIssue s m = false then (s, .none)
  else
    match regionOf a with
    | none => busFail s m a wr 0
    | some r =>
      let ra := if r = .plOwn then ownWindow m a else a
      if wr ∧ maskedCell r ∧ maskedPair s m ∧ shut s m r = false then accept (maskCount s m)
      else if r.isMem = false ∧ regDesc (ra / 4 * 4) = none then busFail s m a wr 0
      else if admits m r = false then busFail s m a wr 1
      else if r.isMem = false ∧ (sz ≠ .w ∨ a % 4 ≠ 0) then busFail s m a wr 2
      else if shut s m r then busFail s m a wr 6
      else
        let t :=
          if r.isMem then targetMem s m (a / sz.bytes * sz.bytes) sz.bytes r (accVal sz.bytes x) u ctx
          else match x with
            | .wr v => targetWrite s m a r (if (routeKind ra).isSome then routeClean v else v)
            | .rd =>
              match tableRead s a u with
              | (s, true) => (s, .err 5)
              | (s, false) => targetRead s m a r
        match t with
        | (s, .err c) => busFail s m a wr c
        | t => t

/-- One access of master 11 for the host, of a word or a part: what the check bits of a memory show is free (DESIGN CHOICE, log entry
92). -/
def hostAcc (s : State) (a : Nat) (sz : Size) (x : Acc) : State × Resp :=
  match regionOf a with
  | some .shared => let u := seenUpset s; busAccFor u.1 11 a sz x u.2 none
  | _ => busAccFor s 11 a sz x .good none

/-- One access of master `m`. -/
def busAcc (s : State) (m a : Nat) (sz : Size) (x : Acc) (u : Upset) : State × Resp := busAccFor s m a sz x u none

/-- A word write. -/
def busWrite (s : State) (m a : Nat) (v : Word) : State × Resp := busAcc s m a .w (.wr v) .good

/-- A word read. -/
def busRead (s : State) (m a : Nat) : State × Resp := busAcc s m a .w .rd .good

end Sys2Proof.Machine
end

