-- ==== Sys2Proof/Machine/Fpu.lean ====
section
/-! DEFINITION. The floating-point operations of R335: IEEE 754-2019 binary64, worked exactly on natural numbers and rounded
once. A result is its bits with its flags: NV 16, DZ 8, OF 4, UF 2, NX 1. -/

namespace Sys2Proof.Machine

/-- A binary format: precision p with the hidden bit, exponent field width, and its lowest normal exponent. -/
structure Fmt where
  p : Nat
  w : Nat
deriving DecidableEq, Repr

/-- binary64 and binary32. -/
def f64 : Fmt := ⟨53, 11⟩
/-- binary32. -/
def f32 : Fmt := ⟨24, 8⟩

/-- The bias, which is also the largest exponent. -/
def Fmt.bias (f : Fmt) : Nat := 2 ^ (f.w - 1) - 1
/-- The bits of infinity. -/
def Fmt.inf (f : Fmt) : Nat := (2 ^ f.w - 1) * 2 ^ (f.p - 1)
/-- The default NaN (R335 gives that of binary64; PRESUMED, log entry 25). -/
def Fmt.nan (f : Fmt) : Nat := f.inf + 2 ^ (f.p - 2)
/-- The sign bit's weight. -/
def Fmt.sgn (f : Fmt) : Nat := 2 ^ (f.w + f.p - 1)

/-- Sign of a datum. -/
def fSign (f : Fmt) (x : Nat) : Bool := x / f.sgn % 2 == 1
/-- A datum without its sign. -/
def fMag (f : Fmt) (x : Nat) : Nat := x % f.sgn
/-- NaN, signalling NaN, infinity, zero. -/
def isNan (f : Fmt) (x : Nat) : Bool := decide (f.inf < fMag f x)
/-- A signalling NaN. -/
def isSnan (f : Fmt) (x : Nat) : Bool := isNan f x && x / 2 ^ (f.p - 2) % 2 == 0
/-- An infinity. -/
def isInf (f : Fmt) (x : Nat) : Bool := fMag f x == f.inf
/-- A zero. -/
def isZero (f : Fmt) (x : Nat) : Bool := fMag f x == 0

/-- Significand and exponent of a finite datum: its magnitude is m * 2^e. -/
def fParts (f : Fmt) (x : Nat) : Nat × Int :=
  let e := fMag f x / 2 ^ (f.p - 1)
  let m := x % 2 ^ (f.p - 1)
  if e = 0 then (m, 2 - (f.bias : Int) - f.p) else (m + 2 ^ (f.p - 1), (e : Int) + 1 - f.bias - f.p)

/-- The sign put on bits. -/
def withSign (f : Fmt) (s : Bool) (x : Nat) : Nat := x + s.toNat * f.sgn

/-- Rounding of m + (a tail) at bit `k`: the quotient as the mode rounds it, and whether it is inexact. Modes: 0 nearest
even, 1 toward zero, 2 downward, 3 upward (R335). -/
def roundAt (rm : Nat) (neg : Bool) (m k : Nat) (tail : Bool) : Nat × Bool :=
  let q := m / 2 ^ k
  let r := m % 2 ^ k
  let inexact := r != 0 || tail
  let half := 2 ^ k / 2
  let up := if rm = 0 then decide (half < r) || (r == half && k != 0 && (tail || q % 2 == 1))
    else if rm = 1 then false
    else inexact && (neg == (rm == 2))
  (if up then q + 1 else q, inexact)

/-- The magnitude (m + tail) * 2^e rounded into a format, with the IEEE default results and flags. With a tail, m has at
least two bits more than the format. -/
def fRound (f : Fmt) (rm : Nat) (neg : Bool) (m : Nat) (e : Int) (tail : Bool) : Nat × Nat :=
  if m = 0 then (withSign f neg 0, 0)
  else
    let top : Int := Nat.log2 m + e
    let emin : Int := 1 - f.bias
    let ulp : Int := max top emin - (f.p - 1)
    let (m', k) := if ulp < e then (m * 2 ^ (e - ulp).toNat, 0) else (m, (ulp - e).toNat)
    let (q, inexact) := roundAt rm neg m' k tail
    let body := if q < 2 ^ (f.p - 1) then q else ((ulp + f.p - 1 + f.bias).toNat - 1) * 2 ^ (f.p - 1) + q
    let free := (top - (f.p - 1) - e).toNat
    let carried := decide (2 ^ f.p ≤ (roundAt rm neg m free tail).1) && decide (e ≤ top - (f.p - 1))
    let tiny := if Config.tinyBefore then decide (top < emin) else decide (top + carried.toNat < emin)
    if f.inf ≤ body then
      let toInf := rm = 0 ∨ (rm = 2 ∧ neg) ∨ (rm = 3 ∧ ¬ neg)
      (withSign f neg (if toInf then f.inf else f.inf - 1), 4 + 1)
    else (withSign f neg body, (if inexact then 1 else 0) + (if inexact && tiny then 2 else 0))

/-- The result of an operation with a NaN operand (PRESUMED, log entry 25). -/
def nanResult (f : Fmt) (a b : Nat) : Nat × Nat := (f.nan, if isSnan f a || isSnan f b then 16 else 0)

/-- An invalid operation. -/
def invalid (f : Fmt) : Nat × Nat := (f.nan, 16)

/-- The signed value of a finite datum at exponent `e`. -/
def atExp (f : Fmt) (x : Nat) (e : Int) : Int :=
  let p := fParts f x
  let v : Int := (p.1 * 2 ^ (p.2 - e).toNat : Nat)
  if fSign f x then -v else v

/-- FADD. -/
def fAdd (rm a b : Nat) : Nat × Nat :=
  let f := f64
  if isNan f a || isNan f b then nanResult f a b
  else if isInf f a && isInf f b then (if fSign f a = fSign f b then (a, 0) else invalid f)
  else if isInf f a then (a, 0)
  else if isInf f b then (b, 0)
  else
    let e := min (fParts f a).2 (fParts f b).2
    let v := atExp f a e + atExp f b e
    if v = 0 then
      (if isZero f a && isZero f b && fSign f a == fSign f b then a else withSign f (rm == 2) 0, 0)
    else fRound f rm (decide (v < 0)) v.natAbs e false

/-- FNEG and FABS. -/
def fNeg (a : Nat) : Nat := if fSign f64 a then a - f64.sgn else a + f64.sgn
/-- FABS. -/
def fAbs (a : Nat) : Nat := fMag f64 a

/-- FSUB. -/
def fSub (rm a b : Nat) : Nat × Nat := if isNan f64 b then nanResult f64 a b else fAdd rm a (fNeg b)

/-- FMUL. -/
def fMul (rm a b : Nat) : Nat × Nat :=
  let f := f64
  let neg := fSign f a != fSign f b
  if isNan f a || isNan f b then nanResult f a b
  else if (isInf f a && isZero f b) || (isZero f a && isInf f b) then invalid f
  else if isInf f a || isInf f b then (withSign f neg f.inf, 0)
  else fRound f rm neg ((fParts f a).1 * (fParts f b).1) ((fParts f a).2 + (fParts f b).2) false

/-- FDIV. -/
def fDiv (rm a b : Nat) : Nat × Nat :=
  let f := f64
  let neg := fSign f a != fSign f b
  if isNan f a || isNan f b then nanResult f a b
  else if (isInf f a && isInf f b) || (isZero f a && isZero f b) then invalid f
  else if isInf f a then (withSign f neg f.inf, 0)
  else if isInf f b || isZero f a then (withSign f neg 0, 0)
  else if isZero f b then (withSign f neg f.inf, 8)
  else
    let n := (fParts f a).1 * 2 ^ 120
    let d := (fParts f b).1
    fRound f rm neg (n / d) ((fParts f a).2 - (fParts f b).2 - 120) (n % d != 0)

/-- The integer square root by binary digits: `k` digits more. -/
def isqrt : Nat → Nat → Nat
  | 0, _ => 0
  | k + 1, n =>
    let r := 2 * isqrt k (n / 4)
    if (r + 1) * (r + 1) ≤ n then r + 1 else r

/-- FSQRT. -/
def fSqrt (rm a : Nat) : Nat × Nat :=
  let f := f64
  if isNan f a then nanResult f a a
  else if isZero f a then (a, 0)
  else if fSign f a then invalid f
  else if isInf f a then (a, 0)
  else
    let p := fParts f a
    let odd := p.2 % 2 != 0
    let m := (if odd then 2 * p.1 else p.1) * 4 ^ 60
    let e := (if odd then p.2 - 1 else p.2) / 2 - 60
    let r := isqrt 100 m
    fRound f rm false r e (r * r != m)

/-- a < b of two data that are no NaN. -/
def fLtNum (a b : Nat) : Bool :=
  let f := f64
  if isZero f a && isZero f b then false
  else match fSign f a, fSign f b with
    | true, false => true
    | false, true => false
    | false, false => decide (fMag f a < fMag f b)
    | true, true => decide (fMag f b < fMag f a)

/-- FMIN, and FMAX with `max`: minimumNumber and maximumNumber, with -0 below +0. -/
def fMinMax (max : Bool) (a b : Nat) : Nat × Nat :=
  let f := f64
  let fl := if isSnan f a || isSnan f b then 16 else 0
  if isNan f a && isNan f b then (f.nan, fl)
  else if isNan f a then (b, fl)
  else if isNan f b then (a, fl)
  else
    let less := fLtNum a b || (isZero f a && isZero f b && fSign f a && !fSign f b)
    (if less != max then a else b, fl)

/-- FEQ, FLT and FLE: the result and flags. -/
def fEq (a b : Nat) : Bool × Nat :=
  if isNan f64 a || isNan f64 b then (false, if isSnan f64 a || isSnan f64 b then 16 else 0)
  else (a == b || (isZero f64 a && isZero f64 b), 0)
/-- FLT. -/
def fLt (a b : Nat) : Bool × Nat := if isNan f64 a || isNan f64 b then (false, 16) else (fLtNum a b, 0)
/-- FLE. -/
def fLe (a b : Nat) : Bool × Nat := if isNan f64 a || isNan f64 b then (false, 16) else (!fLtNum b a, 0)

/-- FCVTDW: exact. -/
def fOfInt (i : Int) : Nat := (fRound f64 0 (decide (i < 0)) i.natAbs 0 false).1

/-- FCVTWD: the saturated integer, NV, and whether it is inexact. -/
def fToInt (a : Nat) : Int × Bool × Bool :=
  let f := f64
  if isNan f a then (0, true, false)
  else
    let p := fParts f a
    let m := if isInf f a then 2 ^ 40 else if 0 ≤ p.2 then p.1 * 2 ^ p.2.toNat else p.1 / 2 ^ (-p.2).toNat
    let exact := isInf f a || decide (0 ≤ p.2) || p.1 % 2 ^ (-p.2).toNat == 0
    let v : Int := if fSign f a then -(m : Int) else m
    if v < -2147483648 then (-2147483648, true, false)
    else if 2147483647 < v then (2147483647, true, false)
    else (v, false, !exact)

/-- A datum of one format in another, rounded. -/
def fConvert (f g : Fmt) (rm a : Nat) : Nat × Nat :=
  if isNan f a then (g.nan, if isSnan f a then 16 else 0)
  else if isInf f a then (withSign g (fSign f a) g.inf, 0)
  else fRound g rm (fSign f a) (fParts f a).1 (fParts f a).2 false

end Sys2Proof.Machine
end

