-- ==== Sys2Proof/Machine/Operands.lean ====
section
/-! DEFINITION. Jaedin instruction words: fields, formats, decoding with every reserved encoding refused, and the results of
register operations (R127 to R130, R139, R140, R142, R335, Tables 6.4 to 6.7, 6.9, 15.1). -/

namespace Sys2Proof.Machine

/-- The instructions of Tables 6.5 to 6.7, 6.9 and 15.1, by mnemonic. -/
inductive JMn where
  | add | sub | and_ | or_ | xor_ | nor | sll | srl | sra | ror | slt | sltu | min_ | max_ | minu | maxu | mul | mulhu | mulh
  | clz | popc | bswap | brev | slli | srli | srai | rori | extu | exts | ins
  | addi | andi | ori | xori | slti | sltiu | lui
  | lw | lh | lhu | lb | lbu | sw | sh | sb | push | pop
  | beq | bne | blt | bge | bltu | bgeu | j | call | jr | callr | ret
  | fence | wait | tret | trap | csrr | csrw | halt
  | crx | crxw | ctx | ctxw | cstat | crd | cwr
  | ckf1 | ckf2 | ckf4 | ckinit | ckend | ckres | ckst | ckrd | ckwr
  | tsnap | tsecl | tsech | tsub | twait | trd | twr
  | iget | irb | iwb | iput | istn | ists | irts | iepo
  | msend | mtag | mrecv | mstat | lkacq | lkrel | x7
  | fadd | fsub | fmul | fdiv | fsqrt | fmin | fmax | fneg | fabs | feq | flt | fle | fcvtdw | fcvtwd | fcvtds | fcvtsd
  | fld | fst
deriving DecidableEq, Repr

/-! ## Fields (Table 6.4) -/

/-- The major opcode. -/
def jOp (w : Word) : Nat := fld w 31 26
/-- RD; RA of a branch. -/
def jRd (w : Word) : Nat := fld w 25 21
/-- RA; RB of a branch. -/
def jRa (w : Word) : Nat := fld w 20 16
/-- RB. -/
def jRb (w : Word) : Nat := fld w 15 11
/-- FN. -/
def jFn (w : Word) : Nat := fld w 10 0
/-- FN4. -/
def jFn4 (w : Word) : Nat := fld w 15 12
/-- IMM12. -/
def jImm12 (w : Word) : Nat := fld w 11 0
/-- IMM16 as an unsigned number. -/
def jImmU (w : Word) : Nat := fld w 15 0
/-- IMM16 sign-extended. -/
def jImm (w : Word) : Word := wordOfInt (sext 16 (jImmU w))
/-- The address `p` + 4 * OFF16. -/
def jTo16 (w : Word) (p : Nat) : Nat := (BitVec.ofNat 32 p + wordOfInt (4 * sext 16 (jImmU w))).toNat
/-- The address `p` + 4 * OFF26. -/
def jTo26 (w : Word) (p : Nat) : Nat := (BitVec.ofNat 32 p + wordOfInt (4 * sext 26 (fld w 25 0))).toNat

/-! ## Decoding -/

/-- The entry of a list of functions. -/
def jNth (l : List JMn) (n : Nat) : Option JMn := l[n]?

/-- An instruction that is admitted only under a condition on its fields. -/
def jIf (b : Bool) (m : Option JMn) : Option JMn := if b then m else none

/-- Opcode 0x00 (Table 6.6). -/
def jDecodeAlu (w : Word) : Option JMn :=
  jIf (decide (jFn w < 0x13) || jRb w == 0)
    (jNth [.add, .sub, .and_, .or_, .xor_, .nor, .sll, .srl, .sra, .ror, .slt, .sltu, .min_, .max_, .minu, .maxu, .mul, .mulhu,
      .mulh, .clz, .popc, .bswap, .brev] (jFn w))

/-- Opcode 0x2C (Table 6.7); CSRR and CSRW name a register up to 16, or 17 on a pair (R156). -/
def jDecodeSys (pair : Bool) (w : Word) : Option JMn :=
  let z := jRd w == 0 && jRa w == 0
  let n := decide (jRb w ≤ 16 + pair.toNat)
  match jFn w with
  | 0 => jIf (z && jRb w == 0) (some .fence)
  | 1 => jIf (z && jRb w == 0) (some .wait)
  | 2 => jIf (z && jRb w == 0) (some .tret)
  | 3 => jIf z (some .trap)
  | 4 => jIf (jRa w == 0 && n) (some .csrr)
  | 5 => jIf (jRd w == 0 && n) (some .csrw)
  | 6 => jIf (z && jRb w == 0) (some .halt)
  | _ => none

/-- Opcodes 0x38 to 0x3F (Table 6.9, R140, R142). -/
def jDecodeCp (w : Word) : Option JMn :=
  let f := jFn4 w
  let i := jImm12 w
  match jOp w with
  | 0x38 => jIf (if f ≤ 4 then decide (i < 256) else i % 4 == 0) (jNth [.crx, .crxw, .ctx, .ctxw, .cstat, .crd, .cwr] f)
  | 0x39 => jIf (if f ≤ 6 then i == 0 else i % 4 == 0 && decide (0x100 ≤ i) && decide (i ≤ 0x13C))
      (jNth [.ckf1, .ckf2, .ckf4, .ckinit, .ckend, .ckres, .ckst, .ckrd, .ckwr] f)
  | 0x3A => jIf (if f = 0 then decide (i < 4) else decide (5 ≤ f) || i == 0) (jNth [.tsnap, .tsecl, .tsech, .tsub, .twait, .trd, .twr] f)
  | 0x3B => jIf (decide (f ≠ 0) || decide (i < 2)) (jNth [.iget, .irb, .iwb, .iput, .istn, .ists, .irts, .iepo] f)
  | 0x3C => jIf (decide (i < if f ≤ 3 then 64 else 32)) (jNth [.msend, .mtag, .mrecv, .mstat, .lkacq, .lkrel] f)
  | 0x3F => jIf (decide (i < 2)) (some .x7)
  | _ => none

/-- Opcode 0x2D on a pair (Table 15.1). -/
def jDecodeFpu (w : Word) : Option JMn :=
  let f := jFn w
  jIf (!([4, 7, 8] ++ [0xC, 0xD, 0xE, 0xF]).contains f || jRb w == 0)
    (jNth [.fadd, .fsub, .fmul, .fdiv, .fsqrt, .fmin, .fmax, .fneg, .fabs, .feq, .flt, .fle, .fcvtdw, .fcvtwd, .fcvtds, .fcvtsd] f)

/-- The instruction of a word on an engine, or on a pair; none: a reserved encoding (R128, R334). -/
def jDecode (pair : Bool) (w : Word) : Option JMn :=
  match jOp w with
  | 0x00 => jDecodeAlu w
  | 0x01 => jNth [.slli, .srli, .srai, .rori] (jFn w)
  | 0x02 => jIf (decide (jRb w + fld w 10 6 + 1 ≤ 32)) (jNth [.extu, .exts, .ins] (fld w 5 0))
  | 0x04 => some .addi
  | 0x05 => some .andi
  | 0x06 => some .ori
  | 0x07 => some .xori
  | 0x08 => some .slti
  | 0x09 => some .sltiu
  | 0x0A => jIf (jRa w == 0) (some .lui)
  | 0x10 => some .lw
  | 0x11 => some .lh
  | 0x12 => some .lhu
  | 0x13 => some .lb
  | 0x14 => some .lbu
  | 0x15 => some .sw
  | 0x16 => some .sh
  | 0x17 => some .sb
  | 0x18 => jIf (fld w 20 0 == 0) (some .push)
  | 0x19 => jIf (fld w 20 0 == 0) (some .pop)
  | 0x1C => some .beq
  | 0x1D => some .bne
  | 0x1E => some .blt
  | 0x1F => some .bge
  | 0x20 => some .bltu
  | 0x21 => some .bgeu
  | 0x24 => some .j
  | 0x25 => some .call
  | 0x26 => jIf (jRd w == 0 && fld w 15 0 == 0) (some .jr)
  | 0x27 => jIf (jRd w == 0 && fld w 15 0 == 0) (some .callr)
  | 0x28 => jIf (fld w 25 0 == 0) (some .ret)
  | 0x2C => jDecodeSys pair w
  | 0x2D => jIf pair (jDecodeFpu w)
  | 0x2E => jIf pair (some .fld)
  | 0x2F => jIf pair (some .fst)
  | _ => jIf (!pair) (jDecodeCp w)

/-- A control transfer (R131). -/
def JMn.transfer : JMn → Bool
  | .beq | .bne | .blt | .bge | .bltu | .bgeu | .j | .call | .jr | .callr | .ret => true
  | _ => false

/-- A SYS instruction (Table 6.7). -/
def JMn.sys : JMn → Bool
  | .fence | .wait | .tret | .trap | .csrr | .csrw | .halt => true
  | _ => false

/-! ## Register operations (Tables 6.5 and 6.6) -/

/-- A condition as 1 or 0. -/
def bit01 (b : Bool) : Word := if b then 1 else 0

/-- Leading zeros. -/
def clz32 (a : Word) : Nat := if a.toNat = 0 then 32 else 31 - Nat.log2 a.toNat

/-- Ones. -/
def popc32 (a : Word) : Nat := ((List.range 32).filter (bitAt a)).length

/-- The four bytes reversed. -/
def bswap32 (a : Word) : Word := BitVec.ofNat 32 (leNat (leBytes 4 a.toNat).reverse)

/-- The 32 bits reversed. -/
def brev32 (a : Word) : Word := BitVec.ofNat 32 ((List.range 32).foldl (fun n i => n + if bitAt a i then 2 ^ (31 - i) else 0) 0)

/-- RD ← RA op RB, by opcode 0x00; none for another instruction. -/
def aluRR (m : JMn) (a b : Word) : Option Word :=
  match m with
  | .add => some (a + b)
  | .sub => some (a - b)
  | .and_ => some (a &&& b)
  | .or_ => some (a ||| b)
  | .xor_ => some (a ^^^ b)
  | .nor => some (~~~(a ||| b))
  | .sll => some (a <<< (b.toNat % 32))
  | .srl => some (a >>> (b.toNat % 32))
  | .sra => some (a.sshiftRight (b.toNat % 32))
  | .ror => some (a.rotateRight (b.toNat % 32))
  | .slt => some (bit01 (a.slt b))
  | .sltu => some (bit01 (a.ult b))
  | .min_ => some (if a.slt b then a else b)
  | .max_ => some (if a.slt b then b else a)
  | .minu => some (if a.ult b then a else b)
  | .maxu => some (if a.ult b then b else a)
  | .mul => some (a * b)
  | .mulhu => some (BitVec.ofNat 32 (a.toNat * b.toNat / 2 ^ 32))
  | .mulh => some (wordOfInt (a.toInt * b.toInt / 2 ^ 32))
  | .clz => some (BitVec.ofNat 32 (clz32 a))
  | .popc => some (BitVec.ofNat 32 (popc32 a))
  | .bswap => some (bswap32 a)
  | .brev => some (brev32 a)
  | _ => none

/-- RD ← RA op immediate, by opcodes 0x01, 0x02 and 0x04 to 0x0A; `d` is RD before. -/
def aluRI (m : JMn) (w : Word) (a d : Word) : Option Word :=
  let sh := jRb w
  let n := fld w 10 6 + 1
  let x := a.toNat / 2 ^ sh % 2 ^ n
  match m with
  | .slli => some (a <<< sh)
  | .srli => some (a >>> sh)
  | .srai => some (a.sshiftRight sh)
  | .rori => some (a.rotateRight sh)
  | .extu => some (BitVec.ofNat 32 x)
  | .exts => some (wordOfInt (sext n x))
  | .ins => some (setFld d (sh + n - 1) sh a.toNat)
  | .addi => some (a + jImm w)
  | .andi => some (a &&& BitVec.ofNat 32 (jImmU w))
  | .ori => some (a ||| BitVec.ofNat 32 (jImmU w))
  | .xori => some (a ^^^ BitVec.ofNat 32 (jImmU w))
  | .slti => some (bit01 (a.slt (jImm w)))
  | .sltiu => some (bit01 (a.ult (jImm w)))
  | .lui => some (BitVec.ofNat 32 (jImmU w * 2 ^ 16))
  | _ => none

/-- Whether a branch is taken; none for another instruction. -/
def jTaken (m : JMn) (a b : Word) : Option Bool :=
  match m with
  | .beq => some (a == b)
  | .bne => some (a != b)
  | .blt => some (a.slt b)
  | .bge => some (!a.slt b)
  | .bltu => some (a.ult b)
  | .bgeu => some (!a.ult b)
  | _ => none

/-- Bytes, sign extension of a load (Table 6.5). -/
def jLoad : JMn → Option (Nat × Bool)
  | .lw => some (4, false)
  | .lh => some (2, true)
  | .lhu => some (2, false)
  | .lb => some (1, true)
  | .lbu => some (1, false)
  | _ => none

/-- Bytes of a store. -/
def jStore : JMn → Option Nat
  | .sw => some 4
  | .sh => some 2
  | .sb => some 1
  | _ => none

end Sys2Proof.Machine
end

