-- ==== Sys2Proof/Machine/Flags.lean ====
section
/-! DEFINITION. The FPU registers and FCSR of a pair, and what each FPU operation writes with the flags it sets (R335). -/

namespace Sys2Proof.Machine

/-- FPU register `i` of the pair with context key `k`. -/
def getF (s : State) (k i : Nat) : Nat := (smGet 0 s.fpr (32 * (k - 64) + i)).toNat

/-- Writing it. -/
def setF (s : State) (k i v : Nat) : State := { s with fpr := smSet 0 s.fpr (32 * (k - 64) + i) (BitVec.ofNat 64 v) }

/-- The rounding mode, FCSR[6:5]. -/
def fRm (s : State) (k : Nat) : Nat := s.fl (ctxReg k 17) 6 5

/-- The sticky flags FCSR[4:0]: NV 16, DZ 8, OF 4, UF 2, NX 1. -/
def fFlags (s : State) (k fl : Nat) : State := s.raise (ctxReg k 17) (BitVec.ofNat 32 (fl % 32))

/-- Operations that write an FPU register: the result and its flags (Table 15.1). -/
def fpuF (m : JMn) (rm a b g : Nat) : Option (Nat × Nat) :=
  match m with
  | .fadd => some (fAdd rm a b)
  | .fsub => some (fSub rm a b)
  | .fmul => some (fMul rm a b)
  | .fdiv => some (fDiv rm a b)
  | .fsqrt => some (fSqrt rm a)
  | .fmin => some (fMinMax false a b)
  | .fmax => some (fMinMax true a b)
  | .fneg => some (fNeg a, 0)
  | .fabs => some (fAbs a, 0)
  | .fcvtdw => some (fOfInt (sext 32 g), 0)
  | .fcvtds => some (fConvert f32 f64 rm g)
  | _ => none

/-- Operations that write a general register; `nx` is the flag NX that FCVTWD gives an inexact result, which the spec
leaves open (PRESUMED, log entry 25). -/
def fpuG (m : JMn) (rm a b : Nat) (nx : Bool) : Option (Word × Nat) :=
  match m with
  | .feq => some (bit01 (fEq a b).1, (fEq a b).2)
  | .flt => some (bit01 (fLt a b).1, (fLt a b).2)
  | .fle => some (bit01 (fLe a b).1, (fLe a b).2)
  | .fcvtwd =>
    let r := fToInt a
    some (wordOfInt r.1, (if r.2.1 then 16 else 0) + (if r.2.2 && nx then 1 else 0))
  | .fcvtsd => some (BitVec.ofNat 32 (fConvert f64 f32 rm a).1, (fConvert f64 f32 rm a).2)
  | _ => none

/-- An operation of opcode 0x2D: its result and its flags; none for another instruction. -/
def fpuOp (s : State) (k : Nat) (m : JMn) (w : Word) : Option State :=
  let a := getF s k (jRa w)
  let b := getF s k (jRb w)
  match fpuF m (fRm s k) a b (getG s k (jRa w)).toNat with
  | some (v, fl) => some (fFlags (setF s k (jRd w) v) k fl)
  | none =>
    let s' : State := if m = .fcvtwd then { s with freeCtr := s.freeCtr + 1 } else s
    match fpuG m (fRm s k) a b (Config.freeBit s.freeCtr) with
    | some (v, fl) => some (fFlags (setG s' k (jRd w) v) k fl)
    | none => none

end Sys2Proof.Machine
end

