-- ==== Sys2Proof/Machine/Engine.lean ====
section
/-! DEFINITION. The issue of Jaedin instructions: fetch, exceptions, loads, posted stores, the return stack, the coprocessors,
waits and single steps (R119 to R154, R333 to R337). -/

namespace Sys2Proof.Machine

/-- What an instruction does: it completes; it transfers control; it raises an exception (code, SUB, TADDR); it blocks its
context; it has set the position itself; its access to `a` waits for earlier ones of the same master (R17). -/
inductive JRes where
  | nxt (s : State)
  | jump (s : State) (dest : Nat)
  | exc (s : State) (code sub : Nat) (ta : Option Nat)
  | hold (s : State)
  | own (s : State)
  | stall (a : Nat)

/-! ## Positions -/

/-- The context goes on after an instruction: to the pending destination, or to the successor (R132, R152). -/
def advance (s : State) (k : Nat) : State :=
  let to_ := (s.ctx k).slot.getD (succOf s k)
  setPC (s.setCtx k { s.ctx k with slot := none, succ := none, blk := .none }) k to_

/-- A control transfer: its slot is next, then `dest` (R132). -/
def transferTo (s : State) (k dest : Nat) : State :=
  let to_ := succOf s k
  setPC (s.setCtx k { s.ctx k with slot := some dest, succ := none, blk := .none }) k to_

/-- An exception of the instruction at the position of the context (R133, R148). -/
def excHere (s : State) (k code sub : Nat) (ta : Option Nat) : State :=
  takeExc s k code (ctxPC s k) (posNext s k) (s.ctx k).slot.isSome sub ta

/-- ISSUED counts an instruction (Table 6.19). An exception found at issue takes its place (R147). -/
def countIssue (s : State) (k : Nat) : State := s.wr (ctxReg k 14) (s.rd (ctxReg k 14) + 1)

/-- Exceptions found before the instruction issues. -/
def atIssue (code : Nat) : Bool := [1, 2, 3, 4, 8, 9, 10].contains code

/-! ## The order of accesses (R17) -/

/-- An access of the context's master to the block of `a`, issued before number `n`, is outstanding: a posted store, or an access
that blocks a context. -/
def outstanding (s : State) (k a n : Nat) : Bool :=
  (stageOf k).any (fun j =>
    let h := s.ctx j
    h.posted.any (fun p => sameBlock p.addr a && decide (p.seq < n)) ||
      (decide (h.seq < n) && (match h.blk with
        | .load b _ _ _ _ _ => sameBlock b a
        | .acc _ b => sameBlock b a
        | .x7 c _ true => sameBlock (CELL_RXDATA c) a
        | _ => false)))

/-- The place in the order of the access that the context makes: that of the one that blocks it, else the next. -/
def accSeq (s : State) (k : Nat) : Nat :=
  match (s.ctx k).blk with
  | .load .. | .acc .. | .x7 _ _ true => (s.ctx k).seq
  | _ => s.issueNo

/-- An access of the context to `a` must wait for earlier ones (R17, R125). -/
def behind (s : State) (k a : Nat) : Bool := outstanding s k a (accSeq s k)

/-- The context is blocked by an access it has issued. -/
def blockOn (s : State) (k : Nat) (b : Blk) : State :=
  { s.setCtx k { s.ctx k with blk := b, seq := accSeq s k } with issueNo := max s.issueNo (accSeq s k + 1) }

/-! ## Protection and caches of a pair (R336, R337) -/

/-- The lowest-numbered enabled region that contains an address. -/
def regionFor (s : State) (p a : Nat) : Option Nat :=
  (List.range 32).find? (fun r => s.bt (rgn p r 8) 4 && decide (s.fl (rgn p r 0) 31 12 * 4096 ≤ a) &&
    decide (a < (s.fl (rgn p r 4) 31 12 + 1) * 4096))

/-- A context may access the address with permission `bit` of RATTR: 3 read, 2 write, 1 execute. Engines have no protection
unit. -/
def protOk (s : State) (k a bit : Nat) : Bool :=
  onEngine k || (match regionFor s (k - 64) a with | some r => s.bt (rgn (k - 64) r 8) bit | none => false)

/-- An address a pair may cache. -/
def cacheable (s : State) (k a : Nat) : Bool :=
  !onEngine k && (match regionFor s (k - 64) a with | some r => s.bt (rgn (k - 64) r 8) 0 | none => false)

/-- The key of a cached word. -/
def cacheKey (k a : Nat) : Nat := (k - 64) * 2 ^ 32 + a / 4 * 4

/-- A copy a cache may still hold: whether it does is free, since the spec gives no replacement (DESIGN CHOICE, log entry 26). -/
def cachedCopy (s : State) (c : SMap Word) (k a : Nat) : State × Option Word :=
  if cacheable s k a then
    match smFind c (cacheKey k a) with
    | none => (s, none)
    | some w => ({ s with freeCtr := s.freeCtr + 1 }, if Config.freeBit s.freeCtr then some w else none)
  else (s, none)

/-- The words of pair `k` among cached copies. -/
def cachedOf (k : Nat) (c : SMap Word) : List (Nat × Word) := c.filter (fun e => e.1 / 2 ^ 32 == k - 64)

/-- A word taken into a cache of 32 KiB: where all 8192 words are held, one of them, which one is free, makes room (R333; DESIGN
CHOICE, log entry 26). -/
def cacheAdd (s : State) (c : SMap Word) (k a : Nat) (w : Word) : State × SMap Word :=
  let mine := cachedOf k c
  if (smFind c (cacheKey k a)).isSome ∨ mine.length < 8192 then (s, smInsert c (cacheKey k a) w)
  else
    let out := (mine.getD ((Config.freeWord s.freeCtr).toNat % mine.length) (0, 0)).1
    ({ s with freeCtr := s.freeCtr + 1 }, smInsert (smErase c out) (cacheKey k a) w)

/-- A word of a load kept in the data cache, where its region is cacheable. -/
def dcacheAdd (s : State) (k a : Nat) (w : Word) : State :=
  if cacheable s k a then
    let r := cacheAdd s s.dcache k a w
    { r.1 with dcache := r.2 }
  else s

/-- A word of a fetch kept in the instruction cache. -/
def icacheAdd (s : State) (k a : Nat) (w : Word) : State :=
  if cacheable s k a then
    let r := cacheAdd s s.icache k a w
    { r.1 with icache := r.2 }
  else s

/-- A word whose low bytes at `o` are replaced. -/
def patchWord (w : Word) (o n v : Nat) : Word := setFld w (8 * (o + n) - 1) (8 * o) v

/-- A store's update of a cached copy (R337). -/
def dcachePatch (s : State) (k a n v : Nat) : State :=
  if onEngine k then s
  else match smFind s.dcache (cacheKey k a) with
    | none => s
    | some w => { s with dcache := smInsert s.dcache (cacheKey k a) (patchWord w (a % 4) n v) }

/-- The same for a store of up to 8 bytes. -/
def dcacheStore (s : State) (k a n v : Nat) : State :=
  if n = 8 then dcachePatch (dcachePatch s k a 4 v) k (a + 4) 4 (v / 2 ^ 32) else dcachePatch s k a n v

/-! ## Fetch (R123, R124, R126, R131) -/

/-- A word of an engine's instruction scratchpad as a fetch may return it: an old word before a FENCE (R126). -/
def staleFetch (s : State) (a : Nat) (w : Word) : State × Word :=
  match s.stale.filter (fun e => e.1 == a) with
  | [] => (s, w)
  | l =>
    let n := (Config.freeWord s.freeCtr).toNat % (l.length + 1)
    ({ s with freeCtr := s.freeCtr + 1 }, ((l.map (fun e => e.2.1)) ++ [w]).getD n w)

/-- The instruction word at the PC, or the exception of the fetch with TADDR; none while the fetch waits for earlier accesses of the
pair (R17). -/
def jFetch (s : State) (k : Nat) (f : Upset) : State × Option (Word ⊕ Nat) :=
  let a := ctxPC s k
  if onEngine k then
    if a % 4 ≠ 0 ∨ a < (codeRange k).1 ∨ (codeRange k).2 ≤ a then (s, some (.inr 3))
    else
      match scratchAcc s (k / 8) a 4 none f with
      | (s, none) => (s, some (.inr 7))
      | (s, some v) =>
        let r := staleFetch s a (BitVec.ofNat 32 v)
        (r.1, some (.inl r.2))
  else if a % 4 ≠ 0 then (s, some (.inr 3))
  else if protOk s k a 1 = false then (s, some (.inr 15))
  else if regionOf a = some .ob then (s, some (.inr 3))
  else
    match cachedCopy s s.icache k a with
    | (s, some w) => (s, some (.inl w))
    | (s, none) =>
      if behind s k a then (s, none)
      else
        match busAcc s (ctxMaster k) a .w .rd f with
        | (s, .ok w) => (icacheAdd s k a w, some (.inl w))
        | (s, _) => (s, some (.inr 3))

/-- The exception of a fetch: IFETCH of a target has RNEXT = RPC + 4 (R131). -/
def excFetch (s : State) (k code : Nat) : State :=
  let a := ctxPC s k
  if code = 3 ∧ (s.ctx k).slot.isNone then takeExc s k 3 a (a + 4) false 0 (some a) else excHere s k code 0 (some a)

/-! ## Accesses -/

/-- The tests of R439 before an access of 8 aligned bytes of a pair (R335): the region, or the response. A register is accessed as
one aligned 32-bit word only (R6). -/
def busTest8 (s : State) (m a : Nat) (wr : Bool) : (State × Resp) ⊕ Region :=
  if canIssue s m = false then .inl (s, .none)
  else
    match regionOf a with
    | none => .inl (busFail s m a wr 0)
    | some r =>
      let ra := if r = .plOwn then ownWindow m a else a
      if r.isMem = false ∧ regDesc (ra / 4 * 4) = none then .inl (busFail s m a wr 0)
      else if admits m r = false then .inl (busFail s m a wr 1)
      else if r.isMem = false then .inl (busFail s m a wr 2)
      else if shut s m r then .inl (busFail s m a wr 6)
      else .inr r

/-- An access of 8 aligned bytes by a pair that returns no data: a store, or a read of the outbound window. -/
def busAcc8 (s : State) (m a : Nat) (x : Option Nat) (ctx : Option Nat) : State × Resp :=
  match busTest8 s m a x.isSome with
  | .inl r => r
  | .inr r =>
    match targetMem s m a 8 r x .good ctx with
    | (s, .err c) => busFail s m a x.isSome c
    | t => t

/-- A read of 8 aligned bytes at its target, one access of one 64-bit word (R312, R315); the memories of 32-bit words give two. -/
def targetRead8 (s : State) (m a : Nat) (r : Region) (u : Upset) : State × (Nat ⊕ Nat) :=
  match r with
  | .shared => let t := sharedAcc s m a 8 none u; (t.1, match t.2 with | .inl v => .inl v | .inr c => .inr c)
  | .l2 =>
    match localAcc s a 8 none u with
    | (s, .double, _) => (dgEcc s 0 ((a - 0x40000000) / 8) .double, .inr 5)
    | (s, e, v) => (dgEcc s 0 ((a - 0x40000000) / 8) e, .inl v)
  | _ =>
    match targetMem s m a 4 r none u none with
    | (s, .ok lo) =>
      match targetMem s m (a + 4) 4 r none .good none with
      | (s, .ok hi) => (s, .inl (lo.toNat + 2 ^ 32 * hi.toNat))
      | (s, .err c) => (s, .inr c)
      | (s, .none) => (s, .inr 3)
    | (s, .err c) => (s, .inr c)
    | (s, .none) => (s, .inr 3)

/-- A read of 8 aligned bytes by a pair. -/
def busRead8 (s : State) (m a : Nat) (u : Upset) : State × Option Nat :=
  match busTest8 s m a false with
  | .inl r => (r.1, none)
  | .inr r =>
    match targetRead8 s m a r u with
    | (s, .inl v) => (s, some v)
    | (s, .inr c) => ((busFail s m a false c).1, none)

/-- The size of an access of `n` bytes. -/
def sizeOf_ (n : Nat) : Size := if n = 1 then .b else if n = 2 then .h else .w

/-- A store by the context at its target. -/
def storeAcc (s : State) (k a n v : Nat) (u : Upset) : State × Resp :=
  if n = 8 then busAcc8 s (ctxMaster k) a (some v) none
  else busAcc s (ctxMaster k) a (sizeOf_ n) (.wr (BitVec.ofNat 32 v)) u

/-- A load by the context at its target: the value, or the cause of the error response. The words of a cacheable region are
kept (R337). -/
def loadAcc (s : State) (k a n : Nat) (u : Upset) : State × Option Nat :=
  if n = 8 then
    match busRead8 s (ctxMaster k) a u with
    | (s, some v) => (dcacheAdd (dcacheAdd s k a (BitVec.ofNat 32 v)) k (a + 4) (BitVec.ofNat 32 (v / 2 ^ 32)), some v)
    | r => r
  else if cacheable s k a then
    match busAcc s (ctxMaster k) (a / 4 * 4) .w .rd u with
    | (s, .ok w) => (dcacheAdd s k a w, some (w.toNat / 2 ^ (8 * (a % 4)) % 2 ^ (8 * n)))
    | (s, _) => (s, none)
  else
    match busAcc s (ctxMaster k) a (sizeOf_ n) .rd u with
    | (s, .ok w) => (s, some w.toNat)
    | (s, _) => (s, none)

/-- Own scratchpad of an engine's context (R123). -/
def ownScratch (k a : Nat) : Bool := onEngine k && inScratch (k / 8) a

/-- The value of a load in its destination register, and the instruction done (R129, R136, R335). -/
def loadWrite (s : State) (k v n rd : Nat) (sign pop fpu : Bool) : State :=
  if fpu then setF s k rd v
  else
    let s := if pop then setG s k 29 (getG s k 29 + 4) else s
    setG s k rd (if sign then wordOfInt (sext (8 * n) v) else BitVec.ofNat 32 v)

/-- All 8 or fewer bytes of a load from the data cache, where it holds them (R334). -/
def dcacheHit (s : State) (k a n : Nat) : State × Option Nat :=
  let o := a % 4
  match cachedCopy s s.dcache k a with
  | (s, none) => (s, none)
  | (s, some w) =>
    if n = 8 then
      match cachedCopy s s.dcache k (a + 4) with
      | (s, none) => (s, none)
      | (s, some h) => (s, some (w.toNat + 2 ^ 32 * h.toNat))
    else (s, some (w.toNat / 2 ^ (8 * o) % 2 ^ (8 * n)))

/-- A load of `n` aligned bytes: own scratchpad and data-cache hits at once, others through the interconnect (R123 to R125,
R334). -/
def jLoadAt (s : State) (k a n rd : Nat) (sign pop fpu : Bool) (u : Upset) : JRes :=
  if ownScratch k a then
    match scratchAcc s (k / 8) a n none u with
    | (s, none) => .exc s 7 0 (some a)
    | (s, some v) => .nxt (loadWrite s k v n rd sign pop fpu)
  else if protOk s k a 3 = false then .exc s 15 0 (some a)
  else if regionOf a = some .ob then
    if behind s k a then .stall a
    else
      let r := if n = 8 then busAcc8 s (ctxMaster k) a none (some k)
        else busAccFor s (ctxMaster k) a (sizeOf_ n) .rd .good (some k)
      .hold (blockOn r.1 k (.load a n rd sign pop fpu))
  else
    match dcacheHit s k a n with
    | (s, some v) => .nxt (loadWrite s k v n rd sign pop fpu)
    | (s, none) => .hold (blockOn s k (.load a n rd sign pop fpu))

/-- An engine's store into its own scratchpad: ECC on a word that cannot be corrected (R124); the instruction scratchpad keeps
the old word for fetch until a FENCE (R126): of an undefined word, the free value it has. -/
def ownStore (s : State) (k a n v : Nat) (u : Upset) : State × Bool :=
  let w := a / 4 * 4
  let old := (s.settleWord (a / 8 * 8)).mem32 w
  match scratchAcc s (k / 8) a n (some v) u with
  | (s, none) => (s, false)
  | (s, some _) => (if w < (codeRange k).2 then { s with stale := s.stale ++ [(w, old, k)] } else s, true)

/-- A store of `n` aligned bytes (R125). `push`: g29 goes to the address when the store has issued (R136). -/
def jStoreAt (s : State) (k a n v : Nat) (push : Bool) (u : Upset) : JRes :=
  let down (s : State) : State := if push then setG s k 29 (BitVec.ofNat 32 a) else s
  if ownScratch k a then
    match ownStore s k a n v u with
    | (s, true) => .nxt (down s)
    | (s, false) => .exc s 7 0 (some a)
  else if protOk s k a 2 = false then .exc s 15 0 (some a)
  else if 4 ≤ (postedOf s k).length then .hold (s.setCtx k { s.ctx k with blk := .store a n v push })
  else
    let s := dcacheStore s k a n v
    let p : PostE := { addr := a, size := n, val := v, seq := s.issueNo, cyc := cpuNow s (ctxBlk k) }
    .nxt (down { s.setCtx k { s.ctx k with posted := (s.ctx k).posted ++ [p] } with issueNo := s.issueNo + 1 })

/-! ## The return stack (R137, R138) -/

/-- RSPTR, RSBASE and RSLIMIT. -/
def rsPtr (s : State) (k : Nat) : Nat := (s.rd (ctxReg k 10)).toNat
/-- RSBASE. -/
def rsBase (s : State) (k : Nat) : Nat := (s.rd (ctxReg k 8)).toNat
/-- RSLIMIT. -/
def rsLimit (s : State) (k : Nat) : Nat := (s.rd (ctxReg k 9)).toNat
/-- Setting RSPTR. -/
def setRsPtr (s : State) (k a : Nat) : State := s.wr (ctxReg k 10) (BitVec.ofNat 32 a)

/-- The address of the first spill word a pair's protection unit forbids. -/
def spillProt (s : State) (k a bit : Nat) : Option Nat :=
  ((List.range 8).map (fun i => a + 4 * i)).find? (fun x => !protOk s k x bit)

/-- Two words of a spill. -/
def spillPair (k : Nat) (s : State) (e : Nat × Word × Word) : State :=
  let v := e.2.1.toNat + 2 ^ 32 * e.2.2.toNat
  if onEngine k then (scratchAcc s (k / 8) e.1 8 (some v) .good).1
  else (busAcc8 (dcacheStore s k e.1 8 v) (ctxMaster k) e.1 (some v) none).1

/-- Eight return addresses, oldest first, written at `a`. -/
def spill (s : State) (k a : Nat) (l : List Word) : State :=
  ((List.range 4).map (fun i => (a + 8 * i, l.getD (2 * i) 0, l.getD (2 * i + 1) 0))).foldl (spillPair k) s

/-- A push: RSOVF, PROT, or the stack with its eight oldest entries spilled where it was full. None: it waits for posted
stores to the spill area. -/
def rsPush (s : State) (k : Nat) (v : Word) : Option (State ⊕ (Nat × Nat)) :=
  let l := (s.ctx k).rs
  if l.length < 32 then some (.inl (s.setCtx k { s.ctx k with rs := v :: l }))
  else
    let p := rsPtr s k
    if rsLimit s k < p + 32 ∨ p < (spillRange k).1 ∨ (spillRange k).2 < p + 32 then some (.inr (9, p))
    else
      match spillProt s k p 2 with
      | some x => some (.inr (15, x))
      | none =>
        if !onEngine k && behind s k p then none
        else
          let s := setRsPtr (spill s k p (l.drop 24).reverse) k (p + 32)
          some (.inl (s.setCtx k { s.ctx k with rs := v :: l.take 24 }))

/-- Reading eight spilled words from `a` up: newest first, or the exception and its address. -/
def fillWords (s : State) (k : Nat) : Nat → Nat → List Word → State × (List Word ⊕ (Nat × Nat))
  | 0, _, l => (s, .inl l)
  | n + 1, a, l =>
    if onEngine k then
      match scratchAcc s (k / 8) a 4 none .good with
      | (s, some v) => fillWords s k n (a + 4) (BitVec.ofNat 32 v :: l)
      | (s, none) => (s, .inr (7, a))
    else
      match busRead s (ctxMaster k) a with
      | (s, .ok v) => fillWords s k n (a + 4) (v :: l)
      | (s, _) => (s, .inr (5, a))

/-- A pop: the address and the stack without it, after a fill where none is held on chip. -/
def rsPop (s : State) (k : Nat) : Option (State × (Nat ⊕ (Nat × Nat))) :=
  match (s.ctx k).rs with
  | v :: l => some (s.setCtx k { s.ctx k with rs := l }, .inl v.toNat)
  | [] =>
    let p := rsPtr s k
    if p ≤ rsBase s k ∨ p < 32 then some (s, .inr (10, p))
    else
      match spillProt s k (p - 32) 3 with
      | some x => some (s, .inr (15, x))
      | none =>
        if !onEngine k && behind s k (p - 32) then none
        else
          match fillWords s k 8 (p - 32) [] with
          | (s, .inr e) => some (s, .inr e)
          | (s, .inl l) =>
            let s := setRsPtr s k (p - 32)
            some (s.setCtx k { s.ctx k with rs := l.tail }, .inl (l.headD 0).toNat)

/-- CALL and CALLR: the return address PC + 8 is pushed. -/
def jCall (s : State) (k dest : Nat) : JRes :=
  match rsPush s k (BitVec.ofNat 32 (ctxPC s k + 8)) with
  | none => .stall (rsPtr s k)
  | some (.inl s) => .jump s dest
  | some (.inr (c, a)) => .exc s c 0 (some a)

/-- RET. -/
def jRet (s : State) (k : Nat) : JRes :=
  match rsPop s k with
  | none => .stall (rsPtr s k - 32)
  | some (s, .inl d) => .jump s d
  | some (s, .inr (c, a)) => .exc s c 0 (some a)

/-! ## PUSH and POP (R136) -/

/-- PUSH of a value. -/
def jPush (s : State) (k v : Nat) (u : Upset) : JRes :=
  let g := getG s k 29
  let a := (g - 4).toNat
  if a < (s.rd (ctxReg k 6)).toNat then .exc s 8 0 (some a)
  else if g.toNat % 4 ≠ 0 then .exc s 4 0 (some g.toNat)
  else jStoreAt s k a 4 v true u

/-- POP into a register. -/
def jPop (s : State) (k rd : Nat) (u : Upset) : JRes :=
  let g := getG s k 29
  if (s.rd (ctxReg k 7)).toNat < (g + 4).toNat then .exc s 8 0 (some g.toNat)
  else if g.toNat % 4 ≠ 0 then .exc s 4 0 (some g.toNat)
  else jLoadAt s k g.toNat 4 rd false true false u

/-! ## Coprocessors (R139 to R146) -/

/-- An access of a coprocessor to `a`: it comes after the earlier ones of the engine to the same block (R17). -/
def inOrder (s : State) (k a : Nat) (r : JRes) : JRes := if behind s k a then .stall a else r

/-- The response of a coprocessor access: data into `rd` where one is given, or DBUS with TADDR. -/
def cpDone (k : Nat) (rd : Option Nat) (ta : Nat) : State × Resp → JRes
  | (s, .ok v) => .nxt (match rd with | some r => setG s k r v | none => s)
  | (s, _) => .exc s 5 0 (some ta)

/-- A coprocessor read of the word at an address. -/
def cpRead (s : State) (k a rd : Nat) : JRes := inOrder s k a (cpDone k (some rd) a (busRead s (ctxMaster k) a))

/-- A coprocessor write of the word at an address. -/
def cpWrite (s : State) (k a : Nat) (v : Word) : JRes :=
  inOrder s k a (cpDone k none a (busWrite s (ctxMaster k) a v))

/-- The cell of CP0 FN 0 to 4 (R140). -/
def cp0Cell (s : State) (k : Nat) (w : Word) : Nat := (fld (getG s k (jRa w)) 7 0 + fld w 7 0) % 256

/-- A blocking form must wait: the FIFO's level is all that stands against its access (R141). -/
def fifoWaits (s : State) (k : Nat) (rx : Bool) (c : Nat) : Bool :=
  !closed s (ctxMaster k) (blkGrp (c / 16)) && !fifoClosed s rx c &&
    (if rx then (fifoOf s true c).isEmpty else decide (depth s false c ≤ (fifoOf s false c).length))

/-- The context waits in a blocking form whose access is not issued. -/
def waitFor (s : State) (k : Nat) (w : Word) : JRes := .hold (s.setCtx k { s.ctx k with blk := .wait w })

/-- Whether TB0 has reached the latched seconds and RA nanoseconds (R143). -/
def timeReached (s : State) (k : Nat) (a : Word) : Bool :=
  match (s.ctx k).snap with
  | none => false
  | some (sec, _) => decide (nsOf sec a.toNat ≤ nsOf (s.tb 0).sec (s.tb 0).ns)

/-- The second wait of a CP7 instruction (R146). -/
def x7Take (s : State) (k c rd : Nat) : JRes :=
  if fifoWaits s k true c then .hold (s.setCtx k { s.ctx k with blk := .x7 c rd false })
  else cpRead s k (CELL_RXDATA c) rd

/-- CP7 (R146). -/
def jX7 (s : State) (k : Nat) (w : Word) : JRes :=
  let n := k / 8
  let c := 16 * s.fl (PE_CP7CFG n) 3 0 + jFn4 w
  if s.bt (PE_CP7CFG n) 31 = false then .exc s 12 1 none
  else if fifoWaits s k false c then waitFor s k w
  else
    match cpWrite s k (CELL_TXDATA c) (getG s k (jRa w)) with
    | .nxt s => if jImm12 w % 2 = 1 then x7Take s k c (jRd w) else .nxt s
    | r => r

/-- CP0 (R140, R141). -/
def jCp0 (s : State) (k : Nat) (m : JMn) (w : Word) : JRes :=
  let c := cp0Cell s k w
  let v := getG s k (jRd w)
  let reg := 0x30000000 + fld (getG s k (jRa w)) 7 0 * 0x1000 + jImm12 w
  match m with
  | .crx => cpRead s k (CELL_RXDATA c) (jRd w)
  | .crxw => if fifoWaits s k true c then waitFor s k w else cpRead s k (CELL_RXDATA c) (jRd w)
  | .ctx => cpWrite s k (CELL_TXDATA c) v
  | .ctxw => if fifoWaits s k false c then waitFor s k w else cpWrite s k (CELL_TXDATA c) v
  | .cstat => cpRead s k (CELL_FIFOSTAT c) (jRd w)
  | .crd => cpRead s k reg (jRd w)
  | _ => cpWrite s k reg v

/-- CP1 (R142). -/
def jCp1 (s : State) (k : Nat) (m : JMn) (w : Word) : JRes :=
  let b := 0x35000000 + k / 8 * 0x1000
  let a := getG s k (jRa w)
  match m with
  | .ckf1 => cpWrite s k (CHK_FEED1 b) a
  | .ckf2 => cpWrite s k (CHK_FEED2 b) a
  | .ckf4 => cpWrite s k (CHK_FEED4 b) a
  | .ckinit => cpWrite s k (CHK_CMD b) 1
  | .ckend => cpWrite s k (CHK_CMD b) 2
  | .ckres => cpRead s k (CHK_RESULT b) (jRd w)
  | .ckst => cpRead s k (CHK_STATE b) (jRd w)
  | .ckrd => cpRead s k (b + jImm12 w) (jRd w)
  | _ => cpWrite s k (b + jImm12 w) (getG s k (jRd w))

/-- CP2 (R143). TRD and TWR reach the word at 0x32000000 + RA + IMM12. -/
def jCp2 (s : State) (k : Nat) (m : JMn) (w : Word) : JRes :=
  let a := getG s k (jRa w)
  let t := jImm12 w
  let reg := (0x32000000 + a + BitVec.ofNat 32 t).toNat
  let latched (f : Nat → Nat → Word) : JRes :=
    match (s.ctx k).snap with
    | none => .exc s 12 3 none
    | some (sec, sub) => .nxt (setG s k (jRd w) (f sec sub))
  match m with
  | .tsnap =>
    inOrder s k (TU_TB_NS t) <|
    if closed s (ctxMaster k) blkTu then .exc (logErr s (ctxMaster k) (TU_TB_NS t) false 6) 5 0 (some (TU_TB_NS t))
    else
      let s' := s.setCtx k { s.ctx k with snap := some ((s.tb t).sec, (s.tb t).sub) }
      .nxt (setG s' k (jRd w) (BitVec.ofNat 32 (s.tb t).ns))
  | .tsecl => latched (fun sec _ => BitVec.ofNat 32 sec)
  | .tsech => latched (fun sec _ => BitVec.ofNat 32 (sec / 2 ^ 32))
  | .tsub => latched (fun _ sub => BitVec.ofNat 32 sub)
  | .twait =>
    if 1000000000 ≤ a.toNat then .exc s 12 2 none
    else if (s.ctx k).snap.isNone then .exc s 12 3 none
    else if closed s (ctxMaster k) blkTu then .exc (logErr s (ctxMaster k) (TU_TB_NS 0) false 6) 5 0 (some (TU_TB_NS 0))
    else if timeReached s k a then .nxt s else waitFor s k w
  | .trd =>
    if regionOf reg = some .ob then jLoadAt s k (reg / 4 * 4) 4 (jRd w) false false false .good else cpRead s k reg (jRd w)
  | _ => cpWrite s k reg (getG s k (jRd w))

/-- A refusal of the image store: logged with the address of the point, DBUS with its number (R144, R213). -/
def imgExc (s : State) (k p : Nat) (wr : Bool) (c : Nat) : JRes :=
  .exc (logErr s (ctxMaster k) (0x24000000 + 64 * p) wr c) 5 0 (some p)

/-- IGET (R144, R213); `u` is what the check bits of the point's data show (R441). -/
def jIget (s : State) (k : Nat) (w : Word) (u : Upset) : JRes :=
  let p := fld (getG s k (jRa w)) 15 0
  inOrder s k (0x24000000 + 64 * p) <|
  if closed s (ctxMaster k) blkImg then imgExc s k p false 6
  else
    match pointRead s p (bitAt w 0) with
    | none => imgExc s k p false 3
    | some (c, q) =>
      let s := dgEcc s 1 (8 * p) u
      if u = .double then imgExc s k p false 5
      else
      let words := (List.range 16).map (fun i => BitVec.ofNat 32 (leNat ((List.range 4).map (fun b => slotByte c (4 * i + b)))))
      let s := s.setCtx k { s.ctx k with buf := words, bufNs := c.ns, bufSec := c.sec, bufSub := c.sub }
      .nxt (setG s k (jRd w) (BitVec.ofNat 32 q))

/-- IPUT (R144). -/
def jIput (s : State) (k : Nat) (w : Word) : JRes :=
  let p := fld (getG s k (jRa w)) 15 0
  let h := s.ctx k
  let t := s.tb 0
  let data := (List.range 64).map (fun i => BitVec.ofNat 8 ((h.buf.getD (i / 4) 0).toNat / 2 ^ (8 * (i % 4))))
  let q := fld (getG s k (jRd w)) 15 0
  inOrder s k (0x24000000 + 64 * p) <|
  if closed s (ctxMaster k) blkImg then imgExc s k p true 6
  else
    let sec := if h.bufSet then t.sec / 2 ^ 32 * 2 ^ 32 + h.bufSec % 2 ^ 32 else t.sec
    match imgPut s (ctxMaster k) none p data none q (if h.bufSet then h.bufNs else t.ns) sec (if h.bufSet then h.bufSub else t.sub) with
    | (s, true) => .nxt (s.setCtx k { s.ctx k with bufSet := false })
    | (s, false) => imgExc s k p true 3

/-- The point buffer with one word set. -/
def bufSet_ (l : List Word) (i : Nat) (v : Word) : List Word :=
  (List.range 16).map (fun j => if j = i then v else l.getD j 0)

/-- CP3 (R144). -/
def jCp3 (s : State) (k : Nat) (m : JMn) (w : Word) (u : Upset) : JRes :=
  let h := s.ctx k
  let v := getG s k (jRd w)
  match m with
  | .iget => jIget s k w u
  | .irb => if 15 < jImm12 w then .exc s 12 4 none else .nxt (setG s k (jRd w) (h.buf.getD (jImm12 w) 0))
  | .iwb => if 15 < jImm12 w then .exc s 12 4 none else .nxt (s.setCtx k { h with buf := bufSet_ h.buf (jImm12 w) v })
  | .iput => jIput s k w
  | .istn => .nxt (s.setCtx k { h with bufNs := fld v 29 0, bufSet := true })
  | .ists => .nxt (s.setCtx k { h with bufSec := v.toNat, bufSet := true })
  | .irts => .nxt (setG s k (jRd w) (BitVec.ofNat 32 h.bufNs))
  | _ =>
    inOrder s k IMG_EPOCH_LO <|
    if closed s (ctxMaster k) blkImg then .exc (logErr s (ctxMaster k) IMG_EPOCH_LO false 6) 5 0 (some IMG_EPOCH_LO)
    else .nxt (setG s k (jRd w) (BitVec.ofNat 32 s.imgE))

/-- CP4 (R145). -/
def jCp4 (s : State) (k : Nat) (m : JMn) (w : Word) : JRes :=
  let n := jImm12 w
  match m with
  | .msend =>
    inOrder s k (MBX_PTR n) <|
    match mbxSend s (ctxMaster k) n (getG s k (jRa w)) (fld (getG s k (jRd w)) 15 0) with
    | (s, .ok _) => .nxt s
    | (s, _) => .exc (logErr s (ctxMaster k) (MBX_PTR n) true 3) 5 0 (some (MBX_PTR n))
  | .mtag => cpRead s k (MBX_TAG n) (jRd w)
  | .mrecv => cpRead s k (MBX_PTR n) (jRd w)
  | .mstat => cpRead s k (MBX_STAT n) (jRd w)
  | .lkacq => cpRead s k (MBX_LK n) (jRd w)
  | _ => cpWrite s k (MBX_LK n) 0

/-! ## SYS (Table 6.7) -/

/-- A FENCE that has completed: what the context has stored is what fetch returns (R126). -/
def fenceDone (s : State) (k : Nat) : State := { s with stale := s.stale.filter (fun e => e.2.2 != k) }

/-- SYS WAIT: WAIT, with the PC after it; a context that a STEP runs stays STOPPED and goes to WAIT by RESUME (R120, R151). -/
def jWait (s : State) (k : Nat) : State :=
  let s := advance s k
  if cst s k = 0 then s.setCtx k { s.ctx k with waited := true } else setCst s k 2

/-- TRET with HM = 1 (R152). -/
def jTret (s : State) (k : Nat) : State :=
  let rpc := (s.rd (ctxReg k 3)).toNat
  let rn := (s.rd (ctxReg k 16)).toNat
  let inSlot := s.bt (ctxReg k 4) 31
  let s := setPC (s.setBt (ctxReg k 1) 29 false) k rpc
  s.setCtx k { s.ctx k with slot := if inSlot then some rn else none,
                            succ := if inSlot ∨ rn = (rpc + 4) % 2 ^ 32 then none else some rn }

/-- SYS instructions. -/
def jSys (s : State) (k : Nat) (m : JMn) (w : Word) : JRes :=
  match m with
  | .fence => if (postedOf s k).isEmpty then .nxt (fenceDone s k) else .hold (s.setCtx k { s.ctx k with blk := .fence })
  | .wait => .own (jWait s k)
  | .tret => .own (jTret s k)
  | .trap =>
    let rpc := succOf s k
    .own (takeExc s k 11 rpc (rpc + 4) false (jRb w) none)
  | .csrr => .nxt (setG s k (jRd w) (ctxReadWord s k (jRb w)))
  | .csrw => .nxt (csrWrite s k (jRb w) (getG s k (jRa w)))
  | _ =>
    let s := advance s k
    .own (setCst s k 0)

/-! ## Execution -/

/-- What the instruction `m` with word `w` does. -/
def jSem (s : State) (k : Nat) (m : JMn) (w : Word) (u : Upset) : JRes :=
  let a := getG s k (jRa w)
  let d := getG s k (jRd w)
  let ea := (a + jImm w).toNat
  match aluRR m a (getG s k (jRb w)) with
  | some v => .nxt (setG s k (jRd w) v)
  | none =>
  match aluRI m w a d with
  | some v => .nxt (setG s k (jRd w) v)
  | none =>
  match jTaken m d a with
  | some t => .jump s (if t then jTo16 w (ctxPC s k) else ctxPC s k + 8)
  | none =>
  match jLoad m with
  | some (n, sg) => if ea % n ≠ 0 then .exc s 4 0 (some ea) else jLoadAt s k ea n (jRd w) sg false false u
  | none =>
  match jStore m with
  | some n => if ea % n ≠ 0 then .exc s 4 0 (some ea) else jStoreAt s k ea n (d.toNat % 2 ^ (8 * n)) false u
  | none =>
  match m with
  | .push => jPush s k d.toNat u
  | .pop => jPop s k (jRd w) u
  | .j => .jump s (jTo26 w (ctxPC s k))
  | .call => jCall s k (jTo26 w (ctxPC s k))
  | .jr => .jump s a.toNat
  | .callr => jCall s k a.toNat
  | .ret => jRet s k
  | .fence | .wait | .tret | .trap | .csrr | .csrw | .halt => jSys s k m w
  | .crx | .crxw | .ctx | .ctxw | .cstat | .crd | .cwr => jCp0 s k m w
  | .ckf1 | .ckf2 | .ckf4 | .ckinit | .ckend | .ckres | .ckst | .ckrd | .ckwr => jCp1 s k m w
  | .tsnap | .tsecl | .tsech | .tsub | .twait | .trd | .twr => jCp2 s k m w
  | .iget | .irb | .iwb | .iput | .istn | .ists | .irts | .iepo => jCp3 s k m w u
  | .msend | .mtag | .mrecv | .mstat | .lkacq | .lkrel => jCp4 s k m w
  | .x7 => jX7 s k w
  | .fld => if ea % 8 ≠ 0 then .exc s 4 0 (some ea) else jLoadAt s k ea 8 (jRd w) false false true u
  | .fst => if ea % 8 ≠ 0 then .exc s 4 0 (some ea) else jStoreAt s k ea 8 (getF s k (jRd w)) false u
  | _ => match fpuOp s k m w with | some s => .nxt s | none => .nxt s

/-- The position after an instruction. -/
def jFinish (k : Nat) : JRes → Option State
  | .nxt s => some (advance s k)
  | .jump s d => some (transferTo s k d)
  | .exc s c sub ta => some (excHere s k c sub ta)
  | .hold s => some s
  | .own s => some s
  | .stall _ => none

/-- An instruction issued is counted, where no exception at issue took its place. -/
def jCounted (k : Nat) : JRes → JRes
  | .nxt s => .nxt (countIssue s k)
  | .jump s d => .jump (countIssue s k) d
  | .exc s c sub ta => .exc (if atIssue c then s else countIssue s k) c sub ta
  | .hold s => .hold (countIssue s k)
  | .own s => .own (countIssue s k)
  | .stall a => .stall a

/-- An instruction whose access must wait for earlier ones has issued it, and blocks its context until it completes (R17, R122). -/
def jHeld (s : State) (k : Nat) (w : Word) : JRes → JRes
  | .stall a => .hold (blockOn s k (.acc w a))
  | r => r

/-- ILLEGAL beyond reserved encodings: TRET while HM is 0, CSRW to a register R156 forbids. -/
def jForbidden (s : State) (k : Nat) (m : JMn) (w : Word) : Bool :=
  (m == .tret && !ctxHM s k) || (m == .csrw && csrwIllegal (jRb w))

/-- One issue: fetch, the exceptions of R149 in their order, execution. None: nothing issues (the instruction fetched is not
`want`, or its fetch must wait for posted stores). -/
def jRun (s : State) (k : Nat) (want : Option JMn) (f u : Upset) : Option State :=
  match jFetch s k f with
  | (_, none) => none
  | (s, some (.inr c)) => some (excFetch s k c)
  | (s, some (.inl w)) =>
    match jDecode (!onEngine k) w with
    | none => some (excHere s k 1 0 none)
    | some m =>
      if want.isSome ∧ want ≠ some m then none
      else if jForbidden s k m w then some (excHere s k 1 0 none)
      else if (s.ctx k).slot.isSome ∧ (m.transfer ∨ m.sys) then some (excHere s k 2 0 none)
      else jFinish k (jCounted k (jHeld s k w (jSem s k m w u)))

/-- The context can issue the instruction at its position, and the stage takes it (R121, R149). -/
def jReady (s : State) (k : Nat) : Bool :=
  ctxLive s k && cst s k == 1 && (s.ctx k).blk == .none && excDue s k == 0 && jTurn s k

/-- CLK_CPU cycles from an issue to the context's next (Table 6.3): MUL blocks it for 3, a spill or fill for 4. -/
def jGap (k : Nat) (m : JMn) (s t : State) : Nat :=
  if onEngine k = false then 1
  else if m = .mul ∨ m = .mulh ∨ m = .mulhu then 4
  else if rsPtr s k ≠ rsPtr t k ∧ m.transfer then 5
  else 2

/-- The row of instruction `m`: the context issues it if it is ready and its next instruction is `m`. -/
def jIssue (s : State) (x : CtxId) (m : JMn) (f u : Upset) : State :=
  let k := ctxKey x
  if jReady s k then
    match jRun s k (some m) f u with
    | some t => boundary (noteIssue t k (issueCyc s k) (jGap k m s t)) k
    | none => s
  else s

/-! ## Completion of what blocks -/

/-- The end of an instruction that was blocked. -/
def jEnd (s : State) (k : Nat) (r : JRes) : State :=
  match jFinish k r with
  | some s => boundary s k
  | none => s

/-- The blocked load ends with a value. -/
def loadValue (s : State) (k v : Nat) : State :=
  match (s.ctx k).blk with
  | .load _ n rd sign pop fpu => jEnd s k (.nxt (loadWrite s k v n rd sign pop fpu))
  | _ => s

/-- The blocked load ends with an error response: DBUS. -/
def loadError (s : State) (k : Nat) : State :=
  match (s.ctx k).blk with
  | .load a _ _ _ _ _ => jEnd s k (.exc s 5 0 (some a))
  | _ => s

/-- An access of a blocking form that the FIFO's level makes fail: its flag and its log entry stay, and the context waits again
(R141). -/
def levelError (s : State) (k a : Nat) (v : Option Word) (b : Blk) : State :=
  let r := match v with | some v => busWrite s (ctxMaster k) a v | none => busRead s (ctxMaster k) a
  r.1.setCtx k { r.1.ctx k with blk := b }

/-- The cell whose FIFO level a blocking form waits for, and whether it is its RX FIFO (R141, R146). -/
def waitFifo (s : State) (k : Nat) (m : JMn) (w : Word) : Option (Bool × Nat) :=
  match m with
  | .crxw => some (true, cp0Cell s k w)
  | .ctxw => some (false, cp0Cell s k w)
  | .x7 => some (false, 16 * s.fl (PE_CP7CFG (k / 8)) 3 0 + jFn4 w)
  | _ => none

/-- The access that the instruction `w` has issued completes: the instruction does what it does, or, where the level of the FIFO has
changed since, waits again (R141). -/
def accDone (s : State) (k : Nat) (w : Word) : State :=
  match jDecode (!onEngine k) w with
  | none => s
  | some m =>
    match waitFifo s k m w with
    | some (rx, c) =>
      if fifoWaits s k rx c then
        levelError s k (if rx then CELL_RXDATA c else CELL_TXDATA c)
          (if rx then none else some (getG s k (if m = .x7 then jRa w else jRd w))) (.wait w)
      else jEnd s k (jSem s k m w .good)
    | none => jEnd s k (jSem s k m w .good)

/-- REMOTE_LOAD_DONE: the access that blocks the context completes, after the earlier ones to its block (R17, R125, R141). -/
def remoteLoadDone (s : State) (x : CtxId) (u : Upset) : State :=
  let k := ctxKey x
  match (s.ctx k).blk with
  | .acc w a => if ctxLive s k = false ∨ behind s k a then s else accDone s k w
  | .x7 c rd true =>
    if ctxLive s k = false ∨ behind s k (CELL_RXDATA c) then s
    else if fifoWaits s k true c then levelError s k (CELL_RXDATA c) none (.x7 c rd false)
    else jEnd s k (cpRead s k (CELL_RXDATA c) rd)
  | .load a n _ _ _ _ =>
    if ctxLive s k = false ∨ behind s k a then s
    else if regionOf a = some .ob then
      if s.hbH.reads.any (fun r => r.ctx == some k) then s else loadError s k
    else
      match loadAcc s k a n u with
      | (s, some v) => loadValue s k v
      | (s, none) => loadError s k
  | _ => s

/-- The blocked store issues once fewer than four are outstanding; the FENCE ends once none is (R125, R126). -/
def afterPosted (s : State) (k : Nat) : State :=
  match (s.ctx k).blk with
  | .store a n v push => if (postedOf s k).length < 4 then jEnd s k (jStoreAt s k a n v push .good) else s
  | .fence => if (postedOf s k).isEmpty then jEnd s k (.nxt (fenceDone s k)) else s
  | _ => s

/-- An error response to a posted store (R150). -/
def postedError (s : State) (k a : Nat) : State :=
  let h := s.ctx k
  if h.dbw.isNone then s.setCtx k { h with dbw := some a }
  else if onEngine k then s.satInc (PE_FAULT (k / 8)) 15 8
  else s

/-- A pair's store leaves the pair once its comparison has passed, 2 CLK_CPU cycles after its issue (R338). -/
def storeOut (s : State) (k cyc : Nat) : State :=
  if onEngine k then s else s.setIssue (ctxBlk k) { s.issue (ctxBlk k) with at_ := max (s.issue (ctxBlk k)).at_ (cyc + 3) }

/-- POSTED_STORE_DONE: the i-th store outstanding takes effect, after the accesses of its master before it to its block (R17, R125, R150). -/
def postedStoreDone (s : State) (x : CtxId) (i : Nat) (u : Upset) : State :=
  let k := ctxKey x
  let l := (s.ctx k).posted
  match l[i]? with
  | none => s
  | some p =>
    if outstanding s k p.addr p.seq then s
    else
      let s := storeOut s k p.cyc
      let s := s.setCtx k { s.ctx k with posted := l.eraseIdx i }
      let r := storeAcc s k p.addr p.size p.val u
      match r with
      | (s, .err _) => afterPosted (if p.orphan then s else postedError s k p.addr) k
      | (s, _) => afterPosted s k

/-- BLOCKING_WAIT_ISSUE: the condition holds and the access is issued; it completes by REMOTE_LOAD_DONE (R141). TWAIT makes none, and
ends. -/
def waitIssue (s : State) (x : CtxId) : State :=
  let k := ctxKey x
  if ctxLive s k = false then s
  else
    match (s.ctx k).blk with
    | .wait w =>
      match jDecode false w with
      | some m =>
        match waitFifo s k m w with
        | some (rx, c) => if fifoWaits s k rx c then s else blockOn s k (.acc w (if rx then CELL_RXDATA c else CELL_TXDATA c))
        | none => jEnd s k (jSem s k m w .good)
      | none => s
    | .x7 c rd false => if fifoWaits s k true c then s else blockOn s k (.x7 c rd true)
    | _ => s

/-! ## Exceptions between instructions, WAIT, the watchdog -/

/-- INT_TAKEN (R151). -/
def intTaken (s : State) (x : CtxId) : State :=
  let k := ctxKey x
  if ctxLive s k && cst s k == 1 && excDue s k == 3 && jTurn s k then takeInt s k else s

/-- DBUSW_TAKEN (R150). -/
def dbuswTaken (s : State) (x : CtxId) : State :=
  let k := ctxKey x
  if ctxLive s k && cst s k == 1 && excDue s k == 1 && jTurn s k then takeDbusw s k else s

/-- CONTEXT_WAKE (R151): RUN, then the first condition of R149 that applies. -/
def contextWake (s : State) (x : CtxId) : State :=
  let k := ctxKey x
  if ctxLive s k && cst s k == 2 && intLines s k != 0 then
    let s := setCst s k 1
    if excDue s k = 1 then takeDbusw s k
    else if excDue s k = 2 then takeWdog s k
    else if excDue s k = 3 then takeInt s k
    else s
  else s

/-- An expiry of the watchdog (R154). -/
def wdogExpire (s : State) (x : CtxId) : State :=
  let k := ctxKey x
  if ctxLive s k = false ∨ wdOut s k = false then s
  else if s.bt (ctxReg k 11) 30 then
    let s := ctxFault s k 13 (ctxPC s k)
    if onEngine k ∧ s.bt (PE_CTRL (k / 8)) 0 then
      narrowStep (s.sourceAt (32 + k / 8)) (fun s => { s with wdrst := putBit s.wdrst (k / 8) true }) 0x400
    else s
  else
    let s := wdReload (s.setBt (ctxReg k 11) 30 true) k
    let s := s.setCtx k { s.ctx k with wdPend := true }
    if cst s k = 1 ∧ excDue s k = 2 then takeWdog s k else s

/-! ## STEP (Table 6.2) -/

/-- A STEP takes what is due first (R149). -/
def stepDue (s : State) (k : Nat) : State :=
  if excDue s k = 1 then takeDbusw s k
  else if excDue s k = 2 then takeWdog s k
  else if excDue s k = 3 then takeInt s k
  else s

/-- The instruction at the position is a control transfer. -/
def stepTransfer (s : State) (k : Nat) : Bool :=
  match jFetch s k .good with
  | (_, some (.inl w)) => (match jDecode (!onEngine k) w with | some m => m.transfer && (s.ctx k).slot.isNone | none => false)
  | _ => false

/-- One STEP: an instruction, or a control transfer with its slot. A double fault takes the context from STOPPED to FAULTED, which
Table 6.2 does not list (DESIGN CHOICE, log entry 91). -/
def stepOne (s : State) (k : Nat) : State :=
  let h := s.ctx k
  if !h.step || !ctxLive s k || cst s k != 0 || h.blk != .none then s
  else
    let s := stepDue s k
    let t := stepTransfer s k
    match jRun s k none .good .good with
    | none => s
    | some s =>
      let s := s.setCtx k { s.ctx k with step := false }
      if t && (s.ctx k).slot.isSome && (s.ctx k).blk == .none then (jRun s k none .good .good).getD s else s

/-- Every context that a command told to STEP. -/
def runSteps (s : State) : State := s.ctxH.foldl (fun s e => if e.2.step then stepOne s e.1 else s) s

end Sys2Proof.Machine
end

