-- ==== Sys2Proof/Machine/Host.lean ====
section
/-! DEFINITION. The host bridge at work: inbound PCIe requests, outbound completions, the SPI port, prefetch, the link (R23, R351 to
R361). -/

namespace Sys2Proof.Machine

/-! ## Inbound requests (R23, R352, R353) -/

/-- The on-chip address of offset `o` of a BAR; none: Unsupported Request (Tables 1.4 and 16.1). -/
def barAddr (bar : Bar) (o : Nat) : Option Nat :=
  match bar with
  | .bar0 =>
    let p := o / 0x400000
    if p ≤ 10 then some (0x30000000 + p * 0x01000000 + o % 0x400000)
    else if p = 11 then some (0x08000000 + o % 0x400000)
    else none
  | .bar2 => if o < 0x01000000 then some (0x20000000 + o) else none
  | .bar4 => if o < 0x401000 then some (0x24000000 + o) else none

/-- The accesses of a word with byte enables: a word, or half-words and bytes (R353). -/
def beParts (be : BitVec 4) : List (Nat × Size) :=
  if be = 0xF then [(0, .w)]
  else if be = 0x3 then [(0, .h)]
  else if be = 0xC then [(2, .h)]
  else ((List.range 4).filter (fun i => be.toNat / 2 ^ i % 2 == 1)).map (fun i => (i, .b))

/-- What a request has met so far: the state, read data in its byte lanes, a cause 0 response, another error response. -/
structure ReqAcc where
  s : State
  data : Nat := 0
  ur : Bool := false
  ca : Bool := false

/-- The byte lanes that byte enables name. -/
def beMask (be : BitVec 4) : Word :=
  BitVec.ofNat 32 ((List.range 4).foldl (fun n i => if be.toNat / 2 ^ i % 2 = 1 then n + 255 * 2 ^ (8 * i) else n) 0)

/-- One access of a request to the word at `a`. -/
def reqPart (a : Nat) (wr : Option Word) (r : ReqAcc) (p : Nat × Size) : ReqAcc :=
  let x : Acc := match wr with | some v => .wr (v >>> (8 * p.1)) | none => .rd
  match hostAcc r.s (a + p.1) p.2 x with
  | (s, .ok v) => { r with s := s, data := r.data + v.toNat * 2 ^ (8 * p.1) }
  | (s, .err c) =>
    let s := if wr.isSome then hbErr s 0 (a + p.1) true false else s
    { r with s := s, ur := r.ur || c == 0, ca := r.ca || c != 0 }
  | (s, .none) => { r with s := s }

/-- The accesses of the words of a request from `a` up, and the words read. -/
def reqWords (wr : Bool) : Nat → ReqAcc × List Word → List PcieWord → ReqAcc × List Word
  | _, r, [] => r
  | a, (r, l), w :: rest =>
    let r := (beParts w.be).foldl (reqPart a (if wr then some w.data else none)) { r with data := 0 }
    reqWords wr (a + 4) (r, l ++ [BitVec.ofNat 32 r.data]) rest

/-- Reading words for a prefetch; it stops at an access that gets no data. -/
def pfRead : Nat → State → Nat → State × List Word
  | 0, s, _ => (s, [])
  | n + 1, s, a =>
    match hostAcc s a .w .rd with
    | (s, .ok v) =>
      let r := pfRead n s (a + 4)
      (r.1, v :: r.2)
    | (s, _) => (s, [])

/-- The prefetch that may follow a read of `n` words at `a`, of up to `k` words (R360). -/
def prefetch (s : State) (spi : Bool) (a n k : Nat) : State :=
  if (pfBuf s spi).words.isEmpty then
    let e := a + 4 * n
    let r := pfRead (pfRoom s a e k) s e
    if r.2.isEmpty then r.1
    else setPf r.1 spi { words := ((List.range r.2.length).map (fun i => e + 4 * i)).zip r.2, at_ := r.1.cycles }
  else s

/-- The link carries requests: up, and the bridge out of reset. -/
def hostLink (s : State) : Bool := s.bt HB_STATUS 31 && !inReset s 27

/-- A posted request (R353); it drops what has been prefetched (R361). -/
def inboundWrite (s : State) (bar : Bar) (o : Nat) (ws : List PcieWord) : State :=
  match barAddr bar o with
  | none => hbErr (pfDrop s false) 0 o true false
  | some a => (reqWords true a ({ s := pfDrop s false }, []) ws).1.s

/-- A read request with the prefetch of up to `k` words that follows it (R353, R360). -/
def inboundRead (s : State) (bar : Bar) (o : Nat) (ws : List PcieWord) (k : Nat) : State :=
  match barAddr bar o with
  | none => (pfDrop s false).emit (.completion 1 [])
  | some a =>
    match pfServe s false a ws.length with
    | some (s, l) => s.emit (.completion 0 (l.zipWith (fun v w => v &&& beMask w.be) ws))
    | none =>
      let r := reqWords false a ({ s := pfDrop s false }, []) ws
      if r.1.ur then r.1.s.emit (.completion 1 [])
      else if r.1.ca then r.1.s.emit (.completion 2 [])
      else
        let s := r.1.s.emit (.completion 0 r.2)
        if ws.isEmpty then s else prefetch s false a ws.length k

/-- PCIE_INBOUND_REQUEST. In D3hot a request gets Unsupported Request (R351). -/
def inboundRequest (s : State) (bar : Bar) (o : Nat) (wr : Bool) (ws : List PcieWord) (k : Nat) : State :=
  if hostLink s = false then s
  else if s.bt HB_STATUS 29 then (if wr then s else s.emit (.completion 1 []))
  else if wr then inboundWrite (pfExpire s false) bar o ws
  else inboundRead (pfExpire s false) bar o ws k

/-! ## Outbound reads (R354) -/

/-- An outbound read ends with an error response: logged, at its context or master. `last`: no later read is of the same
context. -/
def obFail (s : State) (e : ObRead) (cause : Nat) (last : Bool) : State :=
  let s := logErr (hbErr s cause e.addr false false) e.master e.addr false 3
  match e.ctx with
  | some k => if last then loadError s k else s
  | none => { s with resp := .err 3 }

/-- It ends with data. -/
def obData (s : State) (e : ObRead) (data : Nat) (last : Bool) : State :=
  match e.ctx with
  | some k => if last then loadValue s k (data % 2 ^ (8 * e.size)) else s
  | none => { s with resp := .ok (BitVec.ofNat 32 (data % 2 ^ (8 * e.size))) }

/-- The i-th outbound read removed from those that wait. -/
def obTake (s : State) (i : Nat) : Option (ObRead × State × Bool) :=
  match s.hbH.reads[i]? with
  | none => none
  | some e =>
    let later := (s.hbH.reads.drop (i + 1)).any (fun r => r.ctx == e.ctx)
    some (e, { s with hbH := { s.hbH with reads := s.hbH.reads.eraseIdx i } }, !later)

/-- OUTBOUND_TIMEOUT: 50 ms without completion. -/
def outboundTimeout (s : State) (i : Nat) : State :=
  match obTake s i with
  | none => s
  | some (e, t, last) =>
    if e.at_ + 50000000 ≤ s.cycles then obFail (t.raise HB_IRQSTAT 0x4) e 2 last else s

/-- OUTBOUND_COMPLETION; `ok` false: Unsupported Request or Completer Abort. -/
def outboundCompletion (s : State) (i : Nat) (data : BitVec 64) (ok : Bool) : State :=
  match obTake s i with
  | none => s
  | some (e, s, last) => if ok then obData s e data.toNat last else obFail s e 1 last

/-! ## The link and configuration (R30, R351, R354) -/

/-- PCIE_LINK_UP at generation `speed`, `width` lanes. -/
def pcieLinkUp (s : State) (speed width : Nat) : State :=
  if s.bt HB_CTRL 31 && !inReset s 27 && !inReset s 28 && decide (1 ≤ speed) && decide (speed ≤ 3) && decide (1 ≤ width) &&
      decide (width ≤ 2) then
    ((s.setBt HB_STATUS 31 true).setFl HB_STATUS 28 27 speed).setFl HB_STATUS 26 25 width
  else s

/-- The configuration space as R351 gives it: the Device ID, and the IDs loaded from the fuse map (Table 17.1, words W2 and W3). The
layout of the headers and capabilities is the PCI Express specification's (log entry 105). -/
def pcieCfg (s : State) : PcieCfg :=
  { device := 0x9256, vendor := s.fl (LDR_FUSE 2) 31 16, subVendor := s.fl (LDR_FUSE 2) 15 0, subsystem := s.fl (LDR_FUSE 3) 31 16,
    vectors := 64, maxPayload := 256, maxRead := 512, bme := s.bt HB_STATUS 30, d3 := s.bt HB_STATUS 29 }

/-- PCIE_CONFIG_REQUEST: bus mastering and the power state; in D3hot too (R351). -/
def pcieConfig (s : State) (bme d3 : Bool) : State :=
  if hostLink s then
    let s := (s.setBt HB_STATUS 30 bme).setBt HB_STATUS 29 d3
    s.emit (.config (pcieCfg s))
  else s

/-! ## SPI (R357 to R359) -/

/-- The SPI port responds: SPIEN, or start-up has halted (R367, R375). -/
def spiOn (s : State) : Bool :=
  let st := s.fl LDR_STATUS 31 28
  !wideReset s && ((s.bt HB_CTRL 30 && !inReset s 27) || st == 14 || st == 15)

/-- The status byte (Table 16.3). -/
def spiStatus (s : State) : Byte :=
  let h := s.hbH
  BitVec.ofNat 8 (h.werr.toNat * 16 + h.disc.toNat * 8 + h.spiErr.toNat * 4 + h.spiRead.isSome.toNat * 2 + h.spiHeld.isSome.toNat)

/-- A frame: the status byte and `l` go out, WERR and DISC clear. -/
def spiOut (s : State) (l : List Byte) : State :=
  State.emit { s with hbH := { s.hbH with werr := false, disc := false } } (.spi (spiStatus s :: l))

/-- BADCMD. -/
def spiBad (s : State) : State := s.satInc HB_SPICNT 15 8

/-- The words of a WRITE frame. -/
def spiWords : Nat → State → Nat → List Byte → State
  | 0, s, _, _ => s
  | n + 1, s, a, l =>
    if l.isEmpty then s
    else if l.length < 4 then { s with hbH := { s.hbH with werr := true } }
    else
      let s' := match busWrite s 11 a (BitVec.ofNat 32 (leAt l 0 4)) with
        | (s, .err _) =>
          let s := (hbErr s 3 a true true).satInc HB_SPICNT 7 0
          { s with hbH := { s.hbH with werr := true } }
        | (s, _) => s
      spiWords n s' (a + 4) (l.drop 4)

/-- SPI_WRITE. -/
def spiWrite (s : State) (a : Nat) (l : List Byte) : State :=
  if spiOn s then
    let s := spiOut s []
    spiWords (l.length + 1) (if l.length < 4 then s else pfDrop s true) a l
  else s

/-- A read result is held from now on. -/
def spiHold (s : State) (l : List Word) (err : Bool) : State :=
  { s with hbH := { s.hbH with spiRead := none, spiHeld := some l, spiErr := err, spiAt := s.cycles } }

/-- SPI_READREQ of count byte `n`. -/
def spiReadReq (s : State) (a n : Nat) : State :=
  if spiOn s = false then s
  else
    let busy := s.hbH.spiRead.isSome || s.hbH.spiHeld.isSome
    let s := spiOut (pfExpire s true) []
    let k := if n = 0 then 64 else n
    if 64 < k ∨ busy then spiBad s
    else
      match pfServe s true a k with
      | some (s, l) => spiHold s l false
      | none =>
        let s := pfDrop s true
        { s with hbH := { s.hbH with spiRead := some (a, k) } }

/-- The `n` words of a delayed read, and whether an access got an error response. -/
def spiReadWords : Nat → State → Nat → State × List Word × Bool
  | 0, s, _ => (s, [], false)
  | n + 1, s, a =>
    let r := hostAcc s a .w .rd
    let q := spiReadWords n r.1 (a + 4)
    match r.2 with
    | .ok v => (q.1, v :: q.2.1, q.2.2)
    | _ => (q.1, 0 :: q.2.1, true)

/-- SPI_READ_DONE, with the prefetch of up to `k` words that follows it. -/
def spiReadDone (s : State) (k : Nat) : State :=
  match s.hbH.spiRead with
  | none => s
  | some (a, n) =>
    if spiOn s = false then s
    else
      let r := spiReadWords n s a
      if r.2.2 then spiHold r.1 (List.replicate n 0) true
      else prefetch (spiHold r.1 r.2.1 false) true a n k

/-- SPI_FETCH with `n` data bytes clocked; the result is released. -/
def spiFetch (s : State) (n : Nat) : State :=
  if spiOn s = false then s
  else
    match s.hbH.spiHeld with
    | none => spiOut s (List.replicate n 0)
    | some l =>
      let s := spiOut s ((l.flatMap (fun w => leBytes 4 w.toNat)).take n)
      { s with hbH := { s.hbH with spiHeld := none, spiErr := false } }

/-- SPI_STATUS. -/
def spiStat (s : State) : State := if spiOn s then spiOut s [] else s

/-- SPI_BAD_COMMAND. -/
def spiBadCommand (s : State) : State := if spiOn s then spiBad (spiOut s []) else s

/-- SPI_DISCARD: no FETCH within DTIMER (R359). -/
def spiDiscard (s : State) : State :=
  if s.hbH.spiHeld.isSome && decide (s.hbH.spiAt + s.fl HB_SPICFG 15 0 * 1000 ≤ s.cycles) then
    let s : State := { s with hbH := { s.hbH with spiHeld := none, spiErr := false, disc := true } }
    (s.raise HB_IRQSTAT 0x2).satInc HB_SPICNT 31 16
  else s

end Sys2Proof.Machine
end

