-- ==== Sys2Proof/Machine/Crypto.lean ====
section
/-! DEFINITION. SHA-256 and ECDSA P-256 verification, as R372 and R380 use them (FIPS 180-4, FIPS 186-4: public standards the
spec names). -/

namespace Sys2Proof.Machine

/-! ## SHA-256 -/

/-- The integer below 2^k, added to `x`, whose `e`-th power comes nearest to `n` from below: the bits from the highest down. -/
def rootBits (e n : Nat) : Nat → Nat → Nat
  | 0, x => x
  | k + 1, x => rootBits e n k (if (x + 2 ^ k) ^ e ≤ n then x + 2 ^ k else x)

/-- The first 32 bits of the fractional part of the `e`-th root of `p`, for a root below 8. -/
def rootFrac (e p : Nat) : Word := BitVec.ofNat 32 (rootBits e (p * 2 ^ (32 * e)) 35 0)

/-- The primes below 312: sixty-four, none with a proper factor up to 17. -/
def shaPrimes : List Nat :=
  ((List.range 310).map (· + 2)).filter (fun n => [2, 3, 5, 7, 11, 13, 17].all (fun d => n == d || n % d != 0))

/-- The round constants: from the cube roots of the first sixty-four primes (FIPS 180-4, 4.2.2). -/
def shaK : List Word := shaPrimes.map (rootFrac 3)

/-- The initial hash value: from the square roots of the first eight primes (FIPS 180-4, 5.3.3). -/
def shaH0 : List Word := (shaPrimes.take 8).map (rootFrac 2)

/-- The next word of the message schedule from the last sixteen, newest first. -/
def shaNext (w : List Word) : Word :=
  let a := w.getD 14 0
  let b := w.getD 1 0
  let s0 := a.rotateRight 7 ^^^ a.rotateRight 18 ^^^ (a >>> 3)
  let s1 := b.rotateRight 17 ^^^ b.rotateRight 19 ^^^ (b >>> 10)
  w.getD 15 0 + s0 + w.getD 6 0 + s1

/-- `n` schedule words more; the words run newest first. -/
def shaExpand : Nat → List Word → List Word
  | 0, w => w
  | n + 1, w => shaExpand n (shaNext w :: w)

/-- One round on the eight working variables. -/
def shaRound (v : List Word) (kw : Word × Word) : List Word :=
  let a := v.getD 0 0
  let e := v.getD 4 0
  let s1 := e.rotateRight 6 ^^^ e.rotateRight 11 ^^^ e.rotateRight 25
  let ch := (e &&& v.getD 5 0) ^^^ (~~~e &&& v.getD 6 0)
  let t1 := v.getD 7 0 + s1 + ch + kw.1 + kw.2
  let s0 := a.rotateRight 2 ^^^ a.rotateRight 13 ^^^ a.rotateRight 22
  let mj := (a &&& v.getD 1 0) ^^^ (a &&& v.getD 2 0) ^^^ (v.getD 1 0 &&& v.getD 2 0)
  [t1 + s0 + mj, a, v.getD 1 0, v.getD 2 0, v.getD 3 0 + t1, e, v.getD 5 0, v.getD 6 0]

/-- Big-endian value of bytes. -/
def beVal (l : List Byte) : Nat := l.foldl (fun n b => n * 256 + b.toNat) 0

/-- The big-endian bytes of a word. -/
def wordBytes (w : Word) : List Byte := [24, 16, 8, 0].map (fun k => (w >>> k).setWidth 8)

/-- The words of a block. -/
def blockWords : List Byte → List Word
  | a :: b :: c :: d :: r => BitVec.ofNat 32 (beVal [a, b, c, d]) :: blockWords r
  | _ => []

/-- One 64-byte block into the hash value. -/
def shaBlock (h : List Word) (b : List Byte) : List Word :=
  let w := (shaExpand 48 (blockWords b).reverse).reverse
  (h.zip ((shaK.zip w).foldl shaRound h)).map (fun p => p.1 + p.2)

/-- `n` blocks. -/
def shaBlocks : Nat → List Word → List Byte → List Word
  | 0, h, _ => h
  | n + 1, h, l => shaBlocks n (shaBlock h (l.take 64)) (l.drop 64)

/-- The SHA-256 digest. -/
def sha256 (m : List Byte) : List Byte :=
  let n := m.length
  let z := (119 - n % 64) % 64
  let p := m ++ [(0x80 : Byte)] ++ List.replicate z (0 : Byte) ++ (List.range 8).map (fun i => BitVec.ofNat 8 (8 * n / 256 ^ (7 - i)))
  (shaBlocks (p.length / 64) shaH0 p).flatMap wordBytes

/-! ## P-256 -/

/-- The field prime. -/
def p256p : Nat := 0xffffffff00000001000000000000000000000000ffffffffffffffffffffffff
/-- The group order. -/
def p256n : Nat := 0xffffffff00000000ffffffffffffffffbce6faada7179e84f3b9cac2fc632551
/-- The coefficient b. -/
def p256b : Nat := 0x5ac635d8aa3a93e7b3ebbd55769886bc651d06b0cc53b0f63bce3c3e27d2604b
/-- The base point. -/
def p256g : Nat × Nat := (0x6b17d1f2e12c4247f8bce6e563a440f277037d812deb33a0f4a13945d898c296,
  0x4fe342e2fe1a7f9b8ee7eb4a7c0f9e162bce33576b315ececbb6406837bf51f5)

/-- x to the power whose binary digits remain, `k` of them. -/
def powMod (m x : Nat) : Nat → Nat → Nat
  | 0, _ => 1 % m
  | k + 1, e =>
    let r := powMod m x k (e / 2)
    if e % 2 = 1 then r * r % m * x % m else r * r % m

/-- The inverse modulo a prime below 2^256. -/
def invMod (m x : Nat) : Nat := powMod m x 256 (m - 2)

/-- The sum of two points; none is the point at infinity. -/
def ecAdd (a b : Option (Nat × Nat)) : Option (Nat × Nat) :=
  match a, b with
  | none, q => q
  | q, none => q
  | some (x1, y1), some (x2, y2) =>
    let p := p256p
    if x1 = x2 ∧ (y1 + y2) % p = 0 then none
    else
      let l := if x1 = x2 then (3 * x1 * x1 + (p - 3)) % p * invMod p (2 * y1 % p) % p
        else (y2 + p - y1) % p * invMod p ((x2 + p - x1) % p) % p
      let x3 := (l * l + 2 * p - x1 - x2) % p
      some (x3, (l * ((x1 + p - x3) % p) + p - y1) % p)

/-- A multiple of a point by a scalar with `k` binary digits. -/
def ecMul (q : Option (Nat × Nat)) : Nat → Nat → Option (Nat × Nat)
  | 0, _ => none
  | k + 1, e =>
    let h := ecMul q k (e / 2)
    let d := ecAdd h h
    if e % 2 = 1 then ecAdd d q else d

/-- ECDSA verification of signature (r, s) over a digest under public key (x, y). -/
def ecdsaOk (x y r s : Nat) (digest : List Byte) : Bool :=
  let p := p256p
  let n := p256n
  if p ≤ x || p ≤ y || y * y % p != (x * x * x + (p - 3) * x + p256b) % p || r == 0 || s == 0 || n ≤ r || n ≤ s then false
  else
    let w := invMod n s
    let z := beVal digest
    match ecAdd (ecMul (some p256g) 256 (z * w % n)) (ecMul (some (x, y)) 256 (r * w % n)) with
    | none => false
    | some (v, _) => v % n == r

end Sys2Proof.Machine
end

