-- ==== Sys2Proof/Machine/Loader.lean ====
section
/-! DEFINITION. Start-up: the fuse engine, load attempts, release, register replay, and the ends of flash update, fuse and debug
operations (R364 to R382). -/

namespace Sys2Proof.Machine

/-! ## Fuses (R365 to R368) -/

/-- A word of the fuse array. -/
def fuseWord (s : State) (w : Nat) : Word := smGet 0 s.fuses w

/-- A region: its data words [lo, hi) and its CRC word. -/
def fuseRegion (s : State) (lo hi : Nat) : List Word := (List.range (hi - lo)).map (fun i => fuseWord s (lo + i))

/-- A region is blank. -/
def fuseBlank (s : State) (lo hi crc : Nat) : Bool := (fuseRegion s lo hi).all (· == 0) && fuseWord s crc == 0

/-- A region's CRC holds (R366). -/
def fuseCrcOk (s : State) (lo hi crc : Nat) : Bool :=
  crc32c ((fuseRegion s lo hi).flatMap (fun w => leBytes 4 w.toNat)) == (fuseWord s crc).toNat

/-- The region is used and not blank (Table 17.9). -/
def fuseUsed (s : State) (lo hi crc : Nat) : Bool := !fuseBlank s lo hi crc && fuseCrcOk s lo hi crc

/-- The region that holds a word: its bounds and CRC word (Table 17.1). -/
def fuseRegionOf (w : Nat) : Option (Nat × Nat × Nat) :=
  if w < 12 ∨ w = 124 then some (0, 12, 124)
  else if (12 ≤ w ∧ w < 20) ∨ w = 125 then some (12, 20, 125)
  else if (24 ≤ w ∧ w < 56) ∨ w = 126 then some (24, 56, 126)
  else none

/-- The shadow of a word: 0 in a failed region; the OR of both copies of a dynamic word (R366). -/
def fuseShadow (s : State) (w : Nat) : Word :=
  if w = 20 ∨ w = 22 then fuseWord s 20 ||| fuseWord s 22
  else if w = 21 ∨ w = 23 then fuseWord s 21 ||| fuseWord s 23
  else match fuseRegionOf w with
    | some (lo, hi, crc) => if fuseBlank s lo hi crc || fuseCrcOk s lo hi crc then fuseWord s w else 0
    | none => fuseWord s w

/-- Ones in a word. -/
def onesOf (w : Word) : Nat := ((List.range 32).filter (bitAt w)).length

/-- Bits that the copies of the dynamic words disagree in. -/
def fuseMismatch (s : State) : Nat :=
  onesOf (fuseWord s 20 ^^^ fuseWord s 22) + onesOf (fuseWord s 21 ^^^ fuseWord s 23)

/-- Setting LDR_STATUS.STAGE. -/
def ldrStage (s : State) (x : Nat) : State := s.setFl LDR_STATUS 31 28 x

/-- A new nonce (R380): four words nothing constrains. -/
def newNonce (s : State) : State :=
  (List.range 4).foldl (fun s i => let r := s.free; r.2.wr (LDR_DBGNONCE i) r.1) s

/-- The fuse load to its end: shadows, status, grade, nonce; the pins take their reset states; the PLL starts (Table 17.3,
steps 1 to 3), or HALTFUSE (R367). -/
def fuseLoad (s : State) : State :=
  let s := (List.range 128).foldl (fun s w => s.wr (LDR_FUSE w) (fuseShadow s w)) s
  let st := (fuseUsed s 0 12 124).toNat * 2 ^ 30 + (fuseUsed s 12 20 125).toNat * 2 ^ 29 + (fuseUsed s 24 56 126).toNat * 2 ^ 28 +
    min 255 (fuseMismatch s) * 2 ^ 16
  let s := newNonce (s.wr LDR_FUSESTAT (BitVec.ofNat 32 st))
  if fuseUsed s 0 12 124 = false then ldrStage s 14
  else
    let s := (s.setBt LDR_FUSESTAT 31 true).setFl LDR_DEVID 7 4 (s.fl (LDR_FUSE 3) 7 4)
    ldrStage ((List.range 16).foldl groupPinReset s) 1

/-- A start may begin: no reset of cold or warm reach is asserted, and the one released last is followed by start `due`. -/
def startDue (s : State) (due : Nat) : Bool := !wideReset s && s.ldrH.due == due

/-- COLD_START (R366, R369). `cut`: a reset interrupts the fuse load. -/
def coldStart (s : State) (cut : Bool) : State :=
  if startDue s 1 = false then s
  else
    let s := s.raise RST_CAUSE 0x10000
    if cut then
      let s := (List.range 128).foldl (fun s w => s.wr (LDR_FUSE w) 0) s
      (s.wr LDR_FUSESTAT 0).satInc LDR_BOOTCNT 15 8
    else fuseLoad { s with ldrH := { s.ldrH with due := 0 } }

/-! ## Attempts (R375) -/

/-- CONSEC counts a failure of copy A, up to 3. -/
def consecInc (s : State) : State := s.setFl LDR_BOOTCNT 5 4 (min 3 (s.fl LDR_BOOTCNT 5 4 + 1))

/-- The record of an interrupted attempt, before the first attempt of a start. -/
def bootPreamble (s : State) : State :=
  if s.bt LDR_BOOTCNT 3 then
    let s := s.satInc LDR_BOOTCNT 31 24
    if s.bt LDR_BOOTCNT 2 then s else consecInc s
  else s

/-- An attempt begins: its copy is chosen and recorded (R375). -/
def attemptBegin (s : State) : State :=
  let b := s.fl LDR_BOOTCNT 5 4 == 3
  let s := (s.setBt LDR_BOOTCNT 3 true).setBt LDR_BOOTCNT 2 b
  ldrStage ((s.setBt LDR_STATUS 27 b).setFl LDR_STATUS 15 8 (min 255 (s.fl LDR_STATUS 15 8 + 1))) 2

/-- PLL_LOCK: the dividers are released, the free PLL has settled, and the loader starts (R175; Table 17.3, step 4). -/
def pllLock (s : State) : State :=
  if wideReset s ∨ s.fl LDR_STATUS 31 28 ≠ 1 then s
  else attemptBegin (bootPreamble ((State.setBt { s with clk0 := s.cycles } RST_CLKSTAT 31 true).setBt TU_STATUS 1 true))

/-- WARM_START (R371): step 5 if the PLL is locked, else the wait for its lock. -/
def warmStart (s : State) : State :=
  if startDue s 2 = false then s
  else
    let s := State.raise { s with ldrH := { s.ldrH with due := 0 } } RST_CAUSE 0x10000
    let s := s.setBt LDR_STATUS 25 true
    if s.bt LDR_FUSESTAT 31 = false then ldrStage s 14
    else if s.bt RST_CLKSTAT 31 then attemptBegin (bootPreamble s)
    else ldrStage s 1

/-! ## The image (R372 to R374) -/

/-- A section entry (Table 17.5). -/
structure Sect where
  typ : Nat
  pad : Bool
  foff : Nat
  len : Nat
  dest : Nat
  scrc : Nat
deriving DecidableEq, Repr

/-- The base of a copy. -/
def copyBase (b : Bool) : Nat := if b then 0x08000000 else 0

/-- The header of a copy. -/
def hdrOf (s : State) (b : Bool) : List Byte := flashBytes s (copyBase b) 4096

/-- Bytes [i, i + n) are 0. -/
def zeroAt (l : List Byte) (i n : Nat) : Bool := ((l.drop i).take n).all (· == 0)

/-- Code 0x02 does not arise (Table 17.4). -/
def hdrGood (h : List Byte) : Bool :=
  let n := leAt h 6 2
  let len := leAt h 8 4
  leAt h 0 4 == 0x53454F50 && leAt h 4 2 == 1 && decide (1 ≤ n) && decide (n ≤ 64) && len % 256 == 0 && decide (8192 ≤ len) &&
    decide (len ≤ 50331648) && decide (leAt h 20 4 < 2) && zeroAt h 40 24 && zeroAt h (64 + 32 * n) (4092 - (64 + 32 * n)) &&
    crc32c (h.take 4092) == leAt h 4092 4

/-- Code 0x03 does not arise. -/
def hdrPart (s : State) (h : List Byte) : Bool :=
  leAt h 16 2 == 0x9256 && decide (leAt h 18 1 ≤ s.fl LDR_DEVID 15 8) && leAt h 19 1 / 2 ^ s.fl LDR_DEVID 7 4 % 2 == 1

/-- Code 0x04 does not arise. -/
def hdrSvn (s : State) (h : List Byte) : Bool := decide (onesOf (s.rd (LDR_FUSE 21)) ≤ leAt h 12 4)

/-- The section table. -/
def sects (h : List Byte) : List Sect :=
  (List.range (leAt h 6 2)).map (fun i =>
    let e := h.drop (64 + 32 * i)
    { typ := leAt e 0 1, pad := zeroAt e 1 3 && zeroAt e 20 12, foff := leAt e 4 4, len := leAt e 8 4, dest := leAt e 12 4,
      scrc := leAt e 16 4 })

/-- A destination R373 admits; `last`: the section is last in the table. -/
def destOk (a n : Nat) (last : Bool) : Bool :=
  (List.range 8).any (fun p => decide (0x10000000 + p * 0x100000 ≤ a) && decide (a + n ≤ 0x10040000 + p * 0x100000)) ||
    (decide (0x40000000 ≤ a) && decide (a + n ≤ 0x40200000)) ||
    (decide (0x20000000 ≤ a) && decide (a + n ≤ if last then 0x21000000 else 0x20F80000))

/-- One entry obeys Table 17.5 and R373. -/
def sectOk (imglen : Nat) (last : Bool) (x : Sect) : Bool :=
  let writes := x.typ == 1 || x.typ == 2
  x.pad && decide (1 ≤ x.typ) && decide (x.typ ≤ 6) && decide (1 ≤ x.len) &&
    (if x.typ = 2 then x.foff == 0 && x.scrc == 0
     else x.foff % 256 == 0 && decide (4096 ≤ x.foff) && decide (x.foff + x.len ≤ imglen - 128)) &&
    (if writes then x.dest % 8 == 0 && destOk x.dest x.len last else x.dest == 0)

/-- Non-FILL sections rise in FOFF and do not overlap. -/
def sectsRise : List Sect → Bool
  | [] => true
  | [_] => true
  | a :: b :: r => decide (a.foff + a.len ≤ b.foff) && sectsRise (b :: r)

/-- Code 0x07 does not arise; what pass 2 reads holds at most 8 MiB (R370, R373). -/
def tableGood (h : List Byte) : Bool :=
  let l := sects h
  (List.range l.length).all (fun i => match l[i]? with | some x => sectOk (leAt h 8 4) (i + 1 == l.length) x | none => true) &&
    sectsRise (l.filter (·.typ != 2)) && (l.filter (·.typ == 6)).length == 1 &&
    decide (((l.filter (fun x => decide (3 ≤ x.typ))).foldl (fun n x => n + x.len) 0) ≤ 8 * 2 ^ 20)

/-- The data of a section. -/
def sectData (s : State) (b : Bool) (x : Sect) : List Byte := flashBytes s (copyBase b + x.foff) x.len

/-- The section's data has its SCRC. -/
def sectGood (s : State) (b : Bool) (x : Sect) : Bool := x.typ == 2 || crc32c (sectData s b x) == x.scrc

/-- The bytes of KEYHASH (Table 17.1). -/
def keyHash (s : State) : List Byte := (List.range 8).flatMap (fun i => leBytes 4 (s.rd (LDR_FUSE (12 + i))).toNat)

/-- The key has the digest of the fuses, and the key region is good. -/
def keyGood (s : State) (key : List Byte) : Bool := s.bt LDR_FUSESTAT 29 && sha256 key == keyHash s

/-- The signature block of a copy: key, signature. -/
def sigBlock (s : State) (b : Bool) (len : Nat) : List Byte := flashBytes s (copyBase b + len - 128) 128

/-- The signature verifies under the image's key (R372). -/
def sigGood (s : State) (b : Bool) (len : Nat) : Bool :=
  let g := sigBlock s b len
  let part (i : Nat) : Nat := beVal ((g.drop (32 * i)).take 32)
  ecdsaOk (part 0) (part 1) (part 2) (part 3) (sha256 (flashBytes s (copyBase b) (len - 128)))

/-- SECCFG.SECBOOT. -/
def secboot (s : State) : Bool := s.bt (LDR_FUSE 20) 2

/-- The checks of an image up to its release that write nothing: the code, 0 for none (Table 17.9). -/
def imageCode (s : State) (b : Bool) (cap : Nat) (same manifest : Bool) : Nat :=
  let h := hdrOf s b
  let len := leAt h 8 4
  if hdrGood h = false then 2
  else if hdrPart s h = false then 3
  else if hdrSvn s h = false then 4
  else if tableGood h = false then 7
  else if cap < copyBase b + len then 1
  else if (sects h).all (sectGood s b) = false then 8
  else if secboot s ∧ keyGood s ((sigBlock s b len).take 64) = false then 5
  else if secboot s ∧ sigGood s b len = false then 6
  else if same = false then 9
  else if manifest = false then 11
  else 0

/-- Bytes written by the loader as whole words with good check bits. -/
def ldrBytes (s : State) (a : Nat) (l : List Byte) : State :=
  let s := s.define a (a + l.length)
  State.setBytes { s with ecc := s.ecc.filter (fun e => decide (e.1 < a) || decide (a + l.length ≤ e.1)) } a l

/-- A LOAD or FILL section written to its destination; FILL writes zeros, no other data being given (DESIGN CHOICE, log entry 27). -/
def sectLoad (b : Bool) (s : State) (x : Sect) : State :=
  if x.typ = 1 then ldrBytes s x.dest (sectData s b x)
  else if x.typ = 2 then ldrBytes s x.dest (List.replicate x.len 0)
  else s

/-- The 8-byte entries of a section. -/
def entries8 : Nat → List Byte → List (Word × Word)
  | 0, _ => []
  | n + 1, l =>
    if l.length < 8 then []
    else (BitVec.ofNat 32 (leAt l 0 4), BitVec.ofNat 32 (leAt l 4 4)) :: entries8 n (l.drop 8)

/-- The entries of a section's data. -/
def entriesOf (l : List Byte) : List (Word × Word) := entries8 (l.length / 8) l

/-- One REG entry (R374): code 0x0C where the block is in reset by another source or its domain is off, 0x0A for any other
error response. -/
def regEntry (r : State × Nat) (e : Word × Word) : State × Nat :=
  if r.2 ≠ 0 then r
  else
    match busWrite r.1 16 e.1.toNat e.2 with
    | (s, .err c) => (s, if c = 6 then 12 else 10)
    | (s, _) => (s, 0)

/-- One PTAB entry. -/
def ptabEntry (r : State × Nat) (e : Word × Word) : State × Nat :=
  if r.2 ≠ 0 then r
  else
    match busWrite (busWrite r.1 16 IMG_PTIDX (e.1 &&& 0xFFFF)).1 16 IMG_PTW e.2 with
    | (s, .err _) => (s, 10)
    | (s, _) => (s, 0)

/-- The records of a PINIT section. -/
def pinitRecords : Nat → State × Nat → List Byte → State × Nat
  | 0, r, _ => r
  | n + 1, r, l =>
    if r.2 ≠ 0 ∨ l.length < 8 then r
    else
      let p := leAt l 0 2
      let size := ptSize (r.1.pt p).entry
      let data := (l.drop 8).take size
      match imgPut r.1 16 none p data none (leAt l 2 2) 0 0 0 with
      | (s, true) => pinitRecords n (s, 0) (l.drop (8 + (size + 7) / 8 * 8))
      | (s, false) => (logErr s 16 (0x24000000 + 64 * p) true 3, 10)

/-- Pass 2 over one section. -/
def sectApply (b : Bool) (r : State × Nat) (x : Sect) : State × Nat :=
  let l := sectData r.1 b x
  if x.typ = 3 then (entriesOf l).foldl regEntry r
  else if x.typ = 4 then (entriesOf l).foldl ptabEntry r
  else if x.typ = 5 then pinitRecords (l.length / 8) r l
  else r

/-- Memory initialisation (R316; Table 17.3, step 5); M31 is the loader's work area, so its words are undefined afterwards. -/
def memInit (s : State) : State :=
  (poweredMem.foldl (fun s r => s.clearMem r.1 r.2) s).undefine 0x20F80000 0x21000000

/-- The codes that come before pass 2 writes anything: all but a refused write, a block in reset and the manifest. -/
def passOne (s : State) (b : Bool) (d : FlashShow) : Nat := if d.ok = false then 1 else imageCode s b d.cap d.same true

/-- Pass 1 writes as it streams, up to the first section whose data fails. -/
def streamed (s : State) (b : Bool) : List Sect := (sects (hdrOf s b)).takeWhile (sectGood s b)

/-- Pass 2 from the sections listed on, then the manifest: the state, the code, and for code 0x0C the section that met a block
in reset. -/
def passTwo (s : State) (b manifest : Bool) : List (Sect × Nat) → State × Nat × Option Nat
  | [] => (s, if manifest then 0 else 11, none)
  | (x, i) :: r =>
    match sectApply b (s, 0) x with
    | (s, 0) => passTwo s b manifest r
    | (s, c) => (s, c, if c = 12 then some i else none)

/-- The sections of the copy from number `i`. -/
def sectsFrom (s : State) (b : Bool) (i : Nat) : List (Sect × Nat) := (sects (hdrOf s b)).zipIdx.drop i

/-- Steps 5 to 10 of an attempt: the state, the code, and the section that waits. -/
def attempt (s : State) (b : Bool) (d : FlashShow) (manifest : Bool) : State × Nat × Option Nat :=
  let s := (memInit s).wr LDR_FLASHCAP (BitVec.ofNat 32 d.cap)
  let s := s.setBt LDR_FUSTAT 30 d.suspend
  let c := passOne s b d
  let len := leAt (hdrOf s b) 8 4
  let s := if c = 0 ∨ 5 ≤ c ∧ c ≠ 7 then (streamed s b).foldl (sectLoad b) s else s
  let s := s.setBt LDR_STATUS 26 (decide (c = 0 ∨ c = 9) && keyGood s ((sigBlock s b len).take 64) && sigGood s b len)
  if c ≠ 0 then (s, c, none) else passTwo s b manifest (sectsFrom s b 0)

/-- The blocks of ranks 2 to 7 at their reset values, while LOADER holds them (R375). -/
def ranksReset (s : State) : State :=
  let s := imgReset (narrowBlocks.foldl blockReset s)
  let s := discKept s ((s.clearRegs 0x30200000 0x30210000).clearRegs 0x32000000 0x32040000 (fun a => a == TU_PPS_STAT))
  { s with dmaH := [], tbs := [], tsq := [] }

/-- The order of release before the pairs (R376). -/
def releaseOrder : List Nat :=
  [96, 97, 98] ++ (List.range 16).map (· + 10) ++ (List.range 64).map (· + 32) ++ [26, 27, 28] ++ List.range 8

/-- A pack context started: its instance holds its outputs not valid (R165). -/
def packStarts (s : State) (k : Nat) : State := s.setCtx k { s.ctx k with starting := true }

/-- A context the loader starts (R165, R376): with the device service on context 0 of PE7, which runs in every image (R162), or a pack's
that `run` names. The device service is no pack instance. -/
def loaderStart (run : List Nat) (s : State) (k : Nat) : State :=
  if cst s k = 0 ∧ ctxLive s k then (if k = 56 then ctxStart s k else if run.contains k then packStarts (ctxStart s k) k else s) else s

/-- Release (R376): `run` are the keys of the pack contexts that start, in ascending order (R165). -/
def release (s : State) (b : Bool) (run : List Nat) : State :=
  let h := hdrOf s b
  let s := s.wr LDR_IMGSVN (BitVec.ofNat 32 (leAt h 12 4))
  let s := (List.range 4).foldl (fun s i => s.wr (LDR_BUILDID i) (BitVec.ofNat 32 (leAt h (24 + 4 * i) 4))) s
  let s := releaseOrder.foldl ldrRelease s
  let s := (List.range 64).foldl (loaderStart run) s
  let s := if arbMode s = 0 then s else ldrRelease s 8
  let s := if arbMode s = 1 then ldrRelease s 9 else s
  let s := if leAt h 20 4 % 2 = 0 then (busWrite s 16 IMG_CTRL (putBit (s.rd IMG_CTRL) 31 true)).1 else s
  let s := if b ∨ s.fl LDR_STATUS 23 16 ≠ 0 then s.raise LDR_IRQSTAT 0x4 else s
  ldrStage s 8

/-- The end of an attempt with code `c` (R375): release, the next attempt, or HALTLOAD. -/
def attemptEnd (s : State) (b : Bool) (run : List Nat) (c : Nat) : State :=
  let s := s.setBt LDR_BOOTCNT 3 false
  if c = 0 then release (if b then s else s.setFl LDR_BOOTCNT 5 4 0) b run
  else
    let s := s.setFl LDR_STATUS 23 16 c
    let s := if c = 12 then s
      else
        let s := s.satInc LDR_BOOTCNT 23 16
        if b then s else consecInc s
    if b ∨ c = 12 then ldrStage s 15 else attemptBegin (ranksReset s)

/-- What a run of pass 2 comes to (R374): while a REG entry's block is in reset and the 10 ms have not passed, the loader waits
in stage APPLY; else the attempt ends. -/
def attemptGo (r : State × Nat × Option Nat) (b late : Bool) (run : List Nat) : State :=
  let h := r.1.ldrH
  let from_ := if h.wait.isSome then h.waitAt else r.1.cycles
  let late := late && decide (from_ + 10000000 ≤ r.1.cycles)
  let s : State := { r.1 with ldrH := { h with wait := if late then none else r.2.2, waitAt := from_ } }
  if r.2.2.isSome ∧ late = false then ldrStage s 7 else attemptEnd s b run r.2.1

/-- LOAD_ATTEMPT (R374, R375): one attempt of the copy chosen, or the next try of one that waits, and what follows it. `run` is
what the manifest gives: none where it fails R164, else the contexts to start; the spec gives the manifest no format (log entry
28). `late`: the block is still in reset after the 10 ms. -/
def loadAttempt (s : State) (d : FlashShow) (run : Option (List Nat)) (late : Bool) : State :=
  let b := s.bt LDR_STATUS 27
  if wideReset s then s
  else if s.fl LDR_STATUS 31 28 = 2 then attemptGo (attempt s b d run.isSome) b late (run.getD [])
  else
    match s.ldrH.wait with
    | none => s
    | some i => attemptGo (passTwo s b run.isSome (sectsFrom s b i)) b late (run.getD [])

/-! ## Register replay (R377) -/

/-- One REG entry of a replay: an error response is skipped with RPERR. -/
def replayEntry (s : State) (e : Word × Word) : State :=
  match busWrite s 16 e.1.toNat e.2 with
  | (s, .err _) => s.raise LDR_IRQSTAT 0x10
  | (s, _) => s

/-- The REG entries of a copy, in table order. -/
def regEntries (s : State) (b : Bool) : List (Word × Word) :=
  ((sects (hdrOf s b)).filter (·.typ == 3)).flatMap (fun x => entriesOf (sectData s b x))

/-- The code that stops reading sections of types `p` again: a flash read that fails, the header, a section's SCRC. -/
def rereadCode (s : State) (b : Bool) (fail : Bool) (p : Sect → Bool) : Nat :=
  if fail then 1
  else if hdrGood (hdrOf s b) = false then 2
  else if ((sects (hdrOf s b)).filter p).all (sectGood s b) then 0 else 8

/-- REGISTER_REPLAY: the first waiting target, in the order of R377; `fail`: a flash read fails. -/
def registerReplay (s : State) (fail : Bool) : State :=
  if wideReset s ∨ ldrRun s = false then s
  else
    match narrowBlocks.find? (fun t => smGet false s.replay t) with
    | none => s
    | some t =>
      let b := s.bt LDR_STATUS 27
      let c := rereadCode s b fail (·.typ == 3)
      if c ≠ 0 then
        let s : State := { s with replay := smSet false s.replay t false }
        (s.raise LDR_IRQSTAT 0x10).setFl LDR_FUSTAT 23 16 c
      else
        let s := ((regEntries s b).filter (fun e => inTarget t e.1.toNat)).foldl replayEntry s
        ldrRelease s t

/-! ## The ends of flash update operations (R378, R379) -/

/-- Setting bytes of the flash. -/
def setFlash (s : State) (o : Nat) : List Byte → State
  | [] => s
  | x :: r => setFlash { s with flash := smSet 0xFF s.flash o x } (o + 1) r

/-- A range of the flash erased. -/
def eraseFlash (s : State) (lo n : Nat) : State :=
  { s with flash := s.flash.filter (fun e => decide (e.1 < lo) || decide (lo + n ≤ e.1)) }

/-- A range whose erase or program failed: its contents are free (DESIGN CHOICE, log entry 4). -/
def spoilFlash (s : State) (lo n : Nat) : State :=
  let l := (List.range n).map (fun i => BitVec.ofNat 8 ((Config.freeWord (s.freeCtr + i / 4)).toNat / 2 ^ (8 * (i % 4))))
  { setFlash s lo l with freeCtr := s.freeCtr + n / 4 }

/-- A page programmed: bits go from 1 to 0 only (PRESUMED, log entry 29). -/
def programFlash (s : State) (o : Nat) (l : List Byte) : State :=
  setFlash s o (l.zipWith (· &&& ·) (flashBytes s o l.length))

/-- A thermometer word with at least `n` bits set. -/
def raiseBits (n : Nat) (w : Word) : Word :=
  (List.range 32).foldl (fun w i => if onesOf w < n then putBit w i true else w) w

/-- RELOADPE of engine `n`: the code (R378). -/
def reloadPe (s : State) (n : Nat) (fail : Bool) : State × Nat :=
  let b := s.bt LDR_STATUS 27
  let mine (x : Sect) : Bool := (x.typ == 1 || x.typ == 2) && inScratch n x.dest
  let c := rereadCode s b fail (fun x => mine x || x.typ == 3)
  if c ≠ 0 then (s, c)
  else if closed s 16 n then (s, 12)
  else
    let s := ((sects (hdrOf s b)).filter mine).foldl (sectLoad b) s
    (((regEntries s b).filter (fun e => inTarget n e.1.toNat)).foldl replayEntry s, 0)

/-- The effect of the operation that ends; `manifest`: the copy's manifest passes R164. -/
def fuEffect (s : State) (fail manifest : Bool) : State :=
  let h := s.ldrH
  let ab := s.fl LDR_FUSTAT 29 28 == 2
  let bad (s : State) : State := if ab then s else fuRes s 1
  if h.op = 1 then (if fail then bad (spoilFlash s h.opAddr 65536) else eraseFlash s h.opAddr 65536)
  else if h.op = 2 then (if fail then bad (spoilFlash s h.opAddr 256) else programFlash s h.opAddr h.opData)
  else if h.op = 9 then bad s
  else if ab then s
  else if h.op = 3 then
    let c := if fail then 1 else imageCode s h.opCopy (s.rd LDR_FLASHCAP).toNat true manifest
    let s := State.setFl { s with ldrH := { h with verified := h.verified || (c == 0 && !h.opCopy) } } LDR_FUSTAT 23 16 c
    if fail then bad s else s
  else if fail ∧ h.op ≠ 7 then bad s
  else if h.op = 4 then s.setFl LDR_BOOTCNT 5 4 0
  else if h.op = 5 then
    let w := raiseBits (min 32 (s.rd LDR_IMGSVN).toNat) (fuseWord s 21 ||| fuseWord s 23)
    { s with fuses := smSet 0 (smSet 0 s.fuses 21 w) 23 w }
  else if h.op = 7 then
    match reloadPe s h.opAddr fail with
    | (s, 0) => s
    | (s, c) => fuRes (s.setFl LDR_FUSTAT 23 16 c) 1
  else s

/-- FLASH_OP_DONE (R379): the operation ends with its effect; `fail`: the flash reports an error. -/
def flashOpDone (s : State) (fail manifest : Bool) : State :=
  if wideReset s ∨ fuBusy s = false then s
  else
    let s := fuEffect s fail manifest
    let s := ((s.setBt LDR_FUSTAT 31 false).wrapInc LDR_FUSTAT 15 0).raise LDR_IRQSTAT 0x1
    let s : State := { s with ldrH := { s.ldrH with op := 0, opData := [] } }
    if s.fl LDR_FUSTAT 29 28 = 0 then s else s.raise LDR_IRQSTAT 0x2

/-! ## Fuse blow, debug, boundary scan (R380 to R382) -/

/-- A bit of the array is set. -/
def fuseBurn (s : State) (w i : Nat) : State := { s with fuses := smSet 0 s.fuses w (putBit (fuseWord s w) i true) }

/-- FUSE_BLOW_DONE: both copies of a dynamic word are blown; `ok`: the read-back shows the bit. -/
def fuseBlowDone (s : State) (ok : Bool) : State :=
  match s.ldrH.blowing with
  | none => s
  | some b =>
    let w := b / 32
    let s := if ok then
        let s := fuseBurn s w (b % 32)
        (if w = 20 ∨ w = 21 then fuseBurn s (w + 2) (b % 32) else s).wrapInc LDR_FPSTAT 15 0
      else s.setBt LDR_FPSTAT 30 true
    (State.setBt { s with ldrH := { s.ldrH with blowing := none } } LDR_FPSTAT 31 false).raise LDR_IRQSTAT 0x8

/-- The message an unlock token signs: SERIAL, then the nonce (R380). -/
def tokenText (s : State) : List Byte :=
  ([LDR_FUSE 0, LDR_FUSE 1] ++ (List.range 4).map LDR_DBGNONCE).flatMap (fun a => leBytes 4 (s.rd a).toNat)

/-- The `n` big-endian bytes of a value. -/
def beOf (n v : Nat) : List Byte := (leBytes n v).reverse

/-- DEBUG_UNLOCK with a key and a signature (R380). -/
def debugUnlock (s : State) (x y r t : Nat) : State :=
  if s.bt LDR_FUSESTAT 31 = false ∨ dbgMode s ≠ 1 ∨ s.ldrH.unlocked ∨ s.ldrH.refused then s
  else
    let good := keyGood s (beOf 32 x ++ beOf 32 y) && ecdsaOk x y r t (sha256 (tokenText s))
    { s with ldrH := { s.ldrH with unlocked := good, refused := !good } }

end Sys2Proof.Machine
end

