-- ==== Sys2Proof/Machine/Rows.lean ====
section
/-! DEFINITION. What the commands share: a bus access as a command, an instruction, time that passes before an event, and the
events of more than one part. -/

namespace Sys2Proof.Machine

/-! ## Bus accesses and instructions -/

/-- The end of a command that is one bus access: its response, and the STEPs it asked for (R120, R439). -/
def answer (r : State × Resp) : Host.Outcome State Fault Refusal := done (runSteps { r.1 with resp := r.2 })

/-- A word write by a master. -/
def writeRow (s : State) (m : Master) (a : Nat) (v : Word) : Host.Outcome State Fault Refusal := answer (busWrite s m.val a v)

/-- Where master `m` reaches the pair-local register that stands at `a` in the windows on both pairs: a pair reaches its own in
its own window (R349, Table 1.3). -/
def localAddr (m a : Nat) : Nat :=
  if (m = 9 ∧ 0x40810000 ≤ a ∧ a < 0x40820000) ∨ (m = 10 ∧ 0x40820000 ≤ a ∧ a < 0x40830000) then 0x40800000 + a % 0x10000 else a

/-- A word read by a master. -/
def readRow (s : State) (m : Master) (a : Nat) : Host.Outcome State Fault Refusal := answer (busRead s m.val a)

/-- An instruction of a context (R121). -/
def jRow (s : State) (x : CtxId) (i : JMn) (f u : Upset) : Host.Outcome State Fault Refusal := done (jIssue s x i f u)

/-- The state of an event of a Huxon sequencer and the channels it pulses. -/
def pulseRow (r : State × List Nat) : State := pulsesNow r.1 r.2

/-! ## Cells (R34, R41, R55) -/

/-- A tick that the cell runs fetches an entry: no delay or wait is under way (R35). -/
def tickFetches (s : State) (c : Nat) : Bool := s.fl (CELL_STATUS c) 15 8 == 0 && !s.bt (CELL_STATUS c) 25

/-- The index of the entry a cell fetches next, in unit 5 of the memory protection (Table 20.2): after a pending swap of a
stalled cell, in the other bank. -/
def fetchIndex (s : State) (c : Nat) : Nat :=
  let swap := decide (cellState s c = 2) && s.bt (CELL_STATUS c) 28
  c * 256 + (Bool.xor swap (s.bt (CELL_STATUS c) 29)).toNat * 128 + s.fl (CELL_STATUS c) 22 16

/-- The tick of this cycle at a cell whose samples are `pa` and `pb` (R34, R41, R441): `bad` where the entry it fetches cannot be
corrected. -/
def cellTickAt (s : State) (c : Nat) (pa pb bad : Bool) : State × List Nat :=
  cellTickOp s c pa pb (tickRuns s c && !startHolds s c) (bad && tickFetches s c)

/-- The tick of Sg in the same cycle, where it compares with the cell, and the comparison of the signals of Table 5.5 (R111, R113).
`r` is the cell's tick. -/
def shadowTick (s : State) (r : State × List Nat) (c : Nat) (pa pb : Bool) : State :=
  match shdOn s c with
  | none => r.1
  | some k =>
    let v := shdView s c k
    let r' := if onGrid v c then cellTickAt v c pa pb false else (v, [])
    let t := shdTake r'.1 c
    let kind := pinDiff r.1 c t + 16 * (onGrid s c != onGrid v c).toNat + tickDiff s r.1 r.2 v r'.1 r'.2 c
    if kind = 0 then shdKeep r.1 c t else shdDiffer (shdKeep r.1 c t) (c / 16) kind

/-- CELL_TICK: a tick of a powered cell out of reset, in a cycle in which one of its grid falls (R69), whose second synchroniser
stages hold the ball levels `la` and `lb`; `u` is what the check bits of the entry show. -/
def cellTickRow (s : State) (c : Nat) (la lb : Bool) (u : Upset) : State :=
  let pa := sampleOf s c false la
  let pb := sampleOf s c true lb
  if cellLive s c = false ∨ onGrid s c = false then s
  else
    let r := cellTickAt s c pa pb (decide (u = .double))
    let s' := shadowTick s (pulsesCell r.1 (c / 16) r.2, r.2) c pa pb
    if tickRuns s c && !startHolds s c && tickFetches s c then dgEcc s' 5 (fetchIndex s c) u else s'

/-- EDGE_CAPTURE: an edge of the ball that CELL_CAPCFG selects by its logical direction (DEDUCED, log entry 33), at `sub` / 8 ns after
the start of the cycle (R48, R55, R177). -/
def edgeCapture (s : State) (c : Nat) (pinB ballRise : Bool) (sub : Nat) : State :=
  let rise := sampleOf s c pinB ballRise
  let sel := s.fl (CELL_CAPCFG c) (if pinB then 3 else 1) (if pinB then 2 else 0)
  if cellLive s c && (sel == 3 || sel == (if rise then 1 else 2)) then capture s c pinB ((s.tb 0).after sub) ((s.tb 0).after sub).sub else s

/-- The address of a check-unit parameter register (R92). -/
def chkParamAt (u : ChkUnit) : ChkParam → Nat
  | .poly => CHK_POLY (chkBase u)
  | .init => CHK_INIT (chkBase u)
  | .xorout => CHK_XOROUT (chkBase u)

/-- The address of a check-unit feed register (Table 4.8). -/
def chkFeedAt (u : ChkUnit) : FeedN → Nat
  | .n1 => CHK_FEED1 (chkBase u)
  | .n2 => CHK_FEED2 (chkBase u)
  | .n4 => CHK_FEED4 (chkBase u)

/-! ## The time unit and the image store -/

/-- An event of the time unit while it is out of reset. -/
def ifTu (s : State) (f : State → State) : State := if inReset s blkTu then s else f s

/-- TB0 in nanoseconds. -/
def now0 (s : State) : Nat := nsOf (s.tb 0).sec (s.tb 0).ns

/-- EXPORT_LATE: `ready` sets have been handed over in time; set `x` is abandoned at t_k + XOFF - 1 µs (R216). -/
def exportLateRow (s : State) (x ready : Nat) : State :=
  if inReset s blkImg then s
  else
    let s := handOver s ready
    if commitAt s s.imgE + (s.rd (IMG_XOFF x)).toNat ≤ now0 s + 1000 then exportLate s x else s

/-- IMPORT_FRAME: the IMG port delivers the first frame of its highest class that has one ready (R219, R295). -/
def importRow (s : State) : State :=
  if inReset s blkImg ∨ swLive s = false then s
  else
    match ([7, 6, 5, 4, 3, 2, 1, 0].map (112 + ·)).find? (fun q =>
        match swQueue s q with | [] => false | x :: _ => !waitsLaunch s q x) with
    | none => s
    | some q =>
      match swQueue s q with
      | [] => s
      | x :: _ => importFrame (if x.bad then popHead s q else (popHead s q).wrapInc (SW_P_CNT1 14) 31 0) (copyBytes x) x.bad

/-- IMPORT_MISS_CHECK at t_E + D (R221). -/
def missRow (s : State) : State :=
  if inReset s blkImg ∨ now0 s < commitAt s s.imgE + imgD s then s else missCheck s

/-- A window read whose tags or timestamps cannot be read: an error response in place of the data (Table 20.2). -/
def windowRow (s : State) (m o : Nat) (sz : Size) (tags : Bool) (u : Upset) : State × Resp :=
  if tags = false then busAcc s m (0x24000000 + o) sz .rd u
  else
    match busAcc s m (0x24000000 + o) sz .rd .good with
    | (s', .ok v) =>
      if u = .double then busFail (dgEcc s 2 (o / 64) u) m (0x24000000 + o) false 5 else (dgEcc s' 2 (o / 64) u, .ok v)
    | r => r

/-! ## The device service (R162, R167, R170) -/

/-- The newest slot of a point: the one with the greatest tag. -/
def newestSlot (x : ImgPt) : ImgSlot :=
  let a := if slotAge x.s1 ≤ slotAge x.s0 then x.s0 else x.s1
  if slotAge x.s2 ≤ slotAge a then a else x.s2

/-- A write of a point by the firmware of an engine, master `m` (R209): the state, and the point where it was refused; a write refused,
or to an image store that is closed to it, is logged (R16). -/
def firmPut (s : State) (m p : Nat) (data : List Byte) (q ns sec sub : Nat) : State × Option Nat :=
  if closed s m blkImg then (logErr s m (0x24000000 + 64 * p) true 6, some p)
  else
    match imgPut s m none p data none q ns sec sub with
    | (s, true) => (s, none)
    | (s, false) => (logErr s m (0x24000000 + 64 * p) true 3, some p)

/-- DBUS of context `k` at the write of a point that was refused, if one was (R144, R147): the context runs, at its PC. -/
def firmEnd (k : Nat) : State × Option Nat → State
  | (s, none) => s
  | (s, some p) => takeExc (setCst s k 1) k 5 (ctxPC s k) (posNext s k) (s.ctx k).slot.isSome 0 (some p)

/-- A point written again by master `m` with its previous value and STALE set (R167); nothing is written before it has had a
value. -/
def staleAgain (s : State) (m p : Nat) : State × Option Nat :=
  let c := newestSlot (s.pt p)
  if c.used = false then (s, none) else firmPut s m p c.data (c.qual ||| 1) c.ns c.sec c.sub

/-- The context of engine `n` whose firmware writes: the lowest that runs or waits (DESIGN CHOICE, log entry 100: the row names only the
engine). -/
def firmCtx (s : State) (n : Nat) : Option Nat :=
  ((List.range 8).map (8 * n + ·)).find? (fun k => ctxLive s k && (cst s k == 1 || cst s k == 2) && decide ((s.ctx k).blk = .none))

/-- POINT_TIMEOUT: the pack on engine `n` writes point `p` again (R167), while a context of the engine runs; a refused write is
logged and raises DBUS there (R209). -/
def pointTimeoutRow (s : State) (n p : Nat) : State :=
  match firmCtx s n with
  | none => s
  | some k => firmEnd k (staleAgain s (n + 1) p)

/-- The previous value of a diagnostic point with STATE and REASON replaced (Table 7.4). -/
def diagBytes (s : State) (p state reason : Nat) : List Byte :=
  [BitVec.ofNat 8 state, BitVec.ofNat 8 reason] ++ (List.range 14).map (fun i => slotByte (newestSlot (s.pt p)) (i + 2))

/-- A command of the device service, master 8, to a context of engine `n`. -/
def serviceCmd (s : State) (n k : Nat) (cmd : Word) : State := (busWrite s 8 (PE_CTX_CTRL n k) cmd).1

/-- The contexts of engine `n` that carry packs: all, but context 0 of PE7, which carries the device service (R162). -/
def packCtxs (n : Nat) : List Nat := (List.range 8).filter (fun j => !(n == 7 && j == 0))

/-- The engine's contexts stop, but the device service. -/
def serviceStop (s : State) (n : Nat) : State :=
  (packCtxs n).foldl (fun s j => if cst s (8 * n + j) = 1 ∨ cst s (8 * n + j) = 2 then serviceCmd s n j 2 else s) s

/-- RELOADPE of engine `n` to its end (R378), but of PE7, where it refuses the commanding engine: the state, and whether the instances
may start. -/
def serviceReload (s : State) (n : Nat) : State × Bool :=
  if n = 7 then (s, true)
  else
    match busWrite (busWrite s 8 LDR_FUADDR (BitVec.ofNat 32 n)).1 8 LDR_FUCMD 0xA55A0007 with
    | (s, .ok _) => (flashOpDone s false true, (flashOpDone s false true).fl LDR_FUSTAT 29 28 == 0)
    | (s, _) => (s, false)

/-- The faulted contexts are cleared, and the contexts `run` start in ascending order, their outputs not valid (R165, R170). -/
def serviceStart (s : State) (n : Nat) (run : List Nat) : State :=
  let s := (packCtxs n).foldl (fun s j => if cst s (8 * n + j) = 3 then serviceCmd s n j 5 else s) s
  ((packCtxs n).filter run.contains).foldl (fun s j => packStarts (serviceCmd s n j 1) (8 * n + j)) s

/-- One write of the device service after others; the first refused point stays known. -/
def serviceThen (f : State → State × Option Nat) (r : State × Option Nat) : State × Option Nat := ((f r.1).1, r.2.or (f r.1).2)

/-- The device service writes STATE and REASON of a diagnostic point. -/
def serviceDiag (p state reason : Nat) (s : State) : State × Option Nat :=
  firmPut s 8 p (diagBytes s p state reason) 0 (s.tb 0).ns (s.tb 0).sec (s.tb 0).sub

/-- Steps 1 and 2 of R170: the diagnostic point FAILED, and every input point stale; and the first point refused. -/
def serviceMark (s : State) (n k diag : Nat) (inputs : List Nat) : State × Option Nat :=
  let wdog := s.bt (PE_FAULT n) 31 && s.fl (PE_FAULT n) 6 4 == k && s.fl (PE_FAULT n) 3 0 == 13
  let r := inputs.foldl (fun r p => serviceThen (staleAgain · 8 p) r) (serviceDiag diag 3 (if wdog then 2 else 1) s)
  (r.1.setCtx (8 * n + k) { r.1.ctx (8 * n + k) with marked := true }, r.2)

/-- Step 3 of R170: the engine's other contexts stop, and once all have, the engine is reloaded and its instances restart; the
diagnostic point passes through RECOVERING and then STARTING. While a context still ends an access or a slot, or the reload is
refused or fails, nothing starts, and the row given again goes on from here (DESIGN CHOICE, log entry 31). -/
def serviceRestart (s : State) (n diag : Nat) (run : List Nat) : State × Option Nat :=
  let s := serviceStop s n
  if (packCtxs n).any (fun j => cst s (8 * n + j) = 1 ∨ cst s (8 * n + j) = 2) then (s, none)
  else
    match serviceReload s n with
    | (s, false) => (s, none)
    | (s, true) =>
      let r := serviceDiag diag 4 (slotByte (newestSlot (s.pt diag)) 1).toNat s
      serviceThen (fun s => serviceDiag diag 0 0 (serviceStart s n run)) r

/-- INSTANCE_FAULT_RECOVERY: context `k` of engine `n` is FAULTED and the device service on context 0 of PE7 runs. `diag` and
`inputs` are the points of the instance, `run` the contexts to start (R170; DESIGN CHOICE, log entry 31). Its points are marked once.
A refused write raises DBUS in the device service, after its other steps (DESIGN CHOICE, log entry 100). -/
def instanceRecovery (s : State) (n k diag : Nat) (inputs run : List Nat) : State :=
  if cst s (8 * n + k) ≠ 3 ∨ ctxLive s (8 * n + k) = false ∨ ctxLive s 56 = false ∨ (cst s 56 ≠ 1 ∧ cst s 56 ≠ 2) then s
  else
    firmEnd 56 (serviceThen (serviceRestart · n diag run) (if (s.ctx (8 * n + k)).marked then (s, none) else serviceMark s n k diag inputs))

/-! ## Huxon sequencers -/

/-- An event of a sequencer that takes part, with the channels it pulses. -/
def hxRow (s : State) (n : Nat) (f : State → State × List Nat) : State := if hxLive s n then pulseRow (f s) else s

/-- An event of a sequencer that takes part. -/
def hxEvent (s : State) (n : Nat) (f : State → State) : State := if hxLive s n then f s else s

/-- An event of a sequencer out of reset, in any state. -/
def hxOut (s : State) (n : Nat) (f : State → State) : State := if inReset s (blkHx n) then s else f s

/-- HX_FRAME_RECEIVE: the start bit is heard now, after 12 T_b of idle, and the frame of the bytes given ends `len` cycles later; where a
transmission of its own falls due before that, the receiver abandons the frame then as a framing error (R229). -/
def hxFrame (s : State) (n : Nat) (l : List Byte) (framing : Bool) (len : Nat) : State :=
  hxRow s n (fun s =>
    if hxHears s n = false then (s, [])
    else
      let cut := match hxNextDue s n with | some t => decide (t ≤ s.cycles + len) | none => false
      let len := if cut then (hxNextDue s n).getD 0 - s.cycles else len
      hxReceive (elapse (hxHear s n) len) n l (framing || cut) s.cycles (s.tb 0))

/-! ## CAN controllers -/

/-- The state of an event of a CAN controller and the channels it pulses. -/
def canPulse (r : State × List Nat) : State := pulsesCan r.1 r.2

/-- A controller out of reset and in state `st`. -/
def canIn (s : State) (n st : Nat) : Bool := !inReset s (blkCan n) && canState s n == st

/-- CAN_INTEGRATION_DONE (R271). -/
def canIntegrated (s : State) (n : Nat) : State := if canIn s n 1 then s.setFl (CAN_STATUS n) 31 30 2 else s

/-- The start of frame of a frame on the bus, seen once: drive port 0 pulses, and reception begins (R278). -/
def canFrameStart (s : State) (n : Nat) : State :=
  if s.bt (CAN_STATUS n) 26 then s else canRxAct (pulsesCan s (canSofPulse s n)) n (some (s.tb 0))

/-- A protocol exception in a frame under reception: INTEGRATING, and PEX counts (R270). -/
def canException (s : State) (n : Nat) : State :=
  if canIn s n 2 && canHears s n then
    ((canRxAct (canFrameStart s n) n none).setFl (CAN_STATUS n) 31 30 1).satInc (CAN_CNT n) 23 16
  else s

/-- CAN_FRAME_RECEIVE: the frame starts now, or began as the one whose arbitration the controller lost, and ends `len` cycles later
(R278, R279). An FD frame while FDOE = 0 is a protocol exception (R270). -/
def canReceiveRow (s : State) (n : Nat) (f : CanFrame) (len : Nat) : State :=
  if canIn s n 2 && canHears s n then
    if f.fdf && !s.bt (CAN_CFG n) 2 then elapse (canException s n) len
    else
      let s := canFrameStart s n
      let own := smGet (s.tb 0) s.canSof n
      let s := elapse s len
      if canIn s n 2 then
        let s := canStore (canRxGood (canRxAct s n none) n) n f own
        canTsClear (pulsesCan s (canEofPulse s n)) n
      else s
  else s

/-- CAN_TX_END: the attempt's frame starts now and ends `len` cycles later (R276, R278). An attempt whose error took the
controller to BUSOFF ends there. -/
def canTxRow (s : State) (n : Nat) (e : CanEnd) (len loop : Nat) : State :=
  if (canIn s n 2 || (canIn s n 3 && (match e with | .error _ => true | _ => false))) && (canActive s n).isSome && canEndOk s n e then
    let own := s.tb 0
    canPulse (canTxEnd (elapse (pulsesCan s (canSofPulse s n)) len) n e own loop)
  else s

/-- CAN_ERROR (R280): the error of a receiver ends the frame under reception, whose start of frame has been seen by then (R278); the
intermission that follows clears the captures (R79). -/
def canErrorRow (s : State) (n lec : Nat) (k : CanErr) : State :=
  if canIn s n 2 = false then s
  else if k = .transmitter then canTsClear (canPulse (canError s n lec k)) n
  else if canHears s n = false then s
  else if s.bt (CAN_STATUS n) 27 then canPulse (canError s n lec k)
  else canTsClear (canPulse (canError (canRxAct (canFrameStart s n) n none) n lec k)) n

/-- BUSOFF_RECOVERY: `k` more occurrences of 11 recessive bits (R280). -/
def canRecoverRow (s : State) (n k : Nat) : State := if canIn s n 3 then canRecover s n k else s

/-! ## The switch -/

/-- FRAME_FORWARD: the frame's timestamp point crosses now (`sub` in 125 ps); the switch forwards it `rest` cycles later, when
a cut-through copy's own point crosses at `csub`. -/
def frameRow (s : State) (p : Nat) (data : List Byte) (fcs : Fcs) (busy : Word) (sub rest csub : Nat) (u : EccSeen) : State :=
  let tin := (List.range 4).map (fun t => ingressAt s p t sub)
  runSteps (frameForward (elapse s rest) p data fcs busy tin csub u)

/-- FRAME_TRANSMIT; a frame the packet buffer cannot correct is bad and discarded (R288, R441). A port whose SERDES is being
recalibrated sends nothing (R446). -/
def transmitRow (s : State) (p sub : Nat) (u : EccSeen) : State :=
  if bitAt s.serCal (p + 2) ∨ swLive s = false ∨ linkUp s p = false then s
  else
    match nextClass s p with
    | none => s
    | some c =>
      let s := dgEcc s 3 u.index u.u
      if u.u = .double then popHead s (8 * p + c) else frameTransmit s p sub

end Sys2Proof.Machine
end

