-- ==== Sys2Proof/Machine/CmdAlu.lean ====
section
/-! DEFINITION. The commands: the register instructions (R129, R130). -/

namespace Sys2Proof.Machine

/-- ADD (R130): ADD writes RA + RB to RD. -/
def execAdd (x : CtxId) (f : Upset) (s : State) : Host.Outcome State Fault Refusal :=
  jRow s x .add f .good

/-- SUB (R130): SUB writes RA − RB to RD. -/
def execSub (x : CtxId) (f : Upset) (s : State) : Host.Outcome State Fault Refusal :=
  jRow s x .sub f .good

/-- AND (R130): AND writes RA AND RB to RD. -/
def execAndI (x : CtxId) (f : Upset) (s : State) : Host.Outcome State Fault Refusal :=
  jRow s x .and_ f .good

/-- OR (R130): OR writes RA OR RB to RD. -/
def execOrI (x : CtxId) (f : Upset) (s : State) : Host.Outcome State Fault Refusal :=
  jRow s x .or_ f .good

/-- XOR (R130): XOR writes RA XOR RB to RD. -/
def execXorI (x : CtxId) (f : Upset) (s : State) : Host.Outcome State Fault Refusal :=
  jRow s x .xor_ f .good

/-- NOR (R130): NOR writes NOT (RA OR RB) to RD. -/
def execNor (x : CtxId) (f : Upset) (s : State) : Host.Outcome State Fault Refusal :=
  jRow s x .nor f .good

/-- SLL (R130): SLL shifts RA left by RB[4:0]. -/
def execSll (x : CtxId) (f : Upset) (s : State) : Host.Outcome State Fault Refusal :=
  jRow s x .sll f .good

/-- SRL (R130): SRL shifts RA right logically by RB[4:0]. -/
def execSrl (x : CtxId) (f : Upset) (s : State) : Host.Outcome State Fault Refusal :=
  jRow s x .srl f .good

/-- SRA (R130): SRA shifts RA right arithmetically by RB[4:0]. -/
def execSra (x : CtxId) (f : Upset) (s : State) : Host.Outcome State Fault Refusal :=
  jRow s x .sra f .good

/-- ROR (R130): ROR rotates RA right by RB[4:0]. -/
def execRor (x : CtxId) (f : Upset) (s : State) : Host.Outcome State Fault Refusal :=
  jRow s x .ror f .good

/-- SLT (R130): SLT writes 1 if RA < RB signed, else 0. -/
def execSlt (x : CtxId) (f : Upset) (s : State) : Host.Outcome State Fault Refusal :=
  jRow s x .slt f .good

/-- SLTU (R130): SLTU writes 1 if RA < RB unsigned, else 0. -/
def execSltu (x : CtxId) (f : Upset) (s : State) : Host.Outcome State Fault Refusal :=
  jRow s x .sltu f .good

/-- MIN (R130): MIN writes the signed minimum of RA and RB. -/
def execMinI (x : CtxId) (f : Upset) (s : State) : Host.Outcome State Fault Refusal :=
  jRow s x .min_ f .good

/-- MAX (R130): MAX writes the signed maximum of RA and RB. -/
def execMaxI (x : CtxId) (f : Upset) (s : State) : Host.Outcome State Fault Refusal :=
  jRow s x .max_ f .good

/-- MINU (R130): MINU writes the unsigned minimum of RA and RB. -/
def execMinu (x : CtxId) (f : Upset) (s : State) : Host.Outcome State Fault Refusal :=
  jRow s x .minu f .good

/-- MAXU (R130): MAXU writes the unsigned maximum of RA and RB. -/
def execMaxu (x : CtxId) (f : Upset) (s : State) : Host.Outcome State Fault Refusal :=
  jRow s x .maxu f .good

/-- MUL (R130): MUL writes the low 32 bits of RA × RB. -/
def execMul (x : CtxId) (f : Upset) (s : State) : Host.Outcome State Fault Refusal :=
  jRow s x .mul f .good

/-- MULHU (R130): MULHU writes the high 32 bits of the unsigned product. -/
def execMulhu (x : CtxId) (f : Upset) (s : State) : Host.Outcome State Fault Refusal :=
  jRow s x .mulhu f .good

/-- MULH (R130): MULH writes the high 32 bits of the signed product. -/
def execMulh (x : CtxId) (f : Upset) (s : State) : Host.Outcome State Fault Refusal :=
  jRow s x .mulh f .good

/-- CLZ (R130): CLZ writes the count of leading zeros of RA. -/
def execClz (x : CtxId) (f : Upset) (s : State) : Host.Outcome State Fault Refusal :=
  jRow s x .clz f .good

/-- POPC (R130): POPC writes the count of ones in RA. -/
def execPopc (x : CtxId) (f : Upset) (s : State) : Host.Outcome State Fault Refusal :=
  jRow s x .popc f .good

/-- BSWAP (R130): BSWAP writes RA with its bytes reversed. -/
def execBswap (x : CtxId) (f : Upset) (s : State) : Host.Outcome State Fault Refusal :=
  jRow s x .bswap f .good

/-- BREV (R130): BREV writes RA with its bits reversed. -/
def execBrev (x : CtxId) (f : Upset) (s : State) : Host.Outcome State Fault Refusal :=
  jRow s x .brev f .good

/-- SLLI (R129): SLLI shifts RA left by an immediate amount. -/
def execSlli (x : CtxId) (f : Upset) (s : State) : Host.Outcome State Fault Refusal :=
  jRow s x .slli f .good

/-- SRLI (R129): SRLI shifts RA right logically by an immediate amount. -/
def execSrli (x : CtxId) (f : Upset) (s : State) : Host.Outcome State Fault Refusal :=
  jRow s x .srli f .good

/-- SRAI (R129): SRAI shifts RA right arithmetically by an immediate amount. -/
def execSrai (x : CtxId) (f : Upset) (s : State) : Host.Outcome State Fault Refusal :=
  jRow s x .srai f .good

/-- RORI (R129): RORI rotates RA right by an immediate amount. -/
def execRori (x : CtxId) (f : Upset) (s : State) : Host.Outcome State Fault Refusal :=
  jRow s x .rori f .good

/-- EXTU (R129): EXTU extracts a bit field of RA, zero-extended. -/
def execExtu (x : CtxId) (f : Upset) (s : State) : Host.Outcome State Fault Refusal :=
  jRow s x .extu f .good

/-- EXTS (R129): EXTS extracts a bit field of RA, sign-extended. -/
def execExts (x : CtxId) (f : Upset) (s : State) : Host.Outcome State Fault Refusal :=
  jRow s x .exts f .good

/-- INS (R129): INS inserts the low bits of RA into a bit field of RD. -/
def execIns (x : CtxId) (f : Upset) (s : State) : Host.Outcome State Fault Refusal :=
  jRow s x .ins f .good

/-- ADDI (R129): ADDI writes RA plus the sign-extended immediate. -/
def execAddi (x : CtxId) (f : Upset) (s : State) : Host.Outcome State Fault Refusal :=
  jRow s x .addi f .good

/-- ANDI (R129): ANDI writes RA AND the zero-extended immediate. -/
def execAndi (x : CtxId) (f : Upset) (s : State) : Host.Outcome State Fault Refusal :=
  jRow s x .andi f .good

/-- ORI (R129): ORI writes RA OR the zero-extended immediate. -/
def execOri (x : CtxId) (f : Upset) (s : State) : Host.Outcome State Fault Refusal :=
  jRow s x .ori f .good

/-- XORI (R129): XORI writes RA XOR the zero-extended immediate. -/
def execXori (x : CtxId) (f : Upset) (s : State) : Host.Outcome State Fault Refusal :=
  jRow s x .xori f .good

/-- SLTI (R129): SLTI writes 1 if RA is below the immediate, signed. -/
def execSlti (x : CtxId) (f : Upset) (s : State) : Host.Outcome State Fault Refusal :=
  jRow s x .slti f .good

/-- SLTIU (R129): SLTIU writes 1 if RA is below the sign-extended immediate, unsigned. -/
def execSltiu (x : CtxId) (f : Upset) (s : State) : Host.Outcome State Fault Refusal :=
  jRow s x .sltiu f .good

/-- LUI (R129): LUI writes the immediate shifted left by 16. -/
def execLui (x : CtxId) (f : Upset) (s : State) : Host.Outcome State Fault Refusal :=
  jRow s x .lui f .good

end Sys2Proof.Machine
end

