-- ==== Sys2Proof/Machine/CmdAon.lean ====
section
/-! DEFINITION. The commands: the always-on domain and the line module slots (R410 to R437). -/

namespace Sys2Proof.Machine

/-- RTC_TICK (R415): The RTC advances one second, driving wear timing and calendar evaluation. -/
def execRtcTick (s : State) : Host.Outcome State Fault Refusal :=
  done (rtcTick s)

/-- RTC_LOAD (R416): LOAD sets the RTC count and clears the prescaler at the next CLK_32K edge. -/
def execRtcLoad (m : Master) (s : State) : Host.Outcome State Fault Refusal :=
  writeRow s m AON_RTC_CMD 1

/-- RTC_READ (R415): A read of AON_RTC_SECLO returns the count and latches the other RTC fields. -/
def execRtcRead (m : Master) (s : State) : Host.Outcome State Fault Refusal :=
  readRow s m AON_RTC_SECLO

/-- OSC_LOSS (R415): No CLK_32K edge for 200 µs clears OSCOK and stops the RTC. -/
def execOscLoss (s : State) : Host.Outcome State Fault Refusal :=
  done (oscLoss s)

/-- OSC_READY (R415): After 32,768 crystal cycles OSCOK becomes 1. -/
def execOscReady (s : State) : Host.Outcome State Fault Refusal :=
  done (oscReady s)

/-- AON_SUPPLY_SWITCH (R413): PD_AON changes between VAON and VBAT, counting changes to VBAT. -/
def execAonSupplySwitch (vaon : Bool) (s : State) : Host.Outcome State Fault Refusal :=
  done (aonSwitch s vaon)

/-- SLOT_REMOVE (R421): SLOT_PRS_n deasserted for 1 ms cuts slot power and enters EMPTY. -/
def execSlotRemove (k : Fin 32) (s : State) : Host.Outcome State Fault Refusal :=
  done (slotRemove s k.val)

/-- SLOT_INSERT (R421): SLOT_PRS_n asserted for 100 ms enters IDENT and reads the module records. -/
def execSlotInsert (k : Fin 32) (s : State) : Host.Outcome State Fault Refusal :=
  done (slotInsert s k.val)

/-- SLOT_IDENTIFY (R427): Identification completes, choosing the wear record and charging the insertion, or rejects. -/
def execSlotIdentify (k : Fin 32) (ok : Bool) (id p0 p1 : List Byte) (flt : Bool)
    (s : State) : Host.Outcome State Fault Refusal :=
  done (slotIdentify s k.val ok id p0 p1 flt)

/-- SLOT_ON (R421): The ON command asserts SLOT_EN_n. -/
def execSlotOn (m : Master) (k : Fin 32) (s : State) : Host.Outcome State Fault Refusal :=
  writeRow s m (SLOT_CMD k.val) 1

/-- SLOT_OFF (R421): The OFF command deasserts SLOT_EN_n and writes the record. -/
def execSlotOff (m : Master) (k : Fin 32) (s : State) : Host.Outcome State Fault Refusal :=
  writeRow s m (SLOT_CMD k.val) 2

/-- SLOT_CLEAR (R421): CLEAR moves a FAULT slot to OFF or a REJECT slot to IDENT. -/
def execSlotClear (m : Master) (k : Fin 32) (s : State) : Host.Outcome State Fault Refusal :=
  writeRow s m (SLOT_CMD k.val) 3

/-- SLOT_OVERCURRENT (R423): SLOT_FLT_n held for tOC cuts power and enters FAULT. -/
def execSlotOvercurrent (k : Fin 32) (s : State) : Host.Outcome State Fault Refusal :=
  done (slotTrip s k.val)

/-- SURGE_PULSE (R424): A classified SLOT_FLT_n pulse counts its class and adds its wear weight. -/
def execSurgePulse (k : Fin 32) (w : Nat) (s : State) : Host.Outcome State Fault Refusal :=
  done (surge s k.val w)

/-- SLOT_TEMP_READ (R429): The slot manager reads a module's temperature and sets its wear band. -/
def execSlotTempRead (k : Fin 32) (t : Option Nat) (s : State) : Host.Outcome State Fault Refusal :=
  done (slotTemp s k.val t)

/-- WEAR_WRITE_DONE (R430): The EEPROM acknowledges the write, PEND clears and SEQ advances. -/
def execWearWriteDone (k : Fin 32) (s : State) : Host.Outcome State Fault Refusal :=
  done (wearDone s k.val)

/-- WEAR_WRITE_ABANDON (R430): A write without acknowledgement in 10 ms, or with a bus error or removal, is abandoned. -/
def execWearWriteAbandon (k : Fin 32) (s : State) : Host.Outcome State Fault Refusal :=
  done (wearGiveUp s k.val)

/-- WEAR_WRITE_RETRY (R430): An abandoned write is retried after 60 RTC ticks. -/
def execWearWriteRetry (k : Fin 32) (s : State) : Host.Outcome State Fault Refusal :=
  done (wearRetry s k.val)

/-- SURVEY_WRITE (R434): A supervisor write of an AON_SURV entry clears its latches and evaluates it. -/
def execSurveyWrite (m : Master) (i : Fin 16) (v : Word) (s : State) : Host.Outcome State Fault Refusal :=
  writeRow s m (AON_SURV i.val) v

end Sys2Proof.Machine
end

