-- ==== Sys2Proof/Machine/CmdBoot.lean ====
section
/-! DEFINITION. The commands: start-up, the boot flash, debug and fuses (R364 to R384). -/

namespace Sys2Proof.Machine

/-- COLD_START (R369): Release of the last cold source starts the fuse load, PLL start and image load. -/
def execColdStart (cut : Bool) (s : State) : Host.Outcome State Fault Refusal :=
  done (coldStart s cut)

/-- PLL_LOCK (R369): The root PLL locks, the dividers are released and the loader starts. -/
def execPllLock (s : State) : Host.Outcome State Fault Refusal :=
  done (pllLock s)

/-- WARM_START (R371): Release of a warm reset restarts start-up from the PLL or memory initialisation step. -/
def execWarmStart (s : State) : Host.Outcome State Fault Refusal :=
  done (warmStart s)

/-- LOAD_ATTEMPT (R375): The loader attempts to load copy A or B, counting failures and falling back. -/
def execLoadAttempt (d : FlashShow) (run : Option (List Nat)) (late : Bool) (s : State) : Host.Outcome State Fault Refusal :=
  done (runSteps (loadAttempt s d run late))

/-- REGISTER_REPLAY (R377): After a narrower reset the loader rewrites a target's image register values and releases it. -/
def execRegisterReplay (fail : Bool) (s : State) : Host.Outcome State Fault Refusal :=
  done (runSteps (registerReplay s fail))

/-- FLASH_ERASE (R378): ERASE erases one 64 KiB flash sector. -/
def execFlashErase (m : Master) (s : State) : Host.Outcome State Fault Refusal :=
  writeRow s m LDR_FUCMD 0xA55A0001

/-- FLASH_PROGRAM (R378): PROGRAM programs a 256-byte flash page from FUSRC. -/
def execFlashProgram (m : Master) (s : State) : Host.Outcome State Fault Refusal :=
  writeRow s m LDR_FUCMD 0xA55A0002

/-- FLASH_VERIFY (R378): VERIFY checks a copy without writing destinations and sets VCODE. -/
def execFlashVerify (m : Master) (copy : Bool) (s : State) : Host.Outcome State Fault Refusal :=
  writeRow s m LDR_FUCMD (if copy then 0xA55A0013 else 0xA55A0003)

/-- CLRCNT (R378): CLRCNT clears CONSEC after a good VERIFY of copy A. -/
def execClrcnt (m : Master) (s : State) : Host.Outcome State Fault Refusal :=
  writeRow s m LDR_FUCMD 0xA55A0004

/-- RAISESVN (R378): RAISESVN blows ROLLBACK bits up to the loaded image's SVN. -/
def execRaisesvn (m : Master) (s : State) : Host.Outcome State Fault Refusal :=
  writeRow s m LDR_FUCMD 0xA55A0005

/-- FLASH_ABORT (R378): ABORT stops new flash commands and sets RES to ABORTED. -/
def execFlashAbort (m : Master) (s : State) : Host.Outcome State Fault Refusal :=
  writeRow s m LDR_FUCMD 0xA55A0006

/-- RELOADPE (R378): RELOADPE rewrites an engine's scratchpad sections and registers from the loaded copy. -/
def execReloadpe (m : Master) (s : State) : Host.Outcome State Fault Refusal :=
  writeRow s m LDR_FUCMD 0xA55A0007

/-- FLASH_OP_DONE (R379): A flash update operation completes, setting FUDONE and RES. -/
def execFlashOpDone (fail manifest : Bool) (s : State) : Host.Outcome State Fault Refusal :=
  done (runSteps (flashOpDone s fail manifest))

/-- DEBUG_UNLOCK (R380): An unlock token is checked and debug becomes usable or stays locked. -/
def execDebugUnlock (qx qy r t : BitVec 256) (s : State) : Host.Outcome State Fault Refusal :=
  done (debugUnlock s qx.toNat qy.toNat r.toNat t.toNat)

/-- EXTEST_SELECT (R381): Selecting EXTEST drives the field pins from the boundary register and asserts a cold source. -/
def execExtestSelect (s : State) : Host.Outcome State Fault Refusal :=
  done (wideAssert s 5)

/-- EXTEST_EXIT (R381): Leaving EXTEST releases its cold source and a cold start follows. -/
def execExtestExit (s : State) : Host.Outcome State Fault Refusal :=
  done (wideRelease s 5)

/-- FUSE_BLOW (R382): A write to LDR_FPROG blows one fuse bit if allowed. -/
def execFuseBlow (m : Master) (b : BitVec 12) (s : State) : Host.Outcome State Fault Refusal :=
  writeRow s m LDR_FPROG (BitVec.ofNat 32 (0xA55A0000 + b.toNat))

/-- FUSE_BLOW_DONE (R382): A fuse blow ends with read-back, setting ERR on failure and FPDONE. -/
def execFuseBlowDone (ok : Bool) (s : State) : Host.Outcome State Fault Refusal :=
  done (fuseBlowDone s ok)

end Sys2Proof.Machine
end

