-- ==== Sys2Proof/Machine/CmdBus.lean ====
section
/-! DEFINITION. The commands: the bus rows and the rows of the cells, the event fabric, DMA and shadow cells (R6 to R117).
-/

namespace Sys2Proof.Machine

/-- REGISTER_WRITE (R8): A write to a register field that has no row of its own updates the field according to its access
type. -/
def execRegisterWrite (m : Master) (a : Word) (sz : Size) (x : Acc) (s : State) : Host.Outcome State Fault Refusal :=
  answer (busAcc s m.val a.toNat sz x .good)

/-- MEMORY_ACCESS (R312): A master reads or writes shared memory, one indivisible word access per word, with ECC and
ownership checks. -/
def execMemoryAccess (m : Master) (a : Word) (sz : Size) (x : Acc) (u : Upset) (s : State) : Host.Outcome State Fault Refusal :=
  answer (busAcc s m.val a.toNat sz x u)

/-- ROUTE_WRITE (R28): A write to a route register moves an asserted interrupt source to its new destination without loss or
duplication. -/
def execRouteWrite (m : Master) (a v : Word) (s : State) : Host.Outcome State Fault Refusal :=
  writeRow s m a.toNat v

/-- PLL_LOSS (R26): Loss of root PLL lock drives all pins safe, clears the token and asserts a cold reset source. -/
def execPllLoss (s : State) : Host.Outcome State Fault Refusal :=
  done (pllLoss s)

/-- CELL_TICK (R34): A tick of a cell's divider runs the sample, stall test, actions and successor phases of the current
entry. -/
def execCellTick (c : Fin 256) (la lb : Bool) (dt : Nat) (u : Upset) (s : State) : Host.Outcome State Fault Refusal :=
  done (cellTickRow (elapse s dt) c.val la lb u)

/-- CELL_RESTART (R38): RESTART clears the shifter, edge history and latches, reloads the counters and starts execution at
the given index. -/
def execCellRestart (m : Master) (c : Fin 256) (idx : Fin 128) (s : State) : Host.Outcome State Fault Refusal :=
  writeRow s m (CELL_CTRL c.val) (BitVec.ofNat 32 (1 + idx.val * 2 ^ 16))

/-- CELL_STOP (R39): STOP records the position and puts the cell in STOPPED, applying a pending swap. -/
def execCellStop (m : Master) (c : Fin 256) (s : State) : Host.Outcome State Fault Refusal :=
  writeRow s m (CELL_CTRL c.val) 2

/-- CELL_RESUME (R39): RESUME continues a stopped cell from its recorded position at the next tick. -/
def execCellResume (m : Master) (c : Fin 256) (s : State) : Host.Outcome State Fault Refusal :=
  writeRow s m (CELL_CTRL c.val) 3

/-- CELL_SWAP (R58): SWAP requests a bank swap and sets SWPEND. -/
def execCellSwap (m : Master) (c : Fin 256) (s : State) : Host.Outcome State Fault Refusal :=
  writeRow s m (CELL_CTRL c.val) 4

/-- FLUSHTX (R64): FLUSHTX empties the cell's TX FIFO, including words added earlier in the same cycle. -/
def execFlushtx (m : Master) (c : Fin 256) (s : State) : Host.Outcome State Fault Refusal :=
  writeRow s m (CELL_CTRL c.val) 5

/-- FLUSHRX (R64): FLUSHRX empties the cell's RX FIFO. -/
def execFlushrx (m : Master) (c : Fin 256) (s : State) : Host.Outcome State Fault Refusal :=
  writeRow s m (CELL_CTRL c.val) 6

/-- CELL_STEP (R39): STEP runs exactly one tick of a stopped cell and leaves it STOPPED. -/
def execCellStep (m : Master) (c : Fin 256) (s : State) : Host.Outcome State Fault Refusal :=
  writeRow s m (CELL_CTRL c.val) 7

/-- TXDATA_WRITE (R62): A write to CELL_TXDATA appends a word to the TX FIFO, or fails and sets TXOVF when full. -/
def execTxdataWrite (m : Master) (c : Fin 256) (v : Word) (s : State) : Host.Outcome State Fault Refusal :=
  writeRow s m (CELL_TXDATA c.val) v

/-- RXDATA_READ (R62): A read of CELL_RXDATA removes the RX head word, or fails and sets RXUNF when empty. -/
def execRxdataRead (m : Master) (c : Fin 256) (s : State) : Host.Outcome State Fault Refusal :=
  readRow s m (CELL_RXDATA c.val)

/-- CELL_BANK_WRITE (R57): A write to a state-table bank entry is accepted or refused by cell state and pending swap. -/
def execCellBankWrite (m : Master) (c : Fin 256) (b : Bool) (e : Fin 128) (hi : Bool) (v : Word)
    (s : State) : Host.Outcome State Fault Refusal :=
  writeRow s m (CELL_BANK c.val (256 * b.toNat + 2 * e.val + hi.toNat)) v

/-- FIFO_JOIN_WRITE (R67): A write that changes JOINTX or JOINRX joins or splits FIFO runs when the cells are stopped and
the FIFOs empty. -/
def execFifoJoinWrite (m : Master) (c : Fin 256) (v : Word) (s : State) : Host.Outcome State Fault Refusal :=
  writeRow s m (CELL_FIFOCFG c.val) v

/-- CELL_MODE_WRITE (R76): A write to CELL_MODE binds or unbinds the cell's pins to a CAN controller or Huxon sequencer. -/
def execCellModeWrite (m : Master) (c : Fin 256) (v : Word) (s : State) : Host.Outcome State Fault Refusal :=
  writeRow s m (CELL_MODE c.val) v

/-- EDGE_CAPTURE (R55): A selected edge at a pin's first synchroniser stage is timestamped with 125 ps resolution while
VALID is 0. -/
def execEdgeCapture (c : Fin 256) (pinB rise : Bool) (sub : Fin 8) (dt : Nat) (s : State) : Host.Outcome State Fault Refusal :=
  done (edgeCapture (elapse s dt) c.val pinB rise sub.val)

/-- DIRECT_SOURCE_EDGE (R103): An edge seen by a direct-source detector pulses the drive slot's channel. -/
def execDirectSourceEdge (c : Fin 256) (pinB rise : Bool) (s : State) : Host.Outcome State Fault Refusal :=
  done (if cellLive s c.val then directEdge s c.val pinB (sampleOf s c.val pinB rise) else s)

/-- SGCMD_WRITE (R71): A write to EVF_SGCMD starts every start group whose bit is set. -/
def execSgcmdWrite (m : Master) (v : Word) (s : State) : Host.Outcome State Fault Refusal :=
  writeRow s m EVF_SGCMD v

/-- DMA_TRANSFER (R85): The cell array DMA moves one record between a bound FIFO and its ring or image buffer. -/
def execDmaTransfer (ch : Fin 32) (s : State) : Host.Outcome State Fault Refusal :=
  done (cellInput s (s.fl (EVF_DMA_CFG ch.val) 23 16) (fun s => dmaTransfer s ch.val))

/-- DMA_ENABLE (R84): A write that sets EN enables a DMA channel after its configuration checks. -/
def execDmaEnable (m : Master) (ch : Fin 32) (v : Word) (s : State) : Host.Outcome State Fault Refusal :=
  writeRow s m (EVF_DMA_CFG ch.val) (putBit v 31 true)

/-- DMA_DISABLE (R84): A write that clears EN finishes the record in flight and discards collected image words. -/
def execDmaDisable (m : Master) (ch : Fin 32) (v : Word) (s : State) : Host.Outcome State Fault Refusal :=
  writeRow s m (EVF_DMA_CFG ch.val) (putBit v 31 false)

/-- DMA_LEN_WRITE (R84): A write to a channel's LEN sets HWPTR and SWPTR to 0. -/
def execDmaLenWrite (m : Master) (ch : Fin 32) (v : Word) (s : State) : Host.Outcome State Fault Refusal :=
  writeRow s m (EVF_DMA_LEN ch.val) v

/-- CHK_CFG_WRITE (R90): An accepted write to _CHK_CFG sets the unit's parameters and performs INIT. -/
def execChkCfgWrite (m : Master) (u : ChkUnit) (v : Word) (s : State) : Host.Outcome State Fault Refusal :=
  writeRow s m (CHK_CFG (chkBase u)) v

/-- CHK_PARAM_WRITE (R92): An accepted write to _CHK_POLY, _CHK_INIT or _CHK_XOROUT sets the value and performs INIT. -/
def execChkParamWrite (m : Master) (u : ChkUnit) (p : ChkParam) (v : Word) (s : State) : Host.Outcome State Fault Refusal :=
  writeRow s m (chkParamAt u p) v

/-- CHK_INIT (R92): The INIT command of _CHK_CMD loads the initial value and opens the unit. -/
def execChkInit (m : Master) (u : ChkUnit) (s : State) : Host.Outcome State Fault Refusal :=
  writeRow s m (CHK_CMD (chkBase u)) 1

/-- CHK_END (R93): The END command of _CHK_CMD closes the check as the unit's mode defines. -/
def execChkEnd (m : Master) (u : ChkUnit) (s : State) : Host.Outcome State Fault Refusal :=
  writeRow s m (CHK_CMD (chkBase u)) 2

/-- CHK_FEED (R97): A write to _CHK_FEED1, FEED2 or FEED4 feeds 1, 2 or 4 bytes to an engine-side unit. -/
def execChkFeed (m : Master) (u : ChkUnit) (n : FeedN) (v : Word) (s : State) : Host.Outcome State Fault Refusal :=
  writeRow s m (chkFeedAt u n) v

/-- SWPULSE_WRITE (R101): A write to EVF_SWPULSE0 or EVF_SWPULSE1 pulses every channel whose bit is set. -/
def execSwpulseWrite (m : Master) (hi : Bool) (v : Word) (s : State) : Host.Outcome State Fault Refusal :=
  writeRow s m (if hi then EVF_SWPULSE1 else EVF_SWPULSE0) v

/-- SHADOW_SNAPSHOT (R110): At the end of COPY the shadow cell takes the cell's full state and begins COMPARE. -/
def execShadowSnapshot (g : Fin 16) (s : State) : Host.Outcome State Fault Refusal :=
  done (shdSnapshot s g.val)

/-- SHADOW_COMPARE_END (R112): A COMPARE phase runs to its end with no difference, and the next visit begins. -/
def execShadowCompareEnd (g : Fin 16) (s : State) : Host.Outcome State Fault Refusal :=
  done (shdGood s g.val)

/-- SHADOW_MISMATCH (R113): A difference between cell and shadow flags both, records the mismatch and applies POLICY. -/
def execShadowMismatch (g : Fin 16) (kind : BitVec 9) (inCell : Bool) (s : State) : Host.Outcome State Fault Refusal :=
  done (shdMismatch s g.val kind.toNat inCell)

/-- SHADOW_RELEASE (R114): RELEASE copies the shadow's state into the cell and ends the takeover. -/
def execShadowRelease (m : Master) (g : Fin 16) (s : State) : Host.Outcome State Fault Refusal :=
  writeRow s m (EVF_SHD_CMD g.val) 1

/-- SHADOW_SKIP (R112): SKIP ends the current visit with no verdict. -/
def execShadowSkip (m : Master) (g : Fin 16) (s : State) : Host.Outcome State Fault Refusal :=
  writeRow s m (EVF_SHD_CMD g.val) 2

/-- SHADOW_RETIRE (R115): RETIRE from a supervisor stops the shadow in SUSPECT until a reset of the group. -/
def execShadowRetire (m : Master) (g : Fin 16) (s : State) : Host.Outcome State Fault Refusal :=
  writeRow s m (EVF_SHD_CMD g.val) 3

end Sys2Proof.Machine
end

