-- ==== Sys2Proof/Machine/CmdCan.lean ====
section
/-! DEFINITION. The commands: the CAN controllers (R270 to R283). -/

namespace Sys2Proof.Machine

/-- CAN_START (R272): START moves a bound controller with valid timing to INTEGRATING. -/
def execCanStart (m : Master) (n : Fin 32) (s : State) : Host.Outcome State Fault Refusal :=
  writeRow s m (CAN_CTRL n.val) 1

/-- CAN_STOP (R271): STOP ends transfers and pending buffers and enters STOPPED, after recovery if bus-off. -/
def execCanStop (m : Master) (n : Fin 32) (s : State) : Host.Outcome State Fault Refusal :=
  writeRow s m (CAN_CTRL n.val) 2

/-- CAN_INTEGRATION_DONE (R271): Eleven consecutive recessive bits move an integrating controller to ACTIVE. -/
def execCanIntegrationDone (n : Fin 32) (s : State) : Host.Outcome State Fault Refusal :=
  done (canIntegrated s n.val)

/-- CAN_FRAME_RECEIVE (R279): A valid received frame is filtered and stored in the receive FIFO with its timestamp. -/
def execCanFrameReceive (n : Fin 32) (frame : CanFrame) (dt len : Nat) (s : State) : Host.Outcome State Fault Refusal :=
  done (canReceiveRow (elapse s dt) n.val frame len)

/-- CAN_TX_SELECT (R276): At intermission end the controller selects a requested buffer for transmission. -/
def execCanTxSelect (n : Fin 32) (s : State) : Host.Outcome State Fault Refusal :=
  done (canTxSelect s n.val)

/-- CAN_TX_END (R276): A transmit attempt ends as SENT, arbitration lost or error, per the mode. -/
def execCanTxEnd (n : Fin 32) (e : CanEnd) (dt len loop : Nat) (s : State) : Host.Outcome State Fault Refusal :=
  done (canTxRow (elapse s dt) n.val e len loop)

/-- CAN_ERROR (R280): A detected bus error updates LEC, the error counters and ERRS. -/
def execCanError (n : Fin 32) (lec : Fin 8) (k : CanErr) (s : State) : Host.Outcome State Fault Refusal :=
  done (canErrorRow s n.val lec.val k)

/-- BUSOFF_RECOVERY (R280): The 128th occurrence of 11 recessive bits returns the controller to ACTIVE. -/
def execBusoffRecovery (n : Fin 32) (k : Nat) (s : State) : Host.Outcome State Fault Refusal :=
  done (canRecoverRow s n.val k)

/-- CAN_PROTOCOL_EXCEPTION (R270): A protocol exception returns the controller to INTEGRATING without an error flag. -/
def execCanProtocolException (n : Fin 32) (s : State) : Host.Outcome State Fault Refusal :=
  done (canException s n.val)

/-- CAN_REQUEST (R275): REQUEST marks a transmit buffer requested. -/
def execCanRequest (m : Master) (n : Fin 32) (b : Fin 3) (v : Word) (s : State) : Host.Outcome State Fault Refusal :=
  writeRow s m (CAN_TXB_CTRL n.val b.val) (setFld v 31 30 1)

/-- CAN_ABORT (R276): ABORT ends a buffer's request at once, or when its attempt ends. -/
def execCanAbort (m : Master) (n : Fin 32) (b : Fin 3) (s : State) : Host.Outcome State Fault Refusal :=
  writeRow s m (CAN_TXB_CTRL n.val b.val) 0x80000000

/-- CAN_POP (R279): POP removes the head frame of the receive FIFO. -/
def execCanPop (m : Master) (n : Fin 32) (s : State) : Host.Outcome State Fault Refusal :=
  writeRow s m (CAN_RXCMD n.val) 1

end Sys2Proof.Machine
end

