-- ==== Sys2Proof/Machine/CmdCp.lean ====
section
/-! DEFINITION. The commands: the coprocessor instructions (R138 to R146). -/

namespace Sys2Proof.Machine

/-- CRX (R140): CRX reads the RX FIFO head of a cell. -/
def execCrx (x : CtxId) (f : Upset) (s : State) : Host.Outcome State Fault Refusal :=
  jRow s x .crx f .good

/-- CRXW (R141): CRXW waits until a cell's RX FIFO holds a word, then reads it. -/
def execCrxw (x : CtxId) (f : Upset) (s : State) : Host.Outcome State Fault Refusal :=
  jRow s x .crxw f .good

/-- CTX (R140): CTX writes RD to a cell's TX FIFO. -/
def execCtx (x : CtxId) (f : Upset) (s : State) : Host.Outcome State Fault Refusal :=
  jRow s x .ctx f .good

/-- CTXW (R141): CTXW waits until a cell's TX FIFO has room, then writes RD. -/
def execCtxw (x : CtxId) (f : Upset) (s : State) : Host.Outcome State Fault Refusal :=
  jRow s x .ctxw f .good

/-- CSTAT (R140): CSTAT reads CELL_FIFOSTAT of a cell. -/
def execCstat (x : CtxId) (f : Upset) (s : State) : Host.Outcome State Fault Refusal :=
  jRow s x .cstat f .good

/-- CRD (R140): CRD reads a cell register at offset IMM12. -/
def execCrd (x : CtxId) (f : Upset) (s : State) : Host.Outcome State Fault Refusal :=
  jRow s x .crd f .good

/-- CWR (R140): CWR writes RD to a cell register at offset IMM12. -/
def execCwr (x : CtxId) (f : Upset) (s : State) : Host.Outcome State Fault Refusal :=
  jRow s x .cwr f .good

/-- BLOCKING_WAIT_ISSUE (R141): The condition of a blocking form holds and its access is issued. -/
def execBlockingWaitIssue (x : CtxId) (s : State) : Host.Outcome State Fault Refusal :=
  done (waitIssue s x)

/-- CKF1 (R142): CKF1 feeds the low byte of RA to the engine-side check unit. -/
def execCkf1 (x : CtxId) (f : Upset) (s : State) : Host.Outcome State Fault Refusal :=
  jRow s x .ckf1 f .good

/-- CKF2 (R142): CKF2 feeds the low 2 bytes of RA. -/
def execCkf2 (x : CtxId) (f : Upset) (s : State) : Host.Outcome State Fault Refusal :=
  jRow s x .ckf2 f .good

/-- CKF4 (R142): CKF4 feeds the 4 bytes of RA. -/
def execCkf4 (x : CtxId) (f : Upset) (s : State) : Host.Outcome State Fault Refusal :=
  jRow s x .ckf4 f .good

/-- CKINIT (R142): CKINIT performs INIT on the engine-side check unit. -/
def execCkinit (x : CtxId) (f : Upset) (s : State) : Host.Outcome State Fault Refusal :=
  jRow s x .ckinit f .good

/-- CKEND (R142): CKEND performs END on the engine-side check unit. -/
def execCkend (x : CtxId) (f : Upset) (s : State) : Host.Outcome State Fault Refusal :=
  jRow s x .ckend f .good

/-- CKRES (R142): CKRES reads _CHK_RESULT. -/
def execCkres (x : CtxId) (f : Upset) (s : State) : Host.Outcome State Fault Refusal :=
  jRow s x .ckres f .good

/-- CKST (R142): CKST reads _CHK_STATE. -/
def execCkst (x : CtxId) (f : Upset) (s : State) : Host.Outcome State Fault Refusal :=
  jRow s x .ckst f .good

/-- CKRD (R142): CKRD reads a check-unit register at IMM12. -/
def execCkrd (x : CtxId) (f : Upset) (s : State) : Host.Outcome State Fault Refusal :=
  jRow s x .ckrd f .good

/-- CKWR (R142): CKWR writes a check-unit register at IMM12. -/
def execCkwr (x : CtxId) (f : Upset) (s : State) : Host.Outcome State Fault Refusal :=
  jRow s x .ckwr f .good

/-- TSNAP (R143): TSNAP captures a timebase, returning nanoseconds and latching seconds and sub-nanoseconds. -/
def execTsnap (x : CtxId) (f : Upset) (s : State) : Host.Outcome State Fault Refusal :=
  jRow s x .tsnap f .good

/-- TSECL (R143): TSECL returns the latched seconds [31:0]. -/
def execTsecl (x : CtxId) (f : Upset) (s : State) : Host.Outcome State Fault Refusal :=
  jRow s x .tsecl f .good

/-- TSECH (R143): TSECH returns the latched seconds [63:32]. -/
def execTsech (x : CtxId) (f : Upset) (s : State) : Host.Outcome State Fault Refusal :=
  jRow s x .tsech f .good

/-- TSUB (R143): TSUB returns the latched sub-nanoseconds. -/
def execTsub (x : CtxId) (f : Upset) (s : State) : Host.Outcome State Fault Refusal :=
  jRow s x .tsub f .good

/-- TWAIT (R143): TWAIT blocks until TB0 reaches the latched seconds and RA nanoseconds. -/
def execTwait (x : CtxId) (f : Upset) (s : State) : Host.Outcome State Fault Refusal :=
  jRow s x .twait f .good

/-- TRD (R143): TRD reads a time unit word. -/
def execTrd (x : CtxId) (f : Upset) (s : State) : Host.Outcome State Fault Refusal :=
  jRow s x .trd f .good

/-- TWR (R143): TWR writes a time unit word. -/
def execTwr (x : CtxId) (f : Upset) (s : State) : Host.Outcome State Fault Refusal :=
  jRow s x .twr f .good

/-- IGET (R144): IGET fills the point buffer from the current or pinned view and returns the quality. -/
def execIget (x : CtxId) (f u : Upset) (s : State) : Host.Outcome State Fault Refusal :=
  jRow s x .iget f u

/-- IRB (R144): IRB reads a point buffer word. -/
def execIrb (x : CtxId) (f : Upset) (s : State) : Host.Outcome State Fault Refusal :=
  jRow s x .irb f .good

/-- IWB (R144): IWB writes a point buffer word. -/
def execIwb (x : CtxId) (f : Upset) (s : State) : Host.Outcome State Fault Refusal :=
  jRow s x .iwb f .good

/-- IPUT (R144): IPUT writes a point from the buffer into the open epoch with the given quality. -/
def execIput (x : CtxId) (f : Upset) (s : State) : Host.Outcome State Fault Refusal :=
  jRow s x .iput f .good

/-- ISTN (R144): ISTN sets the buffer timestamp nanoseconds. -/
def execIstn (x : CtxId) (f : Upset) (s : State) : Host.Outcome State Fault Refusal :=
  jRow s x .istn f .good

/-- ISTS (R144): ISTS sets the buffer timestamp seconds. -/
def execIsts (x : CtxId) (f : Upset) (s : State) : Host.Outcome State Fault Refusal :=
  jRow s x .ists f .good

/-- IRTS (R144): IRTS reads the buffer timestamp nanoseconds. -/
def execIrts (x : CtxId) (f : Upset) (s : State) : Host.Outcome State Fault Refusal :=
  jRow s x .irts f .good

/-- IEPO (R144): IEPO reads the low 32 bits of the epoch counter. -/
def execIepo (x : CtxId) (f : Upset) (s : State) : Host.Outcome State Fault Refusal :=
  jRow s x .iepo f .good

/-- MSEND (R145): MSEND sends a pointer and tag to a mailbox. -/
def execMsend (x : CtxId) (f : Upset) (s : State) : Host.Outcome State Fault Refusal :=
  jRow s x .msend f .good

/-- MTAG (R145): MTAG reads a mailbox tag without clearing FULL. -/
def execMtag (x : CtxId) (f : Upset) (s : State) : Host.Outcome State Fault Refusal :=
  jRow s x .mtag f .good

/-- MRECV (R145): MRECV reads a mailbox pointer and clears FULL. -/
def execMrecv (x : CtxId) (f : Upset) (s : State) : Host.Outcome State Fault Refusal :=
  jRow s x .mrecv f .good

/-- MSTAT (R145): MSTAT reads a mailbox status. -/
def execMstat (x : CtxId) (f : Upset) (s : State) : Host.Outcome State Fault Refusal :=
  jRow s x .mstat f .good

/-- LKACQ (R145): LKACQ reads a lock, acquiring it when free. -/
def execLkacq (x : CtxId) (f : Upset) (s : State) : Host.Outcome State Fault Refusal :=
  jRow s x .lkacq f .good

/-- LKREL (R145): LKREL writes 0 to a lock to release it. -/
def execLkrel (x : CtxId) (f : Upset) (s : State) : Host.Outcome State Fault Refusal :=
  jRow s x .lkrel f .good

/-- X7 (R146): X7 writes RA to a CP7 cell's TX FIFO and optionally waits for a result word. -/
def execX7 (x : CtxId) (f : Upset) (s : State) : Host.Outcome State Fault Refusal :=
  jRow s x .x7 f .good

end Sys2Proof.Machine
end

