-- ==== Sys2Proof/Machine/CmdCtx.lean ====
section
/-! DEFINITION. The commands: context commands, what time and the interconnect bring to a context, and the device service
(R120 to R170). -/

namespace Sys2Proof.Machine

/-- CTX_START (R120): START begins a stopped context at PC with HM and IE cleared and the watchdog reloaded. -/
def execCtxStart (m : Master) (x : CtxId) (s : State) : Host.Outcome State Fault Refusal :=
  writeRow s m (localAddr m.val (ctxReg (ctxKey x) 0)) 1

/-- CTX_STOP (R120): STOP stops a running or waiting context at its next instruction boundary. -/
def execCtxStop (m : Master) (x : CtxId) (s : State) : Host.Outcome State Fault Refusal :=
  writeRow s m (localAddr m.val (ctxReg (ctxKey x) 0)) 2

/-- CTX_RESUME (R120): RESUME continues a stopped context from its recorded position and state. -/
def execCtxResume (m : Master) (x : CtxId) (s : State) : Host.Outcome State Fault Refusal :=
  writeRow s m (localAddr m.val (ctxReg (ctxKey x) 0)) 3

/-- CTX_STEP (R120): STEP executes one instruction or issue pair of a stopped context. -/
def execCtxStep (m : Master) (x : CtxId) (s : State) : Host.Outcome State Fault Refusal :=
  writeRow s m (localAddr m.val (ctxReg (ctxKey x) 0)) 4

/-- CTX_CLEAR (R120): CLEAR moves a FAULTED context to STOPPED, keeping its registers. -/
def execCtxClear (m : Master) (x : CtxId) (s : State) : Host.Outcome State Fault Refusal :=
  writeRow s m (localAddr m.val (ctxReg (ctxKey x) 0)) 5

/-- INT_TAKEN (R151): An unmasked pending interrupt is taken as INT at a boundary while IE is 1 and HM is 0. -/
def execIntTaken (x : CtxId) (s : State) : Host.Outcome State Fault Refusal :=
  done (intTaken s x)

/-- CONTEXT_WAKE (R151): A waiting context wakes when IPEND AND IMASK becomes non-zero. -/
def execContextWake (x : CtxId) (s : State) : Host.Outcome State Fault Refusal :=
  done (contextWake s x)

/-- REMOTE_LOAD_DONE (R125): A load through the interconnect completes and unblocks its context. -/
def execRemoteLoadDone (x : CtxId) (u : Upset) (s : State) : Host.Outcome State Fault Refusal :=
  done (remoteLoadDone s x u)

/-- POSTED_STORE_DONE (R125): A posted store completes at its target, or its error response sets DBWPEND. -/
def execPostedStoreDone (x : CtxId) (i : Fin 4) (u : Upset) (s : State) : Host.Outcome State Fault Refusal :=
  done (runSteps (postedStoreDone s x i.val u))

/-- DBUSW_TAKEN (R150): A pending posted-store error is taken as DBUSW at the next boundary with HM 0. -/
def execDbuswTaken (x : CtxId) (s : State) : Host.Outcome State Fault Refusal :=
  done (dbuswTaken s x)

/-- WDOG_EXPIRY (R154): A context watchdog expires, raising WDOG or, if EXP is set, faulting the context. -/
def execWdogExpiry (x : CtxId) (dt : Nat) (s : State) : Host.Outcome State Fault Refusal :=
  done (wdogExpire (elapse s dt) x)

/-- WDOG_WRITE (R154): A write to PE_CTX_WDOG reloads the count from PERIOD and clears EXP. -/
def execWdogWrite (m : Master) (x : CtxId) (v : Word) (s : State) : Host.Outcome State Fault Refusal :=
  writeRow s m (localAddr m.val (ctxReg (ctxKey x) 11)) v

/-- POINT_TIMEOUT (R167): A point receiving no new value within its timeout is rewritten with STALE set. -/
def execPointTimeout (n : Fin 8) (p : Fin 65536) (s : State) : Host.Outcome State Fault Refusal :=
  done (pointTimeoutRow s n.val p.val)

/-- INSTANCE_FAULT_RECOVERY (R170): The device service marks a faulted instance failed, stales its inputs, reloads the
engine and restarts it. -/
def execInstanceFaultRecovery (n k : Fin 8) (diag : Fin 65536) (inputs : List (Fin 65536)) (run : List (Fin 8))
    (s : State) : Host.Outcome State Fault Refusal :=
  done (instanceRecovery s n.val k.val diag.val (inputs.map (·.val)) (run.map (·.val)))

end Sys2Proof.Machine
end

