-- ==== Sys2Proof/Machine/CmdDiag.lean ====
section
/-! DEFINITION. The commands: diagnostics and self-test (R438 to R449). -/

namespace Sys2Proof.Machine

/-- ELOG_READ (R440): A read of MEM_ELOG_W3 with VALID = 1 removes the oldest entry. -/
def execElogRead (m : Master) (s : State) : Host.Outcome State Fault Refusal :=
  readRow s m MEM_ELOG_W3

/-- BIST_START (R444): START runs March C− on a bank owned by ID 12, or reports BUSY. -/
def execBistStart (m : Master) (b : Fin 32) (s : State) : Host.Outcome State Fault Refusal :=
  writeRow s m MEM_BIST_CMD (BitVec.ofNat 32 (0x100 + b.val))

/-- BIST_ABORT (R444): ABORT ends a running BIST with RES = ABORTED. -/
def execBistAbort (m : Master) (s : State) : Host.Outcome State Fault Refusal :=
  writeRow s m MEM_BIST_CMD 0x200

/-- BIST_DONE (R444): A BIST ends with PASS or FAIL and clears the bank. -/
def execBistDone (fails : Nat) (word : BitVec 16) (s : State) : Host.Outcome State Fault Refusal :=
  done (bistDone s fails word.toNat)

/-- FT_START (R447): START runs a forced test on a target held only by SWSUB. -/
def execFtStart (m : Master) (t : Fin 29) (s : State) : Host.Outcome State Fault Refusal :=
  writeRow s m MEM_FT_CMD (BitVec.ofNat 32 (0xA55A0100 + t.val))

/-- FT_DONE (R447): A forced test ends and reports its result. -/
def execFtDone (fails cells : Nat) (s : State) : Host.Outcome State Fault Refusal :=
  done (ftDone s fails cells)

/-- ADC_CAL_REQUEST (R445): A write of an ADC bit of MEM_CAL_CMD requests converter calibration. -/
def execAdcCalRequest (m : Master) (x : Fin 2) (s : State) : Host.Outcome State Fault Refusal :=
  writeRow s m MEM_CAL_CMD (BitVec.ofNat 32 (2 ^ x.val))

/-- ADC_CAL_DONE (R445): ADC calibration completes, coefficients apply from the next list and DONE increments. -/
def execAdcCalDone (x : Fin 2) (s : State) : Host.Outcome State Fault Refusal :=
  done (adcCalDone s x.val)

/-- SERDES_CAL_REQUEST (R446): A write of an ETH bit of MEM_CAL_CMD requests SERDES recalibration. -/
def execSerdesCalRequest (m : Master) (p : Fin 12) (s : State) : Host.Outcome State Fault Refusal :=
  writeRow s m MEM_CAL_CMD (BitVec.ofNat 32 (2 ^ (p.val + 2)))

/-- SERDES_CAL_START (R446): A pending recalibration starts at link down or in a closed gate window. -/
def execSerdesCalStart (p : Fin 12) (s : State) : Host.Outcome State Fault Refusal :=
  done (serCalStart s p.val)

/-- SERDES_CAL_DONE (R446): A SERDES recalibration completes and clears its pending bit. -/
def execSerdesCalDone (p : Fin 12) (s : State) : Host.Outcome State Fault Refusal :=
  done (serCalDone s p.val)

end Sys2Proof.Machine
end

