-- ==== Sys2Proof/Machine/CmdFpu.lean ====
section
/-! DEFINITION. The commands: the FPU instructions of the control pairs (R335). -/

namespace Sys2Proof.Machine

/-- FADD (R335): FADD adds two binary64 registers, rounded by FCSR. -/
def execFadd (x : CtxId) (f : Upset) (s : State) : Host.Outcome State Fault Refusal :=
  jRow s x .fadd f .good

/-- FSUB (R335): FSUB subtracts two binary64 registers. -/
def execFsub (x : CtxId) (f : Upset) (s : State) : Host.Outcome State Fault Refusal :=
  jRow s x .fsub f .good

/-- FMUL (R335): FMUL multiplies two binary64 registers. -/
def execFmul (x : CtxId) (f : Upset) (s : State) : Host.Outcome State Fault Refusal :=
  jRow s x .fmul f .good

/-- FDIV (R335): FDIV divides two binary64 registers. -/
def execFdiv (x : CtxId) (f : Upset) (s : State) : Host.Outcome State Fault Refusal :=
  jRow s x .fdiv f .good

/-- FSQRT (R335): FSQRT writes the square root of fRA. -/
def execFsqrt (x : CtxId) (f : Upset) (s : State) : Host.Outcome State Fault Refusal :=
  jRow s x .fsqrt f .good

/-- FMIN (R335): FMIN writes the IEEE minimumNumber. -/
def execFmin (x : CtxId) (f : Upset) (s : State) : Host.Outcome State Fault Refusal :=
  jRow s x .fmin f .good

/-- FMAX (R335): FMAX writes the IEEE maximumNumber. -/
def execFmax (x : CtxId) (f : Upset) (s : State) : Host.Outcome State Fault Refusal :=
  jRow s x .fmax f .good

/-- FNEG (R335): FNEG inverts the sign bit. -/
def execFneg (x : CtxId) (f : Upset) (s : State) : Host.Outcome State Fault Refusal :=
  jRow s x .fneg f .good

/-- FABS (R335): FABS clears the sign bit. -/
def execFabs (x : CtxId) (f : Upset) (s : State) : Host.Outcome State Fault Refusal :=
  jRow s x .fabs f .good

/-- FEQ (R335): FEQ writes 1 to gRD if fRA equals fRB. -/
def execFeq (x : CtxId) (f : Upset) (s : State) : Host.Outcome State Fault Refusal :=
  jRow s x .feq f .good

/-- FLT (R335): FLT writes 1 to gRD if fRA < fRB. -/
def execFlt (x : CtxId) (f : Upset) (s : State) : Host.Outcome State Fault Refusal :=
  jRow s x .flt f .good

/-- FLE (R335): FLE writes 1 to gRD if fRA ≤ fRB. -/
def execFle (x : CtxId) (f : Upset) (s : State) : Host.Outcome State Fault Refusal :=
  jRow s x .fle f .good

/-- FCVTDW (R335): FCVTDW converts signed gRA to binary64. -/
def execFcvtdw (x : CtxId) (f : Upset) (s : State) : Host.Outcome State Fault Refusal :=
  jRow s x .fcvtdw f .good

/-- FCVTWD (R335): FCVTWD converts fRA to a saturated signed 32-bit integer. -/
def execFcvtwd (x : CtxId) (f : Upset) (s : State) : Host.Outcome State Fault Refusal :=
  jRow s x .fcvtwd f .good

/-- FCVTDS (R335): FCVTDS converts the binary32 value in gRA to binary64. -/
def execFcvtds (x : CtxId) (f : Upset) (s : State) : Host.Outcome State Fault Refusal :=
  jRow s x .fcvtds f .good

/-- FCVTSD (R335): FCVTSD converts fRA to binary32 in gRD. -/
def execFcvtsd (x : CtxId) (f : Upset) (s : State) : Host.Outcome State Fault Refusal :=
  jRow s x .fcvtsd f .good

/-- FLD (R335): FLD loads 8 bytes into an FPU register. -/
def execFld (x : CtxId) (f u : Upset) (s : State) : Host.Outcome State Fault Refusal :=
  jRow s x .fld f u

/-- FST (R335): FST stores an FPU register as 8 bytes. -/
def execFst (x : CtxId) (f u : Upset) (s : State) : Host.Outcome State Fault Refusal :=
  jRow s x .fst f u

end Sys2Proof.Machine
end

