-- ==== Sys2Proof/Machine/CmdHost.lean ====
section
/-! DEFINITION. The commands: the host bridge: PCIe and SPI (R351 to R363). -/

namespace Sys2Proof.Machine

/-- PCIE_INBOUND_REQUEST (R353): An inbound PCIe request is split into word accesses and completed or logged. -/
def execPcieInboundRequest (bar : Bar) (o : BitVec 32) (wr : Bool) (ws : List PcieWord) (k : Nat)
    (s : State) : Host.Outcome State Fault Refusal :=
  done (runSteps (inboundRequest s bar o.toNat wr ws k))

/-- PREFETCH_EXPIRY (R361): Prefetched data older than LIFE µs is dropped. -/
def execPrefetchExpiry (spi : Bool) (dt : Nat) (s : State) : Host.Outcome State Fault Refusal :=
  done (pfExpire (elapse s dt) spi)

/-- OUTBOUND_ACCESS (R354): An access to the outbound window is translated to PCIe or refused. -/
def execOutboundAccess (m : Master) (o : Fin 0x80000000) (sz : Size) (x : Acc) (s : State) : Host.Outcome State Fault Refusal :=
  answer (busAcc s m.val (0x80000000 + o.val) sz x .good)

/-- OUTBOUND_TIMEOUT (R354): An outbound read without completion in 50 ms receives an error response. -/
def execOutboundTimeout (i : Fin 64) (dt : Nat) (s : State) : Host.Outcome State Fault Refusal :=
  done (outboundTimeout (elapse s dt) i.val)

/-- PCIE_LINK_UP (R30): The PCIe link comes up and held interrupts become deliverable. -/
def execPcieLinkUp (speed width : Fin 8) (s : State) : Host.Outcome State Fault Refusal :=
  done (pcieLinkUp s speed.val width.val)

/-- PCIE_LINK_DOWN (R354): Link down or hot reset fails waiting outbound requests and sets LINK. -/
def execPcieLinkDown (s : State) : Host.Outcome State Fault Refusal :=
  done (hbLinkDown s)

/-- SPI_WRITE (R358): The SPI WRITE command writes each completed word. -/
def execSpiWrite (a : Word) (bytes : List Byte) (s : State) : Host.Outcome State Fault Refusal :=
  done (runSteps (spiWrite s a.toNat bytes))

/-- SPI_READREQ (R358): The SPI READREQ command starts a delayed read of N words. -/
def execSpiReadreq (a : Word) (n : Byte) (s : State) : Host.Outcome State Fault Refusal :=
  done (spiReadReq s a.toNat n.toNat)

/-- SPI_FETCH (R358): The SPI FETCH command shifts out and releases the held read result. -/
def execSpiFetch (n : Nat) (s : State) : Host.Outcome State Fault Refusal :=
  done (spiFetch s n)

/-- SPI_STATUS (R358): The SPI STATUS command returns only the status byte. -/
def execSpiStatus (s : State) : Host.Outcome State Fault Refusal :=
  done (spiStat s)

/-- SPI_BAD_COMMAND (R358): An unknown SPI command byte makes the bridge ignore the frame and count BADCMD. -/
def execSpiBadCommand (s : State) : Host.Outcome State Fault Refusal :=
  done (spiBadCommand s)

/-- SPI_READ_DONE (R359): A delayed SPI read completes, sets RDY and starts the discard timer. -/
def execSpiReadDone (k : Nat) (s : State) : Host.Outcome State Fault Refusal :=
  done (spiReadDone s k)

/-- SPI_DISCARD (R359): A read result not fetched within DTIMER is discarded and DISC set. -/
def execSpiDiscard (dt : Nat) (s : State) : Host.Outcome State Fault Refusal :=
  done (spiDiscard (elapse s dt))

/-- OUTBOUND_COMPLETION (R354): The host returns the completion of an outbound read, delivering the data or, for Unsupported
Request or Completer Abort, an error response with cause 1. -/
def execOutboundCompletion (i : Fin 64) (data : BitVec 64) (ok : Bool) (s : State) : Host.Outcome State Fault Refusal :=
  done (outboundCompletion s i.val data ok)

/-- PCIE_CONFIG_REQUEST (R351): A host configuration request enables or disables bus mastering or moves the function between
D0 and D3hot, making held MSI-X messages deliverable or not. -/
def execPcieConfigRequest (bme d3 : Bool) (s : State) : Host.Outcome State Fault Refusal :=
  done (pcieConfig s bme d3)

end Sys2Proof.Machine
end

