-- ==== Sys2Proof/Machine/CmdHuxon.lean ====
section
/-! DEFINITION. The commands: the Huxon sequencers (R225 to R269). -/

namespace Sys2Proof.Machine

/-- HX_START (R241): START checks the schedule and bindings and enters LISTEN, or refuses with SCHERR. -/
def execHxStart (m : Master) (n : Fin 32) (s : State) : Host.Outcome State Fault Refusal :=
  writeRow s m (HX_CTRL n.val) 1

/-- HX_STOP (R253): STOP finishes the current cycle, or acts as HALT outside ACTIVE and MASTER, then STOPPED. -/
def execHxStop (m : Master) (n : Fin 32) (s : State) : Host.Outcome State Fault Refusal :=
  writeRow s m (HX_CTRL n.val) 2

/-- HX_HALT (R253): HALT releases the driver within one character and enters STOPPED. -/
def execHxHalt (m : Master) (n : Fin 32) (s : State) : Host.Outcome State Fault Refusal :=
  writeRow s m (HX_CTRL n.val) 3

/-- DAWN_SEND (R236): A time master sends the dawn message at its expected instant or on the cycle-start pulse. -/
def execDawnSend (n : Fin 32) (dt : Nat) (s : State) : Host.Outcome State Fault Refusal :=
  done (hxRow (elapse s dt) n.val (fun s => dawnSend s n.val))

/-- POLL_SEND (R238): The time master sends a POLL at the slot start. -/
def execPollSend (n : Fin 32) (late : Bool) (dt : Nat) (s : State) : Host.Outcome State Fault Refusal :=
  done (hxRow (elapse s dt) n.val (fun s => pollSend s n.val late))

/-- RESP_SEND (R238): A node that received its POLL good and on time sends its RESP at the action point. -/
def execRespSend (n : Fin 32) (late : Bool) (dt : Nat) (s : State) : Host.Outcome State Fault Refusal :=
  done (hxRow (elapse s dt) n.val (fun s => respSend s n.val late))

/-- HX_FRAME_RECEIVE (R234): A sequencer tests a received frame and uses it, records it or rejects it. -/
def execHxFrameReceive (n : Fin 32) (bytes : List Byte) (framing : Bool) (dt len : Nat)
    (s : State) : Host.Outcome State Fault Refusal :=
  done (hxFrame (elapse s dt) n.val bytes framing len)

/-- RESPONSE_WINDOW_CLOSE (R245): A response window closes with no frame start and NORESP is recorded. -/
def execResponseWindowClose (n : Fin 32) (j : Fin 256) (dt : Nat) (s : State) : Host.Outcome State Fault Refusal :=
  done (hxEvent (elapse s dt) n.val (fun s => windowClose s n.val j.val))

/-- DUSK_START (R237): The dusk window begins at HX_DUSK and the DUSK interrupt is set. -/
def execDuskStart (n : Fin 32) (dt : Nat) (s : State) : Host.Outcome State Fault Refusal :=
  done (hxEvent (elapse s dt) n.val (fun s => duskStart s n.val))

/-- DUSK_SEND (R240): A sender starts a DMSG or CLAIM after the idle time its address requires. -/
def execDuskSend (n : Fin 32) (dt : Nat) (s : State) : Host.Outcome State Fault Refusal :=
  done (hxEvent (elapse s dt) n.val (fun s => duskSend s n.val))

/-- READBACK_ERROR (R227): A transmitted bit differing from its readback stops the driver and abandons the frame. -/
def execReadbackError (n : Fin 32) (dt : Nat) (s : State) : Host.Outcome State Fault Refusal :=
  done (hxEvent (elapse s dt) n.val (fun s => readback s n.val))

/-- DUSK_TX_QUEUE (R240): Writing GO = 1 in HX_DTXCTL queues the dusk frame. -/
def execDuskTxQueue (m : Master) (n : Fin 32) (v : Word) (s : State) : Host.Outcome State Fault Refusal :=
  writeRow s m (HX_DTXCTL n.val) (putBit v 31 true)

/-- DUSK_TX_WITHDRAW (R240): Writing GO = 0 withdraws the dusk frame unless its transmission has begun. -/
def execDuskTxWithdraw (m : Master) (n : Fin 32) (v : Word) (s : State) : Host.Outcome State Fault Refusal :=
  writeRow s m (HX_DTXCTL n.val) (putBit v 31 false)

/-- LISTEN_TIMEOUT (R255): The listen timer of a cold-start-capable sequencer expires and it enters DAYBREAK. -/
def execListenTimeout (n : Fin 32) (dt : Nat) (s : State) : Host.Outcome State Fault Refusal :=
  done (hxEvent (elapse s dt) n.val (fun s => listenTimeout s n.val))

/-- CONFIRMATION_END (R255): The confirmation period ends with no yield and the sequencer enters MASTER. -/
def execConfirmationEnd (n : Fin 32) (dt : Nat) (s : State) : Host.Outcome State Fault Refusal :=
  done (hxEvent (elapse s dt) n.val (fun s => confirmEnd s n.val))

/-- DAYBREAK_BACKOFF_END (R256): The daybreak backoff ends and the sequencer sends its DAYBREAK again. -/
def execDaybreakBackoffEnd (n : Fin 32) (dt : Nat) (s : State) : Host.Outcome State Fault Refusal :=
  done (hxEvent (elapse s dt) n.val (fun s => backoffEnd s n.val))

/-- DAWN_WINDOW_CLOSE (R260): The last dawn window closes with no dawn accepted; the reference becomes R_exp. -/
def execDawnWindowClose (n : Fin 32) (dt : Nat) (s : State) : Host.Outcome State Fault Refusal :=
  done (hxEvent (elapse s dt) n.val (fun s => dawnWindowClose s n.val))

/-- PASSIVE_TIMEOUT (R261): HX_CYCLEN after entry to PASSIVE the sequencer returns to LISTEN. -/
def execPassiveTimeout (n : Fin 32) (dt : Nat) (s : State) : Host.Outcome State Fault Refusal :=
  done (hxOut (elapse s dt) n.val (fun s => passiveTimeout s n.val))

/-- BACKUP_TAKEOVER (R263): A standby that heard no frame by its takeover instant sends a DAWN and enters MASTER. -/
def execBackupTakeover (n : Fin 32) (dt : Nat) (s : State) : Host.Outcome State Fault Refusal :=
  done (hxRow (elapse s dt) n.val (fun s => takeover s n.val))

/-- CLAIM_WRITE (R265): Writing HX_CLAIM with GO = 1 requests a twilight slot. -/
def execClaimWrite (m : Master) (n : Fin 32) (v : Word) (s : State) : Host.Outcome State Fault Refusal :=
  writeRow s m (HX_CLAIM n.val) (putBit v 31 true)

/-- CLAIM_WITHDRAW (R265): Writing GO = 0 withdraws a claim unless its CLAIM transmission has begun. -/
def execClaimWithdraw (m : Master) (n : Fin 32) (v : Word) (s : State) : Host.Outcome State Fault Refusal :=
  writeRow s m (HX_CLAIM n.val) (putBit v 31 false)

/-- GRANT_WRITE (R266): A write of HX_GRANT queues a grant or release on a master. -/
def execGrantWrite (m : Master) (n : Fin 32) (v : Word) (s : State) : Host.Outcome State Fault Refusal :=
  writeRow s m (HX_GRANT n.val) v

/-- STOP_CYCLE_FINISHED (R253): A sequencer given STOP in ACTIVE or MASTER finishes its current cycle and then enters
STOPPED. -/
def execStopCycleFinished (n : Fin 32) (dt : Nat) (s : State) : Host.Outcome State Fault Refusal :=
  done (hxEvent (elapse s dt) n.val (fun s => stopFinished s n.val))

end Sys2Proof.Machine
end

