-- ==== Sys2Proof/Machine/CmdImage.lean ====
section
/-! DEFINITION. The commands: the process image (R197 to R224). -/

namespace Sys2Proof.Machine

/-- POINT_TABLE_WRITE (R199): A write to IMG_PTW defines, redefines or undefines a point while commits are disabled. -/
def execPointTableWrite (m : Master) (v : Word) (s : State) : Host.Outcome State Fault Refusal :=
  writeRow s m IMG_PTW v

/-- COMMIT_ENABLE (R202): A write of CEN = 1 sets E and arms the sample and commit triggers. -/
def execCommitEnable (m : Master) (v : Word) (s : State) : Host.Outcome State Fault Refusal :=
  writeRow s m IMG_CTRL (putBit v 31 true)

/-- COMMIT_DISABLE (R203): Clearing CEN disarms both triggers, clears TB0LOCK and stops exports and imports. -/
def execCommitDisable (m : Master) (v : Word) (s : State) : Host.Outcome State Fault Refusal :=
  writeRow s m IMG_CTRL (putBit v 31 false)

/-- IMG_PIN (R207): PIN sets Q to E and records the owner. -/
def execImgPin (m : Master) (s : State) : Host.Outcome State Fault Refusal :=
  writeRow s m IMG_PINCMD 1

/-- IMG_UNPIN (R207): UNPIN from the owner releases the pin. -/
def execImgUnpin (m : Master) (s : State) : Host.Outcome State Fault Refusal :=
  writeRow s m IMG_PINCMD 2

/-- IMG_WINDOW_READ (R213): A window read returns point data and loads the reading master's quality, timestamp and tag
registers. -/
def execImgWindowRead (m : Master) (o : Fin 0x400000) (sz : Size) (tags : Bool) (u : Upset)
    (s : State) : Host.Outcome State Fault Refusal :=
  answer (windowRow s m.val o.val sz tags u)

/-- IMG_WPUT (R213): A write to IMG_WPUT performs a point write from the master's write registers. -/
def execImgWput (m : Master) (v : Word) (s : State) : Host.Outcome State Fault Refusal :=
  writeRow s m IMG_WPUT v

/-- EXPORT_ENABLE (R215): A write that sets EN of an export set enables it after its checks. -/
def execExportEnable (m : Master) (x : Fin 16) (v : Word) (s : State) : Host.Outcome State Fault Refusal :=
  writeRow s m (IMG_XCFG x.val) (putBit v 31 true)

/-- EXPORT_DISABLE (R215): A write to IMG_XCFG that clears EN disables the set and sets its other fields. -/
def execExportDisable (m : Master) (x : Fin 16) (v : Word) (s : State) : Host.Outcome State Fault Refusal :=
  writeRow s m (IMG_XCFG x.val) (putBit v 31 false)

/-- EXPORT_LATE (R216): A set not handed over by t_k + XOFF − 1 µs is abandoned and EXPLATE counted. -/
def execExportLate (x : Fin 16) (ready dt : Nat) (s : State) : Host.Outcome State Fault Refusal :=
  done (exportLateRow (elapse s dt) x.val ready)

/-- IMPORT_FRAME (R219): The importer tests a frame from the IMG port and imports it on time or discards it. -/
def execImportFrame (dt : Nat) (s : State) : Host.Outcome State Fault Refusal :=
  done (importRow (elapse s dt))

/-- IMPORT_MISS_CHECK (R221): At t_E + D every enabled subscription without a frame for E counts a MISS. -/
def execImportMissCheck (dt : Nat) (s : State) : Host.Outcome State Fault Refusal :=
  done (missRow (elapse s dt))

/-- SUBSCRIPTION_WRITE (R218): A write of a subscription entry is accepted or refused by its enable and uniqueness rules. -/
def execSubscriptionWrite (m : Master) (v : Word) (s : State) : Host.Outcome State Fault Refusal :=
  writeRow s m IMG_SBW0 v

/-- MAPPING_WRITE (R218): A write of a mapping entry is accepted or refused by its enable and uniqueness rules. -/
def execMappingWrite (m : Master) (w1 : Bool) (v : Word) (s : State) : Host.Outcome State Fault Refusal :=
  writeRow s m (if w1 then IMG_MPW1 else IMG_MPW0) v

/-- EPOCH_READ (R222): A read of IMG_EPOCH_LO latches IMG_EPOCH_HI for the reading master. -/
def execEpochRead (m : Master) (s : State) : Host.Outcome State Fault Refusal :=
  readRow s m IMG_EPOCH_LO

end Sys2Proof.Machine
end

