-- ==== Sys2Proof/Machine/CmdMailbox.lean ====
section
/-! DEFINITION. The commands: shared-memory ownership, mailboxes and locks (R312 to R331). -/

namespace Sys2Proof.Machine

/-- BANK_HANDOVER (R318): A write to MEM_OWN changes a bank's owner from that cycle. -/
def execBankHandover (m : Master) (b : Fin 32) (v : Word) (s : State) : Host.Outcome State Fault Refusal :=
  writeRow s m (MEM_OWN b.val) v

/-- GROUP_MEMBERS_WRITE (R318): A supervisor write to MEM_GRP changes ownership of every bank the group owns. -/
def execGroupMembersWrite (m : Master) (g : Fin 8) (v : Word) (s : State) : Host.Outcome State Fault Refusal :=
  writeRow s m (MEM_GRP g.val) v

/-- MAILBOX_SEND (R322): A write to MBX_PTR stores a pointer and tag and sets FULL, or is refused. -/
def execMailboxSend (m : Master) (k : Fin 64) (v : Word) (s : State) : Host.Outcome State Fault Refusal :=
  writeRow s m (MBX_PTR k.val) v

/-- MAILBOX_RECEIVE (R323): A read of MBX_PTR by DST returns the pointer and clears FULL. -/
def execMailboxReceive (m : Master) (k : Fin 64) (s : State) : Host.Outcome State Fault Refusal :=
  readRow s m (MBX_PTR k.val)

/-- MAILBOX_CONFIG (R321): A supervisor write to MBX_CFG sets a mailbox's sender and receiver while empty. -/
def execMailboxConfig (m : Master) (k : Fin 64) (v : Word) (s : State) : Host.Outcome State Fault Refusal :=
  writeRow s m (MBX_CFG k.val) v

/-- MAILBOX_CROSSED (R327): A crossed pair full for XTIME µs sets XING in both mailboxes. -/
def execMailboxCrossed (a b : Fin 64) (dt : Nat) (s : State) : Host.Outcome State Fault Refusal :=
  done (mbxCross (elapse s dt) a.val b.val)

/-- LOCK_ACQUIRE (R329): A read of a free lock records the reader as owner. -/
def execLockAcquire (m : Master) (k : Fin 32) (s : State) : Host.Outcome State Fault Refusal :=
  readRow s m (MBX_LK k.val)

/-- LOCK_RELEASE (R329): A write of 0 by the owner or a supervisor releases a lock. -/
def execLockRelease (m : Master) (k : Fin 32) (s : State) : Host.Outcome State Fault Refusal :=
  writeRow s m (MBX_LK k.val) 0

end Sys2Proof.Machine
end

