-- ==== Sys2Proof/Machine/CmdMem.lean ====
section
/-! DEFINITION. The commands: loads and stores, branches, jumps, and the system instructions (R120 to R157). -/

namespace Sys2Proof.Machine

/-- LW (R123): LW loads a word from memory at RA + IMM16. -/
def execLw (x : CtxId) (f u : Upset) (s : State) : Host.Outcome State Fault Refusal :=
  jRow s x .lw f u

/-- LH (R123): LH loads a sign-extended half-word. -/
def execLh (x : CtxId) (f u : Upset) (s : State) : Host.Outcome State Fault Refusal :=
  jRow s x .lh f u

/-- LHU (R123): LHU loads a zero-extended half-word. -/
def execLhu (x : CtxId) (f u : Upset) (s : State) : Host.Outcome State Fault Refusal :=
  jRow s x .lhu f u

/-- LB (R123): LB loads a sign-extended byte. -/
def execLb (x : CtxId) (f u : Upset) (s : State) : Host.Outcome State Fault Refusal :=
  jRow s x .lb f u

/-- LBU (R123): LBU loads a zero-extended byte. -/
def execLbu (x : CtxId) (f u : Upset) (s : State) : Host.Outcome State Fault Refusal :=
  jRow s x .lbu f u

/-- SW (R125): SW stores a word, posted when it goes through the interconnect. -/
def execSw (x : CtxId) (f u : Upset) (s : State) : Host.Outcome State Fault Refusal :=
  jRow s x .sw f u

/-- SH (R125): SH stores the low half-word of RD. -/
def execSh (x : CtxId) (f u : Upset) (s : State) : Host.Outcome State Fault Refusal :=
  jRow s x .sh f u

/-- SB (R125): SB stores the low byte of RD. -/
def execSb (x : CtxId) (f u : Upset) (s : State) : Host.Outcome State Fault Refusal :=
  jRow s x .sb f u

/-- PUSH (R136): PUSH stores RD below g29 after the DSLO check and lowers g29. -/
def execPush (x : CtxId) (f u : Upset) (s : State) : Host.Outcome State Fault Refusal :=
  jRow s x .push f u

/-- POP (R136): POP loads RD from g29 after the DSHI check and raises g29. -/
def execPop (x : CtxId) (f u : Upset) (s : State) : Host.Outcome State Fault Refusal :=
  jRow s x .pop f u

/-- BEQ (R132): BEQ branches if RA equals RB, with its delay slot. -/
def execBeq (x : CtxId) (f : Upset) (s : State) : Host.Outcome State Fault Refusal :=
  jRow s x .beq f .good

/-- BNE (R132): BNE branches if RA differs from RB. -/
def execBne (x : CtxId) (f : Upset) (s : State) : Host.Outcome State Fault Refusal :=
  jRow s x .bne f .good

/-- BLT (R132): BLT branches if RA < RB signed. -/
def execBlt (x : CtxId) (f : Upset) (s : State) : Host.Outcome State Fault Refusal :=
  jRow s x .blt f .good

/-- BGE (R132): BGE branches if RA ≥ RB signed. -/
def execBge (x : CtxId) (f : Upset) (s : State) : Host.Outcome State Fault Refusal :=
  jRow s x .bge f .good

/-- BLTU (R132): BLTU branches if RA < RB unsigned. -/
def execBltu (x : CtxId) (f : Upset) (s : State) : Host.Outcome State Fault Refusal :=
  jRow s x .bltu f .good

/-- BGEU (R132): BGEU branches if RA ≥ RB unsigned. -/
def execBgeu (x : CtxId) (f : Upset) (s : State) : Host.Outcome State Fault Refusal :=
  jRow s x .bgeu f .good

/-- J (R131): J jumps to p + 4 × OFF26. -/
def execJ (x : CtxId) (f : Upset) (s : State) : Host.Outcome State Fault Refusal :=
  jRow s x .j f .good

/-- CALL (R131): CALL jumps and pushes p + 8 onto the return stack. -/
def execCall (x : CtxId) (f : Upset) (s : State) : Host.Outcome State Fault Refusal :=
  jRow s x .call f .good

/-- JR (R131): JR jumps to RA. -/
def execJr (x : CtxId) (f : Upset) (s : State) : Host.Outcome State Fault Refusal :=
  jRow s x .jr f .good

/-- CALLR (R131): CALLR jumps to RA and pushes the return address. -/
def execCallr (x : CtxId) (f : Upset) (s : State) : Host.Outcome State Fault Refusal :=
  jRow s x .callr f .good

/-- RET (R131): RET pops the return address and jumps to it. -/
def execRet (x : CtxId) (f : Upset) (s : State) : Host.Outcome State Fault Refusal :=
  jRow s x .ret f .good

/-- FENCE (R126): SYS FENCE blocks the context until its posted stores have completed. -/
def execFence (x : CtxId) (f : Upset) (s : State) : Host.Outcome State Fault Refusal :=
  jRow s x .fence f .good

/-- SYS_WAIT (R151): SYS WAIT puts the context in WAIT until an unmasked interrupt line is pending. -/
def execSysWait (x : CtxId) (f : Upset) (s : State) : Host.Outcome State Fault Refusal :=
  jRow s x .wait f .good

/-- TRET (R152): TRET leaves handler mode and executes the instruction at RPC with RNEXT as its successor. -/
def execTret (x : CtxId) (f : Upset) (s : State) : Host.Outcome State Fault Refusal :=
  jRow s x .tret f .good

/-- TRAP (R148): SYS TRAP raises the TRAP exception with the given code. -/
def execTrap (x : CtxId) (f : Upset) (s : State) : Host.Outcome State Fault Refusal :=
  jRow s x .trap f .good

/-- CSRR (R156): CSRR reads a context register of the executing context. -/
def execCsrr (x : CtxId) (f : Upset) (s : State) : Host.Outcome State Fault Refusal :=
  jRow s x .csrr f .good

/-- CSRW (R156): CSRW writes a context register of the executing context. -/
def execCsrw (x : CtxId) (f : Upset) (s : State) : Host.Outcome State Fault Refusal :=
  jRow s x .csrw f .good

/-- SYS_HALT (R120): SYS HALT puts the context in STOPPED with PC after the HALT. -/
def execSysHalt (x : CtxId) (f : Upset) (s : State) : Host.Outcome State Fault Refusal :=
  jRow s x .halt f .good

end Sys2Proof.Machine
end

