-- ==== Sys2Proof/Machine/CmdPairs.lean ====
section
/-! DEFINITION. The commands: the control pairs and the leadership arbiter (R332 to R350). -/

namespace Sys2Proof.Machine

/-- LOCKSTEP_FAULT (R339): A lockstep difference or cache parity error discards held accesses and resets the pair. -/
def execLockstepFault (p : Fin 2) (s : State) : Host.Outcome State Fault Refusal :=
  done (lockstepFault s p.val)

/-- INVALIDATE_DCACHE (R337): A write of INVD invalidates the data caches of both cores. -/
def execInvalidateDcache (m : Master) (p : Fin 2) (s : State) : Host.Outcome State Fault Refusal :=
  writeRow s m (localAddr m.val (ARB_PL_CACHE p.val)) 2

/-- INVALIDATE_ICACHE (R337): A write of INVI invalidates the instruction caches of both cores. -/
def execInvalidateIcache (m : Master) (p : Fin 2) (s : State) : Host.Outcome State Fault Refusal :=
  writeRow s m (localAddr m.val (ARB_PL_CACHE p.val)) 1

/-- REGION_WRITE (R336): A write to a protection region register is accepted unless locked or invalid. -/
def execRegionWrite (m : Master) (p : Fin 2) (r : Fin 32) (o : Fin 3) (v : Word)
    (s : State) : Host.Outcome State Fault Refusal :=
  writeRow s m (localAddr m.val (ARB_PL_RBASE p.val r.val + 4 * o.val)) v

/-- HEARTBEAT (R341): A pair's write of its heartbeat register resets its heartbeat age. -/
def execHeartbeat (m : Master) (p : Fin 2) (v : Word) (s : State) : Host.Outcome State Fault Refusal :=
  writeRow s m (ARB_HB p.val) v

/-- HEARTBEAT_TIMEOUT (R341): A ready pair's heartbeat age exceeds HBTO, clearing READY and counting a fault. -/
def execHeartbeatTimeout (p : Fin 2) (dt : Nat) (s : State) : Host.Outcome State Fault Refusal :=
  done (spareCheck (beatTimeout (elapse s dt) p.val))

/-- CLAIM (R343): CLAIM sets READY of the writing pair. -/
def execClaim (m : Master) (s : State) : Host.Outcome State Fault Refusal :=
  writeRow s m ARB_CMD 1

/-- UNREADY (R343): UNREADY clears READY of a pair that does not hold the token. -/
def execUnready (m : Master) (s : State) : Host.Outcome State Fault Refusal :=
  writeRow s m ARB_CMD 2

/-- RESIGN (R343): RESIGN from the holder sets RESPEND. -/
def execResign (m : Master) (s : State) : Host.Outcome State Fault Refusal :=
  writeRow s m ARB_CMD 3

/-- RESIGN_DUE (R344): A pending resignation falls due and moves the token or lapses. -/
def execResignDue (s : State) : Host.Outcome State Fault Refusal :=
  done (spareCheck (resignDue s))

/-- ESCALATE (R343): ESCALATE records a fault escalation of a pair. -/
def execEscalate (m : Master) (p : Fin 2) (s : State) : Host.Outcome State Fault Refusal :=
  writeRow s m ARB_CMD (BitVec.ofNat 32 (4 + 256 * p.val))

/-- SAFEREL (R346): SAFEREL from the holder ends SAFE and hands the pins back. -/
def execSaferel (m : Master) (s : State) : Host.Outcome State Fault Refusal :=
  writeRow s m ARB_CMD 5

/-- REARM (R343): REARM clears LSF and SPARE of a pair and releases it at ARB_ENTRY. -/
def execRearm (m : Master) (p : Fin 2) (s : State) : Host.Outcome State Fault Refusal :=
  writeRow s m ARB_CMD (BitVec.ofNat 32 (6 + 256 * p.val))

/-- FAULT_COUNT_CLEAR (R342): A write of ARB_FCNT.CLR = 1 by the boot loader or debug clears FCA and FCB. -/
def execFaultCountClear (m : Master) (s : State) : Host.Outcome State Fault Refusal :=
  writeRow s m ARB_FCNT 0x80000000

/-- UNCLAIMED_HEARTBEAT_AGE_EXPIRY (R343): In single-pair mode with SPAREAUTO, pair A's heartbeat age since release exceeds
HBTO before it ever claims, so failed(a) holds and the spare pair B is released. -/
def execUnclaimedHeartbeatAgeExpiry (dt : Nat) (s : State) : Host.Outcome State Fault Refusal :=
  done (spareCheck (elapse s dt))

end Sys2Proof.Machine
end

