-- ==== Sys2Proof/Machine/CmdPower.lean ====
section
/-! DEFINITION. The commands: power, reset and safe states (R385 to R409). -/

namespace Sys2Proof.Machine

/-- POWER_UP_START (R387): After 10 ms of valid VAON without VIN_WARN the sequencer raises PWR_EN0. -/
def execPowerUpStart (s : State) : Host.Outcome State Fault Refusal :=
  done (powerUpStart s)

/-- POWER_UP_STEP (R387): A power-good condition holds and the next regulator enables rise. -/
def execPowerUpStep (pg : BitVec 6) (vdd : Bool) (s : State) : Host.Outcome State Fault Refusal :=
  done (powerUpStep s pg.toNat vdd)

/-- POWER_UP_SETTLED (R387): The 1 ms settling ends, COREPOR is released and STATE becomes ON. -/
def execPowerUpSettled (s : State) : Host.Outcome State Fault Refusal :=
  done (powerUpSettled s)

/-- POWER_UP_TIMEOUT (R388): A power-up step not met within TPG powers down and enters RETRY. -/
def execPowerUpTimeout (s : State) : Host.Outcome State Fault Refusal :=
  done (powerUpTimeout s)

/-- RETRY_END (R388): The 1 s RETRY wait ends. -/
def execRetryEnd (s : State) : Host.Outcome State Fault Refusal :=
  done (retryEnd s)

/-- POWER_DOWN_STEP (R389): The next power-down lowering follows power-good low or its 20 ms limit plus TDN. -/
def execPowerDownStep (pg : BitVec 6) (limit : Bool) (s : State) : Host.Outcome State Fault Refusal :=
  done (powerDownStep s pg.toNat limit)

/-- SUPPLY_WARNING (R390): A warning crossing on a monitored rail is an internal brown-out warning. -/
def execSupplyWarning (rail : Rail) (s : State) : Host.Outcome State Fault Refusal :=
  done (fuWarn (supplyWarning s rail))

/-- SUPPLY_FAIL (R390): A fail crossing asserts the BROWNOUT source. -/
def execSupplyFail (i : Fin 4) (s : State) : Host.Outcome State Fault Refusal :=
  done (supplyFail s i.val)

/-- BANK_UNDERVOLTAGE (R390): A VDDIO_Bg fail crossing asserts BANKUV of the group. -/
def execBankUndervoltage (g : Fin 16) (s : State) : Host.Outcome State Fault Refusal :=
  done (bankUndervoltage s g.val)

/-- RAIL_RECOVERY (R390): A rail above its threshold for 1 ms counts as recovered and releases its source. -/
def execRailRecovery (full : Bool) (rail : Rail) (s : State) : Host.Outcome State Fault Refusal :=
  done (railRecovery s full rail)

/-- HOLD_UP_START (R391): A persisted warning begins hold-up: commits stop, pins go safe, wear is persisted. -/
def execHoldUpStart (s : State) : Host.Outcome State Fault Refusal :=
  done (fuWarn (holdUpStart s))

/-- HOLD_UP_END (R391): At t_w + HOLDT COREPOR is asserted and power-down begins. -/
def execHoldUpEnd (s : State) : Host.Outcome State Fault Refusal :=
  done (holdUpEnd s)

/-- DOMAIN_OFF (R393): Setting a PMU_PDCTRL bit asserts PDOFF, isolates and switches the domain off. -/
def execDomainOff (m : Master) (d : Fin 27) (s : State) : Host.Outcome State Fault Refusal :=
  writeRow s m PMU_PDCTRL (putBit (s.rd PMU_PDCTRL) d.val true)

/-- DOMAIN_ON (R393): Clearing a PMU_PDCTRL bit switches the domain on and clears its memories. -/
def execDomainOn (m : Master) (d : Fin 27) (s : State) : Host.Outcome State Fault Refusal :=
  writeRow s m PMU_PDCTRL (putBit (s.rd PMU_PDCTRL) d.val false)

/-- DOMAIN_OFF_DONE (R393): PMU_PDSTAT shows the domain off. -/
def execDomainOffDone (d : Fin 27) (s : State) : Host.Outcome State Fault Refusal :=
  done (domainOffDone s d.val)

/-- DOMAIN_ON_DONE (R393): The domain's memories are cleared, PDOFF is released and PDDONE is set. -/
def execDomainOnDone (d : Fin 27) (s : State) : Host.Outcome State Fault Refusal :=
  done (domainOnDone s d.val)

/-- RESETIN_ASSERT (R396): RESETIN held for 1 µs asserts a cold reset source. -/
def execResetinAssert (s : State) : Host.Outcome State Fault Refusal :=
  done (wideAssert s 3)

/-- RESETIN_RELEASE (R396): RESETIN deasserted releases its source. -/
def execResetinRelease (s : State) : Host.Outcome State Fault Refusal :=
  done (wideRelease s 3)

/-- AONPOR_ASSERT (R396): VAON and VBAT both invalid assert AONPOR and clear PD_AON. -/
def execAonporAssert (s : State) : Host.Outcome State Fault Refusal :=
  done (aonReset s)

/-- AONPOR_RELEASE (R396): AONPOR is released 10 ms after a supply becomes valid. -/
def execAonporRelease (vaon : Bool) (s : State) : Host.Outcome State Fault Refusal :=
  done (aonRelease s vaon)

/-- RESET_SOURCE_EXPIRY (R396): A timed reset source is released after its fixed duration. -/
def execResetSourceExpiry (src : TimedSrc) (s : State) : Host.Outcome State Fault Refusal :=
  done (sourceExpiry s src)

/-- SWSUB_ASSERT (R402): ASSERT sets the SWSUB source of a target. -/
def execSwsubAssert (m : Master) (t : Fin 29) (s : State) : Host.Outcome State Fault Refusal :=
  writeRow s m RST_SWRST (BitVec.ofNat 32 (0xA55A1000 + t.val))

/-- SWSUB_RELEASE (R402): RELEASE clears the SWSUB source of a target. -/
def execSwsubRelease (m : Master) (t : Fin 29) (s : State) : Host.Outcome State Fault Refusal :=
  writeRow s m RST_SWRST (BitVec.ofNat 32 (0xA55A2000 + t.val))

/-- SWSUB_PULSE (R402): PULSE asserts SWSUB on a target for 1 µs. -/
def execSwsubPulse (m : Master) (t : Fin 29) (s : State) : Host.Outcome State Fault Refusal :=
  writeRow s m RST_SWRST (BitVec.ofNat 32 (0xA55A3000 + t.val))

/-- SW_WARM_RESET (R402): WARM asserts the SWWARM source. -/
def execSwWarmReset (m : Master) (s : State) : Host.Outcome State Fault Refusal :=
  writeRow s m RST_SWRST 0xA55A4000

/-- SW_COLD_RESET (R402): COLD asserts the SWCOLD source. -/
def execSwColdReset (m : Master) (s : State) : Host.Outcome State Fault Refusal :=
  writeRow s m RST_SWRST 0xA55A5000

/-- BLOCK_RESET_WRITE (R396): A write to RST_BLKCAN or RST_BLKHX asserts or releases BLOCK for each controller or sequencer.
-/
def execBlockResetWrite (m : Master) (hx : Bool) (v : Word) (s : State) : Host.Outcome State Fault Refusal :=
  writeRow s m (if hx then RST_BLKHX else RST_BLKCAN) v

/-- ADC_SAMPLE (R408): A list entry is sampled and its code written; the last ends the list and pulses the drive port. -/
def execAdcSample (x : Fin 2) (code : BitVec 16) (s : State) : Host.Outcome State Fault Refusal :=
  done (let r := adcSample s x.val code.toNat; pulsesPer r.1 r.2)

/-- PGOOD_FALL (R388): A PGOOD input that falls while the sequencer is ON is an internal brown-out warning that starts
hold-up. -/
def execPgoodFall (i : Fin 6) (s : State) : Host.Outcome State Fault Refusal :=
  done (fuWarn (pgoodFall s i.val))

end Sys2Proof.Machine
end

