-- ==== Sys2Proof/Machine/CmdSwitch.lean ====
section
/-! DEFINITION. The commands: the Ethernet switch (R284 to R311). -/

namespace Sys2Proof.Machine

/-- FRAME_FORWARD (R289): A received frame passes the forwarding steps and is queued at each egress port. -/
def execFrameForward (p : Fin 12) (data : List Byte) (fcs : Fcs) (busy : Word) (dt : Nat) (sub : Fin 8) (rest : Nat) (csub : Fin 8) (u : EccSeen)
    (s : State) : Host.Outcome State Fault Refusal :=
  done (frameRow (elapse s dt) p.val data fcs busy sub.val rest csub.val u)

/-- FRAME_TRANSMIT (R295): An egress port starts its next frame from the highest ready class. -/
def execFrameTransmit (p : Fin 12) (dt : Nat) (sub : Fin 8) (u : EccSeen) (s : State) : Host.Outcome State Fault Refusal :=
  done (transmitRow (elapse s dt) p.val sub.val u)

/-- PFC_REFRESH (R298): While a hold lasts the port resends its PFC frame every PFCQ / 2 quanta. -/
def execPfcRefresh (p : Fin 16) (c : Fin 8) (s : State) : Host.Outcome State Fault Refusal :=
  done (pfcRefresh s p.val c.val)

/-- PFC_FRAME_RECEIVE (R299): A received PFC frame pauses the named classes. -/
def execPfcFrameReceive (p : Fin 12) (classes : Word) (quanta : List Nat) (s : State) : Host.Outcome State Fault Refusal :=
  done (pfcReceive s p.val classes quanta)

/-- PFC_PAUSE_END (R299): A class's pause time runs out. -/
def execPfcPauseEnd (p : Fin 12) (c : Fin 8) (s : State) : Host.Outcome State Fault Refusal :=
  done (pauseEnd s p.val c.val)

/-- PRIV_COPY_RESUME (R298): A privileged copy waiting on a full RX ring is written once the ring has room. -/
def execPrivCopyResume (q : Fin 128) (s : State) : Host.Outcome State Fault Refusal :=
  done (privResume s q.val)

/-- FDB_AGEING (R290): A dynamic entry unrefreshed for two ageing periods is removed. -/
def execFdbAgeing (s : State) : Host.Outcome State Fault Refusal :=
  done (fdbAge s)

/-- FDB_READ (R291): READ looks up an FDB entry by key. -/
def execFdbRead (m : Master) (s : State) : Host.Outcome State Fault Refusal :=
  writeRow s m SW_FDB_CMD 0x20000000

/-- FDB_WRITE (R291): WRITE writes a static FDB entry, or sets FULL. -/
def execFdbWrite (m : Master) (s : State) : Host.Outcome State Fault Refusal :=
  writeRow s m SW_FDB_CMD 0x40000000

/-- FDB_DELETE (R291): DELETE removes the FDB entry with the key. -/
def execFdbDelete (m : Master) (s : State) : Host.Outcome State Fault Refusal :=
  writeRow s m SW_FDB_CMD 0x60000000

/-- FDB_FLUSH (R291): FLUSH removes dynamic entries whose ports meet DATA.PORTS. -/
def execFdbFlush (m : Master) (s : State) : Host.Outcome State Fault Refusal :=
  writeRow s m SW_FDB_CMD 0x80000000

/-- GATE_CYCLE_START (R300): A gate cycle starts at T_n and the active list runs from entry 0. -/
def execGateCycleStart (p : Fin 12) (dt : Nat) (s : State) : Host.Outcome State Fault Refusal :=
  done (gateCycle (elapse s dt) p.val)

/-- GATE_ENTRY_ADVANCE (R300): A gate list entry's interval ends and the next entry's gate states apply. -/
def execGateEntryAdvance (p : Fin 12) (dt : Nat) (s : State) : Host.Outcome State Fault Refusal :=
  done (gateAdvance (elapse s dt) p.val)

/-- GATE_SWAP (R302): SWAP requests a gate list bank swap and sets PEND. -/
def execGateSwap (m : Master) (p : Fin 12) (v : Word) (s : State) : Host.Outcome State Fault Refusal :=
  writeRow s m (SW_P_GCTRL p.val) (setFld v 28 27 1)

/-- LAUNCH_TIME_REACHED (R304): A head frame waiting for its launch time is launched, or marked late. -/
def execLaunchTimeReached (q : Fin 96) (dt : Nat) (busy : Bool) (s : State) : Host.Outcome State Fault Refusal :=
  done (launchTime (elapse s dt) q.val busy)

/-- LINK_UP (R284): An Ethernet link comes up at full duplex, or is held down and REFUSED set. -/
def execLinkUp (p : Fin 12) (speed : Fin 8) (half fec : Bool) (s : State) : Host.Outcome State Fault Refusal :=
  done (linkComes s p.val speed.val half fec)

/-- LINK_DOWN (R284): An Ethernet link goes down. -/
def execLinkDown (p : Fin 12) (s : State) : Host.Outcome State Fault Refusal :=
  done (linkLost s p.val)

/-- LMODE_WRITE (R284): A write to SW_P_MODE.LMODE takes the link down and restarts it. -/
def execLmodeWrite (m : Master) (p : Fin 12) (v : Word) (s : State) : Host.Outcome State Fault Refusal :=
  writeRow s m (SW_P_MODE p.val) v

/-- TX_DESCRIPTOR (R307): The switch reads a TX descriptor and takes or refuses its frame. -/
def execTxDescriptor (r : Fin 128) (s : State) : Host.Outcome State Fault Refusal :=
  done (runSteps (txDescriptor s r.val))

/-- RING_ENABLE (R305): A write that sets EN enables a switch ring after its checks. -/
def execRingEnable (m : Master) (r : Fin 128) (v : Word) (s : State) : Host.Outcome State Fault Refusal :=
  writeRow s m (SW_R_CFG r.val) (putBit v 31 true)

/-- RING_DISABLE (R305): A write that clears EN disables a switch ring. -/
def execRingDisable (m : Master) (r : Fin 128) (v : Word) (s : State) : Host.Outcome State Fault Refusal :=
  writeRow s m (SW_R_CFG r.val) (putBit v 31 false)

/-- RING_LEN_WRITE (R305): A write to a ring's LEN sets both pointers to 0. -/
def execRingLenWrite (m : Master) (r : Fin 128) (v : Word) (s : State) : Host.Outcome State Fault Refusal :=
  writeRow s m (SW_R_LEN r.val) v

/-- PRP_ENABLE (R309): A write that sets EN of a PRP pair is accepted only with both ports DISABLED. -/
def execPrpEnable (m : Master) (k : Fin 6) (v : Word) (s : State) : Host.Outcome State Fault Refusal :=
  writeRow s m (SW_PRP_CFG k.val) (putBit v 31 true)

/-- PRP_FORGET (R309): A duplicate table entry is forgotten after FORGET ms and ONLYA or ONLYB counted. -/
def execPrpForget (k : Fin 6) (dt : Nat) (s : State) : Host.Outcome State Fault Refusal :=
  done (prpForget (elapse s dt) k.val)

/-- SEQ_RECOVERY_RESET (R292): A stream's sequence recovery resets after its reset timeout. -/
def execSeqRecoveryReset (i : Fin 1024) (s : State) : Host.Outcome State Fault Refusal :=
  done (recReset s i.val)

end Sys2Proof.Machine
end

