-- ==== Sys2Proof/Machine/CmdTime.lean ====
section
/-! DEFINITION. The commands: the time unit (R171 to R196). -/

namespace Sys2Proof.Machine

/-- TB_NS_READ (R173): A read of TU_TB_NS returns nanoseconds and latches seconds and sub-nanoseconds for the master. -/
def execTbNsRead (m : Master) (t : Fin 4) (s : State) : Host.Outcome State Fault Refusal :=
  readRow s m (TU_TB_NS t.val)

/-- TB_RATE_WRITE (R174): A write to TU_TB_RATE sets the timebase rate from the next cycle. -/
def execTbRateWrite (m : Master) (t : Fin 4) (v : Word) (s : State) : Host.Outcome State Fault Refusal :=
  writeRow s m (TU_TB_RATE t.val) v

/-- TB_STEP (R174): STEP adds the signed offset to a timebase and re-tests its trigger entries. -/
def execTbStep (m : Master) (t : Fin 4) (s : State) : Host.Outcome State Fault Refusal :=
  writeRow s m (TU_TB_CMD t.val) 1

/-- TB_LOAD (R174): LOAD sets a timebase to the given seconds and nanoseconds. -/
def execTbLoad (m : Master) (t : Fin 4) (s : State) : Host.Outcome State Fault Refusal :=
  writeRow s m (TU_TB_CMD t.val) 2

/-- DISC_WRITE (R175): A write to TU_CTRL.DISC selects the root PLL discipline source and begins a slew. -/
def execDiscWrite (m : Master) (v : Word) (s : State) : Host.Outcome State Fault Refusal :=
  writeRow s m TU_CTRL v

/-- PLL_SLEW_DONE (R175): The root PLL finishes moving to its DISC frequency and DISCLK becomes 1. -/
def execPllSlewDone (s : State) : Host.Outcome State Fault Refusal :=
  done (ifTu s slewDone)

/-- REF_LOSS (R176): 10MHZ_IN shows no edge for 400 ns, clearing REFOK and entering holdover. -/
def execRefLoss (s : State) : Host.Outcome State Fault Refusal :=
  done (ifTu s refLoss)

/-- REF_RETURN (R176): 10MHZ_IN shows edges for 1 ms, setting REFOK and slewing back to it. -/
def execRefReturn (s : State) : Host.Outcome State Fault Refusal :=
  done (ifTu s refReturn)

/-- TRIGGER_FIRE (R187): An enabled trigger entry fires at its trigger time and acts on its target. -/
def execTriggerFire (i : Fin 1024) (dt : Nat) (busy : Bool) (ready : Nat) (bad : List (Fin 65536))
    (s : State) : Host.Outcome State Fault Refusal :=
  done (fire (elapse s dt) i.val busy ready (bad.map (·.val)))

/-- TRIGGER_ENABLE (R188): A write that sets EN admits an entry to comparison and skips instants already passed. -/
def execTriggerEnable (m : Master) (i : Fin 1024) (v : Word) (s : State) : Host.Outcome State Fault Refusal :=
  writeRow s m (TU_TRG_CTRL i.val) (putBit v 31 true)

/-- TRIGGER_DISABLE (R189): A write to TU_TRG_CTRL with EN = 0 clears EN and sets the other CTRL fields. -/
def execTriggerDisable (m : Master) (i : Fin 1024) (v : Word) (s : State) : Host.Outcome State Fault Refusal :=
  writeRow s m (TU_TRG_CTRL i.val) (putBit v 31 false)

/-- TSQ_READ (R184): A read of TU_TSQ_W3 with VALID = 1 removes the head entry. -/
def execTsqRead (m : Master) (s : State) : Host.Outcome State Fault Refusal :=
  readRow s m TU_TSQ_W3

/-- PPS_OUT_EDGE (R191): The time unit drives 1PPS_OUT high at each whole second plus offset for WIDTH µs. -/
def execPpsOutEdge (rise : Bool) (dt refCycles : Nat) (s : State) : Host.Outcome State Fault Refusal :=
  done (ppsEdge s (elapse s dt) rise refCycles)

/-- PPS_KEEPER_EDGE (R192): The keeper drives a 1PPS_OUT edge one learnt period after the last. -/
def execPpsKeeperEdge (rise : Bool) (dt : Nat) (s : State) : Host.Outcome State Fault Refusal :=
  done (ppsKeeperEdge (elapse s dt) rise)

/-- PPS_HOLDOVER_EXPIRY (R192): After 10 s without handback the keeper drives 1PPS_OUT low and sets EXPIRED. -/
def execPpsHoldoverExpiry (dt : Nat) (s : State) : Host.Outcome State Fault Refusal :=
  done (ppsExpire (elapse s dt))

/-- PPS_IN_EDGE (R193): A rising edge of 1PPS_IN is captured by capture port 8. -/
def execPpsInEdge (sub : Fin 8) (dt : Nat) (s : State) : Host.Outcome State Fault Refusal :=
  done (ifTu (elapse s dt) (fun s => tuCapture s 8 sub.val))

end Sys2Proof.Machine
end

