-- ==== Sys2Proof/Machine/Dispatch.lean ====
section
/-! DEFINITION. One arm per command: the call of its meaning. -/

namespace Sys2Proof.Machine

def exec (i : Instr) (s : State) : Host.Outcome State Fault Refusal :=
  match i with
  | .registerWrite m a sz x => Sys2Proof.Machine.execRegisterWrite m a sz x s
  | .memoryAccess m a sz x u => Sys2Proof.Machine.execMemoryAccess m a sz x u s
  | .routeWrite m a v => Sys2Proof.Machine.execRouteWrite m a v s
  | .pllLoss => Sys2Proof.Machine.execPllLoss s
  | .cellTick c la lb dt u => Sys2Proof.Machine.execCellTick c la lb dt u s
  | .cellRestart m c idx => Sys2Proof.Machine.execCellRestart m c idx s
  | .cellStop m c => Sys2Proof.Machine.execCellStop m c s
  | .cellResume m c => Sys2Proof.Machine.execCellResume m c s
  | .cellSwap m c => Sys2Proof.Machine.execCellSwap m c s
  | .flushtx m c => Sys2Proof.Machine.execFlushtx m c s
  | .flushrx m c => Sys2Proof.Machine.execFlushrx m c s
  | .cellStep m c => Sys2Proof.Machine.execCellStep m c s
  | .txdataWrite m c v => Sys2Proof.Machine.execTxdataWrite m c v s
  | .rxdataRead m c => Sys2Proof.Machine.execRxdataRead m c s
  | .cellBankWrite m c b e hi v => Sys2Proof.Machine.execCellBankWrite m c b e hi v s
  | .fifoJoinWrite m c v => Sys2Proof.Machine.execFifoJoinWrite m c v s
  | .cellModeWrite m c v => Sys2Proof.Machine.execCellModeWrite m c v s
  | .edgeCapture c pinB rise sub dt => Sys2Proof.Machine.execEdgeCapture c pinB rise sub dt s
  | .directSourceEdge c pinB rise => Sys2Proof.Machine.execDirectSourceEdge c pinB rise s
  | .sgcmdWrite m v => Sys2Proof.Machine.execSgcmdWrite m v s
  | .dmaTransfer ch => Sys2Proof.Machine.execDmaTransfer ch s
  | .dmaEnable m ch v => Sys2Proof.Machine.execDmaEnable m ch v s
  | .dmaDisable m ch v => Sys2Proof.Machine.execDmaDisable m ch v s
  | .dmaLenWrite m ch v => Sys2Proof.Machine.execDmaLenWrite m ch v s
  | .chkCfgWrite m u v => Sys2Proof.Machine.execChkCfgWrite m u v s
  | .chkParamWrite m u p v => Sys2Proof.Machine.execChkParamWrite m u p v s
  | .chkInit m u => Sys2Proof.Machine.execChkInit m u s
  | .chkEnd m u => Sys2Proof.Machine.execChkEnd m u s
  | .chkFeed m u n v => Sys2Proof.Machine.execChkFeed m u n v s
  | .swpulseWrite m hi v => Sys2Proof.Machine.execSwpulseWrite m hi v s
  | .shadowSnapshot g => Sys2Proof.Machine.execShadowSnapshot g s
  | .shadowCompareEnd g => Sys2Proof.Machine.execShadowCompareEnd g s
  | .shadowMismatch g kind inCell => Sys2Proof.Machine.execShadowMismatch g kind inCell s
  | .shadowRelease m g => Sys2Proof.Machine.execShadowRelease m g s
  | .shadowSkip m g => Sys2Proof.Machine.execShadowSkip m g s
  | .shadowRetire m g => Sys2Proof.Machine.execShadowRetire m g s
  | .add x f => Sys2Proof.Machine.execAdd x f s
  | .sub x f => Sys2Proof.Machine.execSub x f s
  | .andI x f => Sys2Proof.Machine.execAndI x f s
  | .orI x f => Sys2Proof.Machine.execOrI x f s
  | .xorI x f => Sys2Proof.Machine.execXorI x f s
  | .nor x f => Sys2Proof.Machine.execNor x f s
  | .sll x f => Sys2Proof.Machine.execSll x f s
  | .srl x f => Sys2Proof.Machine.execSrl x f s
  | .sra x f => Sys2Proof.Machine.execSra x f s
  | .ror x f => Sys2Proof.Machine.execRor x f s
  | .slt x f => Sys2Proof.Machine.execSlt x f s
  | .sltu x f => Sys2Proof.Machine.execSltu x f s
  | .minI x f => Sys2Proof.Machine.execMinI x f s
  | .maxI x f => Sys2Proof.Machine.execMaxI x f s
  | .minu x f => Sys2Proof.Machine.execMinu x f s
  | .maxu x f => Sys2Proof.Machine.execMaxu x f s
  | .mul x f => Sys2Proof.Machine.execMul x f s
  | .mulhu x f => Sys2Proof.Machine.execMulhu x f s
  | .mulh x f => Sys2Proof.Machine.execMulh x f s
  | .clz x f => Sys2Proof.Machine.execClz x f s
  | .popc x f => Sys2Proof.Machine.execPopc x f s
  | .bswap x f => Sys2Proof.Machine.execBswap x f s
  | .brev x f => Sys2Proof.Machine.execBrev x f s
  | .slli x f => Sys2Proof.Machine.execSlli x f s
  | .srli x f => Sys2Proof.Machine.execSrli x f s
  | .srai x f => Sys2Proof.Machine.execSrai x f s
  | .rori x f => Sys2Proof.Machine.execRori x f s
  | .extu x f => Sys2Proof.Machine.execExtu x f s
  | .exts x f => Sys2Proof.Machine.execExts x f s
  | .ins x f => Sys2Proof.Machine.execIns x f s
  | .addi x f => Sys2Proof.Machine.execAddi x f s
  | .andi x f => Sys2Proof.Machine.execAndi x f s
  | .ori x f => Sys2Proof.Machine.execOri x f s
  | .xori x f => Sys2Proof.Machine.execXori x f s
  | .slti x f => Sys2Proof.Machine.execSlti x f s
  | .sltiu x f => Sys2Proof.Machine.execSltiu x f s
  | .lui x f => Sys2Proof.Machine.execLui x f s
  | .lw x f u => Sys2Proof.Machine.execLw x f u s
  | .lh x f u => Sys2Proof.Machine.execLh x f u s
  | .lhu x f u => Sys2Proof.Machine.execLhu x f u s
  | .lb x f u => Sys2Proof.Machine.execLb x f u s
  | .lbu x f u => Sys2Proof.Machine.execLbu x f u s
  | .sw x f u => Sys2Proof.Machine.execSw x f u s
  | .sh x f u => Sys2Proof.Machine.execSh x f u s
  | .sb x f u => Sys2Proof.Machine.execSb x f u s
  | .push x f u => Sys2Proof.Machine.execPush x f u s
  | .pop x f u => Sys2Proof.Machine.execPop x f u s
  | .beq x f => Sys2Proof.Machine.execBeq x f s
  | .bne x f => Sys2Proof.Machine.execBne x f s
  | .blt x f => Sys2Proof.Machine.execBlt x f s
  | .bge x f => Sys2Proof.Machine.execBge x f s
  | .bltu x f => Sys2Proof.Machine.execBltu x f s
  | .bgeu x f => Sys2Proof.Machine.execBgeu x f s
  | .j x f => Sys2Proof.Machine.execJ x f s
  | .call x f => Sys2Proof.Machine.execCall x f s
  | .jr x f => Sys2Proof.Machine.execJr x f s
  | .callr x f => Sys2Proof.Machine.execCallr x f s
  | .ret x f => Sys2Proof.Machine.execRet x f s
  | .fence x f => Sys2Proof.Machine.execFence x f s
  | .sysWait x f => Sys2Proof.Machine.execSysWait x f s
  | .tret x f => Sys2Proof.Machine.execTret x f s
  | .trap x f => Sys2Proof.Machine.execTrap x f s
  | .csrr x f => Sys2Proof.Machine.execCsrr x f s
  | .csrw x f => Sys2Proof.Machine.execCsrw x f s
  | .sysHalt x f => Sys2Proof.Machine.execSysHalt x f s
  | .crx x f => Sys2Proof.Machine.execCrx x f s
  | .crxw x f => Sys2Proof.Machine.execCrxw x f s
  | .ctx x f => Sys2Proof.Machine.execCtx x f s
  | .ctxw x f => Sys2Proof.Machine.execCtxw x f s
  | .cstat x f => Sys2Proof.Machine.execCstat x f s
  | .crd x f => Sys2Proof.Machine.execCrd x f s
  | .cwr x f => Sys2Proof.Machine.execCwr x f s
  | .blockingWaitIssue x => Sys2Proof.Machine.execBlockingWaitIssue x s
  | .ckf1 x f => Sys2Proof.Machine.execCkf1 x f s
  | .ckf2 x f => Sys2Proof.Machine.execCkf2 x f s
  | .ckf4 x f => Sys2Proof.Machine.execCkf4 x f s
  | .ckinit x f => Sys2Proof.Machine.execCkinit x f s
  | .ckend x f => Sys2Proof.Machine.execCkend x f s
  | .ckres x f => Sys2Proof.Machine.execCkres x f s
  | .ckst x f => Sys2Proof.Machine.execCkst x f s
  | .ckrd x f => Sys2Proof.Machine.execCkrd x f s
  | .ckwr x f => Sys2Proof.Machine.execCkwr x f s
  | .tsnap x f => Sys2Proof.Machine.execTsnap x f s
  | .tsecl x f => Sys2Proof.Machine.execTsecl x f s
  | .tsech x f => Sys2Proof.Machine.execTsech x f s
  | .tsub x f => Sys2Proof.Machine.execTsub x f s
  | .twait x f => Sys2Proof.Machine.execTwait x f s
  | .trd x f => Sys2Proof.Machine.execTrd x f s
  | .twr x f => Sys2Proof.Machine.execTwr x f s
  | .iget x f u => Sys2Proof.Machine.execIget x f u s
  | .irb x f => Sys2Proof.Machine.execIrb x f s
  | .iwb x f => Sys2Proof.Machine.execIwb x f s
  | .iput x f => Sys2Proof.Machine.execIput x f s
  | .istn x f => Sys2Proof.Machine.execIstn x f s
  | .ists x f => Sys2Proof.Machine.execIsts x f s
  | .irts x f => Sys2Proof.Machine.execIrts x f s
  | .iepo x f => Sys2Proof.Machine.execIepo x f s
  | .msend x f => Sys2Proof.Machine.execMsend x f s
  | .mtag x f => Sys2Proof.Machine.execMtag x f s
  | .mrecv x f => Sys2Proof.Machine.execMrecv x f s
  | .mstat x f => Sys2Proof.Machine.execMstat x f s
  | .lkacq x f => Sys2Proof.Machine.execLkacq x f s
  | .lkrel x f => Sys2Proof.Machine.execLkrel x f s
  | .x7 x f => Sys2Proof.Machine.execX7 x f s
  | .fadd x f => Sys2Proof.Machine.execFadd x f s
  | .fsub x f => Sys2Proof.Machine.execFsub x f s
  | .fmul x f => Sys2Proof.Machine.execFmul x f s
  | .fdiv x f => Sys2Proof.Machine.execFdiv x f s
  | .fsqrt x f => Sys2Proof.Machine.execFsqrt x f s
  | .fmin x f => Sys2Proof.Machine.execFmin x f s
  | .fmax x f => Sys2Proof.Machine.execFmax x f s
  | .fneg x f => Sys2Proof.Machine.execFneg x f s
  | .fabs x f => Sys2Proof.Machine.execFabs x f s
  | .feq x f => Sys2Proof.Machine.execFeq x f s
  | .flt x f => Sys2Proof.Machine.execFlt x f s
  | .fle x f => Sys2Proof.Machine.execFle x f s
  | .fcvtdw x f => Sys2Proof.Machine.execFcvtdw x f s
  | .fcvtwd x f => Sys2Proof.Machine.execFcvtwd x f s
  | .fcvtds x f => Sys2Proof.Machine.execFcvtds x f s
  | .fcvtsd x f => Sys2Proof.Machine.execFcvtsd x f s
  | .fld x f u => Sys2Proof.Machine.execFld x f u s
  | .fst x f u => Sys2Proof.Machine.execFst x f u s
  | .ctxStart m x => Sys2Proof.Machine.execCtxStart m x s
  | .ctxStop m x => Sys2Proof.Machine.execCtxStop m x s
  | .ctxResume m x => Sys2Proof.Machine.execCtxResume m x s
  | .ctxStep m x => Sys2Proof.Machine.execCtxStep m x s
  | .ctxClear m x => Sys2Proof.Machine.execCtxClear m x s
  | .intTaken x => Sys2Proof.Machine.execIntTaken x s
  | .contextWake x => Sys2Proof.Machine.execContextWake x s
  | .remoteLoadDone x u => Sys2Proof.Machine.execRemoteLoadDone x u s
  | .postedStoreDone x ix u => Sys2Proof.Machine.execPostedStoreDone x ix u s
  | .dbuswTaken x => Sys2Proof.Machine.execDbuswTaken x s
  | .wdogExpiry x dt => Sys2Proof.Machine.execWdogExpiry x dt s
  | .wdogWrite m x v => Sys2Proof.Machine.execWdogWrite m x v s
  | .pointTimeout n p => Sys2Proof.Machine.execPointTimeout n p s
  | .instanceFaultRecovery n k diag inputs run => Sys2Proof.Machine.execInstanceFaultRecovery n k diag inputs run s
  | .tbNsRead m t => Sys2Proof.Machine.execTbNsRead m t s
  | .tbRateWrite m t v => Sys2Proof.Machine.execTbRateWrite m t v s
  | .tbStep m t => Sys2Proof.Machine.execTbStep m t s
  | .tbLoad m t => Sys2Proof.Machine.execTbLoad m t s
  | .discWrite m v => Sys2Proof.Machine.execDiscWrite m v s
  | .pllSlewDone => Sys2Proof.Machine.execPllSlewDone s
  | .refLoss => Sys2Proof.Machine.execRefLoss s
  | .refReturn => Sys2Proof.Machine.execRefReturn s
  | .triggerFire ix dt busy ready bad => Sys2Proof.Machine.execTriggerFire ix dt busy ready bad s
  | .triggerEnable m ix v => Sys2Proof.Machine.execTriggerEnable m ix v s
  | .triggerDisable m ix v => Sys2Proof.Machine.execTriggerDisable m ix v s
  | .tsqRead m => Sys2Proof.Machine.execTsqRead m s
  | .ppsOutEdge rise dt refCycles => Sys2Proof.Machine.execPpsOutEdge rise dt refCycles s
  | .ppsKeeperEdge rise dt => Sys2Proof.Machine.execPpsKeeperEdge rise dt s
  | .ppsHoldoverExpiry dt => Sys2Proof.Machine.execPpsHoldoverExpiry dt s
  | .ppsInEdge sub dt => Sys2Proof.Machine.execPpsInEdge sub dt s
  | .pointTableWrite m v => Sys2Proof.Machine.execPointTableWrite m v s
  | .commitEnable m v => Sys2Proof.Machine.execCommitEnable m v s
  | .commitDisable m v => Sys2Proof.Machine.execCommitDisable m v s
  | .imgPin m => Sys2Proof.Machine.execImgPin m s
  | .imgUnpin m => Sys2Proof.Machine.execImgUnpin m s
  | .imgWindowRead m o sz tags u => Sys2Proof.Machine.execImgWindowRead m o sz tags u s
  | .imgWput m v => Sys2Proof.Machine.execImgWput m v s
  | .exportEnable m x v => Sys2Proof.Machine.execExportEnable m x v s
  | .exportDisable m x v => Sys2Proof.Machine.execExportDisable m x v s
  | .exportLate x ready dt => Sys2Proof.Machine.execExportLate x ready dt s
  | .importFrame dt => Sys2Proof.Machine.execImportFrame dt s
  | .importMissCheck dt => Sys2Proof.Machine.execImportMissCheck dt s
  | .subscriptionWrite m v => Sys2Proof.Machine.execSubscriptionWrite m v s
  | .mappingWrite m w1 v => Sys2Proof.Machine.execMappingWrite m w1 v s
  | .epochRead m => Sys2Proof.Machine.execEpochRead m s
  | .hxStart m n => Sys2Proof.Machine.execHxStart m n s
  | .hxStop m n => Sys2Proof.Machine.execHxStop m n s
  | .hxHalt m n => Sys2Proof.Machine.execHxHalt m n s
  | .dawnSend n dt => Sys2Proof.Machine.execDawnSend n dt s
  | .pollSend n late dt => Sys2Proof.Machine.execPollSend n late dt s
  | .respSend n late dt => Sys2Proof.Machine.execRespSend n late dt s
  | .hxFrameReceive n bytes framing dt len => Sys2Proof.Machine.execHxFrameReceive n bytes framing dt len s
  | .responseWindowClose n j dt => Sys2Proof.Machine.execResponseWindowClose n j dt s
  | .duskStart n dt => Sys2Proof.Machine.execDuskStart n dt s
  | .duskSend n dt => Sys2Proof.Machine.execDuskSend n dt s
  | .readbackError n dt => Sys2Proof.Machine.execReadbackError n dt s
  | .duskTxQueue m n v => Sys2Proof.Machine.execDuskTxQueue m n v s
  | .duskTxWithdraw m n v => Sys2Proof.Machine.execDuskTxWithdraw m n v s
  | .listenTimeout n dt => Sys2Proof.Machine.execListenTimeout n dt s
  | .confirmationEnd n dt => Sys2Proof.Machine.execConfirmationEnd n dt s
  | .daybreakBackoffEnd n dt => Sys2Proof.Machine.execDaybreakBackoffEnd n dt s
  | .dawnWindowClose n dt => Sys2Proof.Machine.execDawnWindowClose n dt s
  | .passiveTimeout n dt => Sys2Proof.Machine.execPassiveTimeout n dt s
  | .backupTakeover n dt => Sys2Proof.Machine.execBackupTakeover n dt s
  | .claimWrite m n v => Sys2Proof.Machine.execClaimWrite m n v s
  | .claimWithdraw m n v => Sys2Proof.Machine.execClaimWithdraw m n v s
  | .grantWrite m n v => Sys2Proof.Machine.execGrantWrite m n v s
  | .canStart m n => Sys2Proof.Machine.execCanStart m n s
  | .canStop m n => Sys2Proof.Machine.execCanStop m n s
  | .canIntegrationDone n => Sys2Proof.Machine.execCanIntegrationDone n s
  | .canFrameReceive n frame dt len => Sys2Proof.Machine.execCanFrameReceive n frame dt len s
  | .canTxSelect n => Sys2Proof.Machine.execCanTxSelect n s
  | .canTxEnd n e dt len loop => Sys2Proof.Machine.execCanTxEnd n e dt len loop s
  | .canError n lec k => Sys2Proof.Machine.execCanError n lec k s
  | .busoffRecovery n k => Sys2Proof.Machine.execBusoffRecovery n k s
  | .canProtocolException n => Sys2Proof.Machine.execCanProtocolException n s
  | .canRequest m n b v => Sys2Proof.Machine.execCanRequest m n b v s
  | .canAbort m n b => Sys2Proof.Machine.execCanAbort m n b s
  | .canPop m n => Sys2Proof.Machine.execCanPop m n s
  | .frameForward p data fcs busy dt sub rest csub u => Sys2Proof.Machine.execFrameForward p data fcs busy dt sub rest csub u s
  | .frameTransmit p dt sub u => Sys2Proof.Machine.execFrameTransmit p dt sub u s
  | .pfcRefresh p c => Sys2Proof.Machine.execPfcRefresh p c s
  | .pfcFrameReceive p classes quanta => Sys2Proof.Machine.execPfcFrameReceive p classes quanta s
  | .pfcPauseEnd p c => Sys2Proof.Machine.execPfcPauseEnd p c s
  | .privCopyResume q => Sys2Proof.Machine.execPrivCopyResume q s
  | .fdbAgeing => Sys2Proof.Machine.execFdbAgeing s
  | .fdbRead m => Sys2Proof.Machine.execFdbRead m s
  | .fdbWrite m => Sys2Proof.Machine.execFdbWrite m s
  | .fdbDelete m => Sys2Proof.Machine.execFdbDelete m s
  | .fdbFlush m => Sys2Proof.Machine.execFdbFlush m s
  | .gateCycleStart p dt => Sys2Proof.Machine.execGateCycleStart p dt s
  | .gateEntryAdvance p dt => Sys2Proof.Machine.execGateEntryAdvance p dt s
  | .gateSwap m p v => Sys2Proof.Machine.execGateSwap m p v s
  | .launchTimeReached q dt busy => Sys2Proof.Machine.execLaunchTimeReached q dt busy s
  | .linkUp p speed half fec => Sys2Proof.Machine.execLinkUp p speed half fec s
  | .linkDown p => Sys2Proof.Machine.execLinkDown p s
  | .lmodeWrite m p v => Sys2Proof.Machine.execLmodeWrite m p v s
  | .txDescriptor r => Sys2Proof.Machine.execTxDescriptor r s
  | .ringEnable m r v => Sys2Proof.Machine.execRingEnable m r v s
  | .ringDisable m r v => Sys2Proof.Machine.execRingDisable m r v s
  | .ringLenWrite m r v => Sys2Proof.Machine.execRingLenWrite m r v s
  | .prpEnable m k v => Sys2Proof.Machine.execPrpEnable m k v s
  | .prpForget k dt => Sys2Proof.Machine.execPrpForget k dt s
  | .seqRecoveryReset ix => Sys2Proof.Machine.execSeqRecoveryReset ix s
  | .bankHandover m b v => Sys2Proof.Machine.execBankHandover m b v s
  | .groupMembersWrite m g v => Sys2Proof.Machine.execGroupMembersWrite m g v s
  | .mailboxSend m k v => Sys2Proof.Machine.execMailboxSend m k v s
  | .mailboxReceive m k => Sys2Proof.Machine.execMailboxReceive m k s
  | .mailboxConfig m k v => Sys2Proof.Machine.execMailboxConfig m k v s
  | .mailboxCrossed a b dt => Sys2Proof.Machine.execMailboxCrossed a b dt s
  | .lockAcquire m k => Sys2Proof.Machine.execLockAcquire m k s
  | .lockRelease m k => Sys2Proof.Machine.execLockRelease m k s
  | .lockstepFault p => Sys2Proof.Machine.execLockstepFault p s
  | .invalidateDcache m p => Sys2Proof.Machine.execInvalidateDcache m p s
  | .invalidateIcache m p => Sys2Proof.Machine.execInvalidateIcache m p s
  | .regionWrite m p r o v => Sys2Proof.Machine.execRegionWrite m p r o v s
  | .heartbeat m p v => Sys2Proof.Machine.execHeartbeat m p v s
  | .heartbeatTimeout p dt => Sys2Proof.Machine.execHeartbeatTimeout p dt s
  | .claim m => Sys2Proof.Machine.execClaim m s
  | .unready m => Sys2Proof.Machine.execUnready m s
  | .resign m => Sys2Proof.Machine.execResign m s
  | .resignDue => Sys2Proof.Machine.execResignDue s
  | .escalate m p => Sys2Proof.Machine.execEscalate m p s
  | .saferel m => Sys2Proof.Machine.execSaferel m s
  | .rearm m p => Sys2Proof.Machine.execRearm m p s
  | .faultCountClear m => Sys2Proof.Machine.execFaultCountClear m s
  | .pcieInboundRequest bar o wr ws k => Sys2Proof.Machine.execPcieInboundRequest bar o wr ws k s
  | .prefetchExpiry spi dt => Sys2Proof.Machine.execPrefetchExpiry spi dt s
  | .outboundAccess m o sz x => Sys2Proof.Machine.execOutboundAccess m o sz x s
  | .outboundTimeout ix dt => Sys2Proof.Machine.execOutboundTimeout ix dt s
  | .pcieLinkUp speed width => Sys2Proof.Machine.execPcieLinkUp speed width s
  | .pcieLinkDown => Sys2Proof.Machine.execPcieLinkDown s
  | .spiWrite a bytes => Sys2Proof.Machine.execSpiWrite a bytes s
  | .spiReadreq a n => Sys2Proof.Machine.execSpiReadreq a n s
  | .spiFetch n => Sys2Proof.Machine.execSpiFetch n s
  | .spiStatus => Sys2Proof.Machine.execSpiStatus s
  | .spiBadCommand => Sys2Proof.Machine.execSpiBadCommand s
  | .spiReadDone k => Sys2Proof.Machine.execSpiReadDone k s
  | .spiDiscard dt => Sys2Proof.Machine.execSpiDiscard dt s
  | .coldStart cut => Sys2Proof.Machine.execColdStart cut s
  | .pllLock => Sys2Proof.Machine.execPllLock s
  | .warmStart => Sys2Proof.Machine.execWarmStart s
  | .loadAttempt d run late => Sys2Proof.Machine.execLoadAttempt d run late s
  | .registerReplay fail => Sys2Proof.Machine.execRegisterReplay fail s
  | .flashErase m => Sys2Proof.Machine.execFlashErase m s
  | .flashProgram m => Sys2Proof.Machine.execFlashProgram m s
  | .flashVerify m copy => Sys2Proof.Machine.execFlashVerify m copy s
  | .clrcnt m => Sys2Proof.Machine.execClrcnt m s
  | .raisesvn m => Sys2Proof.Machine.execRaisesvn m s
  | .flashAbort m => Sys2Proof.Machine.execFlashAbort m s
  | .reloadpe m => Sys2Proof.Machine.execReloadpe m s
  | .flashOpDone fail manifest => Sys2Proof.Machine.execFlashOpDone fail manifest s
  | .debugUnlock qx qy r t => Sys2Proof.Machine.execDebugUnlock qx qy r t s
  | .extestSelect => Sys2Proof.Machine.execExtestSelect s
  | .extestExit => Sys2Proof.Machine.execExtestExit s
  | .fuseBlow m b => Sys2Proof.Machine.execFuseBlow m b s
  | .fuseBlowDone ok => Sys2Proof.Machine.execFuseBlowDone ok s
  | .powerUpStart => Sys2Proof.Machine.execPowerUpStart s
  | .powerUpStep pg vdd => Sys2Proof.Machine.execPowerUpStep pg vdd s
  | .powerUpSettled => Sys2Proof.Machine.execPowerUpSettled s
  | .powerUpTimeout => Sys2Proof.Machine.execPowerUpTimeout s
  | .retryEnd => Sys2Proof.Machine.execRetryEnd s
  | .powerDownStep pg limit => Sys2Proof.Machine.execPowerDownStep pg limit s
  | .supplyWarning rail => Sys2Proof.Machine.execSupplyWarning rail s
  | .supplyFail ix => Sys2Proof.Machine.execSupplyFail ix s
  | .bankUndervoltage g => Sys2Proof.Machine.execBankUndervoltage g s
  | .railRecovery full rail => Sys2Proof.Machine.execRailRecovery full rail s
  | .holdUpStart => Sys2Proof.Machine.execHoldUpStart s
  | .holdUpEnd => Sys2Proof.Machine.execHoldUpEnd s
  | .domainOff m d => Sys2Proof.Machine.execDomainOff m d s
  | .domainOn m d => Sys2Proof.Machine.execDomainOn m d s
  | .domainOffDone d => Sys2Proof.Machine.execDomainOffDone d s
  | .domainOnDone d => Sys2Proof.Machine.execDomainOnDone d s
  | .resetinAssert => Sys2Proof.Machine.execResetinAssert s
  | .resetinRelease => Sys2Proof.Machine.execResetinRelease s
  | .aonporAssert => Sys2Proof.Machine.execAonporAssert s
  | .aonporRelease vaon => Sys2Proof.Machine.execAonporRelease vaon s
  | .resetSourceExpiry src => Sys2Proof.Machine.execResetSourceExpiry src s
  | .swsubAssert m t => Sys2Proof.Machine.execSwsubAssert m t s
  | .swsubRelease m t => Sys2Proof.Machine.execSwsubRelease m t s
  | .swsubPulse m t => Sys2Proof.Machine.execSwsubPulse m t s
  | .swWarmReset m => Sys2Proof.Machine.execSwWarmReset m s
  | .swColdReset m => Sys2Proof.Machine.execSwColdReset m s
  | .blockResetWrite m hx v => Sys2Proof.Machine.execBlockResetWrite m hx v s
  | .adcSample x code => Sys2Proof.Machine.execAdcSample x code s
  | .rtcTick => Sys2Proof.Machine.execRtcTick s
  | .rtcLoad m => Sys2Proof.Machine.execRtcLoad m s
  | .rtcRead m => Sys2Proof.Machine.execRtcRead m s
  | .oscLoss => Sys2Proof.Machine.execOscLoss s
  | .oscReady => Sys2Proof.Machine.execOscReady s
  | .aonSupplySwitch vaon => Sys2Proof.Machine.execAonSupplySwitch vaon s
  | .slotRemove k => Sys2Proof.Machine.execSlotRemove k s
  | .slotInsert k => Sys2Proof.Machine.execSlotInsert k s
  | .slotIdentify k ok id p0 p1 flt => Sys2Proof.Machine.execSlotIdentify k ok id p0 p1 flt s
  | .slotOn m k => Sys2Proof.Machine.execSlotOn m k s
  | .slotOff m k => Sys2Proof.Machine.execSlotOff m k s
  | .slotClear m k => Sys2Proof.Machine.execSlotClear m k s
  | .slotOvercurrent k => Sys2Proof.Machine.execSlotOvercurrent k s
  | .surgePulse k w => Sys2Proof.Machine.execSurgePulse k w s
  | .slotTempRead k t => Sys2Proof.Machine.execSlotTempRead k t s
  | .wearWriteDone k => Sys2Proof.Machine.execWearWriteDone k s
  | .wearWriteAbandon k => Sys2Proof.Machine.execWearWriteAbandon k s
  | .wearWriteRetry k => Sys2Proof.Machine.execWearWriteRetry k s
  | .surveyWrite m ix v => Sys2Proof.Machine.execSurveyWrite m ix v s
  | .elogRead m => Sys2Proof.Machine.execElogRead m s
  | .bistStart m b => Sys2Proof.Machine.execBistStart m b s
  | .bistAbort m => Sys2Proof.Machine.execBistAbort m s
  | .bistDone fails word => Sys2Proof.Machine.execBistDone fails word s
  | .ftStart m t => Sys2Proof.Machine.execFtStart m t s
  | .ftDone fails cells => Sys2Proof.Machine.execFtDone fails cells s
  | .adcCalRequest m x => Sys2Proof.Machine.execAdcCalRequest m x s
  | .adcCalDone x => Sys2Proof.Machine.execAdcCalDone x s
  | .serdesCalRequest m p => Sys2Proof.Machine.execSerdesCalRequest m p s
  | .serdesCalStart p => Sys2Proof.Machine.execSerdesCalStart p s
  | .serdesCalDone p => Sys2Proof.Machine.execSerdesCalDone p s
  | .unclaimedHeartbeatAgeExpiry dt => Sys2Proof.Machine.execUnclaimedHeartbeatAgeExpiry dt s
  | .outboundCompletion ix data ok => Sys2Proof.Machine.execOutboundCompletion ix data ok s
  | .stopCycleFinished n dt => Sys2Proof.Machine.execStopCycleFinished n dt s
  | .pgoodFall ix => Sys2Proof.Machine.execPgoodFall ix s
  | .pcieConfigRequest bme d3 => Sys2Proof.Machine.execPcieConfigRequest bme d3 s

end Sys2Proof.Machine
end

