-- ==== Sys2Proof/Machine/Idle.lean ====
section
/-! DEFINITION. What passes on an empty queue: one CLK_CELL cycle (DESIGN CHOICE, log entry 1). -/

namespace Sys2Proof.Machine

/-- One idle CLK_CELL cycle: the timebases advance (R172), and what is due in the event fabric happens (R101). -/
def idle (s : State) : State := close (elapse s 1)

end Sys2Proof.Machine
end

