-- ==== Sys2Proof/Safety.lean ====
section
/-! DEFINITION. What the claims speak of: the invariant of the block, the conditions under which a bus access reaches its
target and an instruction issues, and what the end of a command can touch. -/

namespace Sys2Proof.Machine

/-! ## The invariant -/

/-- No Huxon frame is in transmission past its last stop bit (R226). -/
def noOverdueFrame (s : State) : Prop := ∀ n < 32, ∀ x, (s.hx n).tx = some x → s.cycles < x.endAt

/-- A forced test runs only while its target is in reset (R447). -/
abbrev testHeld (s : State) : Prop := ftRuns s = true → inReset s (s.fl MEM_FT_STAT 28 24) = true

/-- What holds after every command: the vectors whose message has gone are those due (R30), no frame is overdue (R226), and a
forced test runs only on a target in reset (R447). -/
def Inv (s : State) : Prop := s.msix = vectorsDue s ∧ noOverdueFrame s ∧ testHeld s

/-! ## What the end of a command can touch -/

/-- Registers that the end of a command may change: DTXCTL and IRQSTAT of the Huxon sequencers, the second capture registers
of the cells, and the status of the forced test. -/
def closeTouches (a : Nat) : Bool :=
  (decide (0x36000000 ≤ a) && decide (a < 0x36020000) && (a % 0x1000 == 0x60 || a % 0x1000 == 0x70)) ||
    (decide (0x30000000 ≤ a) && decide (a < 0x30100000) && (a % 0x1000 == 0x54 || a % 0x1000 == 0x5C)) ||
    a == MEM_FT_STAT || a == MEM_DG_IRQSTAT

/-! ## Accesses and instructions that reach their target -/

/-- A word access of master `m` to the register at `a` of region `r` passes every test of R439: the master can issue, a
register stands there, the region admits the master, its block is powered and out of reset. -/
abbrev opens (s : State) (m : Master) (a : Nat) (r : Region) : Prop :=
  canIssue s m.val = true ∧ regionOf a = some r ∧ r.isMem = false ∧ a % 4 = 0 ∧
    regDesc (if r = .plOwn then ownWindow m.val a else a) ≠ none ∧ admits m.val r = true ∧ shut s m.val r = false

/-- The write is not masked: the master is no pair, or the pair that holds the token (R345). -/
abbrev unmasked (s : State) (m : Master) : Prop := maskedPair s m.val = false

/-- The word that a register write stores: to a route, with the reserved bits of its class clear (R7, Table 1.6). -/
def routed (m : Master) (a : Nat) (r : Region) (v : Word) : Word :=
  if (routeKind (if r = .plOwn then ownWindow m.val a else a)).isSome then routeClean v else v

/-- No context has a STEP under way (R120). -/
abbrev noSteps (s : State) : Prop := ∀ e ∈ s.ctxH, e.2.step = false

/-- The region in which master `m` reaches a context's registers: its engine's, the pair's own window, or the window on its
pair (Table 1.3). -/
def ctxRegion (m : Master) : CtxId → Region
  | .pe n _ => .pe n.val
  | .pair b => if m.val = 9 + b.toNat then .plOwn else .pl b.toNat

/-- REGISTER_WRITE answers an error response with cause `c`: it is logged as R439 says while the log has room, and no register
changes but those of the diagnostic block and, of a non-owner's access, MEM_VIOL of the bank and MEM_IRQSTAT (R16, R319). -/
def answersError (s : State) (m : Master) (a : Word) (sz : Size) (acc : Acc) (c : Nat) : Prop :=
  ∃ t, exec (.registerWrite m a sz acc) s = .next t ∧ t.resp = .err c ∧
    (s.elog.length < 32 → t.elog = s.elog ++ [⟨a.toNat, acc != .rd, m.val, c, (s.tb 0).ns, (s.tb 0).sec, (s.tb 0).sub⟩]) ∧
    (∀ b, closeTouches b = false → (b < 0x3400C000 ∨ 0x3400D000 ≤ b) → b ≠ MEM_VIOL (bankOf a.toNat) → b ≠ MEM_IRQSTAT →
      t.rd b = s.rd b)

/-- The context can issue, and the instruction at its position is `i`, with word `w`; `s1` is the state after the fetch. -/
abbrev issues (s : State) (x : CtxId) (f : Upset) (i : JMn) (w : Word) (s1 : State) : Prop :=
  jReady s (ctxKey x) = true ∧ jFetch s (ctxKey x) f = (s1, some (.inl w)) ∧ jDecode (!onEngine (ctxKey x)) w = some i ∧
    jForbidden s1 (ctxKey x) i w = false ∧ ¬((s1.ctx (ctxKey x)).slot.isSome ∧ (i.transfer ∨ i.sys))

/-- The end of the row of instruction `i`, issued at `s`, whose effect is `u`: the issue is noted with the cycles to the context's
next, and what waited for the boundary is taken (R120, R121, R132, R149). -/
def issued (s u : State) (k : Nat) (i : JMn) : State := close (boundary (noteIssue u k (issueCyc s k) (jGap k i s u)) k)

/-- Where an instruction that completes leaves the context: ISSUED counted and the position advanced (R120, R132). -/
def completes (s u : State) (k : Nat) (i : JMn) : State := issued s (advance (countIssue u k) k) k i

/-- An instruction that completes with the value `v` in RD (R129, R130). -/
def gives (s s1 : State) (x : CtxId) (i : JMn) (w v : Word) : Host.Outcome State Fault Refusal :=
  .next (completes s (setG s1 (ctxKey x) (jRd w) v) (ctxKey x) i)

/-- An FPU operation that completes with a result in fRD and its flags added to FCSR (R335). -/
def givesF (s s1 : State) (x : CtxId) (i : JMn) (w : Word) (r : Nat × Nat) : Host.Outcome State Fault Refusal :=
  .next (completes s ((setF s1 (ctxKey x) (jRd w) r.1).raise (ctxReg (ctxKey x) 17) (BitVec.ofNat 32 (r.2 % 32))) (ctxKey x) i)

/-- An FPU operation that completes with a result in gRD and its flags added to FCSR (R335). -/
def givesFlags (s s1 : State) (x : CtxId) (i : JMn) (w v : Word) (fl : Nat) : Host.Outcome State Fault Refusal :=
  .next (completes s ((setG s1 (ctxKey x) (jRd w) v).raise (ctxReg (ctxKey x) 17) (BitVec.ofNat 32 fl)) (ctxKey x) i)

/-- Where a control transfer to `d` leaves the context (R132). -/
def transfers (s u : State) (k : Nat) (i : JMn) (d : Nat) : State := issued s (transferTo (countIssue u k) k d) k i

/-- The sign-extended immediate of an instruction word (R127). -/
def immS (w : Word) : Word := (w.setWidth 16).signExtend 32

/-- The context has entered the handler of exception `code` (R147, R148): handler mode, the vector, RPC, RNEXT, and CAUSE with
SLOT, SUB and the code; no slot and no block is left. -/
def entered (t : State) (k code rpc rnext : Nat) (slot : Bool) (sub : Nat) : Prop :=
  ctxHM t k = true ∧ ctxPC t k = (vBase t k + 0x40 * code) % 2 ^ 32 ∧ t.rd (ctxReg k 3) = BitVec.ofNat 32 rpc ∧
    t.rd (ctxReg k 16) = BitVec.ofNat 32 rnext ∧
    t.rd (ctxReg k 4) = BitVec.ofNat 32 (slot.toNat * 2 ^ 31 + sub * 2 ^ 16 + code) ∧ (t.ctx k).slot = none ∧
    (t.ctx k).blk = .none

/-- No STOP and no WDOG waits for the boundary of the context (R120, R153). -/
abbrev nothingWaits (s : State) (k : Nat) : Prop := (s.ctx k).stopping = false ∧ (s.ctx k).wdPend = false

/-- A branch: taken, to p + 4 x OFF16 after its slot, else to p + 8 (R131, R132). -/
def branches (s s1 : State) (x : CtxId) (i : JMn) (w : Word) (taken : Bool) : Host.Outcome State Fault Refusal :=
  .next (transfers s s1 (ctxKey x) i (if taken then (s1.rd (ctxReg (ctxKey x) 2) + 4 * immS w).toNat
    else (s1.rd (ctxReg (ctxKey x) 2)).toNat + 8))

/-- The context registers that a completing instruction may change beside its destination: STAT, PC, ISSUED, and RPC, CAUSE
and RNEXT where a pending WDOG is taken at the boundary (R147, R149). -/
def boundaryReg (k a : Nat) : Bool := [1, 2, 3, 4, 14, 16].any (fun m => a == ctxReg k m)

/-- The rows of the register instructions: all of opcodes 0x00 to 0x0A (Tables 6.5 and 6.6). -/
def registerRows (x : CtxId) (f : Upset) : List (JMn × Instr) :=
  [(.add, .add x f), (.sub, .sub x f), (.and_, .andI x f), (.or_, .orI x f), (.xor_, .xorI x f), (.nor, .nor x f),
   (.sll, .sll x f), (.srl, .srl x f), (.sra, .sra x f), (.ror, .ror x f), (.slt, .slt x f), (.sltu, .sltu x f),
   (.min_, .minI x f), (.max_, .maxI x f), (.minu, .minu x f), (.maxu, .maxu x f), (.mul, .mul x f), (.mulhu, .mulhu x f),
   (.mulh, .mulh x f), (.clz, .clz x f), (.popc, .popc x f), (.bswap, .bswap x f), (.brev, .brev x f)] ++
  [(.slli, .slli x f), (.srli, .srli x f), (.srai, .srai x f), (.rori, .rori x f), (.extu, .extu x f), (.exts, .exts x f),
   (.ins, .ins x f), (.addi, .addi x f), (.andi, .andi x f), (.ori, .ori x f), (.xori, .xori x f), (.slti, .slti x f),
   (.sltiu, .sltiu x f), (.lui, .lui x f)]

/-- The memory word that holds `a` is defined, its check bits are good, and no upset arises (R315, R316). -/
abbrev plainWord (s : State) (a : Nat) (u : Upset) : Prop := u = .good ∧ s.eccAt a = .good ∧ undefAt s (a / 8 * 8) = false

end Sys2Proof.Machine
end

