-- ==== Sys2Proof/Certificates/Slice0/Obligations.lean ====
section
/-! DEFINITION. The statements for the provers. What `opens`, `issues`, `completes`, `transfers` and the invariant say stands in
Safety.lean. -/

section

open Sys2Proof Sys2Proof.Machine

/-- Tier 1. A step takes the command at the front of the queue and is `exec` of it on the state with the rest of the queue; on an
empty queue one CLK_CELL cycle passes (DESIGN CHOICE, log entry 1: the model's choice). -/
def Obligations.StepRunsFront : Prop :=
  ∀ (s : State), (∀ c rest, s.pending = c :: rest → step s = exec c { s with pending := rest }) ∧
    (∀ c, step { s with pending := c :: s.pending } = exec c s) ∧ (s.pending = [] → step s = .next (close (elapse s 1)))

/-- Tier 1. The state after reset: no command waits; every register has its reset word but RST_CAUSE, which shows AONPOR and
COREPOR, and RST_CNT, which counts the one cold reset (R403); COREPOR holds, the regulators are off, every context is STOPPED; no
memory byte, FIFO word, flash byte or error is listed. That the block begins there is the model's choice (DESIGN CHOICE, log entry 3). -/
def Obligations.ResetState : Prop :=
  State.reset.pending = [] ∧ (∀ a, a ≠ RST_CAUSE → a ≠ RST_CNT → State.reset.rd a = resetWord a) ∧
    State.reset.rd RST_CAUSE = 3 ∧ State.reset.rd RST_CNT = 0x10000 ∧ State.reset.srcs = 2 ∧
    seqState State.reset = 0 ∧ pwrEn State.reset = 0 ∧ State.reset.mem = [] ∧ State.reset.fifo = [] ∧ State.reset.flash = [] ∧
    (∀ k < 66, cst State.reset k = 0) ∧ State.reset.elog = [] ∧ State.reset.img = [] ∧ State.reset.tbs = []

/-- Tier 1. The invariant holds after reset. -/
def Obligations.InvariantAtReset : Prop := Inv State.reset

/-- Tier 3. Every step of every state answers a next state, in which the MSI-X vectors sent are those due, no Huxon frame is
overdue, and a forced test runs only on a target in reset (R30, R226, R447). -/
def Obligations.EveryStepKeepsInvariant : Prop :=
  ∀ s : State, ∃ t, step s = .next t ∧ Inv t

/-- Tier 2. The nineteen operations of opcode 0x00 on two registers: each writes the value Table 6.6 gives to RD and
completes (R130). Values are over unsigned (toNat) and signed (toInt) numbers. -/
def Obligations.RegisterOperations : Prop :=
  ∀ (s : State) (x : CtxId) (f : Upset) (w : Word) (s1 : State) (a b : Word) (n : Nat),
    a = getG s1 (ctxKey x) (jRa w) → b = getG s1 (ctxKey x) (jRb w) → n = b.toNat % 32 →
    (issues s x f .add w s1 → exec (.add x f) s = gives s s1 x .add w (BitVec.ofNat 32 (a.toNat + b.toNat))) ∧
    (issues s x f .sub w s1 → exec (.sub x f) s = gives s s1 x .sub w (BitVec.ofInt 32 (a.toInt - b.toInt))) ∧
    (issues s x f .and_ w s1 → exec (.andI x f) s = gives s s1 x .and_ w (a &&& b)) ∧
    (issues s x f .or_ w s1 → exec (.orI x f) s = gives s s1 x .or_ w (a ||| b)) ∧
    (issues s x f .xor_ w s1 → exec (.xorI x f) s = gives s s1 x .xor_ w (a ^^^ b)) ∧
    (issues s x f .nor w s1 → exec (.nor x f) s = gives s s1 x .nor w (~~~(a ||| b))) ∧
    (issues s x f .sll w s1 → exec (.sll x f) s = gives s s1 x .sll w (BitVec.ofNat 32 (a.toNat * 2 ^ n))) ∧
    (issues s x f .srl w s1 → exec (.srl x f) s = gives s s1 x .srl w (BitVec.ofNat 32 (a.toNat / 2 ^ n))) ∧
    (issues s x f .sra w s1 → exec (.sra x f) s = gives s s1 x .sra w (BitVec.ofInt 32 (a.toInt / 2 ^ n))) ∧
    (issues s x f .ror w s1 → exec (.ror x f) s = gives s s1 x .ror w (BitVec.ofNat 32 (a.toNat / 2 ^ n + a.toNat * 2 ^ (32 - n)))) ∧
    (issues s x f .slt w s1 → exec (.slt x f) s = gives s s1 x .slt w (if a.toInt < b.toInt then 1 else 0)) ∧
    (issues s x f .sltu w s1 → exec (.sltu x f) s = gives s s1 x .sltu w (if a.toNat < b.toNat then 1 else 0)) ∧
    (issues s x f .min_ w s1 → exec (.minI x f) s = gives s s1 x .min_ w (BitVec.ofInt 32 (min a.toInt b.toInt))) ∧
    (issues s x f .max_ w s1 → exec (.maxI x f) s = gives s s1 x .max_ w (BitVec.ofInt 32 (max a.toInt b.toInt))) ∧
    (issues s x f .minu w s1 → exec (.minu x f) s = gives s s1 x .minu w (BitVec.ofNat 32 (min a.toNat b.toNat))) ∧
    (issues s x f .maxu w s1 → exec (.maxu x f) s = gives s s1 x .maxu w (BitVec.ofNat 32 (max a.toNat b.toNat))) ∧
    (issues s x f .mul w s1 → exec (.mul x f) s = gives s s1 x .mul w (BitVec.ofNat 32 (a.toNat * b.toNat))) ∧
    (issues s x f .mulhu w s1 → exec (.mulhu x f) s = gives s s1 x .mulhu w (BitVec.ofNat 32 (a.toNat * b.toNat / 2 ^ 32))) ∧
    (issues s x f .mulh w s1 → exec (.mulh x f) s = gives s s1 x .mulh w (BitVec.ofInt 32 (a.toInt * b.toInt / 2 ^ 32)))

/-- Tier 2. The four operations of opcode 0x00 on one register (R130): CLZ by its bounds, POPC as a count, BSWAP byte by
byte, BREV bit by bit. The shifts by an immediate and the bit-field operations of opcodes 0x01 and 0x02 (R129): POS is
[15:11], LEN is [10:6] + 1. -/
def Obligations.BitFieldOperations : Prop :=
  (∀ (s : State) (x : CtxId) (f : Upset) (w : Word) (s1 : State) (a : Word),
     a = getG s1 (ctxKey x) (jRa w) →
     (issues s x f .clz w s1 → ∃ n ≤ 32, a.toNat < 2 ^ (32 - n) ∧ (n < 32 → 2 ^ (31 - n) ≤ a.toNat) ∧
       exec (.clz x f) s = gives s s1 x .clz w (BitVec.ofNat 32 n)) ∧
     (issues s x f .popc w s1 → exec (.popc x f) s = gives s s1 x .popc w (BitVec.ofNat 32 ((List.range 32).countP (fun i => a.getLsbD i)))) ∧
     (issues s x f .bswap w s1 → ∃ v, exec (.bswap x f) s = gives s s1 x .bswap w v ∧
       ∀ i < 4, v.toNat / 256 ^ i % 256 = a.toNat / 256 ^ (3 - i) % 256) ∧
     (issues s x f .brev w s1 → ∃ v, exec (.brev x f) s = gives s s1 x .brev w v ∧ ∀ i < 32, v.getLsbD i = a.getLsbD (31 - i))) ∧
  (∀ (s : State) (x : CtxId) (f : Upset) (w : Word) (s1 : State) (a d : Word) (p l : Nat),
     a = getG s1 (ctxKey x) (jRa w) → d = getG s1 (ctxKey x) (jRd w) → p = w.toNat / 2 ^ 11 % 32 → l = w.toNat / 2 ^ 6 % 32 + 1 →
     (issues s x f .slli w s1 → exec (.slli x f) s = gives s s1 x .slli w (BitVec.ofNat 32 (a.toNat * 2 ^ p))) ∧
     (issues s x f .srli w s1 → exec (.srli x f) s = gives s s1 x .srli w (BitVec.ofNat 32 (a.toNat / 2 ^ p))) ∧
     (issues s x f .srai w s1 → exec (.srai x f) s = gives s s1 x .srai w (BitVec.ofInt 32 (a.toInt / 2 ^ p))) ∧
     (issues s x f .rori w s1 → exec (.rori x f) s = gives s s1 x .rori w (BitVec.ofNat 32 (a.toNat / 2 ^ p + a.toNat * 2 ^ (32 - p)))) ∧
     (issues s x f .extu w s1 → exec (.extu x f) s = gives s s1 x .extu w (BitVec.ofNat 32 (a.toNat / 2 ^ p % 2 ^ l))) ∧
     (issues s x f .exts w s1 → ∃ v, exec (.exts x f) s = gives s s1 x .exts w v ∧
       ∀ i < 32, v.getLsbD i = if i < l then a.getLsbD (p + i) else a.getLsbD (p + l - 1)) ∧
     (issues s x f .ins w s1 → ∃ v, exec (.ins x f) s = gives s s1 x .ins w v ∧
       ∀ i < 32, v.getLsbD i = if p ≤ i ∧ i < p + l then a.getLsbD (i - p) else d.getLsbD i))

/-- Tier 2. The immediate operations of opcodes 0x04 to 0x0A (R127, R129): ADDI, SLTI and SLTIU extend the sign, ANDI, ORI
and XORI do not, LUI places the immediate in [31:16]. -/
def Obligations.ImmediateOperations : Prop :=
  ∀ (s : State) (x : CtxId) (f : Upset) (w : Word) (s1 : State) (a z e : Word),
    a = getG s1 (ctxKey x) (jRa w) → z = (w.setWidth 16).setWidth 32 → e = (w.setWidth 16).signExtend 32 →
    (issues s x f .addi w s1 → exec (.addi x f) s = gives s s1 x .addi w (a + e)) ∧
    (issues s x f .andi w s1 → exec (.andi x f) s = gives s s1 x .andi w (a &&& z)) ∧
    (issues s x f .ori w s1 → exec (.ori x f) s = gives s s1 x .ori w (a ||| z)) ∧
    (issues s x f .xori w s1 → exec (.xori x f) s = gives s s1 x .xori w (a ^^^ z)) ∧
    (issues s x f .slti w s1 → exec (.slti x f) s = gives s s1 x .slti w (if a.toInt < e.toInt then 1 else 0)) ∧
    (issues s x f .sltiu w s1 → exec (.sltiu x f) s = gives s s1 x .sltiu w (if a.toNat < e.toNat then 1 else 0)) ∧
    (issues s x f .lui w s1 → exec (.lui x f) s = gives s s1 x .lui w (z <<< 16))

/-- Tier 2. The frame of the register instructions (R129, R130, R119): RD takes a value unless it is g0; every other general
register of every context, every other register of the block but those `boundaryReg` and `closeTouches` name, every byte of
memory, every FIFO, the image store, the mailboxes' timing, the event fabric and the timebases stay. -/
def Obligations.RegisterFrame : Prop :=
  ∀ (s : State) (x : CtxId) (f : Upset) (w : Word) (s1 t : State) (p : JMn × Instr), p ∈ registerRows x f →
    issues s x f p.1 w s1 → testHeld s1 → exec p.2 s = .next t →
    (∀ a, (jRd w = 0 ∨ a ≠ gReg (ctxKey x) (jRd w)) → boundaryReg (ctxKey x) a = false → closeTouches a = false →
      t.rd a = s1.rd a) ∧
    (∀ b, t.byte b = s1.byte b) ∧ t.fifo = s1.fifo ∧ t.cellH = s1.cellH ∧ t.img = s1.img ∧ t.tbs = s1.tbs ∧
    t.mbxH = s1.mbxH ∧ t.agenda = s1.agenda ∧ t.fpr = s1.fpr ∧ t.elog = s1.elog ∧ ∀ k, k ≠ ctxKey x → t.ctx k = s1.ctx k

/-- Tier 2. The position of a context (R120, R132): an instruction that completes with no STOP and no WDOG pending leaves it at
the destination of the transfer before it, else at the successor; a control transfer leaves it at its slot, the destination
pending; both count ISSUED. -/
def Obligations.InstructionPosition : Prop :=
  ∀ (s u : State) (x : CtxId) (i : JMn) (k : Nat) (t : State), k = ctxKey x →
    (t = completes s u k i → (u.ctx k).stopping = false → (u.ctx k).wdPend = false →
      ctxPC t k = ((u.ctx k).slot.getD (succOf u k)) % 2 ^ 32 ∧ (t.ctx k).slot = none ∧ (t.ctx k).blk = .none ∧
      t.rd (ctxReg k 14) = u.rd (ctxReg k 14) + 1 ∧ cst t k = cst u k) ∧
    (∀ d, t = transfers s u k i d → ctxPC t k = succOf u k % 2 ^ 32 ∧ (t.ctx k).slot = some d ∧ (t.ctx k).succ = none ∧
      t.rd (ctxReg k 14) = u.rd (ctxReg k 14) + 1 ∧ (t.ctx k).rs = (u.ctx k).rs)

/-- Tier 2. Loads from an engine's own scratchpads (R123, R12, Table 6.5): the bytes from the address up, little-endian,
sign- or zero-extended into RD; POP loads the word at g29 and raises g29 by 4 (R136). Stores into an engine's own scratchpads
(R123, R12): the low bytes of RD stand from the address up, every other byte of memory and every register stays; PUSH stores
at g29 - 4 and lowers g29 (R136). -/
def Obligations.OwnScratchpad : Prop :=
  (∀ (s : State) (n k : Fin 8) (f u : Upset) (w : Word) (s1 : State) (x : CtxId) (a : Word) (b : Nat → Byte),
     x = .pe n k → a = getG s1 (ctxKey x) (jRa w) + immS w → (∀ i, b i = s1.byte (a.toNat + i)) →
     inScratch n.val a.toNat = true → plainWord s1 a.toNat u →
     (issues s x f .lw w s1 → a.toNat % 4 = 0 →
       exec (.lw x f u) s = gives s (s1.setEcc a.toNat .good) x .lw w (b 3 ++ b 2 ++ b 1 ++ b 0)) ∧
     (issues s x f .lh w s1 → a.toNat % 2 = 0 →
       exec (.lh x f u) s = gives s (s1.setEcc a.toNat .good) x .lh w ((b 1 ++ b 0).signExtend 32)) ∧
     (issues s x f .lhu w s1 → a.toNat % 2 = 0 →
       exec (.lhu x f u) s = gives s (s1.setEcc a.toNat .good) x .lhu w ((b 1 ++ b 0).setWidth 32)) ∧
     (issues s x f .lb w s1 → exec (.lb x f u) s = gives s (s1.setEcc a.toNat .good) x .lb w ((b 0).signExtend 32)) ∧
     (issues s x f .lbu w s1 → exec (.lbu x f u) s = gives s (s1.setEcc a.toNat .good) x .lbu w ((b 0).setWidth 32))) ∧
  (∀ (s : State) (n k : Fin 8) (f u : Upset) (w : Word) (s1 : State) (x : CtxId) (g : Word) (b : Nat → Byte),
     x = .pe n k → g = getG s1 (ctxKey x) 29 → (∀ i, b i = s1.byte (g.toNat + i)) → inScratch n.val g.toNat = true →
     plainWord s1 g.toNat u → g.toNat % 4 = 0 → (g + 4).toNat ≤ (s1.rd (ctxReg (ctxKey x) 7)).toNat → issues s x f .pop w s1 →
     exec (.pop x f u) s = gives s (setG (s1.setEcc g.toNat .good) (ctxKey x) 29 (g + 4)) x .pop w (b 3 ++ b 2 ++ b 1 ++ b 0)) ∧
  (∀ (s : State) (n k : Fin 8) (f u : Upset) (w : Word) (s1 : State) (x : CtxId) (a p d : Word),
     x = .pe n k → a = getG s1 (ctxKey x) (jRa w) + immS w → p = getG s1 (ctxKey x) 29 - 4 → d = getG s1 (ctxKey x) (jRd w) →
     (∀ (i : Instr) (m : JMn) (z : Nat), (i, m, z) ∈ [(Instr.sw x f u, JMn.sw, 4), (.sh x f u, .sh, 2), (.sb x f u, .sb, 1)] →
       issues s x f m w s1 → a.toNat % z = 0 → inScratch n.val a.toNat = true → plainWord s1 a.toNat u →
       ∃ v, exec i s = .next (completes s v (ctxKey x) m) ∧ (∀ j < z, v.byte (a.toNat + j) = BitVec.ofNat 8 (d.toNat / 256 ^ j)) ∧
         (∀ c, c < a.toNat ∨ a.toNat + z ≤ c → v.byte c = s1.byte c) ∧ ∀ c, v.rd c = s1.rd c) ∧
     (issues s x f .push w s1 → (s1.rd (ctxReg (ctxKey x) 6)).toNat ≤ p.toNat → p.toNat % 4 = 0 →
       inScratch n.val p.toNat = true → plainWord s1 p.toNat u →
       ∃ v, exec (.push x f u) s = .next (completes s v (ctxKey x) .push) ∧
         (∀ j < 4, v.byte (p.toNat + j) = BitVec.ofNat 8 (d.toNat / 256 ^ j)) ∧
         (∀ c, c < p.toNat ∨ p.toNat + 4 ≤ c → v.byte c = s1.byte c) ∧ getG v (ctxKey x) 29 = p ∧
         ∀ c, c ≠ gReg (ctxKey x) 29 → v.rd c = s1.rd c))

/-- Tier 2. Loads and stores that go through the interconnect (R125): a load blocks its context until REMOTE_LOAD_DONE; a store
is posted and the instruction completes, while fewer than four are outstanding; REMOTE_LOAD_DONE writes the value the access
returns, and POSTED_STORE_DONE carries the store to its target, once no earlier access of the engine to the block is outstanding (R17). The address lies outside the engine's scratchpads and the host
outbound window. -/
def Obligations.RemoteAccesses : Prop :=
  ∀ (s : State) (n k : Fin 8) (f u : Upset) (w : Word) (s1 : State) (x : CtxId) (a d : Word),
    x = .pe n k → a = getG s1 (ctxKey x) (jRa w) + immS w → d = getG s1 (ctxKey x) (jRd w) →
    inScratch n.val a.toNat = false → regionOf a.toNat ≠ some .ob →
    (issues s x f .lw w s1 → a.toNat % 4 = 0 →
      ∃ t, exec (.lw x f u) s = .next t ∧ (t.ctx (ctxKey x)).blk = .load a.toNat 4 (jRd w) false false false) ∧
    (issues s x f .sw w s1 → a.toNat % 4 = 0 → (postedOf s1 (ctxKey x)).length < 4 →
      ∃ v, exec (.sw x f u) s = .next (completes s v (ctxKey x) .sw) ∧
        (v.ctx (ctxKey x)).posted = (s1.ctx (ctxKey x)).posted ++
          [{ addr := a.toNat, size := 4, val := d.toNat, seq := s1.issueNo, cyc := cpuNow s1 n.val }] ∧
        ∀ c, v.rd c = s1.rd c) ∧
    (∀ z rd sg s2 v, z ≠ 8 → (s.ctx (ctxKey x)).blk = .load a.toNat z rd sg false false → ctxLive s (ctxKey x) = true →
      behind s (ctxKey x) a.toNat = false → busAcc s (n.val + 1) a.toNat (sizeOf_ z) .rd u = (s2, .ok v) →
      (s2.ctx (ctxKey x)).blk = (s.ctx (ctxKey x)).blk →
      exec (.remoteLoadDone x u) s = .next (close (boundary (advance (setG s2 (ctxKey x) rd
        (if sg then BitVec.ofInt 32 (sext (8 * z) v.toNat) else v)) (ctxKey x)) (ctxKey x)))) ∧
    (∀ e r s2 v, (s.ctx (ctxKey x)).posted = e :: r → outstanding s (ctxKey x) e.addr e.seq = false → e.size ≠ 8 → (s.ctx (ctxKey x)).blk = .none → noSteps s2 →
      busAcc (s.setCtx (ctxKey x) { s.ctx (ctxKey x) with posted := r }) (n.val + 1) e.addr (sizeOf_ e.size)
        (.wr (BitVec.ofNat 32 e.val)) u = (s2, .ok v) → (s2.ctx (ctxKey x)).blk = .none →
      exec (.postedStoreDone x 0 u) s = .next (close s2))

/-- Tier 2. Branches (R129, R131, R132): RA of a branch is [25:21], RB is [20:16]; taken, they go to p + 4 x OFF16 after the
slot, else to p + 8. Jumps, calls and returns (R131, R132, R137): J and CALL go to p + 4 x OFF26, JR and CALLR to RA, RET to
the newest return address; CALL and CALLR push p + 8, RET pops. Calls with fewer than 32 addresses held, returns with one
held. -/
def Obligations.BranchesAndJumps : Prop :=
  (∀ (s : State) (x : CtxId) (f : Upset) (w : Word) (s1 : State) (a b : Word),
     a = getG s1 (ctxKey x) (w.toNat / 2 ^ 21 % 32) → b = getG s1 (ctxKey x) (w.toNat / 2 ^ 16 % 32) →
     (issues s x f .beq w s1 → exec (.beq x f) s = branches s s1 x .beq w (decide (a = b))) ∧
     (issues s x f .bne w s1 → exec (.bne x f) s = branches s s1 x .bne w (decide (a ≠ b))) ∧
     (issues s x f .blt w s1 → exec (.blt x f) s = branches s s1 x .blt w (decide (a.toInt < b.toInt))) ∧
     (issues s x f .bge w s1 → exec (.bge x f) s = branches s s1 x .bge w (decide (b.toInt ≤ a.toInt))) ∧
     (issues s x f .bltu w s1 → exec (.bltu x f) s = branches s s1 x .bltu w (decide (a.toNat < b.toNat))) ∧
     (issues s x f .bgeu w s1 → exec (.bgeu x f) s = branches s s1 x .bgeu w (decide (b.toNat ≤ a.toNat)))) ∧
  (∀ (s : State) (x : CtxId) (f : Upset) (w : Word) (s1 : State) (k : Nat) (a p : Word) (o : Nat) (h : CtxH),
     k = ctxKey x → a = getG s1 k (jRa w) → p = s1.rd (ctxReg k 2) → o = (p + 4 * (w.setWidth 26).signExtend 32).toNat →
     h = s1.ctx k →
     (issues s x f .j w s1 → exec (.j x f) s = .next (transfers s s1 k .j o)) ∧
     (issues s x f .jr w s1 → exec (.jr x f) s = .next (transfers s s1 k .jr a.toNat)) ∧
     (issues s x f .call w s1 → h.rs.length < 32 →
       exec (.call x f) s = .next (transfers s (s1.setCtx k { h with rs := (p + 8) :: h.rs }) k .call o)) ∧
     (issues s x f .callr w s1 → h.rs.length < 32 →
       exec (.callr x f) s = .next (transfers s (s1.setCtx k { h with rs := (p + 8) :: h.rs }) k .callr a.toNat)) ∧
     (∀ v r, issues s x f .ret w s1 → h.rs = v :: r →
       exec (.ret x f) s = .next (transfers s (s1.setCtx k { h with rs := r }) k .ret v.toNat)))

/-- Tier 2. The system instructions (R120, R126, R147, R151, R152, R156): FENCE with no posted store outstanding, WAIT, TRET in
handler mode, TRAP outside it, CSRR and CSRW of a context register, HALT. -/
def Obligations.SystemInstructions : Prop :=
  ∀ (s : State) (x : CtxId) (f : Upset) (w : Word) (s1 : State) (k : Nat), k = ctxKey x → nothingWaits s1 k → cst s1 k = 1 →
    (issues s x f .fence w s1 → postedOf s1 k = [] → exec (.fence x f) s =
      .next (completes s { s1 with stale := s1.stale.filter (fun e => e.2.2 != k) } k .fence)) ∧
    (issues s x f .wait w s1 → ∃ t, exec (.sysWait x f) s = .next t ∧ cst t k = 2 ∧ ctxPC t k = succOf s1 k % 2 ^ 32) ∧
    (issues s x f .tret w s1 → ∃ t, exec (.tret x f) s = .next t ∧ ctxHM t k = false ∧
      t.rd (ctxReg k 2) = s1.rd (ctxReg k 3) ∧
      (t.ctx k).slot = if s1.bt (ctxReg k 4) 31 then some (s1.rd (ctxReg k 16)).toNat else none) ∧
    (issues s x f .trap w s1 → ctxHM s1 k = false → ∃ t, exec (.trap x f) s = .next t ∧
      entered t k 11 (succOf s1 k) (succOf s1 k + 4) false (w.toNat / 2 ^ 11 % 32)) ∧
    (issues s x f .csrr w s1 → jRb w ≠ 1 → jRb w ≠ 12 →
      exec (.csrr x f) s = gives s s1 x .csrr w (s1.rd (ctxReg k (jRb w)))) ∧
    (issues s x f .csrw w s1 → jRb w = 13 →
      exec (.csrw x f) s = .next (completes s (s1.wr (ctxReg k 13) (getG s1 k (jRa w))) k .csrw)) ∧
    (issues s x f .halt w s1 → ∃ t, exec (.sysHalt x f) s = .next t ∧ cst t k = 0 ∧ ctxPC t k = succOf s1 k % 2 ^ 32)

/-- Tier 2. Taking an exception outside handler mode (R147, R148): what it saves, and where the context goes. -/
def Obligations.ExceptionEntry : Prop :=
  ∀ (s : State) (x : CtxId) (code rpc rnext sub : Nat) (slot : Bool) (ta : Option Nat) (t : State),
    ctxHM s (ctxKey x) = false → code < 16 → sub < 256 → t = takeExc s (ctxKey x) code rpc rnext slot sub ta →
    entered t (ctxKey x) code rpc rnext slot sub ∧ cst t (ctxKey x) = cst s (ctxKey x) ∧
    ctxIE t (ctxKey x) = ctxIE s (ctxKey x) ∧
    (∀ a, ta = some a → t.rd (ctxReg (ctxKey x) 5) = BitVec.ofNat 32 a) ∧
    (∀ i < 32, getG t (ctxKey x) i = getG s (ctxKey x) i) ∧ t.mem = s.mem ∧
    ∀ k, k ≠ ctxKey x → t.ctx k = s.ctx k

/-- Tier 2. A reserved encoding raises ILLEGAL, and a control transfer or SYS instruction in a delay slot raises SLOTILL with
RNEXT at the destination of the transfer before it and SLOT at 1 (R128, R133, R134, R149); a word or half-word access at an
unaligned address raises DALIGN with TADDR (R123); none of them is counted. An exception while the context is in handler mode
is a double fault (R153): the context is FAULTED, PE_FAULT and PE_FAULTPC record the context, the code and the PC where they
held none, and PE_IRQSTAT.FAULT is set; DBUSW, INT and WDOG are not taken in handler mode, and WDOG is held pending. -/
def Obligations.ExceptionsAndDoubleFault : Prop :=
  (∀ (s : State) (x : CtxId) (f u : Upset) (w : Word) (s1 : State) (k : Nat), k = ctxKey x → jReady s k = true →
     jFetch s k f = (s1, some (.inl w)) → ctxHM s1 k = false → nothingWaits s1 k →
     (jDecode (!onEngine k) w = none → ∃ t, exec (.add x f) s = .next t ∧
       entered t k 1 (ctxPC s1 k) (posNext s1 k) (s1.ctx k).slot.isSome 0 ∧
       t.rd (ctxReg k 14) = s1.rd (ctxReg k 14)) ∧
     (∀ d (p : JMn × Instr), p ∈ [(JMn.j, Instr.j x f), (.call, .call x f), (.ret, .ret x f), (.beq, .beq x f), (.fence, .fence x f),
         (.wait, .sysWait x f), (.trap, .trap x f), (.halt, .sysHalt x f)] →
       jDecode (!onEngine k) w = some p.1 → (s1.ctx k).slot = some d → ∃ t, exec p.2 s = .next t ∧
       entered t k 2 (ctxPC s1 k) d true 0 ∧ t.rd (ctxReg k 14) = s1.rd (ctxReg k 14)) ∧
     (∀ (p : JMn × Instr) (z a : Nat), (p, z) ∈ [((JMn.lw, Instr.lw x f u), 4), ((.lh, .lh x f u), 2), ((.lhu, .lhu x f u), 2),
         ((.sw, .sw x f u), 4), ((.sh, .sh x f u), 2)] →
       jDecode (!onEngine k) w = some p.1 → a = (getG s1 k (jRa w) + immS w).toNat → a % z ≠ 0 → ∃ t, exec p.2 s = .next t ∧
       entered t k 4 (ctxPC s1 k) (posNext s1 k) (s1.ctx k).slot.isSome 0 ∧ t.rd (ctxReg k 5) = BitVec.ofNat 32 a ∧
       t.rd (ctxReg k 14) = s1.rd (ctxReg k 14))) ∧
  (∀ (s : State) (n k : Fin 8) (x : CtxId) (code rpc rnext sub : Nat) (slot : Bool) (ta : Option Nat) (t : State),
     x = .pe n k → ctxHM s (ctxKey x) = true → code ≠ 6 → code ≠ 13 → code ≠ 14 → code < 16 →
     t = takeExc s (ctxKey x) code rpc rnext slot sub ta →
     cst t (ctxKey x) = 3 ∧ t.bt (PE_IRQSTAT n.val) 0 = true ∧ t.bt (PE_FAULT n.val) 31 = true ∧
     (s.bt (PE_FAULT n.val) 31 = false → t.fl (PE_FAULT n.val) 6 4 = k.val ∧ t.fl (PE_FAULT n.val) 3 0 = code ∧
       t.rd (PE_FAULTPC n.val) = if code = 3 then BitVec.ofNat 32 rpc else s.rd (ctxReg (ctxKey x) 2)) ∧
     (s.bt (PE_FAULT n.val) 31 = true → t.rd (PE_FAULT n.val) = s.rd (PE_FAULT n.val) ∧
       t.rd (PE_FAULTPC n.val) = s.rd (PE_FAULTPC n.val))) ∧
  (∀ (s : State) (x : CtxId) (k : Nat), k = ctxKey x → ctxHM s k = true → excDue s k = 0 ∧
     exec (.dbuswTaken x) s = .next (close s) ∧ exec (.intTaken x) s = .next (close s)) ∧
  (∀ (s : State) (x : CtxId) (k dt : Nat) (u : State), k = ctxKey x → u = elapse s dt → ctxHM u k = true → ctxLive u k = true →
     wdOut u k = true → u.bt (ctxReg k 11) 30 = false →
     ∃ t, exec (.wdogExpiry x dt) s = .next t ∧ (t.ctx k).wdPend = true ∧ t.rd (ctxReg k 2) = u.rd (ctxReg k 2))

/-- Tier 2. CP0 (R140, R141): what a coprocessor access does is what the access of the engine's master ID does at the cell; data
goes to RD. CRX and CRXW reach RXDATA, CTX and CTXW TXDATA, CSTAT FIFOSTAT of cell (RA + IMM12) mod 256; CRD and CWR offset IMM12
of cell RA[7:0]; CRXW and CTXW where the FIFO does not make them wait; all where no earlier access of the engine to the block is
outstanding (R17), for which they block until REMOTE_LOAD_DONE else. -/
def Obligations.CellCoprocessor : Prop :=
  ∀ (s : State) (n k : Fin 8) (f : Upset) (w : Word) (s1 s2 : State) (v : Word) (x : CtxId) (c a : Nat),
    x = .pe n k → c = ((getG s1 (ctxKey x) (jRa w)).toNat % 256 + w.toNat % 256) % 256 →
    a = 0x30000000 + (getG s1 (ctxKey x) (jRa w)).toNat % 256 * 0x1000 + w.toNat % 2 ^ 12 →
    (issues s x f .crx w s1 → behind s1 (ctxKey x) (CELL_RXDATA c) = false → busRead s1 (n.val + 1) (CELL_RXDATA c) = (s2, .ok v) → exec (.crx x f) s = gives s s2 x .crx w v) ∧
    (issues s x f .crxw w s1 → fifoWaits s1 (ctxKey x) true c = false → behind s1 (ctxKey x) (CELL_RXDATA c) = false →
      busRead s1 (n.val + 1) (CELL_RXDATA c) = (s2, .ok v) → exec (.crxw x f) s = gives s s2 x .crxw w v) ∧
    (issues s x f .cstat w s1 → behind s1 (ctxKey x) (CELL_FIFOSTAT c) = false →
      busRead s1 (n.val + 1) (CELL_FIFOSTAT c) = (s2, .ok v) → exec (.cstat x f) s = gives s s2 x .cstat w v) ∧
    (issues s x f .crd w s1 → behind s1 (ctxKey x) a = false → busRead s1 (n.val + 1) a = (s2, .ok v) →
      exec (.crd x f) s = gives s s2 x .crd w v) ∧
    (issues s x f .ctx w s1 → behind s1 (ctxKey x) (CELL_TXDATA c) = false →
      busWrite s1 (n.val + 1) (CELL_TXDATA c) (getG s1 (ctxKey x) (jRd w)) = (s2, .ok v) →
      exec (.ctx x f) s = .next (completes s s2 (ctxKey x) .ctx)) ∧
    (issues s x f .ctxw w s1 → fifoWaits s1 (ctxKey x) false c = false → behind s1 (ctxKey x) (CELL_TXDATA c) = false →
      busWrite s1 (n.val + 1) (CELL_TXDATA c) (getG s1 (ctxKey x) (jRd w)) = (s2, .ok v) →
      exec (.ctxw x f) s = .next (completes s s2 (ctxKey x) .ctxw)) ∧
    (issues s x f .cwr w s1 → behind s1 (ctxKey x) a = false → busWrite s1 (n.val + 1) a (getG s1 (ctxKey x) (jRd w)) = (s2, .ok v) →
      exec (.cwr x f) s = .next (completes s s2 (ctxKey x) .cwr))

/-- Tier 2. Blocking forms (R141, R146): CRXW on an empty FIFO blocks its context with the access not issued;
BLOCKING_WAIT_ISSUE issues it once the FIFO holds a word, and REMOTE_LOAD_DONE completes it; X7 without a result writes RA to the
CP7 cell of its group. -/
def Obligations.BlockingForms : Prop :=
  ∀ (s : State) (n k : Fin 8) (f : Upset) (w : Word) (s1 s2 : State) (v : Word) (x : CtxId) (c : Nat),
    x = .pe n k → c = ((getG s1 (ctxKey x) (jRa w)).toNat % 256 + w.toNat % 256) % 256 →
    (issues s x f .crxw w s1 → fifoWaits s1 (ctxKey x) true c = true →
      ∃ t, exec (.crxw x f) s = .next t ∧ (t.ctx (ctxKey x)).blk = .wait w ∧ t.fifo = s1.fifo) ∧
    ((s1.ctx (ctxKey x)).blk = .wait w → ctxLive s1 (ctxKey x) = true → jDecode false w = some .crxw →
      fifoWaits s1 (ctxKey x) true c = false → ∃ t, exec (.blockingWaitIssue x) s1 = .next t ∧
        (t.ctx (ctxKey x)).blk = .acc w (CELL_RXDATA c) ∧ t.fifo = s1.fifo) ∧
    (∀ u, (s1.ctx (ctxKey x)).blk = .acc w (CELL_RXDATA c) → ctxLive s1 (ctxKey x) = true → jDecode false w = some .crxw →
      behind s1 (ctxKey x) (CELL_RXDATA c) = false → fifoWaits s1 (ctxKey x) true c = false →
      busRead s1 (n.val + 1) (CELL_RXDATA c) = (s2, .ok v) → exec (.remoteLoadDone x u) s1 =
        .next (close (boundary (advance (setG s2 (ctxKey x) (jRd w) v) (ctxKey x)) (ctxKey x)))) ∧
    (∀ e, issues s x f .x7 w s1 → s1.bt (PE_CP7CFG n.val) 31 = true → w.toNat % 2 = 0 →
      e = 16 * s1.fl (PE_CP7CFG n.val) 3 0 + w.toNat / 2 ^ 12 % 16 → fifoWaits s1 (ctxKey x) false e = false →
      behind s1 (ctxKey x) (CELL_TXDATA e) = false →
      busWrite s1 (n.val + 1) (CELL_TXDATA e) (getG s1 (ctxKey x) (jRa w)) = (s2, .ok v) →
      exec (.x7 x f) s = .next (completes s s2 (ctxKey x) .x7))

/-- Tier 2. CP1 (R142): the operations of the engine's own check unit are accesses to its registers, once no earlier access of the
engine to it is outstanding (R17). -/
def Obligations.CheckCoprocessor : Prop :=
  ∀ (s : State) (n k : Fin 8) (f : Upset) (w : Word) (s1 s2 : State) (v a : Word) (x : CtxId) (b : Nat),
    x = .pe n k → b = 0x35000000 + n.val * 0x1000 → a = getG s1 (ctxKey x) (jRa w) →
    (∀ (i : Instr) (m : JMn) (r : Nat) (d : Word), (i, m, r, d) ∈ [(Instr.ckf1 x f, JMn.ckf1, CHK_FEED1 b, a),
        (.ckf2 x f, .ckf2, CHK_FEED2 b, a), (.ckf4 x f, .ckf4, CHK_FEED4 b, a), (.ckinit x f, .ckinit, CHK_CMD b, 1),
        (.ckend x f, .ckend, CHK_CMD b, 2), (.ckwr x f, .ckwr, b + w.toNat % 2 ^ 12, getG s1 (ctxKey x) (jRd w))] →
      issues s x f m w s1 → behind s1 (ctxKey x) r = false → busWrite s1 (n.val + 1) r d = (s2, .ok v) → exec i s = .next (completes s s2 (ctxKey x) m)) ∧
    (∀ (i : Instr) (m : JMn) (r : Nat), (i, m, r) ∈ [(Instr.ckres x f, JMn.ckres, CHK_RESULT b),
        (.ckst x f, .ckst, CHK_STATE b), (.ckrd x f, .ckrd, b + w.toNat % 2 ^ 12)] →
      issues s x f m w s1 → behind s1 (ctxKey x) r = false → busRead s1 (n.val + 1) r = (s2, .ok v) → exec i s = gives s s2 x m w v)

/-- Tier 2. CP2 (R143): TSNAP returns the nanoseconds of the timebase and latches its seconds and sub-nanoseconds; TSECL,
TSECH and TSUB return what is latched; TWAIT completes once TB0 has reached the latched seconds and RA nanoseconds; TRD and TWR
reach the word of the time unit at RA + IMM12; after the engine's earlier accesses to the block (R17). -/
def Obligations.TimeCoprocessor : Prop :=
  ∀ (s : State) (n k : Fin 8) (f : Upset) (w : Word) (s1 s2 : State) (v a : Word) (x : CtxId) (r : Nat) (h : CtxH) (y : TB),
    x = .pe n k → a = getG s1 (ctxKey x) (jRa w) → r = (0x32000000 + a + BitVec.ofNat 32 (w.toNat % 2 ^ 12)).toNat →
    h = s1.ctx (ctxKey x) → y = s1.tb (w.toNat % 2 ^ 12) →
    (issues s x f .tsnap w s1 → behind s1 (ctxKey x) (TU_TB_NS (w.toNat % 2 ^ 12)) = false → closed s1 (n.val + 1) blkTu = false →
      exec (.tsnap x f) s =
        gives s (s1.setCtx (ctxKey x) { h with snap := some (y.sec, y.frac / 2 ^ 29) }) x .tsnap w (BitVec.ofNat 32 y.ns)) ∧
    (∀ sec sub, h.snap = some (sec, sub) →
      (issues s x f .tsecl w s1 → exec (.tsecl x f) s = gives s s1 x .tsecl w (BitVec.ofNat 32 sec)) ∧
      (issues s x f .tsech w s1 → exec (.tsech x f) s = gives s s1 x .tsech w (BitVec.ofNat 32 (sec / 2 ^ 32))) ∧
      (issues s x f .tsub w s1 → exec (.tsub x f) s = gives s s1 x .tsub w (BitVec.ofNat 32 sub)) ∧
      (issues s x f .twait w s1 → closed s1 (n.val + 1) blkTu = false → a.toNat < 1000000000 →
        sec * 1000000000 + a.toNat ≤ (s1.tb 0).sec * 1000000000 + (s1.tb 0).ns →
        exec (.twait x f) s = .next (completes s s1 (ctxKey x) .twait))) ∧
    (issues s x f .trd w s1 → regionOf r ≠ some .ob → behind s1 (ctxKey x) r = false → busRead s1 (n.val + 1) r = (s2, .ok v) →
      exec (.trd x f) s = gives s s2 x .trd w v) ∧
    (issues s x f .twr w s1 → behind s1 (ctxKey x) r = false → busWrite s1 (n.val + 1) r (getG s1 (ctxKey x) (jRd w)) = (s2, .ok v) →
      exec (.twr x f) s = .next (completes s s2 (ctxKey x) .twr))

/-- Tier 2. CP3 (R144): IGET fills the point buffer with the slot read and its timestamp and returns the quality; IRB and IWB
reach a word of the buffer; ISTN and ISTS set its timestamp, IRTS reads it; IEPO reads the epoch; IPUT writes the point with the
buffer's 64 bytes; the accesses to the store come after the engine's earlier ones (R17). -/
def Obligations.ImageCoprocessor : Prop :=
  ∀ (s : State) (n k : Fin 8) (f : Upset) (w : Word) (s1 : State) (d : Word) (x : CtxId) (p i : Nat) (h : CtxH),
    x = .pe n k → d = getG s1 (ctxKey x) (jRd w) → p = (getG s1 (ctxKey x) (jRa w)).toNat % 65536 → i = w.toNat % 2 ^ 12 →
    h = s1.ctx (ctxKey x) → closed s1 (n.val + 1) blkImg = false →
    (∀ c q, issues s x f .iget w s1 → behind s1 (ctxKey x) (0x24000000 + 64 * p) = false → pointRead s1 p (w.toNat % 2 == 1) = some (c, q) →
      ∃ v, exec (.iget x f .good) s = gives s v x .iget w (BitVec.ofNat 32 q) ∧ v.regs = s1.regs ∧ v.img = s1.img ∧
        (v.ctx (ctxKey x)).bufNs = c.ns ∧ (v.ctx (ctxKey x)).bufSec = c.sec ∧ (v.ctx (ctxKey x)).bufSub = c.sub ∧
        ∀ j < 16, ∀ b < 4, ((v.ctx (ctxKey x)).buf.getD j 0).toNat / 256 ^ b % 256 = (slotByte c (4 * j + b)).toNat) ∧
    (issues s x f .irb w s1 → i ≤ 15 → exec (.irb x f) s = gives s s1 x .irb w (h.buf.getD i 0)) ∧
    (issues s x f .iwb w s1 → i ≤ 15 → ∃ v, exec (.iwb x f) s = .next (completes s v (ctxKey x) .iwb) ∧ v.regs = s1.regs ∧
      ∀ j < 16, (v.ctx (ctxKey x)).buf.getD j 0 = if j = i then d else h.buf.getD j 0) ∧
    (issues s x f .istn w s1 → exec (.istn x f) s = .next (completes s
      (s1.setCtx (ctxKey x) { h with bufNs := d.toNat % 2 ^ 30, bufSet := true }) (ctxKey x) .istn)) ∧
    (issues s x f .ists w s1 → exec (.ists x f) s = .next (completes s
      (s1.setCtx (ctxKey x) { h with bufSec := d.toNat, bufSet := true }) (ctxKey x) .ists)) ∧
    (issues s x f .irts w s1 → exec (.irts x f) s = gives s s1 x .irts w (BitVec.ofNat 32 h.bufNs)) ∧
    (issues s x f .iepo w s1 → behind s1 (ctxKey x) IMG_EPOCH_LO = false → exec (.iepo x f) s = gives s s1 x .iepo w (BitVec.ofNat 32 s1.imgE)) ∧
    (∀ s2, issues s x f .iput w s1 → behind s1 (ctxKey x) (0x24000000 + 64 * p) = false → h.bufSet = false →
      imgPut s1 (n.val + 1) none p ((List.range 64).map (fun j => BitVec.ofNat 8 ((h.buf.getD (j / 4) 0).toNat / 2 ^ (8 * (j % 4)))))
        none (d.toNat % 65536) (s1.tb 0).ns ((s1.tb 0).sec) ((s1.tb 0).frac / 2 ^ 29) = (s2, true) →
      exec (.iput x f) s =
        .next (completes s (s2.setCtx (ctxKey x) { s2.ctx (ctxKey x) with bufSet := false }) (ctxKey x) .iput))

/-- Tier 2. CP4 (R145): mailbox and lock operations are accesses of the engine's master ID to the MBX block; MSEND sends RA
with the tag RD[15:0]; after the engine's earlier accesses to the block (R17). -/
def Obligations.MailboxCoprocessor : Prop :=
  ∀ (s : State) (n k : Fin 8) (f : Upset) (w : Word) (s1 s2 : State) (v : Word) (x : CtxId) (j : Nat),
    x = .pe n k → j = w.toNat % 2 ^ 12 →
    (issues s x f .msend w s1 → behind s1 (ctxKey x) (MBX_PTR j) = false → mbxSend s1 (n.val + 1) j (getG s1 (ctxKey x) (jRa w))
        ((getG s1 (ctxKey x) (jRd w)).toNat % 65536) = (s2, .ok v) →
      exec (.msend x f) s = .next (completes s s2 (ctxKey x) .msend)) ∧
    (∀ (i : Instr) (m : JMn) (r : Nat), (i, m, r) ∈ [(Instr.mtag x f, JMn.mtag, MBX_TAG j), (.mrecv x f, .mrecv, MBX_PTR j),
        (.mstat x f, .mstat, MBX_STAT j), (.lkacq x f, .lkacq, MBX_LK j)] →
      issues s x f m w s1 → behind s1 (ctxKey x) r = false → busRead s1 (n.val + 1) r = (s2, .ok v) → exec i s = gives s s2 x m w v) ∧
    (issues s x f .lkrel w s1 → behind s1 (ctxKey x) (MBX_LK j) = false → busWrite s1 (n.val + 1) (MBX_LK j) 0 = (s2, .ok v) →
      exec (.lkrel x f) s = .next (completes s s2 (ctxKey x) .lkrel))

/-- Tier 2. The FPU operations that write an FPU register (R335): FADD, FSUB, FMUL, FDIV and FSQRT round by FCSR[6:5] and add
their flags to FCSR; a NaN operand gives the default NaN; FNEG and FABS act on the sign bit and set no flag; FMIN and FMAX,
FCVTDW and FCVTDS. The FPU operations that write a general register (R335): FEQ, FLT and FLE give 1 or 0 and raise NV on a
NaN (FEQ on a signalling one), FCVTSD and FCVTWD convert; the NX flag of FCVTWD is the free value of PRESUMED, log entry 25. -/
def Obligations.FpuArithmetic : Prop :=
  (∀ (s : State) (b : Bool) (f : Upset) (w : Word) (s1 : State) (x : CtxId) (rm p q : Nat) (g : Word),
     x = .pair b → p = getF s1 (ctxKey x) (jRa w) → q = getF s1 (ctxKey x) (jRb w) → g = getG s1 (ctxKey x) (jRa w) →
     rm = s1.fl (ctxReg (ctxKey x) 17) 6 5 →
     (isNan f64 p ∨ isNan f64 q → (fAdd rm p q).1 = 0x7FF8000000000000 ∧ (fSub rm p q).1 = 0x7FF8000000000000 ∧
       (fMul rm p q).1 = 0x7FF8000000000000 ∧ (fDiv rm p q).1 = 0x7FF8000000000000) ∧
     (issues s x f .fadd w s1 → exec (.fadd x f) s = givesF s s1 x .fadd w (fAdd rm p q)) ∧
     (issues s x f .fsub w s1 → exec (.fsub x f) s = givesF s s1 x .fsub w (fSub rm p q)) ∧
     (issues s x f .fmul w s1 → exec (.fmul x f) s = givesF s s1 x .fmul w (fMul rm p q)) ∧
     (issues s x f .fdiv w s1 → exec (.fdiv x f) s = givesF s s1 x .fdiv w (fDiv rm p q)) ∧
     (issues s x f .fsqrt w s1 → exec (.fsqrt x f) s = givesF s s1 x .fsqrt w (fSqrt rm p)) ∧
     (issues s x f .fmin w s1 → exec (.fmin x f) s = givesF s s1 x .fmin w (fMinMax false p q)) ∧
     (issues s x f .fmax w s1 → exec (.fmax x f) s = givesF s s1 x .fmax w (fMinMax true p q)) ∧
     (issues s x f .fneg w s1 → exec (.fneg x f) s = givesF s s1 x .fneg w ((BitVec.ofNat 64 p ^^^ BitVec.ofNat 64 (2 ^ 63)).toNat, 0)) ∧
     (issues s x f .fabs w s1 → exec (.fabs x f) s = givesF s s1 x .fabs w (p % 2 ^ 63, 0)) ∧
     (issues s x f .fcvtdw w s1 → exec (.fcvtdw x f) s = givesF s s1 x .fcvtdw w (fOfInt g.toInt, 0)) ∧
     (issues s x f .fcvtds w s1 → exec (.fcvtds x f) s = givesF s s1 x .fcvtds w (fConvert f32 f64 rm g.toNat))) ∧
  (∀ (s : State) (b : Bool) (f : Upset) (w : Word) (s1 : State) (x : CtxId) (rm p q : Nat),
     x = .pair b → p = getF s1 (ctxKey x) (jRa w) → q = getF s1 (ctxKey x) (jRb w) → rm = s1.fl (ctxReg (ctxKey x) 17) 6 5 →
     (issues s x f .feq w s1 → exec (.feq x f) s =
       givesFlags s s1 x .feq w (if (fEq p q).1 then 1 else 0) (if isSnan f64 p ∨ isSnan f64 q then 16 else 0)) ∧
     (issues s x f .flt w s1 → exec (.flt x f) s =
       givesFlags s s1 x .flt w (if (fLt p q).1 then 1 else 0) (if isNan f64 p ∨ isNan f64 q then 16 else 0)) ∧
     (issues s x f .fle w s1 → exec (.fle x f) s =
       givesFlags s s1 x .fle w (if (fLe p q).1 then 1 else 0) (if isNan f64 p ∨ isNan f64 q then 16 else 0)) ∧
     (isNan f64 p ∨ isNan f64 q → (fEq p q).1 = false ∧ (fLt p q).1 = false ∧ (fLe p q).1 = false) ∧
     (issues s x f .fcvtsd w s1 → exec (.fcvtsd x f) s =
       givesFlags s s1 x .fcvtsd w (BitVec.ofNat 32 (fConvert f64 f32 rm p).1) ((fConvert f64 f32 rm p).2 % 32)) ∧
     (issues s x f .fcvtwd w s1 → ∃ nx, nx ≤ 1 ∧ exec (.fcvtwd x f) s =
       givesFlags s { s1 with freeCtr := s1.freeCtr + 1 } x .fcvtwd w (BitVec.ofInt 32 (fToInt p).1)
         ((if (fToInt p).2.1 then 16 else 0) + if (fToInt p).2.2 then nx else 0)))

/-- Tier 2. FLD and FST (R335, R336): an aligned load of eight bytes blocks its context until REMOTE_LOAD_DONE where no copy is
cached; an aligned store of the FPU register is posted; both need a region that permits the access. -/
def Obligations.FpuMemory : Prop :=
  ∀ (s : State) (b : Bool) (f u : Upset) (w : Word) (s1 : State) (x : CtxId) (a : Nat),
    x = .pair b → a = (getG s1 (ctxKey x) (jRa w) + immS w).toNat → a % 8 = 0 → regionOf a ≠ some .ob →
    (issues s x f .fld w s1 → protOk s1 (ctxKey x) a 3 = true → cacheable s1 (ctxKey x) a = false →
      ∃ t, exec (.fld x f u) s = .next t ∧ (t.ctx (ctxKey x)).blk = .load a 8 (jRd w) false false true) ∧
    (issues s x f .fst w s1 → protOk s1 (ctxKey x) a 2 = true → (postedOf s1 (ctxKey x)).length < 4 →
      ∃ v, exec (.fst x f u) s = .next (completes s v (ctxKey x) .fst) ∧ (v.ctx (ctxKey x)).posted =
        (s1.ctx (ctxKey x)).posted ++ [{ addr := a, size := 8, val := getF s1 (ctxKey x) (jRd w), seq := s1.issueNo, cyc := cpuNow s1 (ctxBlk (ctxKey x)) }] ∧ ∀ c, v.rd c = s1.rd c)

/-- Tier 2. The commands of PE_CTX_CTRL and a write of WDOG (R120, R154, Table 6.2): START, STOP, RESUME and CLEAR, by a
master that reaches the context's block, with no STEP under way. -/
def Obligations.ContextCommands : Prop :=
  ∀ (s : State) (m : Master) (x : CtxId) (k : Nat) (h : CtxH), k = ctxKey x → h = s.ctx k → noSteps s →
    (opens s m (localAddr m.val (ctxReg k 0)) (ctxRegion m x) →
      (cst s k = 0 → ∃ t, exec (.ctxStart m x) s = .next t ∧ cst t k = 1 ∧ ctxHM t k = false ∧ ctxIE t k = false ∧
        (t.ctx k).rs = [] ∧ t.rd (ctxReg k 10) = s.rd (ctxReg k 8) ∧ wdCount t k = 0 ∧ t.rd (ctxReg k 2) = s.rd (ctxReg k 2) ∧
        t.resp = .ok 0) ∧
      (cst s k = 1 ∨ cst s k = 2 → h.blk = .none → h.slot = none → ∃ t, exec (.ctxStop m x) s = .next t ∧ cst t k = 0 ∧
        (t.ctx k).waited = (cst s k == 2) ∧ t.rd (ctxReg k 2) = s.rd (ctxReg k 2)) ∧
      (cst s k = 0 → nothingWaits s k → ∃ t, exec (.ctxResume m x) s = .next t ∧
        cst t k = (if h.waited then 2 else 1) ∧ (t.ctx k).slot = h.slot ∧ t.rd (ctxReg k 2) = s.rd (ctxReg k 2)) ∧
      (cst s k = 3 → ∃ t, exec (.ctxClear m x) s = .next t ∧ cst t k = 0 ∧ (t.ctx k).rs = h.rs ∧
        ∀ i < 32, getG t k i = getG s k i)) ∧
    (∀ v, opens s m (localAddr m.val (ctxReg k 11)) (ctxRegion m x) → fld v 23 0 ≠ 0 → ∃ t, exec (.wdogWrite m x v) s = .next t ∧
      t.fl (ctxReg k 11) 23 0 = fld v 23 0 ∧ t.bt (ctxReg k 11) 30 = false ∧
      t.bt (ctxReg k 11) 31 = (s.bt (ctxReg k 11) 31 || bitAt v 31) ∧ wdCount t k = 0)

/-- Tier 2. STEP (R120, Table 6.2): a STOPPED context whose next instruction is an ADD, with nothing due first, executes it
and stays STOPPED. What a context meets between instructions (R149, R150, R151, R154): an interrupt, the error of a posted
store, the end of a wait, the two expiries of the watchdog. -/
def Obligations.ContextStepAndEvents : Prop :=
  (∀ (s : State) (m : Master) (x : CtxId) (k : Nat) (s0 s1 : State) (w : Word), k = ctxKey x → noSteps s →
     opens s m (localAddr m.val (ctxReg k 0)) (ctxRegion m x) → cst s k = 0 → ctxLive s k = true → (s.ctx k).blk = .none → excDue s k = 0 →
     (s.ctx k).slot = none →
     s0 = { s.setCtx k { s.ctx k with step := true, waited := false } with resp := .ok 0 } →
     jFetch s0 k .good = (s1, some (.inl w)) → (s1.ctx k).slot = none → jDecode (!onEngine k) w = some .add →
     ∃ t, exec (.ctxStep m x) s = .next t ∧ (t.ctx k).step = false ∧
       (jRd w ≠ 0 → getG t k (jRd w) = getG s1 k (jRa w) + getG s1 k (jRb w)) ∧ ctxPC t k = succOf s1 k % 2 ^ 32 ∧
       cst t k = cst s1 k) ∧
  (∀ (s : State) (x : CtxId) (k : Nat), k = ctxKey x →
     (ctxLive s k = true → cst s k = 1 → excDue s k = 3 → jTurn s k = true → ∃ t, exec (.intTaken x) s = .next t ∧
       entered t k 14 (ctxPC s k) (posNext s k) (s.ctx k).slot.isSome 0) ∧
     (∀ a, ctxLive s k = true → cst s k = 1 → excDue s k = 1 → jTurn s k = true → (s.ctx k).dbw = some a →
       ∃ t, exec (.dbuswTaken x) s = .next t ∧ entered t k 6 (ctxPC s k) (posNext s k) (s.ctx k).slot.isSome 0 ∧
         t.rd (ctxReg k 5) = BitVec.ofNat 32 a ∧ (t.ctx k).dbw = none) ∧
     (ctxLive s k = true → cst s k = 2 → intLines s k ≠ 0 → ctxIE s k = false → (s.ctx k).wdPend = false →
       (s.ctx k).dbw = none → ∃ t, exec (.contextWake x) s = .next t ∧ cst t k = 1 ∧
       t.rd (ctxReg k 2) = s.rd (ctxReg k 2)) ∧
     (∀ dt u, u = elapse s dt → ctxLive u k = true → wdOut u k = true →
       (u.bt (ctxReg k 11) 30 = false → ∃ t, exec (.wdogExpiry x dt) s = .next t ∧ t.bt (ctxReg k 11) 30 = true ∧
         wdCount t k = 0 ∧ (cst u k = 1 → (u.ctx k).blk = .none → (u.ctx k).slot = none → (u.ctx k).dbw = none →
           ctxHM u k = false → entered t k 13 (ctxPC u k) (succOf u k) false 0)) ∧
       (∀ n j : Fin 8, x = .pe n j → u.bt (ctxReg k 11) 30 = true → u.bt (PE_CTRL n.val) 0 = false →
         ∃ t, exec (.wdogExpiry x dt) s = .next t ∧ cst t k = 3)))

/-- Tier 2. The device service (R162, R167, R170): a timed-out point is written again with its newest value and STALE set; a
recovery writes FAULTED to the diagnostic point, rewrites the inputs in order, marks them as done and restarts the engine. The
firmware's context and the order of the service's steps are the model's choice (DESIGN CHOICE, log entries 31, 100). -/
def Obligations.DeviceService : Prop :=
  (∀ (s s1 : State) (n : Fin 8) (p : Fin 65536) (c : ImgSlot) (k : Nat), c = newestSlot (s.pt p.val) → c.used = true →
    firmCtx s n.val = some k → closed s (n.val + 1) blkImg = false →
    imgPut s (n.val + 1) none p.val c.data none (c.qual ||| 1) c.ns c.sec c.sub = (s1, true) →
    exec (.pointTimeout n p) s = .next (close s1)) ∧
  (∀ (s : State) (n k : Fin 8) (diag : Fin 65536) (inputs : List (Fin 65536)) (run : List (Fin 8)) (s1 : State)
      (r : State × Option Nat), (s.ctx (8 * n.val + k.val)).marked = false → closed s 8 blkImg = false →
    cst s (8 * n.val + k.val) = 3 → ctxLive s (8 * n.val + k.val) = true → ctxLive s 56 = true → cst s 56 = 1 →
    s.bt (PE_FAULT n.val) 31 = false →
    imgPut s 8 none diag.val (diagBytes s diag.val 3 1) none 0 (s.tb 0).ns (s.tb 0).sec (s.tb 0).sub = (s1, true) →
    r = (inputs.map (·.val)).foldl (fun r p => serviceThen (staleAgain · 8 p) r) (s1, none) →
    exec (.instanceFaultRecovery n k diag inputs run) s = .next (close (firmEnd 56
      (serviceThen (serviceRestart · n.val diag.val (run.map (·.val)))
        (r.1.setCtx (8 * n.val + k.val) { r.1.ctx (8 * n.val + k.val) with marked := true }, r.2)))))

/-- Tier 2. The access types (R8) at four registers of REGISTER_WRITE: RW bits take the value written and the rest stays
(EVF_SGCFG); W1C bits clear where the value has ones (CELL_IRQSTAT); RO bits stay (EVF_SGCNT); RC bits read and clear (PE_ECC). -/
def Obligations.AccessTypes : Prop :=
  ∀ (s : State) (m : Master) (a v : Word), noSteps s →
    (∀ g : Fin 32, a.toNat = EVF_SGCFG g.val → opens s m a.toNat .evf → ∃ t, exec (.registerWrite m a .w (.wr v)) s = .next t ∧
      t.rd a.toNat = (s.rd a.toNat &&& 0xFFFF3FC0) ||| (v &&& 0xC03F) ∧ t.resp = .ok 0) ∧
    (∀ c : Fin 256, a.toNat = 0x30000060 + c.val * 0x1000 → opens s m a.toNat (.cell c.val) → unmasked s m →
      shdOn s c.val = none → ∃ t, exec (.registerWrite m a .w (.wr v)) s = .next t ∧
      t.rd a.toNat = s.rd a.toNat &&& ~~~(v &&& 0x3F)) ∧
    (∀ g : Fin 32, a.toNat = EVF_SGCNT g.val → opens s m a.toNat .evf → ∃ t, exec (.registerWrite m a .w (.wr v)) s = .next t ∧
      t.rd a.toNat = s.rd a.toNat) ∧
    (∀ n : Fin 8, a.toNat = PE_ECC n.val → opens s m a.toNat (.pe n.val) → ∃ t, exec (.registerWrite m a .w .rd) s = .next t ∧
      t.resp = .ok (s.rd a.toNat) ∧ t.rd a.toNat = 0)

/-- Tier 2. Words of shared memory, and their parts (R312, R317, R12): a write by an owner of the bank puts the bytes of its size at
the address and leaves every other byte and every register; a read returns them. The word is defined and free of errors. -/
def Obligations.SharedMemory : Prop :=
  ∀ (s : State) (m : Master) (a v : Word) (sz : Size), noSteps s → testHeld s → canIssue s m.val = true → admits m.val .shared = true →
    regionOf a.toNat = some .shared → a.toNat % sz.bytes = 0 → owns s m.val (bankOf a.toNat) = true → plainWord s a.toNat .good →
    (∃ t, exec (.memoryAccess m a sz (.wr v) .good) s = .next t ∧ t.resp = .ok 0 ∧
      (∀ j < sz.bytes, t.byte (a.toNat + j) = BitVec.ofNat 8 (v.toNat / 256 ^ j)) ∧
      (∀ b, b < a.toNat ∨ a.toNat + sz.bytes ≤ b → t.byte b = s.byte b) ∧ ∀ r, closeTouches r = false → t.rd r = s.rd r) ∧
    (∃ t, exec (.memoryAccess m a sz .rd .good) s = .next t ∧
      t.resp = .ok (BitVec.ofNat 32 (leNat ((List.range sz.bytes).map (fun j => s.byte (a.toNat + j))))) ∧
      ∀ b, t.byte b = s.byte b)

/-- Tier 2. Error responses (R6, R11, R18, R19, R319, R439), each with its cause, logged, and without effect at the target: an
address that no region decodes (0), a master the region does not let in (1), a narrow access to a register (2), a bank of another
owner (4), a block that is off or in reset (6). The writes to cells that R345 masks are not examined. -/
def Obligations.ErrorResponses : Prop :=
  ∀ (s : State) (m : Master) (a : Word) (sz : Size) (acc : Acc) (r : Region), noSteps s → canIssue s m.val = true →
    (regionOf a.toNat = none → answersError s m a sz acc 0) ∧
    (regionOf a.toNat = some r → r ≠ .plOwn → (acc = .rd ∨ maskedCell r = false ∨ unmasked s m) → (r.isMem = true ∨ regDesc (a.toNat / 4 * 4) ≠ none) →
      (admits m.val r = false → answersError s m a sz acc 1) ∧
      (admits m.val r = true → r.isMem = false → sz ≠ .w ∨ a.toNat % 4 ≠ 0 → answersError s m a sz acc 2) ∧
      (admits m.val r = true → r.isMem = false → sz = .w → a.toNat % 4 = 0 → shut s m.val r = true →
        answersError s m a sz acc 6) ∧
      (admits m.val r = true → r = .shared → owns s m.val (bankOf (a.toNat / sz.bytes * sz.bytes)) = false →
        answersError s m a sz acc 4))

/-- Tier 2. A pair that does not hold the token (R345): its write of any size at any offset of a cell block, and its write of
SWPULSE, SGCMD or a direct-path word, is answered as accepted, changes no register but the count of masked writes, and leaves the
FIFOs. -/
def Obligations.MaskedWrites : Prop :=
  ∀ (s : State) (m : Master) (a v : Word) (sz : Size), noSteps s → (m = 9 ∨ m = 10) → holder s + 8 ≠ m.val →
    (canIssue s m.val = true ∧ (∃ c : Fin 256, regionOf a.toNat = some (.cell c.val) ∧ shut s m.val (.cell c.val) = false)) ∨
      (opens s m a.toNat .evf ∧ sz = .w ∧ maskedTarget .evf (a.toNat % 0x10000) = true) →
    ∃ t, exec (.registerWrite m a sz (.wr v)) s = .next t ∧ t.resp = .ok 0 ∧
      t.fifo = s.fifo ∧ t.cellH = s.cellH ∧ ∀ b, b ≠ ARB_MASK → closeTouches b = false → t.rd b = s.rd b

/-- Tier 2. A write by any master to the boot ROM or the boot flash window gets an error response and changes nothing but the
error log (R20): no byte of flash or memory, no register outside the diagnostic block, no FIFO, queue or context. -/
def Obligations.ReadOnlyMemories : Prop :=
  ∀ (s : State) (m : Master) (a v : Word) (sz : Size), noSteps s → canIssue s m.val = true →
    regionOf a.toNat = some .rom ∨ regionOf a.toNat = some .flash →
    ∃ t c, exec (.registerWrite m a sz (.wr v)) s = .next t ∧ t.resp = .err c ∧ (softMaster m.val = true → c = 3) ∧
      t.flash = s.flash ∧ t.fuses = s.fuses ∧ t.img = s.img ∧ t.fifo = s.fifo ∧ t.ctxH = s.ctxH ∧ t.cellH = s.cellH ∧
      t.swq = s.swq ∧ t.fdb = s.fdb ∧ t.mbxH = s.mbxH ∧ t.hbH = s.hbH ∧ t.slotH = s.slotH ∧ t.tbs = s.tbs ∧
      t.ldrH = s.ldrH ∧ t.pending = s.pending ∧ (testHeld s → t.mem = s.mem) ∧
      ∀ b, closeTouches b = false → (b < 0x3400C000 ∨ 0x3400D000 ≤ b) → t.rd b = s.rd b

/-- Tier 2. A write of a route register, whichever (R27, R28): the word is set, with the reserved bits of class 0b10 clear; whether
the source is asserted does not change; an asserted source is on the line that the route names. -/
def Obligations.RouteWrite : Prop :=
  ∀ (s : State) (m : Master) (a v : Word) (r : Region) (k : RouteKind), noSteps s → routeKind a.toNat = some k →
    opens s m a.toNat r → (∀ c < 256, r ≠ .cell c ∨ (unmasked s m ∧ shdOn s c = none)) →
    ∃ t, exec (.routeWrite m a v) s = .next t ∧ t.resp = .ok 0 ∧
      t.rd a.toNat = (s.rd a.toNat &&& 0xFFFF00E0) ||| (routeClean v &&& 0xFF1F) ∧
      (closeTouches (a.toNat - 8) = false → sourceOn t a.toNat k = sourceOn s a.toNat k) ∧
      ∀ x, sourceOn t a.toNat k = true → routesTo t (t.rd a.toNat) x = true → bitAt (lines t x) (fld v 4 0) = true

/-- Tier 2. The commands of CELL_CTRL (R36, R38, R39, R58, R64, Table 2.17), by a master that reaches the cell: RESTART, STOP,
RESUME, SWAP of a running and of a stopped cell, FLUSHTX and FLUSHRX of a FIFO the cell owns, and STEP of a stopped cell, whose tick
is not of the command's own cycle. No shadow cell compares with the cell. -/
def Obligations.CellCommands : Prop :=
  ∀ (s : State) (m : Master) (c : Fin 256), noSteps s → unmasked s m → opens s m (CELL_CTRL c.val) (.cell c.val) →
    shdOn s c.val = none → (∀ idx, ∃ t, exec (.cellRestart m c idx) s = .next t ∧ cellState t c.val = 1 ∧
      t.fl (CELL_STATUS c.val) 22 16 = idx.val ∧ t.rd (CELL_SHIFT c.val) = 0 ∧ t.rd (CELL_SHSTAT c.val) = 0 ∧
      t.rd (CELL_EVLSN c.val) = s.rd (CELL_EVLSN c.val) &&& 0xBFBFBFBF ∧ (t.cell c.val).fresh = true ∧
      (t.cell c.val).sgs = false ∧ t.fl (CELL_CT0 c.val) 15 0 = s.fl (CELL_CT0 c.val) 31 16 ∧
      t.fl (CELL_CT1 c.val) 15 0 = s.fl (CELL_CT1 c.val) 31 16 ∧ t.fifo = s.fifo ∧ t.resp = .ok 0) ∧
    (cellState s c.val ≠ 0 → ∃ t, exec (.cellStop m c) s = .next t ∧ cellState t c.val = 0 ∧
      t.fl (CELL_STATUS c.val) 22 16 = s.fl (CELL_STATUS c.val) 22 16 ∧ t.bt (CELL_STATUS c.val) 28 = false ∧
      t.bt (CELL_STATUS c.val) 29 = (s.bt (CELL_STATUS c.val) 29 != s.bt (CELL_STATUS c.val) 28)) ∧
    (cellState s c.val = 0 → ∃ t, exec (.cellResume m c) s = .next t ∧ cellState t c.val = 1 ∧
      t.fl (CELL_STATUS c.val) 22 16 = s.fl (CELL_STATUS c.val) 22 16) ∧
    (s.bt (CELL_STATUS c.val) 28 = false → ∃ t, exec (.cellSwap m c) s = .next t ∧
      (cellState s c.val ≠ 0 → t.bt (CELL_STATUS c.val) 28 = true ∧
        t.bt (CELL_STATUS c.val) 29 = s.bt (CELL_STATUS c.val) 29) ∧
      (cellState s c.val = 0 → t.bt (CELL_STATUS c.val) 28 = false ∧
        t.bt (CELL_STATUS c.val) 29 = !s.bt (CELL_STATUS c.val) 29)) ∧
    (donor s false c.val = false → ∃ t, exec (.flushtx m c) s = .next t ∧ fifoOf t false c.val = [] ∧
      ∀ d rx, (d ≠ c.val ∨ rx = true) → fifoOf t rx d = fifoOf s rx d) ∧
    (donor s true c.val = false → ∃ t, exec (.flushrx m c) s = .next t ∧ fifoOf t true c.val = [] ∧
      ∀ d rx, (d ≠ c.val ∨ rx = false) → fifoOf t rx d = fifoOf s rx d) ∧
    (cellState s c.val = 0 → ∃ t, exec (.cellStep m c) s = .next t ∧ (t.cell c.val).step = true ∧ cellState t c.val = 0 ∧
      tickRuns t c.val = false ∧ t.fifo = s.fifo ∧ t.resp = .ok 0 ∧ ∀ a, closeTouches a = false → t.rd a = s.rd a)

/-- Tier 2. FIFO and configuration accesses at a cell (R57, R62, R67, R76): TXDATA appends, RXDATA takes the head, a bank entry,
JOIN and MODE bits are set where their rules accept the write; a write of the active bank of a cell that runs or stalls is refused.
No shadow cell compares with the cell. -/
def Obligations.CellAccesses : Prop :=
  ∀ (s : State) (m : Master) (c : Fin 256) (v : Word), noSteps s → unmasked s m → shdOn s c.val = none →
    (opens s m (CELL_TXDATA c.val) (.cell c.val) → fifoClosed s false c.val = false →
      (fifoOf s false c.val).length < depth s false c.val → ∃ t, exec (.txdataWrite m c v) s = .next t ∧ t.resp = .ok 0 ∧
      fifoOf t false c.val = fifoOf s false c.val ++ [BitVec.ofNat 33 v.toNat]) ∧
    (∀ w r, opens s m (CELL_RXDATA c.val) (.cell c.val) → fifoClosed s true c.val = false → fifoOf s true c.val = w :: r →
      ∃ t, exec (.rxdataRead m c) s = .next t ∧ t.resp = .ok (w.setWidth 32) ∧ fifoOf t true c.val = r) ∧
    (∀ (b : Bool) (e : Fin 128) (hi : Bool) (a : Nat), a = CELL_BANK c.val (256 * b.toNat + 2 * e.val + hi.toNat) →
      opens s m a (.cell c.val) → s.bt (CELL_STATUS c.val) 28 = false →
      (cellState s c.val = 0 ∨ b ≠ s.bt (CELL_STATUS c.val) 29) → ∃ t, exec (.cellBankWrite m c b e hi v) s = .next t ∧
      t.rd a = v ∧ ∀ d, d ≠ a → closeTouches d = false → t.rd d = s.rd d) ∧
    (∀ (b : Bool) (e : Fin 128) (hi : Bool), opens s m (CELL_BANK c.val (256 * b.toNat + 2 * e.val + hi.toNat)) (.cell c.val) →
      cellState s c.val ≠ 0 → b = s.bt (CELL_STATUS c.val) 29 → ∃ t, exec (.cellBankWrite m c b e hi v) s = .next t ∧
      t.resp = .err 3 ∧ t.fifo = s.fifo ∧ t.cellH = s.cellH ∧
      ∀ d, closeTouches d = false → (d < 0x3400C000 ∨ 0x3400D000 ≤ d) → t.rd d = s.rd d) ∧
    (opens s m (CELL_FIFOCFG c.val) (.cell c.val) → joinOk s c.val v = true → c.val % 16 ≠ 15 →
      ∃ t, exec (.fifoJoinWrite m c v) s = .next t ∧ t.fl (CELL_FIFOCFG c.val) 1 0 = fld v 1 0) ∧
    (opens s m (CELL_MODE c.val) (.cell c.val) → cellState s c.val = 0 → fld v 1 0 ≠ 3 → modeOk s c.val v = true →
      ∃ t, exec (.cellModeWrite m c v) s = .next t ∧ t.fl (CELL_MODE c.val) 1 0 = fld v 1 0 ∧
      t.fl (CELL_MODE c.val) 12 8 = fld v 12 8)

/-- Tier 2. Ticks and edges at a cell that is powered and out of reset (R34, R35, R39, R48, R55, R69, R103, R111): a tick of the
divider's grid runs the phases, the channels they drive pulse, and the shadow cell that compares with it takes the same tick; off the
grid nothing happens; in a STOPPED cell only the samples are new; an entry that only sets pin A drives it and goes on to the next; an
edge that CELL_CAPCFG selects is captured while VALID is 0; an edge at a direct source pulses its channels. -/
def Obligations.CellEvents : Prop :=
  ∀ (s : State) (c : Fin 256) (la lb : Bool) (dt : Nat) (u : State), u = elapse s dt → cellLive u c.val = true →
    (∀ pa pb r, onGrid u c.val = true → pa = (la != pinInv u c.val false) → pb = (lb != pinInv u c.val true) →
      r = cellTickAt u c.val pa pb false → exec (.cellTick c la lb dt .good) s =
        .next (close (shadowTick u (pulsesCell r.1 (c.val / 16) r.2, r.2) c.val pa pb))) ∧
    (onGrid u c.val = false → exec (.cellTick c la lb dt .good) s = .next (close u)) ∧
    (onGrid u c.val = true → shdOn u c.val = none → cellState u c.val = 0 → (u.cell c.val).step = false →
      ∃ t, exec (.cellTick c la lb dt .good) s = .next t ∧ cellState t c.val = 0 ∧
      t.bt (CELL_PINS c.val) 0 = (la != pinInv u c.val false) ∧ t.bt (CELL_PINS c.val) 1 = (lb != pinInv u c.val true) ∧
      t.fifo = u.fifo) ∧
    (∀ e : Entry, e = entryAt u c.val (u.fl (CELL_STATUS c.val) 29 29) (u.fl (CELL_STATUS c.val) 22 16) →
      onGrid u c.val = true → shdOn u c.val = none → startHolds u c.val = false → (u.cell c.val).step = false →
      (u.cell c.val).cmdAt ≤ u.cycles →
      cellState u c.val = 1 → u.fl (CELL_STATUS c.val) 15 8 = 0 → u.bt (CELL_STATUS c.val) 25 = false → inPass u c.val = false →
      e = ⟨e.target, 0, e.cpol, 0, 0, false, false, false, 2, 0, 0, 0, 0, 0, 0, 0, 0, 0, e.imm⟩ →
      ∃ t, exec (.cellTick c la lb dt .good) s = .next t ∧ t.bt (CELL_PINS c.val) 2 = true ∧
        t.bt (CELL_PINS c.val) 4 = true ∧ t.fl (CELL_STATUS c.val) 22 16 = (u.fl (CELL_STATUS c.val) 22 16 + 1) % 128 ∧
        cellState t c.val = 1) ∧
    (∀ (sub : Fin 8) (z : TB), z = (u.tb 0).after sub.val → u.fl (CELL_CAPCFG c.val) 1 0 = 3 →
      u.bt (CELL_TSA_SEC c.val) 7 = false → ∃ t, exec (.edgeCapture c false la sub dt) s = .next t ∧
        t.rd (CELL_TSA_NS c.val) = BitVec.ofNat 32 z.ns ∧ t.bt (CELL_TSA_SEC c.val) 7 = true ∧
        t.fl (CELL_TSA_SEC c.val) 2 0 = z.sub ∧ t.fl (CELL_TSA_SEC c.val) 31 16 = z.sec % 2 ^ 16) ∧
    (cellLive s c.val = true → ∃ v, v = s.setBt (CELL_PINS c.val) (if la then 1 else 0) (lb != pinInv s c.val la) ∧
      exec (.directSourceEdge c la lb) s =
        .next (close (pulsesCell v (c.val / 16) (directSources s c.val la (lb != pinInv s c.val la)))))

/-- Tier 2. Pulses and starts (R71, R72, R74, R100, R101, Table 3.4): SWPULSE pulses the channels and SGCMD starts the groups whose
bits are set; a start of a group in one cycle is one start, counted once; a member in start mode at which no CELL_CTRL command
completes restarts at its IDX with its start latch set and its divider at 0; a pulse in the global stage is counted. -/
def Obligations.PulsesAndStarts : Prop :=
  (∀ (s : State) (m : Master) (hi : Bool) (v : Word), unmasked s m → noSteps s →
    opens s m (if hi then EVF_SWPULSE1 else EVF_SWPULSE0) .evf → exec (.swpulseWrite m hi v) s =
      .next (close { pulsesNow s (bitsFrom v (if hi then 32 else 0)) with resp := .ok 0 })) ∧
  (∀ (s : State) (m : Master) (v : Word), unmasked s m → noSteps s → opens s m EVF_SGCMD .evf →
    exec (.sgcmdWrite m v) s = .next (close { startGroups s (bitsFrom v 0) with resp := .ok 0 })) ∧
  (∀ (s : State) (g : Fin 32), groupStart (groupStart s g.val) g.val = groupStart s g.val ∧
    (s.agenda.contains { at_ := s.cycles + 1, what := .members g.val } = false →
      (groupStart s g.val).fl (EVF_SGCNT g.val) 15 0 = (s.fl (EVF_SGCNT g.val) 15 0 + 1) % 2 ^ 16)) ∧
  (∀ (s : State) (c : Fin 256) (t : State), cellLive s c.val = true → (s.cell c.val).cmdAt ≤ s.cycles →
    s.bt (CELL_SGRP c.val) 9 = false → t = startMember s c.val → cellState t c.val = 1 ∧
    t.fl (CELL_STATUS c.val) 22 16 = s.fl (CELL_SGRP c.val) 22 16 ∧ (t.cell c.val).sgs = true ∧ (t.cell c.val).acc = 0 ∧
    (t.cell c.val).next = some (s.cycles + 1) ∧ ∀ d, d ≠ c.val → t.cell d = s.cell d) ∧
  (∀ (s : State) (ch : Fin 64), pulsesNow (pulsesNow s [ch.val]) [ch.val] = pulsesNow s [ch.val] ∧
    (cansOn s ch.val = [] → adcsOn s ch.val = [] → ∃ u, fabGlobal s ch.val = tuListen u ch.val ∧
      u.fl (EVF_CHCNT ch.val) 15 0 = (s.fl (EVF_CHCNT ch.val) 15 0 + 1) % 2 ^ 16 ∧
      ∀ a, a ≠ EVF_CHCNT ch.val → u.rd a = s.rd a))

/-- Tier 2. The cell array DMA (R82, R84): EN is set where the checks pass, and cleared with the collected words dropped; LEN
clears both pointers; an RX transfer of the channel whose turn it is (R85) writes the head record at BASE + 8 x HWPTR as master 14 and advances HWPTR. -/
def Obligations.CellDma : Prop :=
  ∀ (s : State) (m : Master) (ch : Fin 32) (v : Word), noSteps s →
    (opens s m (EVF_DMA_CFG ch.val) .evf → s.bt (EVF_DMA_CFG ch.val) 31 = false →
      dmaBadEnable s ch.val (putBit v 31 true) = false → ∃ t, exec (.dmaEnable m ch v) s = .next t ∧
      t.bt (EVF_DMA_CFG ch.val) 31 = true ∧ t.fl (EVF_DMA_CFG ch.val) 30 29 = fld v 30 29 ∧
      t.fl (EVF_DMA_CFG ch.val) 23 16 = fld v 23 16) ∧
    (opens s m (EVF_DMA_CFG ch.val) .evf → s.bt (EVF_DMA_CFG ch.val) 31 = true → fld v 30 29 ≠ 3 → ∃ t, exec (.dmaDisable m ch v) s = .next t ∧
      t.bt (EVF_DMA_CFG ch.val) 31 = false ∧ (t.dma ch.val).words = []) ∧
    (opens s m (EVF_DMA_LEN ch.val) .evf → s.bt (EVF_DMA_CFG ch.val) 31 = false → ∃ t, exec (.dmaLenWrite m ch v) s = .next t ∧
      t.fl (EVF_DMA_LEN ch.val) 15 0 = fld v 15 0 ∧ t.rd (EVF_DMA_HWPTR ch.val) = 0 ∧ t.rd (EVF_DMA_SWPTR ch.val) = 0) ∧
    (∀ w r a hw, inReset s blkEvf = false → dmaTurn s = some ch.val → s.dmaAt ≠ (s.cycles - s.clk0) / 2 + 1 →
      shdOn s (s.fl (EVF_DMA_CFG ch.val) 23 16) = none → s.bt (EVF_DMA_CFG ch.val) 31 = true → s.fl (EVF_DMA_CFG ch.val) 30 29 = 0 →
      closed s 14 (blkGrp (s.fl (EVF_DMA_CFG ch.val) 23 16 / 16)) = false →
      fifoOf s true (s.fl (EVF_DMA_CFG ch.val) 23 16) = w :: r → hw = s.fl (EVF_DMA_HWPTR ch.val) 15 0 →
      (hw + 1) % dmaLen s ch.val ≠ s.fl (EVF_DMA_SWPTR ch.val) 15 0 → dmaLen s ch.val ≠ 0 →
      a = (s.rd (EVF_DMA_BASE ch.val)).toNat + 8 * hw → a % 8 = 0 → 0x20000000 ≤ a → a + 8 ≤ 0x21000000 →
      owns s 14 (bankOf a) = true → testHeld s →
      ∃ t, exec (.dmaTransfer ch) s = .next t ∧ fifoOf t true (s.fl (EVF_DMA_CFG ch.val) 23 16) = r ∧
        t.fl (EVF_DMA_HWPTR ch.val) 15 0 = (hw + 1) % dmaLen s ch.val ∧
        (∀ j < 8, t.byte (a + j) = BitVec.ofNat 8 (w.toNat / 256 ^ j)) ∧ ∀ b, b < a ∨ a + 8 ≤ b → t.byte b = s.byte b)

/-- Tier 2. The check-value units of the engines and of STOPPED cells (R90, R92, R93, R97): CFG and the parameters take the value, cut
to the width, and perform INIT; INIT opens the unit with INIT in its register; END in append mode closes it with F as the result; a feed
of 1, 2 or 4 bytes to an engine's unit in append mode without reflection takes them through the polynomial, the byte of bits 7 to 0
first, each one bit at a time from the highest. -/
def Obligations.CheckUnits : Prop :=
  ∀ (s : State) (m : Master) (u : ChkUnit) (r : Region) (cu : Bool) (b : Nat) (v : Word), b = chkBase u → noSteps s →
    (cu = false ∧ ∃ n : Fin 8, u = .pe n ∧ r = .chk n.val) ∨
      (cu = true ∧ ∃ c : Fin 256, u = .cell c ∧ r = .cell c.val ∧ cellState s c.val = 0 ∧ shdOn s c.val = none ∧ unmasked s m) →
    (opens s m (CHK_CFG b) r → chkCfgBad cu v = false → ∃ t, exec (.chkCfgWrite m u v) s = .next t ∧
      t.fl (CHK_CFG b) 5 0 = fld v 5 0 ∧ t.fl (CHK_CFG b) 9 8 = fld v 9 8 ∧ t.bt (CHK_STATE b) 31 = false) ∧
    (∀ p, opens s m (chkParamAt u p) r → s.fl (CHK_CFG b) 5 0 = 32 → ∃ t, exec (.chkParamWrite m u p v) s = .next t ∧
      t.rd (chkParamAt u p) = v ∧ t.rd (CHK_RUN b) = (if p = .init then v else s.rd (CHK_INIT b)) ∧
      t.bt (CHK_STATE b) 31 = false) ∧
    (opens s m (CHK_CMD b) r → ∃ t, exec (.chkInit m u) s = .next t ∧ t.rd (CHK_RUN b) = s.rd (CHK_INIT b) ∧
      t.rd (CHK_STATE b) = 0 ∧ t.rd (CHK_RESULT b) = s.rd (CHK_RESULT b) ∧ t.rd (CHK_COUNT b) = s.rd (CHK_COUNT b)) ∧
    (opens s m (CHK_CMD b) r → s.fl (CHK_CFG b) 9 8 = 0 → s.bt (CHK_STATE b) 31 = false →
      ∃ t, exec (.chkEnd m u) s = .next t ∧ t.bt (CHK_STATE b) 31 = true ∧
      t.rd (CHK_RESULT b) = BitVec.ofNat 32 (crcFinal (chkW s b) (s.rd (CHK_XOROUT b)).toNat (s.bt (CHK_CFG b) 14)
        (s.rd (CHK_RUN b)).toNat)) ∧
    (∀ (f : FeedN) (n : Nat), (f, n) ∈ [(.n1, 1), (.n2, 2), (.n4, 4)] → cu = false → opens s m (chkFeedAt u f) r →
      chkW s b ≤ 32 → s.fl (CHK_CFG b) 9 8 = 0 → s.bt (CHK_STATE b) 31 = false → s.bt (CHK_CFG b) 12 = false → s.bt (CHK_CFG b) 13 = false →
      ∃ t, exec (.chkFeed m u f v) s = .next t ∧
      t.rd (CHK_RUN b) = BitVec.ofNat 32 (((List.range n).flatMap (fun j => [7, 6, 5, 4, 3, 2, 1, 0].map (8 * j + ·))).foldl
        (fun r i =>
          let top := r / 2 ^ (chkW s b - 1) % 2 == 1
          (if top != v.getLsbD i then (r * 2 % 2 ^ chkW s b) ^^^ (s.rd (CHK_POLY b)).toNat else r * 2 % 2 ^ chkW s b))
        (s.rd (CHK_RUN b)).toNat) ∧
      t.rd (CHK_FED b) = s.rd (CHK_FED b) + BitVec.ofNat 32 (8 * n))

/-- Tier 2. Shadow cells (R109, R110, R112 to R115): after 129 cycles of COPY the shadow cell has taken the cell's state and COMPARE
begins; at the end of COMPARE a good compare begins the next visit; a mismatch flags the cell, is recorded and counted, and by POLICY is
recorded only, taken over by the shadow, or stops the group; RELEASE ends a takeover with the cell STOPPED and SKIP a visit; RETIRE of
a supervisor makes SUSPECT. -/
def Obligations.ShadowCells : Prop :=
  ∀ (s : State) (m : Master) (g : Fin 16), inReset s (blkGrp g.val) = false →
    (shdState s g.val = 1 → (s.shd g.val).since + 128 ≤ s.cycles → ∃ t, exec (.shadowSnapshot g) s = .next t ∧
      shdState t g.val = 2 ∧ shdCur t g.val = shdCur s g.val ∧
      (t.shd g.val).copy = some (shdTake s (16 * g.val + shdCur s g.val))) ∧
    (shdState s g.val = 2 → (s.shd g.val).since + 129 + 2 ^ (s.fl (EVF_SHD_CTRL g.val) 7 4 + 10) ≤ s.cycles →
      ∃ t, exec (.shadowCompareEnd g) s = .next t ∧ (t.shd g.val).lastMis = none ∧
      (shdState t g.val = 1 ∨ shdState t g.val = 0)) ∧
    (∀ kind inCell, shdOn s (16 * g.val + shdCur s g.val) ≠ none → kind ≠ 0 →
      ∃ t, exec (.shadowMismatch g kind inCell) s = .next t ∧
      t.bt (EVF_SHD_STATUS g.val) (shdCur s g.val) = true ∧ t.bt (EVF_SHD_STATUS g.val) 28 = true ∧
      t.bt (EVF_SHD_IRQSTAT g.val) 0 = true ∧ (s.fl (EVF_SHD_CTRL g.val) 1 0 = 1 → shdState t g.val = 3) ∧
      (s.fl (EVF_SHD_CTRL g.val) 1 0 = 2 → shdState t g.val = 4 ∧ cellState t (16 * g.val + shdCur s g.val) = 0)) ∧
    (noSteps s → opens s m (EVF_SHD_CMD g.val) (.shd g.val) →
      (shdState s g.val = 3 → ∃ t, exec (.shadowRelease m g) s = .next t ∧ t.resp = .ok 0 ∧
        cellState t (16 * g.val + shdCur s g.val) = 0 ∧ shdState t g.val ≠ 3) ∧
      (shdState s g.val = 1 ∨ shdState s g.val = 2 → ∃ t, exec (.shadowSkip m g) s = .next t ∧ t.resp = .ok 0 ∧
        (shdState t g.val = 1 ∨ shdState t g.val = 0) ∧ (t.shd g.val).lastMis = none) ∧
      (shdState s g.val ≠ 3 → shdState s g.val ≠ 4 → supervisor s m.val = true → ∃ t, exec (.shadowRetire m g) s = .next t ∧
        shdState t g.val = 5 ∧ t.bt (EVF_SHD_IRQSTAT g.val) 3 = true))

/-- Tier 2. The timebases (R172 to R175): a read of NS latches seconds and sub-nanoseconds for its master; RATE, STEP and
LOAD change a timebase as they say; a new DISC begins a slew, whose end sets DISCLK; 10MHZ_IN is lost and comes back. The
pulse per second (R177, R179, R191 to R193): the time unit's rising and falling edges; the keeper's edges while it holds the
output, within a cycle of the reference of the learnt period and width, and its expiry after 10 s; the capture of 1PPS_IN. -/
def Obligations.TimebasesAndPps : Prop :=
  (∀ (s : State) (m : Master) (n : Fin 4) (v : Word) (x : TB), noSteps s → x = s.tb n.val →
     (opens s m (TU_TB_NS n.val) .tu → ∃ t, exec (.tbNsRead m n) s = .next t ∧ t.resp = .ok (BitVec.ofNat 32 x.ns) ∧
       t.mrd m.val (TU_TB_SECLO n.val) = BitVec.ofNat 32 x.sec ∧
       t.mrd m.val (TU_TB_SECHI n.val) = BitVec.ofNat 32 (x.sec / 2 ^ 32) ∧
       t.mrd m.val (TU_TB_SUB n.val) = BitVec.ofNat 32 x.sub ∧ t.tb n.val = x) ∧
     (opens s m (TU_TB_RATE n.val) .tu → rateBad s n.val v = false → ∃ t, exec (.tbRateWrite m n v) s = .next t ∧
       t.rd (TU_TB_RATE n.val) = v ∧ t.tbs = s.tbs ∧ t.resp = .ok 0) ∧
     (opens s m (TU_TB_CMD n.val) .tu → tbLocked s n.val = false → s.rd (TU_TB_OFFSEC n.val) = 0 →
       0 ≤ (s.rd (TU_TB_OFFNS n.val)).toInt → x.ns + (s.rd (TU_TB_OFFNS n.val)).toNat < 1000000000 → x.sec < 2 ^ 64 →
       ∃ t, exec (.tbStep m n) s = .next t ∧ t.resp = .ok 0 ∧
         t.tb n.val = { x with ns := x.ns + (s.rd (TU_TB_OFFNS n.val)).toNat } ∧
         t.fl (TU_TB_STAT n.val) 31 16 = (s.fl (TU_TB_STAT n.val) 31 16 + 1) % 2 ^ 16) ∧
     (opens s m (TU_TB_CMD n.val) .tu → tbLocked s n.val = false → (s.rd (TU_TB_OFFNS n.val)).toNat < 1000000000 →
       ∃ t, exec (.tbLoad m n) s = .next t ∧ t.resp = .ok 0 ∧ t.tb n.val =
         ⟨(s.rd (TU_TB_LDSECHI n.val)).toNat * 2 ^ 32 + (s.rd (TU_TB_OFFSEC n.val)).toNat,
           (s.rd (TU_TB_OFFNS n.val)).toNat, 0⟩) ∧
     (opens s m TU_CTRL .tu → fld v 1 0 ≠ 3 → ∃ t, exec (.discWrite m v) s = .next t ∧ t.fl TU_CTRL 1 0 = fld v 1 0 ∧
       (fld v 1 0 ≠ s.fl TU_CTRL 1 0 → t.bt TU_STATUS 1 = false)) ∧
     (inReset s blkTu = false → s.bt RST_CLKSTAT 31 = true → s.fl TU_CTRL 1 0 ≠ 1 ∨ s.bt TU_STATUS 2 = true →
       ∃ t, exec .pllSlewDone s = .next t ∧ t.bt TU_STATUS 1 = true) ∧
     (inReset s blkTu = false → s.fl TU_CTRL 1 0 = 1 →
       (∃ t, exec .refLoss s = .next t ∧ t.bt TU_STATUS 2 = false ∧ t.bt TU_STATUS 1 = false ∧ t.bt TU_IRQSTAT 1 = true) ∧
       ∃ t, exec .refReturn s = .next t ∧ t.bt TU_STATUS 2 = true ∧ t.bt TU_STATUS 1 = false)) ∧
  (∀ (s : State) (dt ref : Nat) (rise : Bool) (sub : Fin 8) (u : State), u = elapse s dt →
     (∀ n, n = u.fl TU_PPS_CFG 21 20 → ppsDriven u = true → ppsCount u (s.tb n) < ppsCount u (u.tb n) →
       ∃ t, exec (.ppsOutEdge true dt ref) s = .next t ∧ t.pps.high = true ∧ t.pps.roseAt = u.cycles ∧ ppsHeld t = false) ∧
     (ppsDriven u = true → ppsHeld u = false → u.pps.roseAt + u.fl TU_PPS_CFG 19 0 * 1000 ≤ u.cycles →
       ∃ t, exec (.ppsOutEdge false dt ref) s = .next t ∧ t.pps.high = false) ∧
     (ppsHeld u = true → (∀ n ∈ ppsPeriod u.pps, u.pps.roseAt + n ≤ u.cycles + 40) →
       ∃ t, exec (.ppsKeeperEdge true dt) s = .next t ∧ t.pps.high = true ∧
         ∀ n, ppsPeriod u.pps = some n → t.pps.roseAt = u.pps.roseAt + n) ∧
     (ppsHeld u = true → u.pps.roseAt + u.pps.width * 1000 ≤ u.cycles + 40 →
       ∃ t, exec (.ppsKeeperEdge false dt) s = .next t ∧ t.pps.high = false) ∧
     (ppsHeld u = true → u.pps.heldAt + 10000000000 ≤ u.cycles → ∃ t, exec (.ppsHoldoverExpiry dt) s = .next t ∧
       t.pps.high = false ∧ ppsHeld t = false ∧ t.bt TU_PPS_STAT 1 = true ∧ t.bt TU_IRQSTAT 3 = true) ∧
     (∀ z, inReset u blkTu = false → u.bt (TU_CAP_CFG 8) 31 = true → u.bt (TU_CAP_SEC 8) 7 = false →
       z = (u.tb (u.fl (TU_CAP_CFG 8) 9 8)).after sub.val → ∃ t, exec (.ppsInEdge sub dt) s = .next t ∧
         t.bt (TU_CAP_SEC 8) 7 = true ∧ t.fl (TU_CAP_SEC 8) 2 0 = z.sub ∧ t.rd (TU_CAP_NS 8) = BitVec.ofNat 32 z.ns))

/-- Tier 2. Trigger entries and the timestamp queue (R184, R187 to R189): an entry whose time has come fires, counts it, and
stops or moves by its period; an enabling write ahead of the time enables, a late one-shot is missed; a write with EN = 0
disables; a read of W3 takes the head of the queue. -/
def Obligations.TriggerEntries : Prop :=
  ∀ (s : State) (m : Master) (i : Fin 1024) (v : Word),
    (∀ dt busy ready bad u, u = elapse s dt → inReset u blkTu = false → trgOn u i.val = true → trgReached u i.val = true →
      u.fl (TU_TRG_CTRL i.val) 27 24 = 3 → ∃ t, exec (.triggerFire i dt busy ready bad) s = .next t ∧
        t.bt TU_CYCSTAT (u.fl (TU_TRG_CTRL i.val) 15 0 % 16) = true ∧
        t.fl (TU_TRG_STAT i.val) 31 16 = (u.fl (TU_TRG_STAT i.val) 31 16 + 1) % 2 ^ 16 ∧
        t.bt (TU_TRG_CTRL i.val) 31 = u.bt (TU_TRG_CTRL i.val) 30 ∧
        (u.bt (TU_TRG_CTRL i.val) 30 = true → trgTime t i.val = (trgTime u i.val + trgPer u i.val) % (2 ^ 48 * 10 ^ 9))) ∧
    (noSteps s → opens s m (TU_TRG_CTRL i.val) .tu → trgOfStore s i.val = false →
      (trgOn s i.val = false → trgBadEnable s i.val v = false → ∃ t, exec (.triggerEnable m i v) s = .next t ∧ t.resp = .ok 0 ∧
        t.fl (TU_TRG_CTRL i.val) 30 24 = fld v 30 24 ∧
        ((s.tb (fld v 29 28)).total ≤ trgTime s i.val * 2 ^ 32 → trgOn t i.val = true) ∧
        (trgTime s i.val * 2 ^ 32 < (s.tb (fld v 29 28)).total → bitAt v 30 = false →
          trgOn t i.val = false ∧ t.bt (TU_TRG_STAT i.val) 0 = true ∧ t.bt TU_IRQSTAT 0 = true)) ∧
      (fld v 27 24 < 7 → ∃ t, exec (.triggerDisable m i v) s = .next t ∧ t.resp = .ok 0 ∧ trgOn t i.val = false ∧
        t.fl (TU_TRG_CTRL i.val) 30 24 = fld v 30 24)) ∧
    (noSteps s → opens s m TU_TSQ_W3 .tu → ∃ t, exec (.tsqRead m) s = .next t ∧ t.resp = .ok (tsqWord s 3) ∧
      t.tsq = s.tsq.tail ∧ (s.tsq = [] → t.resp = .ok 0))

/-- Tier 2. The image store (R199, R202, R203, R205, R207, R212, R213, R222): defining a point, CEN set and cleared, PIN and
UNPIN, a window read and what it loads for its master, a point write by an engine, and the epoch read. -/
def Obligations.ImageStore : Prop :=
  ∀ (s : State) (m : Master) (v : Word) (p : Nat), noSteps s →
    (p = s.fl IMG_PTIDX 15 0 → opens s m IMG_PTW .img → s.bt IMG_CTRL 31 = false → bitAt v 7 = false → ptBadWord v = false →
      ptSize v ≠ 0 → ptClass v ≠ 6 → fld v 15 0 ≠ fld (s.pt p).entry 15 0 → inMapping s p = false →
      (inExport s p = false ∨ ptClass v ≠ 3) →
      imgCost (s.setPt p { entry := v, s0 := ⟨true, 0, List.replicate (ptSize v) 0, 0x80, 0, 0, 0⟩ }).img ≤ 4194304 →
      ∃ t, exec (.pointTableWrite m v) s = .next t ∧ t.resp = .ok 0 ∧
        t.pt p = { entry := v, s0 := ⟨true, 0, List.replicate (ptSize v) 0, 0x80, 0, 0, 0⟩ } ∧
        ∀ q, q ≠ p → t.pt q = s.pt q) ∧
    (∀ a b, a = s.fl IMG_TRIG 9 0 → b = s.fl IMG_TRIG 25 16 → opens s m IMG_CTRL .img → s.bt IMG_CTRL 31 = false →
      imgParamsOk s = true → s.imgE ≤ imgK0 s - 1 → imgK0 s < 2 ^ 48 → a ≠ b → trgOn s a = false → trgOn s b = false →
      ∃ t, exec (.commitEnable m v) s = .next t ∧ t.resp = .ok 0 ∧ t.bt IMG_CTRL 31 = true ∧ t.imgE = imgK0 s - 1 ∧
        t.bt TU_STATUS 0 = true ∧ trgOn t a = true ∧ trgOn t b = true ∧ trgPer t b = imgP s ∧
        t.fl (TU_TRG_CTRL a) 30 24 = 0x44 ∧ t.fl (TU_TRG_CTRL b) 30 24 = 0x45 ∧
        trgTime t a = (commitAt s (imgK0 s) - imgL s) % (2 ^ 48 * 10 ^ 9) ∧
        trgTime t b = commitAt s (imgK0 s) % (2 ^ 48 * 10 ^ 9)) ∧
    (opens s m IMG_CTRL .img → s.bt IMG_CTRL 31 = true → ∃ t, exec (.commitDisable m v) s = .next t ∧ t.bt IMG_CTRL 31 = false ∧
      trgOn t (s.fl IMG_TRIG 9 0) = false ∧ trgOn t (s.fl IMG_TRIG 25 16) = false ∧ t.bt TU_STATUS 0 = false ∧
      t.xpend = [] ∧ t.imgE = s.imgE ∧ t.img = s.img) ∧
    (opens s m IMG_PINCMD .img →
      (pinHeld s = false → ∃ t, exec (.imgPin m) s = .next t ∧ pinHeld t = true ∧ pinQ t = s.imgE % 2 ^ 64 ∧
        t.fl IMG_PINSTAT 20 16 = m.val) ∧
      (pinHeld s = true → s.fl IMG_PINSTAT 20 16 = m.val → ∃ t, exec (.imgUnpin m) s = .next t ∧ pinHeld t = false)) ∧
    (∀ (o : Fin 0x400000) sz tags c q, canIssue s m.val = true → admits m.val .imgWin = true → shut s m.val .imgWin = false →
      o.val % sz.bytes = 0 → pointRead s (o.val / 64) (bitAt (s.mrd m.val IMG_VIEW) 0) = some (c, q) →
      ∃ t, exec (.imgWindowRead m o sz tags .good) s = .next t ∧
        t.resp = .ok (BitVec.ofNat 32 (leNat ((List.range sz.bytes).map (fun i => slotByte c (o.val % 64 + i))))) ∧
        t.mrd m.val IMG_RQUAL = BitVec.ofNat 32 q ∧ t.mrd m.val IMG_RTS_NS = BitVec.ofNat 32 (c.ns % 2 ^ 30) ∧
        t.mrd m.val IMG_RTAG = BitVec.ofNat 32 c.tag ∧ t.img = s.img) ∧
    (∀ w x, p = fld v 15 0 → x = s.pt p → w = x.entry → opens s m IMG_WPUT .img → ptSize w ≠ 0 → ptClass w = 1 →
      m.val = 1 + ptWid w % 8 → bitAt s.wtsSet m.val = false →
      ∃ t, exec (.imgWput m v) s = .next t ∧ t.resp = .ok 0 ∧ (t.pt p).slot (writeSlot s x) =
        ⟨true, s.imgE + 1, ((List.range 64).map (fun i => BitVec.ofNat 8
          ((s.mrd m.val (IMG_WB (i / 4))).toNat / 2 ^ (8 * (i % 4))))).take (ptSize w),
          fld v 31 28 * 2 ^ 12 + (s.bt IMG_CTRL 30).toNat * 64 + fld v 19 16, (s.tb 0).ns, (s.tb 0).sec % 2 ^ 48,
          (s.tb 0).sub⟩ ∧
        visible (t.pt p) s.imgE = visible x s.imgE) ∧
    (opens s m IMG_EPOCH_LO .img → ∃ t, exec (.epochRead m) s = .next t ∧ t.resp = .ok (BitVec.ofNat 32 s.imgE) ∧
      t.mrd m.val IMG_EPOCH_HI = BitVec.ofNat 32 (s.imgE / 2 ^ 32))

/-- Tier 2. Export and import (R215, R216, R218, R219, R221): EN of a set, the abandoned set, the first frame of the IMG port's
highest class that has one ready, the miss check, and writes of a subscription and a mapping. -/
def Obligations.ExportImport : Prop :=
  ∀ (s : State) (m : Master) (v : Word), noSteps s →
    (∀ x : Fin 16, opens s m (IMG_XCFG x.val) .img →
      (s.bt (IMG_XCFG x.val) 31 = false → xBad s x.val v = false → ∃ t, exec (.exportEnable m x v) s = .next t ∧
        t.resp = .ok 0 ∧ t.bt (IMG_XCFG x.val) 31 = true ∧ t.fl (IMG_XCFG x.val) 6 0 = fld v 6 0) ∧
      ∃ t, exec (.exportDisable m x v) s = .next t ∧ t.resp = .ok 0 ∧ t.bt (IMG_XCFG x.val) 31 = false ∧
        t.fl (IMG_XCFG x.val) 6 0 = fld v 6 0 ∧ t.fl (IMG_XCFG x.val) 30 27 = fld v 30 27) ∧
    (∀ (x : Fin 16) dt u, u = elapse s dt → inReset u blkImg = false → u.xpend.any (fun f => f.set == x.val) = true →
      commitAt u u.imgE + (u.rd (IMG_XOFF x.val)).toNat ≤ now0 u + 1000 → ∃ t, exec (.exportLate x 0 dt) s = .next t ∧
      t.xpend = u.xpend.filter (fun f => f.set != x.val) ∧
      t.fl IMG_CNT_EXP 31 16 = min (2 ^ 16 - 1) (u.fl IMG_CNT_EXP 31 16 + 1) ∧ t.bt IMG_IRQSTAT 1 = true) ∧
    (∀ dt u q x r, u = elapse s dt → inReset u blkImg = false → swLive u = true → 112 ≤ q → q < 120 → swQueue u q = x :: r →
      waitsLaunch u q x = false → (∀ p < 120, p ≤ q ∨ (swQueue u p).head?.all (waitsLaunch u p) = true) →
      exec (.importFrame dt) s = .next (close (importFrame
        (if x.bad then popHead u q else (popHead u q).wrapInc (SW_P_CNT1 14) 31 0) (copyBytes x) x.bad)) ∧
      (x.bad = true → ∃ t, exec (.importFrame dt) s = .next t ∧ t.img = u.img ∧
        t.fl IMG_CNT_IMP 31 16 = min (2 ^ 16 - 1) (u.fl IMG_CNT_IMP 31 16 + 1) ∧ t.bt IMG_IRQSTAT 4 = true)) ∧
    (∀ dt u, u = elapse s dt → inReset u blkImg = false → u.missDue = true → u.bt IMG_CTRL 31 = true →
      commitAt u u.imgE + imgD u ≤ now0 u → (u.subs.map (·.1)).Nodup → ∃ t, exec (.importMissCheck dt) s = .next t ∧
      t.missDue = false ∧ ∀ i, (i, u.sub i) ∈ u.subs → bitAt (u.sub i).w0 31 = true → (u.sub i).last ≠ some u.imgE →
        (t.sub i).miss = min 65535 ((u.sub i).miss + 1) ∧ t.bt IMG_IRQSTAT 3 = true) ∧
    (∀ i, i = s.fl IMG_SBIDX 7 0 → opens s m IMG_SBW0 .img → bitAt (s.sub i).w0 31 = false →
      bitAt v 31 = false ∨ (fld v 29 16 ≠ s.fl IMG_DEVID 13 0 ∧ s.subs.all (fun e => e.1 == i || !bitAt e.2.w0 31 ||
        fld e.2.w0 29 16 != fld v 29 16 || fld e.2.w0 3 0 != fld v 3 0) = true) →
      ∃ t, exec (.subscriptionWrite m v) s = .next t ∧ t.resp = .ok 0 ∧
        t.sub i = { s.sub i with w0 := v &&& 0xBFFF000F }) ∧
    (∀ i (w1 : Bool) x, i = s.fl IMG_MPIDX 11 0 → opens s m (if w1 then IMG_MPW1 else IMG_MPW0) .img →
      x = (if w1 then { s.mapg i with w1 := v } else { s.mapg i with w0 := v &&& 0x800000FF }) →
      bitAt (s.sub (fld (s.mapg i).w0 7 0)).w0 31 = false → bitAt (s.sub (fld x.w0 7 0)).w0 31 = false →
      (bitAt x.w0 31 = true → mapOk s i x = true) →
      ∃ t, exec (.mappingWrite m w1 v) s = .next t ∧ t.resp = .ok 0 ∧ t.mapg i = x ∧ ∀ j, j ≠ i → t.mapg j = s.mapg j)

/-- Tier 2. The commands of a Huxon sequencer (R240, R241, R253, R265, R266): START of a good schedule enters LISTEN; STOP waits
for the end of the cycle in ACTIVE; HALT enters STOPPED at once; the dusk frame, the claim and the grant are queued and
withdrawn. -/
def Obligations.HuxonCommands : Prop :=
  ∀ (s : State) (m : Master) (n : Fin 32) (k : Nat) (v : Word), k = n.val → noSteps s → noOverdueFrame s →
    (opens s m (HX_CTRL k) (.hx k) →
      (∀ s0 s1 l, hxState s k = 0 → s0 = s.setBt (HX_STATUS k) 25 false →
        hxRead s0 k (s0.rd (HX_SCHBASE k)).toNat (16 * hxSlots s0 k) = (s1, some l) → noSteps s1 → startOk s1 k = true →
        badSlot s1 k = none → ∃ t, exec (.hxStart m n) s = .next t ∧ t.resp = .ok 0 ∧ hxState t k = 1 ∧ (t.hx k).tx = none ∧
          (t.hx k).since = s1.cycles) ∧
      (hxState s k = 4 → ∃ t, exec (.hxStop m n) s = .next t ∧ hxState t k = 4 ∧ (t.hx k).stopping = true) ∧
      (hxState s k = 1 ∨ hxState s k = 2 ∨ hxState s k = 3 ∨ hxState s k = 6 →
        ∃ t, exec (.hxStop m n) s = .next t ∧ hxState t k = 0) ∧
      (hxState s k ≠ 0 → ∃ t, exec (.hxHalt m n) s = .next t ∧ hxState t k = 0 ∧ (t.hx k).tx = none)) ∧
    (opens s m (HX_DTXCTL k) (.hx k) → fld v 7 0 < 128 →
      (s.bt (HX_DTXCTL k) 31 = false → ∃ t, exec (.duskTxQueue m n v) s = .next t ∧ t.resp = .ok 0 ∧
        t.bt (HX_DTXCTL k) 31 = true ∧ t.fl (HX_DTXCTL k) 29 24 = fld v 29 24 ∧ t.fl (HX_DTXCTL k) 7 0 = fld v 7 0 ∧
        t.fl (HX_DTXCTL k) 15 8 = 0) ∧
      ((s.hx k).tx = none → (s.bt (HX_DTXCTL k) 31 = true → fld v 29 24 = s.fl (HX_DTXCTL k) 29 24 ∧
        fld v 7 0 = s.fl (HX_DTXCTL k) 7 0) → ∃ t, exec (.duskTxWithdraw m n v) s = .next t ∧ t.resp = .ok 0 ∧
        t.bt (HX_DTXCTL k) 31 = false)) ∧
    (opens s m (HX_CLAIM k) (.hx k) →
      (hxRole s k = 0 → 1 ≤ hxAddr s k → hxAddr s k ≤ 62 → hxState s k = 4 → polledAddr s k (hxAddr s k) = false →
        s.fl (HX_CLAIM k) 7 0 = 0xFF → fld v 23 16 = 0xFF ∨ isTwilight s k (fld v 23 16) = true →
        ∃ t, exec (.claimWrite m n v) s = .next t ∧ t.resp = .ok 0 ∧ t.bt (HX_CLAIM k) 31 = true ∧
          t.fl (HX_CLAIM k) 23 16 = fld v 23 16) ∧
      ((s.hx k).tx = none → ∃ t, exec (.claimWithdraw m n v) s = .next t ∧ t.resp = .ok 0 ∧ t.bt (HX_CLAIM k) 31 = false ∧
        t.fl (HX_CLAIM k) 7 0 = s.fl (HX_CLAIM k) 7 0)) ∧
    (opens s m (HX_GRANT k) (.hx k) → hxState s k = 5 → isTwilight s k (fld v 23 16) = true →
      fld v 5 0 ≠ 63 → (s.hx k).grants.length < 8 → ∃ t, exec (.grantWrite m n v) s = .next t ∧ t.resp = .ok 0 ∧
        (bitAt v 31 = true → (t.hx k).grants = (s.hx k).grants ++ [(fld v 23 16, fld v 5 0, 0)] ∧
          t.fl (HX_GRSTAT k) 3 0 = (s.hx k).grants.length + 1) ∧
        (bitAt v 31 = false → (t.hx k).grants = (s.hx k).grants))

/-- Tier 2. Frames a sequencer sends and receives (R232, R234, R236, R238, R240, R244, R245, R254, R258): the dawn and the
poll of a master, the response of a node, a dusk message, a received frame, and a dawn heard in LISTEN. The timers of a
sequencer (R237, R245, R253, R255, R256, R258, R260, R261, R263, R264): each, once its instant has come, changes the state as
its rule says. -/
def Obligations.HuxonFramesAndTimers : Prop :=
  (∀ (s : State) (n : Fin 32) (k dt : Nat) (u : State), k = n.val → u = elapse s dt → hxLive u k = true →
     (∀ r, hxState u k = 5 → (u.hx k).first = false → (u.hx k).stopping = false → u.bt (HX_EVCFG k) 15 = false → (u.hx k).exp ≤ u.cycles →
       r = hxSendDawn u k (u.hx k).exp false → exec (.dawnSend n dt) s = .next (close (pulsesNow r.1 r.2)) ∧
         r.1.fl (HX_CYCNT k) 15 0 = (u.fl (HX_CYCNT k) 15 0 + 1) % 65536 ∧ (r.1.hx k).ref = (u.hx k).exp ∧
         (r.1.hx k).exp = (u.hx k).exp + hxLen u k ∧ r.1.bt (HX_IRQSTAT k) 0 = true ∧
         (r.1.hx k).tx.map (fun x => (x.typ, x.endAt)) = some (1, (u.hx k).exp + hxDur u k 16)) ∧
     (∀ j c0 s1 s2 q e a, j = (u.hx k).next → c0 = (u.hx k).ref + (hxEntry u k j).start → hxState u k = 5 →
       (u.hx k).first = false → j < hxSlots u k → c0 ≤ u.cycles →
       s1 = ((u.setHx k { u.hx k with next := j + 1, await := none, late := none }).setFl (HX_STATUS k) 23 16 j).setFl
         (HX_STATUS k) 15 14 1 → hxFetched s1 k j = (s2, q) → q.ok = true → e = hxEntryOf q.entry →
       a = (if e.kind = 2 then twAddr s2 k j else e.addr % 64) → a ≠ 0 → a ≠ hxAddr s2 k →
       ∃ v, exec (.pollSend n false dt) s = .next (close (pulsesNow v (hxSlotPulse v k))) ∧ (v.hx k).await = some j ∧
         (v.hx k).tx.map (fun x => (x.typ, x.slot, x.endAt)) = some (2, j, c0 + hxDur s2 k q.data.length)) ∧
     (∀ j e c0 s1 s3 q, (u.hx k).due = some j → e = hxEntry u k j → c0 = (u.hx k).ref + e.start + actionOff u k e →
       hxState u k = 4 → c0 ≤ u.cycles → u.bt (HX_STATUS k) 27 = false → s1 = u.setHx k { u.hx k with due := none } →
       hxFetched s1 k j = (s3, q) → q.ok = true →
       ∃ v, exec (.respSend n false dt) s = .next (close (pulsesNow v (hxSlotPulse s1 k))) ∧ (v.hx k).due = none ∧
         (v.hx k).tx.map (fun x => (x.typ, x.slot, x.endAt)) = some (3, j, c0 + hxDur s3 k q.data.length)) ∧
     (hxState u k = 4 ∨ hxState u k = 5 → u.fl (HX_STATUS k) 15 14 = 2 → u.bt (HX_STATUS k) 27 = false → hxAddr u k ≠ 63 → (u.hx k).tx = none →
       u.bt (HX_CLAIM k) 31 = false → u.bt (HX_DTXCTL k) 31 = true →
       max ((u.hx k).ref + hxDusk u k) (u.hx k).idleFrom + (12 + 2 * hxAddr u k) * hxTb u k ≤ u.cycles →
       u.cycles + hxDur u k (duskPayload u k).length + hxG u k ≤ (u.hx k).ref + hxLen u k →
       exec (.duskSend n dt) s = .next (close (hxTransmit u k 6 0xFF u.cycles (hxAddr u k) false (duskPayload u k)))) ∧
     (∀ l framing len v r ts o, hxHears u k = true → (∀ t ∈ hxNextDue u k, u.cycles + len < t) →
       v = elapse (hxHear u k) len → r = hxReceive v k l framing u.cycles (u.tb 0) → ts = hxStamp v k (u.tb 0) →
       o = ((u.cycles : Int) + stampDiff ts (u.tb 0)).toNat - (v.hx k).ref →
       exec (.hxFrameReceive n l framing dt len) s = .next (close (pulsesNow r.1 r.2)) ∧
         (l.length < 3 ∨ (framing = true ∧ hxFormatOk (l.take (max 3 (hxBytes (l.getD 2 0).toNat))) = true) →
           recordSlot v k o = none → r.2 = [] ∧ (r.1.hx k).idleFrom = v.cycles ∧
           r.1.fl (HX_CNT_ERR k) 23 16 = min (2 ^ 8 - 1) (v.fl (HX_CNT_ERR k) 23 16 + 1) ∧ hxState r.1 k = hxState v k)) ∧
     (∀ robs p ts f r, hxState u k = 1 → r = hxAccept u k robs p ts f → hxState r.1 k = 3 ∧ (r.1.hx k).ref = robs ∧
       r.1.fl (HX_CYCNT k) 15 0 = leNat (p.take 2) % 65536 ∧ r.1.bt (HX_IRQSTAT k) 0 = true ∧ r.2 = hxDawnPulse u k)) ∧
  (∀ (s : State) (n : Fin 32) (k dt : Nat) (u : State), k = n.val → u = elapse s dt → inReset u (blkHx k) = false →
     (∀ (j : Fin 256) e, hxState u k = 5 → j.val < hxSlots u k → (u.hx k).recd.contains j.val = false →
       (u.hx k).await = some j.val → e = hxEntry u k j.val → (u.hx k).ref + e.start + actionOff u k e + hxW u k ≤ u.cycles →
       exec (.responseWindowClose n j dt) s =
         .next (close (hxRecord (u.setHx k { u.hx k with await := none, late := some j.val }) k j.val 1 false none []))) ∧
     (∀ (j : Fin 256), hxState u k = 4 → j.val < hxSlots u k → (u.hx k).recd.contains j.val = false →
       slotAddr u k j.val = hxAddr u k → hxAddr u k ≠ 63 → (u.hx k).ref + (hxEntry u k j.val).start + hxW u k ≤ u.cycles →
       exec (.responseWindowClose n j dt) s =
         .next (close (hxRecord (u.setHx k { u.hx k with late := some j.val }) k j.val 1 false none []))) ∧
     (hxState u k = 4 ∨ hxState u k = 5 → (u.hx k).first = false → (u.hx k).ref + hxDusk u k ≤ u.cycles →
       u.fl (HX_STATUS k) 15 14 ≠ 2 → ∃ t, exec (.duskStart n dt) s = .next t ∧ t.fl (HX_STATUS k) 15 14 = 2 ∧
         (t.hx k).await = none ∧ (t.hx k).due = none ∧ hxState t k = hxState u k) ∧
     (∀ x, hxLive u k = true → (u.hx k).tx = some x → x.typ = 3 ∨ x.typ = 6 → ∃ t, exec (.readbackError n dt) s = .next t ∧
       (t.hx k).tx = none ∧ (t.hx k).idleFrom = (if x.typ = 3 then u.cycles else (u.hx k).idleFrom) ∧
       t.fl (HX_CNT_ERR k) 7 0 = min (2 ^ 8 - 1) (u.fl (HX_CNT_ERR k) 7 0 + 1)) ∧
     (hxState u k = 1 → hxRank u k ≠ 0 → (u.hx k).since + 2 * hxLen u k + hxRank u k * hxU u k ≤ u.cycles →
       exec (.listenTimeout n dt) s = .next (close (daybreakSend (hxGo u k 2) k)) ∧
       ∃ t, exec (.listenTimeout n dt) s = .next t ∧ hxState t k = 2 ∧
         t.fl (HX_CNT_SU k) 31 24 = min (2 ^ 8 - 1) (u.fl (HX_CNT_SU k) 31 24 + 1)) ∧
     (hxState u k = 2 → (u.hx k).brk = 2 → (u.hx k).since + 5 * hxU u k ≤ u.cycles →
       ∃ t, exec (.confirmationEnd n dt) s = .next t ∧ hxState t k = 5 ∧ (t.hx k).first = true ∧ (t.hx k).exp = u.cycles ∧
         t.rd (HX_CORR k) = 0) ∧
     (hxState u k = 2 → (u.hx k).brk = 4 → (u.hx k).since + hxRank u k * hxU u k ≤ u.cycles →
       exec (.daybreakBackoffEnd n dt) s = .next (close (daybreakSend u k)) ∧
       ∃ t, exec (.daybreakBackoffEnd n dt) s = .next t ∧
         t.fl (HX_CNT_SU k) 31 24 = min (2 ^ 8 - 1) (u.fl (HX_CNT_SU k) 31 24 + 1)) ∧
     ((u.hx k).ref + hxLen u k + 4 * hxBk u k + hxW u k ≤ u.cycles →
       (hxState u k = 3 → ∃ t, exec (.dawnWindowClose n dt) s = .next t ∧ hxState t k = 1) ∧
       (hxState u k = 4 → u.fl (HX_SUSTAT k) 1 0 < 2 → ∃ t, exec (.dawnWindowClose n dt) s = .next t ∧ hxState t k = 4 ∧
         t.bt (HX_STATUS k) 27 = true ∧ (t.hx k).ref = (u.hx k).ref + hxLen u k ∧
         t.fl (HX_SUSTAT k) 1 0 = u.fl (HX_SUSTAT k) 1 0 + 1 ∧
         t.fl (HX_CYCNT k) 15 0 = (u.fl (HX_CYCNT k) 15 0 + 1) % 65536)) ∧
     (hxState u k = 6 → (u.hx k).since + hxLen u k ≤ u.cycles → ∃ t, exec (.passiveTimeout n dt) s = .next t ∧
       hxState t k = 1 ∧ (t.hx k).since = u.cycles) ∧
     (∀ i a r, standby u k = some i → a = (u.hx k).ref + hxLen u k + i * hxBk u k → hxState u k = 4 → hxBk u k ≠ 0 →
       u.bt (HX_STATUS k) 27 = false → (u.hx k).stopping = false → a ≤ u.cycles →
       (u.hx k).heard + hxW u k ≤ (u.hx k).ref + hxLen u k →
       r = hxSendDawn ((((hxGo u k 5).satInc (HX_CNT_SU k) 15 8).raise (HX_SUSTAT k) 0x20000000).setHx k
         { u.hx k with lost := 0 }) k a true →
       exec (.backupTakeover n dt) s = .next (close (pulsesNow r.1 r.2)) ∧ hxState r.1 k = 5 ∧ (r.1.hx k).ref = a) ∧
     (hxState u k ≠ 0 → hxState u k ≠ 6 → (u.hx k).stopping = true → (u.hx k).ref + hxLen u k ≤ u.cycles →
       ∃ t, exec (.stopCycleFinished n dt) s = .next t ∧ hxState t k = 0 ∧ (t.hx k).stopping = false ∧ (t.hx k).tx = none))

/-- Tier 2. The CAN controllers (R270 to R272, R275, R276, R278 to R280): START, STOP and POP; REQUEST and ABORT of a buffer; the
choice of a buffer and the end of its attempt; a frame heard from its start to its end, and stored; errors, bus-off and its recovery; a protocol exception. -/
def Obligations.CanControllers : Prop :=
  ∀ (s : State) (m : Master) (n : Fin 32) (b : Fin 3) (v : Word) (k : Nat), k = n.val → noSteps s →
    (opens s m (CAN_CTRL k) (.can k) →
      (canState s k = 0 → canBound s k = true → canTimingOk s k = true → ∃ t, exec (.canStart m n) s = .next t ∧
        t.resp = .ok 0 ∧ canState t k = 1 ∧ canTec t k = 0 ∧ canRec t k = 0) ∧
      (canState s k = 1 ∨ canState s k = 2 → s.bt (CAN_STATUS k) 27 = false →
        ∃ t, exec (.canStop m n) s = .next t ∧ canState t k = 0) ∧
      (canState s k = 3 → ∃ t, exec (.canStop m n) s = .next t ∧ canState t k = 3 ∧ t.bt (CAN_STATUS k) 25 = true)) ∧
    (opens s m (CAN_TXB_CTRL k b.val) (.can k) →
      (s.bt (CAN_TXB_STAT k b.val) 31 = false → canInconsistent s k v (s.rd (CAN_TXB_ID k b.val)) = false →
        ∃ t, exec (.canRequest m n b v) s = .next t ∧ t.resp = .ok 0 ∧ t.bt (CAN_TXB_STAT k b.val) 31 = true ∧
          t.fl (CAN_TXB_CTRL k b.val) 7 0 = fld v 7 0) ∧
      (s.bt (CAN_TXB_STAT k b.val) 31 = true → ∃ t, exec (.canAbort m n b) s = .next t ∧ t.resp = .ok 0 ∧
        (s.bt (CAN_TXB_STAT k b.val) 30 = false →
          t.bt (CAN_TXB_STAT k b.val) 31 = false ∧ t.fl (CAN_TXB_STAT k b.val) 2 0 = 4) ∧
        (s.bt (CAN_TXB_STAT k b.val) 30 = true → t.bt (CAN_TXB_STAT k b.val) 31 = true ∧ canAbortWait t k b.val = true))) ∧
    (∀ x r, opens s m (CAN_RXCMD k) (.can k) → canFifo s k = x :: r → ∃ t, exec (.canPop m n) s = .next t ∧ t.resp = .ok 0 ∧
      canFifo t k = r) ∧
    (canIn s k 1 = true → ∃ t, exec (.canIntegrationDone n) s = .next t ∧ canState t k = 2) ∧
    (∀ c, canIn s k 2 = true → s.bt (CAN_STATUS k) 27 = false → s.fl (CAN_CFG k) 1 0 ≠ 1 →
      canChoose s k (canRequested s k) = some c → ∃ t, exec (.canTxSelect n) s = .next t ∧
      t.bt (CAN_TXB_STAT k c) 30 = true ∧ t.bt (CAN_STATUS k) 27 = true) ∧
    (∀ dt len (f : CanFrame) u z w own ns sec sub src, u = elapse s dt → canIn u k 2 = true → canHears u k = true →
      (f.fdf = true → u.bt (CAN_CFG k) 2 = true) → z = canFrameStart u k → own = smGet (z.tb 0) z.canSof k → w = elapse z len →
      canIn w k 2 = true → f.rtr = false → w.bt (CAN_CFG k) 6 = false → (canFifo w k).length < 32 →
      canStamp w k true own = (ns, sec, sub, src) → z.bt (CAN_STATUS k) 26 = true ∧
      ∃ t, exec (.canFrameReceive n f dt len) s = .next t ∧ t.bt (CAN_STATUS k) 26 = false ∧
        canFifo t k = canFifo w k ++ [{ frame := f, fidx := 31, tssrc := src, ns := ns, sec := sec, sub := sub }]) ∧
    (∀ dt len loop e u z r c, u = elapse s dt → canIn u k 2 = true → canActive u k = some c → canEndOk u k e = true →
      z = elapse (pulsesCan u (canSofPulse u k)) len → r = canTxEnd z k e (u.tb 0) loop →
      exec (.canTxEnd n e dt len loop) s = .next (close (pulsesCan r.1 r.2)) ∧
        (canActive z k = some c → r.1.bt (CAN_TXB_STAT k c) 30 = false ∧
          (e = .sent → r.1.bt (CAN_TXB_STAT k c) 31 = false ∧ r.1.fl (CAN_TXB_STAT k c) 2 0 = 1))) ∧
    (∀ lec : Fin 8, canIn s k 2 = true → s.fl (CAN_CFG k) 1 0 ≠ 1 →
      (∃ t, exec (.canError n lec .transmitter) s = .next t ∧ t.fl (CAN_STATUS k) 18 16 = lec.val ∧
        t.fl (CAN_CNT k) 15 8 = min (2 ^ 8 - 1) (s.fl (CAN_CNT k) 15 8 + 1) ∧
        (canTec s k < 248 → canTec t k = canTec s k + 8 ∧ canState t k = 2) ∧ (248 ≤ canTec s k → canState t k = 3)) ∧
      (canHears s k = true → s.bt (CAN_STATUS k) 27 = false → ∃ t, exec (.canError n lec .receiver) s = .next t ∧
        t.fl (CAN_STATUS k) 18 16 = lec.val ∧ canRec t k = min 255 (canRec s k + 1) ∧ t.bt (CAN_STATUS k) 26 = false)) ∧
    (∀ j, canIn s k 3 = true → 128 ≤ s.fl (CAN_STATUS k) 7 0 + j → s.bt (CAN_STATUS k) 25 = false →
      bitAt s.canStopping k = false → ∃ t, exec (.busoffRecovery n j) s = .next t ∧ canState t k = 2 ∧ canTec t k = 0 ∧
        canRec t k = 0) ∧
    (canIn s k 2 = true → canHears s k = true → ∃ t, exec (.canProtocolException n) s = .next t ∧ canState t k = 1 ∧
      t.fl (CAN_CNT k) 23 16 = min (2 ^ 8 - 1) (s.fl (CAN_CNT k) 23 16 + 1))

/-- Tier 2. Frames through the switch (R184, R285, R289, R292, R295, R298, R299, R304, R307, R309): a received frame after the lookup goes to
each egress port and a short one is counted; the highest ready class is sent; launches, in time and late, descriptors, PFC with its
pauses, a waiting privileged copy, the PRP table and sequence recovery. -/
def Obligations.SwitchFrames : Prop :=
  ∀ (s : State) (p : Fin 12) (dt : Nat) (u : State), u = elapse s dt → swLive u = true → linkUp u p.val = true →
    (∀ d busy (sub : Fin 8) rest (csub : Fin 8) x y w w1 f, w = elapse u rest → swLive w = true → linkUp w p.val = true →
      60 ≤ d.length → d.length + 4 ≤ maxLen w p.val → beNat ((d.drop 12).take 2) ≠ 0x8808 → hashPass w p.val (d.take 6) = true →
      portState w p.val ≠ 0 → prpPair w p.val = none → x = parseFrame d → ptpEvent w x.body = none →
      y = { da := x.da, sa := x.sa, tci := x.tci, rseq := x.rseq, body := x.body, len := d.length + 4, src := p.val, cls := 0,
            sec := (split125 (ingressAt u p.val 0 sub.val)).1, ns := (split125 (ingressAt u p.val 0 sub.val)).2.1,
            sub := (split125 (ingressAt u p.val 0 sub.val)).2.2, tIn := ingressAt u p.val 0 sub.val, bad := false } →
      forward (w.wrapInc (SW_P_CNT0 p.val) 31 0) y none = (w1, some f) → noSteps (sendAll w1 f busy csub.val) →
      exec (.frameForward p d .good busy dt sub rest csub ⟨0, .good⟩) s = .next (close (sendAll w1 f busy csub.val))) ∧
    (∀ d busy (sub : Fin 8) (csub : Fin 8) (e : EccSeen), noSteps u → d.length < 60 → d.length + 4 ≤ maxLen u p.val →
      ∃ t, exec (.frameForward p d .good busy dt sub 0 csub e) s = .next t ∧ t.swq = u.swq ∧ t.fdb = u.fdb ∧
        t.fl (SW_P_CNT2 p.val) 15 8 = min (2 ^ 8 - 1) (u.fl (SW_P_CNT2 p.val) 15 8 + 1)) ∧
    (∀ (sub : Fin 8) c x r, bitAt u.serCal (p.val + 2) = false → nextClass u p.val = some c →
      swQueue u (8 * p.val + c) = x :: r → exec (.frameTransmit p dt sub ⟨0, .good⟩) s =
        .next (close (popHead (sendCopy u p.val x sub.val false) (8 * p.val + c)))) ∧
    (∀ (c : Fin 8) (q : Fin 16), q.val = p.val → swLive s = true → held s p.val c.val = true →
      smGet 0 s.pfcAt (8 * p.val + c.val) + quantaTime s p.val (s.fl (SW_P_PFC p.val) 15 0 / 2) ≤ s.cycles →
      ∃ t, exec (.pfcRefresh q c) s = .next t ∧
      t.fl (SW_P_CNT4 p.val) 15 0 = min (2 ^ 16 - 1) (s.fl (SW_P_CNT4 p.val) 15 0 + 1)) ∧
    (∀ v qs, swLive s = true → linkUp s p.val = true → ∃ t, exec (.pfcFrameReceive p v qs) s = .next t ∧
      t.fl (SW_P_CNT4 p.val) 31 16 = min (2 ^ 16 - 1) (s.fl (SW_P_CNT4 p.val) 31 16 + 1) ∧
      ∀ c < 8, smGet 0 t.swPause (8 * p.val + c) = if bitAt v c && s.bt (SW_P_PFC p.val) (16 + c) then s.cycles + quantaTime s p.val (qs.getD c 0 % 65536)
        else smGet 0 s.swPause (8 * p.val + c)) ∧
    (∀ c : Fin 8, (paused s p.val c.val = true → exec (.pfcPauseEnd p c) s = .next (close s)) ∧
      (paused s p.val c.val = false → ∃ t, exec (.pfcPauseEnd p c) s = .next t ∧ smGet 0 t.swPause (8 * p.val + c.val) = 0 ∧
        ∀ i, i ≠ 8 * p.val + c.val → smGet 0 t.swPause i = smGet 0 s.swPause i)) ∧
    (∀ q : Fin 128, 96 ≤ q.val → q.val / 8 ≠ 14 → swLive s = true →
      (∀ c < 128, c ≤ q.val ∨ c / 8 ≠ q.val / 8 ∨ swQueue s c = []) → exec (.privCopyResume q) s =
      .next (close (deliver q.val (swQueue s q.val).length s))) ∧
    (∀ (q : Fin 96) (x : SwCopy) r n, q.val / 8 = p.val → swQueue u q.val = x :: r → x.lt = some n →
      u.fl (SW_Q_CFG q.val) 30 29 = 1 → x.late = false → n ≤ now0 u → now0 u - n ≤ launchLimit u p.val →
      smGet 0 u.headAt q.val + 1000 + (now0 u - n) ≤ u.cycles → portBusy u p.val = false → gateOpen u p.val (q.val % 8) = true →
      gateFits u p.val (q.val % 8) (outLen x) = true → paused u p.val (q.val % 8) = false →
      exec (.launchTimeReached q dt false) s = .next (close (popHead (sendCopy u p.val x 0 false) q.val))) ∧
    (∀ (q : Fin 96) (x : SwCopy) r n, swQueue u q.val = x :: r → x.lt = some n → u.fl (SW_Q_CFG q.val) 30 29 = 1 →
      x.late = false → n ≤ now0 u → u.bt (SW_Q_CFG q.val) 28 = false → ∃ t, exec (.launchTimeReached q dt true) s = .next t ∧
      swQueue t q.val = { x with late := true } :: r ∧
      t.fl (SW_Q_LATE q.val) 31 16 = min (2 ^ 16 - 1) (u.fl (SW_Q_LATE q.val) 31 16 + 1)) ∧
    (∀ (r : Fin 128) h bytes d len fl s1 s2 s3 w, swLive s = true → r.val / 32 ≠ 2 → s.bt (SW_R_CFG r.val) 31 = true →
      s.bt (SW_R_CFG r.val) 30 = true → s.fl (SW_R_HWPTR r.val) 15 0 ≠ s.fl (SW_R_SWPTR r.val) 15 0 →
      d = (s.rd (SW_R_BASE r.val)).toNat + 32 * s.fl (SW_R_HWPTR r.val) 15 0 → memRead s 13 d 18 = (s1, some h) →
      len = leNat ((h.drop 4).take 2) → fl = (h.getD 7 0).toNat → 14 ≤ len → h.getD 6 0 = 255 →
      held s1 (12 + r.val / 32) (fl % 8) = false → memRead s1 13 (leNat (h.take 4)) len = (s2, some bytes) → fl < 64 →
      internalSend s2 (12 + r.val / 32) bytes (fl % 8) none false (fl / 32 % 2 == 1) none = some s3 →
      w = txAnswer s3 r.val d false → noSteps w → exec (.txDescriptor r) s = .next (close w)) ∧
    (∀ (k : Fin 6) e r, prpTable u k.val = e :: r → e.at_ + u.fl (SW_PRP_CFG k.val) 15 0 * 1000000 ≤ u.cycles → e.a = true →
      e.b = false → ∃ t, exec (.prpForget k dt) s = .next t ∧ prpTable t k.val = r ∧
      t.fl (SW_PRP_CNT1 k.val) 31 16 = min (2 ^ 16 - 1) (u.fl (SW_PRP_CNT1 k.val) 31 16 + 1)) ∧
    (∀ i : Fin 1024, s.bt (SW_ST_W0 i.val) 31 = true → s.bt (SW_ST_W1 i.val) 13 = true →
      (smGet {} s.recs i.val).takeAny = false →
      (smGet {} s.recs i.val).at_ + s.fl (SW_ST_W2 i.val) 31 16 * 1000000 ≤ s.cycles → ∃ t, exec (.seqRecoveryReset i) s = .next t ∧
      (smGet {} t.recs i.val).takeAny = true ∧
      t.fl (SW_ST_W7 i.val) 31 16 = min (2 ^ 16 - 1) (s.fl (SW_ST_W7 i.val) 31 16 + 1))

/-- Tier 2. The forwarding database, gates, links and rings (R284, R290, R291, R300, R302, R305, R309): the four FDB commands and
ageing, a gate cycle, its entries and a bank swap, a link up, down and restarted, a ring's registers, and a PRP pair enabled. -/
def Obligations.SwitchControl : Prop :=
  ∀ (s : State) (m : Master) (v : Word), noSteps s →
    (∀ mac vid e, opens s m SW_FDB_CMD .sw → fdbRuns s = false → mac = (s.rd SW_FDB_MACLO).toNat + s.fl SW_FDB_MACHI 15 0 * 2 ^ 32 →
      vid = s.fl SW_FDB_MACHI 27 16 →
      e = { mac := mac, vid := vid, static := true, smatch := s.bt SW_FDB_DATA 29, stren := s.bt SW_FDB_DATA 28,
            stream := s.fl SW_FDB_DATA 27 16, ports := s.fl SW_FDB_DATA 15 0 } →
      (∃ t, exec (.fdbRead m) s = .next t ∧ t.bt SW_FDB_CMD 0 = (fdbFind s mac vid).isSome ∧
        t.bt SW_FDB_DATA 31 = (fdbFind s mac vid).isSome ∧
        ∀ x, fdbFind s mac vid = some x → t.fl SW_FDB_DATA 15 0 = x.ports % 65536 ∧ t.bt SW_FDB_DATA 30 = x.static) ∧
      ((fdbPut s e).isSome = true → ∃ t, exec (.fdbWrite m) s = .next t ∧ t.bt SW_FDB_CMD 1 = false ∧
        fdbFind t mac vid = some e) ∧
      ((fdbPut s e).isSome = false → ∃ t, exec (.fdbWrite m) s = .next t ∧ t.bt SW_FDB_CMD 1 = true ∧ t.fdb = s.fdb) ∧
      (∃ t, exec (.fdbDelete m) s = .next t ∧ fdbFind t mac vid = none ∧
        t.bt SW_FDB_CMD 0 = (fdbFind s mac vid).isSome ∧
        ∀ a b, (a, b) ≠ (mac, vid) → fdbFind t a b = fdbFind s a b) ∧
      ∃ t, exec (.fdbFlush m) s = .next t ∧
        ∀ b ∈ t.fdb, ∀ x ∈ b.2, x.static = true ∨ x.ports &&& s.fl SW_FDB_DATA 15 0 = 0) ∧
    (swLive s = true → s.fl SW_AGE 15 0 ≠ 0 → s.ageAt + s.fl SW_AGE 15 0 * 1000000000 ≤ s.cycles → ∃ t, exec .fdbAgeing s = .next t ∧
      (∀ b ∈ t.fdb, ∀ x ∈ b.2, x.static = true ∨ x.idle < 2) ∧
      ∀ b ∈ s.fdb, ∀ x ∈ b.2, x.static = true → ∃ c ∈ t.fdb, c.1 = b.1 ∧ x ∈ c.2) ∧
    (∀ (p : Fin 12) dt u n i g, u = elapse s dt → g = gate u p.val → swLive u = true → u.bt (SW_P_GCTRL p.val) 31 = true →
      gCyc u p.val ≠ 0 → gBase u p.val ≤ now0 u → n = (now0 u - gBase u p.val) / gCyc u p.val → i = gBase u p.val + n * gCyc u p.val →
      g.since ≤ i → g.cycle ≠ some n → ∃ t, exec (.gateCycleStart p dt) s = .next t ∧
        gate t p.val = { g with cycle := some n, on := true, idx := 0, begun := u.cycles + 1 } ∧
        (u.bt (SW_P_GCTRL p.val) 29 = true → gChg u p.val ≤ i →
          gBank t p.val = 1 - gBank u p.val ∧ t.bt (SW_P_GCTRL p.val) 29 = false ∧ t.bt SW_IRQSTAT 3 = true)) ∧
    (∀ (p : Fin 12) dt u n g, u = elapse s dt → g = gate u p.val → g.cycle = some n → gatesRun u p.val = true →
      g.idx + 1 < gLen u p.val → gBase u p.val + n * gCyc u p.val + gSum u p.val (g.idx + 1) ≤ now0 u →
      ∃ t, exec (.gateEntryAdvance p dt) s = .next t ∧ gate t p.val = { g with idx := g.idx + 1, begun := u.cycles + 1 }) ∧
    (∀ p : Fin 12, opens s m (SW_P_GCTRL p.val) .sw → 1 ≤ fld v 24 16 → fld v 24 16 ≤ 256 → 1 ≤ fld v 8 0 → fld v 8 0 ≤ 256 →
      (bitAt v 31 = true → s.bt (SW_P_GCTRL p.val) 31 = true → fld v 24 16 = s.fl (SW_P_GCTRL p.val) 24 16 →
        fld v 8 0 = s.fl (SW_P_GCTRL p.val) 8 0 → ∃ t, exec (.gateSwap m p v) s = .next t ∧ t.bt (SW_P_GCTRL p.val) 29 = true ∧
          gBank t p.val = gBank s p.val ∧ gate t p.val = gate s p.val) ∧
      (bitAt v 31 = false → s.bt (SW_P_GCTRL p.val) 31 = false → ∃ t, exec (.gateSwap m p v) s = .next t ∧
        t.bt (SW_P_GCTRL p.val) 29 = false ∧ gBank t p.val = 1 - gBank s p.val)) ∧
    (∀ (p : Fin 12) (sp : Fin 8) half fec, swLive s = true → inReset s 28 = false → domOff s 26 = false →
      s.fl (SW_P_MODE p.val) 3 0 ≠ 0 → s.bt (SW_P_LINK p.val) 31 = false → ∃ t, exec (.linkUp p sp half fec) s = .next t ∧
      (half = true ∨ sp.val = 0 → linkUp t p.val = false ∧ t.bt (SW_P_LINK p.val) 30 = true) ∧
      (half = false → sp.val ≠ 0 → linkUp t p.val = true ∧ t.fl (SW_P_LINK p.val) 28 26 = sp.val ∧ t.bt SW_IRQSTAT 0 = true)) ∧
    (∀ p : Fin 12, s.bt (SW_P_LINK p.val) 31 = true → ∃ t, exec (.linkDown p) s = .next t ∧ linkUp t p.val = false ∧
      t.fl (SW_P_LINK p.val) 15 0 = min (2 ^ 16 - 1) (s.fl (SW_P_LINK p.val) 15 0 + 1) ∧ t.bt SW_IRQSTAT 0 = true) ∧
    (∀ p : Fin 12, opens s m (SW_P_MODE p.val) .sw → fld v 3 0 = 0 ∨ (p.val < 4 ∧ fld v 3 0 ≤ 5) ∨
      (4 ≤ p.val ∧ (fld v 3 0 = 6 ∨ fld v 3 0 = 7)) → ∃ t, exec (.lmodeWrite m p v) s = .next t ∧ t.resp = .ok 0 ∧
      t.fl (SW_P_MODE p.val) 3 0 = fld v 3 0 ∧ linkUp t p.val = false) ∧
    (∀ r : Fin 128,
      (opens s m (SW_R_CFG r.val) .sw →
        (s.bt (SW_R_CFG r.val) 31 = false → ringBad s r.val v = false → ∃ t, exec (.ringEnable m r v) s = .next t ∧
          t.resp = .ok 0 ∧ t.bt (SW_R_CFG r.val) 31 = true ∧ t.fl (SW_R_CFG r.val) 7 0 = fld v 7 0) ∧
        ∃ t, exec (.ringDisable m r v) s = .next t ∧ t.resp = .ok 0 ∧ t.bt (SW_R_CFG r.val) 31 = false) ∧
      (opens s m (SW_R_LEN r.val) .sw → s.bt (SW_R_CFG r.val) 31 = false → ∃ t, exec (.ringLenWrite m r v) s = .next t ∧
        t.fl (SW_R_LEN r.val) 15 0 = fld v 15 0 ∧ t.rd (SW_R_HWPTR r.val) = 0 ∧ t.rd (SW_R_SWPTR r.val) = 0)) ∧
    (∀ k : Fin 6, k.val < 2 → opens s m (SW_PRP_CFG k.val) .sw → fld v 15 0 ≠ 0 → portState s (2 * k.val) = 0 →
      portState s (2 * k.val + 1) = 0 → ∃ t, exec (.prpEnable m k v) s = .next t ∧ t.resp = .ok 0 ∧
      t.bt (SW_PRP_CFG k.val) 31 = true ∧ t.fl (SW_PRP_CFG k.val) 15 0 = fld v 15 0)

/-- Tier 2. Shared-memory ownership, mailboxes and locks (R317, R318, R321 to R323, R327, R329): each write and read that its
rule accepts, and a send refused because the mailbox is full. -/
def Obligations.MailboxesAndLocks : Prop :=
  ∀ (s : State) (m : Master) (v : Word), noSteps s →
    (∀ b : Fin 32, opens s m (MEM_OWN b.val) .mbx → owns s m.val b.val = true ∨ supervisor s m.val = true →
      (if bitAt v 8 then fld v 4 0 ≤ 7 else fld v 4 0 ≠ 0 ∧ reservedId (fld v 4 0) = false) →
      ∃ t, exec (.bankHandover m b v) s = .next t ∧ t.resp = .ok 0 ∧ t.rd (MEM_OWN b.val) = (s.rd (MEM_OWN b.val) &&& 0xFFFFFEE0) ||| (v &&& 0x11F) ∧
        ∀ i c, c ≠ b.val → owns t i c = owns s i c) ∧
    (∀ g : Fin 8, opens s m (MEM_GRP g.val) .mbx → supervisor s m.val = true →
      ∃ t, exec (.groupMembersWrite m g v) s = .next t ∧ t.resp = .ok 0 ∧
        t.rd (MEM_GRP g.val) = (s.rd (MEM_GRP g.val) &&& 0x7FFE0001) ||| (v &&& 0x8001FFFE)) ∧
    (∀ k : Fin 64, opens s m (MBX_PTR k.val) .mbx → mbxOn s k.val = true → mbxSrc s k.val = 0 ∨ mbxSrc s k.val = m.val →
      (mbxFull s k.val = false → v.toNat % 8 = 0 → 0x20000000 ≤ v.toNat → v.toNat ≤ 0x20FFFFFF → mbxOff s k.val = false →
        ∃ t, exec (.mailboxSend m k v) s = .next t ∧ t.resp = .ok 0 ∧ t.rd (MBX_PTR k.val) = v ∧ mbxFull t k.val = true ∧
          t.fl (MBX_TAG k.val) 15 0 = fld (s.mrd m.val MBX_TAGSTG) 15 0 ∧
          t.fl (MBX_STAT k.val) 15 0 = (s.fl (MBX_STAT k.val) 15 0 + 1) % 2 ^ 16) ∧
      (mbxFull s k.val = true → ∃ t, exec (.mailboxSend m k v) s = .next t ∧ t.resp = .err 3 ∧
        t.rd (MBX_PTR k.val) = s.rd (MBX_PTR k.val) ∧
        t.fl (MBX_STAT k.val) 23 16 = min (2 ^ 8 - 1) (s.fl (MBX_STAT k.val) 23 16 + 1))) ∧
    (∀ k : Fin 64, opens s m (MBX_PTR k.val) .mbx → m.val = mbxDst s k.val → mbxOff s k.val = false → mbxFull s k.val = true →
      ∃ t, exec (.mailboxReceive m k) s = .next t ∧ t.resp = .ok (s.rd (MBX_PTR k.val)) ∧ mbxFull t k.val = false) ∧
    (∀ k : Fin 64, opens s m (MBX_CFG k.val) .mbx → supervisor s m.val = true → mbxFull s k.val = false →
      reservedId (fld v 20 16) = false → reservedId (fld v 12 8) = false → fld v 12 8 ≠ 0 →
      ∃ t, exec (.mailboxConfig m k v) s = .next t ∧ t.resp = .ok 0 ∧ mbxSrc t k.val = fld v 20 16 ∧
        mbxDst t k.val = fld v 12 8 ∧ mbxOn t k.val = bitAt v 31) ∧
    (∀ (a b : Fin 64) dt u, u = elapse s dt → crossed u a.val b.val = true → mbxFull u a.val = true → mbxFull u b.val = true →
      (u.mbxAt a.val).ord ≤ (u.mbxAt b.val).ord → (u.mbxAt b.val).us ≠ 0 →
      (u.mbxAt b.val).at_ + (u.mbxAt b.val).us * 1000 ≤ u.cycles → u.mbxX = [] →
      ∃ t, exec (.mailboxCrossed a b dt) s = .next t ∧ t.bt (MBX_STAT a.val) 30 = true ∧ t.bt (MBX_STAT b.val) 30 = true) ∧
    (∀ k : Fin 32, opens s m (MBX_LK k.val) .mbx →
      (s.fl (MBX_LK k.val) 4 0 = 0 → ∃ t, exec (.lockAcquire m k) s = .next t ∧ t.resp = .ok 0 ∧
        t.fl (MBX_LK k.val) 4 0 = m.val) ∧
      (s.fl (MBX_LK k.val) 4 0 ≠ 0 → ∃ t, exec (.lockAcquire m k) s = .next t ∧
        t.resp = .ok (BitVec.ofNat 32 (s.fl (MBX_LK k.val) 4 0)) ∧ t.fl (MBX_LK k.val) 4 0 = s.fl (MBX_LK k.val) 4 0) ∧
      (s.fl (MBX_LK k.val) 4 0 = m.val ∨ (s.fl (MBX_LK k.val) 4 0 ≠ 0 ∧ supervisor s m.val = true) →
        ∃ t, exec (.lockRelease m k) s = .next t ∧ t.resp = .ok 0 ∧ t.fl (MBX_LK k.val) 4 0 = 0))

/-- Tier 2. The leadership arbiter in duplex mode (R341 to R344, R346): heartbeats and their timeout, CLAIM, UNREADY, RESIGN and
its due time, ESCALATE, SAFEREL and the clearing of the fault counts. -/
def Obligations.Arbiter : Prop :=
  ∀ (s : State) (m : Master) (p q : Fin 2) (v : Word), q ≠ p → noSteps s →
    (opens s m (ARB_HB p.val) .arb → m.val = 9 + p.val → ∃ t, exec (.heartbeat m p v) s = .next t ∧ t.resp = .ok 0 ∧
      beatAt t p.val = s.cycles ∧ beatAt t q.val = beatAt s q.val ∧
      t.fl (ARB_HB p.val) 15 0 = (s.fl (ARB_HB p.val) 15 0 + 1) % 2 ^ 16) ∧
    (∀ dt u, u = elapse s dt → arbMode u = 1 → beatLate u p.val = true → beatLate u q.val = false → holder u = p.val + 1 →
      healthy u q.val = true → ∃ t, exec (.heartbeatTimeout p dt) s = .next t ∧ holder t = q.val + 1 ∧
      t.bt ARB_STATUS (stBit p.val 2) = false ∧ t.bt ARB_STATUS (stBit p.val 0) = true ∧
      faultCount t p.val = min (2 ^ 8 - 1) (faultCount u p.val + 1) ∧ t.fl ARB_LAST 27 25 = 2) ∧
    (arbMode s = 1 → beatLate s 0 = false → beatLate s 1 = false → opens s m ARB_CMD .arb →
      (m.val = 9 + p.val → inReset s (8 + p.val) = false → domOff s 8 = false → s.bt ARB_STATUS (stBit p.val 1) = false →
        beatAge s p.val ≤ s.fl ARB_CFG 15 0 → holder s = 0 → healthy s q.val = false →
        ∃ t, exec (.claim m) s = .next t ∧ t.resp = .ok 0 ∧ holder t = p.val + 1 ∧
          t.bt ARB_STATUS (stBit p.val 2) = true ∧ t.fl ARB_MOVES 31 16 = (s.fl ARB_MOVES 31 16 + 1) % 2 ^ 16) ∧
      (m.val = 9 + p.val → holder s = q.val + 1 → healthy s q.val = true → ∃ t, exec (.unready m) s = .next t ∧
        t.resp = .ok 0 ∧ t.bt ARB_STATUS (stBit p.val 2) = false ∧ holder t = q.val + 1) ∧
      (m.val = 9 + p.val → holder s = p.val + 1 → s.bt ARB_STATUS 27 = false → resignNow s = false →
        ∃ t, exec (.resign m) s = .next t ∧ t.resp = .ok 0 ∧ t.bt ARB_STATUS 27 = true ∧ holder t = p.val + 1 ∧
          t.arbH.resignE = s.imgE) ∧
      (m.val = 9 + p.val → holder s = p.val + 1 → healthy s p.val = true → healthy s q.val = true →
        s.bt ARB_STATUS 27 = false → resignNow s = true → ∃ t, exec (.resign m) s = .next t ∧ holder t = q.val + 1 ∧
          t.fl ARB_LAST 27 25 = 1 ∧ t.bt ARB_STATUS 27 = false) ∧
      (m.val = 31 → holder s = q.val + 1 → healthy s q.val = true → ∃ t, exec (.escalate m p) s = .next t ∧ t.resp = .ok 0 ∧
        t.bt ARB_STATUS (stBit p.val 2) = false ∧ t.bt ARB_IRQSTAT 3 = true ∧
        faultCount t p.val = min (2 ^ 8 - 1) (faultCount s p.val + 1)) ∧
      (m.val = 9 + p.val → holder s = p.val + 1 → s.bt ARB_STATUS 29 = true → ∃ t, exec (.saferel m) s = .next t ∧
        t.resp = .ok 0 ∧ t.bt ARB_STATUS 29 = false ∧ holder t = p.val + 1)) ∧
    (arbMode s = 1 → beatLate s 0 = false → beatLate s 1 = false → holder s = p.val + 1 → healthy s p.val = true →
      healthy s q.val = true → s.bt ARB_STATUS 27 = true →
      s.arbH.resignE + 1 < s.imgE ∨ (s.arbH.resignE < s.imgE ∧ rcEdge (s.imgAt + 50) ≤ s.cycles) ∨ s.bt IMG_CTRL 31 = false →
      ∃ t, exec .resignDue s = .next t ∧ holder t = q.val + 1 ∧ t.bt ARB_LAST 24 = s.bt IMG_CTRL 31 ∧ t.bt ARB_STATUS 27 = false) ∧
    (opens s m ARB_FCNT .arb → m.val = 16 ∨ m.val = 31 → ∃ t, exec (.faultCountClear m) s = .next t ∧ t.resp = .ok 0 ∧
      t.rd ARB_FCNT = 0)

/-- Tier 2. The control pairs (R336, R337, R339, R343, R349): a lockstep fault counts and resets its pair; the caches are
invalidated; a protection register is written or, locked, refused; REARM and the release of the spare, by the pair's reset
sources. `m` is the pair itself, through its own window, or a master that reaches the window on it. -/
def Obligations.ControlPairs : Prop :=
  ∀ (s : State) (m : Master) (p : Fin 2) (v : Word) (r : Region), r = ctxRegion m (.pair (p.val == 1)) → noSteps s →
    (inReset s (8 + p.val) = false → exec (.lockstepFault p) s = .next (close (spareCheck (narrowChange
      ((countFault (heldDiscard s p.val) p.val).raise ARB_IRQSTAT 0x20) (fun s => s.setBt ARB_STATUS (stBit p.val 1) true) 0x800 3)))) ∧
    (opens s m (localAddr m.val (ARB_PL_CACHE p.val)) r →
      (∃ t, exec (.invalidateDcache m p) s = .next t ∧ t.resp = .ok 0 ∧ t.icache = s.icache ∧
        t.dcache = s.dcache.filter (fun e => e.1 / 2 ^ 32 != p.val)) ∧
      ∃ t, exec (.invalidateIcache m p) s = .next t ∧ t.resp = .ok 0 ∧ t.dcache = s.dcache ∧
        t.icache = s.icache.filter (fun e => e.1 / 2 ^ 32 != p.val)) ∧
    (∀ (i : Fin 32) (o : Fin 3) a, a = rgn p.val i.val (4 * o.val) → opens s m (localAddr m.val a) r →
      (rgnRefuses s p.val i.val (4 * o.val) v = false → ∃ t, exec (.regionWrite m p i o v) s = .next t ∧ t.resp = .ok 0 ∧
        t.fl a 31 12 = (if o.val = 2 then s.fl a 31 12 else fld v 31 12) ∧ (o.val = 2 → t.fl a 4 0 = fld v 4 0)) ∧
      (s.bt (ARB_PL_PLOCK p.val) 0 = true → ∃ t, exec (.regionWrite m p i o v) s = .next t ∧ t.resp = .err 3 ∧
        t.rd a = s.rd a)) ∧
    (∀ u, opens s m ARB_CMD .arb → rearmOk s m.val p.val = true →
      u = narrowChange s (fun s => rearmFlags s p.val) 0 5 → noSteps u →
      exec (.rearm m p) s = .next (close { u with resp := .ok 0 })) ∧
    (∀ dt u, u = elapse s dt → spareDue u = true → exec (.unclaimedHeartbeatAgeExpiry dt) s =
      .next (close (narrowChange u (fun s => s.setBt ARB_STATUS 25 false) 0 5)))

/-- Tier 2. The PCIe side of the host bridge (R22, R30, R351, R353, R354, R361): inbound requests at every offset of every BAR, with
Unsupported Request for what no BAR decodes and in D3hot; outbound accesses of every size, sent or refused, and what ends them; the
link and the configuration; and the expiry of prefetched data. -/
def Obligations.PcieBridge : Prop :=
  ∀ (s : State), noSteps s →
    (∀ (bar : Bar) (o : BitVec 32) (w : PcieWord) (k a : Nat) (s1 : State), hostLink s = true → s.bt HB_STATUS 29 = false →
      barAddr bar o.toNat = some a → w.be = 0xF → (pfBuf s false).words = [] →
      (hostAcc s a .w (.wr w.data) = (s1, .ok 0) → noSteps s1 →
        exec (.pcieInboundRequest bar o true [w] k) s = .next (close s1)) ∧
      ∀ v, hostAcc s a .w .rd = (s1, .ok v) → s1.fl HB_PFCFG 15 0 = 0 → noSteps s1 →
        exec (.pcieInboundRequest bar o false [w] k) s = .next (close (s1.emit (.completion 0 [v])))) ∧
    (∀ (bar : Bar) (o : BitVec 32) ws (k a : Nat) u, hostLink s = true → s.bt HB_STATUS 29 = false → barAddr bar o.toNat = some a →
      (pfBuf s false).words = [] → u = (reqWords true a ({ s := s }, []) ws).1.s → noSteps u →
      exec (.pcieInboundRequest bar o true ws k) s = .next (close u)) ∧
    (∀ (bar : Bar) (o : BitVec 32) ws (k : Nat), hostLink s = true → s.bt HB_STATUS 29 = true ∨
      (barAddr bar o.toNat = none ∧ (pfBuf s false).words = []) →
      ∃ t, exec (.pcieInboundRequest bar o false ws k) s = .next t ∧ Out.completion 1 [] ∈ t.out ∧ t.mem = s.mem) ∧
    (∀ (m : Master) (o : Fin 0x80000000) (v : Word) (sz : Size) (i oa : Nat), i = o.val / 2 ^ 28 →
      oa = o.val / sz.bytes * sz.bytes → canIssue s m.val = true → admits m.val .ob = true → shut s m.val .ob = false →
      (s.bt HB_STATUS 31 = true → s.bt HB_STATUS 30 = true → s.bt (HB_OBT_LO i) 0 = true →
        (exec (.outboundAccess m o sz (.wr v)) s = .next (close { s.emit (.outbound
          ((s.rd (HB_OBT_HI i)).toNat * 2 ^ 32 + s.fl (HB_OBT_LO i) 31 28 * 2 ^ 28 + oa % 2 ^ 28) true
          (v.toNat % 2 ^ (8 * sz.bytes)) sz.bytes) with resp := .ok 0 })) ∧
        ∃ t, exec (.outboundAccess m o sz .rd) s = .next t ∧ t.resp = .none ∧
          t.hbH.reads = s.hbH.reads ++ [⟨m.val, 0x80000000 + oa, sz.bytes, s.cycles, none⟩]) ∧
      (s.bt HB_STATUS 31 = false ∨ s.bt HB_STATUS 30 = false ∨ s.bt (HB_OBT_LO i) 0 = false →
        ∀ x, ∃ t, exec (.outboundAccess m o sz x) s = .next t ∧ t.resp = .err 3 ∧ t.hbH.reads = s.hbH.reads)) ∧
    (∀ (i : Fin 64) e dt u, u = elapse s dt → u.hbH.reads[i.val]? = some e →
      (e.at_ + 50000000 ≤ u.cycles → ∃ t, exec (.outboundTimeout i dt) s = .next t ∧ (e.ctx = none → t.resp = .err 3) ∧
        t.hbH.reads = u.hbH.reads.eraseIdx i.val ∧ t.bt HB_IRQSTAT 2 = true ∧ t.bt HB_IRQSTAT 3 = true) ∧
      (u.cycles < e.at_ + 50000000 → exec (.outboundTimeout i dt) s = .next (close u))) ∧
    (∀ (i : Fin 64) e (data : BitVec 64), s.hbH.reads[i.val]? = some e →
      (∃ t, exec (.outboundCompletion i data true) s = .next t ∧ t.hbH.reads = s.hbH.reads.eraseIdx i.val ∧
        (e.ctx = none → t.resp = .ok (BitVec.ofNat 32 (data.toNat % 2 ^ (8 * e.size))))) ∧
      ∃ t, exec (.outboundCompletion i data false) s = .next t ∧ (e.ctx = none → t.resp = .err 3) ∧
        t.hbH.reads = s.hbH.reads.eraseIdx i.val ∧ t.bt HB_IRQSTAT 3 = true) ∧
    (∀ speed width : Fin 8, s.bt HB_CTRL 31 = true → inReset s 27 = false → inReset s 28 = false → 1 ≤ speed.val → speed.val ≤ 3 →
      1 ≤ width.val → width.val ≤ 2 → ∃ t, exec (.pcieLinkUp speed width) s = .next t ∧ t.bt HB_STATUS 31 = true ∧
      t.fl HB_STATUS 28 27 = speed.val ∧ t.fl HB_STATUS 26 25 = width.val) ∧
    (s.bt HB_STATUS 31 = true → ∃ t, exec .pcieLinkDown s = .next t ∧ t.fl HB_STATUS 31 25 = 0 ∧ t.hbH.reads = [] ∧
      t.bt HB_IRQSTAT 4 = true ∧ t.msix = 0) ∧
    (∀ bme d3, hostLink s = true → ∃ t, exec (.pcieConfigRequest bme d3) s = .next t ∧ t.bt HB_STATUS 30 = bme ∧
      t.bt HB_STATUS 29 = d3 ∧ Out.config { pcieCfg s with bme := bme, d3 := d3 } ∈ t.out ∧
      (bme = false ∨ d3 = true → t.msix = 0)) ∧
    (∀ spi dt u w r, u = elapse s dt → (pfBuf u spi).at_ + u.fl HB_PFCFG 15 0 * 1000 ≤ u.cycles → (pfBuf u spi).words = w :: r →
      ∃ t, exec (.prefetchExpiry spi dt) s = .next t ∧ (pfBuf t spi).words = [] ∧ t.bt HB_IRQSTAT 0 = true ∧
        t.rd (HB_PFLOG u.hbH.logAt) = BitVec.ofNat 32 (w.1 / 4 * 4 + spi.toNat * 2 + 1) ∧
        (t.rd HB_PFCNT).toNat = min (2 ^ 32 - 1) ((u.rd HB_PFCNT).toNat + (r.length + 1)))

/-- Tier 2. The SPI port (R358, R359): WRITE of a word and of fewer bytes; READREQ of every count, served from the buffer, begun, or
counted as bad; the delayed read that ends well or with an error; FETCH with and without a result, STATUS, a bad command, and a
result that was not fetched in time. -/
def Obligations.SpiPort : Prop :=
  ∀ (s : State), noSteps s → spiOn s = true →
    (∀ a v s0 s1, s0 = spiOut s [] → (pfBuf s true).words = [] → busWrite s0 11 a.toNat v = (s1, .ok 0) → noSteps s1 →
      exec (.spiWrite a [v.setWidth 8, (v >>> 8).setWidth 8, (v >>> 16).setWidth 8, (v >>> 24).setWidth 8]) s =
        .next (close s1)) ∧
    (∀ a (l : List Byte), 0 < l.length → l.length < 4 → ∃ t, exec (.spiWrite a l) s = .next t ∧ t.hbH.werr = true ∧
      t.mem = s.mem ∧ Out.spi [spiStatus s] ∈ t.out) ∧
    (∀ (a : Word) (n : Byte) k p, k = (if n.toNat = 0 then 64 else n.toNat) → p = spiOut (pfExpire s true) [] →
      (s.hbH.spiRead = none → s.hbH.spiHeld = none → k ≤ 64 →
        (pfServe p true a.toNat k = none → ∃ t, exec (.spiReadreq a n) s = .next t ∧
          t.hbH.spiRead = some (a.toNat, k) ∧ t.hbH.spiHeld = none) ∧
        ∀ u l, pfServe p true a.toNat k = some (u, l) → ∃ t, exec (.spiReadreq a n) s = .next t ∧ t.hbH.spiRead = none ∧
          t.hbH.spiHeld = some l ∧ t.hbH.spiErr = false ∧ t.hbH.spiAt = s.cycles) ∧
      (s.hbH.spiRead.isSome = true ∨ s.hbH.spiHeld.isSome = true ∨ 64 < k → ∃ t, exec (.spiReadreq a n) s = .next t ∧
        t.hbH.spiRead = s.hbH.spiRead ∧ t.hbH.spiHeld = s.hbH.spiHeld ∧
        t.fl HB_SPICNT 15 8 = min (2 ^ 8 - 1) (s.fl HB_SPICNT 15 8 + 1))) ∧
    (∀ a n s1 l k, s.hbH.spiRead = some (a, n) →
      (spiReadWords n s a = (s1, l, false) →
        exec (.spiReadDone k) s = .next (close (prefetch (spiHold s1 l false) true a n k)) ∧
        ∃ t, exec (.spiReadDone 0) s = .next t ∧ t.hbH.spiRead = none ∧ t.hbH.spiHeld = some l ∧ t.hbH.spiErr = false ∧
          t.hbH.spiAt = s1.cycles) ∧
      (spiReadWords n s a = (s1, l, true) → ∃ t, exec (.spiReadDone k) s = .next t ∧ t.hbH.spiRead = none ∧
        t.hbH.spiHeld = some (List.replicate n 0) ∧ t.hbH.spiErr = true)) ∧
    (∀ l n, s.hbH.spiHeld = some l → ∃ t, exec (.spiFetch n) s = .next t ∧ t.hbH.spiHeld = none ∧
      Out.spi (spiStatus s :: (l.flatMap (fun w => leBytes 4 w.toNat)).take n) ∈ t.out) ∧
    (∀ n, s.hbH.spiHeld = none → ∃ t, exec (.spiFetch n) s = .next t ∧
      Out.spi (spiStatus s :: List.replicate n 0) ∈ t.out) ∧
    (∃ t, exec .spiStatus s = .next t ∧ Out.spi [spiStatus s] ∈ t.out ∧ t.hbH = { s.hbH with werr := false, disc := false }) ∧
    (∃ t, exec .spiBadCommand s = .next t ∧ t.fl HB_SPICNT 15 8 = min (2 ^ 8 - 1) (s.fl HB_SPICNT 15 8 + 1) ∧
      t.hbH.spiHeld = s.hbH.spiHeld) ∧
    (∀ dt u, u = elapse s dt → u.hbH.spiHeld.isSome = true → u.hbH.spiAt + u.fl HB_SPICFG 15 0 * 1000 ≤ u.cycles →
      ∃ t, exec (.spiDiscard dt) s = .next t ∧ t.hbH.spiHeld = none ∧ t.hbH.disc = true ∧ t.bt HB_IRQSTAT 1 = true ∧
        t.fl HB_SPICNT 31 16 = min (2 ^ 16 - 1) (u.fl HB_SPICNT 31 16 + 1))

/-- Tier 2. Start-up and load attempts (R26, R366, R367, R369, R371, R374, R375, R377): the fuse load, the PLL, a warm start, an
attempt and its end, a replay, the loss of the PLL. -/
def Obligations.StartUp : Prop :=
  ∀ (s : State),
    (startDue s 1 = true → fuseUsed s 0 12 124 = true → ∃ t, exec (.coldStart false) s = .next t ∧ t.fl LDR_STATUS 31 28 = 1 ∧
      t.bt LDR_FUSESTAT 31 = true ∧ ∀ w < 128, t.rd (LDR_FUSE w) = fuseShadow s w) ∧
    (startDue s 1 = true → fuseUsed s 0 12 124 = false → ∃ t, exec (.coldStart false) s = .next t ∧
      t.fl LDR_STATUS 31 28 = 14 ∧ t.bt LDR_FUSESTAT 31 = false) ∧
    (startDue s 1 = true → ∃ t, exec (.coldStart true) s = .next t ∧ t.rd LDR_FUSESTAT = 0 ∧
      t.fl LDR_BOOTCNT 15 8 = min 255 (s.fl LDR_BOOTCNT 15 8 + 1) ∧ t.ldrH.due = s.ldrH.due) ∧
    (wideReset s = false → s.fl LDR_STATUS 31 28 = 1 → ∃ t, exec .pllLock s = .next t ∧ t.bt RST_CLKSTAT 31 = true ∧
      t.fl LDR_STATUS 31 28 = 2 ∧ t.bt LDR_BOOTCNT 3 = true ∧ t.bt LDR_STATUS 27 = decide (t.fl LDR_BOOTCNT 5 4 = 3) ∧
      (s.bt LDR_BOOTCNT 3 = false → t.fl LDR_BOOTCNT 5 4 = s.fl LDR_BOOTCNT 5 4) ∧
      (s.bt LDR_BOOTCNT 3 = true → s.bt LDR_BOOTCNT 2 = false →
        t.fl LDR_BOOTCNT 5 4 = min 3 (s.fl LDR_BOOTCNT 5 4 + 1) ∧
        t.fl LDR_BOOTCNT 31 24 = min 255 (s.fl LDR_BOOTCNT 31 24 + 1))) ∧
    (startDue s 2 = true → s.bt LDR_FUSESTAT 31 = false → ∃ t, exec .warmStart s = .next t ∧ t.bt LDR_STATUS 25 = true ∧
      t.fl LDR_STATUS 31 28 = 14) ∧
    (startDue s 2 = true → s.bt LDR_FUSESTAT 31 = true → ∃ t, exec .warmStart s = .next t ∧ t.bt LDR_STATUS 25 = true ∧
      t.fl LDR_STATUS 31 28 = (if s.bt RST_CLKSTAT 31 then 2 else 1) ∧ ∀ w < 128, t.rd (LDR_FUSE w) = s.rd (LDR_FUSE w)) ∧
    (∀ d run late b r u j, wideReset s = false → b = s.bt LDR_STATUS 27 →
      (s.fl LDR_STATUS 31 28 = 2 ∧ r = attempt s b d run.isSome) ∨
        (s.fl LDR_STATUS 31 28 ≠ 2 ∧ s.ldrH.wait = some j ∧ r = passTwo s b run.isSome (sectsFrom s b j)) →
      u = attemptGo r b late (run.getD []) → noSteps u →
      exec (.loadAttempt d run late) s = .next (close u) ∧
      (r.2.2 = none → (r.2.1 = 0 → u.fl LDR_STATUS 31 28 = 8) ∧
        (r.2.1 ≠ 0 → u.fl LDR_STATUS 23 16 = r.2.1 % 256 ∧
          u.fl LDR_STATUS 31 28 = if b = true ∨ r.2.1 = 12 then 15 else 2)) ∧
      (∀ i, r.2.2 = some i →
        (late = false → u.fl LDR_STATUS 31 28 = 7 ∧ u.ldrH.wait = some i) ∧
        (late = true → r.1.ldrH.wait = some i → r.1.ldrH.waitAt + 10000000 ≤ r.1.cycles → r.2.1 = 12 →
          u.fl LDR_STATUS 31 28 = 15 ∧ u.fl LDR_STATUS 23 16 = 12))) ∧
    (∀ i b c u, wideReset s = false → ldrRun s = true → narrowBlocks.find? (fun j => smGet false s.replay j) = some i →
      b = s.bt LDR_STATUS 27 → c = rereadCode s b false (fun x => x.typ == 3) →
      (c = 0 → u = ldrRelease (((regEntries s b).filter (fun e => inTarget i e.1.toNat)).foldl replayEntry s) i → noSteps u →
        exec (.registerReplay false) s = .next (close u) ∧ loaderHolds u i = false ∧ smGet false u.replay i = false) ∧
      (c ≠ 0 → noSteps s → ∃ t, exec (.registerReplay false) s = .next t ∧ t.bt LDR_IRQSTAT 4 = true ∧
        t.fl LDR_FUSTAT 23 16 = c % 256 ∧ t.ldrHold = s.ldrHold)) ∧
    (s.bt RST_CLKSTAT 31 = true → ∃ t, exec .pllLoss s = .next t ∧ bitAt t.srcs 4 = true ∧
      Out.pinsSafe (keepSync { s with pllSafe := true }).keep ∈ t.out ∧
      t.fl RST_CLKSTAT 15 0 = min 65535 (s.fl RST_CLKSTAT 15 0 + 1) ∧
      (s.srcs.toNat % 128 = 0 → t.bt RST_CLKSTAT 31 = false ∧ t.bt RST_CAUSE 4 = true ∧
        t.fl RST_CNT 31 16 = (s.fl RST_CNT 31 16 + 1) % 65536))

/-- Tier 2. The flash update service, debug, boundary scan and fuses (R378 to R382): the commands, their ends in the flash, a
token, EXTEST, a fuse bit blown. -/
def Obligations.FlashAndFuses : Prop :=
  ∀ (s : State) (m : Master),
    (opens s m LDR_FUCMD .ldr → fuOwner s m.val = true →
      (∀ copy (p : Instr × Nat × Bool), p ∈ [(Instr.flashErase m, 1, false), (.flashProgram m, 2, false), (.flashVerify m copy, 3, copy),
          (.clrcnt m, 4, false), (.raisesvn m, 5, false), (.reloadpe m, 7, false)] → fuBusy s = false →
        (s.bt LDR_FUSTAT 30 = true ∨ p.2.1 = 3 ∨ p.2.1 = 7) → (p.2.1 = 4 → s.ldrH.verified = true) →
        (p.2.1 = 7 → peStill s (s.fl LDR_FUADDR 2 0) = true ∧ s.fl LDR_FUADDR 2 0 + 1 ≠ m.val) →
        noSteps (fuBegin s p.2.1 p.2.2) → exec p.1 s = .next (close { fuBegin s p.2.1 p.2.2 with resp := .ok 0 })) ∧
      (noSteps s → s.bt LDR_FUSTAT 30 = true → ∃ t, exec (.flashAbort m) s = .next t ∧ t.resp = .ok 0 ∧
        t.fl LDR_FUSTAT 29 28 = 2 ∧ t.bt LDR_FUSTAT 31 = s.bt LDR_FUSTAT 31)) ∧
    (fuWarned s = false → s.fl LDR_FUADDR 27 0 % 65536 = 0 → (fuBegin s 1 false).bt LDR_FUSTAT 31 = true ∧
      (fuBegin s 1 false).ldrH.op = 1 ∧ (fuBegin s 1 false).ldrH.opAddr = s.fl LDR_FUADDR 27 0 ∧
      (fuBegin s 1 false).flash = s.flash) ∧
    (wideReset s = false → fuBusy s = true → noSteps s →
      (s.ldrH.op = 1 → ∃ t, exec (.flashOpDone false false) s = .next t ∧ t.bt LDR_FUSTAT 31 = false ∧ t.bt LDR_IRQSTAT 0 = true ∧
        t.fl LDR_FUSTAT 15 0 = (s.fl LDR_FUSTAT 15 0 + 1) % 65536 ∧
        t.flash = s.flash.filter (fun e => decide (e.1 < s.ldrH.opAddr) || decide (s.ldrH.opAddr + 65536 ≤ e.1)) ∧
        ∀ i < 65536, flashByte t (s.ldrH.opAddr + i) = 0xFF) ∧
      (s.ldrH.op = 2 → ∃ t, exec (.flashOpDone false false) s = .next t ∧ t.bt LDR_FUSTAT 31 = false ∧
        (∀ i, ∀ h : i < s.ldrH.opData.length,
          flashByte t (s.ldrH.opAddr + i) = flashByte s (s.ldrH.opAddr + i) &&& s.ldrH.opData[i]) ∧
        ∀ i, (i < s.ldrH.opAddr ∨ s.ldrH.opAddr + s.ldrH.opData.length ≤ i) → flashByte t i = flashByte s i) ∧
      (∀ c manifest, s.ldrH.op = 3 → s.fl LDR_FUSTAT 29 28 = 0 →
        c = imageCode s s.ldrH.opCopy (s.rd LDR_FLASHCAP).toNat true manifest →
        ∃ t, exec (.flashOpDone false manifest) s = .next t ∧ t.fl LDR_FUSTAT 23 16 = c ∧ t.flash = s.flash ∧
          t.ldrH.verified = (s.ldrH.verified || (c == 0 && !s.ldrH.opCopy)))) ∧
    (∀ qx qy r x : BitVec 256, s.bt LDR_FUSESTAT 31 = true → dbgMode s = 1 → s.ldrH.unlocked = false → s.ldrH.refused = false →
      ∃ t, exec (.debugUnlock qx qy r x) s = .next t ∧ t.ldrH.refused = !t.ldrH.unlocked ∧ (t.ldrH.unlocked = true ↔
        keyGood s (beOf 32 qx.toNat ++ beOf 32 qy.toNat) = true ∧
        ecdsaOk qx.toNat qy.toNat r.toNat x.toNat (sha256 (tokenText s)) = true)) ∧
    (∃ t, exec .extestSelect s = .next t ∧ bitAt t.srcs 5 = true ∧ (bitAt s.srcs 5 = false → t.bt RST_CAUSE 5 = true)) ∧
    (∃ t, exec .extestExit s = .next t ∧ t.srcs = putBit s.srcs 5 false) ∧
    (∀ b : BitVec 12, opens s 31 LDR_FPROG .ldr → noSteps s → s.bt LDR_FPSTAT 31 = false → fuseOpen s b.toNat = true →
      ∃ t, exec (.fuseBlow 31 b) s = .next t ∧ t.resp = .ok 0 ∧ t.ldrH.blowing = some b.toNat ∧ t.bt LDR_FPSTAT 31 = true ∧
        t.fuses = s.fuses) ∧
    (∀ b : Fin 4096, s.ldrH.blowing = some b.val → (∃ t, exec (.fuseBlowDone true) s = .next t ∧
        bitAt (fuseWord t (b.val / 32)) (b.val % 32) = true ∧ t.bt LDR_FPSTAT 31 = false ∧ t.bt LDR_IRQSTAT 3 = true ∧
        ∀ w, w ≠ b.val / 32 → w ≠ b.val / 32 + 2 → fuseWord t w = fuseWord s w) ∧
      ∃ t, exec (.fuseBlowDone false) s = .next t ∧ t.fuses = s.fuses ∧ t.bt LDR_FPSTAT 30 = true ∧
        t.bt LDR_FPSTAT 31 = false)

/-- Tier 2. The regulator sequencer, the supply monitors and the converters (R387 to R391, R408, R409): each event where its
condition holds, with every rail and every enable; a row whose time has not come changes nothing. -/
def Obligations.PowerSequencer : Prop :=
  ∀ (s : State),
    (∀ ready : Bool, ready = decide ((seqState s = 0 ∨ (seqState s = 5 ∧ s.seqH.retryDone = true)) ∧ s.bt PMU_MONSTAT 26 = true ∧
        s.bt PMU_MONSTAT 31 = false ∧ bitAt s.srcs 0 = false ∧ s.seqH.start + 10000000 ≤ s.cycles) →
      (ready = true → ∃ t, exec .powerUpStart s = .next t ∧ seqState t = 1 ∧ pwrEn t = 1 ∧ t.seqH.stepAt = s.cycles ∧
        t.seqH.fail = false ∧ t.seqH.retryDone = false) ∧ (ready = false → exec .powerUpStart s = .next (close s))) ∧
    (∀ (pg : BitVec 6) vdd, (seqState s = 1 → ∃ t, exec (.powerUpStep pg vdd) s = .next t ∧ seqState t = 1 ∧ pgood t = pg.toNat ∧
        (pwrEn s = 1 → pwrEn t = if pg.getLsbD 0 && vdd then 7 else 1) ∧
        (pwrEn s = 7 → pwrEn t = if pg.getLsbD 1 && pg.getLsbD 2 then 15 else 7) ∧
        (pwrEn s = 15 → pwrEn t = if pg.getLsbD 3 then 63 else 15) ∧ (pwrEn s = 63 → pwrEn t = 63) ∧
        (pwrEn t ≠ pwrEn s → t.seqH.stepAt = s.cycles)) ∧
      (seqState s ≠ 1 → exec (.powerUpStep pg vdd) s = .next (close s))) ∧
    (∀ settled : Bool, settled = decide (seqState s = 1 ∧ pwrEn s = 63 ∧ pgood s / 16 = 3 ∧ s.seqH.stepAt + 1000000 ≤ s.cycles) →
      (settled = true → ∃ t, exec .powerUpSettled s = .next t ∧ seqState t = 2 ∧ t.srcs = putBit s.srcs 1 false) ∧
        (settled = false → exec .powerUpSettled s = .next (close s))) ∧
    (∀ late : Bool, late = decide (seqState s = 1 ∧ ¬(pwrEn s = 63 ∧ pgood s / 16 = 3) ∧
        s.seqH.stepAt + s.fl PMU_SEQCFG 7 0 * 1000000 ≤ s.cycles) →
      (late = true → ∀ p ∈ [(63, 15), (15, 7), (7, 1), (1, 0)], pwrEn s = p.1 → ∃ t, exec .powerUpTimeout s = .next t ∧
        bitAt t.srcs 1 = true ∧ pwrEn t = p.2 ∧ seqState t = (if p.2 = 0 then 5 else 4) ∧ t.seqH.fail = true ∧
        (p.2 = 0 → t.fl PMU_SEQSTAT 7 0 = min 255 (s.fl PMU_SEQSTAT 7 0 + 1))) ∧
        (late = false → exec .powerUpTimeout s = .next (close s))) ∧
    (∀ ended : Bool, ended = decide (seqState s = 5 ∧ s.seqH.retryDone = false ∧ s.seqH.stepAt + 1000000000 ≤ s.cycles) →
      (ended = true → ∃ t, exec .retryEnd s = .next t ∧ t.seqH.retryDone = true ∧ t.seqH.start = s.cycles ∧ seqState t = 5) ∧
        (ended = false → exec .retryEnd s = .next (close s))) ∧
    (∀ (pg : BitVec 6) limit high, high = (pg.toNat &&& lastLowered (pwrEn s) != 0) →
      (seqState s = 4 → high = false ∨ limit = true →
        s.seqH.stepAt + (s.fl PMU_SEQCFG 23 16 + if high then 20 else 0) * 1000000 ≤ s.cycles →
        ∀ p ∈ [(63, 15), (15, 7), (7, 1), (1, 0)], pwrEn s = p.1 → ∃ t, exec (.powerDownStep pg limit) s = .next t ∧
        pwrEn t = p.2 ∧ pgood t = pg.toNat ∧ seqState t = (if p.2 ≠ 0 then 4 else if s.seqH.fail then 5 else 0)) ∧
      (seqState s ≠ 4 ∨ (high = true ∧ limit = false) ∨
        s.cycles < s.seqH.stepAt + (s.fl PMU_SEQCFG 23 16 + if high then 20 else 0) * 1000000 →
        exec (.powerDownStep pg limit) s = .next (close s))) ∧
    (∃ t, exec (.supplyWarning .vin) s = .next t ∧ t.bt PMU_MONSTAT 31 = true ∧
      (s.bt PMU_MONSTAT 31 = false → t.seqH.vinFrom = s.cycles)) ∧
    (∃ t, exec (.supplyWarning .bat) s = .next t ∧ t.bt PMU_MONSTAT 25 = true) ∧
    (∀ g, exec (.supplyWarning (.bank g)) s = .next (close (fuWarn s))) ∧
    (∀ i : Fin 4, (∃ t, exec (.supplyWarning (.main i)) s = .next t ∧ t.bt PMU_MONSTAT (30 - i.val) = true ∧
        (brownWarn s = false → t.seqH.warnFrom = s.cycles)) ∧
      (seqState s ≠ 3 → ∃ t, exec (.supplyFail i) s = .next t ∧ bitAt t.srcs 2 = true ∧ seqState t = seqState s ∧
        t.seqH.failed = s.seqH.failed ||| 2 ^ i.val) ∧
      (seqState s = 3 → ∀ p ∈ [(63, 15), (15, 7), (7, 1)], pwrEn s = p.1 → ∃ t, exec (.supplyFail i) s = .next t ∧
        bitAt t.srcs 2 = true ∧ bitAt t.srcs 1 = true ∧ seqState t = 4 ∧ pwrEn t = p.2)) ∧
    (∀ (i : Fin 4) (full : Bool) f, f = s.seqH.failed &&& (15 - 2 ^ i.val) → ∃ t, exec (.railRecovery full (.main i)) s = .next t ∧
      t.bt PMU_MONSTAT (30 - i.val) = (s.bt PMU_MONSTAT (30 - i.val) && !full) ∧ t.seqH.failed = f ∧
      t.srcs = if f = 0 ∧ seqState s ≠ 4 then putBit s.srcs 2 false else s.srcs) ∧
    (∀ full : Bool, (∃ t, exec (.railRecovery full .vin) s = .next t ∧ t.bt PMU_MONSTAT 31 = false ∧
        t.seqH.start = if s.bt PMU_MONSTAT 31 then s.cycles else s.seqH.start) ∧
      (∃ t, exec (.railRecovery full .bat) s = .next t ∧ t.bt PMU_MONSTAT 25 = false) ∧
      ∀ g : Fin 16, ∃ t, exec (.railRecovery full (.bank g)) s = .next t ∧ t.bt PMU_MONSTAT g.val = false ∧
        bitAt t.bankuv g.val = false) ∧
    (∀ g : Fin 16, (s.bt PMU_BANKV 31 = true → bitAt s.bankuv g.val = false → ∃ t, exec (.bankUndervoltage g) s = .next t ∧
        bitAt t.bankuv g.val = true ∧ inReset t (blkGrp g.val) = true ∧ t.bt PMU_IRQSTAT 2 = true ∧
        t.bt PMU_MONSTAT g.val = true) ∧
      (s.bt PMU_BANKV 31 = false ∨ bitAt s.bankuv g.val = true → ∃ t, exec (.bankUndervoltage g) s = .next t ∧
        t.bankuv = s.bankuv ∧ t.bt PMU_MONSTAT g.val = true)) ∧
    (∀ i : Fin 6, (seqState s = 2 → ∃ t, exec (.pgoodFall i) s = .next t ∧ t.bt PMU_SEQSTAT (16 + i.val) = false ∧
        brownWarn t = true ∧ (brownWarn s = false → t.seqH.warnFrom = s.cycles)) ∧
      (seqState s ≠ 2 → exec (.pgoodFall i) s = .next (close (fuWarn s)))) ∧
    ((seqState s = 2 → warned s = true → ∃ t, exec .holdUpStart s = .next t ∧ seqState t = 3 ∧ t.bt RST_CAUSE 14 = true ∧
        t.holdSafe = true ∧ t.seqH.holdT = s.fl PMU_HOLDCFG 15 8) ∧
      (seqState s ≠ 2 ∨ warned s = false → exec .holdUpStart s = .next (close (fuWarn s)))) ∧
    ((seqState s = 3 → s.seqH.stepAt + s.seqH.holdT * 1000000 ≤ s.cycles → ∀ p ∈ [(63, 15), (15, 7), (7, 1)], pwrEn s = p.1 →
        ∃ t, exec .holdUpEnd s = .next t ∧ seqState t = 4 ∧ pwrEn t = p.2 ∧ bitAt t.srcs 1 = true) ∧
      (seqState s ≠ 3 ∨ s.cycles < s.seqH.stepAt + s.seqH.holdT * 1000000 → exec .holdUpEnd s = .next (close s))) ∧
    (∀ (x : Fin 2) (code : BitVec 16) (i : Nat), i = (s.adc x.val).pos →
      (adcDue s x.val = true → i < 16 → ∃ t, exec (.adcSample x code) s = .next t ∧
        t.rd (PMU_ADC_RES x.val i) = BitVec.ofNat 32 ((s.fl (PMU_ADC_STAT x.val) 31 16 + 1) % 256 * 2 ^ 24 + code.toNat) ∧
        t.bt (PMU_ADC_STAT x.val) 0 = decide (i < s.fl (PMU_ADC_CFG x.val) 3 0) ∧
        t.fl (PMU_ADC_STAT x.val) 31 16 = (s.fl (PMU_ADC_STAT x.val) 31 16 +
          if i < s.fl (PMU_ADC_CFG x.val) 3 0 then 0 else 1) % 65536 ∧
        (i < s.fl (PMU_ADC_CFG x.val) 3 0 → (t.adc x.val).pos = i + 1)) ∧
      (adcDue s x.val = false → exec (.adcSample x code) s = .next (close s)))

/-- Tier 2. Resets and power domains (R393 to R397, R402, R403): RESETIN, AONPOR, the software resets, the end of every source of
fixed duration and not before its time, SWSUB, BLOCK, and the switching of a domain. -/
def Obligations.ResetsAndDomains : Prop :=
  ∀ (s : State) (m : Master),
    (∃ t, exec .resetinAssert s = .next t ∧ bitAt t.srcs 3 = true ∧ wideReset t = true ∧ (s.srcs.toNat % 128 = 0 →
      t.bt RST_CAUSE 3 = true ∧ t.fl RST_CNT 31 16 = (s.fl RST_CNT 31 16 + 1) % 65536 ∧ t.mem = s.mem ∧ t.rtc = s.rtc ∧
      (∀ a, 0x10000000 ≤ a → a < 0x37000000 → a ≠ TU_PPS_STAT → a ≠ TU_IRQSTAT → t.rd a = resetWord a))) ∧
    (∃ t, exec .resetinRelease s = .next t ∧ t.srcs = putBit s.srcs 3 false) ∧
    (∃ t, exec .aonporAssert s = .next t ∧ bitAt t.srcs 0 = true ∧ t.rd RST_CAUSE = 1 ∧ t.rtc = 0 ∧
      ∀ a, a ≠ RST_CAUSE → a ≠ PMU_MONSTAT → t.rd a = resetWord a) ∧
    (∀ vaon, (bitAt s.srcs 0 = true → ∃ t, exec (.aonporRelease vaon) s = .next t ∧ t.srcs = 2 ∧ t.bt RST_CAUSE 1 = true ∧
        t.bt PMU_MONSTAT 26 = vaon) ∧
      (bitAt s.srcs 0 = false → exec (.aonporRelease vaon) s = .next (close s))) ∧
    (∀ p ∈ [(TimedSrc.pllLoss, 4), (.swCold, 6), (.swWarm, 7)],
      (bitAt s.srcs p.2 = true → smGet 0 s.seqH.srcAt p.2 + 10000 ≤ s.cycles →
        ∃ t, exec (.resetSourceExpiry p.1) s = .next t ∧ t.srcs = putBit s.srcs p.2 false) ∧
      (bitAt s.srcs p.2 = false ∨ s.cycles < smGet 0 s.seqH.srcAt p.2 + 10000 →
        exec (.resetSourceExpiry p.1) s = .next (close s))) ∧
    (∀ n, (bitAt s.wdrst n.val = true → smGet 0 s.seqH.srcAt (32 + n.val) + 1000 ≤ s.cycles →
        ∃ t, exec (.resetSourceExpiry (.wdrst n)) s = .next t ∧ bitAt t.wdrst n.val = false) ∧
      (bitAt s.wdrst n.val = false ∨ s.cycles < smGet 0 s.seqH.srcAt (32 + n.val) + 1000 →
        exec (.resetSourceExpiry (.wdrst n)) s = .next (close s))) ∧
    (∀ x, (bitAt s.pulseSrc x.val = true → smGet 0 s.seqH.srcAt (64 + x.val) + 1000 ≤ s.cycles →
        ∃ t, exec (.resetSourceExpiry (.pulse x)) s = .next t ∧ bitAt t.pulseSrc x.val = false ∧ t.bt RST_SWSRC x.val = false) ∧
      (bitAt s.pulseSrc x.val = false ∨ s.cycles < smGet 0 s.seqH.srcAt (64 + x.val) + 1000 →
        exec (.resetSourceExpiry (.pulse x)) s = .next (close s))) ∧
    (opens s m RST_SWRST .ldr → supervisor s m.val = true → noSteps s →
      (∃ t, exec (.swWarmReset m) s = .next t ∧ t.resp = .ok 0 ∧ bitAt t.srcs 7 = true ∧ t.bt RST_CAUSE 7 = true ∧
        t.fl RST_CNT 15 0 = (s.fl RST_CNT 15 0 + 1) % 65536 ∧ ∀ w < 128, t.rd (LDR_FUSE w) = s.rd (LDR_FUSE w)) ∧
      (∃ t, exec (.swColdReset m) s = .next t ∧ t.resp = .ok 0 ∧ bitAt t.srcs 6 = true ∧ t.bt RST_CAUSE 6 = true) ∧
      (∀ (x : Fin 29) u,
        (s.bt RST_SWSRC x.val = false → u = swsubOn s x.val false → noSteps u →
          exec (.swsubAssert m x) s = .next (close { u with resp := .ok 0 }) ∧ u.bt RST_SWSRC x.val = true ∧
          inReset u x.val = true ∧ u.bt RST_CAUSE 8 = true) ∧
        (s.bt RST_SWSRC x.val = false → u = swsubOn s x.val true → noSteps u →
          exec (.swsubPulse m x) s = .next (close { u with resp := .ok 0 }) ∧ u.bt RST_SWSRC x.val = true ∧
          bitAt u.pulseSrc x.val = true) ∧
        (s.bt RST_SWSRC x.val = true →
          (∃ t, exec (.swsubPulse m x) s = .next t ∧ t.resp = .err 3 ∧ t.rd RST_SWSRC = s.rd RST_SWSRC) ∧
          exec (.swsubAssert m x) s = .next (close { s with resp := .ok 0 })) ∧
        (u = swsubOff s x.val → noSteps u →
          exec (.swsubRelease m x) s = .next (close { u with resp := .ok 0 }) ∧ u.bt RST_SWSRC x.val = false ∧
          (s.bt RST_SWSRC x.val = true → ldrRun s = true → narrowSource u x.val = false →
            loaderHolds u x.val = true ∧ inReset u x.val = true))) ∧
      (∀ hx v u a, a = (if hx then RST_BLKHX else RST_BLKCAN) → opens s m a .ldr →
        u = narrowStep s (fun s => s.wr a v) (if v &&& ~~~(s.rd a) = 0 then 0 else 0x2000) → noSteps u →
        exec (.blockResetWrite m hx v) s = .next (close { u with resp := .ok 0 }) ∧ u.rd a = v ∧
        ∀ i < 32, bitAt v i = true → inReset u (if hx then blkHx i else blkCan i) = true)) ∧
    (opens s m PMU_PDCTRL .pmu → supervisor s m.val = true → pdBusy s = false → s.rd PMU_PDCTRL &&& 0xF8000000 = 0 →
      ∀ (d : Fin 27) (on : Bool) v u, v = putBit (s.rd PMU_PDCTRL) d.val (!on) →
        u = narrowStep (s.wr PMU_PDCTRL v) (fun r => { r with pdoff := r.pdoff ||| (v &&& ~~~(s.rd PMU_PDCTRL)) })
          (if v &&& ~~~(s.rd PMU_PDCTRL) = 0 then 0 else 0x200) → noSteps u →
        exec (if on then .domainOn m d else .domainOff m d) s = .next (close { u with resp := .ok 0 }) ∧
        u.bt PMU_PDCTRL d.val = !on ∧ (on = false → s.bt PMU_PDCTRL d.val = false → bitAt u.pdoff d.val = true) ∧
        u.rd PMU_PDSTAT = s.rd PMU_PDSTAT) ∧
    (∀ d : Fin 27, (s.bt PMU_PDCTRL d.val = true → s.bt PMU_PDSTAT d.val = false → ∃ t, exec (.domainOffDone d) s = .next t ∧
        t.bt PMU_PDSTAT d.val = true) ∧
      (s.bt PMU_PDCTRL d.val = false → s.bt PMU_PDSTAT d.val = true → ∃ t, exec (.domainOnDone d) s = .next t ∧
        t.bt PMU_PDSTAT d.val = false ∧ t.bt PMU_IRQSTAT 1 = true ∧ bitAt t.pdoff d.val = false ∧
        (ftRuns s = false → ∀ p : Fin 8, d.val = p.val → ∀ a, 0x10000000 + p.val * 0x100000 ≤ a → a < 0x10040000 + p.val * 0x100000 →
          t.byte a = 0)))

/-- Tier 2. The real-time clock and the calendar (R413, R415, R416, R434): a tick, LOAD, a read that latches, the oscillator, the
supply of PD_AON, a survey entry. -/
def Obligations.RealTimeClock : Prop :=
  ∀ (s : State) (m : Master) (vaon : Bool), noSteps s →
    (s.bt AON_STAT 30 = true → s.rtcLen ≤ rtcCount s → ∃ t, exec .rtcTick s = .next t ∧ t.rtc = (s.rtc + 1) % 2 ^ 64 ∧
      t.rtcPre = 0 ∧ t.rtcFrom = s.rtcFrom + s.rtcLen - s.rtcPre ∧ (s.bt PMU_MONSTAT 26 = false →
        t.rd AON_BATSEC = BitVec.ofNat 32 (min (2 ^ 32 - 1) ((s.rd AON_BATSEC).toNat + 1))) ∧
      ∀ (k : Fin 32) (b : Nat), (s.slot k.val).en = true → (s.slot k.val).tempAge < 9 → b = (s.slot k.val).band → b < 16 →
        wearOf t k.val = min (2 ^ 48 - 1) (wearOf s k.val +
          s.fl (AON_IDW k.val (6 + b / 4)) (8 * (b % 4) + 7) (8 * (b % 4)))) ∧
    (opens s m AON_RTC_CMD .aon → supervisor s m.val = true →
      ∃ t, exec (.rtcLoad m) s = .next t ∧ t.resp = .ok 0 ∧ t.rtc = s.rtc ∧ t.rtcLoad = true ∧
        (s.bt AON_STAT 30 = true → { at_ := clk32Next s - 1, what := .rtc } ∈ t.agenda)) ∧
    (∀ u, u = rtcLoadNow s → s.rtcLoad = true → s.bt AON_STAT 30 = true → u.rtcLoad = false ∧ u.rtcPre = 0 ∧
      u.rtc = (s.rd AON_RTC_SETLO).toNat + 2 ^ 32 * (s.rd AON_RTC_SETHI).toNat) ∧
    (opens s m AON_RTC_SECLO .aon → ∃ t, exec (.rtcRead m) s = .next t ∧ t.resp = .ok (BitVec.ofNat 32 s.rtc) ∧ t.rtc = s.rtc ∧
      t.mrd m.val AON_RTC_SECHI = BitVec.ofNat 32 (s.rtc / 2 ^ 32) ∧
      t.mrd m.val AON_RTC_SUB = BitVec.ofNat 32 (rtcSub s) ∧ t.mrd m.val AON_RTC_CAL0 = cal0 s.rtc ∧
      t.mrd m.val AON_RTC_CAL1 = cal1 s.rtc) ∧
    (s.bt AON_STAT 30 = true → ∃ t, exec .oscLoss s = .next t ∧ t.bt AON_STAT 30 = false ∧ t.rtc = s.rtc ∧
      t.rtcPre = rtcSub s) ∧
    (s.bt AON_STAT 30 = false → ∃ t, exec .oscReady s = .next t ∧ t.bt AON_STAT 30 = true ∧
      t.rtc = if s.rtcLoad then (s.rd AON_RTC_SETLO).toNat + 2 ^ 32 * (s.rd AON_RTC_SETHI).toNat else s.rtc) ∧
    (s.bt PMU_MONSTAT 26 = !vaon → ∃ t, exec (.aonSupplySwitch vaon) s = .next t ∧ t.bt PMU_MONSTAT 26 = vaon ∧
      t.fl AON_BATCNT 15 0 = (s.fl AON_BATCNT 15 0 + if vaon then 0 else 1) % 65536) ∧
    (∀ (i : Fin 16) v, opens s m (AON_SURV i.val) .aon → supervisor s m.val = true → ∃ t, exec (.surveyWrite m i v) s = .next t ∧
      t.resp = .ok 0 ∧ t.fl (AON_SURV i.val) 15 0 = fld v 15 0 ∧ t.bt (AON_SURV i.val) 31 = bitAt v 31 ∧
      (s.bt AON_STAT 30 = true → bitAt v 31 = true → fld v 15 0 ≤ s.rtc / 86400 → t.fl (AON_SURV i.val) 30 27 = 15))

/-- Tier 2. The line module slots (R421, R423 to R430): removal and insertion, identification, the commands, the overcurrent
trip, a surge, the temperature, the end of a wear write. -/
def Obligations.LineModuleSlots : Prop :=
  ∀ (s : State) (m : Master) (k : Fin 32) (h : SlotH), h = s.slot k.val →
    (h.prs = true → ∃ t, exec (.slotRemove k) s = .next t ∧ (t.slot k.val).prs = false ∧ (t.slot k.val).en = false ∧
      (t.slot k.val).state = 0 ∧ (h.en = true → t.bt (AON_SLOT_WEARHI k.val) 30 = true)) ∧
    (h.prs = false → slotsLive s = true → ∃ t, exec (.slotInsert k) s = .next t ∧ (t.slot k.val).prs = true ∧
      (t.slot k.val).state = 1 ∧ t.bt SLOT_IRQSTAT 0 = true) ∧
    (∀ id p0 p1 flt, slotsLive s = true → h.state = 1 →
      (∃ t, exec (.slotIdentify k false id p0 p1 flt) s = .next t ∧ (t.slot k.val).state = 5 ∧ (t.slot k.val).en = false ∧
        t.fl (SLOT_STAT k.val) 7 0 = min 255 (s.fl (SLOT_STAT k.val) 7 0 + 1) ∧ t.bt SLOT_IRQSTAT 1 = true) ∧
      (idGood id = true → s.rd (SLOT_CFG k.val) = 0 → h.rejoin = false → sameModule s k.val id = false → readPage p0 = none →
        readPage p1 = none → ∃ t, exec (.slotIdentify k true id p0 p1 flt) s = .next t ∧ (t.slot k.val).state = 2 ∧
        recValid t k.val = true ∧ wearOf t k.val = 16 * leAt id 56 4 ∧ t.fl (AON_SLOT_INSOCT k.val) 31 16 = 1 ∧
        t.rd (SLOT_SEQ k.val) = 0 ∧ ∀ j < 16, t.rd (AON_IDW k.val j) = BitVec.ofNat 32 (leAt id (4 * j) 4))) ∧
    (noSteps s → opens s m (SLOT_CMD k.val) .hb → supervisor s m.val = true →
      (h.state = 2 → h.flt = false → ∃ t, exec (.slotOn m k) s = .next t ∧ t.resp = .ok 0 ∧ (t.slot k.val).state = 3 ∧
        (t.slot k.val).en = true) ∧
      (h.state = 3 → ∃ t, exec (.slotOff m k) s = .next t ∧ t.resp = .ok 0 ∧ (t.slot k.val).state = 2 ∧
        (t.slot k.val).en = false ∧ t.bt (AON_SLOT_WEARHI k.val) 30 = true) ∧
      (h.state = 4 → h.flt = false → ∃ t, exec (.slotClear m k) s = .next t ∧ t.resp = .ok 0 ∧ (t.slot k.val).state = 2) ∧
      (h.state = 5 → ∃ t, exec (.slotClear m k) s = .next t ∧ t.resp = .ok 0 ∧ (t.slot k.val).state = 1)) ∧
    (h.en = true → h.state = 3 → ∃ t, exec (.slotOvercurrent k) s = .next t ∧ (t.slot k.val).en = false ∧
      (t.slot k.val).state = 4 ∧ (t.slot k.val).flt = true ∧
      t.fl (AON_SLOT_INSOCT k.val) 15 0 = min 65535 (s.fl (AON_SLOT_INSOCT k.val) 15 0 + 1)) ∧
    (h.flt = true → ∀ w, exec (.surgePulse k w) s = .next (close (slotFlt s k.val false))) ∧
    (∀ w, h.flt = false → (1000 ≤ w → w < 5000 → ∃ t, exec (.surgePulse k w) s = .next t ∧
        t.fl (AON_SLOT_S12 k.val) 15 0 = min 65535 (s.fl (AON_SLOT_S12 k.val) 15 0 + 1)) ∧
      (5000 ≤ w → w < 10000 → ∃ t, exec (.surgePulse k w) s = .next t ∧
        t.fl (AON_SLOT_S12 k.val) 31 16 = min 65535 (s.fl (AON_SLOT_S12 k.val) 31 16 + 1)) ∧
      (10000 ≤ w → w < 20000 → ∃ t, exec (.surgePulse k w) s = .next t ∧
        t.fl (AON_SLOT_S34 k.val) 15 0 = min 65535 (s.fl (AON_SLOT_S34 k.val) 15 0 + 1)) ∧
      (20000 ≤ w → ∃ t, exec (.surgePulse k w) s = .next t ∧
        t.fl (AON_SLOT_S34 k.val) 31 16 = min 65535 (s.fl (AON_SLOT_S34 k.val) 31 16 + 1)) ∧
      (w < 1000 → exec (.surgePulse k w) s = .next (close s))) ∧
    (∀ x < 8192, slotsLive s = true → h.state = 3 → ∃ t, exec (.slotTempRead k (some x)) s = .next t ∧
      t.rd (SLOT_TEMP k.val) = BitVec.ofNat 32 (2 ^ 31 + x) ∧ (t.slot k.val).tempAge = 0 ∧
      (t.slot k.val).band = min 15 ((sext 13 x + 640) / 160).toNat) ∧
    (∀ r, h.writing = some r → h.due = false →
      (∃ t, exec (.wearWriteDone k) s = .next t ∧ (t.slot k.val).writing = none ∧
        t.bt (AON_SLOT_WEARHI k.val) 30 = false ∧ t.rd (SLOT_SEQ k.val) = s.rd (SLOT_SEQ k.val) + 1 ∧
        Out.wear k.val ((s.rd (SLOT_SEQ k.val)).toNat % 2) (wearPage s k.val r) ∈ t.out) ∧
      ∃ t, exec (.wearWriteAbandon k) s = .next t ∧ (t.slot k.val).writing = none ∧ (t.slot k.val).retry = 61 ∧
        t.bt (AON_SLOT_WEARHI k.val) 30 = s.bt (AON_SLOT_WEARHI k.val) 30 ∧
        t.fl (SLOT_STAT k.val) 15 8 = min 255 (s.fl (SLOT_STAT k.val) 15 8 + 1) ∧ t.bt SLOT_IRQSTAT 2 = true) ∧
    (h.retry = 1 → h.prs = true → slotsLive s = true → h.writing = none → ∃ t, exec (.wearWriteRetry k) s = .next t ∧
      (t.slot k.val).writing = some (recOf s k.val) ∧ t.bt (AON_SLOT_WEARHI k.val) 30 = true)

/-- Tier 2. Diagnostics (R440, R444 to R447): the error log, whose oldest entry W0 to W3 show, a read of W3 removes and no new
one overwrites; the memory test, forced tests, calibration. -/
def Obligations.Diagnostics : Prop :=
  ∀ (s : State) (m : Master), noSteps s →
    (opens s m MEM_ELOG_W3 .mbx → ∃ t, exec (.elogRead m) s = .next t ∧ t.resp = .ok (elogWord s 3) ∧ t.elog = s.elog.tail ∧
      (s.elog ≠ [] → t.fl MEM_ELOG_STAT 5 0 = s.elog.tail.length % 64)) ∧
    (∀ (j : Fin 3) (a : Word), a.toNat = MEM_ELOG_W0 + 4 * j.val → opens s m a.toNat .mbx →
      ∃ t, exec (.registerWrite m a .w .rd) s = .next t ∧ t.resp = .ok (elogWord s j.val) ∧ t.elog = s.elog) ∧
    (∀ id a wr c, (logErr s id a wr c).elog = s.elog ∨ ∃ e, (logErr s id a wr c).elog = s.elog ++ [e]) ∧
    (opens s m MEM_BIST_CMD .mbx → supervisor s m.val = true →
      (∀ b : Fin 32, bistRuns s = false → ∃ t, exec (.bistStart m b) s = .next t ∧ t.resp = .ok 0 ∧
        t.fl MEM_BIST_STAT 28 24 = b.val ∧ t.mem = s.mem ∧
        t.fl MEM_BIST_STAT 31 29 = if s.fl (MEM_OWN b.val) 4 0 = 12 ∧ s.bt (MEM_OWN b.val) 8 = false then 1 else 4) ∧
      (bistRuns s = true → ∃ t, exec (.bistAbort m) s = .next t ∧ t.resp = .ok 0 ∧ t.fl MEM_BIST_STAT 31 29 = 5 ∧
        t.bt MEM_DG_IRQSTAT 2 = true)) ∧
    (∀ fails (word : BitVec 16), bistRuns s = true → ∃ t, exec (.bistDone fails word) s = .next t ∧
      t.bt MEM_DG_IRQSTAT 2 = true ∧ t.fl MEM_BIST_STAT 31 29 = (if fails = 0 then 2 else 3) ∧
      t.fl MEM_BIST_STAT 23 16 = min fails 255 ∧ (fails ≠ 0 → t.fl MEM_BIST_STAT 15 0 = word.toNat) ∧
      ∀ a, bankLo (bistBank s) ≤ a → a < bankLo (bistBank s + 1) → t.byte a = 0) ∧
    (∀ x : Fin 29, opens s m MEM_FT_CMD .mbx → supervisor s m.val = true → onlySwsub s x.val = true → bitAt s.ftRan x.val = false →
      ftRuns s = false → ∃ t, exec (.ftStart m x) s = .next t ∧ t.resp = .ok 0 ∧ ftRuns t = true ∧
      t.fl MEM_FT_STAT 28 24 = x.val ∧ bitAt t.ftRan x.val = true) ∧
    (∀ fails cells x c, ftRuns s = true → x = s.fl MEM_FT_STAT 28 24 → c = (if 10 ≤ x ∧ x < 26 then cells % 2 ^ 17 else 0) →
      ∃ t, exec (.ftDone fails cells) s = .next t ∧ t.fl MEM_FT_STAT 31 29 = (if fails = 0 ∧ c = 0 then 2 else 3) ∧
        t.fl MEM_FT_STAT 15 0 = min fails 65535 ∧ t.rd MEM_FT_CELL = BitVec.ofNat 32 c ∧ t.bt MEM_DG_IRQSTAT 1 = true) ∧
    (opens s m MEM_CAL_CMD .mbx → supervisor s m.val = true →
      (∀ x : Fin 2, ∃ t, exec (.adcCalRequest m x) s = .next t ∧ t.resp = .ok 0 ∧
        t.rd MEM_CAL_STAT = s.rd MEM_CAL_STAT ||| BitVec.ofNat 32 (2 ^ x.val)) ∧
      ∀ p : Fin 12, ∃ t, exec (.serdesCalRequest m p) s = .next t ∧ t.resp = .ok 0 ∧
        t.rd MEM_CAL_STAT = s.rd MEM_CAL_STAT ||| BitVec.ofNat 32 (2 ^ (p.val + 2))) ∧
    (∀ x : Fin 2, s.bt MEM_CAL_STAT x.val = true → 32 ≤ calCount s x.val → ∃ t, exec (.adcCalDone x) s = .next t ∧
      t.bt MEM_CAL_STAT x.val = false ∧
      t.fl MEM_CAL_STAT 31 16 = (s.fl MEM_CAL_STAT 31 16 + 1) % 65536 ∧ t.bt MEM_DG_IRQSTAT 0 = true) ∧
    (∀ p : Fin 12, s.bt MEM_CAL_STAT (p.val + 2) = true → bitAt s.serCal (p.val + 2) = false →
      linkUp s p.val = false ∨ (gatesRun s p.val = true ∧ (gate s p.val).begun = s.cycles + 1 ∧
        fld (gEntry s p.val (gate s p.val).idx) 31 24 = 0 ∧ 5000 ≤ fld (gEntry s p.val (gate s p.val).idx) 23 0) →
      ∃ t, exec (.serdesCalStart p) s = .next t ∧ bitAt t.serCal (p.val + 2) = true ∧ t.bt MEM_CAL_STAT (p.val + 2) = true) ∧
    (∀ p : Fin 12, bitAt s.serCal (p.val + 2) = true → ∃ t, exec (.serdesCalDone p) s = .next t ∧
      bitAt t.serCal (p.val + 2) = false ∧ t.bt MEM_CAL_STAT (p.val + 2) = false ∧ t.bt MEM_DG_IRQSTAT 0 = true)

end
end

