-- ==== Sys2Proof/Laws/State.lean ====
section
/-! SUPPORT. One lemma per field and update of the state: the field that is not updated stays. -/

namespace Sys2Proof.Machine

/-! After a register write. -/

@[simp] theorem State.wr_pending (s : State) (a : Nat) (v : Word) : (s.wr a v).pending = s.pending := (rfl)
@[simp] theorem State.wr_freeCtr (s : State) (a : Nat) (v : Word) : (s.wr a v).freeCtr = s.freeCtr := (rfl)
@[simp] theorem State.wr_upsets (s : State) (a : Nat) (v : Word) : (s.wr a v).upsets = s.upsets := (rfl)
@[simp] theorem State.wr_cycles (s : State) (a : Nat) (v : Word) : (s.wr a v).cycles = s.cycles := (rfl)
@[simp] theorem State.wr_resp (s : State) (a : Nat) (v : Word) : (s.wr a v).resp = s.resp := (rfl)
@[simp] theorem State.wr_out (s : State) (a : Nat) (v : Word) : (s.wr a v).out = s.out := (rfl)
@[simp] theorem State.wr_mregs (s : State) (a : Nat) (v : Word) : (s.wr a v).mregs = s.mregs := (rfl)
@[simp] theorem State.wr_rwoDone (s : State) (a : Nat) (v : Word) : (s.wr a v).rwoDone = s.rwoDone := (rfl)
@[simp] theorem State.wr_mem (s : State) (a : Nat) (v : Word) : (s.wr a v).mem = s.mem := (rfl)
@[simp] theorem State.wr_ecc (s : State) (a : Nat) (v : Word) : (s.wr a v).ecc = s.ecc := (rfl)
@[simp] theorem State.wr_fifo (s : State) (a : Nat) (v : Word) : (s.wr a v).fifo = s.fifo := (rfl)
@[simp] theorem State.wr_cellH (s : State) (a : Nat) (v : Word) : (s.wr a v).cellH = s.cellH := (rfl)
@[simp] theorem State.wr_agenda (s : State) (a : Nat) (v : Word) : (s.wr a v).agenda = s.agenda := (rfl)
@[simp] theorem State.wr_gridFrom (s : State) (a : Nat) (v : Word) : (s.wr a v).gridFrom = s.gridFrom := (rfl)
@[simp] theorem State.wr_clk0 (s : State) (a : Nat) (v : Word) : (s.wr a v).clk0 = s.clk0 := (rfl)
@[simp] theorem State.wr_evfWas (s : State) (a : Nat) (v : Word) : (s.wr a v).evfWas = s.evfWas := (rfl)
@[simp] theorem State.wr_dmaH (s : State) (a : Nat) (v : Word) : (s.wr a v).dmaH = s.dmaH := (rfl)
@[simp] theorem State.wr_dmaLast (s : State) (a : Nat) (v : Word) : (s.wr a v).dmaLast = s.dmaLast := (rfl)
@[simp] theorem State.wr_dmaAt (s : State) (a : Nat) (v : Word) : (s.wr a v).dmaAt = s.dmaAt := (rfl)
@[simp] theorem State.wr_shdH (s : State) (a : Nat) (v : Word) : (s.wr a v).shdH = s.shdH := (rfl)
@[simp] theorem State.wr_tbs (s : State) (a : Nat) (v : Word) : (s.wr a v).tbs = s.tbs := (rfl)
@[simp] theorem State.wr_elog (s : State) (a : Nat) (v : Word) : (s.wr a v).elog = s.elog := (rfl)
@[simp] theorem State.wr_undef (s : State) (a : Nat) (v : Word) : (s.wr a v).undef = s.undef := (rfl)
@[simp] theorem State.wr_msix (s : State) (a : Nat) (v : Word) : (s.wr a v).msix = s.msix := (rfl)
@[simp] theorem State.wr_srcs (s : State) (a : Nat) (v : Word) : (s.wr a v).srcs = s.srcs := (rfl)
@[simp] theorem State.wr_ldrHold (s : State) (a : Nat) (v : Word) : (s.wr a v).ldrHold = s.ldrHold := (rfl)
@[simp] theorem State.wr_pulseSrc (s : State) (a : Nat) (v : Word) : (s.wr a v).pulseSrc = s.pulseSrc := (rfl)
@[simp] theorem State.wr_wdrst (s : State) (a : Nat) (v : Word) : (s.wr a v).wdrst = s.wdrst := (rfl)
@[simp] theorem State.wr_pdoff (s : State) (a : Nat) (v : Word) : (s.wr a v).pdoff = s.pdoff := (rfl)
@[simp] theorem State.wr_bankuv (s : State) (a : Nat) (v : Word) : (s.wr a v).bankuv = s.bankuv := (rfl)
@[simp] theorem State.wr_holdSafe (s : State) (a : Nat) (v : Word) : (s.wr a v).holdSafe = s.holdSafe := (rfl)
@[simp] theorem State.wr_pllSafe (s : State) (a : Nat) (v : Word) : (s.wr a v).pllSafe = s.pllSafe := (rfl)
@[simp] theorem State.wr_keep (s : State) (a : Nat) (v : Word) : (s.wr a v).keep = s.keep := (rfl)
@[simp] theorem State.wr_canRx (s : State) (a : Nat) (v : Word) : (s.wr a v).canRx = s.canRx := (rfl)
@[simp] theorem State.wr_canStopping (s : State) (a : Nat) (v : Word) : (s.wr a v).canStopping = s.canStopping := (rfl)
@[simp] theorem State.wr_canSof (s : State) (a : Nat) (v : Word) : (s.wr a v).canSof = s.canSof := (rfl)
@[simp] theorem State.wr_canAborting (s : State) (a : Nat) (v : Word) : (s.wr a v).canAborting = s.canAborting := (rfl)
@[simp] theorem State.wr_tsq (s : State) (a : Nat) (v : Word) : (s.wr a v).tsq = s.tsq := (rfl)
@[simp] theorem State.wr_pps (s : State) (a : Nat) (v : Word) : (s.wr a v).pps = s.pps := (rfl)
@[simp] theorem State.wr_hxH (s : State) (a : Nat) (v : Word) : (s.wr a v).hxH = s.hxH := (rfl)
@[simp] theorem State.wr_adcH (s : State) (a : Nat) (v : Word) : (s.wr a v).adcH = s.adcH := (rfl)
@[simp] theorem State.wr_img (s : State) (a : Nat) (v : Word) : (s.wr a v).img = s.img := (rfl)
@[simp] theorem State.wr_imgE (s : State) (a : Nat) (v : Word) : (s.wr a v).imgE = s.imgE := (rfl)
@[simp] theorem State.wr_imgAt (s : State) (a : Nat) (v : Word) : (s.wr a v).imgAt = s.imgAt := (rfl)
@[simp] theorem State.wr_xlist (s : State) (a : Nat) (v : Word) : (s.wr a v).xlist = s.xlist := (rfl)
@[simp] theorem State.wr_subs (s : State) (a : Nat) (v : Word) : (s.wr a v).subs = s.subs := (rfl)
@[simp] theorem State.wr_maps (s : State) (a : Nat) (v : Word) : (s.wr a v).maps = s.maps := (rfl)
@[simp] theorem State.wr_xpend (s : State) (a : Nat) (v : Word) : (s.wr a v).xpend = s.xpend := (rfl)
@[simp] theorem State.wr_missDue (s : State) (a : Nat) (v : Word) : (s.wr a v).missDue = s.missDue := (rfl)
@[simp] theorem State.wr_wtsSet (s : State) (a : Nat) (v : Word) : (s.wr a v).wtsSet = s.wtsSet := (rfl)
@[simp] theorem State.wr_fdb (s : State) (a : Nat) (v : Word) : (s.wr a v).fdb = s.fdb := (rfl)
@[simp] theorem State.wr_swq (s : State) (a : Nat) (v : Word) : (s.wr a v).swq = s.swq := (rfl)
@[simp] theorem State.wr_swAvg (s : State) (a : Nat) (v : Word) : (s.wr a v).swAvg = s.swAvg := (rfl)
@[simp] theorem State.wr_headAt (s : State) (a : Nat) (v : Word) : (s.wr a v).headAt = s.headAt := (rfl)
@[simp] theorem State.wr_swHold (s : State) (a : Nat) (v : Word) : (s.wr a v).swHold = s.swHold := (rfl)
@[simp] theorem State.wr_swPause (s : State) (a : Nat) (v : Word) : (s.wr a v).swPause = s.swPause := (rfl)
@[simp] theorem State.wr_txEnd (s : State) (a : Nat) (v : Word) : (s.wr a v).txEnd = s.txEnd := (rfl)
@[simp] theorem State.wr_pfcAt (s : State) (a : Nat) (v : Word) : (s.wr a v).pfcAt = s.pfcAt := (rfl)
@[simp] theorem State.wr_fdbBusy (s : State) (a : Nat) (v : Word) : (s.wr a v).fdbBusy = s.fdbBusy := (rfl)
@[simp] theorem State.wr_ageAt (s : State) (a : Nat) (v : Word) : (s.wr a v).ageAt = s.ageAt := (rfl)
@[simp] theorem State.wr_gates (s : State) (a : Nat) (v : Word) : (s.wr a v).gates = s.gates := (rfl)
@[simp] theorem State.wr_mtrs (s : State) (a : Nat) (v : Word) : (s.wr a v).mtrs = s.mtrs := (rfl)
@[simp] theorem State.wr_recs (s : State) (a : Nat) (v : Word) : (s.wr a v).recs = s.recs := (rfl)
@[simp] theorem State.wr_prp (s : State) (a : Nat) (v : Word) : (s.wr a v).prp = s.prp := (rfl)
@[simp] theorem State.wr_mbxH (s : State) (a : Nat) (v : Word) : (s.wr a v).mbxH = s.mbxH := (rfl)
@[simp] theorem State.wr_mbxX (s : State) (a : Nat) (v : Word) : (s.wr a v).mbxX = s.mbxX := (rfl)
@[simp] theorem State.wr_ctxH (s : State) (a : Nat) (v : Word) : (s.wr a v).ctxH = s.ctxH := (rfl)
@[simp] theorem State.wr_issueH (s : State) (a : Nat) (v : Word) : (s.wr a v).issueH = s.issueH := (rfl)
@[simp] theorem State.wr_issueNo (s : State) (a : Nat) (v : Word) : (s.wr a v).issueNo = s.issueNo := (rfl)
@[simp] theorem State.wr_stale (s : State) (a : Nat) (v : Word) : (s.wr a v).stale = s.stale := (rfl)
@[simp] theorem State.wr_icache (s : State) (a : Nat) (v : Word) : (s.wr a v).icache = s.icache := (rfl)
@[simp] theorem State.wr_dcache (s : State) (a : Nat) (v : Word) : (s.wr a v).dcache = s.dcache := (rfl)
@[simp] theorem State.wr_fpr (s : State) (a : Nat) (v : Word) : (s.wr a v).fpr = s.fpr := (rfl)
@[simp] theorem State.wr_peFrom (s : State) (a : Nat) (v : Word) : (s.wr a v).peFrom = s.peFrom := (rfl)
@[simp] theorem State.wr_arbH (s : State) (a : Nat) (v : Word) : (s.wr a v).arbH = s.arbH := (rfl)
@[simp] theorem State.wr_coldHeld (s : State) (a : Nat) (v : Word) : (s.wr a v).coldHeld = s.coldHeld := (rfl)
@[simp] theorem State.wr_replay (s : State) (a : Nat) (v : Word) : (s.wr a v).replay = s.replay := (rfl)
@[simp] theorem State.wr_hbH (s : State) (a : Nat) (v : Word) : (s.wr a v).hbH = s.hbH := (rfl)
@[simp] theorem State.wr_slotH (s : State) (a : Nat) (v : Word) : (s.wr a v).slotH = s.slotH := (rfl)
@[simp] theorem State.wr_survLatch (s : State) (a : Nat) (v : Word) : (s.wr a v).survLatch = s.survLatch := (rfl)
@[simp] theorem State.wr_rtc (s : State) (a : Nat) (v : Word) : (s.wr a v).rtc = s.rtc := (rfl)
@[simp] theorem State.wr_rtcFrom (s : State) (a : Nat) (v : Word) : (s.wr a v).rtcFrom = s.rtcFrom := (rfl)
@[simp] theorem State.wr_rtcPre (s : State) (a : Nat) (v : Word) : (s.wr a v).rtcPre = s.rtcPre := (rfl)
@[simp] theorem State.wr_rtcLen (s : State) (a : Nat) (v : Word) : (s.wr a v).rtcLen = s.rtcLen := (rfl)
@[simp] theorem State.wr_rtcTrim (s : State) (a : Nat) (v : Word) : (s.wr a v).rtcTrim = s.rtcTrim := (rfl)
@[simp] theorem State.wr_rtcLoad (s : State) (a : Nat) (v : Word) : (s.wr a v).rtcLoad = s.rtcLoad := (rfl)
@[simp] theorem State.wr_seqH (s : State) (a : Nat) (v : Word) : (s.wr a v).seqH = s.seqH := (rfl)
@[simp] theorem State.wr_ldrH (s : State) (a : Nat) (v : Word) : (s.wr a v).ldrH = s.ldrH := (rfl)
@[simp] theorem State.wr_flash (s : State) (a : Nat) (v : Word) : (s.wr a v).flash = s.flash := (rfl)
@[simp] theorem State.wr_fuses (s : State) (a : Nat) (v : Word) : (s.wr a v).fuses = s.fuses := (rfl)
@[simp] theorem State.wr_ftRan (s : State) (a : Nat) (v : Word) : (s.wr a v).ftRan = s.ftRan := (rfl)
@[simp] theorem State.wr_serCal (s : State) (a : Nat) (v : Word) : (s.wr a v).serCal = s.serCal := (rfl)

/-! After a per-master register write. -/

@[simp] theorem State.mwr_pending (s : State) (m a : Nat) (v : Word) : (s.mwr m a v).pending = s.pending := (rfl)
@[simp] theorem State.mwr_freeCtr (s : State) (m a : Nat) (v : Word) : (s.mwr m a v).freeCtr = s.freeCtr := (rfl)
@[simp] theorem State.mwr_upsets (s : State) (m a : Nat) (v : Word) : (s.mwr m a v).upsets = s.upsets := (rfl)
@[simp] theorem State.mwr_cycles (s : State) (m a : Nat) (v : Word) : (s.mwr m a v).cycles = s.cycles := (rfl)
@[simp] theorem State.mwr_resp (s : State) (m a : Nat) (v : Word) : (s.mwr m a v).resp = s.resp := (rfl)
@[simp] theorem State.mwr_out (s : State) (m a : Nat) (v : Word) : (s.mwr m a v).out = s.out := (rfl)
@[simp] theorem State.mwr_regs (s : State) (m a : Nat) (v : Word) : (s.mwr m a v).regs = s.regs := (rfl)
@[simp] theorem State.mwr_rwoDone (s : State) (m a : Nat) (v : Word) : (s.mwr m a v).rwoDone = s.rwoDone := (rfl)
@[simp] theorem State.mwr_mem (s : State) (m a : Nat) (v : Word) : (s.mwr m a v).mem = s.mem := (rfl)
@[simp] theorem State.mwr_ecc (s : State) (m a : Nat) (v : Word) : (s.mwr m a v).ecc = s.ecc := (rfl)
@[simp] theorem State.mwr_fifo (s : State) (m a : Nat) (v : Word) : (s.mwr m a v).fifo = s.fifo := (rfl)
@[simp] theorem State.mwr_cellH (s : State) (m a : Nat) (v : Word) : (s.mwr m a v).cellH = s.cellH := (rfl)
@[simp] theorem State.mwr_agenda (s : State) (m a : Nat) (v : Word) : (s.mwr m a v).agenda = s.agenda := (rfl)
@[simp] theorem State.mwr_gridFrom (s : State) (m a : Nat) (v : Word) : (s.mwr m a v).gridFrom = s.gridFrom := (rfl)
@[simp] theorem State.mwr_clk0 (s : State) (m a : Nat) (v : Word) : (s.mwr m a v).clk0 = s.clk0 := (rfl)
@[simp] theorem State.mwr_evfWas (s : State) (m a : Nat) (v : Word) : (s.mwr m a v).evfWas = s.evfWas := (rfl)
@[simp] theorem State.mwr_dmaH (s : State) (m a : Nat) (v : Word) : (s.mwr m a v).dmaH = s.dmaH := (rfl)
@[simp] theorem State.mwr_dmaLast (s : State) (m a : Nat) (v : Word) : (s.mwr m a v).dmaLast = s.dmaLast := (rfl)
@[simp] theorem State.mwr_dmaAt (s : State) (m a : Nat) (v : Word) : (s.mwr m a v).dmaAt = s.dmaAt := (rfl)
@[simp] theorem State.mwr_shdH (s : State) (m a : Nat) (v : Word) : (s.mwr m a v).shdH = s.shdH := (rfl)
@[simp] theorem State.mwr_tbs (s : State) (m a : Nat) (v : Word) : (s.mwr m a v).tbs = s.tbs := (rfl)
@[simp] theorem State.mwr_elog (s : State) (m a : Nat) (v : Word) : (s.mwr m a v).elog = s.elog := (rfl)
@[simp] theorem State.mwr_undef (s : State) (m a : Nat) (v : Word) : (s.mwr m a v).undef = s.undef := (rfl)
@[simp] theorem State.mwr_msix (s : State) (m a : Nat) (v : Word) : (s.mwr m a v).msix = s.msix := (rfl)
@[simp] theorem State.mwr_srcs (s : State) (m a : Nat) (v : Word) : (s.mwr m a v).srcs = s.srcs := (rfl)
@[simp] theorem State.mwr_ldrHold (s : State) (m a : Nat) (v : Word) : (s.mwr m a v).ldrHold = s.ldrHold := (rfl)
@[simp] theorem State.mwr_pulseSrc (s : State) (m a : Nat) (v : Word) : (s.mwr m a v).pulseSrc = s.pulseSrc := (rfl)
@[simp] theorem State.mwr_wdrst (s : State) (m a : Nat) (v : Word) : (s.mwr m a v).wdrst = s.wdrst := (rfl)
@[simp] theorem State.mwr_pdoff (s : State) (m a : Nat) (v : Word) : (s.mwr m a v).pdoff = s.pdoff := (rfl)
@[simp] theorem State.mwr_bankuv (s : State) (m a : Nat) (v : Word) : (s.mwr m a v).bankuv = s.bankuv := (rfl)
@[simp] theorem State.mwr_holdSafe (s : State) (m a : Nat) (v : Word) : (s.mwr m a v).holdSafe = s.holdSafe := (rfl)
@[simp] theorem State.mwr_pllSafe (s : State) (m a : Nat) (v : Word) : (s.mwr m a v).pllSafe = s.pllSafe := (rfl)
@[simp] theorem State.mwr_keep (s : State) (m a : Nat) (v : Word) : (s.mwr m a v).keep = s.keep := (rfl)
@[simp] theorem State.mwr_canRx (s : State) (m a : Nat) (v : Word) : (s.mwr m a v).canRx = s.canRx := (rfl)
@[simp] theorem State.mwr_canStopping (s : State) (m a : Nat) (v : Word) : (s.mwr m a v).canStopping = s.canStopping := (rfl)
@[simp] theorem State.mwr_canSof (s : State) (m a : Nat) (v : Word) : (s.mwr m a v).canSof = s.canSof := (rfl)
@[simp] theorem State.mwr_canAborting (s : State) (m a : Nat) (v : Word) : (s.mwr m a v).canAborting = s.canAborting := (rfl)
@[simp] theorem State.mwr_tsq (s : State) (m a : Nat) (v : Word) : (s.mwr m a v).tsq = s.tsq := (rfl)
@[simp] theorem State.mwr_pps (s : State) (m a : Nat) (v : Word) : (s.mwr m a v).pps = s.pps := (rfl)
@[simp] theorem State.mwr_hxH (s : State) (m a : Nat) (v : Word) : (s.mwr m a v).hxH = s.hxH := (rfl)
@[simp] theorem State.mwr_adcH (s : State) (m a : Nat) (v : Word) : (s.mwr m a v).adcH = s.adcH := (rfl)
@[simp] theorem State.mwr_img (s : State) (m a : Nat) (v : Word) : (s.mwr m a v).img = s.img := (rfl)
@[simp] theorem State.mwr_imgE (s : State) (m a : Nat) (v : Word) : (s.mwr m a v).imgE = s.imgE := (rfl)
@[simp] theorem State.mwr_imgAt (s : State) (m a : Nat) (v : Word) : (s.mwr m a v).imgAt = s.imgAt := (rfl)
@[simp] theorem State.mwr_xlist (s : State) (m a : Nat) (v : Word) : (s.mwr m a v).xlist = s.xlist := (rfl)
@[simp] theorem State.mwr_subs (s : State) (m a : Nat) (v : Word) : (s.mwr m a v).subs = s.subs := (rfl)
@[simp] theorem State.mwr_maps (s : State) (m a : Nat) (v : Word) : (s.mwr m a v).maps = s.maps := (rfl)
@[simp] theorem State.mwr_xpend (s : State) (m a : Nat) (v : Word) : (s.mwr m a v).xpend = s.xpend := (rfl)
@[simp] theorem State.mwr_missDue (s : State) (m a : Nat) (v : Word) : (s.mwr m a v).missDue = s.missDue := (rfl)
@[simp] theorem State.mwr_wtsSet (s : State) (m a : Nat) (v : Word) : (s.mwr m a v).wtsSet = s.wtsSet := (rfl)
@[simp] theorem State.mwr_fdb (s : State) (m a : Nat) (v : Word) : (s.mwr m a v).fdb = s.fdb := (rfl)
@[simp] theorem State.mwr_swq (s : State) (m a : Nat) (v : Word) : (s.mwr m a v).swq = s.swq := (rfl)
@[simp] theorem State.mwr_swAvg (s : State) (m a : Nat) (v : Word) : (s.mwr m a v).swAvg = s.swAvg := (rfl)
@[simp] theorem State.mwr_headAt (s : State) (m a : Nat) (v : Word) : (s.mwr m a v).headAt = s.headAt := (rfl)
@[simp] theorem State.mwr_swHold (s : State) (m a : Nat) (v : Word) : (s.mwr m a v).swHold = s.swHold := (rfl)
@[simp] theorem State.mwr_swPause (s : State) (m a : Nat) (v : Word) : (s.mwr m a v).swPause = s.swPause := (rfl)
@[simp] theorem State.mwr_txEnd (s : State) (m a : Nat) (v : Word) : (s.mwr m a v).txEnd = s.txEnd := (rfl)
@[simp] theorem State.mwr_pfcAt (s : State) (m a : Nat) (v : Word) : (s.mwr m a v).pfcAt = s.pfcAt := (rfl)
@[simp] theorem State.mwr_fdbBusy (s : State) (m a : Nat) (v : Word) : (s.mwr m a v).fdbBusy = s.fdbBusy := (rfl)
@[simp] theorem State.mwr_ageAt (s : State) (m a : Nat) (v : Word) : (s.mwr m a v).ageAt = s.ageAt := (rfl)
@[simp] theorem State.mwr_gates (s : State) (m a : Nat) (v : Word) : (s.mwr m a v).gates = s.gates := (rfl)
@[simp] theorem State.mwr_mtrs (s : State) (m a : Nat) (v : Word) : (s.mwr m a v).mtrs = s.mtrs := (rfl)
@[simp] theorem State.mwr_recs (s : State) (m a : Nat) (v : Word) : (s.mwr m a v).recs = s.recs := (rfl)
@[simp] theorem State.mwr_prp (s : State) (m a : Nat) (v : Word) : (s.mwr m a v).prp = s.prp := (rfl)
@[simp] theorem State.mwr_mbxH (s : State) (m a : Nat) (v : Word) : (s.mwr m a v).mbxH = s.mbxH := (rfl)
@[simp] theorem State.mwr_mbxX (s : State) (m a : Nat) (v : Word) : (s.mwr m a v).mbxX = s.mbxX := (rfl)
@[simp] theorem State.mwr_ctxH (s : State) (m a : Nat) (v : Word) : (s.mwr m a v).ctxH = s.ctxH := (rfl)
@[simp] theorem State.mwr_issueH (s : State) (m a : Nat) (v : Word) : (s.mwr m a v).issueH = s.issueH := (rfl)
@[simp] theorem State.mwr_issueNo (s : State) (m a : Nat) (v : Word) : (s.mwr m a v).issueNo = s.issueNo := (rfl)
@[simp] theorem State.mwr_stale (s : State) (m a : Nat) (v : Word) : (s.mwr m a v).stale = s.stale := (rfl)
@[simp] theorem State.mwr_icache (s : State) (m a : Nat) (v : Word) : (s.mwr m a v).icache = s.icache := (rfl)
@[simp] theorem State.mwr_dcache (s : State) (m a : Nat) (v : Word) : (s.mwr m a v).dcache = s.dcache := (rfl)
@[simp] theorem State.mwr_fpr (s : State) (m a : Nat) (v : Word) : (s.mwr m a v).fpr = s.fpr := (rfl)
@[simp] theorem State.mwr_peFrom (s : State) (m a : Nat) (v : Word) : (s.mwr m a v).peFrom = s.peFrom := (rfl)
@[simp] theorem State.mwr_arbH (s : State) (m a : Nat) (v : Word) : (s.mwr m a v).arbH = s.arbH := (rfl)
@[simp] theorem State.mwr_coldHeld (s : State) (m a : Nat) (v : Word) : (s.mwr m a v).coldHeld = s.coldHeld := (rfl)
@[simp] theorem State.mwr_replay (s : State) (m a : Nat) (v : Word) : (s.mwr m a v).replay = s.replay := (rfl)
@[simp] theorem State.mwr_hbH (s : State) (m a : Nat) (v : Word) : (s.mwr m a v).hbH = s.hbH := (rfl)
@[simp] theorem State.mwr_slotH (s : State) (m a : Nat) (v : Word) : (s.mwr m a v).slotH = s.slotH := (rfl)
@[simp] theorem State.mwr_survLatch (s : State) (m a : Nat) (v : Word) : (s.mwr m a v).survLatch = s.survLatch := (rfl)
@[simp] theorem State.mwr_rtc (s : State) (m a : Nat) (v : Word) : (s.mwr m a v).rtc = s.rtc := (rfl)
@[simp] theorem State.mwr_rtcFrom (s : State) (m a : Nat) (v : Word) : (s.mwr m a v).rtcFrom = s.rtcFrom := (rfl)
@[simp] theorem State.mwr_rtcPre (s : State) (m a : Nat) (v : Word) : (s.mwr m a v).rtcPre = s.rtcPre := (rfl)
@[simp] theorem State.mwr_rtcLen (s : State) (m a : Nat) (v : Word) : (s.mwr m a v).rtcLen = s.rtcLen := (rfl)
@[simp] theorem State.mwr_rtcTrim (s : State) (m a : Nat) (v : Word) : (s.mwr m a v).rtcTrim = s.rtcTrim := (rfl)
@[simp] theorem State.mwr_rtcLoad (s : State) (m a : Nat) (v : Word) : (s.mwr m a v).rtcLoad = s.rtcLoad := (rfl)
@[simp] theorem State.mwr_seqH (s : State) (m a : Nat) (v : Word) : (s.mwr m a v).seqH = s.seqH := (rfl)
@[simp] theorem State.mwr_ldrH (s : State) (m a : Nat) (v : Word) : (s.mwr m a v).ldrH = s.ldrH := (rfl)
@[simp] theorem State.mwr_flash (s : State) (m a : Nat) (v : Word) : (s.mwr m a v).flash = s.flash := (rfl)
@[simp] theorem State.mwr_fuses (s : State) (m a : Nat) (v : Word) : (s.mwr m a v).fuses = s.fuses := (rfl)
@[simp] theorem State.mwr_ftRan (s : State) (m a : Nat) (v : Word) : (s.mwr m a v).ftRan = s.ftRan := (rfl)
@[simp] theorem State.mwr_serCal (s : State) (m a : Nat) (v : Word) : (s.mwr m a v).serCal = s.serCal := (rfl)

/-! After a byte written. -/

@[simp] theorem State.setByte_pending (s : State) (a : Nat) (v : Byte) : (s.setByte a v).pending = s.pending := (rfl)
@[simp] theorem State.setByte_freeCtr (s : State) (a : Nat) (v : Byte) : (s.setByte a v).freeCtr = s.freeCtr := (rfl)
@[simp] theorem State.setByte_upsets (s : State) (a : Nat) (v : Byte) : (s.setByte a v).upsets = s.upsets := (rfl)
@[simp] theorem State.setByte_cycles (s : State) (a : Nat) (v : Byte) : (s.setByte a v).cycles = s.cycles := (rfl)
@[simp] theorem State.setByte_resp (s : State) (a : Nat) (v : Byte) : (s.setByte a v).resp = s.resp := (rfl)
@[simp] theorem State.setByte_out (s : State) (a : Nat) (v : Byte) : (s.setByte a v).out = s.out := (rfl)
@[simp] theorem State.setByte_regs (s : State) (a : Nat) (v : Byte) : (s.setByte a v).regs = s.regs := (rfl)
@[simp] theorem State.setByte_mregs (s : State) (a : Nat) (v : Byte) : (s.setByte a v).mregs = s.mregs := (rfl)
@[simp] theorem State.setByte_rwoDone (s : State) (a : Nat) (v : Byte) : (s.setByte a v).rwoDone = s.rwoDone := (rfl)
@[simp] theorem State.setByte_ecc (s : State) (a : Nat) (v : Byte) : (s.setByte a v).ecc = s.ecc := (rfl)
@[simp] theorem State.setByte_fifo (s : State) (a : Nat) (v : Byte) : (s.setByte a v).fifo = s.fifo := (rfl)
@[simp] theorem State.setByte_cellH (s : State) (a : Nat) (v : Byte) : (s.setByte a v).cellH = s.cellH := (rfl)
@[simp] theorem State.setByte_agenda (s : State) (a : Nat) (v : Byte) : (s.setByte a v).agenda = s.agenda := (rfl)
@[simp] theorem State.setByte_gridFrom (s : State) (a : Nat) (v : Byte) : (s.setByte a v).gridFrom = s.gridFrom := (rfl)
@[simp] theorem State.setByte_clk0 (s : State) (a : Nat) (v : Byte) : (s.setByte a v).clk0 = s.clk0 := (rfl)
@[simp] theorem State.setByte_evfWas (s : State) (a : Nat) (v : Byte) : (s.setByte a v).evfWas = s.evfWas := (rfl)
@[simp] theorem State.setByte_dmaH (s : State) (a : Nat) (v : Byte) : (s.setByte a v).dmaH = s.dmaH := (rfl)
@[simp] theorem State.setByte_dmaLast (s : State) (a : Nat) (v : Byte) : (s.setByte a v).dmaLast = s.dmaLast := (rfl)
@[simp] theorem State.setByte_dmaAt (s : State) (a : Nat) (v : Byte) : (s.setByte a v).dmaAt = s.dmaAt := (rfl)
@[simp] theorem State.setByte_shdH (s : State) (a : Nat) (v : Byte) : (s.setByte a v).shdH = s.shdH := (rfl)
@[simp] theorem State.setByte_tbs (s : State) (a : Nat) (v : Byte) : (s.setByte a v).tbs = s.tbs := (rfl)
@[simp] theorem State.setByte_elog (s : State) (a : Nat) (v : Byte) : (s.setByte a v).elog = s.elog := (rfl)
@[simp] theorem State.setByte_undef (s : State) (a : Nat) (v : Byte) : (s.setByte a v).undef = s.undef := (rfl)
@[simp] theorem State.setByte_msix (s : State) (a : Nat) (v : Byte) : (s.setByte a v).msix = s.msix := (rfl)
@[simp] theorem State.setByte_srcs (s : State) (a : Nat) (v : Byte) : (s.setByte a v).srcs = s.srcs := (rfl)
@[simp] theorem State.setByte_ldrHold (s : State) (a : Nat) (v : Byte) : (s.setByte a v).ldrHold = s.ldrHold := (rfl)
@[simp] theorem State.setByte_pulseSrc (s : State) (a : Nat) (v : Byte) : (s.setByte a v).pulseSrc = s.pulseSrc := (rfl)
@[simp] theorem State.setByte_wdrst (s : State) (a : Nat) (v : Byte) : (s.setByte a v).wdrst = s.wdrst := (rfl)
@[simp] theorem State.setByte_pdoff (s : State) (a : Nat) (v : Byte) : (s.setByte a v).pdoff = s.pdoff := (rfl)
@[simp] theorem State.setByte_bankuv (s : State) (a : Nat) (v : Byte) : (s.setByte a v).bankuv = s.bankuv := (rfl)
@[simp] theorem State.setByte_holdSafe (s : State) (a : Nat) (v : Byte) : (s.setByte a v).holdSafe = s.holdSafe := (rfl)
@[simp] theorem State.setByte_pllSafe (s : State) (a : Nat) (v : Byte) : (s.setByte a v).pllSafe = s.pllSafe := (rfl)
@[simp] theorem State.setByte_keep (s : State) (a : Nat) (v : Byte) : (s.setByte a v).keep = s.keep := (rfl)
@[simp] theorem State.setByte_canRx (s : State) (a : Nat) (v : Byte) : (s.setByte a v).canRx = s.canRx := (rfl)
@[simp] theorem State.setByte_canStopping (s : State) (a : Nat) (v : Byte) : (s.setByte a v).canStopping = s.canStopping := (rfl)
@[simp] theorem State.setByte_canSof (s : State) (a : Nat) (v : Byte) : (s.setByte a v).canSof = s.canSof := (rfl)
@[simp] theorem State.setByte_canAborting (s : State) (a : Nat) (v : Byte) : (s.setByte a v).canAborting = s.canAborting := (rfl)
@[simp] theorem State.setByte_tsq (s : State) (a : Nat) (v : Byte) : (s.setByte a v).tsq = s.tsq := (rfl)
@[simp] theorem State.setByte_pps (s : State) (a : Nat) (v : Byte) : (s.setByte a v).pps = s.pps := (rfl)
@[simp] theorem State.setByte_hxH (s : State) (a : Nat) (v : Byte) : (s.setByte a v).hxH = s.hxH := (rfl)
@[simp] theorem State.setByte_adcH (s : State) (a : Nat) (v : Byte) : (s.setByte a v).adcH = s.adcH := (rfl)
@[simp] theorem State.setByte_img (s : State) (a : Nat) (v : Byte) : (s.setByte a v).img = s.img := (rfl)
@[simp] theorem State.setByte_imgE (s : State) (a : Nat) (v : Byte) : (s.setByte a v).imgE = s.imgE := (rfl)
@[simp] theorem State.setByte_imgAt (s : State) (a : Nat) (v : Byte) : (s.setByte a v).imgAt = s.imgAt := (rfl)
@[simp] theorem State.setByte_xlist (s : State) (a : Nat) (v : Byte) : (s.setByte a v).xlist = s.xlist := (rfl)
@[simp] theorem State.setByte_subs (s : State) (a : Nat) (v : Byte) : (s.setByte a v).subs = s.subs := (rfl)
@[simp] theorem State.setByte_maps (s : State) (a : Nat) (v : Byte) : (s.setByte a v).maps = s.maps := (rfl)
@[simp] theorem State.setByte_xpend (s : State) (a : Nat) (v : Byte) : (s.setByte a v).xpend = s.xpend := (rfl)
@[simp] theorem State.setByte_missDue (s : State) (a : Nat) (v : Byte) : (s.setByte a v).missDue = s.missDue := (rfl)
@[simp] theorem State.setByte_wtsSet (s : State) (a : Nat) (v : Byte) : (s.setByte a v).wtsSet = s.wtsSet := (rfl)
@[simp] theorem State.setByte_fdb (s : State) (a : Nat) (v : Byte) : (s.setByte a v).fdb = s.fdb := (rfl)
@[simp] theorem State.setByte_swq (s : State) (a : Nat) (v : Byte) : (s.setByte a v).swq = s.swq := (rfl)
@[simp] theorem State.setByte_swAvg (s : State) (a : Nat) (v : Byte) : (s.setByte a v).swAvg = s.swAvg := (rfl)
@[simp] theorem State.setByte_headAt (s : State) (a : Nat) (v : Byte) : (s.setByte a v).headAt = s.headAt := (rfl)
@[simp] theorem State.setByte_swHold (s : State) (a : Nat) (v : Byte) : (s.setByte a v).swHold = s.swHold := (rfl)
@[simp] theorem State.setByte_swPause (s : State) (a : Nat) (v : Byte) : (s.setByte a v).swPause = s.swPause := (rfl)
@[simp] theorem State.setByte_txEnd (s : State) (a : Nat) (v : Byte) : (s.setByte a v).txEnd = s.txEnd := (rfl)
@[simp] theorem State.setByte_pfcAt (s : State) (a : Nat) (v : Byte) : (s.setByte a v).pfcAt = s.pfcAt := (rfl)
@[simp] theorem State.setByte_fdbBusy (s : State) (a : Nat) (v : Byte) : (s.setByte a v).fdbBusy = s.fdbBusy := (rfl)
@[simp] theorem State.setByte_ageAt (s : State) (a : Nat) (v : Byte) : (s.setByte a v).ageAt = s.ageAt := (rfl)
@[simp] theorem State.setByte_gates (s : State) (a : Nat) (v : Byte) : (s.setByte a v).gates = s.gates := (rfl)
@[simp] theorem State.setByte_mtrs (s : State) (a : Nat) (v : Byte) : (s.setByte a v).mtrs = s.mtrs := (rfl)
@[simp] theorem State.setByte_recs (s : State) (a : Nat) (v : Byte) : (s.setByte a v).recs = s.recs := (rfl)
@[simp] theorem State.setByte_prp (s : State) (a : Nat) (v : Byte) : (s.setByte a v).prp = s.prp := (rfl)
@[simp] theorem State.setByte_mbxH (s : State) (a : Nat) (v : Byte) : (s.setByte a v).mbxH = s.mbxH := (rfl)
@[simp] theorem State.setByte_mbxX (s : State) (a : Nat) (v : Byte) : (s.setByte a v).mbxX = s.mbxX := (rfl)
@[simp] theorem State.setByte_ctxH (s : State) (a : Nat) (v : Byte) : (s.setByte a v).ctxH = s.ctxH := (rfl)
@[simp] theorem State.setByte_issueH (s : State) (a : Nat) (v : Byte) : (s.setByte a v).issueH = s.issueH := (rfl)
@[simp] theorem State.setByte_issueNo (s : State) (a : Nat) (v : Byte) : (s.setByte a v).issueNo = s.issueNo := (rfl)
@[simp] theorem State.setByte_stale (s : State) (a : Nat) (v : Byte) : (s.setByte a v).stale = s.stale := (rfl)
@[simp] theorem State.setByte_icache (s : State) (a : Nat) (v : Byte) : (s.setByte a v).icache = s.icache := (rfl)
@[simp] theorem State.setByte_dcache (s : State) (a : Nat) (v : Byte) : (s.setByte a v).dcache = s.dcache := (rfl)
@[simp] theorem State.setByte_fpr (s : State) (a : Nat) (v : Byte) : (s.setByte a v).fpr = s.fpr := (rfl)
@[simp] theorem State.setByte_peFrom (s : State) (a : Nat) (v : Byte) : (s.setByte a v).peFrom = s.peFrom := (rfl)
@[simp] theorem State.setByte_arbH (s : State) (a : Nat) (v : Byte) : (s.setByte a v).arbH = s.arbH := (rfl)
@[simp] theorem State.setByte_coldHeld (s : State) (a : Nat) (v : Byte) : (s.setByte a v).coldHeld = s.coldHeld := (rfl)
@[simp] theorem State.setByte_replay (s : State) (a : Nat) (v : Byte) : (s.setByte a v).replay = s.replay := (rfl)
@[simp] theorem State.setByte_hbH (s : State) (a : Nat) (v : Byte) : (s.setByte a v).hbH = s.hbH := (rfl)
@[simp] theorem State.setByte_slotH (s : State) (a : Nat) (v : Byte) : (s.setByte a v).slotH = s.slotH := (rfl)
@[simp] theorem State.setByte_survLatch (s : State) (a : Nat) (v : Byte) : (s.setByte a v).survLatch = s.survLatch := (rfl)
@[simp] theorem State.setByte_rtc (s : State) (a : Nat) (v : Byte) : (s.setByte a v).rtc = s.rtc := (rfl)
@[simp] theorem State.setByte_rtcFrom (s : State) (a : Nat) (v : Byte) : (s.setByte a v).rtcFrom = s.rtcFrom := (rfl)
@[simp] theorem State.setByte_rtcPre (s : State) (a : Nat) (v : Byte) : (s.setByte a v).rtcPre = s.rtcPre := (rfl)
@[simp] theorem State.setByte_rtcLen (s : State) (a : Nat) (v : Byte) : (s.setByte a v).rtcLen = s.rtcLen := (rfl)
@[simp] theorem State.setByte_rtcTrim (s : State) (a : Nat) (v : Byte) : (s.setByte a v).rtcTrim = s.rtcTrim := (rfl)
@[simp] theorem State.setByte_rtcLoad (s : State) (a : Nat) (v : Byte) : (s.setByte a v).rtcLoad = s.rtcLoad := (rfl)
@[simp] theorem State.setByte_seqH (s : State) (a : Nat) (v : Byte) : (s.setByte a v).seqH = s.seqH := (rfl)
@[simp] theorem State.setByte_ldrH (s : State) (a : Nat) (v : Byte) : (s.setByte a v).ldrH = s.ldrH := (rfl)
@[simp] theorem State.setByte_flash (s : State) (a : Nat) (v : Byte) : (s.setByte a v).flash = s.flash := (rfl)
@[simp] theorem State.setByte_fuses (s : State) (a : Nat) (v : Byte) : (s.setByte a v).fuses = s.fuses := (rfl)
@[simp] theorem State.setByte_ftRan (s : State) (a : Nat) (v : Byte) : (s.setByte a v).ftRan = s.ftRan := (rfl)
@[simp] theorem State.setByte_serCal (s : State) (a : Nat) (v : Byte) : (s.setByte a v).serCal = s.serCal := (rfl)

/-! After the hidden state of a cell set. -/

@[simp] theorem State.setCell_pending (s : State) (c : Nat) (h : CellH) : (s.setCell c h).pending = s.pending := (rfl)
@[simp] theorem State.setCell_freeCtr (s : State) (c : Nat) (h : CellH) : (s.setCell c h).freeCtr = s.freeCtr := (rfl)
@[simp] theorem State.setCell_upsets (s : State) (c : Nat) (h : CellH) : (s.setCell c h).upsets = s.upsets := (rfl)
@[simp] theorem State.setCell_cycles (s : State) (c : Nat) (h : CellH) : (s.setCell c h).cycles = s.cycles := (rfl)
@[simp] theorem State.setCell_resp (s : State) (c : Nat) (h : CellH) : (s.setCell c h).resp = s.resp := (rfl)
@[simp] theorem State.setCell_out (s : State) (c : Nat) (h : CellH) : (s.setCell c h).out = s.out := (rfl)
@[simp] theorem State.setCell_regs (s : State) (c : Nat) (h : CellH) : (s.setCell c h).regs = s.regs := (rfl)
@[simp] theorem State.setCell_mregs (s : State) (c : Nat) (h : CellH) : (s.setCell c h).mregs = s.mregs := (rfl)
@[simp] theorem State.setCell_rwoDone (s : State) (c : Nat) (h : CellH) : (s.setCell c h).rwoDone = s.rwoDone := (rfl)
@[simp] theorem State.setCell_mem (s : State) (c : Nat) (h : CellH) : (s.setCell c h).mem = s.mem := (rfl)
@[simp] theorem State.setCell_ecc (s : State) (c : Nat) (h : CellH) : (s.setCell c h).ecc = s.ecc := (rfl)
@[simp] theorem State.setCell_fifo (s : State) (c : Nat) (h : CellH) : (s.setCell c h).fifo = s.fifo := (rfl)
@[simp] theorem State.setCell_agenda (s : State) (c : Nat) (h : CellH) : (s.setCell c h).agenda = s.agenda := (rfl)
@[simp] theorem State.setCell_gridFrom (s : State) (c : Nat) (h : CellH) : (s.setCell c h).gridFrom = s.gridFrom := (rfl)
@[simp] theorem State.setCell_clk0 (s : State) (c : Nat) (h : CellH) : (s.setCell c h).clk0 = s.clk0 := (rfl)
@[simp] theorem State.setCell_evfWas (s : State) (c : Nat) (h : CellH) : (s.setCell c h).evfWas = s.evfWas := (rfl)
@[simp] theorem State.setCell_dmaH (s : State) (c : Nat) (h : CellH) : (s.setCell c h).dmaH = s.dmaH := (rfl)
@[simp] theorem State.setCell_dmaLast (s : State) (c : Nat) (h : CellH) : (s.setCell c h).dmaLast = s.dmaLast := (rfl)
@[simp] theorem State.setCell_dmaAt (s : State) (c : Nat) (h : CellH) : (s.setCell c h).dmaAt = s.dmaAt := (rfl)
@[simp] theorem State.setCell_shdH (s : State) (c : Nat) (h : CellH) : (s.setCell c h).shdH = s.shdH := (rfl)
@[simp] theorem State.setCell_tbs (s : State) (c : Nat) (h : CellH) : (s.setCell c h).tbs = s.tbs := (rfl)
@[simp] theorem State.setCell_elog (s : State) (c : Nat) (h : CellH) : (s.setCell c h).elog = s.elog := (rfl)
@[simp] theorem State.setCell_undef (s : State) (c : Nat) (h : CellH) : (s.setCell c h).undef = s.undef := (rfl)
@[simp] theorem State.setCell_msix (s : State) (c : Nat) (h : CellH) : (s.setCell c h).msix = s.msix := (rfl)
@[simp] theorem State.setCell_srcs (s : State) (c : Nat) (h : CellH) : (s.setCell c h).srcs = s.srcs := (rfl)
@[simp] theorem State.setCell_ldrHold (s : State) (c : Nat) (h : CellH) : (s.setCell c h).ldrHold = s.ldrHold := (rfl)
@[simp] theorem State.setCell_pulseSrc (s : State) (c : Nat) (h : CellH) : (s.setCell c h).pulseSrc = s.pulseSrc := (rfl)
@[simp] theorem State.setCell_wdrst (s : State) (c : Nat) (h : CellH) : (s.setCell c h).wdrst = s.wdrst := (rfl)
@[simp] theorem State.setCell_pdoff (s : State) (c : Nat) (h : CellH) : (s.setCell c h).pdoff = s.pdoff := (rfl)
@[simp] theorem State.setCell_bankuv (s : State) (c : Nat) (h : CellH) : (s.setCell c h).bankuv = s.bankuv := (rfl)
@[simp] theorem State.setCell_holdSafe (s : State) (c : Nat) (h : CellH) : (s.setCell c h).holdSafe = s.holdSafe := (rfl)
@[simp] theorem State.setCell_pllSafe (s : State) (c : Nat) (h : CellH) : (s.setCell c h).pllSafe = s.pllSafe := (rfl)
@[simp] theorem State.setCell_keep (s : State) (c : Nat) (h : CellH) : (s.setCell c h).keep = s.keep := (rfl)
@[simp] theorem State.setCell_canRx (s : State) (c : Nat) (h : CellH) : (s.setCell c h).canRx = s.canRx := (rfl)
@[simp] theorem State.setCell_canStopping (s : State) (c : Nat) (h : CellH) : (s.setCell c h).canStopping = s.canStopping := (rfl)
@[simp] theorem State.setCell_canSof (s : State) (c : Nat) (h : CellH) : (s.setCell c h).canSof = s.canSof := (rfl)
@[simp] theorem State.setCell_canAborting (s : State) (c : Nat) (h : CellH) : (s.setCell c h).canAborting = s.canAborting := (rfl)
@[simp] theorem State.setCell_tsq (s : State) (c : Nat) (h : CellH) : (s.setCell c h).tsq = s.tsq := (rfl)
@[simp] theorem State.setCell_pps (s : State) (c : Nat) (h : CellH) : (s.setCell c h).pps = s.pps := (rfl)
@[simp] theorem State.setCell_hxH (s : State) (c : Nat) (h : CellH) : (s.setCell c h).hxH = s.hxH := (rfl)
@[simp] theorem State.setCell_adcH (s : State) (c : Nat) (h : CellH) : (s.setCell c h).adcH = s.adcH := (rfl)
@[simp] theorem State.setCell_img (s : State) (c : Nat) (h : CellH) : (s.setCell c h).img = s.img := (rfl)
@[simp] theorem State.setCell_imgE (s : State) (c : Nat) (h : CellH) : (s.setCell c h).imgE = s.imgE := (rfl)
@[simp] theorem State.setCell_imgAt (s : State) (c : Nat) (h : CellH) : (s.setCell c h).imgAt = s.imgAt := (rfl)
@[simp] theorem State.setCell_xlist (s : State) (c : Nat) (h : CellH) : (s.setCell c h).xlist = s.xlist := (rfl)
@[simp] theorem State.setCell_subs (s : State) (c : Nat) (h : CellH) : (s.setCell c h).subs = s.subs := (rfl)
@[simp] theorem State.setCell_maps (s : State) (c : Nat) (h : CellH) : (s.setCell c h).maps = s.maps := (rfl)
@[simp] theorem State.setCell_xpend (s : State) (c : Nat) (h : CellH) : (s.setCell c h).xpend = s.xpend := (rfl)
@[simp] theorem State.setCell_missDue (s : State) (c : Nat) (h : CellH) : (s.setCell c h).missDue = s.missDue := (rfl)
@[simp] theorem State.setCell_wtsSet (s : State) (c : Nat) (h : CellH) : (s.setCell c h).wtsSet = s.wtsSet := (rfl)
@[simp] theorem State.setCell_fdb (s : State) (c : Nat) (h : CellH) : (s.setCell c h).fdb = s.fdb := (rfl)
@[simp] theorem State.setCell_swq (s : State) (c : Nat) (h : CellH) : (s.setCell c h).swq = s.swq := (rfl)
@[simp] theorem State.setCell_swAvg (s : State) (c : Nat) (h : CellH) : (s.setCell c h).swAvg = s.swAvg := (rfl)
@[simp] theorem State.setCell_headAt (s : State) (c : Nat) (h : CellH) : (s.setCell c h).headAt = s.headAt := (rfl)
@[simp] theorem State.setCell_swHold (s : State) (c : Nat) (h : CellH) : (s.setCell c h).swHold = s.swHold := (rfl)
@[simp] theorem State.setCell_swPause (s : State) (c : Nat) (h : CellH) : (s.setCell c h).swPause = s.swPause := (rfl)
@[simp] theorem State.setCell_txEnd (s : State) (c : Nat) (h : CellH) : (s.setCell c h).txEnd = s.txEnd := (rfl)
@[simp] theorem State.setCell_pfcAt (s : State) (c : Nat) (h : CellH) : (s.setCell c h).pfcAt = s.pfcAt := (rfl)
@[simp] theorem State.setCell_fdbBusy (s : State) (c : Nat) (h : CellH) : (s.setCell c h).fdbBusy = s.fdbBusy := (rfl)
@[simp] theorem State.setCell_ageAt (s : State) (c : Nat) (h : CellH) : (s.setCell c h).ageAt = s.ageAt := (rfl)
@[simp] theorem State.setCell_gates (s : State) (c : Nat) (h : CellH) : (s.setCell c h).gates = s.gates := (rfl)
@[simp] theorem State.setCell_mtrs (s : State) (c : Nat) (h : CellH) : (s.setCell c h).mtrs = s.mtrs := (rfl)
@[simp] theorem State.setCell_recs (s : State) (c : Nat) (h : CellH) : (s.setCell c h).recs = s.recs := (rfl)
@[simp] theorem State.setCell_prp (s : State) (c : Nat) (h : CellH) : (s.setCell c h).prp = s.prp := (rfl)
@[simp] theorem State.setCell_mbxH (s : State) (c : Nat) (h : CellH) : (s.setCell c h).mbxH = s.mbxH := (rfl)
@[simp] theorem State.setCell_mbxX (s : State) (c : Nat) (h : CellH) : (s.setCell c h).mbxX = s.mbxX := (rfl)
@[simp] theorem State.setCell_ctxH (s : State) (c : Nat) (h : CellH) : (s.setCell c h).ctxH = s.ctxH := (rfl)
@[simp] theorem State.setCell_issueH (s : State) (c : Nat) (h : CellH) : (s.setCell c h).issueH = s.issueH := (rfl)
@[simp] theorem State.setCell_issueNo (s : State) (c : Nat) (h : CellH) : (s.setCell c h).issueNo = s.issueNo := (rfl)
@[simp] theorem State.setCell_stale (s : State) (c : Nat) (h : CellH) : (s.setCell c h).stale = s.stale := (rfl)
@[simp] theorem State.setCell_icache (s : State) (c : Nat) (h : CellH) : (s.setCell c h).icache = s.icache := (rfl)
@[simp] theorem State.setCell_dcache (s : State) (c : Nat) (h : CellH) : (s.setCell c h).dcache = s.dcache := (rfl)
@[simp] theorem State.setCell_fpr (s : State) (c : Nat) (h : CellH) : (s.setCell c h).fpr = s.fpr := (rfl)
@[simp] theorem State.setCell_peFrom (s : State) (c : Nat) (h : CellH) : (s.setCell c h).peFrom = s.peFrom := (rfl)
@[simp] theorem State.setCell_arbH (s : State) (c : Nat) (h : CellH) : (s.setCell c h).arbH = s.arbH := (rfl)
@[simp] theorem State.setCell_coldHeld (s : State) (c : Nat) (h : CellH) : (s.setCell c h).coldHeld = s.coldHeld := (rfl)
@[simp] theorem State.setCell_replay (s : State) (c : Nat) (h : CellH) : (s.setCell c h).replay = s.replay := (rfl)
@[simp] theorem State.setCell_hbH (s : State) (c : Nat) (h : CellH) : (s.setCell c h).hbH = s.hbH := (rfl)
@[simp] theorem State.setCell_slotH (s : State) (c : Nat) (h : CellH) : (s.setCell c h).slotH = s.slotH := (rfl)
@[simp] theorem State.setCell_survLatch (s : State) (c : Nat) (h : CellH) : (s.setCell c h).survLatch = s.survLatch := (rfl)
@[simp] theorem State.setCell_rtc (s : State) (c : Nat) (h : CellH) : (s.setCell c h).rtc = s.rtc := (rfl)
@[simp] theorem State.setCell_rtcFrom (s : State) (c : Nat) (h : CellH) : (s.setCell c h).rtcFrom = s.rtcFrom := (rfl)
@[simp] theorem State.setCell_rtcPre (s : State) (c : Nat) (h : CellH) : (s.setCell c h).rtcPre = s.rtcPre := (rfl)
@[simp] theorem State.setCell_rtcLen (s : State) (c : Nat) (h : CellH) : (s.setCell c h).rtcLen = s.rtcLen := (rfl)
@[simp] theorem State.setCell_rtcTrim (s : State) (c : Nat) (h : CellH) : (s.setCell c h).rtcTrim = s.rtcTrim := (rfl)
@[simp] theorem State.setCell_rtcLoad (s : State) (c : Nat) (h : CellH) : (s.setCell c h).rtcLoad = s.rtcLoad := (rfl)
@[simp] theorem State.setCell_seqH (s : State) (c : Nat) (h : CellH) : (s.setCell c h).seqH = s.seqH := (rfl)
@[simp] theorem State.setCell_ldrH (s : State) (c : Nat) (h : CellH) : (s.setCell c h).ldrH = s.ldrH := (rfl)
@[simp] theorem State.setCell_flash (s : State) (c : Nat) (h : CellH) : (s.setCell c h).flash = s.flash := (rfl)
@[simp] theorem State.setCell_fuses (s : State) (c : Nat) (h : CellH) : (s.setCell c h).fuses = s.fuses := (rfl)
@[simp] theorem State.setCell_ftRan (s : State) (c : Nat) (h : CellH) : (s.setCell c h).ftRan = s.ftRan := (rfl)
@[simp] theorem State.setCell_serCal (s : State) (c : Nat) (h : CellH) : (s.setCell c h).serCal = s.serCal := (rfl)

/-! After the hidden state of a context set. -/

@[simp] theorem State.setCtx_pending (s : State) (k : Nat) (h : CtxH) : (s.setCtx k h).pending = s.pending := (rfl)
@[simp] theorem State.setCtx_freeCtr (s : State) (k : Nat) (h : CtxH) : (s.setCtx k h).freeCtr = s.freeCtr := (rfl)
@[simp] theorem State.setCtx_upsets (s : State) (k : Nat) (h : CtxH) : (s.setCtx k h).upsets = s.upsets := (rfl)
@[simp] theorem State.setCtx_cycles (s : State) (k : Nat) (h : CtxH) : (s.setCtx k h).cycles = s.cycles := (rfl)
@[simp] theorem State.setCtx_resp (s : State) (k : Nat) (h : CtxH) : (s.setCtx k h).resp = s.resp := (rfl)
@[simp] theorem State.setCtx_out (s : State) (k : Nat) (h : CtxH) : (s.setCtx k h).out = s.out := (rfl)
@[simp] theorem State.setCtx_regs (s : State) (k : Nat) (h : CtxH) : (s.setCtx k h).regs = s.regs := (rfl)
@[simp] theorem State.setCtx_mregs (s : State) (k : Nat) (h : CtxH) : (s.setCtx k h).mregs = s.mregs := (rfl)
@[simp] theorem State.setCtx_rwoDone (s : State) (k : Nat) (h : CtxH) : (s.setCtx k h).rwoDone = s.rwoDone := (rfl)
@[simp] theorem State.setCtx_mem (s : State) (k : Nat) (h : CtxH) : (s.setCtx k h).mem = s.mem := (rfl)
@[simp] theorem State.setCtx_ecc (s : State) (k : Nat) (h : CtxH) : (s.setCtx k h).ecc = s.ecc := (rfl)
@[simp] theorem State.setCtx_fifo (s : State) (k : Nat) (h : CtxH) : (s.setCtx k h).fifo = s.fifo := (rfl)
@[simp] theorem State.setCtx_cellH (s : State) (k : Nat) (h : CtxH) : (s.setCtx k h).cellH = s.cellH := (rfl)
@[simp] theorem State.setCtx_agenda (s : State) (k : Nat) (h : CtxH) : (s.setCtx k h).agenda = s.agenda := (rfl)
@[simp] theorem State.setCtx_gridFrom (s : State) (k : Nat) (h : CtxH) : (s.setCtx k h).gridFrom = s.gridFrom := (rfl)
@[simp] theorem State.setCtx_clk0 (s : State) (k : Nat) (h : CtxH) : (s.setCtx k h).clk0 = s.clk0 := (rfl)
@[simp] theorem State.setCtx_evfWas (s : State) (k : Nat) (h : CtxH) : (s.setCtx k h).evfWas = s.evfWas := (rfl)
@[simp] theorem State.setCtx_dmaH (s : State) (k : Nat) (h : CtxH) : (s.setCtx k h).dmaH = s.dmaH := (rfl)
@[simp] theorem State.setCtx_dmaLast (s : State) (k : Nat) (h : CtxH) : (s.setCtx k h).dmaLast = s.dmaLast := (rfl)
@[simp] theorem State.setCtx_dmaAt (s : State) (k : Nat) (h : CtxH) : (s.setCtx k h).dmaAt = s.dmaAt := (rfl)
@[simp] theorem State.setCtx_shdH (s : State) (k : Nat) (h : CtxH) : (s.setCtx k h).shdH = s.shdH := (rfl)
@[simp] theorem State.setCtx_tbs (s : State) (k : Nat) (h : CtxH) : (s.setCtx k h).tbs = s.tbs := (rfl)
@[simp] theorem State.setCtx_elog (s : State) (k : Nat) (h : CtxH) : (s.setCtx k h).elog = s.elog := (rfl)
@[simp] theorem State.setCtx_undef (s : State) (k : Nat) (h : CtxH) : (s.setCtx k h).undef = s.undef := (rfl)
@[simp] theorem State.setCtx_msix (s : State) (k : Nat) (h : CtxH) : (s.setCtx k h).msix = s.msix := (rfl)
@[simp] theorem State.setCtx_srcs (s : State) (k : Nat) (h : CtxH) : (s.setCtx k h).srcs = s.srcs := (rfl)
@[simp] theorem State.setCtx_ldrHold (s : State) (k : Nat) (h : CtxH) : (s.setCtx k h).ldrHold = s.ldrHold := (rfl)
@[simp] theorem State.setCtx_pulseSrc (s : State) (k : Nat) (h : CtxH) : (s.setCtx k h).pulseSrc = s.pulseSrc := (rfl)
@[simp] theorem State.setCtx_wdrst (s : State) (k : Nat) (h : CtxH) : (s.setCtx k h).wdrst = s.wdrst := (rfl)
@[simp] theorem State.setCtx_pdoff (s : State) (k : Nat) (h : CtxH) : (s.setCtx k h).pdoff = s.pdoff := (rfl)
@[simp] theorem State.setCtx_bankuv (s : State) (k : Nat) (h : CtxH) : (s.setCtx k h).bankuv = s.bankuv := (rfl)
@[simp] theorem State.setCtx_holdSafe (s : State) (k : Nat) (h : CtxH) : (s.setCtx k h).holdSafe = s.holdSafe := (rfl)
@[simp] theorem State.setCtx_pllSafe (s : State) (k : Nat) (h : CtxH) : (s.setCtx k h).pllSafe = s.pllSafe := (rfl)
@[simp] theorem State.setCtx_keep (s : State) (k : Nat) (h : CtxH) : (s.setCtx k h).keep = s.keep := (rfl)
@[simp] theorem State.setCtx_canRx (s : State) (k : Nat) (h : CtxH) : (s.setCtx k h).canRx = s.canRx := (rfl)
@[simp] theorem State.setCtx_canStopping (s : State) (k : Nat) (h : CtxH) : (s.setCtx k h).canStopping = s.canStopping := (rfl)
@[simp] theorem State.setCtx_canSof (s : State) (k : Nat) (h : CtxH) : (s.setCtx k h).canSof = s.canSof := (rfl)
@[simp] theorem State.setCtx_canAborting (s : State) (k : Nat) (h : CtxH) : (s.setCtx k h).canAborting = s.canAborting := (rfl)
@[simp] theorem State.setCtx_tsq (s : State) (k : Nat) (h : CtxH) : (s.setCtx k h).tsq = s.tsq := (rfl)
@[simp] theorem State.setCtx_pps (s : State) (k : Nat) (h : CtxH) : (s.setCtx k h).pps = s.pps := (rfl)
@[simp] theorem State.setCtx_hxH (s : State) (k : Nat) (h : CtxH) : (s.setCtx k h).hxH = s.hxH := (rfl)
@[simp] theorem State.setCtx_adcH (s : State) (k : Nat) (h : CtxH) : (s.setCtx k h).adcH = s.adcH := (rfl)
@[simp] theorem State.setCtx_img (s : State) (k : Nat) (h : CtxH) : (s.setCtx k h).img = s.img := (rfl)
@[simp] theorem State.setCtx_imgE (s : State) (k : Nat) (h : CtxH) : (s.setCtx k h).imgE = s.imgE := (rfl)
@[simp] theorem State.setCtx_imgAt (s : State) (k : Nat) (h : CtxH) : (s.setCtx k h).imgAt = s.imgAt := (rfl)
@[simp] theorem State.setCtx_xlist (s : State) (k : Nat) (h : CtxH) : (s.setCtx k h).xlist = s.xlist := (rfl)
@[simp] theorem State.setCtx_subs (s : State) (k : Nat) (h : CtxH) : (s.setCtx k h).subs = s.subs := (rfl)
@[simp] theorem State.setCtx_maps (s : State) (k : Nat) (h : CtxH) : (s.setCtx k h).maps = s.maps := (rfl)
@[simp] theorem State.setCtx_xpend (s : State) (k : Nat) (h : CtxH) : (s.setCtx k h).xpend = s.xpend := (rfl)
@[simp] theorem State.setCtx_missDue (s : State) (k : Nat) (h : CtxH) : (s.setCtx k h).missDue = s.missDue := (rfl)
@[simp] theorem State.setCtx_wtsSet (s : State) (k : Nat) (h : CtxH) : (s.setCtx k h).wtsSet = s.wtsSet := (rfl)
@[simp] theorem State.setCtx_fdb (s : State) (k : Nat) (h : CtxH) : (s.setCtx k h).fdb = s.fdb := (rfl)
@[simp] theorem State.setCtx_swq (s : State) (k : Nat) (h : CtxH) : (s.setCtx k h).swq = s.swq := (rfl)
@[simp] theorem State.setCtx_swAvg (s : State) (k : Nat) (h : CtxH) : (s.setCtx k h).swAvg = s.swAvg := (rfl)
@[simp] theorem State.setCtx_headAt (s : State) (k : Nat) (h : CtxH) : (s.setCtx k h).headAt = s.headAt := (rfl)
@[simp] theorem State.setCtx_swHold (s : State) (k : Nat) (h : CtxH) : (s.setCtx k h).swHold = s.swHold := (rfl)
@[simp] theorem State.setCtx_swPause (s : State) (k : Nat) (h : CtxH) : (s.setCtx k h).swPause = s.swPause := (rfl)
@[simp] theorem State.setCtx_txEnd (s : State) (k : Nat) (h : CtxH) : (s.setCtx k h).txEnd = s.txEnd := (rfl)
@[simp] theorem State.setCtx_pfcAt (s : State) (k : Nat) (h : CtxH) : (s.setCtx k h).pfcAt = s.pfcAt := (rfl)
@[simp] theorem State.setCtx_fdbBusy (s : State) (k : Nat) (h : CtxH) : (s.setCtx k h).fdbBusy = s.fdbBusy := (rfl)
@[simp] theorem State.setCtx_ageAt (s : State) (k : Nat) (h : CtxH) : (s.setCtx k h).ageAt = s.ageAt := (rfl)
@[simp] theorem State.setCtx_gates (s : State) (k : Nat) (h : CtxH) : (s.setCtx k h).gates = s.gates := (rfl)
@[simp] theorem State.setCtx_mtrs (s : State) (k : Nat) (h : CtxH) : (s.setCtx k h).mtrs = s.mtrs := (rfl)
@[simp] theorem State.setCtx_recs (s : State) (k : Nat) (h : CtxH) : (s.setCtx k h).recs = s.recs := (rfl)
@[simp] theorem State.setCtx_prp (s : State) (k : Nat) (h : CtxH) : (s.setCtx k h).prp = s.prp := (rfl)
@[simp] theorem State.setCtx_mbxH (s : State) (k : Nat) (h : CtxH) : (s.setCtx k h).mbxH = s.mbxH := (rfl)
@[simp] theorem State.setCtx_mbxX (s : State) (k : Nat) (h : CtxH) : (s.setCtx k h).mbxX = s.mbxX := (rfl)
@[simp] theorem State.setCtx_issueH (s : State) (k : Nat) (h : CtxH) : (s.setCtx k h).issueH = s.issueH := (rfl)
@[simp] theorem State.setCtx_issueNo (s : State) (k : Nat) (h : CtxH) : (s.setCtx k h).issueNo = s.issueNo := (rfl)
@[simp] theorem State.setCtx_stale (s : State) (k : Nat) (h : CtxH) : (s.setCtx k h).stale = s.stale := (rfl)
@[simp] theorem State.setCtx_icache (s : State) (k : Nat) (h : CtxH) : (s.setCtx k h).icache = s.icache := (rfl)
@[simp] theorem State.setCtx_dcache (s : State) (k : Nat) (h : CtxH) : (s.setCtx k h).dcache = s.dcache := (rfl)
@[simp] theorem State.setCtx_fpr (s : State) (k : Nat) (h : CtxH) : (s.setCtx k h).fpr = s.fpr := (rfl)
@[simp] theorem State.setCtx_peFrom (s : State) (k : Nat) (h : CtxH) : (s.setCtx k h).peFrom = s.peFrom := (rfl)
@[simp] theorem State.setCtx_arbH (s : State) (k : Nat) (h : CtxH) : (s.setCtx k h).arbH = s.arbH := (rfl)
@[simp] theorem State.setCtx_coldHeld (s : State) (k : Nat) (h : CtxH) : (s.setCtx k h).coldHeld = s.coldHeld := (rfl)
@[simp] theorem State.setCtx_replay (s : State) (k : Nat) (h : CtxH) : (s.setCtx k h).replay = s.replay := (rfl)
@[simp] theorem State.setCtx_hbH (s : State) (k : Nat) (h : CtxH) : (s.setCtx k h).hbH = s.hbH := (rfl)
@[simp] theorem State.setCtx_slotH (s : State) (k : Nat) (h : CtxH) : (s.setCtx k h).slotH = s.slotH := (rfl)
@[simp] theorem State.setCtx_survLatch (s : State) (k : Nat) (h : CtxH) : (s.setCtx k h).survLatch = s.survLatch := (rfl)
@[simp] theorem State.setCtx_rtc (s : State) (k : Nat) (h : CtxH) : (s.setCtx k h).rtc = s.rtc := (rfl)
@[simp] theorem State.setCtx_rtcFrom (s : State) (k : Nat) (h : CtxH) : (s.setCtx k h).rtcFrom = s.rtcFrom := (rfl)
@[simp] theorem State.setCtx_rtcPre (s : State) (k : Nat) (h : CtxH) : (s.setCtx k h).rtcPre = s.rtcPre := (rfl)
@[simp] theorem State.setCtx_rtcLen (s : State) (k : Nat) (h : CtxH) : (s.setCtx k h).rtcLen = s.rtcLen := (rfl)
@[simp] theorem State.setCtx_rtcTrim (s : State) (k : Nat) (h : CtxH) : (s.setCtx k h).rtcTrim = s.rtcTrim := (rfl)
@[simp] theorem State.setCtx_rtcLoad (s : State) (k : Nat) (h : CtxH) : (s.setCtx k h).rtcLoad = s.rtcLoad := (rfl)
@[simp] theorem State.setCtx_seqH (s : State) (k : Nat) (h : CtxH) : (s.setCtx k h).seqH = s.seqH := (rfl)
@[simp] theorem State.setCtx_ldrH (s : State) (k : Nat) (h : CtxH) : (s.setCtx k h).ldrH = s.ldrH := (rfl)
@[simp] theorem State.setCtx_flash (s : State) (k : Nat) (h : CtxH) : (s.setCtx k h).flash = s.flash := (rfl)
@[simp] theorem State.setCtx_fuses (s : State) (k : Nat) (h : CtxH) : (s.setCtx k h).fuses = s.fuses := (rfl)
@[simp] theorem State.setCtx_ftRan (s : State) (k : Nat) (h : CtxH) : (s.setCtx k h).ftRan = s.ftRan := (rfl)
@[simp] theorem State.setCtx_serCal (s : State) (k : Nat) (h : CtxH) : (s.setCtx k h).serCal = s.serCal := (rfl)

/-! After the hidden state of a sequencer set. -/

@[simp] theorem State.setHx_pending (s : State) (n : Nat) (h : HxH) : (s.setHx n h).pending = s.pending := (rfl)
@[simp] theorem State.setHx_freeCtr (s : State) (n : Nat) (h : HxH) : (s.setHx n h).freeCtr = s.freeCtr := (rfl)
@[simp] theorem State.setHx_upsets (s : State) (n : Nat) (h : HxH) : (s.setHx n h).upsets = s.upsets := (rfl)
@[simp] theorem State.setHx_cycles (s : State) (n : Nat) (h : HxH) : (s.setHx n h).cycles = s.cycles := (rfl)
@[simp] theorem State.setHx_resp (s : State) (n : Nat) (h : HxH) : (s.setHx n h).resp = s.resp := (rfl)
@[simp] theorem State.setHx_out (s : State) (n : Nat) (h : HxH) : (s.setHx n h).out = s.out := (rfl)
@[simp] theorem State.setHx_regs (s : State) (n : Nat) (h : HxH) : (s.setHx n h).regs = s.regs := (rfl)
@[simp] theorem State.setHx_mregs (s : State) (n : Nat) (h : HxH) : (s.setHx n h).mregs = s.mregs := (rfl)
@[simp] theorem State.setHx_rwoDone (s : State) (n : Nat) (h : HxH) : (s.setHx n h).rwoDone = s.rwoDone := (rfl)
@[simp] theorem State.setHx_mem (s : State) (n : Nat) (h : HxH) : (s.setHx n h).mem = s.mem := (rfl)
@[simp] theorem State.setHx_ecc (s : State) (n : Nat) (h : HxH) : (s.setHx n h).ecc = s.ecc := (rfl)
@[simp] theorem State.setHx_fifo (s : State) (n : Nat) (h : HxH) : (s.setHx n h).fifo = s.fifo := (rfl)
@[simp] theorem State.setHx_cellH (s : State) (n : Nat) (h : HxH) : (s.setHx n h).cellH = s.cellH := (rfl)
@[simp] theorem State.setHx_agenda (s : State) (n : Nat) (h : HxH) : (s.setHx n h).agenda = s.agenda := (rfl)
@[simp] theorem State.setHx_gridFrom (s : State) (n : Nat) (h : HxH) : (s.setHx n h).gridFrom = s.gridFrom := (rfl)
@[simp] theorem State.setHx_clk0 (s : State) (n : Nat) (h : HxH) : (s.setHx n h).clk0 = s.clk0 := (rfl)
@[simp] theorem State.setHx_evfWas (s : State) (n : Nat) (h : HxH) : (s.setHx n h).evfWas = s.evfWas := (rfl)
@[simp] theorem State.setHx_dmaH (s : State) (n : Nat) (h : HxH) : (s.setHx n h).dmaH = s.dmaH := (rfl)
@[simp] theorem State.setHx_dmaLast (s : State) (n : Nat) (h : HxH) : (s.setHx n h).dmaLast = s.dmaLast := (rfl)
@[simp] theorem State.setHx_dmaAt (s : State) (n : Nat) (h : HxH) : (s.setHx n h).dmaAt = s.dmaAt := (rfl)
@[simp] theorem State.setHx_shdH (s : State) (n : Nat) (h : HxH) : (s.setHx n h).shdH = s.shdH := (rfl)
@[simp] theorem State.setHx_tbs (s : State) (n : Nat) (h : HxH) : (s.setHx n h).tbs = s.tbs := (rfl)
@[simp] theorem State.setHx_elog (s : State) (n : Nat) (h : HxH) : (s.setHx n h).elog = s.elog := (rfl)
@[simp] theorem State.setHx_undef (s : State) (n : Nat) (h : HxH) : (s.setHx n h).undef = s.undef := (rfl)
@[simp] theorem State.setHx_msix (s : State) (n : Nat) (h : HxH) : (s.setHx n h).msix = s.msix := (rfl)
@[simp] theorem State.setHx_srcs (s : State) (n : Nat) (h : HxH) : (s.setHx n h).srcs = s.srcs := (rfl)
@[simp] theorem State.setHx_ldrHold (s : State) (n : Nat) (h : HxH) : (s.setHx n h).ldrHold = s.ldrHold := (rfl)
@[simp] theorem State.setHx_pulseSrc (s : State) (n : Nat) (h : HxH) : (s.setHx n h).pulseSrc = s.pulseSrc := (rfl)
@[simp] theorem State.setHx_wdrst (s : State) (n : Nat) (h : HxH) : (s.setHx n h).wdrst = s.wdrst := (rfl)
@[simp] theorem State.setHx_pdoff (s : State) (n : Nat) (h : HxH) : (s.setHx n h).pdoff = s.pdoff := (rfl)
@[simp] theorem State.setHx_bankuv (s : State) (n : Nat) (h : HxH) : (s.setHx n h).bankuv = s.bankuv := (rfl)
@[simp] theorem State.setHx_holdSafe (s : State) (n : Nat) (h : HxH) : (s.setHx n h).holdSafe = s.holdSafe := (rfl)
@[simp] theorem State.setHx_pllSafe (s : State) (n : Nat) (h : HxH) : (s.setHx n h).pllSafe = s.pllSafe := (rfl)
@[simp] theorem State.setHx_keep (s : State) (n : Nat) (h : HxH) : (s.setHx n h).keep = s.keep := (rfl)
@[simp] theorem State.setHx_canRx (s : State) (n : Nat) (h : HxH) : (s.setHx n h).canRx = s.canRx := (rfl)
@[simp] theorem State.setHx_canStopping (s : State) (n : Nat) (h : HxH) : (s.setHx n h).canStopping = s.canStopping := (rfl)
@[simp] theorem State.setHx_canSof (s : State) (n : Nat) (h : HxH) : (s.setHx n h).canSof = s.canSof := (rfl)
@[simp] theorem State.setHx_canAborting (s : State) (n : Nat) (h : HxH) : (s.setHx n h).canAborting = s.canAborting := (rfl)
@[simp] theorem State.setHx_tsq (s : State) (n : Nat) (h : HxH) : (s.setHx n h).tsq = s.tsq := (rfl)
@[simp] theorem State.setHx_pps (s : State) (n : Nat) (h : HxH) : (s.setHx n h).pps = s.pps := (rfl)
@[simp] theorem State.setHx_adcH (s : State) (n : Nat) (h : HxH) : (s.setHx n h).adcH = s.adcH := (rfl)
@[simp] theorem State.setHx_img (s : State) (n : Nat) (h : HxH) : (s.setHx n h).img = s.img := (rfl)
@[simp] theorem State.setHx_imgE (s : State) (n : Nat) (h : HxH) : (s.setHx n h).imgE = s.imgE := (rfl)
@[simp] theorem State.setHx_imgAt (s : State) (n : Nat) (h : HxH) : (s.setHx n h).imgAt = s.imgAt := (rfl)
@[simp] theorem State.setHx_xlist (s : State) (n : Nat) (h : HxH) : (s.setHx n h).xlist = s.xlist := (rfl)
@[simp] theorem State.setHx_subs (s : State) (n : Nat) (h : HxH) : (s.setHx n h).subs = s.subs := (rfl)
@[simp] theorem State.setHx_maps (s : State) (n : Nat) (h : HxH) : (s.setHx n h).maps = s.maps := (rfl)
@[simp] theorem State.setHx_xpend (s : State) (n : Nat) (h : HxH) : (s.setHx n h).xpend = s.xpend := (rfl)
@[simp] theorem State.setHx_missDue (s : State) (n : Nat) (h : HxH) : (s.setHx n h).missDue = s.missDue := (rfl)
@[simp] theorem State.setHx_wtsSet (s : State) (n : Nat) (h : HxH) : (s.setHx n h).wtsSet = s.wtsSet := (rfl)
@[simp] theorem State.setHx_fdb (s : State) (n : Nat) (h : HxH) : (s.setHx n h).fdb = s.fdb := (rfl)
@[simp] theorem State.setHx_swq (s : State) (n : Nat) (h : HxH) : (s.setHx n h).swq = s.swq := (rfl)
@[simp] theorem State.setHx_swAvg (s : State) (n : Nat) (h : HxH) : (s.setHx n h).swAvg = s.swAvg := (rfl)
@[simp] theorem State.setHx_headAt (s : State) (n : Nat) (h : HxH) : (s.setHx n h).headAt = s.headAt := (rfl)
@[simp] theorem State.setHx_swHold (s : State) (n : Nat) (h : HxH) : (s.setHx n h).swHold = s.swHold := (rfl)
@[simp] theorem State.setHx_swPause (s : State) (n : Nat) (h : HxH) : (s.setHx n h).swPause = s.swPause := (rfl)
@[simp] theorem State.setHx_txEnd (s : State) (n : Nat) (h : HxH) : (s.setHx n h).txEnd = s.txEnd := (rfl)
@[simp] theorem State.setHx_pfcAt (s : State) (n : Nat) (h : HxH) : (s.setHx n h).pfcAt = s.pfcAt := (rfl)
@[simp] theorem State.setHx_fdbBusy (s : State) (n : Nat) (h : HxH) : (s.setHx n h).fdbBusy = s.fdbBusy := (rfl)
@[simp] theorem State.setHx_ageAt (s : State) (n : Nat) (h : HxH) : (s.setHx n h).ageAt = s.ageAt := (rfl)
@[simp] theorem State.setHx_gates (s : State) (n : Nat) (h : HxH) : (s.setHx n h).gates = s.gates := (rfl)
@[simp] theorem State.setHx_mtrs (s : State) (n : Nat) (h : HxH) : (s.setHx n h).mtrs = s.mtrs := (rfl)
@[simp] theorem State.setHx_recs (s : State) (n : Nat) (h : HxH) : (s.setHx n h).recs = s.recs := (rfl)
@[simp] theorem State.setHx_prp (s : State) (n : Nat) (h : HxH) : (s.setHx n h).prp = s.prp := (rfl)
@[simp] theorem State.setHx_mbxH (s : State) (n : Nat) (h : HxH) : (s.setHx n h).mbxH = s.mbxH := (rfl)
@[simp] theorem State.setHx_mbxX (s : State) (n : Nat) (h : HxH) : (s.setHx n h).mbxX = s.mbxX := (rfl)
@[simp] theorem State.setHx_ctxH (s : State) (n : Nat) (h : HxH) : (s.setHx n h).ctxH = s.ctxH := (rfl)
@[simp] theorem State.setHx_issueH (s : State) (n : Nat) (h : HxH) : (s.setHx n h).issueH = s.issueH := (rfl)
@[simp] theorem State.setHx_issueNo (s : State) (n : Nat) (h : HxH) : (s.setHx n h).issueNo = s.issueNo := (rfl)
@[simp] theorem State.setHx_stale (s : State) (n : Nat) (h : HxH) : (s.setHx n h).stale = s.stale := (rfl)
@[simp] theorem State.setHx_icache (s : State) (n : Nat) (h : HxH) : (s.setHx n h).icache = s.icache := (rfl)
@[simp] theorem State.setHx_dcache (s : State) (n : Nat) (h : HxH) : (s.setHx n h).dcache = s.dcache := (rfl)
@[simp] theorem State.setHx_fpr (s : State) (n : Nat) (h : HxH) : (s.setHx n h).fpr = s.fpr := (rfl)
@[simp] theorem State.setHx_peFrom (s : State) (n : Nat) (h : HxH) : (s.setHx n h).peFrom = s.peFrom := (rfl)
@[simp] theorem State.setHx_arbH (s : State) (n : Nat) (h : HxH) : (s.setHx n h).arbH = s.arbH := (rfl)
@[simp] theorem State.setHx_coldHeld (s : State) (n : Nat) (h : HxH) : (s.setHx n h).coldHeld = s.coldHeld := (rfl)
@[simp] theorem State.setHx_replay (s : State) (n : Nat) (h : HxH) : (s.setHx n h).replay = s.replay := (rfl)
@[simp] theorem State.setHx_hbH (s : State) (n : Nat) (h : HxH) : (s.setHx n h).hbH = s.hbH := (rfl)
@[simp] theorem State.setHx_slotH (s : State) (n : Nat) (h : HxH) : (s.setHx n h).slotH = s.slotH := (rfl)
@[simp] theorem State.setHx_survLatch (s : State) (n : Nat) (h : HxH) : (s.setHx n h).survLatch = s.survLatch := (rfl)
@[simp] theorem State.setHx_rtc (s : State) (n : Nat) (h : HxH) : (s.setHx n h).rtc = s.rtc := (rfl)
@[simp] theorem State.setHx_rtcFrom (s : State) (n : Nat) (h : HxH) : (s.setHx n h).rtcFrom = s.rtcFrom := (rfl)
@[simp] theorem State.setHx_rtcPre (s : State) (n : Nat) (h : HxH) : (s.setHx n h).rtcPre = s.rtcPre := (rfl)
@[simp] theorem State.setHx_rtcLen (s : State) (n : Nat) (h : HxH) : (s.setHx n h).rtcLen = s.rtcLen := (rfl)
@[simp] theorem State.setHx_rtcTrim (s : State) (n : Nat) (h : HxH) : (s.setHx n h).rtcTrim = s.rtcTrim := (rfl)
@[simp] theorem State.setHx_rtcLoad (s : State) (n : Nat) (h : HxH) : (s.setHx n h).rtcLoad = s.rtcLoad := (rfl)
@[simp] theorem State.setHx_seqH (s : State) (n : Nat) (h : HxH) : (s.setHx n h).seqH = s.seqH := (rfl)
@[simp] theorem State.setHx_ldrH (s : State) (n : Nat) (h : HxH) : (s.setHx n h).ldrH = s.ldrH := (rfl)
@[simp] theorem State.setHx_flash (s : State) (n : Nat) (h : HxH) : (s.setHx n h).flash = s.flash := (rfl)
@[simp] theorem State.setHx_fuses (s : State) (n : Nat) (h : HxH) : (s.setHx n h).fuses = s.fuses := (rfl)
@[simp] theorem State.setHx_ftRan (s : State) (n : Nat) (h : HxH) : (s.setHx n h).ftRan = s.ftRan := (rfl)
@[simp] theorem State.setHx_serCal (s : State) (n : Nat) (h : HxH) : (s.setHx n h).serCal = s.serCal := (rfl)

/-! After check bits set. -/

@[simp] theorem State.setEcc_pending (s : State) (a : Nat) (u : Upset) : (s.setEcc a u).pending = s.pending := (rfl)
@[simp] theorem State.setEcc_freeCtr (s : State) (a : Nat) (u : Upset) : (s.setEcc a u).freeCtr = s.freeCtr := (rfl)
@[simp] theorem State.setEcc_upsets (s : State) (a : Nat) (u : Upset) : (s.setEcc a u).upsets = s.upsets := (rfl)
@[simp] theorem State.setEcc_cycles (s : State) (a : Nat) (u : Upset) : (s.setEcc a u).cycles = s.cycles := (rfl)
@[simp] theorem State.setEcc_resp (s : State) (a : Nat) (u : Upset) : (s.setEcc a u).resp = s.resp := (rfl)
@[simp] theorem State.setEcc_out (s : State) (a : Nat) (u : Upset) : (s.setEcc a u).out = s.out := (rfl)
@[simp] theorem State.setEcc_regs (s : State) (a : Nat) (u : Upset) : (s.setEcc a u).regs = s.regs := (rfl)
@[simp] theorem State.setEcc_mregs (s : State) (a : Nat) (u : Upset) : (s.setEcc a u).mregs = s.mregs := (rfl)
@[simp] theorem State.setEcc_rwoDone (s : State) (a : Nat) (u : Upset) : (s.setEcc a u).rwoDone = s.rwoDone := (rfl)
@[simp] theorem State.setEcc_mem (s : State) (a : Nat) (u : Upset) : (s.setEcc a u).mem = s.mem := (rfl)
@[simp] theorem State.setEcc_fifo (s : State) (a : Nat) (u : Upset) : (s.setEcc a u).fifo = s.fifo := (rfl)
@[simp] theorem State.setEcc_cellH (s : State) (a : Nat) (u : Upset) : (s.setEcc a u).cellH = s.cellH := (rfl)
@[simp] theorem State.setEcc_agenda (s : State) (a : Nat) (u : Upset) : (s.setEcc a u).agenda = s.agenda := (rfl)
@[simp] theorem State.setEcc_gridFrom (s : State) (a : Nat) (u : Upset) : (s.setEcc a u).gridFrom = s.gridFrom := (rfl)
@[simp] theorem State.setEcc_clk0 (s : State) (a : Nat) (u : Upset) : (s.setEcc a u).clk0 = s.clk0 := (rfl)
@[simp] theorem State.setEcc_evfWas (s : State) (a : Nat) (u : Upset) : (s.setEcc a u).evfWas = s.evfWas := (rfl)
@[simp] theorem State.setEcc_dmaH (s : State) (a : Nat) (u : Upset) : (s.setEcc a u).dmaH = s.dmaH := (rfl)
@[simp] theorem State.setEcc_dmaLast (s : State) (a : Nat) (u : Upset) : (s.setEcc a u).dmaLast = s.dmaLast := (rfl)
@[simp] theorem State.setEcc_dmaAt (s : State) (a : Nat) (u : Upset) : (s.setEcc a u).dmaAt = s.dmaAt := (rfl)
@[simp] theorem State.setEcc_shdH (s : State) (a : Nat) (u : Upset) : (s.setEcc a u).shdH = s.shdH := (rfl)
@[simp] theorem State.setEcc_tbs (s : State) (a : Nat) (u : Upset) : (s.setEcc a u).tbs = s.tbs := (rfl)
@[simp] theorem State.setEcc_elog (s : State) (a : Nat) (u : Upset) : (s.setEcc a u).elog = s.elog := (rfl)
@[simp] theorem State.setEcc_undef (s : State) (a : Nat) (u : Upset) : (s.setEcc a u).undef = s.undef := (rfl)
@[simp] theorem State.setEcc_msix (s : State) (a : Nat) (u : Upset) : (s.setEcc a u).msix = s.msix := (rfl)
@[simp] theorem State.setEcc_srcs (s : State) (a : Nat) (u : Upset) : (s.setEcc a u).srcs = s.srcs := (rfl)
@[simp] theorem State.setEcc_ldrHold (s : State) (a : Nat) (u : Upset) : (s.setEcc a u).ldrHold = s.ldrHold := (rfl)
@[simp] theorem State.setEcc_pulseSrc (s : State) (a : Nat) (u : Upset) : (s.setEcc a u).pulseSrc = s.pulseSrc := (rfl)
@[simp] theorem State.setEcc_wdrst (s : State) (a : Nat) (u : Upset) : (s.setEcc a u).wdrst = s.wdrst := (rfl)
@[simp] theorem State.setEcc_pdoff (s : State) (a : Nat) (u : Upset) : (s.setEcc a u).pdoff = s.pdoff := (rfl)
@[simp] theorem State.setEcc_bankuv (s : State) (a : Nat) (u : Upset) : (s.setEcc a u).bankuv = s.bankuv := (rfl)
@[simp] theorem State.setEcc_holdSafe (s : State) (a : Nat) (u : Upset) : (s.setEcc a u).holdSafe = s.holdSafe := (rfl)
@[simp] theorem State.setEcc_pllSafe (s : State) (a : Nat) (u : Upset) : (s.setEcc a u).pllSafe = s.pllSafe := (rfl)
@[simp] theorem State.setEcc_keep (s : State) (a : Nat) (u : Upset) : (s.setEcc a u).keep = s.keep := (rfl)
@[simp] theorem State.setEcc_canRx (s : State) (a : Nat) (u : Upset) : (s.setEcc a u).canRx = s.canRx := (rfl)
@[simp] theorem State.setEcc_canStopping (s : State) (a : Nat) (u : Upset) : (s.setEcc a u).canStopping = s.canStopping := (rfl)
@[simp] theorem State.setEcc_canSof (s : State) (a : Nat) (u : Upset) : (s.setEcc a u).canSof = s.canSof := (rfl)
@[simp] theorem State.setEcc_canAborting (s : State) (a : Nat) (u : Upset) : (s.setEcc a u).canAborting = s.canAborting := (rfl)
@[simp] theorem State.setEcc_tsq (s : State) (a : Nat) (u : Upset) : (s.setEcc a u).tsq = s.tsq := (rfl)
@[simp] theorem State.setEcc_pps (s : State) (a : Nat) (u : Upset) : (s.setEcc a u).pps = s.pps := (rfl)
@[simp] theorem State.setEcc_hxH (s : State) (a : Nat) (u : Upset) : (s.setEcc a u).hxH = s.hxH := (rfl)
@[simp] theorem State.setEcc_adcH (s : State) (a : Nat) (u : Upset) : (s.setEcc a u).adcH = s.adcH := (rfl)
@[simp] theorem State.setEcc_img (s : State) (a : Nat) (u : Upset) : (s.setEcc a u).img = s.img := (rfl)
@[simp] theorem State.setEcc_imgE (s : State) (a : Nat) (u : Upset) : (s.setEcc a u).imgE = s.imgE := (rfl)
@[simp] theorem State.setEcc_imgAt (s : State) (a : Nat) (u : Upset) : (s.setEcc a u).imgAt = s.imgAt := (rfl)
@[simp] theorem State.setEcc_xlist (s : State) (a : Nat) (u : Upset) : (s.setEcc a u).xlist = s.xlist := (rfl)
@[simp] theorem State.setEcc_subs (s : State) (a : Nat) (u : Upset) : (s.setEcc a u).subs = s.subs := (rfl)
@[simp] theorem State.setEcc_maps (s : State) (a : Nat) (u : Upset) : (s.setEcc a u).maps = s.maps := (rfl)
@[simp] theorem State.setEcc_xpend (s : State) (a : Nat) (u : Upset) : (s.setEcc a u).xpend = s.xpend := (rfl)
@[simp] theorem State.setEcc_missDue (s : State) (a : Nat) (u : Upset) : (s.setEcc a u).missDue = s.missDue := (rfl)
@[simp] theorem State.setEcc_wtsSet (s : State) (a : Nat) (u : Upset) : (s.setEcc a u).wtsSet = s.wtsSet := (rfl)
@[simp] theorem State.setEcc_fdb (s : State) (a : Nat) (u : Upset) : (s.setEcc a u).fdb = s.fdb := (rfl)
@[simp] theorem State.setEcc_swq (s : State) (a : Nat) (u : Upset) : (s.setEcc a u).swq = s.swq := (rfl)
@[simp] theorem State.setEcc_swAvg (s : State) (a : Nat) (u : Upset) : (s.setEcc a u).swAvg = s.swAvg := (rfl)
@[simp] theorem State.setEcc_headAt (s : State) (a : Nat) (u : Upset) : (s.setEcc a u).headAt = s.headAt := (rfl)
@[simp] theorem State.setEcc_swHold (s : State) (a : Nat) (u : Upset) : (s.setEcc a u).swHold = s.swHold := (rfl)
@[simp] theorem State.setEcc_swPause (s : State) (a : Nat) (u : Upset) : (s.setEcc a u).swPause = s.swPause := (rfl)
@[simp] theorem State.setEcc_txEnd (s : State) (a : Nat) (u : Upset) : (s.setEcc a u).txEnd = s.txEnd := (rfl)
@[simp] theorem State.setEcc_pfcAt (s : State) (a : Nat) (u : Upset) : (s.setEcc a u).pfcAt = s.pfcAt := (rfl)
@[simp] theorem State.setEcc_fdbBusy (s : State) (a : Nat) (u : Upset) : (s.setEcc a u).fdbBusy = s.fdbBusy := (rfl)
@[simp] theorem State.setEcc_ageAt (s : State) (a : Nat) (u : Upset) : (s.setEcc a u).ageAt = s.ageAt := (rfl)
@[simp] theorem State.setEcc_gates (s : State) (a : Nat) (u : Upset) : (s.setEcc a u).gates = s.gates := (rfl)
@[simp] theorem State.setEcc_mtrs (s : State) (a : Nat) (u : Upset) : (s.setEcc a u).mtrs = s.mtrs := (rfl)
@[simp] theorem State.setEcc_recs (s : State) (a : Nat) (u : Upset) : (s.setEcc a u).recs = s.recs := (rfl)
@[simp] theorem State.setEcc_prp (s : State) (a : Nat) (u : Upset) : (s.setEcc a u).prp = s.prp := (rfl)
@[simp] theorem State.setEcc_mbxH (s : State) (a : Nat) (u : Upset) : (s.setEcc a u).mbxH = s.mbxH := (rfl)
@[simp] theorem State.setEcc_mbxX (s : State) (a : Nat) (u : Upset) : (s.setEcc a u).mbxX = s.mbxX := (rfl)
@[simp] theorem State.setEcc_ctxH (s : State) (a : Nat) (u : Upset) : (s.setEcc a u).ctxH = s.ctxH := (rfl)
@[simp] theorem State.setEcc_issueH (s : State) (a : Nat) (u : Upset) : (s.setEcc a u).issueH = s.issueH := (rfl)
@[simp] theorem State.setEcc_issueNo (s : State) (a : Nat) (u : Upset) : (s.setEcc a u).issueNo = s.issueNo := (rfl)
@[simp] theorem State.setEcc_stale (s : State) (a : Nat) (u : Upset) : (s.setEcc a u).stale = s.stale := (rfl)
@[simp] theorem State.setEcc_icache (s : State) (a : Nat) (u : Upset) : (s.setEcc a u).icache = s.icache := (rfl)
@[simp] theorem State.setEcc_dcache (s : State) (a : Nat) (u : Upset) : (s.setEcc a u).dcache = s.dcache := (rfl)
@[simp] theorem State.setEcc_fpr (s : State) (a : Nat) (u : Upset) : (s.setEcc a u).fpr = s.fpr := (rfl)
@[simp] theorem State.setEcc_peFrom (s : State) (a : Nat) (u : Upset) : (s.setEcc a u).peFrom = s.peFrom := (rfl)
@[simp] theorem State.setEcc_arbH (s : State) (a : Nat) (u : Upset) : (s.setEcc a u).arbH = s.arbH := (rfl)
@[simp] theorem State.setEcc_coldHeld (s : State) (a : Nat) (u : Upset) : (s.setEcc a u).coldHeld = s.coldHeld := (rfl)
@[simp] theorem State.setEcc_replay (s : State) (a : Nat) (u : Upset) : (s.setEcc a u).replay = s.replay := (rfl)
@[simp] theorem State.setEcc_hbH (s : State) (a : Nat) (u : Upset) : (s.setEcc a u).hbH = s.hbH := (rfl)
@[simp] theorem State.setEcc_slotH (s : State) (a : Nat) (u : Upset) : (s.setEcc a u).slotH = s.slotH := (rfl)
@[simp] theorem State.setEcc_survLatch (s : State) (a : Nat) (u : Upset) : (s.setEcc a u).survLatch = s.survLatch := (rfl)
@[simp] theorem State.setEcc_rtc (s : State) (a : Nat) (u : Upset) : (s.setEcc a u).rtc = s.rtc := (rfl)
@[simp] theorem State.setEcc_rtcFrom (s : State) (a : Nat) (u : Upset) : (s.setEcc a u).rtcFrom = s.rtcFrom := (rfl)
@[simp] theorem State.setEcc_rtcPre (s : State) (a : Nat) (u : Upset) : (s.setEcc a u).rtcPre = s.rtcPre := (rfl)
@[simp] theorem State.setEcc_rtcLen (s : State) (a : Nat) (u : Upset) : (s.setEcc a u).rtcLen = s.rtcLen := (rfl)
@[simp] theorem State.setEcc_rtcTrim (s : State) (a : Nat) (u : Upset) : (s.setEcc a u).rtcTrim = s.rtcTrim := (rfl)
@[simp] theorem State.setEcc_rtcLoad (s : State) (a : Nat) (u : Upset) : (s.setEcc a u).rtcLoad = s.rtcLoad := (rfl)
@[simp] theorem State.setEcc_seqH (s : State) (a : Nat) (u : Upset) : (s.setEcc a u).seqH = s.seqH := (rfl)
@[simp] theorem State.setEcc_ldrH (s : State) (a : Nat) (u : Upset) : (s.setEcc a u).ldrH = s.ldrH := (rfl)
@[simp] theorem State.setEcc_flash (s : State) (a : Nat) (u : Upset) : (s.setEcc a u).flash = s.flash := (rfl)
@[simp] theorem State.setEcc_fuses (s : State) (a : Nat) (u : Upset) : (s.setEcc a u).fuses = s.fuses := (rfl)
@[simp] theorem State.setEcc_ftRan (s : State) (a : Nat) (u : Upset) : (s.setEcc a u).ftRan = s.ftRan := (rfl)
@[simp] theorem State.setEcc_serCal (s : State) (a : Nat) (u : Upset) : (s.setEcc a u).serCal = s.serCal := (rfl)

/-! After something sent out. -/

@[simp] theorem State.emit_pending (s : State) (o : Out) : (s.emit o).pending = s.pending := (rfl)
@[simp] theorem State.emit_freeCtr (s : State) (o : Out) : (s.emit o).freeCtr = s.freeCtr := (rfl)
@[simp] theorem State.emit_upsets (s : State) (o : Out) : (s.emit o).upsets = s.upsets := (rfl)
@[simp] theorem State.emit_cycles (s : State) (o : Out) : (s.emit o).cycles = s.cycles := (rfl)
@[simp] theorem State.emit_resp (s : State) (o : Out) : (s.emit o).resp = s.resp := (rfl)
@[simp] theorem State.emit_regs (s : State) (o : Out) : (s.emit o).regs = s.regs := (rfl)
@[simp] theorem State.emit_mregs (s : State) (o : Out) : (s.emit o).mregs = s.mregs := (rfl)
@[simp] theorem State.emit_rwoDone (s : State) (o : Out) : (s.emit o).rwoDone = s.rwoDone := (rfl)
@[simp] theorem State.emit_mem (s : State) (o : Out) : (s.emit o).mem = s.mem := (rfl)
@[simp] theorem State.emit_ecc (s : State) (o : Out) : (s.emit o).ecc = s.ecc := (rfl)
@[simp] theorem State.emit_fifo (s : State) (o : Out) : (s.emit o).fifo = s.fifo := (rfl)
@[simp] theorem State.emit_cellH (s : State) (o : Out) : (s.emit o).cellH = s.cellH := (rfl)
@[simp] theorem State.emit_agenda (s : State) (o : Out) : (s.emit o).agenda = s.agenda := (rfl)
@[simp] theorem State.emit_gridFrom (s : State) (o : Out) : (s.emit o).gridFrom = s.gridFrom := (rfl)
@[simp] theorem State.emit_clk0 (s : State) (o : Out) : (s.emit o).clk0 = s.clk0 := (rfl)
@[simp] theorem State.emit_evfWas (s : State) (o : Out) : (s.emit o).evfWas = s.evfWas := (rfl)
@[simp] theorem State.emit_dmaH (s : State) (o : Out) : (s.emit o).dmaH = s.dmaH := (rfl)
@[simp] theorem State.emit_dmaLast (s : State) (o : Out) : (s.emit o).dmaLast = s.dmaLast := (rfl)
@[simp] theorem State.emit_dmaAt (s : State) (o : Out) : (s.emit o).dmaAt = s.dmaAt := (rfl)
@[simp] theorem State.emit_shdH (s : State) (o : Out) : (s.emit o).shdH = s.shdH := (rfl)
@[simp] theorem State.emit_tbs (s : State) (o : Out) : (s.emit o).tbs = s.tbs := (rfl)
@[simp] theorem State.emit_elog (s : State) (o : Out) : (s.emit o).elog = s.elog := (rfl)
@[simp] theorem State.emit_undef (s : State) (o : Out) : (s.emit o).undef = s.undef := (rfl)
@[simp] theorem State.emit_msix (s : State) (o : Out) : (s.emit o).msix = s.msix := (rfl)
@[simp] theorem State.emit_srcs (s : State) (o : Out) : (s.emit o).srcs = s.srcs := (rfl)
@[simp] theorem State.emit_ldrHold (s : State) (o : Out) : (s.emit o).ldrHold = s.ldrHold := (rfl)
@[simp] theorem State.emit_pulseSrc (s : State) (o : Out) : (s.emit o).pulseSrc = s.pulseSrc := (rfl)
@[simp] theorem State.emit_wdrst (s : State) (o : Out) : (s.emit o).wdrst = s.wdrst := (rfl)
@[simp] theorem State.emit_pdoff (s : State) (o : Out) : (s.emit o).pdoff = s.pdoff := (rfl)
@[simp] theorem State.emit_bankuv (s : State) (o : Out) : (s.emit o).bankuv = s.bankuv := (rfl)
@[simp] theorem State.emit_holdSafe (s : State) (o : Out) : (s.emit o).holdSafe = s.holdSafe := (rfl)
@[simp] theorem State.emit_pllSafe (s : State) (o : Out) : (s.emit o).pllSafe = s.pllSafe := (rfl)
@[simp] theorem State.emit_keep (s : State) (o : Out) : (s.emit o).keep = s.keep := (rfl)
@[simp] theorem State.emit_canRx (s : State) (o : Out) : (s.emit o).canRx = s.canRx := (rfl)
@[simp] theorem State.emit_canStopping (s : State) (o : Out) : (s.emit o).canStopping = s.canStopping := (rfl)
@[simp] theorem State.emit_canSof (s : State) (o : Out) : (s.emit o).canSof = s.canSof := (rfl)
@[simp] theorem State.emit_canAborting (s : State) (o : Out) : (s.emit o).canAborting = s.canAborting := (rfl)
@[simp] theorem State.emit_tsq (s : State) (o : Out) : (s.emit o).tsq = s.tsq := (rfl)
@[simp] theorem State.emit_pps (s : State) (o : Out) : (s.emit o).pps = s.pps := (rfl)
@[simp] theorem State.emit_hxH (s : State) (o : Out) : (s.emit o).hxH = s.hxH := (rfl)
@[simp] theorem State.emit_adcH (s : State) (o : Out) : (s.emit o).adcH = s.adcH := (rfl)
@[simp] theorem State.emit_img (s : State) (o : Out) : (s.emit o).img = s.img := (rfl)
@[simp] theorem State.emit_imgE (s : State) (o : Out) : (s.emit o).imgE = s.imgE := (rfl)
@[simp] theorem State.emit_imgAt (s : State) (o : Out) : (s.emit o).imgAt = s.imgAt := (rfl)
@[simp] theorem State.emit_xlist (s : State) (o : Out) : (s.emit o).xlist = s.xlist := (rfl)
@[simp] theorem State.emit_subs (s : State) (o : Out) : (s.emit o).subs = s.subs := (rfl)
@[simp] theorem State.emit_maps (s : State) (o : Out) : (s.emit o).maps = s.maps := (rfl)
@[simp] theorem State.emit_xpend (s : State) (o : Out) : (s.emit o).xpend = s.xpend := (rfl)
@[simp] theorem State.emit_missDue (s : State) (o : Out) : (s.emit o).missDue = s.missDue := (rfl)
@[simp] theorem State.emit_wtsSet (s : State) (o : Out) : (s.emit o).wtsSet = s.wtsSet := (rfl)
@[simp] theorem State.emit_fdb (s : State) (o : Out) : (s.emit o).fdb = s.fdb := (rfl)
@[simp] theorem State.emit_swq (s : State) (o : Out) : (s.emit o).swq = s.swq := (rfl)
@[simp] theorem State.emit_swAvg (s : State) (o : Out) : (s.emit o).swAvg = s.swAvg := (rfl)
@[simp] theorem State.emit_headAt (s : State) (o : Out) : (s.emit o).headAt = s.headAt := (rfl)
@[simp] theorem State.emit_swHold (s : State) (o : Out) : (s.emit o).swHold = s.swHold := (rfl)
@[simp] theorem State.emit_swPause (s : State) (o : Out) : (s.emit o).swPause = s.swPause := (rfl)
@[simp] theorem State.emit_txEnd (s : State) (o : Out) : (s.emit o).txEnd = s.txEnd := (rfl)
@[simp] theorem State.emit_pfcAt (s : State) (o : Out) : (s.emit o).pfcAt = s.pfcAt := (rfl)
@[simp] theorem State.emit_fdbBusy (s : State) (o : Out) : (s.emit o).fdbBusy = s.fdbBusy := (rfl)
@[simp] theorem State.emit_ageAt (s : State) (o : Out) : (s.emit o).ageAt = s.ageAt := (rfl)
@[simp] theorem State.emit_gates (s : State) (o : Out) : (s.emit o).gates = s.gates := (rfl)
@[simp] theorem State.emit_mtrs (s : State) (o : Out) : (s.emit o).mtrs = s.mtrs := (rfl)
@[simp] theorem State.emit_recs (s : State) (o : Out) : (s.emit o).recs = s.recs := (rfl)
@[simp] theorem State.emit_prp (s : State) (o : Out) : (s.emit o).prp = s.prp := (rfl)
@[simp] theorem State.emit_mbxH (s : State) (o : Out) : (s.emit o).mbxH = s.mbxH := (rfl)
@[simp] theorem State.emit_mbxX (s : State) (o : Out) : (s.emit o).mbxX = s.mbxX := (rfl)
@[simp] theorem State.emit_ctxH (s : State) (o : Out) : (s.emit o).ctxH = s.ctxH := (rfl)
@[simp] theorem State.emit_issueH (s : State) (o : Out) : (s.emit o).issueH = s.issueH := (rfl)
@[simp] theorem State.emit_issueNo (s : State) (o : Out) : (s.emit o).issueNo = s.issueNo := (rfl)
@[simp] theorem State.emit_stale (s : State) (o : Out) : (s.emit o).stale = s.stale := (rfl)
@[simp] theorem State.emit_icache (s : State) (o : Out) : (s.emit o).icache = s.icache := (rfl)
@[simp] theorem State.emit_dcache (s : State) (o : Out) : (s.emit o).dcache = s.dcache := (rfl)
@[simp] theorem State.emit_fpr (s : State) (o : Out) : (s.emit o).fpr = s.fpr := (rfl)
@[simp] theorem State.emit_peFrom (s : State) (o : Out) : (s.emit o).peFrom = s.peFrom := (rfl)
@[simp] theorem State.emit_arbH (s : State) (o : Out) : (s.emit o).arbH = s.arbH := (rfl)
@[simp] theorem State.emit_coldHeld (s : State) (o : Out) : (s.emit o).coldHeld = s.coldHeld := (rfl)
@[simp] theorem State.emit_replay (s : State) (o : Out) : (s.emit o).replay = s.replay := (rfl)
@[simp] theorem State.emit_hbH (s : State) (o : Out) : (s.emit o).hbH = s.hbH := (rfl)
@[simp] theorem State.emit_slotH (s : State) (o : Out) : (s.emit o).slotH = s.slotH := (rfl)
@[simp] theorem State.emit_survLatch (s : State) (o : Out) : (s.emit o).survLatch = s.survLatch := (rfl)
@[simp] theorem State.emit_rtc (s : State) (o : Out) : (s.emit o).rtc = s.rtc := (rfl)
@[simp] theorem State.emit_rtcFrom (s : State) (o : Out) : (s.emit o).rtcFrom = s.rtcFrom := (rfl)
@[simp] theorem State.emit_rtcPre (s : State) (o : Out) : (s.emit o).rtcPre = s.rtcPre := (rfl)
@[simp] theorem State.emit_rtcLen (s : State) (o : Out) : (s.emit o).rtcLen = s.rtcLen := (rfl)
@[simp] theorem State.emit_rtcTrim (s : State) (o : Out) : (s.emit o).rtcTrim = s.rtcTrim := (rfl)
@[simp] theorem State.emit_rtcLoad (s : State) (o : Out) : (s.emit o).rtcLoad = s.rtcLoad := (rfl)
@[simp] theorem State.emit_seqH (s : State) (o : Out) : (s.emit o).seqH = s.seqH := (rfl)
@[simp] theorem State.emit_ldrH (s : State) (o : Out) : (s.emit o).ldrH = s.ldrH := (rfl)
@[simp] theorem State.emit_flash (s : State) (o : Out) : (s.emit o).flash = s.flash := (rfl)
@[simp] theorem State.emit_fuses (s : State) (o : Out) : (s.emit o).fuses = s.fuses := (rfl)
@[simp] theorem State.emit_ftRan (s : State) (o : Out) : (s.emit o).ftRan = s.ftRan := (rfl)
@[simp] theorem State.emit_serCal (s : State) (o : Out) : (s.emit o).serCal = s.serCal := (rfl)

/-! After the hidden state of a slot set. -/

@[simp] theorem State.setSlot_pending (s : State) (k : Nat) (h : SlotH) : (s.setSlot k h).pending = s.pending := (rfl)
@[simp] theorem State.setSlot_freeCtr (s : State) (k : Nat) (h : SlotH) : (s.setSlot k h).freeCtr = s.freeCtr := (rfl)
@[simp] theorem State.setSlot_upsets (s : State) (k : Nat) (h : SlotH) : (s.setSlot k h).upsets = s.upsets := (rfl)
@[simp] theorem State.setSlot_cycles (s : State) (k : Nat) (h : SlotH) : (s.setSlot k h).cycles = s.cycles := (rfl)
@[simp] theorem State.setSlot_resp (s : State) (k : Nat) (h : SlotH) : (s.setSlot k h).resp = s.resp := (rfl)
@[simp] theorem State.setSlot_out (s : State) (k : Nat) (h : SlotH) : (s.setSlot k h).out = s.out := (rfl)
@[simp] theorem State.setSlot_regs (s : State) (k : Nat) (h : SlotH) : (s.setSlot k h).regs = s.regs := (rfl)
@[simp] theorem State.setSlot_mregs (s : State) (k : Nat) (h : SlotH) : (s.setSlot k h).mregs = s.mregs := (rfl)
@[simp] theorem State.setSlot_rwoDone (s : State) (k : Nat) (h : SlotH) : (s.setSlot k h).rwoDone = s.rwoDone := (rfl)
@[simp] theorem State.setSlot_mem (s : State) (k : Nat) (h : SlotH) : (s.setSlot k h).mem = s.mem := (rfl)
@[simp] theorem State.setSlot_ecc (s : State) (k : Nat) (h : SlotH) : (s.setSlot k h).ecc = s.ecc := (rfl)
@[simp] theorem State.setSlot_fifo (s : State) (k : Nat) (h : SlotH) : (s.setSlot k h).fifo = s.fifo := (rfl)
@[simp] theorem State.setSlot_cellH (s : State) (k : Nat) (h : SlotH) : (s.setSlot k h).cellH = s.cellH := (rfl)
@[simp] theorem State.setSlot_agenda (s : State) (k : Nat) (h : SlotH) : (s.setSlot k h).agenda = s.agenda := (rfl)
@[simp] theorem State.setSlot_gridFrom (s : State) (k : Nat) (h : SlotH) : (s.setSlot k h).gridFrom = s.gridFrom := (rfl)
@[simp] theorem State.setSlot_clk0 (s : State) (k : Nat) (h : SlotH) : (s.setSlot k h).clk0 = s.clk0 := (rfl)
@[simp] theorem State.setSlot_evfWas (s : State) (k : Nat) (h : SlotH) : (s.setSlot k h).evfWas = s.evfWas := (rfl)
@[simp] theorem State.setSlot_dmaH (s : State) (k : Nat) (h : SlotH) : (s.setSlot k h).dmaH = s.dmaH := (rfl)
@[simp] theorem State.setSlot_dmaLast (s : State) (k : Nat) (h : SlotH) : (s.setSlot k h).dmaLast = s.dmaLast := (rfl)
@[simp] theorem State.setSlot_dmaAt (s : State) (k : Nat) (h : SlotH) : (s.setSlot k h).dmaAt = s.dmaAt := (rfl)
@[simp] theorem State.setSlot_shdH (s : State) (k : Nat) (h : SlotH) : (s.setSlot k h).shdH = s.shdH := (rfl)
@[simp] theorem State.setSlot_tbs (s : State) (k : Nat) (h : SlotH) : (s.setSlot k h).tbs = s.tbs := (rfl)
@[simp] theorem State.setSlot_elog (s : State) (k : Nat) (h : SlotH) : (s.setSlot k h).elog = s.elog := (rfl)
@[simp] theorem State.setSlot_undef (s : State) (k : Nat) (h : SlotH) : (s.setSlot k h).undef = s.undef := (rfl)
@[simp] theorem State.setSlot_msix (s : State) (k : Nat) (h : SlotH) : (s.setSlot k h).msix = s.msix := (rfl)
@[simp] theorem State.setSlot_srcs (s : State) (k : Nat) (h : SlotH) : (s.setSlot k h).srcs = s.srcs := (rfl)
@[simp] theorem State.setSlot_ldrHold (s : State) (k : Nat) (h : SlotH) : (s.setSlot k h).ldrHold = s.ldrHold := (rfl)
@[simp] theorem State.setSlot_pulseSrc (s : State) (k : Nat) (h : SlotH) : (s.setSlot k h).pulseSrc = s.pulseSrc := (rfl)
@[simp] theorem State.setSlot_wdrst (s : State) (k : Nat) (h : SlotH) : (s.setSlot k h).wdrst = s.wdrst := (rfl)
@[simp] theorem State.setSlot_pdoff (s : State) (k : Nat) (h : SlotH) : (s.setSlot k h).pdoff = s.pdoff := (rfl)
@[simp] theorem State.setSlot_bankuv (s : State) (k : Nat) (h : SlotH) : (s.setSlot k h).bankuv = s.bankuv := (rfl)
@[simp] theorem State.setSlot_holdSafe (s : State) (k : Nat) (h : SlotH) : (s.setSlot k h).holdSafe = s.holdSafe := (rfl)
@[simp] theorem State.setSlot_pllSafe (s : State) (k : Nat) (h : SlotH) : (s.setSlot k h).pllSafe = s.pllSafe := (rfl)
@[simp] theorem State.setSlot_keep (s : State) (k : Nat) (h : SlotH) : (s.setSlot k h).keep = s.keep := (rfl)
@[simp] theorem State.setSlot_canRx (s : State) (k : Nat) (h : SlotH) : (s.setSlot k h).canRx = s.canRx := (rfl)
@[simp] theorem State.setSlot_canStopping (s : State) (k : Nat) (h : SlotH) : (s.setSlot k h).canStopping = s.canStopping := (rfl)
@[simp] theorem State.setSlot_canSof (s : State) (k : Nat) (h : SlotH) : (s.setSlot k h).canSof = s.canSof := (rfl)
@[simp] theorem State.setSlot_canAborting (s : State) (k : Nat) (h : SlotH) : (s.setSlot k h).canAborting = s.canAborting := (rfl)
@[simp] theorem State.setSlot_tsq (s : State) (k : Nat) (h : SlotH) : (s.setSlot k h).tsq = s.tsq := (rfl)
@[simp] theorem State.setSlot_pps (s : State) (k : Nat) (h : SlotH) : (s.setSlot k h).pps = s.pps := (rfl)
@[simp] theorem State.setSlot_hxH (s : State) (k : Nat) (h : SlotH) : (s.setSlot k h).hxH = s.hxH := (rfl)
@[simp] theorem State.setSlot_adcH (s : State) (k : Nat) (h : SlotH) : (s.setSlot k h).adcH = s.adcH := (rfl)
@[simp] theorem State.setSlot_img (s : State) (k : Nat) (h : SlotH) : (s.setSlot k h).img = s.img := (rfl)
@[simp] theorem State.setSlot_imgE (s : State) (k : Nat) (h : SlotH) : (s.setSlot k h).imgE = s.imgE := (rfl)
@[simp] theorem State.setSlot_imgAt (s : State) (k : Nat) (h : SlotH) : (s.setSlot k h).imgAt = s.imgAt := (rfl)
@[simp] theorem State.setSlot_xlist (s : State) (k : Nat) (h : SlotH) : (s.setSlot k h).xlist = s.xlist := (rfl)
@[simp] theorem State.setSlot_subs (s : State) (k : Nat) (h : SlotH) : (s.setSlot k h).subs = s.subs := (rfl)
@[simp] theorem State.setSlot_maps (s : State) (k : Nat) (h : SlotH) : (s.setSlot k h).maps = s.maps := (rfl)
@[simp] theorem State.setSlot_xpend (s : State) (k : Nat) (h : SlotH) : (s.setSlot k h).xpend = s.xpend := (rfl)
@[simp] theorem State.setSlot_missDue (s : State) (k : Nat) (h : SlotH) : (s.setSlot k h).missDue = s.missDue := (rfl)
@[simp] theorem State.setSlot_wtsSet (s : State) (k : Nat) (h : SlotH) : (s.setSlot k h).wtsSet = s.wtsSet := (rfl)
@[simp] theorem State.setSlot_fdb (s : State) (k : Nat) (h : SlotH) : (s.setSlot k h).fdb = s.fdb := (rfl)
@[simp] theorem State.setSlot_swq (s : State) (k : Nat) (h : SlotH) : (s.setSlot k h).swq = s.swq := (rfl)
@[simp] theorem State.setSlot_swAvg (s : State) (k : Nat) (h : SlotH) : (s.setSlot k h).swAvg = s.swAvg := (rfl)
@[simp] theorem State.setSlot_headAt (s : State) (k : Nat) (h : SlotH) : (s.setSlot k h).headAt = s.headAt := (rfl)
@[simp] theorem State.setSlot_swHold (s : State) (k : Nat) (h : SlotH) : (s.setSlot k h).swHold = s.swHold := (rfl)
@[simp] theorem State.setSlot_swPause (s : State) (k : Nat) (h : SlotH) : (s.setSlot k h).swPause = s.swPause := (rfl)
@[simp] theorem State.setSlot_txEnd (s : State) (k : Nat) (h : SlotH) : (s.setSlot k h).txEnd = s.txEnd := (rfl)
@[simp] theorem State.setSlot_pfcAt (s : State) (k : Nat) (h : SlotH) : (s.setSlot k h).pfcAt = s.pfcAt := (rfl)
@[simp] theorem State.setSlot_fdbBusy (s : State) (k : Nat) (h : SlotH) : (s.setSlot k h).fdbBusy = s.fdbBusy := (rfl)
@[simp] theorem State.setSlot_ageAt (s : State) (k : Nat) (h : SlotH) : (s.setSlot k h).ageAt = s.ageAt := (rfl)
@[simp] theorem State.setSlot_gates (s : State) (k : Nat) (h : SlotH) : (s.setSlot k h).gates = s.gates := (rfl)
@[simp] theorem State.setSlot_mtrs (s : State) (k : Nat) (h : SlotH) : (s.setSlot k h).mtrs = s.mtrs := (rfl)
@[simp] theorem State.setSlot_recs (s : State) (k : Nat) (h : SlotH) : (s.setSlot k h).recs = s.recs := (rfl)
@[simp] theorem State.setSlot_prp (s : State) (k : Nat) (h : SlotH) : (s.setSlot k h).prp = s.prp := (rfl)
@[simp] theorem State.setSlot_mbxH (s : State) (k : Nat) (h : SlotH) : (s.setSlot k h).mbxH = s.mbxH := (rfl)
@[simp] theorem State.setSlot_mbxX (s : State) (k : Nat) (h : SlotH) : (s.setSlot k h).mbxX = s.mbxX := (rfl)
@[simp] theorem State.setSlot_ctxH (s : State) (k : Nat) (h : SlotH) : (s.setSlot k h).ctxH = s.ctxH := (rfl)
@[simp] theorem State.setSlot_issueH (s : State) (k : Nat) (h : SlotH) : (s.setSlot k h).issueH = s.issueH := (rfl)
@[simp] theorem State.setSlot_issueNo (s : State) (k : Nat) (h : SlotH) : (s.setSlot k h).issueNo = s.issueNo := (rfl)
@[simp] theorem State.setSlot_stale (s : State) (k : Nat) (h : SlotH) : (s.setSlot k h).stale = s.stale := (rfl)
@[simp] theorem State.setSlot_icache (s : State) (k : Nat) (h : SlotH) : (s.setSlot k h).icache = s.icache := (rfl)
@[simp] theorem State.setSlot_dcache (s : State) (k : Nat) (h : SlotH) : (s.setSlot k h).dcache = s.dcache := (rfl)
@[simp] theorem State.setSlot_fpr (s : State) (k : Nat) (h : SlotH) : (s.setSlot k h).fpr = s.fpr := (rfl)
@[simp] theorem State.setSlot_peFrom (s : State) (k : Nat) (h : SlotH) : (s.setSlot k h).peFrom = s.peFrom := (rfl)
@[simp] theorem State.setSlot_arbH (s : State) (k : Nat) (h : SlotH) : (s.setSlot k h).arbH = s.arbH := (rfl)
@[simp] theorem State.setSlot_coldHeld (s : State) (k : Nat) (h : SlotH) : (s.setSlot k h).coldHeld = s.coldHeld := (rfl)
@[simp] theorem State.setSlot_replay (s : State) (k : Nat) (h : SlotH) : (s.setSlot k h).replay = s.replay := (rfl)
@[simp] theorem State.setSlot_hbH (s : State) (k : Nat) (h : SlotH) : (s.setSlot k h).hbH = s.hbH := (rfl)
@[simp] theorem State.setSlot_survLatch (s : State) (k : Nat) (h : SlotH) : (s.setSlot k h).survLatch = s.survLatch := (rfl)
@[simp] theorem State.setSlot_rtc (s : State) (k : Nat) (h : SlotH) : (s.setSlot k h).rtc = s.rtc := (rfl)
@[simp] theorem State.setSlot_rtcFrom (s : State) (k : Nat) (h : SlotH) : (s.setSlot k h).rtcFrom = s.rtcFrom := (rfl)
@[simp] theorem State.setSlot_rtcPre (s : State) (k : Nat) (h : SlotH) : (s.setSlot k h).rtcPre = s.rtcPre := (rfl)
@[simp] theorem State.setSlot_rtcLen (s : State) (k : Nat) (h : SlotH) : (s.setSlot k h).rtcLen = s.rtcLen := (rfl)
@[simp] theorem State.setSlot_rtcTrim (s : State) (k : Nat) (h : SlotH) : (s.setSlot k h).rtcTrim = s.rtcTrim := (rfl)
@[simp] theorem State.setSlot_rtcLoad (s : State) (k : Nat) (h : SlotH) : (s.setSlot k h).rtcLoad = s.rtcLoad := (rfl)
@[simp] theorem State.setSlot_seqH (s : State) (k : Nat) (h : SlotH) : (s.setSlot k h).seqH = s.seqH := (rfl)
@[simp] theorem State.setSlot_ldrH (s : State) (k : Nat) (h : SlotH) : (s.setSlot k h).ldrH = s.ldrH := (rfl)
@[simp] theorem State.setSlot_flash (s : State) (k : Nat) (h : SlotH) : (s.setSlot k h).flash = s.flash := (rfl)
@[simp] theorem State.setSlot_fuses (s : State) (k : Nat) (h : SlotH) : (s.setSlot k h).fuses = s.fuses := (rfl)
@[simp] theorem State.setSlot_ftRan (s : State) (k : Nat) (h : SlotH) : (s.setSlot k h).ftRan = s.ftRan := (rfl)
@[simp] theorem State.setSlot_serCal (s : State) (k : Nat) (h : SlotH) : (s.setSlot k h).serCal = s.serCal := (rfl)

/-! After the hidden state of a shadow cell set. -/

@[simp] theorem State.setShd_pending (s : State) (g : Nat) (h : ShadowH) : (s.setShd g h).pending = s.pending := (rfl)
@[simp] theorem State.setShd_freeCtr (s : State) (g : Nat) (h : ShadowH) : (s.setShd g h).freeCtr = s.freeCtr := (rfl)
@[simp] theorem State.setShd_upsets (s : State) (g : Nat) (h : ShadowH) : (s.setShd g h).upsets = s.upsets := (rfl)
@[simp] theorem State.setShd_cycles (s : State) (g : Nat) (h : ShadowH) : (s.setShd g h).cycles = s.cycles := (rfl)
@[simp] theorem State.setShd_resp (s : State) (g : Nat) (h : ShadowH) : (s.setShd g h).resp = s.resp := (rfl)
@[simp] theorem State.setShd_out (s : State) (g : Nat) (h : ShadowH) : (s.setShd g h).out = s.out := (rfl)
@[simp] theorem State.setShd_regs (s : State) (g : Nat) (h : ShadowH) : (s.setShd g h).regs = s.regs := (rfl)
@[simp] theorem State.setShd_mregs (s : State) (g : Nat) (h : ShadowH) : (s.setShd g h).mregs = s.mregs := (rfl)
@[simp] theorem State.setShd_rwoDone (s : State) (g : Nat) (h : ShadowH) : (s.setShd g h).rwoDone = s.rwoDone := (rfl)
@[simp] theorem State.setShd_mem (s : State) (g : Nat) (h : ShadowH) : (s.setShd g h).mem = s.mem := (rfl)
@[simp] theorem State.setShd_ecc (s : State) (g : Nat) (h : ShadowH) : (s.setShd g h).ecc = s.ecc := (rfl)
@[simp] theorem State.setShd_fifo (s : State) (g : Nat) (h : ShadowH) : (s.setShd g h).fifo = s.fifo := (rfl)
@[simp] theorem State.setShd_cellH (s : State) (g : Nat) (h : ShadowH) : (s.setShd g h).cellH = s.cellH := (rfl)
@[simp] theorem State.setShd_agenda (s : State) (g : Nat) (h : ShadowH) : (s.setShd g h).agenda = s.agenda := (rfl)
@[simp] theorem State.setShd_gridFrom (s : State) (g : Nat) (h : ShadowH) : (s.setShd g h).gridFrom = s.gridFrom := (rfl)
@[simp] theorem State.setShd_clk0 (s : State) (g : Nat) (h : ShadowH) : (s.setShd g h).clk0 = s.clk0 := (rfl)
@[simp] theorem State.setShd_evfWas (s : State) (g : Nat) (h : ShadowH) : (s.setShd g h).evfWas = s.evfWas := (rfl)
@[simp] theorem State.setShd_dmaH (s : State) (g : Nat) (h : ShadowH) : (s.setShd g h).dmaH = s.dmaH := (rfl)
@[simp] theorem State.setShd_dmaLast (s : State) (g : Nat) (h : ShadowH) : (s.setShd g h).dmaLast = s.dmaLast := (rfl)
@[simp] theorem State.setShd_dmaAt (s : State) (g : Nat) (h : ShadowH) : (s.setShd g h).dmaAt = s.dmaAt := (rfl)
@[simp] theorem State.setShd_tbs (s : State) (g : Nat) (h : ShadowH) : (s.setShd g h).tbs = s.tbs := (rfl)
@[simp] theorem State.setShd_elog (s : State) (g : Nat) (h : ShadowH) : (s.setShd g h).elog = s.elog := (rfl)
@[simp] theorem State.setShd_undef (s : State) (g : Nat) (h : ShadowH) : (s.setShd g h).undef = s.undef := (rfl)
@[simp] theorem State.setShd_msix (s : State) (g : Nat) (h : ShadowH) : (s.setShd g h).msix = s.msix := (rfl)
@[simp] theorem State.setShd_srcs (s : State) (g : Nat) (h : ShadowH) : (s.setShd g h).srcs = s.srcs := (rfl)
@[simp] theorem State.setShd_ldrHold (s : State) (g : Nat) (h : ShadowH) : (s.setShd g h).ldrHold = s.ldrHold := (rfl)
@[simp] theorem State.setShd_pulseSrc (s : State) (g : Nat) (h : ShadowH) : (s.setShd g h).pulseSrc = s.pulseSrc := (rfl)
@[simp] theorem State.setShd_wdrst (s : State) (g : Nat) (h : ShadowH) : (s.setShd g h).wdrst = s.wdrst := (rfl)
@[simp] theorem State.setShd_pdoff (s : State) (g : Nat) (h : ShadowH) : (s.setShd g h).pdoff = s.pdoff := (rfl)
@[simp] theorem State.setShd_bankuv (s : State) (g : Nat) (h : ShadowH) : (s.setShd g h).bankuv = s.bankuv := (rfl)
@[simp] theorem State.setShd_holdSafe (s : State) (g : Nat) (h : ShadowH) : (s.setShd g h).holdSafe = s.holdSafe := (rfl)
@[simp] theorem State.setShd_pllSafe (s : State) (g : Nat) (h : ShadowH) : (s.setShd g h).pllSafe = s.pllSafe := (rfl)
@[simp] theorem State.setShd_keep (s : State) (g : Nat) (h : ShadowH) : (s.setShd g h).keep = s.keep := (rfl)
@[simp] theorem State.setShd_canRx (s : State) (g : Nat) (h : ShadowH) : (s.setShd g h).canRx = s.canRx := (rfl)
@[simp] theorem State.setShd_canStopping (s : State) (g : Nat) (h : ShadowH) : (s.setShd g h).canStopping = s.canStopping := (rfl)
@[simp] theorem State.setShd_canSof (s : State) (g : Nat) (h : ShadowH) : (s.setShd g h).canSof = s.canSof := (rfl)
@[simp] theorem State.setShd_canAborting (s : State) (g : Nat) (h : ShadowH) : (s.setShd g h).canAborting = s.canAborting := (rfl)
@[simp] theorem State.setShd_tsq (s : State) (g : Nat) (h : ShadowH) : (s.setShd g h).tsq = s.tsq := (rfl)
@[simp] theorem State.setShd_pps (s : State) (g : Nat) (h : ShadowH) : (s.setShd g h).pps = s.pps := (rfl)
@[simp] theorem State.setShd_hxH (s : State) (g : Nat) (h : ShadowH) : (s.setShd g h).hxH = s.hxH := (rfl)
@[simp] theorem State.setShd_adcH (s : State) (g : Nat) (h : ShadowH) : (s.setShd g h).adcH = s.adcH := (rfl)
@[simp] theorem State.setShd_img (s : State) (g : Nat) (h : ShadowH) : (s.setShd g h).img = s.img := (rfl)
@[simp] theorem State.setShd_imgE (s : State) (g : Nat) (h : ShadowH) : (s.setShd g h).imgE = s.imgE := (rfl)
@[simp] theorem State.setShd_imgAt (s : State) (g : Nat) (h : ShadowH) : (s.setShd g h).imgAt = s.imgAt := (rfl)
@[simp] theorem State.setShd_xlist (s : State) (g : Nat) (h : ShadowH) : (s.setShd g h).xlist = s.xlist := (rfl)
@[simp] theorem State.setShd_subs (s : State) (g : Nat) (h : ShadowH) : (s.setShd g h).subs = s.subs := (rfl)
@[simp] theorem State.setShd_maps (s : State) (g : Nat) (h : ShadowH) : (s.setShd g h).maps = s.maps := (rfl)
@[simp] theorem State.setShd_xpend (s : State) (g : Nat) (h : ShadowH) : (s.setShd g h).xpend = s.xpend := (rfl)
@[simp] theorem State.setShd_missDue (s : State) (g : Nat) (h : ShadowH) : (s.setShd g h).missDue = s.missDue := (rfl)
@[simp] theorem State.setShd_wtsSet (s : State) (g : Nat) (h : ShadowH) : (s.setShd g h).wtsSet = s.wtsSet := (rfl)
@[simp] theorem State.setShd_fdb (s : State) (g : Nat) (h : ShadowH) : (s.setShd g h).fdb = s.fdb := (rfl)
@[simp] theorem State.setShd_swq (s : State) (g : Nat) (h : ShadowH) : (s.setShd g h).swq = s.swq := (rfl)
@[simp] theorem State.setShd_swAvg (s : State) (g : Nat) (h : ShadowH) : (s.setShd g h).swAvg = s.swAvg := (rfl)
@[simp] theorem State.setShd_headAt (s : State) (g : Nat) (h : ShadowH) : (s.setShd g h).headAt = s.headAt := (rfl)
@[simp] theorem State.setShd_swHold (s : State) (g : Nat) (h : ShadowH) : (s.setShd g h).swHold = s.swHold := (rfl)
@[simp] theorem State.setShd_swPause (s : State) (g : Nat) (h : ShadowH) : (s.setShd g h).swPause = s.swPause := (rfl)
@[simp] theorem State.setShd_txEnd (s : State) (g : Nat) (h : ShadowH) : (s.setShd g h).txEnd = s.txEnd := (rfl)
@[simp] theorem State.setShd_pfcAt (s : State) (g : Nat) (h : ShadowH) : (s.setShd g h).pfcAt = s.pfcAt := (rfl)
@[simp] theorem State.setShd_fdbBusy (s : State) (g : Nat) (h : ShadowH) : (s.setShd g h).fdbBusy = s.fdbBusy := (rfl)
@[simp] theorem State.setShd_ageAt (s : State) (g : Nat) (h : ShadowH) : (s.setShd g h).ageAt = s.ageAt := (rfl)
@[simp] theorem State.setShd_gates (s : State) (g : Nat) (h : ShadowH) : (s.setShd g h).gates = s.gates := (rfl)
@[simp] theorem State.setShd_mtrs (s : State) (g : Nat) (h : ShadowH) : (s.setShd g h).mtrs = s.mtrs := (rfl)
@[simp] theorem State.setShd_recs (s : State) (g : Nat) (h : ShadowH) : (s.setShd g h).recs = s.recs := (rfl)
@[simp] theorem State.setShd_prp (s : State) (g : Nat) (h : ShadowH) : (s.setShd g h).prp = s.prp := (rfl)
@[simp] theorem State.setShd_mbxH (s : State) (g : Nat) (h : ShadowH) : (s.setShd g h).mbxH = s.mbxH := (rfl)
@[simp] theorem State.setShd_mbxX (s : State) (g : Nat) (h : ShadowH) : (s.setShd g h).mbxX = s.mbxX := (rfl)
@[simp] theorem State.setShd_ctxH (s : State) (g : Nat) (h : ShadowH) : (s.setShd g h).ctxH = s.ctxH := (rfl)
@[simp] theorem State.setShd_issueH (s : State) (g : Nat) (h : ShadowH) : (s.setShd g h).issueH = s.issueH := (rfl)
@[simp] theorem State.setShd_issueNo (s : State) (g : Nat) (h : ShadowH) : (s.setShd g h).issueNo = s.issueNo := (rfl)
@[simp] theorem State.setShd_stale (s : State) (g : Nat) (h : ShadowH) : (s.setShd g h).stale = s.stale := (rfl)
@[simp] theorem State.setShd_icache (s : State) (g : Nat) (h : ShadowH) : (s.setShd g h).icache = s.icache := (rfl)
@[simp] theorem State.setShd_dcache (s : State) (g : Nat) (h : ShadowH) : (s.setShd g h).dcache = s.dcache := (rfl)
@[simp] theorem State.setShd_fpr (s : State) (g : Nat) (h : ShadowH) : (s.setShd g h).fpr = s.fpr := (rfl)
@[simp] theorem State.setShd_peFrom (s : State) (g : Nat) (h : ShadowH) : (s.setShd g h).peFrom = s.peFrom := (rfl)
@[simp] theorem State.setShd_arbH (s : State) (g : Nat) (h : ShadowH) : (s.setShd g h).arbH = s.arbH := (rfl)
@[simp] theorem State.setShd_coldHeld (s : State) (g : Nat) (h : ShadowH) : (s.setShd g h).coldHeld = s.coldHeld := (rfl)
@[simp] theorem State.setShd_replay (s : State) (g : Nat) (h : ShadowH) : (s.setShd g h).replay = s.replay := (rfl)
@[simp] theorem State.setShd_hbH (s : State) (g : Nat) (h : ShadowH) : (s.setShd g h).hbH = s.hbH := (rfl)
@[simp] theorem State.setShd_slotH (s : State) (g : Nat) (h : ShadowH) : (s.setShd g h).slotH = s.slotH := (rfl)
@[simp] theorem State.setShd_survLatch (s : State) (g : Nat) (h : ShadowH) : (s.setShd g h).survLatch = s.survLatch := (rfl)
@[simp] theorem State.setShd_rtc (s : State) (g : Nat) (h : ShadowH) : (s.setShd g h).rtc = s.rtc := (rfl)
@[simp] theorem State.setShd_rtcFrom (s : State) (g : Nat) (h : ShadowH) : (s.setShd g h).rtcFrom = s.rtcFrom := (rfl)
@[simp] theorem State.setShd_rtcPre (s : State) (g : Nat) (h : ShadowH) : (s.setShd g h).rtcPre = s.rtcPre := (rfl)
@[simp] theorem State.setShd_rtcLen (s : State) (g : Nat) (h : ShadowH) : (s.setShd g h).rtcLen = s.rtcLen := (rfl)
@[simp] theorem State.setShd_rtcTrim (s : State) (g : Nat) (h : ShadowH) : (s.setShd g h).rtcTrim = s.rtcTrim := (rfl)
@[simp] theorem State.setShd_rtcLoad (s : State) (g : Nat) (h : ShadowH) : (s.setShd g h).rtcLoad = s.rtcLoad := (rfl)
@[simp] theorem State.setShd_seqH (s : State) (g : Nat) (h : ShadowH) : (s.setShd g h).seqH = s.seqH := (rfl)
@[simp] theorem State.setShd_ldrH (s : State) (g : Nat) (h : ShadowH) : (s.setShd g h).ldrH = s.ldrH := (rfl)
@[simp] theorem State.setShd_flash (s : State) (g : Nat) (h : ShadowH) : (s.setShd g h).flash = s.flash := (rfl)
@[simp] theorem State.setShd_fuses (s : State) (g : Nat) (h : ShadowH) : (s.setShd g h).fuses = s.fuses := (rfl)
@[simp] theorem State.setShd_ftRan (s : State) (g : Nat) (h : ShadowH) : (s.setShd g h).ftRan = s.ftRan := (rfl)
@[simp] theorem State.setShd_serCal (s : State) (g : Nat) (h : ShadowH) : (s.setShd g h).serCal = s.serCal := (rfl)

/-! After an item put on the agenda. -/

@[simp] theorem State.plan_pending (s : State) (t : Nat) (k : DueK) : (s.plan t k).pending = s.pending := (rfl)
@[simp] theorem State.plan_freeCtr (s : State) (t : Nat) (k : DueK) : (s.plan t k).freeCtr = s.freeCtr := (rfl)
@[simp] theorem State.plan_upsets (s : State) (t : Nat) (k : DueK) : (s.plan t k).upsets = s.upsets := (rfl)
@[simp] theorem State.plan_cycles (s : State) (t : Nat) (k : DueK) : (s.plan t k).cycles = s.cycles := (rfl)
@[simp] theorem State.plan_resp (s : State) (t : Nat) (k : DueK) : (s.plan t k).resp = s.resp := (rfl)
@[simp] theorem State.plan_out (s : State) (t : Nat) (k : DueK) : (s.plan t k).out = s.out := (rfl)
@[simp] theorem State.plan_regs (s : State) (t : Nat) (k : DueK) : (s.plan t k).regs = s.regs := (rfl)
@[simp] theorem State.plan_mregs (s : State) (t : Nat) (k : DueK) : (s.plan t k).mregs = s.mregs := (rfl)
@[simp] theorem State.plan_rwoDone (s : State) (t : Nat) (k : DueK) : (s.plan t k).rwoDone = s.rwoDone := (rfl)
@[simp] theorem State.plan_mem (s : State) (t : Nat) (k : DueK) : (s.plan t k).mem = s.mem := (rfl)
@[simp] theorem State.plan_ecc (s : State) (t : Nat) (k : DueK) : (s.plan t k).ecc = s.ecc := (rfl)
@[simp] theorem State.plan_fifo (s : State) (t : Nat) (k : DueK) : (s.plan t k).fifo = s.fifo := (rfl)
@[simp] theorem State.plan_cellH (s : State) (t : Nat) (k : DueK) : (s.plan t k).cellH = s.cellH := (rfl)
@[simp] theorem State.plan_gridFrom (s : State) (t : Nat) (k : DueK) : (s.plan t k).gridFrom = s.gridFrom := (rfl)
@[simp] theorem State.plan_clk0 (s : State) (t : Nat) (k : DueK) : (s.plan t k).clk0 = s.clk0 := (rfl)
@[simp] theorem State.plan_evfWas (s : State) (t : Nat) (k : DueK) : (s.plan t k).evfWas = s.evfWas := (rfl)
@[simp] theorem State.plan_dmaH (s : State) (t : Nat) (k : DueK) : (s.plan t k).dmaH = s.dmaH := (rfl)
@[simp] theorem State.plan_dmaLast (s : State) (t : Nat) (k : DueK) : (s.plan t k).dmaLast = s.dmaLast := (rfl)
@[simp] theorem State.plan_dmaAt (s : State) (t : Nat) (k : DueK) : (s.plan t k).dmaAt = s.dmaAt := (rfl)
@[simp] theorem State.plan_shdH (s : State) (t : Nat) (k : DueK) : (s.plan t k).shdH = s.shdH := (rfl)
@[simp] theorem State.plan_tbs (s : State) (t : Nat) (k : DueK) : (s.plan t k).tbs = s.tbs := (rfl)
@[simp] theorem State.plan_elog (s : State) (t : Nat) (k : DueK) : (s.plan t k).elog = s.elog := (rfl)
@[simp] theorem State.plan_undef (s : State) (t : Nat) (k : DueK) : (s.plan t k).undef = s.undef := (rfl)
@[simp] theorem State.plan_msix (s : State) (t : Nat) (k : DueK) : (s.plan t k).msix = s.msix := (rfl)
@[simp] theorem State.plan_srcs (s : State) (t : Nat) (k : DueK) : (s.plan t k).srcs = s.srcs := (rfl)
@[simp] theorem State.plan_ldrHold (s : State) (t : Nat) (k : DueK) : (s.plan t k).ldrHold = s.ldrHold := (rfl)
@[simp] theorem State.plan_pulseSrc (s : State) (t : Nat) (k : DueK) : (s.plan t k).pulseSrc = s.pulseSrc := (rfl)
@[simp] theorem State.plan_wdrst (s : State) (t : Nat) (k : DueK) : (s.plan t k).wdrst = s.wdrst := (rfl)
@[simp] theorem State.plan_pdoff (s : State) (t : Nat) (k : DueK) : (s.plan t k).pdoff = s.pdoff := (rfl)
@[simp] theorem State.plan_bankuv (s : State) (t : Nat) (k : DueK) : (s.plan t k).bankuv = s.bankuv := (rfl)
@[simp] theorem State.plan_holdSafe (s : State) (t : Nat) (k : DueK) : (s.plan t k).holdSafe = s.holdSafe := (rfl)
@[simp] theorem State.plan_pllSafe (s : State) (t : Nat) (k : DueK) : (s.plan t k).pllSafe = s.pllSafe := (rfl)
@[simp] theorem State.plan_keep (s : State) (t : Nat) (k : DueK) : (s.plan t k).keep = s.keep := (rfl)
@[simp] theorem State.plan_canRx (s : State) (t : Nat) (k : DueK) : (s.plan t k).canRx = s.canRx := (rfl)
@[simp] theorem State.plan_canStopping (s : State) (t : Nat) (k : DueK) : (s.plan t k).canStopping = s.canStopping := (rfl)
@[simp] theorem State.plan_canSof (s : State) (t : Nat) (k : DueK) : (s.plan t k).canSof = s.canSof := (rfl)
@[simp] theorem State.plan_canAborting (s : State) (t : Nat) (k : DueK) : (s.plan t k).canAborting = s.canAborting := (rfl)
@[simp] theorem State.plan_tsq (s : State) (t : Nat) (k : DueK) : (s.plan t k).tsq = s.tsq := (rfl)
@[simp] theorem State.plan_pps (s : State) (t : Nat) (k : DueK) : (s.plan t k).pps = s.pps := (rfl)
@[simp] theorem State.plan_hxH (s : State) (t : Nat) (k : DueK) : (s.plan t k).hxH = s.hxH := (rfl)
@[simp] theorem State.plan_adcH (s : State) (t : Nat) (k : DueK) : (s.plan t k).adcH = s.adcH := (rfl)
@[simp] theorem State.plan_img (s : State) (t : Nat) (k : DueK) : (s.plan t k).img = s.img := (rfl)
@[simp] theorem State.plan_imgE (s : State) (t : Nat) (k : DueK) : (s.plan t k).imgE = s.imgE := (rfl)
@[simp] theorem State.plan_imgAt (s : State) (t : Nat) (k : DueK) : (s.plan t k).imgAt = s.imgAt := (rfl)
@[simp] theorem State.plan_xlist (s : State) (t : Nat) (k : DueK) : (s.plan t k).xlist = s.xlist := (rfl)
@[simp] theorem State.plan_subs (s : State) (t : Nat) (k : DueK) : (s.plan t k).subs = s.subs := (rfl)
@[simp] theorem State.plan_maps (s : State) (t : Nat) (k : DueK) : (s.plan t k).maps = s.maps := (rfl)
@[simp] theorem State.plan_xpend (s : State) (t : Nat) (k : DueK) : (s.plan t k).xpend = s.xpend := (rfl)
@[simp] theorem State.plan_missDue (s : State) (t : Nat) (k : DueK) : (s.plan t k).missDue = s.missDue := (rfl)
@[simp] theorem State.plan_wtsSet (s : State) (t : Nat) (k : DueK) : (s.plan t k).wtsSet = s.wtsSet := (rfl)
@[simp] theorem State.plan_fdb (s : State) (t : Nat) (k : DueK) : (s.plan t k).fdb = s.fdb := (rfl)
@[simp] theorem State.plan_swq (s : State) (t : Nat) (k : DueK) : (s.plan t k).swq = s.swq := (rfl)
@[simp] theorem State.plan_swAvg (s : State) (t : Nat) (k : DueK) : (s.plan t k).swAvg = s.swAvg := (rfl)
@[simp] theorem State.plan_headAt (s : State) (t : Nat) (k : DueK) : (s.plan t k).headAt = s.headAt := (rfl)
@[simp] theorem State.plan_swHold (s : State) (t : Nat) (k : DueK) : (s.plan t k).swHold = s.swHold := (rfl)
@[simp] theorem State.plan_swPause (s : State) (t : Nat) (k : DueK) : (s.plan t k).swPause = s.swPause := (rfl)
@[simp] theorem State.plan_txEnd (s : State) (t : Nat) (k : DueK) : (s.plan t k).txEnd = s.txEnd := (rfl)
@[simp] theorem State.plan_pfcAt (s : State) (t : Nat) (k : DueK) : (s.plan t k).pfcAt = s.pfcAt := (rfl)
@[simp] theorem State.plan_fdbBusy (s : State) (t : Nat) (k : DueK) : (s.plan t k).fdbBusy = s.fdbBusy := (rfl)
@[simp] theorem State.plan_ageAt (s : State) (t : Nat) (k : DueK) : (s.plan t k).ageAt = s.ageAt := (rfl)
@[simp] theorem State.plan_gates (s : State) (t : Nat) (k : DueK) : (s.plan t k).gates = s.gates := (rfl)
@[simp] theorem State.plan_mtrs (s : State) (t : Nat) (k : DueK) : (s.plan t k).mtrs = s.mtrs := (rfl)
@[simp] theorem State.plan_recs (s : State) (t : Nat) (k : DueK) : (s.plan t k).recs = s.recs := (rfl)
@[simp] theorem State.plan_prp (s : State) (t : Nat) (k : DueK) : (s.plan t k).prp = s.prp := (rfl)
@[simp] theorem State.plan_mbxH (s : State) (t : Nat) (k : DueK) : (s.plan t k).mbxH = s.mbxH := (rfl)
@[simp] theorem State.plan_mbxX (s : State) (t : Nat) (k : DueK) : (s.plan t k).mbxX = s.mbxX := (rfl)
@[simp] theorem State.plan_ctxH (s : State) (t : Nat) (k : DueK) : (s.plan t k).ctxH = s.ctxH := (rfl)
@[simp] theorem State.plan_issueH (s : State) (t : Nat) (k : DueK) : (s.plan t k).issueH = s.issueH := (rfl)
@[simp] theorem State.plan_issueNo (s : State) (t : Nat) (k : DueK) : (s.plan t k).issueNo = s.issueNo := (rfl)
@[simp] theorem State.plan_stale (s : State) (t : Nat) (k : DueK) : (s.plan t k).stale = s.stale := (rfl)
@[simp] theorem State.plan_icache (s : State) (t : Nat) (k : DueK) : (s.plan t k).icache = s.icache := (rfl)
@[simp] theorem State.plan_dcache (s : State) (t : Nat) (k : DueK) : (s.plan t k).dcache = s.dcache := (rfl)
@[simp] theorem State.plan_fpr (s : State) (t : Nat) (k : DueK) : (s.plan t k).fpr = s.fpr := (rfl)
@[simp] theorem State.plan_peFrom (s : State) (t : Nat) (k : DueK) : (s.plan t k).peFrom = s.peFrom := (rfl)
@[simp] theorem State.plan_arbH (s : State) (t : Nat) (k : DueK) : (s.plan t k).arbH = s.arbH := (rfl)
@[simp] theorem State.plan_coldHeld (s : State) (t : Nat) (k : DueK) : (s.plan t k).coldHeld = s.coldHeld := (rfl)
@[simp] theorem State.plan_replay (s : State) (t : Nat) (k : DueK) : (s.plan t k).replay = s.replay := (rfl)
@[simp] theorem State.plan_hbH (s : State) (t : Nat) (k : DueK) : (s.plan t k).hbH = s.hbH := (rfl)
@[simp] theorem State.plan_slotH (s : State) (t : Nat) (k : DueK) : (s.plan t k).slotH = s.slotH := (rfl)
@[simp] theorem State.plan_survLatch (s : State) (t : Nat) (k : DueK) : (s.plan t k).survLatch = s.survLatch := (rfl)
@[simp] theorem State.plan_rtc (s : State) (t : Nat) (k : DueK) : (s.plan t k).rtc = s.rtc := (rfl)
@[simp] theorem State.plan_rtcFrom (s : State) (t : Nat) (k : DueK) : (s.plan t k).rtcFrom = s.rtcFrom := (rfl)
@[simp] theorem State.plan_rtcPre (s : State) (t : Nat) (k : DueK) : (s.plan t k).rtcPre = s.rtcPre := (rfl)
@[simp] theorem State.plan_rtcLen (s : State) (t : Nat) (k : DueK) : (s.plan t k).rtcLen = s.rtcLen := (rfl)
@[simp] theorem State.plan_rtcTrim (s : State) (t : Nat) (k : DueK) : (s.plan t k).rtcTrim = s.rtcTrim := (rfl)
@[simp] theorem State.plan_rtcLoad (s : State) (t : Nat) (k : DueK) : (s.plan t k).rtcLoad = s.rtcLoad := (rfl)
@[simp] theorem State.plan_seqH (s : State) (t : Nat) (k : DueK) : (s.plan t k).seqH = s.seqH := (rfl)
@[simp] theorem State.plan_ldrH (s : State) (t : Nat) (k : DueK) : (s.plan t k).ldrH = s.ldrH := (rfl)
@[simp] theorem State.plan_flash (s : State) (t : Nat) (k : DueK) : (s.plan t k).flash = s.flash := (rfl)
@[simp] theorem State.plan_fuses (s : State) (t : Nat) (k : DueK) : (s.plan t k).fuses = s.fuses := (rfl)
@[simp] theorem State.plan_ftRan (s : State) (t : Nat) (k : DueK) : (s.plan t k).ftRan = s.ftRan := (rfl)
@[simp] theorem State.plan_serCal (s : State) (t : Nat) (k : DueK) : (s.plan t k).serCal = s.serCal := (rfl)

end Sys2Proof.Machine
end

