-- ==== Sys2Proof/Laws/Store.lean ====
section
/-! SUPPORT. Laws of the sparse stores: what a read sees after a write, for every list, and that writes keep the canonical
form. -/

namespace Sys2Proof.Machine

variable {α : Type}

theorem smFind_smInsert_self (m : SMap α) (k : Nat) (v : α) : smFind (smInsert m k v) k = some v := by
  induction m with
  | nil => simp [smInsert, smFind]
  | cons e r ih =>
    obtain ⟨j, u⟩ := e
    simp only [smInsert]
    split_ifs with h1 h2 <;> simp_all [smFind]

theorem smFind_smInsert_ne (m : SMap α) {k k' : Nat} (v : α) (h : k' ≠ k) : smFind (smInsert m k v) k' = smFind m k' := by
  induction m with
  | nil => simp [smInsert, smFind, h]
  | cons e r ih =>
    obtain ⟨j, u⟩ := e
    simp only [smInsert]
    split_ifs with h1 h2
    · subst h1; simp [smFind, h]
    · simp only [smFind, if_neg h]
      by_cases h3 : k' < k
      · rw [if_pos h3, if_neg (by omega), if_pos (by omega)]
      · rw [if_neg h3]
    · simp only [smFind, ih]

theorem smFind_dropWhile_self (r : SMap α) (k : Nat) : smFind (r.dropWhile (fun e => decide (e.1 ≤ k))) k = none := by
  induction r with
  | nil => simp [smFind]
  | cons e r ih =>
    obtain ⟨j, u⟩ := e
    by_cases h : j ≤ k
    · simpa [List.dropWhile, h] using ih
    · simp only [List.dropWhile, decide_eq_false h, smFind]
      rw [if_neg (by omega), if_pos (by omega)]

theorem smFind_dropWhile_gt (r : SMap α) {k k' : Nat} (h : k < k') :
    smFind (r.dropWhile (fun e => decide (e.1 ≤ k))) k' = smFind r k' := by
  induction r with
  | nil => simp
  | cons e r ih =>
    obtain ⟨j, u⟩ := e
    by_cases h1 : j ≤ k
    · simp only [List.dropWhile, decide_eq_true h1, ih, smFind]
      rw [if_neg (by omega), if_neg (by omega)]
    · simp only [List.dropWhile, decide_eq_false h1]

theorem smFind_dropWhile_lt (r : SMap α) {k k' : Nat} (h : k' < k) :
    smFind (r.dropWhile (fun e => decide (e.1 ≤ k))) k' = none := by
  induction r with
  | nil => simp [smFind]
  | cons e r ih =>
    obtain ⟨j, u⟩ := e
    by_cases h1 : j ≤ k
    · simpa [List.dropWhile, h1] using ih
    · simp only [List.dropWhile, decide_eq_false h1, smFind]
      rw [if_neg (by omega), if_pos (by omega)]

theorem smFind_smErase_self (m : SMap α) (k : Nat) : smFind (smErase m k) k = none := by
  induction m with
  | nil => simp [smErase, smFind]
  | cons e r ih =>
    obtain ⟨j, u⟩ := e
    simp only [smErase]
    split_ifs with h1 h2
    · exact smFind_dropWhile_self r k
    · simp only [smFind, if_neg h1, if_pos h2]
    · simp only [smFind, if_neg h1, if_neg h2, ih]

theorem smFind_smErase_ne (m : SMap α) {k k' : Nat} (h : k' ≠ k) : smFind (smErase m k) k' = smFind m k' := by
  induction m with
  | nil => simp [smErase]
  | cons e r ih =>
    obtain ⟨j, u⟩ := e
    simp only [smErase]
    split_ifs with h1 h2
    · subst h1
      simp only [smFind, if_neg h]
      by_cases h3 : k' < k
      · rw [smFind_dropWhile_lt r h3, if_pos h3]
      · rw [smFind_dropWhile_gt r (by omega), if_neg h3]
    · rfl
    · simp only [smFind, ih]

theorem smErase_sublist (m : SMap α) (k : Nat) : (smErase m k).Sublist m := by
  induction m with
  | nil => simp [smErase]
  | cons e r ih =>
    obtain ⟨j, u⟩ := e
    simp only [smErase]
    split_ifs
    · exact (List.dropWhile_sublist _).cons _
    · exact List.Sublist.refl _
    · exact ih.cons_cons _

theorem mem_smInsert (m : SMap α) (k : Nat) (v : α) (e : Nat × α) (h : e ∈ smInsert m k v) : e = (k, v) ∨ e ∈ m := by
  induction m with
  | nil => simpa [smInsert] using h
  | cons f r ih =>
    obtain ⟨j, u⟩ := f
    simp only [smInsert] at h
    split_ifs at h with h1 h2
    · rcases List.mem_cons.1 h with h | h
      · exact .inl h
      · exact .inr (List.mem_cons_of_mem _ h)
    · rcases List.mem_cons.1 h with h | h
      · exact .inl h
      · exact .inr h
    · rcases List.mem_cons.1 h with h | h
      · exact .inr (h ▸ List.mem_cons_self)
      · rcases ih h with h | h
        · exact .inl h
        · exact .inr (List.mem_cons_of_mem _ h)

variable [DecidableEq α]

/-- A read of the key written gives the value. -/
@[simp] theorem smGet_smSet_self (d : α) (m : SMap α) (k : Nat) (v : α) : smGet d (smSet d m k v) k = v := by
  unfold smGet smSet
  split_ifs with h
  · simp [smFind_smErase_self, h]
  · simp [smFind_smInsert_self]

/-- A read of any other key gives what it gave. -/
theorem smGet_smSet_ne (d d' : α) (m : SMap α) {k k' : Nat} (v : α) (h : k' ≠ k) :
    smGet d' (smSet d m k v) k' = smGet d' m k' := by
  unfold smGet smSet
  split_ifs
  · rw [smFind_smErase_ne m h]
  · rw [smFind_smInsert_ne m v h]

/-! ## The canonical form -/

/-- The canonical form as a proposition: keys rise strictly and no entry equals its default. -/
theorem smWf_iff (d : Nat → α) (m : SMap α) :
    smWf d m = true ↔ m.Pairwise (fun a b => a.1 < b.1) ∧ ∀ e ∈ m, e.2 ≠ d e.1 := by
  have rise : ∀ m : SMap α, smRising m = true ↔ m.Pairwise (fun a b => a.1 < b.1) := by
    intro m
    induction m with
    | nil => simp [smRising]
    | cons e r ih =>
      obtain ⟨j, u⟩ := e
      cases r with
      | nil => simp [smRising]
      | cons f r =>
        obtain ⟨k, v⟩ := f
        rw [smRising, Bool.and_eq_true, ih, decide_eq_true_eq, List.pairwise_cons (a := (j, u))]
        constructor
        · rintro ⟨h, hp⟩
          refine ⟨?_, hp⟩
          intro e he
          rcases List.mem_cons.1 he with rfl | he
          · exact h
          · exact lt_trans h ((List.pairwise_cons.1 hp).1 e he)
        · rintro ⟨h, hp⟩
          exact ⟨h _ List.mem_cons_self, hp⟩
  simp [smWf, rise]

/-- A filter keeps the canonical form. -/
theorem smWf_filter (d : Nat → α) (m : SMap α) (p : Nat × α → Bool) (h : smWf d m = true) : smWf d (m.filter p) = true := by
  rw [smWf_iff] at h ⊢
  exact ⟨h.1.sublist List.filter_sublist, fun e he => h.2 e (List.mem_of_mem_filter he)⟩

/-- A write keeps the canonical form: writing the default removes the entry. -/
theorem smWf_smSet (d : Nat → α) (m : SMap α) (k : Nat) (v : α) (h : smWf d m = true) : smWf d (smSet (d k) m k v) = true := by
  rw [smWf_iff] at h ⊢
  unfold smSet
  split_ifs with hv
  · exact ⟨h.1.sublist (smErase_sublist m k), fun e he => h.2 e ((smErase_sublist m k).subset he)⟩
  · refine ⟨?_, ?_⟩
    · have hp := h.1
      clear h
      induction m with
      | nil => simp [smInsert]
      | cons f r ih =>
        obtain ⟨j, u⟩ := f
        rw [List.pairwise_cons] at hp
        simp only [smInsert]
        split_ifs with h1 h2
        · subst h1
          exact List.pairwise_cons.2 hp
        · refine List.pairwise_cons.2 ⟨?_, List.pairwise_cons.2 hp⟩
          intro e he
          rcases List.mem_cons.1 he with rfl | he
          · exact h2
          · exact lt_trans h2 (hp.1 e he)
        · refine List.pairwise_cons.2 ⟨?_, ih hp.2⟩
          intro e he
          rcases mem_smInsert r k v e he with rfl | he
          · simp; omega
          · exact hp.1 e he
    · intro e he
      rcases mem_smInsert m k v e he with rfl | he
      · exact hv
      · exact h.2 e he

end Sys2Proof.Machine
end

