-- ==== Sys2Proof/Laws/Ops.lean ====
section
/-! SUPPORT. Laws of the named operations: bit fields, registers, hidden state, bytes of memory. -/

namespace Sys2Proof.Machine

/-! ## Bit fields -/

theorem fld_lt (w : Word) (hi lo : Nat) : fld w hi lo < 2 ^ (hi + 1 - lo) := Nat.mod_lt _ (by positivity)

/-- The number a word with a field set is, where the field lies in the word. -/
theorem setFld_toNat (w : Word) (hi lo v : Nat) (h : lo ≤ hi) (h32 : hi < 32) :
    (setFld w hi lo v).toNat = w.toNat / 2 ^ (hi + 1) * 2 ^ (hi + 1) + v % 2 ^ (hi + 1 - lo) * 2 ^ lo + w.toNat % 2 ^ lo := by
  unfold setFld
  rw [BitVec.toNat_ofNat]
  apply Nat.mod_eq_of_lt
  have e : 2 ^ (hi + 1) = 2 ^ (hi + 1 - lo) * 2 ^ lo := by rw [← pow_add]; congr 1; omega
  have e32 : 2 ^ 32 = 2 ^ (31 - hi) * 2 ^ (hi + 1) := by rw [← pow_add]; congr 1; omega
  have h1 : v % 2 ^ (hi + 1 - lo) + 1 ≤ 2 ^ (hi + 1 - lo) := Nat.mod_lt _ (by positivity)
  have h2 : w.toNat % 2 ^ lo < 2 ^ lo := Nat.mod_lt _ (by positivity)
  have h3 : w.toNat / 2 ^ (hi + 1) + 1 ≤ 2 ^ (31 - hi) := by
    have := w.isLt
    rw [e32] at this
    exact Nat.div_lt_of_lt_mul (by rwa [mul_comm] at this)
  have h4 : v % 2 ^ (hi + 1 - lo) * 2 ^ lo + w.toNat % 2 ^ lo < 2 ^ (hi + 1) := by
    rw [e]
    calc _ < v % 2 ^ (hi + 1 - lo) * 2 ^ lo + 2 ^ lo := by omega
      _ = (v % 2 ^ (hi + 1 - lo) + 1) * 2 ^ lo := by ring
      _ ≤ _ := Nat.mul_le_mul_right _ h1
  calc _ < w.toNat / 2 ^ (hi + 1) * 2 ^ (hi + 1) + 2 ^ (hi + 1) := by omega
    _ = (w.toNat / 2 ^ (hi + 1) + 1) * 2 ^ (hi + 1) := by ring
    _ ≤ 2 ^ (31 - hi) * 2 ^ (hi + 1) := Nat.mul_le_mul_right _ h3
    _ = 2 ^ 32 := e32.symm

/-- A field reads what was set in it. -/
theorem fld_setFld_self (w : Word) (hi lo v : Nat) (h : lo ≤ hi) (h32 : hi < 32) :
    fld (setFld w hi lo v) hi lo = v % 2 ^ (hi + 1 - lo) := by
  unfold fld
  rw [setFld_toNat w hi lo v h h32]
  have e : 2 ^ (hi + 1) = 2 ^ (hi + 1 - lo) * 2 ^ lo := by rw [← pow_add]; congr 1; omega
  have h2 : w.toNat % 2 ^ lo < 2 ^ lo := Nat.mod_lt _ (by positivity)
  rw [e, show w.toNat / (2 ^ (hi + 1 - lo) * 2 ^ lo) * (2 ^ (hi + 1 - lo) * 2 ^ lo) + v % 2 ^ (hi + 1 - lo) * 2 ^ lo +
      w.toNat % 2 ^ lo = w.toNat % 2 ^ lo + (w.toNat / (2 ^ (hi + 1 - lo) * 2 ^ lo) * 2 ^ (hi + 1 - lo) +
      v % 2 ^ (hi + 1 - lo)) * 2 ^ lo by ring, Nat.add_mul_div_right _ _ (by positivity), Nat.div_eq_of_lt h2, zero_add,
    Nat.mul_add_mod_self_right, Nat.mod_mod]

/-- A field above the one set stays. -/
theorem fld_setFld_above (w : Word) (hi lo v hi' lo' : Nat) (h : lo ≤ hi) (h32 : hi < 32) (hd : hi < lo') :
    fld (setFld w hi lo v) hi' lo' = fld w hi' lo' := by
  unfold fld
  rw [setFld_toNat w hi lo v h h32]
  have e : 2 ^ (hi + 1) = 2 ^ (hi + 1 - lo) * 2 ^ lo := by rw [← pow_add]; congr 1; omega
  have e' : 2 ^ lo' = 2 ^ (hi + 1) * 2 ^ (lo' - (hi + 1)) := by rw [← pow_add]; congr 1; omega
  have h1 : v % 2 ^ (hi + 1 - lo) + 1 ≤ 2 ^ (hi + 1 - lo) := Nat.mod_lt _ (by positivity)
  have h2 : w.toNat % 2 ^ lo < 2 ^ lo := Nat.mod_lt _ (by positivity)
  have h4 : v % 2 ^ (hi + 1 - lo) * 2 ^ lo + w.toNat % 2 ^ lo < 2 ^ (hi + 1) := by
    rw [e]
    calc _ < v % 2 ^ (hi + 1 - lo) * 2 ^ lo + 2 ^ lo := by omega
      _ = (v % 2 ^ (hi + 1 - lo) + 1) * 2 ^ lo := by ring
      _ ≤ _ := Nat.mul_le_mul_right _ h1
  have q : (w.toNat / 2 ^ (hi + 1) * 2 ^ (hi + 1) + v % 2 ^ (hi + 1 - lo) * 2 ^ lo + w.toNat % 2 ^ lo) / 2 ^ (hi + 1) =
      w.toNat / 2 ^ (hi + 1) := by
    rw [show w.toNat / 2 ^ (hi + 1) * 2 ^ (hi + 1) + v % 2 ^ (hi + 1 - lo) * 2 ^ lo + w.toNat % 2 ^ lo =
      (v % 2 ^ (hi + 1 - lo) * 2 ^ lo + w.toNat % 2 ^ lo) + w.toNat / 2 ^ (hi + 1) * 2 ^ (hi + 1) by ring,
      Nat.add_mul_div_right _ _ (by positivity), Nat.div_eq_of_lt h4, zero_add]
  rw [e', ← Nat.div_div_eq_div_mul, ← Nat.div_div_eq_div_mul, q]

/-- A field below the one set stays. -/
theorem fld_setFld_below (w : Word) (hi lo v hi' lo' : Nat) (h : lo ≤ hi) (h32 : hi < 32) (hd : hi' < lo) (hl : lo' ≤ hi') :
    fld (setFld w hi lo v) hi' lo' = fld w hi' lo' := by
  unfold fld
  rw [setFld_toNat w hi lo v h h32]
  have key : ∀ x y : Nat, x % 2 ^ lo = y % 2 ^ lo → x / 2 ^ lo' % 2 ^ (hi' + 1 - lo') = y / 2 ^ lo' % 2 ^ (hi' + 1 - lo') := by
    intro x y hxy
    have cut : ∀ z : Nat, z / 2 ^ lo' % 2 ^ (hi' + 1 - lo') = z % 2 ^ lo % 2 ^ (hi' + 1) / 2 ^ lo' := by
      intro z
      rw [Nat.mod_mod_of_dvd _ (pow_dvd_pow 2 (by omega)), show hi' + 1 = lo' + (hi' + 1 - lo') by omega, pow_add,
        Nat.mod_mul_right_div_self]
      congr 2; omega
    rw [cut, cut, hxy]
  apply key
  have e : 2 ^ (hi + 1) = 2 ^ (hi + 1 - lo) * 2 ^ lo := by rw [← pow_add]; congr 1; omega
  rw [e, show w.toNat / (2 ^ (hi + 1 - lo) * 2 ^ lo) * (2 ^ (hi + 1 - lo) * 2 ^ lo) + v % 2 ^ (hi + 1 - lo) * 2 ^ lo +
      w.toNat % 2 ^ lo = w.toNat % 2 ^ lo + 2 ^ lo * (w.toNat / (2 ^ (hi + 1 - lo) * 2 ^ lo) * 2 ^ (hi + 1 - lo) +
      v % 2 ^ (hi + 1 - lo)) by ring, Nat.add_mul_mod_self_left, Nat.mod_mod]

/-- A bit reads what was put in it. -/
theorem bitAt_putBit_self (w : Word) (i : Nat) (b : Bool) (h : i < 32) : bitAt (putBit w i b) i = b := by
  have := fld_setFld_self w i i b.toNat le_rfl h
  simp only [fld, show i + 1 - i = 1 by omega, pow_one] at this
  unfold bitAt putBit
  rw [this]
  cases b <;> rfl

/-- Another bit stays. -/
theorem bitAt_putBit_ne (w : Word) (i j : Nat) (b : Bool) (h : i < 32) (hj : j ≠ i) : bitAt (putBit w i b) j = bitAt w j := by
  have : fld (setFld w i i b.toNat) j j = fld w j j := by
    rcases lt_or_gt_of_ne hj with h1 | h1
    · exact fld_setFld_below w i i _ j j le_rfl h h1 le_rfl
    · exact fld_setFld_above w i i _ j j le_rfl h h1
  simp only [fld, show j + 1 - j = 1 by omega, pow_one] at this
  simp only [bitAt, putBit, this]

/-! ## Registers -/

@[simp] theorem rd_wr_self (s : State) (a : Nat) (v : Word) : (s.wr a v).rd a = v := by simp [State.rd, State.wr]

theorem rd_wr_ne (s : State) {a b : Nat} (v : Word) (h : b ≠ a) : (s.wr a v).rd b = s.rd b := by
  simp only [State.rd, State.wr]; exact smGet_smSet_ne _ _ _ _ h

@[simp] theorem rd_mwr (s : State) (m a b : Nat) (v : Word) : (s.mwr m a v).rd b = s.rd b := (rfl)
@[simp] theorem rd_setByte (s : State) (a b : Nat) (v : Byte) : (s.setByte a v).rd b = s.rd b := (rfl)
@[simp] theorem rd_setCell (s : State) (c b : Nat) (h : CellH) : (s.setCell c h).rd b = s.rd b := (rfl)
@[simp] theorem rd_setCtx (s : State) (k b : Nat) (h : CtxH) : (s.setCtx k h).rd b = s.rd b := (rfl)
@[simp] theorem rd_setHx (s : State) (n b : Nat) (h : HxH) : (s.setHx n h).rd b = s.rd b := (rfl)
@[simp] theorem rd_emit (s : State) (o : Out) (b : Nat) : (s.emit o).rd b = s.rd b := (rfl)

theorem rd_setFl_ne (s : State) {a b : Nat} (hi lo v : Nat) (h : b ≠ a) : (s.setFl a hi lo v).rd b = s.rd b := rd_wr_ne s _ h
theorem rd_setBt_ne (s : State) {a b : Nat} (i : Nat) (v : Bool) (h : b ≠ a) : (s.setBt a i v).rd b = s.rd b := rd_wr_ne s _ h
theorem rd_raise_ne (s : State) {a b : Nat} (m : Word) (h : b ≠ a) : (s.raise a m).rd b = s.rd b := rd_wr_ne s _ h
theorem rd_satInc_ne (s : State) {a b : Nat} (hi lo n : Nat) (h : b ≠ a) : (s.satInc a hi lo n).rd b = s.rd b := rd_wr_ne s _ h
theorem rd_wrapInc_ne (s : State) {a b : Nat} (hi lo n : Nat) (h : b ≠ a) : (s.wrapInc a hi lo n).rd b = s.rd b := rd_wr_ne s _ h

theorem fl_setFl_self (s : State) (a hi lo v : Nat) (h : lo ≤ hi) (h32 : hi < 32) :
    (s.setFl a hi lo v).fl a hi lo = v % 2 ^ (hi + 1 - lo) := by
  simp only [State.fl, State.setFl, rd_wr_self]; exact fld_setFld_self _ _ _ _ h h32

theorem bt_setBt_self (s : State) (a i : Nat) (b : Bool) (h : i < 32) : (s.setBt a i b).bt a i = b := by
  simp only [State.bt, State.setBt, rd_wr_self]; exact bitAt_putBit_self _ _ _ h

theorem bt_setBt_ne (s : State) (a i j : Nat) (b : Bool) (h : i < 32) (hj : j ≠ i) : (s.setBt a i b).bt a j = s.bt a j := by
  simp only [State.bt, State.setBt, rd_wr_self]; exact bitAt_putBit_ne _ _ _ _ h hj

/-! ## Hidden state -/

@[simp] theorem cell_setCell_self (s : State) (c : Nat) (h : CellH) : (s.setCell c h).cell c = h := by
  simp [State.cell, State.setCell]
theorem cell_setCell_ne (s : State) {c d : Nat} (h : CellH) (hd : d ≠ c) : (s.setCell c h).cell d = s.cell d := by
  simp only [State.cell, State.setCell]; exact smGet_smSet_ne _ _ _ _ hd
@[simp] theorem ctx_setCtx_self (s : State) (k : Nat) (h : CtxH) : (s.setCtx k h).ctx k = h := by
  simp [State.ctx, State.setCtx]
theorem ctx_setCtx_ne (s : State) {k l : Nat} (h : CtxH) (hl : l ≠ k) : (s.setCtx k h).ctx l = s.ctx l := by
  simp only [State.ctx, State.setCtx]; exact smGet_smSet_ne _ _ _ _ hl
@[simp] theorem hx_setHx_self (s : State) (n : Nat) (h : HxH) : (s.setHx n h).hx n = h := by simp [State.hx, State.setHx]
theorem hx_setHx_ne (s : State) {n m : Nat} (h : HxH) (hm : m ≠ n) : (s.setHx n h).hx m = s.hx m := by
  simp only [State.hx, State.setHx]; exact smGet_smSet_ne _ _ _ _ hm
@[simp] theorem ctx_wr (s : State) (a k : Nat) (v : Word) : (s.wr a v).ctx k = s.ctx k := (rfl)
@[simp] theorem cell_wr (s : State) (a c : Nat) (v : Word) : (s.wr a v).cell c = s.cell c := (rfl)
@[simp] theorem hx_wr (s : State) (a n : Nat) (v : Word) : (s.wr a v).hx n = s.hx n := (rfl)

/-! ## Bytes of memory -/

@[simp] theorem byte_setByte_self (s : State) (a : Nat) (v : Byte) : (s.setByte a v).byte a = v := by
  simp [State.byte, State.setByte]
theorem byte_setByte_ne (s : State) {a b : Nat} (v : Byte) (h : b ≠ a) : (s.setByte a v).byte b = s.byte b := by
  simp only [State.byte, State.setByte]; exact smGet_smSet_ne _ _ _ _ h
@[simp] theorem byte_wr (s : State) (a b : Nat) (v : Word) : (s.wr a v).byte b = s.byte b := (rfl)

/-- Writing bytes leaves every byte outside them. -/
theorem byte_setBytes_out (l : List Byte) (s : State) (a b : Nat) (h : b < a ∨ a + l.length ≤ b) :
    (s.setBytes a l).byte b = s.byte b := by
  induction l generalizing s a with
  | nil => rfl
  | cons x r ih =>
    simp only [List.length_cons] at h
    rw [State.setBytes, ih _ _ (by omega), byte_setByte_ne _ _ (by omega)]

/-- Byte `i` of the bytes written. -/
theorem byte_setBytes_in (l : List Byte) (s : State) (a i : Nat) (h : i < l.length) :
    (s.setBytes a l).byte (a + i) = l[i] := by
  induction l generalizing s a i with
  | nil => simp at h
  | cons x r ih =>
    rw [State.setBytes]
    cases i with
    | zero =>
      rw [byte_setBytes_out _ _ _ _ (by omega)]
      simp
    | succ i =>
      rw [show a + (i + 1) = a + 1 + i by omega, ih _ _ _ (by simpa using h)]
      rfl

theorem setBytes_regs (l : List Byte) (s : State) (a : Nat) : (s.setBytes a l).regs = s.regs := by
  induction l generalizing s a with
  | nil => rfl
  | cons x r ih => rw [State.setBytes, ih]; rfl

end Sys2Proof.Machine
end

