-- ==== Sys2Proof/Laws/Close.lean ====
section
/-! SUPPORT. The end of a command: what it changes and what it establishes. -/

namespace Sys2Proof.Machine

/-- `t` is `s` but for what the end of a command may change. -/
structure CloseSame (s t : State) : Prop where
  eq : t = { s with regs := t.regs, out := t.out, hxH := t.hxH, msix := t.msix, undef := t.undef, mem := t.mem, ecc := t.ecc }
  rd : ∀ a, closeTouches a = false → t.rd a = s.rd a

theorem CloseSame.refl (s : State) : CloseSame s s := ⟨rfl, fun _ _ => rfl⟩

theorem CloseSame.trans {s t u : State} (h : CloseSame s t) (k : CloseSame t u) : CloseSame s u := by
  refine ⟨?_, fun a ha => (k.rd a ha).trans (h.rd a ha)⟩
  rw [k.eq, h.eq]

theorem CloseSame.wr (s : State) (a : Nat) (v : Word) (h : closeTouches a = true) : CloseSame s (s.wr a v) := by
  refine ⟨rfl, fun b hb => rd_wr_ne s v ?_⟩
  rintro rfl
  rw [h] at hb
  exact absurd hb (by decide)

theorem CloseSame.foldl {β : Type} (f : State → β → State) (l : List β) (hf : ∀ s, ∀ b ∈ l, CloseSame s (f s b)) (s : State) :
    CloseSame s (l.foldl f s) := by
  induction l generalizing s with
  | nil => exact .refl s
  | cons b l ih =>
    exact (hf s b (by simp)).trans (ih (fun s c hc => hf s c (by simp [hc])) _)

theorem closeTouches_hx (n : Nat) (h : n < 32) : closeTouches (HX_IRQSTAT n) = true ∧ closeTouches (HX_DTXCTL n) = true := by
  simp only [closeTouches, HX_IRQSTAT, HX_DTXCTL, Bool.or_eq_true, Bool.and_eq_true, decide_eq_true_eq, beq_iff_eq]
  constructor <;> (left; left; left; omega)

/-- A bound cell is a cell. -/
theorem boundCells_lt (s : State) (p n c : Nat) (h : c ∈ boundCells s p n) : c < 256 := by
  simp only [boundCells, State.listed, List.mem_map, List.mem_filter, Bool.and_eq_true, decide_eq_true_eq, beq_iff_eq] at h
  obtain ⟨e, ⟨⟨_, ⟨h1, h2⟩, h3⟩, _⟩, rfl⟩ := h
  omega

theorem foldl_min_mem (l : List Nat) (c : Nat) : l.foldl min c = c ∨ l.foldl min c ∈ l := by
  induction l generalizing c with
  | nil => exact .inl rfl
  | cons x l ih =>
    simp only [List.foldl_cons, List.mem_cons]
    rcases ih (min c x) with h | h
    · rcases min_choice c x with h' | h' <;> rw [h, h']
      · exact .inl rfl
      · exact .inr (.inl rfl)
    · exact .inr (.inr h)

theorem hxDataCell_lt (s : State) (n c : Nat) (h : hxDataCell s n = some c) : c < 256 := by
  simp only [hxDataCell] at h
  split at h
  · cases h
  · rename_i d r hb
    have hm : ∀ x ∈ d :: r, x < 256 := fun x hx => boundCells_lt s 2 n x (hb ▸ hx)
    cases h
    rcases foldl_min_mem r d with e | e
    · rw [e]; exact hm d (by simp)
    · exact hm _ (by simp [e])

theorem closeTouches_cell (c : Nat) (h : c < 256) :
    closeTouches (CELL_TSA_SEC c) = true ∧ closeTouches (CELL_TSB_SEC c) = true := by
  simp only [closeTouches, CELL_TSA_SEC, CELL_TSB_SEC, Bool.or_eq_true, Bool.and_eq_true, decide_eq_true_eq, beq_iff_eq]
  constructor <;> (left; left; right; omega)

theorem CloseSame.clearCaptures (s : State) (c : Nat) (h : c < 256) : CloseSame s (clearCaptures s c) :=
  (CloseSame.wr _ _ _ (closeTouches_cell c h).1).trans (CloseSame.wr _ _ _ (closeTouches_cell c h).2)

theorem CloseSame.setHx (s : State) (n : Nat) (h : HxH) : CloseSame s (s.setHx n h) := ⟨rfl, fun _ _ => rfl⟩
theorem CloseSame.emit (s : State) (o : Out) : CloseSame s (s.emit o) := ⟨rfl, fun _ _ => rfl⟩

theorem CloseSame.hxTsClear (s : State) (n : Nat) : CloseSame s (hxTsClear s n) := by
  unfold Sys2Proof.Machine.hxTsClear
  split
  · exact .refl s
  · rename_i c hc
    exact .clearCaptures s c (hxDataCell_lt s n c hc)

theorem CloseSame.hxSent (s : State) (n : Nat) (x : HxTx) (h : n < 32) : CloseSame s (hxSent s n x) := by
  unfold Sys2Proof.Machine.hxSent
  have h0 := ((CloseSame.emit s (.hx n x.data)).trans (.hxTsClear _ n)).trans
    (.setHx _ n { ((Machine.hxTsClear (s.emit (.hx n x.data)) n).hx n) with tx := none, idleFrom := x.endAt })
  dsimp only
  split_ifs
  · exact h0.trans (.setHx _ _ _)
  · exact h0.trans (.setHx _ _ _)
  · exact h0
  · exact (h0.trans (.wr _ _ _ (closeTouches_hx n h).2)).trans (.wr _ _ _ (closeTouches_hx n h).1)
  · exact h0

theorem CloseSame.hxComplete (s : State) : CloseSame s (hxComplete s) := by
  refine CloseSame.foldl _ _ ?_ s
  intro s n hn
  have hn : n < 32 := by simpa using hn
  unfold hxEndOne
  split
  · split_ifs
    · exact .hxSent s n _ hn
    · exact .refl s
  · exact .refl s

theorem CloseSame.undefine (s : State) (lo hi : Nat) : CloseSame s (s.undefine lo hi) := ⟨rfl, fun _ _ => rfl⟩

theorem CloseSame.ftCheck (s : State) : CloseSame s (ftCheck s) := by
  unfold Sys2Proof.Machine.ftCheck
  split_ifs
  · refine (CloseSame.foldl (fun (s : State) (r : Nat × Nat) => s.undefine r.1 r.2) (ftRanges s)
      (fun s r _ => .undefine s r.1 r.2) s).trans ?_
    exact (CloseSame.wr _ _ _ (by decide)).trans (.wr _ _ _ (by decide))
  · exact .refl s

theorem CloseSame.settle (s : State) : CloseSame s (settle s) := by
  unfold Sys2Proof.Machine.settle
  split_ifs
  · exact ⟨rfl, fun _ _ => rfl⟩
  · exact ⟨rfl, fun _ _ => rfl⟩

/-- Everything the end of a command may change. -/
theorem CloseSame.close (s : State) : CloseSame s (close s) :=
  ((CloseSame.hxComplete s).trans (.ftCheck _)).trans (.settle _)

/-- A register the end of a command does not touch. -/
theorem close_rd (s : State) {a : Nat} (h : closeTouches a = false) : (close s).rd a = s.rd a := (CloseSame.close s).rd a h

theorem close_fl (s : State) {a : Nat} (hi lo : Nat) (h : closeTouches a = false) : (close s).fl a hi lo = s.fl a hi lo := by
  simp only [State.fl, close_rd s h]

theorem close_bt (s : State) {a : Nat} (i : Nat) (h : closeTouches a = false) : (close s).bt a i = s.bt a i := by
  simp only [State.bt, close_rd s h]

@[simp] theorem close_pending (s : State) : (close s).pending = s.pending := by rw [(CloseSame.close s).eq]
@[simp] theorem close_freeCtr (s : State) : (close s).freeCtr = s.freeCtr := by rw [(CloseSame.close s).eq]
@[simp] theorem close_upsets (s : State) : (close s).upsets = s.upsets := by rw [(CloseSame.close s).eq]
@[simp] theorem close_cycles (s : State) : (close s).cycles = s.cycles := by rw [(CloseSame.close s).eq]
@[simp] theorem close_resp (s : State) : (close s).resp = s.resp := by rw [(CloseSame.close s).eq]
@[simp] theorem close_mregs (s : State) : (close s).mregs = s.mregs := by rw [(CloseSame.close s).eq]
@[simp] theorem close_rwoDone (s : State) : (close s).rwoDone = s.rwoDone := by rw [(CloseSame.close s).eq]
@[simp] theorem close_fifo (s : State) : (close s).fifo = s.fifo := by rw [(CloseSame.close s).eq]
@[simp] theorem close_cellH (s : State) : (close s).cellH = s.cellH := by rw [(CloseSame.close s).eq]
@[simp] theorem close_agenda (s : State) : (close s).agenda = s.agenda := by rw [(CloseSame.close s).eq]
@[simp] theorem close_gridFrom (s : State) : (close s).gridFrom = s.gridFrom := by rw [(CloseSame.close s).eq]
@[simp] theorem close_clk0 (s : State) : (close s).clk0 = s.clk0 := by rw [(CloseSame.close s).eq]
@[simp] theorem close_evfWas (s : State) : (close s).evfWas = s.evfWas := by rw [(CloseSame.close s).eq]
@[simp] theorem close_dmaH (s : State) : (close s).dmaH = s.dmaH := by rw [(CloseSame.close s).eq]
@[simp] theorem close_dmaLast (s : State) : (close s).dmaLast = s.dmaLast := by rw [(CloseSame.close s).eq]
@[simp] theorem close_dmaAt (s : State) : (close s).dmaAt = s.dmaAt := by rw [(CloseSame.close s).eq]
@[simp] theorem close_shdH (s : State) : (close s).shdH = s.shdH := by rw [(CloseSame.close s).eq]
@[simp] theorem close_tbs (s : State) : (close s).tbs = s.tbs := by rw [(CloseSame.close s).eq]
@[simp] theorem close_elog (s : State) : (close s).elog = s.elog := by rw [(CloseSame.close s).eq]
@[simp] theorem close_srcs (s : State) : (close s).srcs = s.srcs := by rw [(CloseSame.close s).eq]
@[simp] theorem close_ldrHold (s : State) : (close s).ldrHold = s.ldrHold := by rw [(CloseSame.close s).eq]
@[simp] theorem close_pulseSrc (s : State) : (close s).pulseSrc = s.pulseSrc := by rw [(CloseSame.close s).eq]
@[simp] theorem close_wdrst (s : State) : (close s).wdrst = s.wdrst := by rw [(CloseSame.close s).eq]
@[simp] theorem close_pdoff (s : State) : (close s).pdoff = s.pdoff := by rw [(CloseSame.close s).eq]
@[simp] theorem close_bankuv (s : State) : (close s).bankuv = s.bankuv := by rw [(CloseSame.close s).eq]
@[simp] theorem close_holdSafe (s : State) : (close s).holdSafe = s.holdSafe := by rw [(CloseSame.close s).eq]
@[simp] theorem close_pllSafe (s : State) : (close s).pllSafe = s.pllSafe := by rw [(CloseSame.close s).eq]
@[simp] theorem close_keep (s : State) : (close s).keep = s.keep := by rw [(CloseSame.close s).eq]
@[simp] theorem close_canRx (s : State) : (close s).canRx = s.canRx := by rw [(CloseSame.close s).eq]
@[simp] theorem close_canStopping (s : State) : (close s).canStopping = s.canStopping := by rw [(CloseSame.close s).eq]
@[simp] theorem close_canSof (s : State) : (close s).canSof = s.canSof := by rw [(CloseSame.close s).eq]
@[simp] theorem close_canAborting (s : State) : (close s).canAborting = s.canAborting := by rw [(CloseSame.close s).eq]
@[simp] theorem close_tsq (s : State) : (close s).tsq = s.tsq := by rw [(CloseSame.close s).eq]
@[simp] theorem close_pps (s : State) : (close s).pps = s.pps := by rw [(CloseSame.close s).eq]
@[simp] theorem close_adcH (s : State) : (close s).adcH = s.adcH := by rw [(CloseSame.close s).eq]
@[simp] theorem close_img (s : State) : (close s).img = s.img := by rw [(CloseSame.close s).eq]
@[simp] theorem close_imgE (s : State) : (close s).imgE = s.imgE := by rw [(CloseSame.close s).eq]
@[simp] theorem close_imgAt (s : State) : (close s).imgAt = s.imgAt := by rw [(CloseSame.close s).eq]
@[simp] theorem close_xlist (s : State) : (close s).xlist = s.xlist := by rw [(CloseSame.close s).eq]
@[simp] theorem close_subs (s : State) : (close s).subs = s.subs := by rw [(CloseSame.close s).eq]
@[simp] theorem close_maps (s : State) : (close s).maps = s.maps := by rw [(CloseSame.close s).eq]
@[simp] theorem close_xpend (s : State) : (close s).xpend = s.xpend := by rw [(CloseSame.close s).eq]
@[simp] theorem close_missDue (s : State) : (close s).missDue = s.missDue := by rw [(CloseSame.close s).eq]
@[simp] theorem close_wtsSet (s : State) : (close s).wtsSet = s.wtsSet := by rw [(CloseSame.close s).eq]
@[simp] theorem close_fdb (s : State) : (close s).fdb = s.fdb := by rw [(CloseSame.close s).eq]
@[simp] theorem close_swq (s : State) : (close s).swq = s.swq := by rw [(CloseSame.close s).eq]
@[simp] theorem close_swAvg (s : State) : (close s).swAvg = s.swAvg := by rw [(CloseSame.close s).eq]
@[simp] theorem close_headAt (s : State) : (close s).headAt = s.headAt := by rw [(CloseSame.close s).eq]
@[simp] theorem close_swHold (s : State) : (close s).swHold = s.swHold := by rw [(CloseSame.close s).eq]
@[simp] theorem close_swPause (s : State) : (close s).swPause = s.swPause := by rw [(CloseSame.close s).eq]
@[simp] theorem close_txEnd (s : State) : (close s).txEnd = s.txEnd := by rw [(CloseSame.close s).eq]
@[simp] theorem close_pfcAt (s : State) : (close s).pfcAt = s.pfcAt := by rw [(CloseSame.close s).eq]
@[simp] theorem close_fdbBusy (s : State) : (close s).fdbBusy = s.fdbBusy := by rw [(CloseSame.close s).eq]
@[simp] theorem close_ageAt (s : State) : (close s).ageAt = s.ageAt := by rw [(CloseSame.close s).eq]
@[simp] theorem close_gates (s : State) : (close s).gates = s.gates := by rw [(CloseSame.close s).eq]
@[simp] theorem close_mtrs (s : State) : (close s).mtrs = s.mtrs := by rw [(CloseSame.close s).eq]
@[simp] theorem close_recs (s : State) : (close s).recs = s.recs := by rw [(CloseSame.close s).eq]
@[simp] theorem close_prp (s : State) : (close s).prp = s.prp := by rw [(CloseSame.close s).eq]
@[simp] theorem close_mbxH (s : State) : (close s).mbxH = s.mbxH := by rw [(CloseSame.close s).eq]
@[simp] theorem close_mbxX (s : State) : (close s).mbxX = s.mbxX := by rw [(CloseSame.close s).eq]
@[simp] theorem close_ctxH (s : State) : (close s).ctxH = s.ctxH := by rw [(CloseSame.close s).eq]
@[simp] theorem close_issueH (s : State) : (close s).issueH = s.issueH := by rw [(CloseSame.close s).eq]
@[simp] theorem close_issueNo (s : State) : (close s).issueNo = s.issueNo := by rw [(CloseSame.close s).eq]
@[simp] theorem close_stale (s : State) : (close s).stale = s.stale := by rw [(CloseSame.close s).eq]
@[simp] theorem close_icache (s : State) : (close s).icache = s.icache := by rw [(CloseSame.close s).eq]
@[simp] theorem close_dcache (s : State) : (close s).dcache = s.dcache := by rw [(CloseSame.close s).eq]
@[simp] theorem close_fpr (s : State) : (close s).fpr = s.fpr := by rw [(CloseSame.close s).eq]
@[simp] theorem close_peFrom (s : State) : (close s).peFrom = s.peFrom := by rw [(CloseSame.close s).eq]
@[simp] theorem close_arbH (s : State) : (close s).arbH = s.arbH := by rw [(CloseSame.close s).eq]
@[simp] theorem close_coldHeld (s : State) : (close s).coldHeld = s.coldHeld := by rw [(CloseSame.close s).eq]
@[simp] theorem close_replay (s : State) : (close s).replay = s.replay := by rw [(CloseSame.close s).eq]
@[simp] theorem close_hbH (s : State) : (close s).hbH = s.hbH := by rw [(CloseSame.close s).eq]
@[simp] theorem close_slotH (s : State) : (close s).slotH = s.slotH := by rw [(CloseSame.close s).eq]
@[simp] theorem close_survLatch (s : State) : (close s).survLatch = s.survLatch := by rw [(CloseSame.close s).eq]
@[simp] theorem close_rtc (s : State) : (close s).rtc = s.rtc := by rw [(CloseSame.close s).eq]
@[simp] theorem close_rtcFrom (s : State) : (close s).rtcFrom = s.rtcFrom := by rw [(CloseSame.close s).eq]
@[simp] theorem close_rtcPre (s : State) : (close s).rtcPre = s.rtcPre := by rw [(CloseSame.close s).eq]
@[simp] theorem close_rtcLen (s : State) : (close s).rtcLen = s.rtcLen := by rw [(CloseSame.close s).eq]
@[simp] theorem close_rtcTrim (s : State) : (close s).rtcTrim = s.rtcTrim := by rw [(CloseSame.close s).eq]
@[simp] theorem close_rtcLoad (s : State) : (close s).rtcLoad = s.rtcLoad := by rw [(CloseSame.close s).eq]
@[simp] theorem close_seqH (s : State) : (close s).seqH = s.seqH := by rw [(CloseSame.close s).eq]
@[simp] theorem close_ldrH (s : State) : (close s).ldrH = s.ldrH := by rw [(CloseSame.close s).eq]
@[simp] theorem close_flash (s : State) : (close s).flash = s.flash := by rw [(CloseSame.close s).eq]
@[simp] theorem close_fuses (s : State) : (close s).fuses = s.fuses := by rw [(CloseSame.close s).eq]
@[simp] theorem close_ftRan (s : State) : (close s).ftRan = s.ftRan := by rw [(CloseSame.close s).eq]
@[simp] theorem close_serCal (s : State) : (close s).serCal = s.serCal := by rw [(CloseSame.close s).eq]

/-! ## What it establishes -/

theorem hxSent_cycles (s : State) (n : Nat) (x : HxTx) : (hxSent s n x).cycles = s.cycles := by
  have h : ∀ t : State, (hxTsClear t n).cycles = t.cycles := by
    intro t; unfold hxTsClear; split <;> rfl
  unfold hxSent
  dsimp only
  split_ifs <;> simp [hxIrq, State.raise, State.setBt, State.setHx, h, State.emit]

/-- A frame completed has left its sequencer; the others keep theirs. -/
theorem hxSent_tx (s : State) (n m : Nat) (x : HxTx) :
    ((hxSent s n x).hx m).tx = if m = n then none else (s.hx m).tx := by
  have h : ∀ t : State, (hxTsClear t n).hx = t.hx := by
    intro t; unfold hxTsClear; split <;> rfl
  have e : ∀ t : State, ∀ k h, ((t.setHx k h).hx m) = if m = k then h else t.hx m := by
    intro t k h
    split_ifs with hk
    · subst hk; simp
    · exact hx_setHx_ne t h hk
  have ee : ∀ t : State, ∀ o, (t.emit o).hx = t.hx := fun _ _ => rfl
  have eb : ∀ t : State, ∀ a i b, (t.setBt a i b).hx = t.hx := fun _ _ _ _ => rfl
  have er : ∀ t : State, ∀ a i, (t.raise a i).hx = t.hx := fun _ _ _ => rfl
  unfold hxSent
  dsimp only
  split_ifs <;> simp_all [hxIrq]

theorem hxEndOne_tx (s : State) (n m : Nat) :
    ((hxEndOne s n).hx m).tx = if m = n ∧ (∃ x, (s.hx n).tx = some x ∧ x.endAt ≤ s.cycles) then none else (s.hx m).tx := by
  unfold hxEndOne
  split
  · rename_i x hx
    split_ifs with h1 h2 h2
    · rw [hxSent_tx, if_pos h2.1]
    · rw [hxSent_tx]
      split_ifs with h3
      · exact absurd ⟨h3, x, hx, h1⟩ h2
      · rfl
    · obtain ⟨_, y, hy, hy'⟩ := h2
      rw [hx] at hy; cases hy; exact absurd hy' h1
    · rfl
  · rename_i hx
    rw [if_neg]
    rintro ⟨_, y, hy, _⟩
    rw [hx] at hy; cases hy

theorem hxEndOne_cycles (s : State) (n : Nat) : (hxEndOne s n).cycles = s.cycles := by
  unfold hxEndOne; split <;> [split_ifs <;> [exact hxSent_cycles _ _ _; rfl]; rfl]

theorem hxComplete_noOverdue (s : State) : noOverdueFrame (hxComplete s) := by
  unfold hxComplete noOverdueFrame
  have key : ∀ (l : List Nat) (s : State), (l.foldl hxEndOne s).cycles = s.cycles ∧
      ∀ m x, ((l.foldl hxEndOne s).hx m).tx = some x → (s.hx m).tx = some x ∧ (m ∈ l → s.cycles < x.endAt) := by
    intro l
    induction l with
    | nil => intro s; exact ⟨rfl, fun m x h => ⟨h, by simp⟩⟩
    | cons n l ih =>
      intro s
      obtain ⟨h1, h2⟩ := ih (hxEndOne s n)
      refine ⟨h1.trans (hxEndOne_cycles s n), fun m x hx => ?_⟩
      obtain ⟨h3, h4⟩ := h2 m x hx
      rw [hxEndOne_tx] at h3
      split_ifs at h3 with h5
      refine ⟨h3, fun hm => ?_⟩
      rcases List.mem_cons.1 hm with rfl | hm
      · by_contra hc
        exact h5 ⟨rfl, x, h3, by omega⟩
      · have := h4 hm
        rwa [hxEndOne_cycles] at this
  intro n hn x hx
  obtain ⟨h1, h2⟩ := key (List.range 32) s
  rw [h1]
  exact (h2 n x hx).2 (by simpa using hn)

/-- Where no frame is overdue none completes. -/
theorem hxComplete_of_noOverdue (s : State) (h : noOverdueFrame s) : hxComplete s = s := by
  unfold hxComplete
  have key : ∀ l : List Nat, (∀ n ∈ l, n < 32) → l.foldl hxEndOne s = s := by
    intro l
    induction l with
    | nil => intro _; rfl
    | cons n l ih =>
      intro hl
      have hn : hxEndOne s n = s := by
        unfold hxEndOne
        split
        · rename_i x hx
          rw [if_neg]
          have := h n (hl n (by simp)) x hx
          omega
        · rfl
      simp only [List.foldl_cons, hn]
      exact ih (fun m hm => hl m (by simp [hm]))
  exact key _ (by simp)

theorem foldl_undefine_hxH (l : List (Nat × Nat)) (t : State) :
    (l.foldl (fun (s : State) (r : Nat × Nat) => s.undefine r.1 r.2) t).hxH = t.hxH := by
  induction l generalizing t with
  | nil => rfl
  | cons r l ih => exact ih _

theorem foldl_undefine_cycles (l : List (Nat × Nat)) (t : State) :
    (l.foldl (fun (s : State) (r : Nat × Nat) => s.undefine r.1 r.2) t).cycles = t.cycles := by
  induction l generalizing t with
  | nil => rfl
  | cons r l ih => exact ih _

theorem ftAborted_res (u : State) : ((u.setFl MEM_FT_STAT 31 29 5).raise MEM_DG_IRQSTAT 2).fl MEM_FT_STAT 31 29 = 5 := by
  rw [State.fl, rd_raise_ne _ _ (by decide)]
  exact fl_setFl_self u MEM_FT_STAT 31 29 5 (by decide) (by decide)

theorem ftCheck_testHeld (s : State) : testHeld (ftCheck s) := by
  unfold ftCheck
  split_ifs with h
  · intro h2
    exfalso
    unfold ftRuns at h2
    rw [ftAborted_res] at h2
    exact absurd h2 (by decide)
  · intro h2
    simp only [h2, Bool.true_and, Bool.not_eq_true', Bool.not_eq_false] at h
    exact h

theorem ftCheck_hxH (s : State) : (ftCheck s).hxH = s.hxH := by
  unfold ftCheck
  split_ifs
  · simp only [State.raise, State.setFl, State.wr_hxH]; exact foldl_undefine_hxH _ s
  · rfl

theorem ftCheck_cycles (s : State) : (ftCheck s).cycles = s.cycles := by
  unfold ftCheck
  split_ifs
  · simp only [State.raise, State.setFl, State.wr_cycles]; exact foldl_undefine_cycles _ s
  · rfl

theorem settle_eq (s : State) : ∃ o, settle s = { s with msix := vectorsDue s, out := o } := by
  unfold settle
  split_ifs with h
  · exact ⟨s.out, by simp [vectorsDue, h]⟩
  · exact ⟨_, rfl⟩

end Sys2Proof.Machine
end

