-- ==== Sys2Proof/Laws/Bus.lean ====
section
/-! SUPPORT. Bus accesses that pass every test of R439, and instructions that issue. -/

namespace Sys2Proof.Machine

/-- With no STEP under way the end of a bus access runs none. -/
theorem runSteps_of_noSteps (s : State) (h : noSteps s) : runSteps s = s := by
  unfold runSteps
  unfold noSteps at h
  have key : ∀ (l : List (Nat × CtxH)) (t : State), (∀ e ∈ l, e.2.step = false) →
      l.foldl (fun s e => if e.2.step then stepOne s e.1 else s) t = t := by
    intro l
    induction l with
    | nil => intro t _; rfl
    | cons e l ih =>
      intro t hl
      simp only [List.foldl_cons, hl e (by simp), Bool.false_eq_true, if_false]
      exact ih t (fun e he => hl e (by simp [he]))
  exact key _ _ h

/-- The address at which the register of an aligned access is looked up is aligned. -/
theorem lookup_aligned (m a : Nat) (r : Region) (h : a % 4 = 0) :
    (if r = .plOwn then ownWindow m a else a) / 4 * 4 = if r = .plOwn then ownWindow m a else a := by
  unfold ownWindow
  split_ifs <;> omega

/-- A word write that passes the tests of R439 and is not masked is what its target makes of it. -/
theorem busWrite_opens {s : State} {m : Master} {a : Nat} {r : Region} (h : opens s m a r)
    (hm : maskedCell r = false ∨ unmasked s m) (v : Word) :
    busWrite s m.val a v =
      match targetWrite s m.val a r (routed m a r v) with
      | (t, .err c) => busFail t m.val a true c
      | t => t := by
  obtain ⟨h1, h2, h4, h5, h6, h7, h8⟩ := h
  have hk : ¬(maskedCell r = true ∧ maskedPair s m.val = true) := by
    unfold unmasked at hm; rcases hm with hm | hm <;> simp [hm]
  unfold busWrite busAcc busAccFor routed
  simp only [h1, h2, lookup_aligned _ _ _ h5, h4, h5, h6, h7, h8, hk, if_false, and_false, ne_eq, and_true,
    not_true_eq_false, or_self, Bool.true_eq_false, Bool.false_eq_true]
  rfl

/-- A word read that passes the tests of R439, of a register that is no protected table. -/
theorem busRead_opens {s : State} {m : Master} {a : Nat} {r : Region} (h : opens s m a r) (ht : tableWord a = none) :
    busRead s m.val a =
      match targetRead s m.val a r with
      | (t, .err c) => busFail t m.val a false c
      | t => t := by
  obtain ⟨h1, h2, h4, h5, h6, h7, h8⟩ := h
  unfold busRead busAcc busAccFor
  simp only [h1, h2, lookup_aligned _ _ _ h5, h4, h5, h6, h7, h8, if_false, and_false, ne_eq,
    not_true_eq_false, or_self, Bool.true_eq_false, Bool.false_eq_true, tableRead, ht]
  rfl

/-- The row of a register write that its target accepts. -/
theorem writeRow_accept {s u : State} {m : Master} {a : Nat} {r : Region} {v d : Word} (h : opens s m a r)
    (hm : maskedCell r = false ∨ unmasked s m) (ht : targetWrite s m.val a r (routed m a r v) = (u, .ok d)) (hs : noSteps u) :
    writeRow s m a v = .next (close { u with resp := .ok d }) := by
  unfold writeRow answer done
  rw [busWrite_opens h hm, ht]
  dsimp only
  rw [runSteps_of_noSteps]
  exact hs

/-- The row of a register write that its target refuses: logged with the cause (R439). -/
theorem writeRow_refuse {s u : State} {m : Master} {a : Nat} {r : Region} {v : Word} {c : Nat} (h : opens s m a r)
    (hm : maskedCell r = false ∨ unmasked s m) (ht : targetWrite s m.val a r (routed m a r v) = (u, .err c)) (hs : noSteps (logErr u m.val a true c)) :
    writeRow s m a v = .next (close { logErr u m.val a true c with resp := .err c }) := by
  unfold writeRow answer done
  rw [busWrite_opens h hm, ht]
  dsimp only [busFail]
  rw [runSteps_of_noSteps]
  exact hs

/-- The row of a register read. -/
theorem readRow_accept {s u : State} {m : Master} {a : Nat} {r : Region} {d : Word} (h : opens s m a r)
    (hw : tableWord a = none) (ht : targetRead s m.val a r = (u, .ok d)) (hs : noSteps u) :
    readRow s m a = .next (close { u with resp := .ok d }) := by
  unfold readRow answer done
  rw [busRead_opens h hw, ht]
  dsimp only
  rw [runSteps_of_noSteps]
  exact hs

/-- An instruction that issues, and whose access waits for none, is what `jFinish` makes of its meaning, at the boundary. -/
theorem jRow_issues {s s1 : State} {x : CtxId} {f : Upset} {i : JMn} {w : Word} (h : issues s x f i w s1) (u : Upset)
    {t : State} (ht : jFinish (ctxKey x) (jCounted (ctxKey x) (jHeld s1 (ctxKey x) w (jSem s1 (ctxKey x) i w u))) = some t) :
    jRow s x i f u = .next (issued s t (ctxKey x) i) := by
  obtain ⟨h1, h2, h3, h4, h5⟩ := h
  have hr : jRun s (ctxKey x) (some i) f u = some t := by
    unfold jRun
    simp only [h2, h3, h4, if_neg h5]
    simpa using ht
  unfold jRow done jIssue
  simp only [h1, hr, if_true]
  rfl

/-- An instruction that completes. -/
theorem jRow_completes {s s1 v : State} {x : CtxId} {f : Upset} {i : JMn} {w : Word} {u : Upset} (h : issues s x f i w s1)
    (ht : jSem s1 (ctxKey x) i w u = .nxt v) : jRow s x i f u = .next (completes s v (ctxKey x) i) :=
  jRow_issues h u (by rw [ht]; rfl)

/-- A control transfer. -/
theorem jRow_transfers {s s1 v : State} {x : CtxId} {f : Upset} {i : JMn} {w : Word} {u : Upset} {d : Nat}
    (h : issues s x f i w s1) (ht : jSem s1 (ctxKey x) i w u = .jump v d) :
    jRow s x i f u = .next (transfers s v (ctxKey x) i d) :=
  jRow_issues h u (by rw [ht]; rfl)

/-- An instruction that raises an exception. -/
theorem jRow_raises {s s1 v : State} {x : CtxId} {f : Upset} {i : JMn} {w : Word} {u : Upset} {c sub : Nat} {ta : Option Nat}
    (h : issues s x f i w s1) (ht : jSem s1 (ctxKey x) i w u = .exc v c sub ta) :
    jRow s x i f u = .next (issued s
      (excHere (if atIssue c then v else countIssue v (ctxKey x)) (ctxKey x) c sub ta) (ctxKey x) i) :=
  jRow_issues h u (by rw [ht]; rfl)

/-- An instruction that blocks its context, or sets the position itself. -/
theorem jRow_own {s s1 v : State} {x : CtxId} {f : Upset} {i : JMn} {w : Word} {u : Upset} (h : issues s x f i w s1)
    (ht : jSem s1 (ctxKey x) i w u = .hold v ∨ jSem s1 (ctxKey x) i w u = .own v) :
    jRow s x i f u = .next (issued s (countIssue v (ctxKey x)) (ctxKey x) i) := by
  rcases ht with ht | ht <;> exact jRow_issues h u (by rw [ht]; rfl)

end Sys2Proof.Machine
end

