-- ==== Sys2Proof/Laws/Memory.lean ====
section
/-! SUPPORT. Every operation on memory keeps its canonical form, and reset has it. -/

namespace Sys2Proof.Machine

theorem setByte_wf (s : State) (a : Nat) (v : Byte) (h : Memory.wf s.mem = true) : Memory.wf (s.setByte a v).mem = true :=
  smWf_smSet (fun _ => (0 : Byte)) s.mem a v h

theorem setBytes_wf (l : List Byte) (s : State) (a : Nat) (h : Memory.wf s.mem = true) :
    Memory.wf (s.setBytes a l).mem = true := by
  induction l generalizing s a with
  | nil => exact h
  | cons x r ih => exact ih _ _ (setByte_wf s a x h)

theorem setMem32_wf (s : State) (a : Nat) (v : Word) (h : Memory.wf s.mem = true) : Memory.wf (s.setMem32 a v).mem = true :=
  setBytes_wf _ s a h

theorem zeroMem_wf (s : State) (lo hi : Nat) (h : Memory.wf s.mem = true) : Memory.wf (s.zeroMem lo hi).mem = true :=
  smWf_filter _ _ _ h

theorem clearMem_wf (s : State) (lo hi : Nat) (h : Memory.wf s.mem = true) : Memory.wf (s.clearMem lo hi).mem = true :=
  zeroMem_wf s lo hi h

theorem undefine_wf (s : State) (lo hi : Nat) (h : Memory.wf s.mem = true) : Memory.wf (s.undefine lo hi).mem = true :=
  zeroMem_wf s lo hi h

theorem settleWord_wf (s : State) (w : Nat) (h : Memory.wf s.mem = true) : Memory.wf (s.settleWord w).mem = true := by
  unfold State.settleWord
  split_ifs
  · exact setMem32_wf _ _ _ (setMem32_wf _ _ _ h)
  · exact h

theorem rawAcc_wf (s : State) (a n : Nat) (x : Option Nat) (h : Memory.wf s.mem = true) :
    Memory.wf (rawAcc s a n x).1.mem = true := by
  unfold rawAcc
  cases x with
  | none => exact settleWord_wf s _ h
  | some v => exact setBytes_wf _ _ _ (settleWord_wf s _ h)

theorem raise_mem (s : State) (a : Nat) (m : Word) : (s.raise a m).mem = s.mem := (rfl)
theorem satInc_mem (s : State) (a hi lo n : Nat) : (s.satInc a hi lo n).mem = s.mem := (rfl)
theorem wrapInc_mem (s : State) (a hi lo n : Nat) : (s.wrapInc a hi lo n).mem = s.mem := (rfl)
theorem setFl_mem (s : State) (a hi lo v : Nat) : (s.setFl a hi lo v).mem = s.mem := (rfl)
theorem setBt_mem (s : State) (a i : Nat) (b : Bool) : (s.setBt a i b).mem = s.mem := (rfl)

theorem localAcc_wf (s : State) (a n : Nat) (x : Option Nat) (u : Upset) (h : Memory.wf s.mem = true) :
    Memory.wf (localAcc s a n x u).1.mem = true := by
  unfold localAcc
  split_ifs
  · exact setBytes_wf _ _ _ h
  · split
    · exact h
    · exact rawAcc_wf _ _ _ _ h

theorem scratchAcc_wf (s : State) (e a n : Nat) (x : Option Nat) (u : Upset) (h : Memory.wf s.mem = true) :
    Memory.wf (scratchAcc s e a n x u).1.mem = true := by
  have hl := localAcc_wf s a n x u h
  unfold scratchAcc
  split <;> rename_i heq <;> rw [heq] at hl
  · exact hl
  · rw [raise_mem, wrapInc_mem]; exact hl
  · rw [raise_mem, satInc_mem]; exact hl

theorem memEccNote_mem (s : State) (a : Nat) (u : Upset) : (memEccNote s a u).mem = s.mem := by
  unfold memEccNote
  split
  · rfl
  · simp only [State.setEcc_mem, raise_mem, satInc_mem]
  · dsimp only
    split_ifs <;> simp only [State.setEcc_mem, raise_mem, satInc_mem, setFl_mem]

theorem ownerViolation_mem (s : State) (m a : Nat) (wr : Bool) : (ownerViolation s m a wr).mem = s.mem := by
  unfold ownerViolation
  dsimp only
  split_ifs <;> simp only [raise_mem, State.wr_mem]

theorem sharedAcc_wf (s : State) (m a n : Nat) (x : Option Nat) (u : Upset) (h : Memory.wf s.mem = true) :
    Memory.wf (sharedAcc s m a n x u).1.mem = true := by
  unfold sharedAcc
  split_ifs
  · rw [ownerViolation_mem]; exact h
  · exact setBytes_wf _ _ _ h
  · split
    · rw [memEccNote_mem]; exact h
    · refine rawAcc_wf _ _ _ _ ?_
      rw [memEccNote_mem]; exact h

theorem logErr_mem (s : State) (m a : Nat) (wr : Bool) (c : Nat) : (logErr s m a wr c).mem = s.mem := by
  unfold logErr
  dsimp only
  split_ifs <;> simp only [raise_mem, satInc_mem, wrapInc_mem, setFl_mem]

theorem seenUpset_mem (s : State) : (seenUpset s).1.mem = s.mem := by
  unfold seenUpset
  split <;> rfl

theorem memAcc_wf (s : State) (m a n : Nat) (x : Option Nat) (h : Memory.wf s.mem = true) :
    Memory.wf (memAcc s m a n x).1.mem = true := by
  have key : ∀ e : State × Upset, Memory.wf e.1.mem = true → Memory.wf (match sharedAcc e.1 m a n x e.2 with
      | (s, .inl v) => (s, some v)
      | (s, .inr c) => (logErr s m a x.isSome c, none)).1.mem = true := by
    intro e he
    have hs := sharedAcc_wf e.1 m a n x e.2 he
    split <;> rename_i heq <;> rw [heq] at hs
    · exact hs
    · rw [logErr_mem]; exact hs
  unfold memAcc
  split
  · rw [logErr_mem]; exact h
  · split_ifs
    · rw [logErr_mem]; exact h
    · rw [logErr_mem]; exact h
    · exact key (s, .good) h
    · exact key (seenUpset s) (by rw [seenUpset_mem]; exact h)

theorem memRead_wf (s : State) (m a n : Nat) (h : Memory.wf s.mem = true) : Memory.wf (memRead s m a n).1.mem = true := by
  unfold memRead
  generalize chunks n a n = l
  suffices ∀ r : State × Option (List Byte), Memory.wf r.1.mem = true → Memory.wf (l.foldl (fun r c =>
      match r with
      | (s, none) => (s, none)
      | (s, some l) =>
        match memAcc s m c.1 c.2 none with
        | (s, none) => (s, none)
        | (s, some v) => (s, some (l ++ leBytes c.2 v))) r).1.mem = true from this _ h
  induction l with
  | nil => exact fun _ hr => hr
  | cons c l ih =>
    rintro ⟨s, o⟩ hr
    apply ih
    cases o with
    | none => exact hr
    | some b =>
      have hm := memAcc_wf s m c.1 c.2 none hr
      dsimp only
      split <;> rename_i heq <;> rw [heq] at hm <;> exact hm

theorem memWrite_wf (s : State) (m a : Nat) (bs : List Byte) (h : Memory.wf s.mem = true) :
    Memory.wf (memWrite s m a bs).1.mem = true := by
  unfold memWrite
  generalize chunks bs.length a bs.length = l
  suffices ∀ r : State × Bool, Memory.wf r.1.mem = true → Memory.wf (l.foldl (fun r c =>
      match r with
      | (s, false) => (s, false)
      | (s, true) =>
        match memAcc s m c.1 c.2 (some (leNat ((bs.drop (c.1 - a)).take c.2))) with
        | (s, none) => (s, false)
        | (s, some _) => (s, true)) r).1.mem = true from this _ h
  induction l with
  | nil => exact fun _ hr => hr
  | cons c l ih =>
    rintro ⟨s, o⟩ hr
    apply ih
    cases o with
    | false => exact hr
    | true =>
      have hm := memAcc_wf s m c.1 c.2 (some (leNat ((bs.drop (c.1 - a)).take c.2))) hr
      dsimp only
      split <;> rename_i heq <;> rw [heq] at hm <;> exact hm

theorem ldrBytes_wf (s : State) (a : Nat) (l : List Byte) (h : Memory.wf s.mem = true) :
    Memory.wf (ldrBytes s a l).mem = true := setBytes_wf _ _ _ h

theorem foldl_wf {β : Type} (f : State → β → State) (hf : ∀ s b, Memory.wf s.mem = true → Memory.wf (f s b).mem = true)
    (l : List β) (s : State) (h : Memory.wf s.mem = true) : Memory.wf (l.foldl f s).mem = true := by
  induction l generalizing s with
  | nil => exact h
  | cons b l ih => exact ih _ (hf s b h)

theorem memInit_wf (s : State) (h : Memory.wf s.mem = true) : Memory.wf (memInit s).mem = true := by
  unfold memInit
  generalize poweredMem = l
  have hf := foldl_wf (fun (s : State) (r : Nat × Nat) => s.clearMem r.1 r.2) (fun s r h => clearMem_wf s r.1 r.2 h) l s h
  generalize l.foldl (fun (s : State) (r : Nat × Nat) => s.clearMem r.1 r.2) s = t at hf ⊢
  exact undefine_wf t _ _ hf

theorem losePower_wf (s : State) (h : Memory.wf s.mem = true) : Memory.wf (losePower s).mem = true := by
  unfold losePower
  generalize poweredMem = l
  exact foldl_wf (fun (s : State) (r : Nat × Nat) => s.undefine r.1 r.2) (fun s r h => undefine_wf s r.1 r.2 h) l s h

/-- The memory at reset has the canonical form. -/
theorem reset_mem_wf : Memory.wf State.reset.mem = true := by
  unfold State.reset
  rfl

end Sys2Proof.Machine
end

