-- ==== Sys2Proof/WellFormed.lean ====
section
/-! DEFINITION. Well-formed commands: the operands that the outside world can give. Operands that the types of
Syntax.lean already bound need no check. -/

namespace Sys2Proof

/-- The payload bytes a DLC stands for (ISO 11898-1, R275). -/
def dlcBytes (fdf : Bool) (dlc : Nat) : Nat :=
  if dlc ≤ 8 then dlc else if fdf then [12, 16, 20, 24, 32, 48, 64].getD (dlc - 9) 64 else 8

/-- A CAN frame as it can stand on a bus (R270, R275): an 11-bit identifier without IDE; BRS and ESI only with FDF, RTR only
without; the bytes its DLC says, none in a remote frame. -/
def CanFrame.wf (f : CanFrame) : Bool :=
  (f.ide || decide (f.id.toNat < 2 ^ 11)) && (f.fdf || (!f.brs && !f.esi)) && !(f.fdf && f.rtr) &&
    f.data.length == (if f.rtr then 0 else dlcBytes f.fdf f.dlc.val)

/-- A Huxon frame as a receiver can take it: at most a header, 128 payload bytes and a check field (R230, R231). -/
def huxonWf (l : List Byte) : Bool := decide (l.length ≤ 135)

/-- An Ethernet frame from its destination to its end without FCS: two addresses and an EtherType at least (R286). -/
def ethernetWf (l : List Byte) : Bool := decide (14 ≤ l.length)

/-- The words of an inbound PCIe request: at least one, at most 64 of a write and 128 of a read (section 16: maximum payload
256 bytes, maximum read request 512 bytes). -/
def pcieWf (wr : Bool) (ws : List PcieWord) : Bool :=
  decide (0 < ws.length) && decide (ws.length ≤ if wr then 64 else 128)

/-- The operands of a command are ones that the outside world can give. -/
def Instr.wf : Instr → Bool
  | .canFrameReceive _ f _ _ => f.wf
  | .hxFrameReceive _ l _ _ _ => huxonWf l
  | .frameForward _ l _ _ _ _ _ _ _ => ethernetWf l
  | .pfcFrameReceive _ cls q => decide (cls.toNat < 256) && q.length == 8 && q.all (fun x => decide (x < 2 ^ 16))
  | .linkUp _ speed _ _ => decide (speed.val ≤ 5)
  | .mailboxCrossed a b _ => a != b
  | .pcieInboundRequest _ o wr ws _ => decide (o.toNat % 4 = 0) && pcieWf wr ws
  | .loadAttempt _ run _ => match run with | none => true | some l => l.all (fun k => decide (k < 64))
  | .slotIdentify _ ok id p0 p1 _ => !ok || (id.length == 128 && p0.length == 32 && p1.length == 32)
  | .slotTempRead _ t => match t with | none => true | some t => decide (t < 2 ^ 13)
  | .bistDone fails word => decide (fails ≠ 0) || word == 0
  | _ => true

end Sys2Proof
end

