-- ==== Sys2Proof/Tests/Slice0.lean ====
section
/-! SUPPORT. The model's own tests: ill-formed commands refused, a few commands and instructions on small states with results
taken from the spec, and for every statement that has hypotheses a witness that they can be met together. -/

namespace Sys2Proof.Tests

open Sys2Proof Sys2Proof.Machine

set_option Elab.async false

/-- The device after start-up: no reset holds, every block is released, the memories are defined. -/
def live : State :=
  { State.reset with
    srcs := 0, ldrHold := (List.range 99).map (fun i => (i, false)), undef := [], coldHeld := 0, ldrH := { due := 0 },
    upsets := List.replicate 64 .good }

/-- `live` with registers set. -/
def z (l : List (Nat × Nat)) : State := l.foldl (fun s e => s.wr e.1 (BitVec.ofNat 32 e.2)) ((live.wr RST_SWSRC 0).wr PMU_PDSTAT 0)

/-- A Huxon schedule of two slots: slot 0 polls node 2, slot 1 is a twilight slot; messages of `n` bytes. -/
def sched (n : Nat) : List Byte :=
  leBytes 4 (2 ^ 30 + 100000) ++ [2, BitVec.ofNat 8 n, 4, 0] ++ leBytes 4 0x20000200 ++ leBytes 4 0x20000400 ++
    leBytes 4 (2 ^ 31 + 400000) ++ [0, BitVec.ofNat 8 n, 4, 0] ++ leBytes 4 0x20000600 ++ leBytes 4 0x20000800

/-- Bytes in a row, from address `k` on. -/
def cells : Nat → List Byte → List (Nat × Byte)
  | _, [] => []
  | k, x :: r => (k, x) :: cells (k + 1) r

/-- The header of an image of one REG section, at 4096, and one manifest byte, at 4352 (Tables 17.4 and 17.5). -/
def header : List Byte :=
  (leBytes 4 0x53454F50 ++ leBytes 2 1 ++ leBytes 2 2 ++ leBytes 4 8192 ++ leBytes 4 3 ++ leBytes 2 0x9256 ++ [0, 0xFF] ++
    List.replicate 44 0) ++
  ([3, 0, 0, 0] ++ leBytes 4 4096 ++ leBytes 4 8 ++ leBytes 4 0 ++ leBytes 4 261101492 ++ List.replicate 12 0) ++
  ([6, 0, 0, 0] ++ leBytes 4 4352 ++ leBytes 4 1 ++ leBytes 4 0 ++ leBytes 4 917085598 ++ List.replicate 12 0) ++
  List.replicate 3964 0 ++ leBytes 4 827651804

/-- Flash copy A with that image: the section's one entry writes 9 to the bridge register HB_PFCFG. -/
def image : List (Nat × Byte) :=
  cells 0 (header ++ (leBytes 4 HB_PFCFG ++ leBytes 4 9) ++ List.replicate 248 0 ++ [0x55])

/-- The loader about to try copy A. -/
def booting (l : List (Nat × Nat)) : State := { z ([(LDR_STATUS, 0x20000000)] ++ l) with flash := image }

/-- Context 7 of PE7 in RUN with registers set, PC at its scratchpad, which holds the word `w`; g30 points into the scratchpad,
g29 and the stack bounds too. -/
def onPe (w : Word) (l : List (Nat × Nat)) : State :=
  (z ([(ctxReg 63 1, 0x40000000), (ctxReg 63 2, 0x10700000), (ctxReg 63 6, 0x10710000), (ctxReg 63 7, 0x10710040),
    (gReg 63 30, 0x10710010), (gReg 63 29, 0x10710020)] ++ l)).setBytes 0x10700000 (leBytes 4 w.toNat)

/-- Pair B in RUN with region 0 over its memory, at a word `w` of the pair memory; g30 points into the pair memory. -/
def onPair (w : Word) (l : List (Nat × Nat)) : State :=
  (z ([(ctxReg 65 1, 0x40000000), (ctxReg 65 2, 0x40000100), (rgn 1 0 0, 0), (rgn 1 0 4, 0xFFFFF000), (rgn 1 0 8, 0x1E),
    (gReg 65 30, 0x40002000)] ++ l)).setBytes 0x40000100 (leBytes 4 w.toNat)

/-- Sequencer 31 configured, on cells of banks that exist, with the schedule in the first shared bank; `st`: HX_STATUS. -/
def huxon (st : Nat) : State :=
  (z [(MEM_OWN 0, 1), (CELL_MODE 4, 0x1F02), (CELL_MODE 5, 0x1F02), (HX_CYCLEN 31, 1000000), (HX_DUSK 31, 700000),
    (HX_GUARD 31, 5000), (HX_ACCW 31, 1000), (HX_SCHBASE 31, 0x20000000),
    (HX_SCHED 31, 0x20000), (HX_CFG 31, 0x10064), (HX_CLAIM 31, 0xFF), (HX_STATUS 31, st)]).setBytes 0x20000000 (sched 8)

/-- The state a command answers with. -/
def nextOf : Host.Outcome State Fault Refusal → State
  | .next t => t
  | _ => State.reset

/-! ## Commands that the outside world cannot give -/

theorem test_wf_can_frame_length : (Instr.canFrameReceive 0 ⟨5, false, false, false, false, false, 2, [7]⟩ 0 1000).wf = false := by decide +kernel
theorem test_wf_can_base_identifier : (Instr.canFrameReceive 0 ⟨0x800, false, false, false, false, false, 1, [7]⟩ 0 1000).wf = false := by decide +kernel
theorem test_wf_can_brs_without_fdf : (Instr.canFrameReceive 0 ⟨5, false, false, true, false, false, 1, [7]⟩ 0 1000).wf = false := by decide +kernel
theorem test_wf_can_remote_fd : (Instr.canFrameReceive 0 ⟨5, false, true, false, true, false, 0, []⟩ 0 1000).wf = false := by decide +kernel
theorem test_wf_huxon_length : (Instr.hxFrameReceive 0 (List.replicate 136 0) true 0 1000).wf = false := by decide +kernel
theorem test_wf_ethernet_length : (Instr.frameForward 0 (List.replicate 13 0) .good 0 0 0 0 0 ⟨0, .good⟩).wf = false := by decide +kernel
theorem test_wf_pfc_classes : (Instr.pfcFrameReceive 0 256 (List.replicate 8 0)).wf = false := by decide +kernel
theorem test_wf_pfc_quanta : (Instr.pfcFrameReceive 0 255 (List.replicate 7 0)).wf = false := by decide +kernel
theorem test_wf_link_speed : (Instr.linkUp 0 6 false false).wf = false := by decide +kernel
theorem test_wf_mailbox_pair : (Instr.mailboxCrossed 3 3 0).wf = false := by decide +kernel
theorem test_wf_pcie_offset : (Instr.pcieInboundRequest .bar2 2 false [⟨15, 0⟩] 0).wf = false := by decide +kernel
theorem test_wf_pcie_words : (Instr.pcieInboundRequest .bar2 0 true (List.replicate 65 ⟨15, 0⟩) 0).wf = false := by decide +kernel
theorem test_wf_load_contexts : (Instr.loadAttempt ⟨0, true, true, true⟩ (some [64]) true).wf = false := by decide +kernel
theorem test_wf_slot_record : (Instr.slotIdentify 0 true [1] [] [] false).wf = false := by decide +kernel
theorem test_wf_slot_temperature : (Instr.slotTempRead 0 (some 8192)).wf = false := by decide +kernel
theorem test_wf_bist_word : (Instr.bistDone 0 1).wf = false := by decide +kernel

/-! ## Values that the spec works out -/

/-- Section 6, worked example of the ballast receive loop. -/
theorem test_decode_receive_loop :
    [0xE0801025, 0x08C5D000, 0x70C00005, 0xEC802000, 0xECE83000, 0x93FFFFFA, 0x00000000].map (jDecode false) =
      [some .crxw, some .extu, some .beq, some .iwb, some .iput, some .j, some .add] ∧
    jRd 0xE0801025 = 4 ∧ jRa 0xE0801025 = 0 ∧ jImm12 0xE0801025 = 37 ∧ jRd 0xECE83000 = 7 ∧ jRa 0xECE83000 = 8 := by decide +kernel

/-- Opcode 0x03 is reserved (Table 6.4), and so is the FPU on an engine (R128). -/
theorem test_decode_reserved : jDecode false 0x0C000000 = none ∧ jDecode false 0xB4000000 = none ∧ jDecode true 0xB4000000 = some .fadd := by
  decide +kernel

/-- Section 4, worked example: the Modbus check of 01 03 00 00 00 01. -/
theorem test_crc_modbus : crcBytes 16 0x8005 0xFFFF 0 true true [1, 3, 0, 0, 0, 1] = 0x0A84 := by decide +kernel

/-- Section 12, worked example: the timing words of CAN9 are admitted. -/
theorem test_can_timing : canTimingOk (z [(CAN_NBT 9, 0x3E1F7E00), (CAN_DBT 9, 0x02020500), (CAN_TDC 9, 0x00040007)]) 9 = true := by decide +kernel

/-- Section 15, worked example, step 6: pair A's age exceeds 1,500 µs and pair B takes the token. -/
theorem test_hung_pair :
    (let t := nextOf (exec (.heartbeatTimeout 0 1000) { z [(ARB_CFG, 0x600005DC), (ARB_STATUS, 0x40440000)] with
        cycles := 1614000, arbH := { beatA := 115000, beatB := 1115000 } });
      t.fl ARB_FCNT 7 0 = 0 ∧ holder t = 1) ∧
    (let t := nextOf (exec (.heartbeatTimeout 0 1000) { z [(ARB_CFG, 0x600005DC), (ARB_STATUS, 0x40440000)] with
        cycles := 1615000, arbH := { beatA := 115000, beatB := 1115000 } });
      t.fl ARB_FCNT 7 0 = 1 ∧ holder t = 2 ∧ t.fl ARB_LAST 27 25 = 2 ∧ t.bt ARB_STATUS 22 = false) := by decide +kernel

/-! ## Single instructions -/

/-- ADD g31, g30, g29 wraps (R130). -/
theorem test_add_wraps :
    getG (nextOf (exec (.add (.pe 7 7) .good) (onPe 0x03FEE800 [(gReg 63 30, 0xFFFFFFFF), (gReg 63 29, 2)]))) 63 31 = 1 := by decide +kernel

/-- SUB takes RB from RA (Table 6.6). -/
theorem test_sub_order :
    getG (nextOf (exec (.sub (.pe 7 7) .good) (onPe 0x03FEE801 [(gReg 63 30, 3), (gReg 63 29, 5)]))) 63 31 = 0xFFFFFFFE := by decide +kernel

/-- MULH is signed, MULHU not: -1 times -1 (Table 6.6). -/
theorem test_mulh_mulhu :
    getG (nextOf (exec (.mulh (.pe 7 7) .good) (onPe 0x03FEE812 [(gReg 63 30, 0xFFFFFFFF), (gReg 63 29, 0xFFFFFFFF)]))) 63 31 = 0 ∧
    getG (nextOf (exec (.mulhu (.pe 7 7) .good) (onPe 0x03FEE811 [(gReg 63 30, 0xFFFFFFFF), (gReg 63 29, 0xFFFFFFFF)]))) 63 31 = 0xFFFFFFFE := by
  decide +kernel

/-- EXTS g31, g30, 31, 1 of a word with bit 31 set is -1 (Table 6.5). -/
theorem test_exts_top_bit :
    getG (nextOf (exec (.exts (.pe 7 7) .good) (onPe 0x0BFEF801 [(gReg 63 30, 0x80000000)]))) 63 31 = 0xFFFFFFFF := by decide +kernel

/-- LH sign-extends the halfword at the lower address first (R8). -/
theorem test_lh_sign :
    getG (nextOf (exec (.lh (.pe 7 7) .good .good) ((onPe 0x47FE0002 []).setBytes 0x10710010 [1, 2, 0xFE, 0xFF]))) 63 31 = 0xFFFFFFFE := by
  decide +kernel

/-- TRAP 31 enters exception 11 with SUB = 31; RPC is the next instruction (R147, Table 6.12). -/
theorem test_trap_entry :
    (let t := nextOf (exec (.trap (.pe 7 7) .good) (onPe 0xB000F803 []));
      t.rd (ctxReg 63 3) = 0x10700004 ∧ t.rd (ctxReg 63 4) = 0x001F000B ∧ t.bt (ctxReg 63 1) 29 = true) := by decide +kernel

/-- 2 + 2 = 4 and 1 / 0 raises DZ (bit 3 of FCSR) with an infinite quotient (R335, IEEE 754). -/
theorem test_fpu : (fAdd 0 0x4000000000000000 0x4000000000000000).1 = 0x4010000000000000 ∧
    fDiv 0 0x3FF0000000000000 0 = (0x7FF0000000000000, 8) := by decide +kernel

/-! ## Single commands -/

/-- A read of a register of a block in reset gets an error response with cause 6, held in the log (R401, R439). -/
theorem test_read_in_reset :
    (let t := nextOf (exec (.registerWrite 1 0x30000000 .w .rd) (z [(RST_SWSRC, 0x400)]));
      t.resp = .err 6 ∧ t.elog.map (·.cause) = [6]) := by decide +kernel

/-- A route register: bits 15 to 8 and 4 to 0 are writable, and reserved bits read 0 (Table 1.6). -/
theorem test_route_write :
    (let t := nextOf (exec (.routeWrite 1 0x31000029 0x7F1F) (z []));
      t.resp ≠ .ok 0) ∧ (nextOf (exec (.routeWrite 1 0x3100002C 0x7F1F) (z []))).rd (CAN_IRQROUTE 0) = 0x7F1F := by decide +kernel

/-- AONPOR leaves RST_CAUSE with its own bit alone (R403). -/
theorem test_aonpor_cause : (nextOf (exec .aonporAssert (z [(RST_CAUSE, 0x4000)]))).rd RST_CAUSE = 1 := by decide +kernel

/-- A lock read while free is taken by the reader, and a second master reads the holder (R329). -/
theorem test_lock :
    (let t := nextOf (exec (.lockAcquire 5 0) (z []));
      t.rd (MBX_LK 0) = 5 ∧ (nextOf (exec (.lockAcquire 6 0) t)).rd (MBX_LK 0) = 5) := by decide +kernel

/-- A surge of 1 microsecond counts in class 1 and one of 999 nanoseconds nowhere (R424). -/
theorem test_surge_class :
    (nextOf (exec (.surgePulse 0 1000) (z []))).fl (AON_SLOT_S12 0) 15 0 = 1 ∧
    (nextOf (exec (.surgePulse 0 999) (z []))).fl (AON_SLOT_S12 0) 15 0 = 0 := by decide +kernel

/-- An empty queue lets one cycle pass; a command at the front runs and leaves the queue. -/
theorem test_step_queue :
    (nextOf (step (z []))).cycles = (z []).cycles + 1 ∧
    (nextOf (step { z [] with pending := [.extestSelect, .extestExit] })).pending = [.extestExit] := by decide +kernel

/-- A state with no Huxon frame in transmission has none overdue: the form in which the witnesses below meet that hypothesis. -/
theorem noOverdueFrame_of_idle (s : State) (h : (List.range 32).all (fun q => (s.hx q).tx.isNone) = true) : noOverdueFrame s := by
  intro n hn x hx
  have := List.all_eq_true.mp h n (List.mem_range.mpr hn)
  simp [hx] at this

/-! ## Witnesses: for every hypothesis of a statement, clause by clause, a state and operands that meet all of them -/

theorem witness_AccessTypes :
    (let s : State := z []; let m : Master := 1; let a : Word := BitVec.ofNat 32 (EVF_SGCFG 31); let g : Fin 32 := 31;
        decide (noSteps s) && decide (a.toNat = EVF_SGCFG g.val) && decide (opens s m a.toNat .evf)) = true ∧
    (let s : State := z []; let m : Master := 1; let a : Word := 0x300FF060; let c : Fin 256 := 255; decide (noSteps s) &&
        decide (a.toNat = 0x30000060 + c.val * 0x1000) && decide (opens s m a.toNat (.cell c.val)) &&
        decide (unmasked s m) && decide (shdOn s c.val = none)) = true ∧
    (let s : State := z []; let m : Master := 1; let a : Word := BitVec.ofNat 32 (EVF_SGCNT 31); let g : Fin 32 := 31;
        decide (noSteps s) && decide (a.toNat = EVF_SGCNT g.val) && decide (opens s m a.toNat .evf)) = true ∧
    (let s : State := z []; let m : Master := 1; let a : Word := BitVec.ofNat 32 (PE_ECC 7); let n : Fin 8 := 7;
        decide (noSteps s) && decide (a.toNat = PE_ECC n.val) &&
        decide (opens s m a.toNat (.pe n.val))) = true := by decide +kernel

theorem witness_SharedMemory :
    (let s : State := z [(MEM_OWN 31, 1)]; let m : Master := 1; let a : Word := 0x20FFFFFC; let sz : Size := .w;
        decide (noSteps s) && decide (testHeld s) && decide (canIssue s m.val = true) &&
        decide (admits m.val .shared = true) && decide (regionOf a.toNat = some .shared) &&
        decide (a.toNat % sz.bytes = 0) && decide (owns s m.val (bankOf a.toNat) = true) &&
        decide (plainWord s a.toNat .good)) = true ∧
    (let s : State := z [(MEM_OWN 31, 1)]; let m : Master := 1; let a : Word := 0x20FFFFFF; let sz : Size := .b;
        decide (noSteps s) && decide (testHeld s) && decide (canIssue s m.val = true) &&
        decide (admits m.val .shared = true) && decide (regionOf a.toNat = some .shared) &&
        decide (a.toNat % sz.bytes = 0) && decide (owns s m.val (bankOf a.toNat) = true) &&
        decide (plainWord s a.toNat .good)) = true := by decide +kernel

theorem witness_ErrorResponses :
    (let s : State := z [(PMU_PDSTAT, 1)]; let m : Master := 2; let a : Word := 0x01000000; decide (noSteps s) &&
        decide (canIssue s m.val = true) && decide (regionOf a.toNat = none)) = true ∧
    (let s : State := z [(PMU_PDSTAT, 1)]; let m : Master := 12; let a : Word := 0x39000000; let acc : Acc := .rd;
        let r : Region := .arb; decide (noSteps s) && decide (canIssue s m.val = true) &&
        decide (regionOf a.toNat = some r) && decide (r ≠ .plOwn) &&
        decide (acc = .rd ∨ maskedCell r = false ∨ unmasked s m) &&
        decide (r.isMem = true ∨ regDesc (a.toNat / 4 * 4) ≠ none) && decide (admits m.val r = false)) = true ∧
    (let s : State := z [(PMU_PDSTAT, 1)]; let m : Master := 2; let a : Word := 0x30000000; let sz : Size := .h;
        let acc : Acc := .rd; let r : Region := .cell 0; decide (noSteps s) && decide (canIssue s m.val = true) &&
        decide (regionOf a.toNat = some r) && decide (r ≠ .plOwn) &&
        decide (acc = .rd ∨ maskedCell r = false ∨ unmasked s m) &&
        decide (r.isMem = true ∨ regDesc (a.toNat / 4 * 4) ≠ none) && decide (admits m.val r = true) &&
        decide (r.isMem = false) && decide (sz ≠ .w ∨ a.toNat % 4 ≠ 0)) = true ∧
    (let s : State := z [(PMU_PDSTAT, 1)]; let m : Master := 2; let a : Word := BitVec.ofNat 32 (PE_ECC 0);
        let sz : Size := .w; let acc : Acc := .rd; let r : Region := .pe 0; decide (noSteps s) &&
        decide (canIssue s m.val = true) && decide (regionOf a.toNat = some r) && decide (r ≠ .plOwn) &&
        decide (acc = .rd ∨ maskedCell r = false ∨ unmasked s m) &&
        decide (r.isMem = true ∨ regDesc (a.toNat / 4 * 4) ≠ none) && decide (admits m.val r = true) &&
        decide (r.isMem = false) && decide (sz = .w) && decide (a.toNat % 4 = 0) && decide (shut s m.val r = true)) = true ∧
    (let s : State := z [(PMU_PDSTAT, 1)]; let m : Master := 2; let a : Word := 0x20FFFFFF; let sz : Size := .b;
        let acc : Acc := .rd; let r : Region := .shared; decide (noSteps s) && decide (canIssue s m.val = true) &&
        decide (regionOf a.toNat = some r) && decide (r ≠ .plOwn) &&
        decide (acc = .rd ∨ maskedCell r = false ∨ unmasked s m) &&
        decide (r.isMem = true ∨ regDesc (a.toNat / 4 * 4) ≠ none) && decide (admits m.val r = true) &&
        decide (r = .shared) &&
        decide (owns s m.val (bankOf (a.toNat / sz.bytes * sz.bytes)) = false)) = true := by decide +kernel

theorem witness_MaskedWrites :
    (let s : State := z [(ARB_STATUS, 0x80000000)]; let m : Master := 9; let a : Word := 0x300FF060; let sz : Size := .b;
        decide (noSteps s) && decide (m = 9 ∨ m = 10) && decide (holder s + 8 ≠ m.val) &&
        decide ((canIssue s m.val = true ∧ (∃ c : Fin 256, regionOf a.toNat = some (.cell c.val) ∧ shut s m.val (.cell c.val) = false)) ∨ (opens s m a.toNat .evf ∧ sz = .w ∧ maskedTarget .evf (a.toNat % 0x10000) = true))) = true := by decide +kernel

theorem witness_ReadOnlyMemories :
    (let s : State := z []; let m : Master := 16; let a : Word := 0; decide (noSteps s) &&
        decide (canIssue s m.val = true) &&
        decide (regionOf a.toNat = some .rom ∨ regionOf a.toNat = some .flash)) = true := by decide +kernel

theorem witness_RouteWrite :
    (let s : State := z []; let m : Master := 1; let a : Word := BitVec.ofNat 32 (CAN_IRQROUTE 31);
        let r : Region := .can 31; decide (noSteps s) && match routeKind a.toNat with
      | some _ => (decide (opens s m a.toNat r) &&
          decide (∀ c < (256 : Nat), r ≠ .cell c ∨ (unmasked s m ∧ shdOn s c = none)))
      | _ => false) = true := by decide +kernel

theorem witness_CellCommands :
    (let s : State := z [(CELL_STATUS 255, 0x80000000)]; let m : Master := 1; let c : Fin 256 := 255; decide (noSteps s) &&
        decide (unmasked s m) && decide (opens s m (CELL_CTRL c.val) (.cell c.val)) && decide (shdOn s c.val = none)) = true ∧
    (let s : State := z [(CELL_STATUS 255, 0x80000000)]; let m : Master := 1; let c : Fin 256 := 255; decide (noSteps s) &&
        decide (unmasked s m) && decide (opens s m (CELL_CTRL c.val) (.cell c.val)) && decide (shdOn s c.val = none) &&
        decide (cellState s c.val ≠ 0)) = true ∧
    (let s : State := z []; let m : Master := 1; let c : Fin 256 := 255; decide (noSteps s) && decide (unmasked s m) &&
        decide (opens s m (CELL_CTRL c.val) (.cell c.val)) && decide (shdOn s c.val = none) &&
        decide (cellState s c.val = 0)) = true ∧
    (let s : State := z [(CELL_STATUS 255, 0x80000000)]; let m : Master := 1; let c : Fin 256 := 255; decide (noSteps s) &&
        decide (unmasked s m) && decide (opens s m (CELL_CTRL c.val) (.cell c.val)) && decide (shdOn s c.val = none) &&
        decide (s.bt (CELL_STATUS c.val) 28 = false)) = true ∧
    (let s : State := z []; let m : Master := 1; let c : Fin 256 := 0; decide (noSteps s) && decide (unmasked s m) &&
        decide (opens s m (CELL_CTRL c.val) (.cell c.val)) && decide (shdOn s c.val = none) &&
        decide (donor s false c.val = false)) = true ∧
    (let s : State := z []; let m : Master := 1; let c : Fin 256 := 0; decide (noSteps s) && decide (unmasked s m) &&
        decide (opens s m (CELL_CTRL c.val) (.cell c.val)) && decide (shdOn s c.val = none) &&
        decide (donor s true c.val = false)) = true := by decide +kernel

theorem witness_CellAccesses :
    (let s : State := { z [] with fifo := [(511, [7])] }; let m : Master := 1; let c : Fin 256 := 255; decide (noSteps s) &&
        decide (unmasked s m) && decide (shdOn s c.val = none) && decide (opens s m (CELL_TXDATA c.val) (.cell c.val)) &&
        decide (fifoClosed s false c.val = false) && decide ((fifoOf s false c.val).length < depth s false c.val)) = true ∧
    (let s : State := { z [] with fifo := [(255, [7]), (511, [7])] }; let m : Master := 1; let c : Fin 256 := 255;
        decide (noSteps s) && decide (unmasked s m) && decide (shdOn s c.val = none) &&
        decide (opens s m (CELL_RXDATA c.val) (.cell c.val)) && decide (fifoClosed s true c.val = false) &&
        match fifoOf s true c.val with
      | _ :: _ => (true)
      | _ => false) = true ∧
    (let s : State := { z [] with fifo := [(511, [7])] }; let m : Master := 1; let c : Fin 256 := 255; let b : Bool := true;
        let e : Fin 128 := 127; let hi : Bool := true; decide (noSteps s) && decide (unmasked s m) &&
        decide (shdOn s c.val = none) && let a : Nat := CELL_BANK c.val (256 * b.toNat + 2 * e.val + hi.toNat);
        decide (opens s m a (.cell c.val)) && decide (s.bt (CELL_STATUS c.val) 28 = false) &&
        decide (cellState s c.val = 0 ∨ b ≠ s.bt (CELL_STATUS c.val) 29)) = true ∧
    (let s : State := z [(CELL_STATUS 255, 0xA0000000)]; let m : Master := 1; let c : Fin 256 := 255; let b : Bool := true;
        let e : Fin 128 := 127; let hi : Bool := true; decide (noSteps s) && decide (unmasked s m) &&
        decide (shdOn s c.val = none) &&
        decide (opens s m (CELL_BANK c.val (256 * b.toNat + 2 * e.val + hi.toNat)) (.cell c.val)) &&
        decide (cellState s c.val ≠ 0) && decide (b = s.bt (CELL_STATUS c.val) 29)) = true ∧
    (let s : State := { z [] with fifo := [(511, [7])] }; let m : Master := 1; let c : Fin 256 := 0; let v : Word := 0;
        decide (noSteps s) && decide (unmasked s m) && decide (shdOn s c.val = none) &&
        decide (opens s m (CELL_FIFOCFG c.val) (.cell c.val)) && decide (joinOk s c.val v = true) &&
        decide (c.val % 16 ≠ 15)) = true ∧
    (let s : State := { z [] with fifo := [(511, [7])] }; let m : Master := 1; let c : Fin 256 := 255; let v : Word := 0x102;
        decide (noSteps s) && decide (unmasked s m) && decide (shdOn s c.val = none) &&
        decide (opens s m (CELL_MODE c.val) (.cell c.val)) && decide (cellState s c.val = 0) && decide (fld v 1 0 ≠ 3) &&
        decide (modeOk s c.val v = true)) = true := by decide +kernel

theorem witness_CellEvents :
    (let s : State := { z [] with cellH := [(255, { due := 9 })] }; let c : Fin 256 := 255; let dt : Nat := 8;
        let u : State := elapse s dt; decide (cellLive u c.val = true) && decide (onGrid u c.val = true)) = true ∧
    (let s : State := { z [] with cellH := [(255, { ran := 9 })] }; let c : Fin 256 := 255; let dt : Nat := 8;
        let u : State := elapse s dt; decide (cellLive u c.val = true) && decide (onGrid u c.val = false)) = true ∧
    (let s : State := { z [] with cellH := [(255, { due := 9 })] }; let c : Fin 256 := 255; let dt : Nat := 8;
        let u : State := elapse s dt; decide (cellLive u c.val = true) && decide (onGrid u c.val = true) &&
        decide (shdOn u c.val = none) && decide (cellState u c.val = 0) && decide ((u.cell c.val).step = false)) = true ∧
    (let s : State := { z [(CELL_STATUS 255, 0x40000000), (CELL_BANK 255 1, 0x10)] with cellH := [(255, { due := 9 })] };
        let c : Fin 256 := 255; let dt : Nat := 8; let u : State := elapse s dt; decide (cellLive u c.val = true) &&
        let e : Entry := entryAt u c.val (u.fl (CELL_STATUS c.val) 29 29) (u.fl (CELL_STATUS c.val) 22 16);
        decide (onGrid u c.val = true) && decide (shdOn u c.val = none) && decide (startHolds u c.val = false) &&
        decide ((u.cell c.val).step = false) && decide ((u.cell c.val).cmdAt ≤ u.cycles) && decide (cellState u c.val = 1) &&
        decide (u.fl (CELL_STATUS c.val) 15 8 = 0) && decide (u.bt (CELL_STATUS c.val) 25 = false) &&
        decide (inPass u c.val = false) &&
        decide (e = ⟨e.target, 0, e.cpol, 0, 0, false, false, false, 2, 0, 0, 0, 0, 0, 0, 0, 0, 0, e.imm⟩)) = true ∧
    (let s : State := z [(CELL_CAPCFG 255, 3)]; let c : Fin 256 := 255; let dt : Nat := 8; let u : State := elapse s dt;
        decide (cellLive u c.val = true) && decide (u.fl (CELL_CAPCFG c.val) 1 0 = 3) &&
        decide (u.bt (CELL_TSA_SEC c.val) 7 = false)) = true ∧
    (let s : State := z []; let c : Fin 256 := 255; let dt : Nat := 8; let u : State := elapse s dt;
        decide (cellLive u c.val = true) && decide (cellLive s c.val = true)) = true := by decide +kernel

theorem witness_PulsesAndStarts :
    (let s : State := z []; let m : Master := 1; let hi : Bool := true; decide (unmasked s m) && decide (noSteps s) &&
        decide (opens s m (if hi then EVF_SWPULSE1 else EVF_SWPULSE0) .evf)) = true ∧
    (let s : State := z []; let m : Master := 1; decide (unmasked s m) && decide (noSteps s) &&
        decide (opens s m EVF_SGCMD .evf)) = true ∧
    (let s : State := z []; let g : Fin 32 := 31;
        decide (s.agenda.contains { at_ := s.cycles + 1, what := .members g.val } = false)) = true ∧
    (let s : State := z []; let c : Fin 256 := 255; decide (cellLive s c.val = true) &&
        decide ((s.cell c.val).cmdAt ≤ s.cycles) && decide (s.bt (CELL_SGRP c.val) 9 = false)) = true ∧
    (let s : State := z []; let ch : Fin 64 := 63; decide (cansOn s ch.val = []) &&
        decide (adcsOn s ch.val = [])) = true := by decide +kernel

theorem witness_CellDma :
    (let s : State := z [(EVF_DMA_BASE 31, 0x20FFF000), (EVF_DMA_LEN 31, 4)]; let m : Master := 1; let ch : Fin 32 := 31;
        let v : Word := 0x00FF0000; decide (noSteps s) && decide (opens s m (EVF_DMA_CFG ch.val) .evf) &&
        decide (s.bt (EVF_DMA_CFG ch.val) 31 = false) && decide (dmaBadEnable s ch.val (putBit v 31 true) = false)) = true ∧
    (let s : State := z [(EVF_DMA_CFG 31, 0x80000000)]; let m : Master := 1; let ch : Fin 32 := 31;
        let v : Word := 0x00FF0000; decide (noSteps s) && decide (opens s m (EVF_DMA_CFG ch.val) .evf) &&
        decide (s.bt (EVF_DMA_CFG ch.val) 31 = true) && decide (fld v 30 29 ≠ 3)) = true ∧
    (let s : State := z [(EVF_DMA_BASE 31, 0x20FFF000), (EVF_DMA_LEN 31, 4)]; let m : Master := 1; let ch : Fin 32 := 31;
        decide (noSteps s) && decide (opens s m (EVF_DMA_LEN ch.val) .evf) &&
        decide (s.bt (EVF_DMA_CFG ch.val) 31 = false)) = true ∧
    (let s : State := { z [(EVF_DMA_CFG 31, 0x80FF0000), (EVF_DMA_BASE 31, 0x20FFFFF0), (EVF_DMA_LEN 31, 2), (MEM_OWN 31, 14)] with fifo := [(511, [7]), (255, [7])] };
        let ch : Fin 32 := 31; decide (noSteps s) && decide (inReset s blkEvf = false) && decide (dmaTurn s = some ch.val) &&
        decide (s.dmaAt ≠ (s.cycles - s.clk0) / 2 + 1) && decide (shdOn s (s.fl (EVF_DMA_CFG ch.val) 23 16) = none) &&
        decide (s.bt (EVF_DMA_CFG ch.val) 31 = true) && decide (s.fl (EVF_DMA_CFG ch.val) 30 29 = 0) &&
        decide (closed s 14 (blkGrp (s.fl (EVF_DMA_CFG ch.val) 23 16 / 16)) = false) &&
        match fifoOf s true (s.fl (EVF_DMA_CFG ch.val) 23 16) with
      | _ :: _ => (let hw := s.fl (EVF_DMA_HWPTR ch.val) 15 0;
          decide ((hw + 1) % dmaLen s ch.val ≠ s.fl (EVF_DMA_SWPTR ch.val) 15 0) && decide (dmaLen s ch.val ≠ 0) &&
          let a := (s.rd (EVF_DMA_BASE ch.val)).toNat + 8 * hw; decide (a % 8 = 0) && decide (0x20000000 ≤ a) &&
          decide (a + 8 ≤ 0x21000000) && decide (owns s 14 (bankOf a) = true) && decide (testHeld s))
      | _ => false) = true := by decide +kernel

theorem witness_CheckUnits :
    (let s : State := z []; let m : Master := 8; let u : ChkUnit := .cell 255; let r : Region := .cell 255;
        let cu : Bool := true; let v : Word := 0x20; let b : Nat := chkBase u; decide (noSteps s) &&
        decide ((cu = false ∧ ∃ n : Fin 8, u = .pe n ∧ r = .chk n.val) ∨ (cu = true ∧ ∃ c : Fin 256, u = .cell c ∧ r = .cell c.val ∧ cellState s c.val = 0 ∧ shdOn s c.val = none ∧ unmasked s m)) &&
        decide (opens s m (CHK_CFG b) r) && decide (chkCfgBad cu v = false)) = true ∧
    (let s : State := z [(CHK_CFG 0x35007000, 32)]; let m : Master := 8; let u : ChkUnit := .pe 7; let r : Region := .chk 7;
        let cu : Bool := false; let p := .poly; let b : Nat := chkBase u; decide (noSteps s) &&
        decide ((cu = false ∧ ∃ n : Fin 8, u = .pe n ∧ r = .chk n.val) ∨ (cu = true ∧ ∃ c : Fin 256, u = .cell c ∧ r = .cell c.val ∧ cellState s c.val = 0 ∧ shdOn s c.val = none ∧ unmasked s m)) &&
        decide (opens s m (chkParamAt u p) r) && decide (s.fl (CHK_CFG b) 5 0 = 32)) = true ∧
    (let s : State := z []; let m : Master := 8; let u : ChkUnit := .pe 7; let r : Region := .chk 7; let cu : Bool := false;
        let b : Nat := chkBase u; decide (noSteps s) &&
        decide ((cu = false ∧ ∃ n : Fin 8, u = .pe n ∧ r = .chk n.val) ∨ (cu = true ∧ ∃ c : Fin 256, u = .cell c ∧ r = .cell c.val ∧ cellState s c.val = 0 ∧ shdOn s c.val = none ∧ unmasked s m)) &&
        decide (opens s m (CHK_CMD b) r)) = true ∧
    (let s : State := z []; let m : Master := 8; let u : ChkUnit := .pe 7; let r : Region := .chk 7; let cu : Bool := false;
        let b : Nat := chkBase u; decide (noSteps s) &&
        decide ((cu = false ∧ ∃ n : Fin 8, u = .pe n ∧ r = .chk n.val) ∨ (cu = true ∧ ∃ c : Fin 256, u = .cell c ∧ r = .cell c.val ∧ cellState s c.val = 0 ∧ shdOn s c.val = none ∧ unmasked s m)) &&
        decide (opens s m (CHK_CMD b) r) && decide (s.fl (CHK_CFG b) 9 8 = 0) &&
        decide (s.bt (CHK_STATE b) 31 = false)) = true ∧
    (let s : State := z []; let m : Master := 8; let u : ChkUnit := .pe 7; let r : Region := .chk 7; let cu : Bool := false;
        let f : FeedN := .n4; let n : Nat := 4; let b : Nat := chkBase u; decide (noSteps s) &&
        decide ((cu = false ∧ ∃ n : Fin 8, u = .pe n ∧ r = .chk n.val) ∨ (cu = true ∧ ∃ c : Fin 256, u = .cell c ∧ r = .cell c.val ∧ cellState s c.val = 0 ∧ shdOn s c.val = none ∧ unmasked s m)) &&
        decide ((f, n) ∈ [(.n1, 1), (.n2, 2), (.n4, 4)]) && decide (cu = false) && decide (opens s m (chkFeedAt u f) r) &&
        decide (chkW s b ≤ 32) && decide (s.fl (CHK_CFG b) 9 8 = 0) && decide (s.bt (CHK_STATE b) 31 = false) &&
        decide (s.bt (CHK_CFG b) 12 = false) && decide (s.bt (CHK_CFG b) 13 = false)) = true := by decide +kernel

theorem witness_ShadowCells :
    (let s : State := { z [(EVF_SHD_STATUS 15, 0x20000000)] with cycles := 128 }; let g : Fin 16 := 15;
        decide (inReset s (blkGrp g.val) = false) && decide (shdState s g.val = 1) &&
        decide ((s.shd g.val).since + 128 ≤ s.cycles)) = true ∧
    (let s : State := { z [(EVF_SHD_STATUS 15, 0x40000000)] with cycles := 1153 }; let g : Fin 16 := 15;
        decide (inReset s (blkGrp g.val) = false) && decide (shdState s g.val = 2) &&
        decide ((s.shd g.val).since + 129 + 2 ^ (s.fl (EVF_SHD_CTRL g.val) 7 4 + 10) ≤ s.cycles)) = true ∧
    (let s : State := { z [(EVF_SHD_STATUS 15, 0x40000000)] with shdH := [(15, { copy := some {} })] }; let g : Fin 16 := 15;
        let kind := 1; decide (inReset s (blkGrp g.val) = false) && decide (shdOn s (16 * g.val + shdCur s g.val) ≠ none) &&
        decide (kind ≠ 0)) = true ∧
    (let s : State := z [(EVF_SHD_STATUS 15, 0x60000000)]; let m : Master := 8; let g : Fin 16 := 15;
        decide (inReset s (blkGrp g.val) = false) && decide (noSteps s) &&
        decide (opens s m (EVF_SHD_CMD g.val) (.shd g.val)) && decide (shdState s g.val = 3)) = true ∧
    (let s : State := z [(EVF_SHD_STATUS 15, 0x20000000)]; let m : Master := 8; let g : Fin 16 := 15;
        decide (inReset s (blkGrp g.val) = false) && decide (noSteps s) &&
        decide (opens s m (EVF_SHD_CMD g.val) (.shd g.val)) && decide (shdState s g.val = 1 ∨ shdState s g.val = 2)) = true ∧
    (let s : State := z [(MEM_SUPV, 8)]; let m : Master := 8; let g : Fin 16 := 15;
        decide (inReset s (blkGrp g.val) = false) && decide (noSteps s) &&
        decide (opens s m (EVF_SHD_CMD g.val) (.shd g.val)) && decide (shdState s g.val ≠ 3) &&
        decide (shdState s g.val ≠ 4) && decide (supervisor s m.val = true)) = true := by decide +kernel

theorem witness_TimebasesAndPps :
    (let s : State := z []; let m : Master := 1; let n : Fin 4 := 3; decide (noSteps s) &&
        decide (opens s m (TU_TB_NS n.val) .tu)) = true ∧
    (let s : State := z []; let m : Master := 1; let n : Fin 4 := 3; let v : Word := 0x1; decide (noSteps s) &&
        decide (opens s m (TU_TB_RATE n.val) .tu) && decide (rateBad s n.val v = false)) = true ∧
    (let s : State := z []; let m : Master := 1; let n : Fin 4 := 3; decide (noSteps s) && let x : TB := s.tb n.val;
        decide (opens s m (TU_TB_CMD n.val) .tu) && decide (tbLocked s n.val = false) &&
        decide (s.rd (TU_TB_OFFSEC n.val) = 0) && decide (0 ≤ (s.rd (TU_TB_OFFNS n.val)).toInt) &&
        decide (x.ns + (s.rd (TU_TB_OFFNS n.val)).toNat < 1000000000) && decide (x.sec < 2 ^ 64)) = true ∧
    (let s : State := z []; let m : Master := 1; let n : Fin 4 := 3; decide (noSteps s) &&
        decide (opens s m (TU_TB_CMD n.val) .tu) && decide (tbLocked s n.val = false) &&
        decide ((s.rd (TU_TB_OFFNS n.val)).toNat < 1000000000)) = true ∧
    (let s : State := z []; let m : Master := 1; let v : Word := 0x1; decide (noSteps s) && decide (opens s m TU_CTRL .tu) &&
        decide (fld v 1 0 ≠ 3)) = true ∧
    (let s : State := z [(RST_CLKSTAT, 0x80000000)]; decide (noSteps s) && decide (inReset s blkTu = false) &&
        decide (s.bt RST_CLKSTAT 31 = true) && decide (s.fl TU_CTRL 1 0 ≠ 1 ∨ s.bt TU_STATUS 2 = true)) = true ∧
    (let s : State := z [(TU_CTRL, 1)]; decide (noSteps s) && decide (inReset s blkTu = false) &&
        decide (s.fl TU_CTRL 1 0 = 1)) = true ∧
    (let s : State := { z [(TU_PPS_CFG, 0x80000000), (RST_CLKSTAT, 0x80000000)] with tbs := [(0, ⟨0, 999999999, 0⟩)] };
        let dt : Nat := 1000; let u : State := elapse s dt; let n := u.fl TU_PPS_CFG 21 20; decide (ppsDriven u = true) &&
        decide (ppsCount u (s.tb n) < ppsCount u (u.tb n))) = true ∧
    (let s : State := z [(TU_PPS_CFG, 0x80000001), (RST_CLKSTAT, 0x80000000)]; let dt : Nat := 1000;
        let u : State := elapse s dt; decide (ppsDriven u = true) && decide (ppsHeld u = false) &&
        decide (u.pps.roseAt + u.fl TU_PPS_CFG 19 0 * 1000 ≤ u.cycles)) = true ∧
    (let s : State := z [(TU_PPS_STAT, 1)]; let dt : Nat := 1000; let u : State := elapse s dt; decide (ppsHeld u = true) &&
        decide (∀ n ∈ ppsPeriod u.pps, u.pps.roseAt + n ≤ u.cycles + 40)) = true ∧
    (let s : State := z [(TU_PPS_STAT, 1)]; let dt : Nat := 1000; let u : State := elapse s dt; decide (ppsHeld u = true) &&
        decide (u.pps.roseAt + u.pps.width * 1000 ≤ u.cycles + 40)) = true ∧
    (let s : State := { z [(TU_PPS_STAT, 1)] with cycles := 10000000000 }; let dt : Nat := 1000;
        let u : State := elapse s dt; decide (ppsHeld u = true) && decide (u.pps.heldAt + 10000000000 ≤ u.cycles)) = true ∧
    (let s : State := z [(TU_CAP_CFG 8, 0x80000000)]; let dt : Nat := 1000; let u : State := elapse s dt;
        decide (inReset u blkTu = false) && decide (u.bt (TU_CAP_CFG 8) 31 = true) &&
        decide (u.bt (TU_CAP_SEC 8) 7 = false)) = true := by decide +kernel

theorem witness_TriggerEntries :
    (let s : State := z [(TU_TRG_CTRL 1023, 0x83000000)]; let i : Fin 1024 := 1023; let dt := 1; let u := elapse s dt;
        decide (inReset u blkTu = false) && decide (trgOn u i.val = true) && decide (trgReached u i.val = true) &&
        decide (u.fl (TU_TRG_CTRL i.val) 27 24 = 3)) = true ∧
    (let s : State := z []; let m : Master := 1; let i : Fin 1024 := 1023; let v : Word := 3; decide (noSteps s) &&
        decide (opens s m (TU_TRG_CTRL i.val) .tu) && decide (trgOfStore s i.val = false) &&
        decide (trgOn s i.val = false) && decide (trgBadEnable s i.val v = false)) = true ∧
    (let s : State := z []; let m : Master := 1; let i : Fin 1024 := 1023; let v : Word := 3; decide (noSteps s) &&
        decide (opens s m (TU_TRG_CTRL i.val) .tu) && decide (trgOfStore s i.val = false) &&
        decide (fld v 27 24 < 7)) = true ∧
    (let s : State := z []; let m : Master := 1; decide (noSteps s) &&
        decide (opens s m TU_TSQ_W3 .tu)) = true := by decide +kernel

theorem witness_ImageStore :
    (let s : State := z [(IMG_PERIOD_LO, 100000), (IMG_LEAD, 10), (IMG_IMPDL, 1000), (IMG_TRIG, 0x10000), (IMG_DSTART_SECLO, 1)];
        let m : Master := 1; let v : Word := 0x08000104; decide (noSteps s) && let p : Nat := s.fl IMG_PTIDX 15 0;
        decide (opens s m IMG_PTW .img) && decide (s.bt IMG_CTRL 31 = false) && decide (bitAt v 7 = false) &&
        decide (ptBadWord v = false) && decide (ptSize v ≠ 0) && decide (ptClass v ≠ 6) &&
        decide (fld v 15 0 ≠ fld (s.pt p).entry 15 0) && decide (inMapping s p = false) &&
        decide (inExport s p = false ∨ ptClass v ≠ 3) &&
        decide (imgCost (s.setPt p { entry := v, s0 := ⟨true, 0, List.replicate (ptSize v) 0, 0x80, 0, 0, 0⟩ }).img ≤ 4194304)) = true ∧
    (let s : State := z [(IMG_PERIOD_LO, 100000), (IMG_LEAD, 10), (IMG_IMPDL, 1000), (IMG_TRIG, 0x10000), (IMG_DSTART_SECLO, 1)];
        let m : Master := 1; decide (noSteps s) && let a := s.fl IMG_TRIG 9 0; let b := s.fl IMG_TRIG 25 16;
        decide (opens s m IMG_CTRL .img) && decide (s.bt IMG_CTRL 31 = false) && decide (imgParamsOk s = true) &&
        decide (s.imgE ≤ imgK0 s - 1) && decide (imgK0 s < 2 ^ 48) && decide (a ≠ b) && decide (trgOn s a = false) &&
        decide (trgOn s b = false)) = true ∧
    (let s : State := z [(IMG_CTRL, 0x80000000)]; let m : Master := 1; decide (noSteps s) &&
        decide (opens s m IMG_CTRL .img) && decide (s.bt IMG_CTRL 31 = true)) = true ∧
    (let s : State := z [(IMG_PERIOD_LO, 100000), (IMG_LEAD, 10), (IMG_IMPDL, 1000), (IMG_TRIG, 0x10000), (IMG_DSTART_SECLO, 1)];
        let m : Master := 1; decide (noSteps s) && decide (opens s m IMG_PINCMD .img) && decide (pinHeld s = false)) = true ∧
    (let s : State := z [(IMG_PINSTAT, 0x80010000)]; let m : Master := 1; decide (noSteps s) &&
        decide (opens s m IMG_PINCMD .img) && decide (pinHeld s = true) && decide (s.fl IMG_PINSTAT 20 16 = m.val)) = true ∧
    (let s : State := { z [] with img := [(0, { entry := 0x104, s0 := { used := true, tag := 0, data := [1, 2, 3, 4] } })] };
        let m : Master := 1; let o : Fin 0x400000 := 0; let sz := (.w : Size); decide (noSteps s) &&
        decide (canIssue s m.val = true) && decide (admits m.val .imgWin = true) && decide (shut s m.val .imgWin = false) &&
        decide (o.val % sz.bytes = 0) && match pointRead s (o.val / 64) (bitAt (s.mrd m.val IMG_VIEW) 0) with
      | some (_, _) => (true)
      | _ => false) = true ∧
    (let s : State := { z [] with img := [(260, { entry := 0x0104 })] }; let m : Master := 1; let v : Word := 0x08000104;
        decide (noSteps s) && let p : Nat := fld v 15 0; let x := s.pt p; let w := x.entry;
        decide (opens s m IMG_WPUT .img) && decide (ptSize w ≠ 0) && decide (ptClass w = 1) &&
        decide (m.val = 1 + ptWid w % 8) && decide (bitAt s.wtsSet m.val = false)) = true ∧
    (let s : State := z [(IMG_PERIOD_LO, 100000), (IMG_LEAD, 10), (IMG_IMPDL, 1000), (IMG_TRIG, 0x10000), (IMG_DSTART_SECLO, 1)];
        let m : Master := 1; decide (noSteps s) && decide (opens s m IMG_EPOCH_LO .img)) = true := by decide +kernel

theorem witness_ExportImport :
    (let s : State := { z [(IMG_XDALO 15, 1), (IMG_XOFF 15, 1000), (IMG_PERIOD_LO, 100000)] with xlist := [(960, 7)], img := [(7, { entry := 0x04 })] };
        let m : Master := 1; let v : Word := 1; let x : Fin 16 := 15; decide (noSteps s) &&
        decide (opens s m (IMG_XCFG x.val) .img) && decide (s.bt (IMG_XCFG x.val) 31 = false) &&
        decide (xBad s x.val v = false)) = true ∧
    (let s : State := { z [(IMG_XDALO 15, 1), (IMG_XOFF 15, 1000), (IMG_PERIOD_LO, 100000)] with xlist := [(960, 7)], img := [(7, { entry := 0x04 })] };
        let m : Master := 1; let x : Fin 16 := 15; decide (noSteps s) && decide (opens s m (IMG_XCFG x.val) .img)) = true ∧
    (let s : State := { z [] with xpend := [⟨15, [], 0, 0, 1⟩] }; let x : Fin 16 := 15; let dt := 0; decide (noSteps s) &&
        let u := elapse s dt; decide (inReset u blkImg = false) && decide (u.xpend.any (fun f => f.set == x.val) = true) &&
        decide (commitAt u u.imgE + (u.rd (IMG_XOFF x.val)).toNat ≤ now0 u + 1000)) = true ∧
    (let s : State := { z [] with swq := [(119, [{ da := [], sa := [], body := [], len := 64, src := 14, cls := 0, bad := true }])] };
        let dt := 0; let q := 119; decide (noSteps s) && let u := elapse s dt; decide (inReset u blkImg = false) &&
        decide (swLive u = true) && decide (112 ≤ q) && decide (q < 120) && match swQueue u q with
      | x :: _ => (decide (waitsLaunch u q x = false) &&
          decide (∀ p < (120 : Nat), p ≤ q ∨ (swQueue u p).head?.all (waitsLaunch u p) = true))
      | _ => false) = true ∧
    (let s : State := { z [] with swq := [(119, [{ da := [], sa := [], body := [], len := 64, src := 14, cls := 0, bad := true }])] };
        let dt := 0; let q := 119; decide (noSteps s) && let u := elapse s dt; decide (inReset u blkImg = false) &&
        decide (swLive u = true) && decide (112 ≤ q) && decide (q < 120) && match swQueue u q with
      | x :: _ => (decide (waitsLaunch u q x = false) &&
          decide (∀ p < (120 : Nat), p ≤ q ∨ (swQueue u p).head?.all (waitsLaunch u p) = true) && decide (x.bad = true))
      | _ => false) = true ∧
    (let s : State := { z [(IMG_CTRL, 0x80000000)] with missDue := true }; let dt := 0; decide (noSteps s) &&
        let u := elapse s dt; decide (inReset u blkImg = false) && decide (u.missDue = true) &&
        decide (u.bt IMG_CTRL 31 = true) && decide (commitAt u u.imgE + imgD u ≤ now0 u) &&
        decide ((u.subs.map (·.1)).Nodup)) = true ∧
    (let s : State := { z [(IMG_XDALO 15, 1), (IMG_XOFF 15, 1000), (IMG_PERIOD_LO, 100000)] with xlist := [(960, 7)], img := [(7, { entry := 0x04 })] };
        let m : Master := 1; let v : Word := 1; decide (noSteps s) && let i := s.fl IMG_SBIDX 7 0;
        decide (opens s m IMG_SBW0 .img) && decide (bitAt (s.sub i).w0 31 = false) &&
        decide (bitAt v 31 = false ∨ (fld v 29 16 ≠ s.fl IMG_DEVID 13 0 ∧ s.subs.all (fun e => e.1 == i || !bitAt e.2.w0 31 || fld e.2.w0 29 16 != fld v 29 16 || fld e.2.w0 3 0 != fld v 3 0) = true))) = true ∧
    (let s : State := { z [(IMG_XDALO 15, 1), (IMG_XOFF 15, 1000), (IMG_PERIOD_LO, 100000)] with xlist := [(960, 7)], img := [(7, { entry := 0x04 })] };
        let m : Master := 1; let v : Word := 1; let w1 : Bool := true; decide (noSteps s) && let i := s.fl IMG_MPIDX 11 0;
        decide (opens s m (if w1 then IMG_MPW1 else IMG_MPW0) .img) &&
        let x := (if w1 then { s.mapg i with w1 := v } else { s.mapg i with w0 := v &&& 0x800000FF });
        decide (bitAt (s.sub (fld (s.mapg i).w0 7 0)).w0 31 = false) &&
        decide (bitAt (s.sub (fld x.w0 7 0)).w0 31 = false) &&
        decide (bitAt x.w0 31 = true → mapOk s i x = true)) = true := by decide +kernel

theorem witness_CanControllers :
    (let s : State := z [(CAN_NBT 31, 0x001F1F07), (CELL_MODE 3, 0x1F01)]; let m : Master := 1; let n : Fin 32 := 31;
        let k : Nat := n.val; decide (noSteps s) && decide (opens s m (CAN_CTRL k) (.can k)) && decide (canState s k = 0) &&
        decide (canBound s k = true) && decide (canTimingOk s k = true)) = true ∧
    (let s : State := z [(CAN_STATUS 31, 0x80000000)]; let m : Master := 1; let n : Fin 32 := 31; let k : Nat := n.val;
        decide (noSteps s) && decide (opens s m (CAN_CTRL k) (.can k)) && decide (canState s k = 1 ∨ canState s k = 2) &&
        decide (s.bt (CAN_STATUS k) 27 = false)) = true ∧
    (let s : State := z [(CAN_STATUS 31, 0xC0000000)]; let m : Master := 1; let n : Fin 32 := 31; let k : Nat := n.val;
        decide (noSteps s) && decide (opens s m (CAN_CTRL k) (.can k)) && decide (canState s k = 3)) = true ∧
    (let s : State := z [(CAN_STATUS 31, 0x80000000)]; let m : Master := 1; let n : Fin 32 := 31; let b : Fin 3 := 2;
        let v : Word := 0; let k : Nat := n.val; decide (noSteps s) && decide (opens s m (CAN_TXB_CTRL k b.val) (.can k)) &&
        decide (s.bt (CAN_TXB_STAT k b.val) 31 = false) &&
        decide (canInconsistent s k v (s.rd (CAN_TXB_ID k b.val)) = false)) = true ∧
    (let s : State := z [(CAN_TXB_STAT 31 2, 0x80000000)]; let m : Master := 1; let n : Fin 32 := 31; let b : Fin 3 := 2;
        let k : Nat := n.val; decide (noSteps s) && decide (opens s m (CAN_TXB_CTRL k b.val) (.can k)) &&
        decide (s.bt (CAN_TXB_STAT k b.val) 31 = true)) = true ∧
    (let s : State := { z [] with canRx := [(31, [⟨{ id := 5, ide := false, fdf := false, brs := false, esi := false, rtr := false, dlc := 1, data := [7] }, 3, 0, 1, 2, 3⟩])] };
        let m : Master := 1; let n : Fin 32 := 31; let k : Nat := n.val; decide (noSteps s) &&
        decide (opens s m (CAN_RXCMD k) (.can k)) && match canFifo s k with
      | _ :: _ => (true)
      | _ => false) = true ∧
    (let s : State := z [(CAN_STATUS 31, 0x40000000)]; let n : Fin 32 := 31; let k : Nat := n.val; decide (noSteps s) &&
        decide (canIn s k 1 = true)) = true ∧
    (let s : State := z [(CAN_STATUS 31, 0x80000000), (CAN_TXB_STAT 31 2, 0x80000000)]; let n : Fin 32 := 31;
        let k : Nat := n.val; decide (noSteps s) && decide (canIn s k 2 = true) && decide (s.bt (CAN_STATUS k) 27 = false) &&
        decide (s.fl (CAN_CFG k) 1 0 ≠ 1) && match canChoose s k (canRequested s k) with
      | some _ => (true)
      | _ => false) = true ∧
    (let s : State := z [(CELL_MODE 3, 0x1F01), (CAN_STATUS 31, 0x80000000)]; let n : Fin 32 := 31; let dt := 0;
        let len := 1000;
        let f : CanFrame := { id := 5, ide := false, fdf := false, brs := false, esi := false, rtr := false, dlc := 1, data := [7] };
        let k : Nat := n.val; decide (noSteps s) && let u := elapse s dt; decide (canIn u k 2 = true) &&
        decide (canHears u k = true) && decide (f.fdf = true → u.bt (CAN_CFG k) 2 = true) && let z := canFrameStart u k;
        let own := smGet (z.tb 0) z.canSof k; let w := elapse z len; decide (canIn w k 2 = true) && decide (f.rtr = false) &&
        decide (w.bt (CAN_CFG k) 6 = false) && decide ((canFifo w k).length < 32) && match canStamp w k true own with
      | (_, _, _, _) => (true)) = true ∧
    (let s : State := z [(CELL_MODE 3, 0x1F01), (CAN_STATUS 31, 0x80000000), (CAN_TXB_STAT 31 2, 0xC0000000)];
        let n : Fin 32 := 31; let dt := 0; let e := CanEnd.sent; let k : Nat := n.val; decide (noSteps s) &&
        let u := elapse s dt; decide (canIn u k 2 = true) && match canActive u k with
      | some _ => (decide (canEndOk u k e = true))
      | _ => false) = true ∧
    (let s : State := z [(CELL_MODE 3, 0x1F01), (CAN_STATUS 31, 0x80000000), (CAN_TXB_STAT 31 2, 0xC0000000)];
        let n : Fin 32 := 31; let dt := 0; let len := 1000; let e := CanEnd.sent; let k : Nat := n.val; decide (noSteps s) &&
        let u := elapse s dt; decide (canIn u k 2 = true) && match canActive u k with
      | some c => (decide (canEndOk u k e = true) && let z := elapse (pulsesCan u (canSofPulse u k)) len;
          decide (canActive z k = some c))
      | _ => false) = true ∧
    (let s : State := z [(CELL_MODE 3, 0x1F01), (CAN_STATUS 31, 0x80000000), (CAN_TXB_STAT 31 2, 0xC0000000)];
        let n : Fin 32 := 31; let dt := 0; let len := 1000; let e := CanEnd.sent; let k : Nat := n.val; decide (noSteps s) &&
        let u := elapse s dt; decide (canIn u k 2 = true) && match canActive u k with
      | some c => (decide (canEndOk u k e = true) && let z := elapse (pulsesCan u (canSofPulse u k)) len;
          decide (canActive z k = some c) && decide (e = .sent))
      | _ => false) = true ∧
    (let s : State := z [(CAN_STATUS 31, 0x80000000)]; let n : Fin 32 := 31; let k : Nat := n.val; decide (noSteps s) &&
        decide (canIn s k 2 = true) && decide (s.fl (CAN_CFG k) 1 0 ≠ 1)) = true ∧
    (let s : State := z [(CELL_MODE 3, 0x1F01), (CAN_STATUS 31, 0x80000000)]; let n : Fin 32 := 31; let k : Nat := n.val;
        decide (noSteps s) && decide (canIn s k 2 = true) && decide (s.fl (CAN_CFG k) 1 0 ≠ 1) &&
        decide (canHears s k = true) && decide (s.bt (CAN_STATUS k) 27 = false)) = true ∧
    (let s : State := z [(CAN_STATUS 31, 0xC0000000)]; let n : Fin 32 := 31; let j := 128; let k : Nat := n.val;
        decide (noSteps s) && decide (canIn s k 3 = true) && decide (128 ≤ s.fl (CAN_STATUS k) 7 0 + j) &&
        decide (s.bt (CAN_STATUS k) 25 = false) && decide (bitAt s.canStopping k = false)) = true ∧
    (let s : State := z [(CELL_MODE 3, 0x1F01), (CAN_STATUS 31, 0x80000000)]; let n : Fin 32 := 31; let k : Nat := n.val;
        decide (noSteps s) && decide (canIn s k 2 = true) && decide (canHears s k = true)) = true := by decide +kernel

theorem witness_HuxonCommands :
    (let s : State := huxon 0; let m : Master := 1; let n : Fin 32 := 31; let k : Nat := n.val; decide (noSteps s) &&
        decide ((List.range 32).all (fun q => (s.hx q).tx.isNone) = true) && decide (opens s m (HX_CTRL k) (.hx k)) &&
        decide (hxState s k = 0) && let s0 := s.setBt (HX_STATUS k) 25 false;
        match hxRead s0 k (s0.rd (HX_SCHBASE k)).toNat (16 * hxSlots s0 k) with
      | (s1, some _) => (decide (noSteps s1) && decide (startOk s1 k = true) && decide (badSlot s1 k = none))
      | _ => false) = true ∧
    (let s : State := huxon 0x40000000; let m : Master := 1; let n : Fin 32 := 31; let k : Nat := n.val;
        decide (noSteps s) && decide ((List.range 32).all (fun q => (s.hx q).tx.isNone) = true) &&
        decide (opens s m (HX_CTRL k) (.hx k)) && decide (hxState s k = 4)) = true ∧
    (let s : State := huxon 0x10000000; let m : Master := 1; let n : Fin 32 := 31; let k : Nat := n.val;
        decide (noSteps s) && decide ((List.range 32).all (fun q => (s.hx q).tx.isNone) = true) &&
        decide (opens s m (HX_CTRL k) (.hx k)) &&
        decide (hxState s k = 1 ∨ hxState s k = 2 ∨ hxState s k = 3 ∨ hxState s k = 6)) = true ∧
    (let s : State := huxon 0x10000000; let m : Master := 1; let n : Fin 32 := 31; let k : Nat := n.val;
        decide (noSteps s) && decide ((List.range 32).all (fun q => (s.hx q).tx.isNone) = true) &&
        decide (opens s m (HX_CTRL k) (.hx k)) && decide (hxState s k ≠ 0)) = true ∧
    (let s : State := huxon 0; let m : Master := 1; let n : Fin 32 := 31; let v : Word := 0x80010002; let k : Nat := n.val;
        decide (noSteps s) && decide ((List.range 32).all (fun q => (s.hx q).tx.isNone) = true) &&
        decide (opens s m (HX_DTXCTL k) (.hx k)) && decide (fld v 7 0 < 128) &&
        decide (s.bt (HX_DTXCTL k) 31 = false)) = true ∧
    (let s : State := huxon 0; let m : Master := 1; let n : Fin 32 := 31; let v : Word := 0x80010002; let k : Nat := n.val;
        decide (noSteps s) && decide ((List.range 32).all (fun q => (s.hx q).tx.isNone) = true) &&
        decide (opens s m (HX_DTXCTL k) (.hx k)) && decide (fld v 7 0 < 128) && decide ((s.hx k).tx = none) &&
        decide (s.bt (HX_DTXCTL k) 31 = true → fld v 29 24 = s.fl (HX_DTXCTL k) 29 24 ∧ fld v 7 0 = s.fl (HX_DTXCTL k) 7 0)) = true ∧
    (let s : State := huxon 0x40000000; let m : Master := 1; let n : Fin 32 := 31; let v : Word := 0x80010002;
        let k : Nat := n.val; decide (noSteps s) && decide ((List.range 32).all (fun q => (s.hx q).tx.isNone) = true) &&
        decide (opens s m (HX_CLAIM k) (.hx k)) && decide (hxRole s k = 0) && decide (1 ≤ hxAddr s k) &&
        decide (hxAddr s k ≤ 62) && decide (hxState s k = 4) && decide (polledAddr s k (hxAddr s k) = false) &&
        decide (s.fl (HX_CLAIM k) 7 0 = 0xFF) && decide (fld v 23 16 = 0xFF ∨ isTwilight s k (fld v 23 16) = true)) = true ∧
    (let s : State := huxon 0; let m : Master := 1; let n : Fin 32 := 31; let k : Nat := n.val; decide (noSteps s) &&
        decide ((List.range 32).all (fun q => (s.hx q).tx.isNone) = true) && decide (opens s m (HX_CLAIM k) (.hx k)) &&
        decide ((s.hx k).tx = none)) = true ∧
    (let s : State := huxon 0x50000000; let m : Master := 1; let n : Fin 32 := 31; let v : Word := 0x80010002;
        let k : Nat := n.val; decide (noSteps s) && decide ((List.range 32).all (fun q => (s.hx q).tx.isNone) = true) &&
        decide (opens s m (HX_GRANT k) (.hx k)) && decide (hxState s k = 5) &&
        decide (isTwilight s k (fld v 23 16) = true) && decide (fld v 5 0 ≠ 63) &&
        decide ((s.hx k).grants.length < 8)) = true := by decide +kernel

theorem witness_HuxonFramesAndTimers :
    (let s : State := { (huxon 0x50000000) with cycles := 5000000, hxH := [(31, { exp := 4999000 })] }; let n : Fin 32 := 31;
        let dt : Nat := 0; let k : Nat := n.val; let u : State := elapse s dt; decide (hxLive u k = true) &&
        decide (hxState u k = 5) && decide ((u.hx k).first = false) && decide ((u.hx k).stopping = false) &&
        decide (u.bt (HX_EVCFG k) 15 = false) && decide ((u.hx k).exp ≤ u.cycles)) = true ∧
    (let s : State := { (huxon 0x50000000) with cycles := 5000000, hxH := [(31, { ref := 4900000 })] }; let n : Fin 32 := 31;
        let dt : Nat := 0; let k : Nat := n.val; let u : State := elapse s dt; decide (hxLive u k = true) &&
        let j := (u.hx k).next; let c0 := (u.hx k).ref + (hxEntry u k j).start; decide (hxState u k = 5) &&
        decide ((u.hx k).first = false) && decide (j < hxSlots u k) && decide (c0 ≤ u.cycles) &&
        let s1 := ((u.setHx k { u.hx k with next := j + 1, await := none, late := none }).setFl (HX_STATUS k) 23 16 j).setFl (HX_STATUS k) 15 14 1;
        match hxFetched s1 k j with
      | (s2, q) => (decide (q.ok = true) && let e := hxEntryOf q.entry;
          let a := (if e.kind = 2 then twAddr s2 k j else e.addr % 64); decide (a ≠ 0) && decide (a ≠ hxAddr s2 k))) = true ∧
    (let s : State := { (huxon 0x40000000) with cycles := 5000000, hxH := [(31, { ref := 4800000, due := some 0 })] };
        let n : Fin 32 := 31; let dt : Nat := 0; let k : Nat := n.val; let u : State := elapse s dt;
        decide (hxLive u k = true) && match (u.hx k).due with
      | some j => (let e := hxEntry u k j; let c0 := (u.hx k).ref + e.start + actionOff u k e; decide (hxState u k = 4) &&
          decide (c0 ≤ u.cycles) && decide (u.bt (HX_STATUS k) 27 = false) &&
          let s1 := u.setHx k { u.hx k with due := none }; match hxFetched s1 k j with
        | (_, q) => (decide (q.ok = true)))
        | _ => false) = true ∧
    (let s : State := { ((huxon 0x40008000).setBt (HX_DTXCTL 31) 31 true) with cycles := 5000000, hxH := [(31, { ref := 4200000, idleFrom := 4900000 })] };
        let n : Fin 32 := 31; let dt : Nat := 0; let k : Nat := n.val; let u : State := elapse s dt;
        decide (hxLive u k = true) && decide (hxState u k = 4 ∨ hxState u k = 5) && decide (u.fl (HX_STATUS k) 15 14 = 2) &&
        decide (u.bt (HX_STATUS k) 27 = false) && decide (hxAddr u k ≠ 63) && decide ((u.hx k).tx = none) &&
        decide (u.bt (HX_CLAIM k) 31 = false) && decide (u.bt (HX_DTXCTL k) 31 = true) &&
        decide (max ((u.hx k).ref + hxDusk u k) (u.hx k).idleFrom + (12 + 2 * hxAddr u k) * hxTb u k ≤ u.cycles) &&
        decide (u.cycles + hxDur u k (duskPayload u k).length + hxG u k ≤ (u.hx k).ref + hxLen u k)) = true ∧
    (let s : State := { (huxon 0x40000000) with cycles := 5000000, hxH := [(31, { ref := 4900000 })] }; let n : Fin 32 := 31;
        let dt : Nat := 0; let len := 1000; let k : Nat := n.val; let u : State := elapse s dt; decide (hxLive u k = true) &&
        decide (hxHears u k = true) && decide (∀ t ∈ hxNextDue u k, u.cycles + len < t)) = true ∧
    (let s : State := { (huxon 0x50000000) with cycles := 5000000, hxH := [(31, { ref := 4900000 })] }; let n : Fin 32 := 31;
        let dt : Nat := 0; let l := [1, 2]; let framing := true; let len := 1000; let k : Nat := n.val;
        let u : State := elapse s dt; decide (hxLive u k = true) && decide (hxHears u k = true) &&
        decide (∀ t ∈ hxNextDue u k, u.cycles + len < t) && let v := elapse (hxHear u k) len; let ts := hxStamp v k (u.tb 0);
        let o := ((u.cycles : Int) + stampDiff ts (u.tb 0)).toNat - (v.hx k).ref;
        decide (l.length < 3 ∨ (framing = true ∧ hxFormatOk (l.take (max 3 (hxBytes (l.getD 2 0).toNat))) = true)) &&
        decide (recordSlot v k o = none)) = true ∧
    (let s : State := { (huxon 0x10000000) with cycles := 5000000, hxH := [(31, { ref := 0 })] }; let n : Fin 32 := 31;
        let dt : Nat := 0; let k : Nat := n.val; let u : State := elapse s dt; decide (hxLive u k = true) &&
        decide (hxState u k = 1)) = true ∧
    (let s : State := { (huxon 0x50000000) with cycles := 5000000, hxH := [(31, { ref := 4000000, await := some 1 })] };
        let n : Fin 32 := 31; let dt : Nat := 0; let j : Fin 256 := 1; let k : Nat := n.val; let u : State := elapse s dt;
        decide (inReset u (blkHx k) = false) && decide (hxState u k = 5) && decide (j.val < hxSlots u k) &&
        decide ((u.hx k).recd.contains j.val = false) && decide ((u.hx k).await = some j.val) && let e := hxEntry u k j.val;
        decide ((u.hx k).ref + e.start + actionOff u k e + hxW u k ≤ u.cycles)) = true ∧
    (let s : State := { ((huxon 0x40000000).setFl (HX_CFG 31) 21 16 2) with cycles := 5000000, hxH := [(31, { ref := 4000000 })] };
        let n : Fin 32 := 31; let dt : Nat := 0; let j : Fin 256 := 0; let k : Nat := n.val; let u : State := elapse s dt;
        decide (inReset u (blkHx k) = false) && decide (hxState u k = 4) && decide (j.val < hxSlots u k) &&
        decide ((u.hx k).recd.contains j.val = false) && decide (slotAddr u k j.val = hxAddr u k) &&
        decide (hxAddr u k ≠ 63) && decide ((u.hx k).ref + (hxEntry u k j.val).start + hxW u k ≤ u.cycles)) = true ∧
    (let s : State := { (huxon 0x50000000) with cycles := 5000000, hxH := [(31, { ref := 4000000 })] }; let n : Fin 32 := 31;
        let dt : Nat := 0; let k : Nat := n.val; let u : State := elapse s dt; decide (inReset u (blkHx k) = false) &&
        decide (hxState u k = 4 ∨ hxState u k = 5) && decide ((u.hx k).first = false) &&
        decide ((u.hx k).ref + hxDusk u k ≤ u.cycles) && decide (u.fl (HX_STATUS k) 15 14 ≠ 2)) = true ∧
    (let s : State := { (huxon 0x40000000) with cycles := 5000000, hxH := [(31, { tx := some { typ := 6, slot := 255, endAt := 6000000, data := [] } })] };
        let n : Fin 32 := 31; let dt : Nat := 0; let k : Nat := n.val; let u : State := elapse s dt;
        decide (inReset u (blkHx k) = false) && decide (hxLive u k = true) && match (u.hx k).tx with
      | some x => (decide (x.typ = 3 ∨ x.typ = 6))
      | _ => false) = true ∧
    (let s : State := { ((huxon 0x10000000).setFl (HX_CFG 31) 26 24 1) with cycles := 5000000, hxH := [(31, { since := 0 })] };
        let n : Fin 32 := 31; let dt : Nat := 0; let k : Nat := n.val; let u : State := elapse s dt;
        decide (inReset u (blkHx k) = false) && decide (hxState u k = 1) && decide (hxRank u k ≠ 0) &&
        decide ((u.hx k).since + 2 * hxLen u k + hxRank u k * hxU u k ≤ u.cycles)) = true ∧
    (let s : State := { (huxon 0x20000000) with cycles := 5000000, hxH := [(31, { brk := 2 })] }; let n : Fin 32 := 31;
        let dt : Nat := 0; let k : Nat := n.val; let u : State := elapse s dt; decide (inReset u (blkHx k) = false) &&
        decide (hxState u k = 2) && decide ((u.hx k).brk = 2) && decide ((u.hx k).since + 5 * hxU u k ≤ u.cycles)) = true ∧
    (let s : State := { (huxon 0x20000000) with cycles := 5000000, hxH := [(31, { brk := 4 })] }; let n : Fin 32 := 31;
        let dt : Nat := 0; let k : Nat := n.val; let u : State := elapse s dt; decide (inReset u (blkHx k) = false) &&
        decide (hxState u k = 2) && decide ((u.hx k).brk = 4) &&
        decide ((u.hx k).since + hxRank u k * hxU u k ≤ u.cycles)) = true ∧
    (let s : State := { (huxon 0x30000000) with cycles := 5000000, hxH := [(31, { ref := 0 })] }; let n : Fin 32 := 31;
        let dt : Nat := 0; let k : Nat := n.val; let u : State := elapse s dt; decide (inReset u (blkHx k) = false) &&
        decide ((u.hx k).ref + hxLen u k + 4 * hxBk u k + hxW u k ≤ u.cycles) && decide (hxState u k = 3)) = true ∧
    (let s : State := { (huxon 0x40000000) with cycles := 5000000, hxH := [(31, { ref := 0 })] }; let n : Fin 32 := 31;
        let dt : Nat := 0; let k : Nat := n.val; let u : State := elapse s dt; decide (inReset u (blkHx k) = false) &&
        decide ((u.hx k).ref + hxLen u k + 4 * hxBk u k + hxW u k ≤ u.cycles) && decide (hxState u k = 4) &&
        decide (u.fl (HX_SUSTAT k) 1 0 < 2)) = true ∧
    (let s : State := { (huxon 0x60000000) with cycles := 5000000, hxH := [(31, { since := 0 })] }; let n : Fin 32 := 31;
        let dt : Nat := 0; let k : Nat := n.val; let u : State := elapse s dt; decide (inReset u (blkHx k) = false) &&
        decide (hxState u k = 6) && decide ((u.hx k).since + hxLen u k ≤ u.cycles)) = true ∧
    (let s : State := { ((huxon 0x40000000).setFl (HX_CFG 31) 31 30 2 |>.setFl (HX_BKDLY 31) 19 0 6000) with cycles := 5000000, hxH := [(31, { ref := 3900000 })] };
        let n : Fin 32 := 31; let dt : Nat := 0; let k : Nat := n.val; let u : State := elapse s dt;
        decide (inReset u (blkHx k) = false) && match standby u k with
      | some i => (let a := (u.hx k).ref + hxLen u k + i * hxBk u k; decide (hxState u k = 4) && decide (hxBk u k ≠ 0) &&
          decide (u.bt (HX_STATUS k) 27 = false) && decide ((u.hx k).stopping = false) && decide (a ≤ u.cycles) &&
          decide ((u.hx k).heard + hxW u k ≤ (u.hx k).ref + hxLen u k))
      | _ => false) = true ∧
    (let s : State := { (huxon 0x40000000) with cycles := 5000000, hxH := [(31, { ref := 0, stopping := true })] };
        let n : Fin 32 := 31; let dt : Nat := 0; let k : Nat := n.val; let u : State := elapse s dt;
        decide (inReset u (blkHx k) = false) && decide (hxState u k ≠ 0) && decide (hxState u k ≠ 6) &&
        decide ((u.hx k).stopping = true) && decide ((u.hx k).ref + hxLen u k ≤ u.cycles)) = true := by decide +kernel

theorem witness_SwitchFrames :
    (let s : State := z [(SW_P_LINK 11, 0x80000000), (SW_P_CFG 11, 0xC00005F2), (SW_VLAN 0, 0xFFFF)]; let p : Fin 12 := 11;
        let dt : Nat := 0; let d := [2, 2, 3, 4, 5, 6, 2, 2, 2, 2, 2, 2, 8, 0] ++ List.replicate 46 5; let busy := 0;
        let sub : Fin 8 := 7; let rest := 0; let csub : Fin 8 := 0; let u : State := elapse s dt; decide (swLive u = true) &&
        decide (linkUp u p.val = true) && let w := elapse u rest; decide (swLive w = true) &&
        decide (linkUp w p.val = true) && decide (60 ≤ d.length) && decide (d.length + 4 ≤ maxLen w p.val) &&
        decide (beNat ((d.drop 12).take 2) ≠ 0x8808) && decide (hashPass w p.val (d.take 6) = true) &&
        decide (portState w p.val ≠ 0) && decide (prpPair w p.val = none) && let x := parseFrame d;
        decide (ptpEvent w x.body = none) &&
        let y := { da := x.da, sa := x.sa, tci := x.tci, rseq := x.rseq, body := x.body, len := d.length + 4, src := p.val, cls := 0, sec := (split125 (ingressAt u p.val 0 sub.val)).1, ns := (split125 (ingressAt u p.val 0 sub.val)).2.1, sub := (split125 (ingressAt u p.val 0 sub.val)).2.2, tIn := ingressAt u p.val 0 sub.val, bad := false };
        match forward (w.wrapInc (SW_P_CNT0 p.val) 31 0) y none with
      | (w1, some f) => (decide (noSteps (sendAll w1 f busy csub.val)))
      | _ => false) = true ∧
    (let s : State := z [(SW_P_LINK 11, 0x80000000), (SW_P_CFG 11, 0xC00005F2), (SW_VLAN 0, 0xFFFF)]; let p : Fin 12 := 11;
        let dt : Nat := 0; let d := List.replicate 40 5; let u : State := elapse s dt; decide (swLive u = true) &&
        decide (linkUp u p.val = true) && decide (noSteps u) && decide (d.length < 60) &&
        decide (d.length + 4 ≤ maxLen u p.val)) = true ∧
    (let s : State := { z [(SW_P_LINK 11, 0x80000000), (SW_P_CFG 11, 0xC00005F2), (SW_VLAN 0, 0xFFFF)] with swq := [(95, [{ da := [1, 2, 3, 4, 5, 6], sa := [2, 2, 2, 2, 2, 2], body := List.replicate 48 7, len := 64, src := 3, cls := 7 }])] };
        let p : Fin 12 := 11; let dt : Nat := 0; let u : State := elapse s dt; decide (swLive u = true) &&
        decide (linkUp u p.val = true) && decide (bitAt u.serCal (p.val + 2) = false) && match nextClass u p.val with
      | some c => (match swQueue u (8 * p.val + c) with
        | _ :: _ => (true)
        | _ => false)
      | _ => false) = true ∧
    (let s : State := { z [(SW_P_LINK 11, 0x80000000), (SW_P_CFG 11, 0xC00005F2), (SW_VLAN 0, 0xFFFF)] with swHold := [(95, true)], cycles := 1000000000 };
        let p : Fin 12 := 11; let dt : Nat := 0; let c : Fin 8 := 7; let q : Fin 16 := 11; let u : State := elapse s dt;
        decide (swLive u = true) && decide (linkUp u p.val = true) && decide (q.val = p.val) && decide (swLive s = true) &&
        decide (held s p.val c.val = true) &&
        decide (smGet 0 s.pfcAt (8 * p.val + c.val) + quantaTime s p.val (s.fl (SW_P_PFC p.val) 15 0 / 2) ≤ s.cycles)) = true ∧
    (let s : State := z [(SW_P_LINK 11, 0x80000000), (SW_P_CFG 11, 0xC00005F2), (SW_VLAN 0, 0xFFFF)]; let p : Fin 12 := 11;
        let dt : Nat := 0; let u : State := elapse s dt; decide (swLive u = true) && decide (linkUp u p.val = true) &&
        decide (swLive s = true) && decide (linkUp s p.val = true)) = true ∧
    (let s : State := { z [(SW_P_LINK 11, 0x80000000), (SW_P_CFG 11, 0xC00005F2), (SW_VLAN 0, 0xFFFF)] with swPause := [(95, 1000)] };
        let p : Fin 12 := 11; let dt : Nat := 0; let c : Fin 8 := 7; let u : State := elapse s dt;
        decide (swLive u = true) && decide (linkUp u p.val = true) && decide (paused s p.val c.val = true)) = true ∧
    (let s : State := z [(SW_P_LINK 11, 0x80000000), (SW_P_CFG 11, 0xC00005F2), (SW_VLAN 0, 0xFFFF)]; let p : Fin 12 := 11;
        let dt : Nat := 0; let c : Fin 8 := 7; let u : State := elapse s dt; decide (swLive u = true) &&
        decide (linkUp u p.val = true) && decide (paused s p.val c.val = false)) = true ∧
    (let s : State := z [(SW_P_LINK 11, 0x80000000), (SW_P_CFG 11, 0xC00005F2), (SW_VLAN 0, 0xFFFF)]; let p : Fin 12 := 11;
        let dt : Nat := 0; let q : Fin 128 := 127; let u : State := elapse s dt; decide (swLive u = true) &&
        decide (linkUp u p.val = true) && decide (96 ≤ q.val) && decide (q.val / 8 ≠ 14) && decide (swLive s = true) &&
        decide (∀ c < (128 : Nat), c ≤ q.val ∨ c / 8 ≠ q.val / 8 ∨ swQueue s c = [])) = true ∧
    (let s : State := { z [(SW_P_LINK 11, 0x80000000), (SW_P_CFG 11, 0xC00005F2), (SW_VLAN 0, 0xFFFF), (SW_Q_CFG 95, 0x20000000)] with cycles := 9000, swq := [(95, [{ da := [1, 2, 3, 4, 5, 6], sa := [2, 2, 2, 2, 2, 2], body := List.replicate 48 7, len := 64, src := 3, cls := 7, lt := some 0 }])] };
        let p : Fin 12 := 11; let dt : Nat := 0; let q : Fin 96 := 95; let u : State := elapse s dt;
        decide (swLive u = true) && decide (linkUp u p.val = true) && decide (q.val / 8 = p.val) && match swQueue u q.val with
      | x :: _ => (match x.lt with
        | some n => (decide (u.fl (SW_Q_CFG q.val) 30 29 = 1) && decide (x.late = false) && decide (n ≤ now0 u) &&
            decide (now0 u - n ≤ launchLimit u p.val) && decide (smGet 0 u.headAt q.val + 1000 + (now0 u - n) ≤ u.cycles) &&
            decide (portBusy u p.val = false) && decide (gateOpen u p.val (q.val % 8) = true) &&
            decide (gateFits u p.val (q.val % 8) (outLen x) = true) && decide (paused u p.val (q.val % 8) = false))
        | _ => false)
      | _ => false) = true ∧
    (let s : State := { z [(SW_P_LINK 11, 0x80000000), (SW_P_CFG 11, 0xC00005F2), (SW_VLAN 0, 0xFFFF), (SW_Q_CFG 95, 0x20000000)] with cycles := 9000, swq := [(95, [{ da := [1, 2, 3, 4, 5, 6], sa := [2, 2, 2, 2, 2, 2], body := List.replicate 48 7, len := 64, src := 3, cls := 7, lt := some 0 }])] };
        let p : Fin 12 := 11; let dt : Nat := 0; let q : Fin 96 := 95; let u : State := elapse s dt;
        decide (swLive u = true) && decide (linkUp u p.val = true) && match swQueue u q.val with
      | x :: _ => (match x.lt with
        | some n => (decide (u.fl (SW_Q_CFG q.val) 30 29 = 1) && decide (x.late = false) && decide (n ≤ now0 u) &&
            decide (u.bt (SW_Q_CFG q.val) 28 = false))
        | _ => false)
      | _ => false) = true ∧
    (let s : State := (z [(SW_P_LINK 11, 0x80000000), (SW_P_CFG 11, 0xC00005F2), (SW_VLAN 0, 0xFFFF), (SW_R_CFG 127, 0xC0000000), (SW_R_BASE 127, 0x20000000), (SW_R_SWPTR 127, 1), (MEM_OWN 0, 13)]).setBytes 0x20000000 ([0, 1, 0, 0x20, 60, 0, 255, 0] ++ List.replicate 10 0) |>.setBytes 0x20000100 ([2, 2, 3, 4, 5, 6, 2, 2, 2, 2, 2, 2, 8, 0] ++ List.replicate 46 5);
        let p : Fin 12 := 11; let dt : Nat := 0; let r : Fin 128 := 127; let u : State := elapse s dt;
        decide (swLive u = true) && decide (linkUp u p.val = true) && decide (swLive s = true) && decide (r.val / 32 ≠ 2) &&
        decide (s.bt (SW_R_CFG r.val) 31 = true) && decide (s.bt (SW_R_CFG r.val) 30 = true) &&
        decide (s.fl (SW_R_HWPTR r.val) 15 0 ≠ s.fl (SW_R_SWPTR r.val) 15 0) &&
        let d := (s.rd (SW_R_BASE r.val)).toNat + 32 * s.fl (SW_R_HWPTR r.val) 15 0; match memRead s 13 d 18 with
      | (s1, some h) => (let len := leNat ((h.drop 4).take 2); let fl := (h.getD 7 0).toNat; decide (14 ≤ len) &&
          decide (h.getD 6 0 = 255) && decide (held s1 (12 + r.val / 32) (fl % 8) = false) &&
          match memRead s1 13 (leNat (h.take 4)) len with
        | (s2, some bytes) => (decide (fl < 64) &&
            match internalSend s2 (12 + r.val / 32) bytes (fl % 8) none false (fl / 32 % 2 == 1) none with
          | some s3 => (let w := txAnswer s3 r.val d false; decide (noSteps w))
          | _ => false)
        | _ => false)
      | _ => false) = true ∧
    (let s : State := { z [(SW_P_LINK 11, 0x80000000), (SW_P_CFG 11, 0xC00005F2), (SW_VLAN 0, 0xFFFF)] with prp := [(5, [⟨1, 2, true, false, 0⟩])] };
        let p : Fin 12 := 11; let dt : Nat := 0; let k : Fin 6 := 5; let u : State := elapse s dt;
        decide (swLive u = true) && decide (linkUp u p.val = true) && match prpTable u k.val with
      | e :: _ => (decide (e.at_ + u.fl (SW_PRP_CFG k.val) 15 0 * 1000000 ≤ u.cycles) && decide (e.a = true) &&
          decide (e.b = false))
      | _ => false) = true ∧
    (let s : State := { z [(SW_P_LINK 11, 0x80000000), (SW_P_CFG 11, 0xC00005F2), (SW_VLAN 0, 0xFFFF), (SW_ST_W0 1023, 0x80000000), (SW_ST_W1 1023, 0x2000)] with cycles := 65535000000, recs := [(1023, { takeAny := false })] };
        let p : Fin 12 := 11; let dt : Nat := 0; let i : Fin 1024 := 1023; let u : State := elapse s dt;
        decide (swLive u = true) && decide (linkUp u p.val = true) && decide (s.bt (SW_ST_W0 i.val) 31 = true) &&
        decide (s.bt (SW_ST_W1 i.val) 13 = true) && decide ((smGet {} s.recs i.val).takeAny = false) &&
        decide ((smGet {} s.recs i.val).at_ + s.fl (SW_ST_W2 i.val) 31 16 * 1000000 ≤ s.cycles)) = true := by decide +kernel

theorem witness_SwitchControl :
    (let s : State := z [(SW_P_LINK 11, 0x80000000), (SW_P_CFG 11, 0xC00005F2), (SW_VLAN 0, 0xFFFF)]; let m : Master := 1;
        decide (noSteps s) && decide (opens s m SW_FDB_CMD .sw) && decide (fdbRuns s = false)) = true ∧
    (let s : State := z [(SW_P_LINK 11, 0x80000000), (SW_P_CFG 11, 0xC00005F2), (SW_VLAN 0, 0xFFFF)]; let m : Master := 1;
        decide (noSteps s) && decide (opens s m SW_FDB_CMD .sw) && decide (fdbRuns s = false) &&
        let mac := (s.rd SW_FDB_MACLO).toNat + s.fl SW_FDB_MACHI 15 0 * 2 ^ 32; let vid := s.fl SW_FDB_MACHI 27 16;
        let e : FdbE := { mac := mac, vid := vid, static := true, smatch := s.bt SW_FDB_DATA 29, stren := s.bt SW_FDB_DATA 28, stream := s.fl SW_FDB_DATA 27 16, ports := s.fl SW_FDB_DATA 15 0 };
        decide ((fdbPut s e).isSome = true)) = true ∧
    (let s : State := { z [] with fdb := [(fdbBucket 0 0, [({ mac := 1, vid := 0, static := true, ports := 1 } : FdbE), ({ mac := 2, vid := 0, static := true, ports := 1 } : FdbE), ({ mac := 3, vid := 0, static := true, ports := 1 } : FdbE), ({ mac := 4, vid := 0, static := true, ports := 1 } : FdbE)])] };
        let m : Master := 1; decide (noSteps s) && decide (opens s m SW_FDB_CMD .sw) && decide (fdbRuns s = false) &&
        let mac := (s.rd SW_FDB_MACLO).toNat + s.fl SW_FDB_MACHI 15 0 * 2 ^ 32; let vid := s.fl SW_FDB_MACHI 27 16;
        let e : FdbE := { mac := mac, vid := vid, static := true, smatch := s.bt SW_FDB_DATA 29, stren := s.bt SW_FDB_DATA 28, stream := s.fl SW_FDB_DATA 27 16, ports := s.fl SW_FDB_DATA 15 0 };
        decide ((fdbPut s e).isSome = false)) = true ∧
    (let s : State := { z [(SW_AGE, 1)] with cycles := 1000000000 }; decide (noSteps s) && decide (swLive s = true) &&
        decide (s.fl SW_AGE 15 0 ≠ 0) && decide (s.ageAt + s.fl SW_AGE 15 0 * 1000000000 ≤ s.cycles)) = true ∧
    (let s : State := z [(SW_P_GCTRL 11, 0x80020003), (SW_P_GCYCLE 11, 1000)]; let p : Fin 12 := 11; let dt := 0;
        decide (noSteps s) && let u := elapse s dt; let g := gate u p.val; decide (swLive u = true) &&
        decide (u.bt (SW_P_GCTRL p.val) 31 = true) && decide (gCyc u p.val ≠ 0) && decide (gBase u p.val ≤ now0 u) &&
        let n := (now0 u - gBase u p.val) / gCyc u p.val; let i := gBase u p.val + n * gCyc u p.val; decide (g.since ≤ i) &&
        decide (g.cycle ≠ some n)) = true ∧
    (let s : State := { z [(SW_P_GCTRL 11, 0x80020003), (SW_P_GCYCLE 11, 1000)] with tbs := [(0, { ns := 500 })], gates := [(11, { cycle := some 0, on := true })] };
        let p : Fin 12 := 11; let dt := 0; decide (noSteps s) && let u := elapse s dt; let g := gate u p.val;
        match g.cycle with
      | some n => (decide (gatesRun u p.val = true) && decide (g.idx + 1 < gLen u p.val) &&
          decide (gBase u p.val + n * gCyc u p.val + gSum u p.val (g.idx + 1) ≤ now0 u))
      | _ => false) = true ∧
    (let s : State := z [(SW_P_GCTRL 11, 0x80020003)]; let m : Master := 1; let v : Word := 0x80020003; let p : Fin 12 := 11;
        decide (noSteps s) && decide (opens s m (SW_P_GCTRL p.val) .sw) && decide (1 ≤ fld v 24 16) &&
        decide (fld v 24 16 ≤ 256) && decide (1 ≤ fld v 8 0) && decide (fld v 8 0 ≤ 256) && decide (bitAt v 31 = true) &&
        decide (s.bt (SW_P_GCTRL p.val) 31 = true) && decide (fld v 24 16 = s.fl (SW_P_GCTRL p.val) 24 16) &&
        decide (fld v 8 0 = s.fl (SW_P_GCTRL p.val) 8 0)) = true ∧
    (let s : State := z []; let m : Master := 1; let v : Word := 0x01000100; let p : Fin 12 := 11; decide (noSteps s) &&
        decide (opens s m (SW_P_GCTRL p.val) .sw) && decide (1 ≤ fld v 24 16) && decide (fld v 24 16 ≤ 256) &&
        decide (1 ≤ fld v 8 0) && decide (fld v 8 0 ≤ 256) && decide (bitAt v 31 = false) &&
        decide (s.bt (SW_P_GCTRL p.val) 31 = false)) = true ∧
    (let s : State := z [(SW_P_MODE 11, 7)]; let p : Fin 12 := 11; decide (noSteps s) && decide (swLive s = true) &&
        decide (inReset s 28 = false) && decide (domOff s 26 = false) && decide (s.fl (SW_P_MODE p.val) 3 0 ≠ 0) &&
        decide (s.bt (SW_P_LINK p.val) 31 = false)) = true ∧
    (let s : State := z [(SW_P_LINK 11, 0x80000000), (SW_P_CFG 11, 0xC00005F2), (SW_VLAN 0, 0xFFFF)]; let p : Fin 12 := 11;
        decide (noSteps s) && decide (s.bt (SW_P_LINK p.val) 31 = true)) = true ∧
    (let s : State := z [(SW_P_LINK 11, 0x80000000), (SW_P_CFG 11, 0xC00005F2), (SW_VLAN 0, 0xFFFF)]; let m : Master := 1;
        let v : Word := 7; let p : Fin 12 := 11; decide (noSteps s) && decide (opens s m (SW_P_MODE p.val) .sw) &&
        decide (fld v 3 0 = 0 ∨ (p.val < 4 ∧ fld v 3 0 ≤ 5) ∨ (4 ≤ p.val ∧ (fld v 3 0 = 6 ∨ fld v 3 0 = 7)))) = true ∧
    (let s : State := z [(SW_R_BASE 127, 0x20FFFFC0), (SW_R_LEN 127, 2)]; let m : Master := 1; let v : Word := 0xC0000000;
        let r : Fin 128 := 127; decide (noSteps s) && decide (opens s m (SW_R_CFG r.val) .sw) &&
        decide (s.bt (SW_R_CFG r.val) 31 = false) && decide (ringBad s r.val v = false)) = true ∧
    (let s : State := z [(SW_P_LINK 11, 0x80000000), (SW_P_CFG 11, 0xC00005F2), (SW_VLAN 0, 0xFFFF)]; let m : Master := 1;
        let r : Fin 128 := 127; decide (noSteps s) && decide (opens s m (SW_R_CFG r.val) .sw)) = true ∧
    (let s : State := z [(SW_P_LINK 11, 0x80000000), (SW_P_CFG 11, 0xC00005F2), (SW_VLAN 0, 0xFFFF)]; let m : Master := 1;
        let r : Fin 128 := 127; decide (noSteps s) && decide (opens s m (SW_R_LEN r.val) .sw) &&
        decide (s.bt (SW_R_CFG r.val) 31 = false)) = true ∧
    (let s : State := z [(SW_P_LINK 11, 0x80000000), (SW_P_CFG 11, 0xC00005F2), (SW_VLAN 0, 0xFFFF)]; let m : Master := 1;
        let v : Word := 0xFFFF; let k : Fin 6 := 1; decide (noSteps s) && decide (k.val < 2) &&
        decide (opens s m (SW_PRP_CFG k.val) .sw) && decide (fld v 15 0 ≠ 0) && decide (portState s (2 * k.val) = 0) &&
        decide (portState s (2 * k.val + 1) = 0)) = true := by decide +kernel

theorem witness_MailboxesAndLocks :
    (let s : State := z [(MBX_CFG 63, 0x80010500)]; let m : Master := 16; let v : Word := 1; let b : Fin 32 := 31;
        decide (noSteps s) && decide (opens s m (MEM_OWN b.val) .mbx) &&
        decide (owns s m.val b.val = true ∨ supervisor s m.val = true) &&
        decide (if bitAt v 8 then fld v 4 0 ≤ 7 else fld v 4 0 ≠ 0 ∧ reservedId (fld v 4 0) = false)) = true ∧
    (let s : State := z [(MBX_CFG 63, 0x80010500)]; let m : Master := 16; let g : Fin 8 := 7; decide (noSteps s) &&
        decide (opens s m (MEM_GRP g.val) .mbx) && decide (supervisor s m.val = true)) = true ∧
    (let s : State := z [(MBX_CFG 63, 0x80010500)]; let m : Master := 1; let v : Word := 0x20FFFFF8; let k : Fin 64 := 63;
        decide (noSteps s) && decide (opens s m (MBX_PTR k.val) .mbx) && decide (mbxOn s k.val = true) &&
        decide (mbxSrc s k.val = 0 ∨ mbxSrc s k.val = m.val) && decide (mbxFull s k.val = false) &&
        decide (v.toNat % 8 = 0) && decide (0x20000000 ≤ v.toNat) && decide (v.toNat ≤ 0x20FFFFFF) &&
        decide (mbxOff s k.val = false)) = true ∧
    (let s : State := z [(MBX_CFG 63, 0x80010500), (MBX_STAT 63, 0x80000000)]; let m : Master := 1; let k : Fin 64 := 63;
        decide (noSteps s) && decide (opens s m (MBX_PTR k.val) .mbx) && decide (mbxOn s k.val = true) &&
        decide (mbxSrc s k.val = 0 ∨ mbxSrc s k.val = m.val) && decide (mbxFull s k.val = true)) = true ∧
    (let s : State := z [(MBX_CFG 63, 0x80010500), (MBX_STAT 63, 0x80000000)]; let m : Master := 5; let k : Fin 64 := 63;
        decide (noSteps s) && decide (opens s m (MBX_PTR k.val) .mbx) && decide (m.val = mbxDst s k.val) &&
        decide (mbxOff s k.val = false) && decide (mbxFull s k.val = true)) = true ∧
    (let s : State := z [(MBX_CFG 63, 0x80010500)]; let m : Master := 16; let v : Word := 0x80100100; let k : Fin 64 := 63;
        decide (noSteps s) && decide (opens s m (MBX_CFG k.val) .mbx) && decide (supervisor s m.val = true) &&
        decide (mbxFull s k.val = false) && decide (reservedId (fld v 20 16) = false) &&
        decide (reservedId (fld v 12 8) = false) && decide (fld v 12 8 ≠ 0)) = true ∧
    (let s : State := { z [(MBX_CFG 62, 0x80050100), (MBX_CFG 63, 0x80010500), (MBX_STAT 62, 0x80000000), (MBX_STAT 63, 0x80000000)] with mbxH := [(63, { us := 1, ord := 1 })] };
        let a : Fin 64 := 62; let b : Fin 64 := 63; let dt := 1000; decide (noSteps s) && let u := elapse s dt;
        decide (crossed u a.val b.val = true) && decide (mbxFull u a.val = true) && decide (mbxFull u b.val = true) &&
        decide ((u.mbxAt a.val).ord ≤ (u.mbxAt b.val).ord) && decide ((u.mbxAt b.val).us ≠ 0) &&
        decide ((u.mbxAt b.val).at_ + (u.mbxAt b.val).us * 1000 ≤ u.cycles) && decide (u.mbxX = [])) = true ∧
    (let s : State := z [(MBX_CFG 63, 0x80010500)]; let m : Master := 16; let k : Fin 32 := 31; decide (noSteps s) &&
        decide (opens s m (MBX_LK k.val) .mbx) && decide (s.fl (MBX_LK k.val) 4 0 = 0)) = true ∧
    (let s : State := z [(MBX_LK 31, 5)]; let m : Master := 16; let k : Fin 32 := 31; decide (noSteps s) &&
        decide (opens s m (MBX_LK k.val) .mbx) && decide (s.fl (MBX_LK k.val) 4 0 ≠ 0)) = true ∧
    (let s : State := z [(MBX_LK 31, 16)]; let m : Master := 16; let k : Fin 32 := 31; decide (noSteps s) &&
        decide (opens s m (MBX_LK k.val) .mbx) &&
        decide (s.fl (MBX_LK k.val) 4 0 = m.val ∨ (s.fl (MBX_LK k.val) 4 0 ≠ 0 ∧ supervisor s m.val = true))) = true := by decide +kernel

theorem witness_Arbiter :
    (let s : State := z [(ARB_CFG, 0x400003E8)]; let m : Master := 10; let p : Fin 2 := 1; let q : Fin 2 := 0;
        decide (q ≠ p) && decide (noSteps s) && decide (opens s m (ARB_HB p.val) .arb) && decide (m.val = 9 + p.val)) = true ∧
    (let s : State := { z [(ARB_CFG, 0x400003E8), (ARB_STATUS, 0x80440000)] with cycles := 5000000, arbH := { beatA := 4500000 } };
        let p : Fin 2 := 1; let q : Fin 2 := 0; let dt := 0; decide (q ≠ p) && decide (noSteps s) && let u := elapse s dt;
        decide (arbMode u = 1) && decide (beatLate u p.val = true) && decide (beatLate u q.val = false) &&
        decide (holder u = p.val + 1) && decide (healthy u q.val = true)) = true ∧
    (let s : State := z [(ARB_CFG, 0x400003E8)]; let m : Master := 10; let p : Fin 2 := 1; let q : Fin 2 := 0;
        decide (q ≠ p) && decide (noSteps s) && decide (arbMode s = 1) && decide (beatLate s 0 = false) &&
        decide (beatLate s 1 = false) && decide (opens s m ARB_CMD .arb) && decide (m.val = 9 + p.val) &&
        decide (inReset s (8 + p.val) = false) && decide (domOff s 8 = false) &&
        decide (s.bt ARB_STATUS (stBit p.val 1) = false) && decide (beatAge s p.val ≤ s.fl ARB_CFG 15 0) &&
        decide (holder s = 0) && decide (healthy s q.val = false)) = true ∧
    (let s : State := z [(ARB_CFG, 0x400003E8), (ARB_STATUS, 0x40440000)]; let m : Master := 10; let p : Fin 2 := 1;
        let q : Fin 2 := 0; decide (q ≠ p) && decide (noSteps s) && decide (arbMode s = 1) &&
        decide (beatLate s 0 = false) && decide (beatLate s 1 = false) && decide (opens s m ARB_CMD .arb) &&
        decide (m.val = 9 + p.val) && decide (holder s = q.val + 1) && decide (healthy s q.val = true)) = true ∧
    (let s : State := z [(ARB_CFG, 0x600003E8), (IMG_CTRL, 0x80000000), (ARB_STATUS, 0x80440000)]; let m : Master := 10;
        let p : Fin 2 := 1; let q : Fin 2 := 0; decide (q ≠ p) && decide (noSteps s) && decide (arbMode s = 1) &&
        decide (beatLate s 0 = false) && decide (beatLate s 1 = false) && decide (opens s m ARB_CMD .arb) &&
        decide (m.val = 9 + p.val) && decide (holder s = p.val + 1) && decide (s.bt ARB_STATUS 27 = false) &&
        decide (resignNow s = false)) = true ∧
    (let s : State := z [(ARB_CFG, 0x400003E8), (ARB_STATUS, 0x80440000)]; let m : Master := 10; let p : Fin 2 := 1;
        let q : Fin 2 := 0; decide (q ≠ p) && decide (noSteps s) && decide (arbMode s = 1) &&
        decide (beatLate s 0 = false) && decide (beatLate s 1 = false) && decide (opens s m ARB_CMD .arb) &&
        decide (m.val = 9 + p.val) && decide (holder s = p.val + 1) && decide (healthy s p.val = true) &&
        decide (healthy s q.val = true) && decide (s.bt ARB_STATUS 27 = false) && decide (resignNow s = true)) = true ∧
    (let s : State := z [(ARB_CFG, 0x400003E8), (LDR_FUSESTAT, 0x80000000), (ARB_STATUS, 0x40440000)]; let m : Master := 31;
        let p : Fin 2 := 1; let q : Fin 2 := 0; decide (q ≠ p) && decide (noSteps s) && decide (arbMode s = 1) &&
        decide (beatLate s 0 = false) && decide (beatLate s 1 = false) && decide (opens s m ARB_CMD .arb) &&
        decide (m.val = 31) && decide (holder s = q.val + 1) && decide (healthy s q.val = true)) = true ∧
    (let s : State := z [(ARB_CFG, 0x400003E8), (ARB_STATUS, 0xA0440000)]; let m : Master := 10; let p : Fin 2 := 1;
        let q : Fin 2 := 0; decide (q ≠ p) && decide (noSteps s) && decide (arbMode s = 1) &&
        decide (beatLate s 0 = false) && decide (beatLate s 1 = false) && decide (opens s m ARB_CMD .arb) &&
        decide (m.val = 9 + p.val) && decide (holder s = p.val + 1) && decide (s.bt ARB_STATUS 29 = true)) = true ∧
    (let s : State := { z [(ARB_CFG, 0x600003E8), (IMG_CTRL, 0x80000000), (ARB_STATUS, 0x88440000)] with imgE := 1, cycles := 100 };
        let p : Fin 2 := 1; let q : Fin 2 := 0; decide (q ≠ p) && decide (noSteps s) && decide (arbMode s = 1) &&
        decide (beatLate s 0 = false) && decide (beatLate s 1 = false) && decide (holder s = p.val + 1) &&
        decide (healthy s p.val = true) && decide (healthy s q.val = true) && decide (s.bt ARB_STATUS 27 = true) &&
        decide (s.arbH.resignE + 1 < s.imgE ∨ (s.arbH.resignE < s.imgE ∧ rcEdge (s.imgAt + 50) ≤ s.cycles) ∨ s.bt IMG_CTRL 31 = false)) = true ∧
    (let s : State := z [(LDR_FUSESTAT, 0x80000000)]; let m : Master := 31; let p : Fin 2 := 1; let q : Fin 2 := 0;
        decide (q ≠ p) && decide (noSteps s) && decide (opens s m ARB_FCNT .arb) &&
        decide (m.val = 16 ∨ m.val = 31)) = true := by decide +kernel

theorem witness_ControlPairs :
    (let s : State := z []; let p : Fin 2 := 1; decide (noSteps s) && decide (inReset s (8 + p.val) = false)) = true ∧
    (let s : State := z []; let m : Master := 10; let p : Fin 2 := 1; let r : Region := ctxRegion m (.pair (p.val == 1));
        decide (noSteps s) && decide (opens s m (localAddr m.val (ARB_PL_CACHE p.val)) r)) = true ∧
    (let s : State := z []; let m : Master := 10; let p : Fin 2 := 1; let v : Word := 0x1E; let i : Fin 32 := 31;
        let o : Fin 3 := 2; let r : Region := ctxRegion m (.pair (p.val == 1)); decide (noSteps s) &&
        let a := rgn p.val i.val (4 * o.val); decide (opens s m (localAddr m.val a) r) &&
        decide (rgnRefuses s p.val i.val (4 * o.val) v = false)) = true ∧
    (let s : State := z [(ARB_PL_PLOCK 1, 1)]; let m : Master := 10; let p : Fin 2 := 1; let i : Fin 32 := 31;
        let o : Fin 3 := 2; let r : Region := ctxRegion m (.pair (p.val == 1)); decide (noSteps s) &&
        let a := rgn p.val i.val (4 * o.val); decide (opens s m (localAddr m.val a) r) &&
        decide (s.bt (ARB_PL_PLOCK p.val) 0 = true)) = true ∧
    (let s : State := z [(ARB_CFG, 0x400003E8), (ARB_STATUS, 0x20000)]; let m : Master := 16; let p : Fin 2 := 1;
        decide (noSteps s) && decide (opens s m ARB_CMD .arb) && decide (rearmOk s m.val p.val = true) &&
        let u := narrowChange s (fun s => rearmFlags s p.val) 0 5; decide (noSteps u)) = true ∧
    (let s : State := { z [(ARB_CFG, 0x900003E8), (ARB_STATUS, 0x2000000)] with arbH := { failedA := true } }; let dt := 0;
        decide (noSteps s) && let u := elapse s dt; decide (spareDue u = true)) = true := by decide +kernel

theorem witness_PcieBridge :
    (let s : State := z [(HB_PFCFG, 0), (HB_SPICFG, 0), (HB_CTRL, 0xC0000000), (HB_STATUS, 0xC0000000), (MEM_OWN 31, 11)];
        let bar : Bar := .bar2; let o : BitVec 32 := 0x00FFFFFC; let w : PcieWord := ⟨15, 7⟩; decide (noSteps s) &&
        decide (hostLink s = true) && decide (s.bt HB_STATUS 29 = false) && match barAddr bar o.toNat with
      | some a => (decide (w.be = 0xF) && decide ((pfBuf s false).words = []) && match hostAcc s a .w (.wr w.data) with
        | (s1, .ok 0) => (decide (noSteps s1))
        | _ => false)
      | _ => false) = true ∧
    (let s : State := z [(HB_PFCFG, 0), (HB_SPICFG, 0), (HB_CTRL, 0xC0000000), (HB_STATUS, 0xC0000000), (MEM_OWN 31, 11)];
        let bar : Bar := .bar2; let o : BitVec 32 := 0x00FFFFFC; let w : PcieWord := ⟨15, 7⟩; decide (noSteps s) &&
        decide (hostLink s = true) && decide (s.bt HB_STATUS 29 = false) && match barAddr bar o.toNat with
      | some a => (decide (w.be = 0xF) && decide ((pfBuf s false).words = []) && match hostAcc s a .w .rd with
        | (s1, .ok _) => (decide (s1.fl HB_PFCFG 15 0 = 0) && decide (noSteps s1))
        | _ => false)
      | _ => false) = true ∧
    (let s : State := z [(HB_PFCFG, 0), (HB_SPICFG, 0), (HB_CTRL, 0xC0000000), (HB_STATUS, 0xC0000000), (MEM_OWN 31, 11)];
        let bar : Bar := .bar2; let o : BitVec 32 := 0x00FFFFF8; let ws := [⟨15, 7⟩, ⟨1, 9⟩]; decide (noSteps s) &&
        decide (hostLink s = true) && decide (s.bt HB_STATUS 29 = false) && match barAddr bar o.toNat with
      | some a => (decide ((pfBuf s false).words = []) && let u := (reqWords true a ({ s := s }, []) ws).1.s;
          decide (noSteps u))
      | _ => false) = true ∧
    (let s : State := z [(HB_PFCFG, 0), (HB_SPICFG, 0), (HB_CTRL, 0xC0000000), (HB_STATUS, 0xC0000000), (MEM_OWN 31, 11)];
        let bar : Bar := .bar2; let o : BitVec 32 := 0x01000000; decide (noSteps s) && decide (hostLink s = true) &&
        decide (s.bt HB_STATUS 29 = true ∨ (barAddr bar o.toNat = none ∧ (pfBuf s false).words = []))) = true ∧
    (let s : State := z [(HB_PFCFG, 0), (HB_SPICFG, 0), (HB_CTRL, 0xC0000000), (HB_STATUS, 0xC0000000), (HB_OBT_LO 7, 0xF0000001)];
        let m : Master := 1; let o : Fin 0x80000000 := 0x7FFFFFFC; decide (noSteps s) && let i : Nat := o.val / 2 ^ 28;
        decide (canIssue s m.val = true) && decide (admits m.val .ob = true) && decide (shut s m.val .ob = false) &&
        decide (s.bt HB_STATUS 31 = true) && decide (s.bt HB_STATUS 30 = true) &&
        decide (s.bt (HB_OBT_LO i) 0 = true)) = true ∧
    (let s : State := z []; let m : Master := 1; let o : Fin 0x80000000 := 0x7FFFFFFF; decide (noSteps s) &&
        let i : Nat := o.val / 2 ^ 28; decide (canIssue s m.val = true) && decide (admits m.val .ob = true) &&
        decide (shut s m.val .ob = false) &&
        decide (s.bt HB_STATUS 31 = false ∨ s.bt HB_STATUS 30 = false ∨ s.bt (HB_OBT_LO i) 0 = false)) = true ∧
    (let s : State := { z [(HB_PFCFG, 0), (HB_SPICFG, 0), (HB_CTRL, 0xC0000000), (HB_STATUS, 0xC0000000)] with cycles := 60000000, hbH := { reads := [⟨5, 0x80000004, 4, 0, none⟩] } };
        let i : Fin 64 := 0; let dt := 0; decide (noSteps s) && let u := elapse s dt; match u.hbH.reads[i.val]? with
      | some e => (decide (e.at_ + 50000000 ≤ u.cycles))
      | _ => false) = true ∧
    (let s : State := { z [(HB_PFCFG, 0), (HB_SPICFG, 0), (HB_CTRL, 0xC0000000), (HB_STATUS, 0xC0000000)] with hbH := { reads := [⟨5, 0x80000004, 4, 0, none⟩] } };
        let i : Fin 64 := 0; let dt := 0; decide (noSteps s) && let u := elapse s dt; match u.hbH.reads[i.val]? with
      | some e => (decide (u.cycles < e.at_ + 50000000))
      | _ => false) = true ∧
    (let s : State := { z [(HB_PFCFG, 0), (HB_SPICFG, 0), (HB_CTRL, 0xC0000000), (HB_STATUS, 0xC0000000)] with hbH := { reads := [⟨5, 0x80000004, 4, 0, none⟩] } };
        let i : Fin 64 := 0; decide (noSteps s) && match s.hbH.reads[i.val]? with
      | some _ => (true)
      | _ => false) = true ∧
    (let s : State := z [(HB_CTRL, 0x80000000)]; let speed : Fin 8 := 3; let width : Fin 8 := 2; decide (noSteps s) &&
        decide (s.bt HB_CTRL 31 = true) && decide (inReset s 27 = false) && decide (inReset s 28 = false) &&
        decide (1 ≤ speed.val) && decide (speed.val ≤ 3) && decide (1 ≤ width.val) && decide (width.val ≤ 2)) = true ∧
    (let s : State := z [(HB_PFCFG, 0), (HB_SPICFG, 0), (HB_CTRL, 0xC0000000), (HB_STATUS, 0xC0000000), (MEM_OWN 31, 11)];
        decide (noSteps s) && decide (s.bt HB_STATUS 31 = true)) = true ∧
    (let s : State := z [(HB_PFCFG, 0), (HB_SPICFG, 0), (HB_CTRL, 0xC0000000), (HB_STATUS, 0xC0000000), (MEM_OWN 31, 11)];
        decide (noSteps s) && decide (hostLink s = true)) = true ∧
    (let s : State := { z [(HB_PFCFG, 0), (HB_SPICFG, 0), (HB_CTRL, 0xC0000000), (HB_STATUS, 0xC0000000)] with hbH := { pfS := { words := [(0x20000000, 7)], at_ := 0 } } };
        let spi := true; let dt := 0; decide (noSteps s) && let u := elapse s dt;
        decide ((pfBuf u spi).at_ + u.fl HB_PFCFG 15 0 * 1000 ≤ u.cycles) && match (pfBuf u spi).words with
      | _ :: _ => (true)
      | _ => false) = true := by decide +kernel

theorem witness_SpiPort :
    (let s : State := z [(HB_PFCFG, 0), (HB_SPICFG, 0), (HB_CTRL, 0xC0000000), (HB_STATUS, 0xC0000000), (MEM_OWN 31, 11)];
        let a := (0x20FFFFFC : Word); let v := (7 : Word); decide (noSteps s) && decide (spiOn s = true) &&
        let s0 := spiOut s []; decide ((pfBuf s true).words = []) && match busWrite s0 11 a.toNat v with
      | (s1, .ok 0) => (decide (noSteps s1))
      | _ => false) = true ∧
    (let s : State := z [(HB_PFCFG, 0), (HB_SPICFG, 0), (HB_CTRL, 0xC0000000), (HB_STATUS, 0xC0000000), (MEM_OWN 31, 11)];
        let l : List Byte := [7]; decide (noSteps s) && decide (spiOn s = true) && decide (0 < l.length) &&
        decide (l.length < 4)) = true ∧
    (let s : State := z [(HB_PFCFG, 0), (HB_SPICFG, 0), (HB_CTRL, 0xC0000000), (HB_STATUS, 0xC0000000), (MEM_OWN 31, 11)];
        let a : Word := (0x20FFFFFC : Word); let n : Byte := (0 : Byte); decide (noSteps s) && decide (spiOn s = true) &&
        let k := (if n.toNat = 0 then 64 else n.toNat); let p := spiOut (pfExpire s true) [];
        decide (s.hbH.spiRead = none) && decide (s.hbH.spiHeld = none) && decide (k ≤ 64) &&
        decide (pfServe p true a.toNat k = none)) = true ∧
    (let s : State := { z [(HB_PFCFG, 5), (HB_SPICFG, 0), (HB_CTRL, 0xC0000000), (HB_STATUS, 0xC0000000), (MEM_OWN 31, 11)] with hbH := { pfS := { words := [(0x20000000, 7)] } } };
        let a : Word := (0x20000000 : Word); let n : Byte := (1 : Byte); decide (noSteps s) && decide (spiOn s = true) &&
        let k := (if n.toNat = 0 then 64 else n.toNat); let p := spiOut (pfExpire s true) [];
        decide (s.hbH.spiRead = none) && decide (s.hbH.spiHeld = none) && decide (k ≤ 64) &&
        match pfServe p true a.toNat k with
      | some (_, _) => (true)
      | _ => false) = true ∧
    (let s : State := z [(HB_PFCFG, 0), (HB_SPICFG, 0), (HB_CTRL, 0xC0000000), (HB_STATUS, 0xC0000000), (MEM_OWN 31, 11)];
        let n : Byte := (65 : Byte); decide (noSteps s) && decide (spiOn s = true) &&
        let k := (if n.toNat = 0 then 64 else n.toNat);
        decide (s.hbH.spiRead.isSome = true ∨ s.hbH.spiHeld.isSome = true ∨ 64 < k)) = true ∧
    (let s : State := { z [(HB_PFCFG, 0), (HB_SPICFG, 0), (HB_CTRL, 0xC0000000), (HB_STATUS, 0xC0000000), (MEM_OWN 31, 11)] with hbH := { spiRead := some (0x20FFFFFC, 1) } };
        decide (noSteps s) && decide (spiOn s = true) && match s.hbH.spiRead with
      | some (a, n) => (match spiReadWords n s a with
        | (_, _, false) => (true)
        | _ => false)
      | _ => false) = true ∧
    (let s : State := { z [(HB_PFCFG, 0), (HB_SPICFG, 0), (HB_CTRL, 0xC0000000), (HB_STATUS, 0xC0000000), (MEM_OWN 31, 11)] with hbH := { spiRead := some (0x01000000, 1) } };
        decide (noSteps s) && decide (spiOn s = true) && match s.hbH.spiRead with
      | some (a, n) => (match spiReadWords n s a with
        | (_, _, true) => (true)
        | _ => false)
      | _ => false) = true ∧
    (let s : State := { z [(HB_PFCFG, 0), (HB_SPICFG, 0), (HB_CTRL, 0xC0000000), (HB_STATUS, 0xC0000000), (MEM_OWN 31, 11)] with hbH := { spiHeld := some [7] } };
        decide (noSteps s) && decide (spiOn s = true) && match s.hbH.spiHeld with
      | some _ => (true)
      | _ => false) = true ∧
    (let s : State := z [(HB_PFCFG, 0), (HB_SPICFG, 0), (HB_CTRL, 0xC0000000), (HB_STATUS, 0xC0000000), (MEM_OWN 31, 11)];
        decide (noSteps s) && decide (spiOn s = true) && decide (s.hbH.spiHeld = none)) = true ∧
    (let s : State := z [(HB_PFCFG, 0), (HB_SPICFG, 0), (HB_CTRL, 0xC0000000), (HB_STATUS, 0xC0000000), (MEM_OWN 31, 11)];
        decide (noSteps s) && decide (spiOn s = true)) = true ∧
    (let s : State := { z [(HB_PFCFG, 0), (HB_SPICFG, 0), (HB_CTRL, 0xC0000000), (HB_STATUS, 0xC0000000), (MEM_OWN 31, 11)] with hbH := { spiHeld := some [7] } };
        let dt := 0; decide (noSteps s) && decide (spiOn s = true) && let u := elapse s dt;
        decide (u.hbH.spiHeld.isSome = true) &&
        decide (u.hbH.spiAt + u.fl HB_SPICFG 15 0 * 1000 ≤ u.cycles)) = true := by decide +kernel

theorem witness_StartUp :
    (let s : State := { live with ldrH := { due := 1 }, fuses := [(1, 5), (124, BitVec.ofNat 32 (crc32c ((List.range 12).flatMap (fun i => if i = 1 then [5, 0, 0, 0] else [0, 0, 0, 0]))))] };
        decide (startDue s 1 = true) && decide (fuseUsed s 0 12 124 = true)) = true ∧
    (let s : State := { live with ldrH := { due := 1 }, fuses := [(1, 5)] }; decide (startDue s 1 = true) &&
        decide (fuseUsed s 0 12 124 = false)) = true ∧
    (let s : State := { live with ldrH := { due := 1 } }; decide (startDue s 1 = true)) = true ∧
    (let s : State := z [(LDR_STATUS, 0x10000000)]; decide (wideReset s = false) &&
        decide (s.fl LDR_STATUS 31 28 = 1)) = true ∧
    (let s : State := { z [] with ldrH := { due := 2 } }; decide (startDue s 2 = true) &&
        decide (s.bt LDR_FUSESTAT 31 = false)) = true ∧
    (let s : State := { z [(LDR_FUSESTAT, 0x80000000)] with ldrH := { due := 2 } }; decide (startDue s 2 = true) &&
        decide (s.bt LDR_FUSESTAT 31 = true)) = true ∧
    (let s : State := z [(LDR_STATUS, 0x28000000)]; let d := ⟨0x4000000, true, false, false⟩; let run := some [63];
        let late := true; let b := true; let r := attempt s b d run.isSome; let j := 0; decide (wideReset s = false) &&
        decide (b = s.bt LDR_STATUS 27) &&
        decide ((s.fl LDR_STATUS 31 28 = 2 ∧ r = attempt s b d run.isSome) ∨ (s.fl LDR_STATUS 31 28 ≠ 2 ∧ s.ldrH.wait = some j ∧ r = passTwo s b run.isSome (sectsFrom s b j))) &&
        let u := attemptGo r b late (run.getD []); decide (noSteps u)) = true ∧
    (let s : State := z [(LDR_STATUS, 0x28000000)]; let d := ⟨0x4000000, true, false, false⟩; let run := some [63];
        let late := true; let b := true; let r := attempt s b d run.isSome; let j := 0; decide (wideReset s = false) &&
        decide (b = s.bt LDR_STATUS 27) &&
        decide ((s.fl LDR_STATUS 31 28 = 2 ∧ r = attempt s b d run.isSome) ∨ (s.fl LDR_STATUS 31 28 ≠ 2 ∧ s.ldrH.wait = some j ∧ r = passTwo s b run.isSome (sectsFrom s b j))) &&
        let u := attemptGo r b late (run.getD []); decide (noSteps u) && decide (r.2.2 = none) && decide (r.2.1 ≠ 0)) = true ∧
    (let s : State := { z [(LDR_STATUS, 0x80000000)] with replay := [(26, true)] }; decide (wideReset s = false) &&
        decide (ldrRun s = true) && match narrowBlocks.find? (fun j => smGet false s.replay j) with
      | some _ => (let b := s.bt LDR_STATUS 27; let c := rereadCode s b false (fun x => x.typ == 3); decide (c ≠ 0) &&
          decide (noSteps s))
      | _ => false) = true ∧
    (let s : State := z [(RST_CLKSTAT, 0x80000000)]; decide (s.bt RST_CLKSTAT 31 = true)) = true := by decide +kernel

theorem witness_FlashAndFuses :
    (let s : State := z [(LDR_FUCFG, 0x80000001), (LDR_FUSTAT, 0x40000000)]; let m : Master := 1; let copy := true;
        let p : Instr × Nat × Bool := (.flashVerify m copy, 3, copy); decide (opens s m LDR_FUCMD .ldr) &&
        decide (fuOwner s m.val = true) &&
        decide (p ∈ [(Instr.flashErase m, 1, false), (.flashProgram m, 2, false), (.flashVerify m copy, 3, copy), (.clrcnt m, 4, false), (.raisesvn m, 5, false), (.reloadpe m, 7, false)]) &&
        decide (fuBusy s = false) && decide (s.bt LDR_FUSTAT 30 = true ∨ p.2.1 = 3 ∨ p.2.1 = 7) &&
        decide (p.2.1 = 4 → s.ldrH.verified = true) &&
        decide (p.2.1 = 7 → peStill s (s.fl LDR_FUADDR 2 0) = true ∧ s.fl LDR_FUADDR 2 0 + 1 ≠ m.val) &&
        decide (noSteps (fuBegin s p.2.1 p.2.2))) = true ∧
    (let s : State := z [(LDR_FUCFG, 0x80000001), (LDR_FUSTAT, 0x40000000)]; let m : Master := 1;
        decide (opens s m LDR_FUCMD .ldr) && decide (fuOwner s m.val = true) && decide (noSteps s) &&
        decide (s.bt LDR_FUSTAT 30 = true)) = true ∧
    (let s : State := z [(LDR_FUADDR, 0x10000)]; decide (fuWarned s = false) &&
        decide (s.fl LDR_FUADDR 27 0 % 65536 = 0)) = true ∧
    (let s : State := { z [(LDR_FUCFG, 0x80000001), (LDR_FUSTAT, 0xC0000000)] with ldrH := { op := 1, opAddr := 0x10000 } };
        decide (wideReset s = false) && decide (fuBusy s = true) && decide (noSteps s) && decide (s.ldrH.op = 1)) = true ∧
    (let s : State := { z [(LDR_FUCFG, 0x80000001), (LDR_FUSTAT, 0xC0000000)] with ldrH := { op := 2, opAddr := 0x10000, opData := [5] } };
        decide (wideReset s = false) && decide (fuBusy s = true) && decide (noSteps s) && decide (s.ldrH.op = 2)) = true ∧
    (let s : State := { z [(LDR_FUCFG, 0x80000001), (LDR_FUSTAT, 0xC0000000)] with ldrH := { op := 3 } };
        decide (wideReset s = false) && decide (fuBusy s = true) && decide (noSteps s) && decide (s.ldrH.op = 3) &&
        decide (s.fl LDR_FUSTAT 29 28 = 0)) = true ∧
    (let s : State := z [(LDR_FUSESTAT, 0x80000000), (LDR_FUSE 20, 1)]; decide (s.bt LDR_FUSESTAT 31 = true) &&
        decide (dbgMode s = 1) && decide (s.ldrH.unlocked = false) && decide (s.ldrH.refused = false)) = true ∧
    (let s : State := z [(LDR_FUSESTAT, 0x80000000)]; let b : BitVec 12 := 895; decide (opens s 31 LDR_FPROG .ldr) &&
        decide (noSteps s) && decide (s.bt LDR_FPSTAT 31 = false) && decide (fuseOpen s b.toNat = true)) = true ∧
    (let s : State := { z [] with ldrH := { blowing := some 1887 } }; let b : Fin 4096 := 1887;
        decide (s.ldrH.blowing = some b.val)) = true := by decide +kernel

theorem witness_PowerSequencer :
    (let s : State := { z [(PMU_SEQSTAT, 0x50000000), (PMU_MONSTAT, 0x4000000)] with srcs := 2, cycles := 10000000, seqH := { retryDone := true } };
        let ready : Bool := true;
        decide (ready = decide ((seqState s = 0 ∨ (seqState s = 5 ∧ s.seqH.retryDone = true)) ∧ s.bt PMU_MONSTAT 26 = true ∧ s.bt PMU_MONSTAT 31 = false ∧ bitAt s.srcs 0 = false ∧ s.seqH.start + 10000000 ≤ s.cycles)) &&
        decide (ready = true)) = true ∧
    (let s : State := { z [(PMU_SEQSTAT, 0x50000000), (PMU_MONSTAT, 0x4000000)] with srcs := 2, cycles := 9999999, seqH := { retryDone := true } };
        let ready : Bool := false;
        decide (ready = decide ((seqState s = 0 ∨ (seqState s = 5 ∧ s.seqH.retryDone = true)) ∧ s.bt PMU_MONSTAT 26 = true ∧ s.bt PMU_MONSTAT 31 = false ∧ bitAt s.srcs 0 = false ∧ s.seqH.start + 10000000 ≤ s.cycles)) &&
        decide (ready = false)) = true ∧
    (let s : State := { z [(PMU_SEQSTAT, 0x10000F00)] with cycles := 2000000000 }; decide (seqState s = 1)) = true ∧
    (let s : State := { z [(PMU_SEQSTAT, 0x20000F00)] with cycles := 2000000000 }; decide (seqState s ≠ 1)) = true ∧
    (let s : State := { z [(PMU_SEQSTAT, 0x103F3F00)] with cycles := 1000000, srcs := 2 }; let settled : Bool := true;
        decide (settled = decide (seqState s = 1 ∧ pwrEn s = 63 ∧ pgood s / 16 = 3 ∧ s.seqH.stepAt + 1000000 ≤ s.cycles)) &&
        decide (settled = true)) = true ∧
    (let s : State := { z [(PMU_SEQSTAT, 0x103F3F00)] with cycles := 999999 }; let settled : Bool := false;
        decide (settled = decide (seqState s = 1 ∧ pwrEn s = 63 ∧ pgood s / 16 = 3 ∧ s.seqH.stepAt + 1000000 ≤ s.cycles)) &&
        decide (settled = false)) = true ∧
    (let s : State := { z [(PMU_SEQSTAT, 0x10000100)] with cycles := 2000000000 }; let late : Bool := true; let p := (1, 0);
        decide (late = decide (seqState s = 1 ∧ ¬(pwrEn s = 63 ∧ pgood s / 16 = 3) ∧ s.seqH.stepAt + s.fl PMU_SEQCFG 7 0 * 1000000 ≤ s.cycles)) &&
        decide (late = true) && decide (p ∈ [(63, 15), (15, 7), (7, 1), (1, 0)]) && decide (pwrEn s = p.1)) = true ∧
    (let s : State := { z [(PMU_SEQSTAT, 0x103F3F00)] with cycles := 2000000000 }; let late : Bool := false;
        decide (late = decide (seqState s = 1 ∧ ¬(pwrEn s = 63 ∧ pgood s / 16 = 3) ∧ s.seqH.stepAt + s.fl PMU_SEQCFG 7 0 * 1000000 ≤ s.cycles)) &&
        decide (late = false)) = true ∧
    (let s : State := { z [(PMU_SEQSTAT, 0x50000000)] with cycles := 1000000000 }; let ended : Bool := true;
        decide (ended = decide (seqState s = 5 ∧ s.seqH.retryDone = false ∧ s.seqH.stepAt + 1000000000 ≤ s.cycles)) &&
        decide (ended = true)) = true ∧
    (let s : State := { z [(PMU_SEQSTAT, 0x50000000)] with cycles := 999999999 }; let ended : Bool := false;
        decide (ended = decide (seqState s = 5 ∧ s.seqH.retryDone = false ∧ s.seqH.stepAt + 1000000000 ≤ s.cycles)) &&
        decide (ended = false)) = true ∧
    (let s : State := { z [(PMU_SEQSTAT, 0x40003F00)] with cycles := 2000000000 }; let pg : BitVec 6 := 63;
        let limit := true; let p := (63, 15); let high := (pg.toNat &&& lastLowered (pwrEn s) != 0);
        decide (seqState s = 4) && decide (high = false ∨ limit = true) &&
        decide (s.seqH.stepAt + (s.fl PMU_SEQCFG 23 16 + if high then 20 else 0) * 1000000 ≤ s.cycles) &&
        decide (p ∈ [(63, 15), (15, 7), (7, 1), (1, 0)]) && decide (pwrEn s = p.1)) = true ∧
    (let s : State := z [(PMU_SEQSTAT, 0x40003F00)]; let pg : BitVec 6 := 63; let limit := false; let high := (pg.toNat &&&
        lastLowered (pwrEn s) != 0);
        decide (seqState s ≠ 4 ∨ (high = true ∧ limit = false) ∨ s.cycles < s.seqH.stepAt + (s.fl PMU_SEQCFG 23 16 + if high then 20 else 0) * 1000000)) = true ∧
    (let s : State := { z [(PMU_SEQSTAT, 0x203F3F00)] with cycles := 2000000000 }; decide (seqState s ≠ 3)) = true ∧
    (let s : State := { z [(PMU_SEQSTAT, 0x303F3F00)] with cycles := 2000000000 }; let p := (63, 15);
        decide (seqState s = 3) && decide (p ∈ [(63, 15), (15, 7), (7, 1)]) && decide (pwrEn s = p.1)) = true ∧
    (let s : State := z [(PMU_BANKV, 0x80000000)]; let g : Fin 16 := 15; decide (s.bt PMU_BANKV 31 = true) &&
        decide (bitAt s.bankuv g.val = false)) = true ∧
    (let s : State := z []; let g : Fin 16 := 15; decide (s.bt PMU_BANKV 31 = false ∨ bitAt s.bankuv g.val = true)) = true ∧
    (let s : State := { z [(PMU_SEQSTAT, 0x203F3F00)] with cycles := 2000000000 }; decide (seqState s = 2)) = true ∧
    (let s : State := { z [(PMU_SEQSTAT, 0x403F3F00)] with cycles := 2000000000 }; decide (seqState s ≠ 2)) = true ∧
    (let s : State := { z [(PMU_SEQSTAT, 0x203E3F00)] with cycles := 2000000000 }; decide (seqState s = 2) &&
        decide (warned s = true)) = true ∧
    (let s : State := z [(PMU_SEQSTAT, 0x203E3F00), (PMU_HOLDCFG, 1)]; decide (seqState s ≠ 2 ∨ warned s = false)) = true ∧
    (let s : State := { z [(PMU_SEQSTAT, 0x303E3F00)] with cycles := 2000000000 }; let p := (63, 15);
        decide (seqState s = 3) && decide (s.seqH.stepAt + s.seqH.holdT * 1000000 ≤ s.cycles) &&
        decide (p ∈ [(63, 15), (15, 7), (7, 1)]) && decide (pwrEn s = p.1)) = true ∧
    (let s : State := { z [(PMU_SEQSTAT, 0x303E3F00)] with seqH := { holdT := 1 } };
        decide (seqState s ≠ 3 ∨ s.cycles < s.seqH.stepAt + s.seqH.holdT * 1000000)) = true ∧
    (let s : State := { z [(PMU_ADC_STAT 1, 1)] with cycles := 20000, adcH := [(1, { pos := 15 })] }; let x : Fin 2 := 1;
        let i : Nat := (s.adc x.val).pos; decide (adcDue s x.val = true) && decide (i < 16)) = true ∧
    (let s : State := { z [(PMU_ADC_STAT 1, 1)] with cycles := 249 }; let x : Fin 2 := 1;
        decide (adcDue s x.val = false)) = true := by decide +kernel

theorem witness_ResetsAndDomains :
    (let s : State := { z [] with srcs := 1 }; decide (bitAt s.srcs 0 = true)) = true ∧
    (let s : State := z []; decide (bitAt s.srcs 0 = false)) = true ∧
    (let s : State := { z [] with srcs := 0x40, cycles := 10000 }; let p := (TimedSrc.swCold, 6);
        decide (p ∈ [(TimedSrc.pllLoss, 4), (.swCold, 6), (.swWarm, 7)]) && decide (bitAt s.srcs p.2 = true) &&
        decide (smGet 0 s.seqH.srcAt p.2 + 10000 ≤ s.cycles)) = true ∧
    (let s : State := { z [] with srcs := 0x40, cycles := 9999 }; let p := (TimedSrc.swCold, 6);
        decide (p ∈ [(TimedSrc.pllLoss, 4), (.swCold, 6), (.swWarm, 7)]) &&
        decide (bitAt s.srcs p.2 = false ∨ s.cycles < smGet 0 s.seqH.srcAt p.2 + 10000)) = true ∧
    (let s : State := { z [] with wdrst := 0x80, cycles := 1000 }; let n := (7 : Fin 8);
        decide (bitAt s.wdrst n.val = true) && decide (smGet 0 s.seqH.srcAt (32 + n.val) + 1000 ≤ s.cycles)) = true ∧
    (let s : State := { z [] with wdrst := 0x80, cycles := 999 }; let n := (7 : Fin 8);
        decide (bitAt s.wdrst n.val = false ∨ s.cycles < smGet 0 s.seqH.srcAt (32 + n.val) + 1000)) = true ∧
    (let s : State := { z [(RST_SWSRC, 0x10000000)] with pulseSrc := 0x10000000, cycles := 1000 }; let x := (28 : Fin 29);
        decide (bitAt s.pulseSrc x.val = true) && decide (smGet 0 s.seqH.srcAt (64 + x.val) + 1000 ≤ s.cycles)) = true ∧
    (let s : State := { z [(RST_SWSRC, 0x10000000)] with pulseSrc := 0x10000000, cycles := 999 }; let x := (28 : Fin 29);
        decide (bitAt s.pulseSrc x.val = false ∨ s.cycles < smGet 0 s.seqH.srcAt (64 + x.val) + 1000)) = true ∧
    (let s : State := z []; let m : Master := 16; decide (opens s m RST_SWRST .ldr) && decide (supervisor s m.val = true) &&
        decide (noSteps s)) = true ∧
    (let s : State := z []; let m : Master := 16; let x : Fin 29 := 28; decide (opens s m RST_SWRST .ldr) &&
        decide (supervisor s m.val = true) && decide (noSteps s) && decide (s.bt RST_SWSRC x.val = false) &&
        let u := swsubOn s x.val false; decide (noSteps u)) = true ∧
    (let s : State := z []; let m : Master := 16; let x : Fin 29 := 28; decide (opens s m RST_SWRST .ldr) &&
        decide (supervisor s m.val = true) && decide (noSteps s) && decide (s.bt RST_SWSRC x.val = false) &&
        let u := swsubOn s x.val true; decide (noSteps u)) = true ∧
    (let s : State := z [(RST_SWSRC, 0x10000000)]; let m : Master := 16; let x : Fin 29 := 28;
        decide (opens s m RST_SWRST .ldr) && decide (supervisor s m.val = true) && decide (noSteps s) &&
        decide (s.bt RST_SWSRC x.val = true)) = true ∧
    (let s : State := z []; let m : Master := 16; let x : Fin 29 := 28; decide (opens s m RST_SWRST .ldr) &&
        decide (supervisor s m.val = true) && decide (noSteps s) && let u := swsubOff s x.val; decide (noSteps u)) = true ∧
    (let s : State := z [(LDR_STATUS, 0x80000000), (RST_SWSRC, 0x10000000)]; let m : Master := 16; let x : Fin 29 := 28;
        decide (opens s m RST_SWRST .ldr) && decide (supervisor s m.val = true) && decide (noSteps s) &&
        let u := swsubOff s x.val; decide (noSteps u) && decide (s.bt RST_SWSRC x.val = true) && decide (ldrRun s = true) &&
        decide (narrowSource u x.val = false)) = true ∧
    (let s : State := z []; let m : Master := 16; let hx := true; let v := 0x80000001; decide (opens s m RST_SWRST .ldr) &&
        decide (supervisor s m.val = true) && decide (noSteps s) && let a := (if hx then RST_BLKHX else RST_BLKCAN);
        decide (opens s m a .ldr) && let u := narrowStep s (fun s => s.wr a v) (if v &&& ~~~(s.rd a) = 0 then 0 else 0x2000);
        decide (noSteps u)) = true ∧
    (let s : State := z []; let m : Master := 16; let d : Fin 27 := 26; let on : Bool := false;
        let v := putBit (s.rd PMU_PDCTRL) d.val (!on); decide (opens s m PMU_PDCTRL .pmu) &&
        decide (supervisor s m.val = true) && decide (pdBusy s = false) && decide (s.rd PMU_PDCTRL &&& 0xF8000000 = 0) &&
        decide (v = putBit (s.rd PMU_PDCTRL) d.val (!on)) &&
        let u := narrowStep (s.wr PMU_PDCTRL v) (fun r => { r with pdoff := r.pdoff ||| (v &&&
        ~~~(s.rd PMU_PDCTRL)) }) (if v &&& ~~~(s.rd PMU_PDCTRL) = 0 then 0 else 0x200); decide (noSteps u)) = true ∧
    (let s : State := z []; let m : Master := 16; let d : Fin 27 := 26; let on : Bool := false;
        let v := putBit (s.rd PMU_PDCTRL) d.val (!on); decide (opens s m PMU_PDCTRL .pmu) &&
        decide (supervisor s m.val = true) && decide (pdBusy s = false) && decide (s.rd PMU_PDCTRL &&& 0xF8000000 = 0) &&
        decide (v = putBit (s.rd PMU_PDCTRL) d.val (!on)) &&
        let u := narrowStep (s.wr PMU_PDCTRL v) (fun r => { r with pdoff := r.pdoff ||| (v &&&
        ~~~(s.rd PMU_PDCTRL)) }) (if v &&& ~~~(s.rd PMU_PDCTRL) = 0 then 0 else 0x200); decide (noSteps u) &&
        decide (on = false) && decide (s.bt PMU_PDCTRL d.val = false)) = true ∧
    (let s : State := z [(PMU_PDCTRL, 0x4000000)]; let d : Fin 27 := 26; decide (s.bt PMU_PDCTRL d.val = true) &&
        decide (s.bt PMU_PDSTAT d.val = false)) = true ∧
    (let s : State := z [(PMU_PDSTAT, 0x4000000)]; let d : Fin 27 := 26; decide (s.bt PMU_PDCTRL d.val = false) &&
        decide (s.bt PMU_PDSTAT d.val = true)) = true := by decide +kernel

theorem witness_RealTimeClock :
    (let s : State := { z [(AON_STAT, 0x40000000), (PMU_MONSTAT, 0x4000000)] with cycles := 1000000000 };
        decide (noSteps s) && decide (s.bt AON_STAT 30 = true) && decide (s.rtcLen ≤ rtcCount s)) = true ∧
    (let s : State := z [(AON_STAT, 0x40000000), (PMU_MONSTAT, 0x4000000)]; let m : Master := 16; decide (noSteps s) &&
        decide (opens s m AON_RTC_CMD .aon) && decide (supervisor s m.val = true)) = true ∧
    (let s : State := { z [(AON_STAT, 0x40000000)] with rtcLoad := true }; decide (noSteps s) && decide (s.rtcLoad = true) &&
        decide (s.bt AON_STAT 30 = true)) = true ∧
    (let s : State := z [(AON_STAT, 0x40000000), (PMU_MONSTAT, 0x4000000)]; let m : Master := 16; decide (noSteps s) &&
        decide (opens s m AON_RTC_SECLO .aon)) = true ∧
    (let s : State := z [(AON_STAT, 0x40000000), (PMU_MONSTAT, 0x4000000)]; decide (noSteps s) &&
        decide (s.bt AON_STAT 30 = true)) = true ∧
    (let s : State := z []; decide (noSteps s) && decide (s.bt AON_STAT 30 = false)) = true ∧
    (let s : State := z [(AON_STAT, 0x40000000), (PMU_MONSTAT, 0x4000000)]; let vaon : Bool := false; decide (noSteps s) &&
        decide (s.bt PMU_MONSTAT 26 = !vaon)) = true ∧
    (let s : State := z [(AON_STAT, 0x40000000), (PMU_MONSTAT, 0x4000000)]; let m : Master := 16; let i : Fin 16 := 15;
        decide (noSteps s) && decide (opens s m (AON_SURV i.val) .aon) &&
        decide (supervisor s m.val = true)) = true := by decide +kernel

theorem witness_LineModuleSlots :
    (let s : State := { z [] with slotH := [(31, { prs := true, en := true, state := 3 })] }; let k : Fin 32 := 31;
        let h : SlotH := s.slot k.val; decide (h.prs = true)) = true ∧
    (let s : State := z []; let k : Fin 32 := 31; let h : SlotH := s.slot k.val; decide (h.prs = false) &&
        decide (slotsLive s = true)) = true ∧
    (let s : State := { z [] with slotH := [(31, { prs := true, state := 1 })] }; let k : Fin 32 := 31;
        let h : SlotH := s.slot k.val; decide (slotsLive s = true) && decide (h.state = 1)) = true ∧
    (let s : State := { z [] with slotH := [(31, { prs := true, state := 1 })] }; let k : Fin 32 := 31;
        let id := leBytes 4 0x4D4C5A4F ++ [1] ++ List.replicate 119 0 ++ leBytes 4 (crc32c (leBytes 4 0x4D4C5A4F ++ [1] ++ List.replicate 119 0));
        let p0 := []; let p1 := []; let h : SlotH := s.slot k.val; decide (slotsLive s = true) && decide (h.state = 1) &&
        decide (idGood id = true) && decide (s.rd (SLOT_CFG k.val) = 0) && decide (h.rejoin = false) &&
        decide (sameModule s k.val id = false) && decide (readPage p0 = none) && decide (readPage p1 = none)) = true ∧
    (let s : State := { z [] with slotH := [(31, { prs := true, state := 2 })] }; let m : Master := 16; let k : Fin 32 := 31;
        let h : SlotH := s.slot k.val; decide (noSteps s) && decide (opens s m (SLOT_CMD k.val) .hb) &&
        decide (supervisor s m.val = true) && decide (h.state = 2) && decide (h.flt = false)) = true ∧
    (let s : State := { z [] with slotH := [(31, { prs := true, en := true, state := 3 })] }; let m : Master := 16;
        let k : Fin 32 := 31; let h : SlotH := s.slot k.val; decide (noSteps s) && decide (opens s m (SLOT_CMD k.val) .hb) &&
        decide (supervisor s m.val = true) && decide (h.state = 3)) = true ∧
    (let s : State := { z [] with slotH := [(31, { prs := true, state := 4 })] }; let m : Master := 16; let k : Fin 32 := 31;
        let h : SlotH := s.slot k.val; decide (noSteps s) && decide (opens s m (SLOT_CMD k.val) .hb) &&
        decide (supervisor s m.val = true) && decide (h.state = 4) && decide (h.flt = false)) = true ∧
    (let s : State := { z [] with slotH := [(31, { prs := true, state := 5 })] }; let m : Master := 16; let k : Fin 32 := 31;
        let h : SlotH := s.slot k.val; decide (noSteps s) && decide (opens s m (SLOT_CMD k.val) .hb) &&
        decide (supervisor s m.val = true) && decide (h.state = 5)) = true ∧
    (let s : State := { z [] with slotH := [(31, { prs := true, en := true, state := 3 })] }; let k : Fin 32 := 31;
        let h : SlotH := s.slot k.val; decide (h.en = true) && decide (h.state = 3)) = true ∧
    (let s : State := { z [] with slotH := [(31, { flt := true })] }; let k : Fin 32 := 31; let h : SlotH := s.slot k.val;
        decide (h.flt = true)) = true ∧
    (let s : State := z []; let k : Fin 32 := 31; let w := 4999; let h : SlotH := s.slot k.val; decide (h.flt = false) &&
        decide (1000 ≤ w) && decide (w < 5000)) = true ∧
    (let s : State := z []; let k : Fin 32 := 31; let w := 9999; let h : SlotH := s.slot k.val; decide (h.flt = false) &&
        decide (5000 ≤ w) && decide (w < 10000)) = true ∧
    (let s : State := z []; let k : Fin 32 := 31; let w := 19999; let h : SlotH := s.slot k.val; decide (h.flt = false) &&
        decide (10000 ≤ w) && decide (w < 20000)) = true ∧
    (let s : State := z []; let k : Fin 32 := 31; let w := 20000; let h : SlotH := s.slot k.val; decide (h.flt = false) &&
        decide (20000 ≤ w)) = true ∧
    (let s : State := z []; let k : Fin 32 := 31; let w := 999; let h : SlotH := s.slot k.val; decide (h.flt = false) &&
        decide (w < 1000)) = true ∧
    (let s : State := { z [] with slotH := [(31, { prs := true, en := true, state := 3 })] }; let k : Fin 32 := 31;
        let x := 8191; let h : SlotH := s.slot k.val; decide (x < 8192) && decide (slotsLive s = true) &&
        decide (h.state = 3)) = true ∧
    (let s : State := { z [] with slotH := [(31, { prs := true, writing := some {} })] }; let k : Fin 32 := 31;
        let h : SlotH := s.slot k.val; match h.writing with
      | some _ => (decide (h.due = false))
      | _ => false) = true ∧
    (let s : State := { z [] with slotH := [(31, { prs := true, retry := 1 })] }; let k : Fin 32 := 31;
        let h : SlotH := s.slot k.val; decide (h.retry = 1) && decide (h.prs = true) && decide (slotsLive s = true) &&
        decide (h.writing = none)) = true := by decide +kernel

theorem witness_Diagnostics :
    (let s : State := z []; let m : Master := 16; decide (noSteps s) && decide (opens s m MEM_ELOG_W3 .mbx)) = true ∧
    (let s : State := z []; let m : Master := 16; let j : Fin 3 := 2; let a : Word := BitVec.ofNat 32 MEM_ELOG_W2;
        decide (noSteps s) && decide (a.toNat = MEM_ELOG_W0 + 4 * j.val) && decide (opens s m a.toNat .mbx)) = true ∧
    (let s : State := z []; decide (noSteps s)) = true ∧
    (let s : State := z []; let m : Master := 16; decide (noSteps s) && decide (opens s m MEM_BIST_CMD .mbx) &&
        decide (supervisor s m.val = true) && decide (bistRuns s = false)) = true ∧
    (let s : State := z [(MEM_BIST_STAT, 0x20000000)]; let m : Master := 16; decide (noSteps s) &&
        decide (opens s m MEM_BIST_CMD .mbx) && decide (supervisor s m.val = true) && decide (bistRuns s = true)) = true ∧
    (let s : State := z [(MEM_BIST_STAT, 0x20000000)]; decide (noSteps s) && decide (bistRuns s = true)) = true ∧
    (let s : State := z [(RST_SWSRC, 0x10000000)]; let m : Master := 16; let x : Fin 29 := 28; decide (noSteps s) &&
        decide (opens s m MEM_FT_CMD .mbx) && decide (supervisor s m.val = true) && decide (onlySwsub s x.val = true) &&
        decide (bitAt s.ftRan x.val = false) && decide (ftRuns s = false)) = true ∧
    (let s : State := z [(MEM_FT_STAT, 0x39000000)]; let cells := 65537; let x := 25; let c := 65537; decide (noSteps s) &&
        decide (ftRuns s = true) && decide (x = s.fl MEM_FT_STAT 28 24) &&
        decide (c = (if 10 ≤ x ∧ x < 26 then cells % 2 ^ 17 else 0))) = true ∧
    (let s : State := z []; let m : Master := 16; decide (noSteps s) && decide (opens s m MEM_CAL_CMD .mbx) &&
        decide (supervisor s m.val = true)) = true ∧
    (let s : State := { z [(MEM_CAL_STAT, 2)] with cycles := 32000 }; let x : Fin 2 := 1; decide (noSteps s) &&
        decide (s.bt MEM_CAL_STAT x.val = true) && decide (32 ≤ calCount s x.val)) = true ∧
    (let s : State := z [(MEM_CAL_STAT, 0x2000)]; let p : Fin 12 := 11; decide (noSteps s) &&
        decide (s.bt MEM_CAL_STAT (p.val + 2) = true) && decide (bitAt s.serCal (p.val + 2) = false) &&
        decide (linkUp s p.val = false ∨ (gatesRun s p.val = true ∧ (gate s p.val).begun = s.cycles + 1 ∧ fld (gEntry s p.val (gate s p.val).idx) 31 24 = 0 ∧ 5000 ≤ fld (gEntry s p.val (gate s p.val).idx) 23 0))) = true ∧
    (let s : State := { z [] with serCal := 0x2000 }; let p : Fin 12 := 11; decide (noSteps s) &&
        decide (bitAt s.serCal (p.val + 2) = true)) = true := by decide +kernel

theorem witness_RegisterOperations :
    (let s : State := onPe 0x03FEE800 []; let x : CtxId := .pe 7 7; let f : Upset := .good; let w : Word := 0x03FEE800;
        let s1 : State := (jFetch s (ctxKey x) f).1; decide (issues s x f .add w s1)) = true ∧
    (let s : State := onPe 0x03FEE801 []; let x : CtxId := .pe 7 7; let f : Upset := .good; let w : Word := 0x03FEE801;
        let s1 : State := (jFetch s (ctxKey x) f).1; decide (issues s x f .sub w s1)) = true ∧
    (let s : State := onPe 0x03FEE802 []; let x : CtxId := .pe 7 7; let f : Upset := .good; let w : Word := 0x03FEE802;
        let s1 : State := (jFetch s (ctxKey x) f).1; decide (issues s x f .and_ w s1)) = true ∧
    (let s : State := onPe 0x03FEE803 []; let x : CtxId := .pe 7 7; let f : Upset := .good; let w : Word := 0x03FEE803;
        let s1 : State := (jFetch s (ctxKey x) f).1; decide (issues s x f .or_ w s1)) = true ∧
    (let s : State := onPe 0x03FEE804 []; let x : CtxId := .pe 7 7; let f : Upset := .good; let w : Word := 0x03FEE804;
        let s1 : State := (jFetch s (ctxKey x) f).1; decide (issues s x f .xor_ w s1)) = true ∧
    (let s : State := onPe 0x03FEE805 []; let x : CtxId := .pe 7 7; let f : Upset := .good; let w : Word := 0x03FEE805;
        let s1 : State := (jFetch s (ctxKey x) f).1; decide (issues s x f .nor w s1)) = true ∧
    (let s : State := onPe 0x03FEE806 []; let x : CtxId := .pe 7 7; let f : Upset := .good; let w : Word := 0x03FEE806;
        let s1 : State := (jFetch s (ctxKey x) f).1; decide (issues s x f .sll w s1)) = true ∧
    (let s : State := onPe 0x03FEE807 []; let x : CtxId := .pe 7 7; let f : Upset := .good; let w : Word := 0x03FEE807;
        let s1 : State := (jFetch s (ctxKey x) f).1; decide (issues s x f .srl w s1)) = true ∧
    (let s : State := onPe 0x03FEE808 []; let x : CtxId := .pe 7 7; let f : Upset := .good; let w : Word := 0x03FEE808;
        let s1 : State := (jFetch s (ctxKey x) f).1; decide (issues s x f .sra w s1)) = true ∧
    (let s : State := onPe 0x03FEE809 []; let x : CtxId := .pe 7 7; let f : Upset := .good; let w : Word := 0x03FEE809;
        let s1 : State := (jFetch s (ctxKey x) f).1; decide (issues s x f .ror w s1)) = true ∧
    (let s : State := onPe 0x03FEE80A []; let x : CtxId := .pe 7 7; let f : Upset := .good; let w : Word := 0x03FEE80A;
        let s1 : State := (jFetch s (ctxKey x) f).1; decide (issues s x f .slt w s1)) = true ∧
    (let s : State := onPe 0x03FEE80B []; let x : CtxId := .pe 7 7; let f : Upset := .good; let w : Word := 0x03FEE80B;
        let s1 : State := (jFetch s (ctxKey x) f).1; decide (issues s x f .sltu w s1)) = true ∧
    (let s : State := onPe 0x03FEE80C []; let x : CtxId := .pe 7 7; let f : Upset := .good; let w : Word := 0x03FEE80C;
        let s1 : State := (jFetch s (ctxKey x) f).1; decide (issues s x f .min_ w s1)) = true ∧
    (let s : State := onPe 0x03FEE80D []; let x : CtxId := .pe 7 7; let f : Upset := .good; let w : Word := 0x03FEE80D;
        let s1 : State := (jFetch s (ctxKey x) f).1; decide (issues s x f .max_ w s1)) = true ∧
    (let s : State := onPe 0x03FEE80E []; let x : CtxId := .pe 7 7; let f : Upset := .good; let w : Word := 0x03FEE80E;
        let s1 : State := (jFetch s (ctxKey x) f).1; decide (issues s x f .minu w s1)) = true ∧
    (let s : State := onPe 0x03FEE80F []; let x : CtxId := .pe 7 7; let f : Upset := .good; let w : Word := 0x03FEE80F;
        let s1 : State := (jFetch s (ctxKey x) f).1; decide (issues s x f .maxu w s1)) = true ∧
    (let s : State := onPe 0x03FEE810 []; let x : CtxId := .pe 7 7; let f : Upset := .good; let w : Word := 0x03FEE810;
        let s1 : State := (jFetch s (ctxKey x) f).1; decide (issues s x f .mul w s1)) = true ∧
    (let s : State := onPe 0x03FEE811 []; let x : CtxId := .pe 7 7; let f : Upset := .good; let w : Word := 0x03FEE811;
        let s1 : State := (jFetch s (ctxKey x) f).1; decide (issues s x f .mulhu w s1)) = true ∧
    (let s : State := onPe 0x03FEE812 []; let x : CtxId := .pe 7 7; let f : Upset := .good; let w : Word := 0x03FEE812;
        let s1 : State := (jFetch s (ctxKey x) f).1; decide (issues s x f .mulh w s1)) = true := by decide +kernel

theorem witness_BitFieldOperations :
    (let s : State := onPe 0x03FE0013 []; let x : CtxId := .pe 7 7; let f : Upset := .good; let w : Word := 0x03FE0013;
        let s1 : State := (jFetch s (ctxKey x) f).1; decide (issues s x f .clz w s1)) = true ∧
    (let s : State := onPe 0x03FE0014 []; let x : CtxId := .pe 7 7; let f : Upset := .good; let w : Word := 0x03FE0014;
        let s1 : State := (jFetch s (ctxKey x) f).1; decide (issues s x f .popc w s1)) = true ∧
    (let s : State := onPe 0x03FE0015 []; let x : CtxId := .pe 7 7; let f : Upset := .good; let w : Word := 0x03FE0015;
        let s1 : State := (jFetch s (ctxKey x) f).1; decide (issues s x f .bswap w s1)) = true ∧
    (let s : State := onPe 0x03FE0016 []; let x : CtxId := .pe 7 7; let f : Upset := .good; let w : Word := 0x03FE0016;
        let s1 : State := (jFetch s (ctxKey x) f).1; decide (issues s x f .brev w s1)) = true ∧
    (let s : State := onPe 0x07FEF800 []; let x : CtxId := .pe 7 7; let f : Upset := .good; let w : Word := 0x07FEF800;
        let s1 : State := (jFetch s (ctxKey x) f).1; decide (issues s x f .slli w s1)) = true ∧
    (let s : State := onPe 0x07FEF801 []; let x : CtxId := .pe 7 7; let f : Upset := .good; let w : Word := 0x07FEF801;
        let s1 : State := (jFetch s (ctxKey x) f).1; decide (issues s x f .srli w s1)) = true ∧
    (let s : State := onPe 0x07FEF802 []; let x : CtxId := .pe 7 7; let f : Upset := .good; let w : Word := 0x07FEF802;
        let s1 : State := (jFetch s (ctxKey x) f).1; decide (issues s x f .srai w s1)) = true ∧
    (let s : State := onPe 0x07FEF803 []; let x : CtxId := .pe 7 7; let f : Upset := .good; let w : Word := 0x07FEF803;
        let s1 : State := (jFetch s (ctxKey x) f).1; decide (issues s x f .rori w s1)) = true ∧
    (let s : State := onPe 0x0BFEF800 []; let x : CtxId := .pe 7 7; let f : Upset := .good; let w : Word := 0x0BFEF800;
        let s1 : State := (jFetch s (ctxKey x) f).1; decide (issues s x f .extu w s1)) = true ∧
    (let s : State := onPe 0x0BFEF801 []; let x : CtxId := .pe 7 7; let f : Upset := .good; let w : Word := 0x0BFEF801;
        let s1 : State := (jFetch s (ctxKey x) f).1; decide (issues s x f .exts w s1)) = true ∧
    (let s : State := onPe 0x0BFEF802 []; let x : CtxId := .pe 7 7; let f : Upset := .good; let w : Word := 0x0BFEF802;
        let s1 : State := (jFetch s (ctxKey x) f).1; decide (issues s x f .ins w s1)) = true := by decide +kernel

theorem witness_ImmediateOperations :
    (let s : State := onPe 0x13FE0000 []; let x : CtxId := .pe 7 7; let f : Upset := .good; let w : Word := 0x13FE0000;
        let s1 : State := (jFetch s (ctxKey x) f).1; decide (issues s x f .addi w s1)) = true ∧
    (let s : State := onPe 0x17FE0000 []; let x : CtxId := .pe 7 7; let f : Upset := .good; let w : Word := 0x17FE0000;
        let s1 : State := (jFetch s (ctxKey x) f).1; decide (issues s x f .andi w s1)) = true ∧
    (let s : State := onPe 0x1BFE0000 []; let x : CtxId := .pe 7 7; let f : Upset := .good; let w : Word := 0x1BFE0000;
        let s1 : State := (jFetch s (ctxKey x) f).1; decide (issues s x f .ori w s1)) = true ∧
    (let s : State := onPe 0x1FFE0000 []; let x : CtxId := .pe 7 7; let f : Upset := .good; let w : Word := 0x1FFE0000;
        let s1 : State := (jFetch s (ctxKey x) f).1; decide (issues s x f .xori w s1)) = true ∧
    (let s : State := onPe 0x23FE0000 []; let x : CtxId := .pe 7 7; let f : Upset := .good; let w : Word := 0x23FE0000;
        let s1 : State := (jFetch s (ctxKey x) f).1; decide (issues s x f .slti w s1)) = true ∧
    (let s : State := onPe 0x27FE0000 []; let x : CtxId := .pe 7 7; let f : Upset := .good; let w : Word := 0x27FE0000;
        let s1 : State := (jFetch s (ctxKey x) f).1; decide (issues s x f .sltiu w s1)) = true ∧
    (let s : State := onPe 0x2BE0FFFF []; let x : CtxId := .pe 7 7; let f : Upset := .good; let w : Word := 0x2BE0FFFF;
        let s1 : State := (jFetch s (ctxKey x) f).1; decide (issues s x f .lui w s1)) = true := by decide +kernel

theorem witness_RegisterFrame :
    (let s : State := onPe 0x03FEE812 []; let x : CtxId := .pe 7 7; let f : Upset := .good; let w : Word := 0x03FEE812;
        let s1 : State := (jFetch s (ctxKey x) f).1; let p : JMn × Instr := (.mulh, .mulh x f);
        decide (p ∈ registerRows x f) && decide (issues s x f p.1 w s1) && decide (testHeld s1)) = true := by decide +kernel

theorem witness_OwnScratchpad :
    (let s : State := onPe 0x43FE0000 []; let n : Fin 8 := 7; let k : Fin 8 := 7; let f : Upset := .good;
        let u : Upset := .good; let w : Word := 0x43FE0000; let x : CtxId := .pe 7 7;
        let s1 : State := (jFetch s (ctxKey x) f).1; decide (x = .pe n k) &&
        let a : Word := getG s1 (ctxKey x) (jRa w) + immS w; decide (inScratch n.val a.toNat = true) &&
        decide (plainWord s1 a.toNat u) && decide (issues s x f .lw w s1) && decide (a.toNat % 4 = 0)) = true ∧
    (let s : State := onPe 0x47FEFFFE []; let n : Fin 8 := 7; let k : Fin 8 := 7; let f : Upset := .good;
        let u : Upset := .good; let w : Word := 0x47FEFFFE; let x : CtxId := .pe 7 7;
        let s1 : State := (jFetch s (ctxKey x) f).1; decide (x = .pe n k) &&
        let a : Word := getG s1 (ctxKey x) (jRa w) + immS w; decide (inScratch n.val a.toNat = true) &&
        decide (plainWord s1 a.toNat u) && decide (issues s x f .lh w s1) && decide (a.toNat % 2 = 0)) = true ∧
    (let s : State := onPe 0x4BFE0002 []; let n : Fin 8 := 7; let k : Fin 8 := 7; let f : Upset := .good;
        let u : Upset := .good; let w : Word := 0x4BFE0002; let x : CtxId := .pe 7 7;
        let s1 : State := (jFetch s (ctxKey x) f).1; decide (x = .pe n k) &&
        let a : Word := getG s1 (ctxKey x) (jRa w) + immS w; decide (inScratch n.val a.toNat = true) &&
        decide (plainWord s1 a.toNat u) && decide (issues s x f .lhu w s1) && decide (a.toNat % 2 = 0)) = true ∧
    (let s : State := onPe 0x4FFEFFFF []; let n : Fin 8 := 7; let k : Fin 8 := 7; let f : Upset := .good;
        let u : Upset := .good; let w : Word := 0x4FFEFFFF; let x : CtxId := .pe 7 7;
        let s1 : State := (jFetch s (ctxKey x) f).1; decide (x = .pe n k) &&
        let a : Word := getG s1 (ctxKey x) (jRa w) + immS w; decide (inScratch n.val a.toNat = true) &&
        decide (plainWord s1 a.toNat u) && decide (issues s x f .lb w s1)) = true ∧
    (let s : State := onPe 0x53FE0001 []; let n : Fin 8 := 7; let k : Fin 8 := 7; let f : Upset := .good;
        let u : Upset := .good; let w : Word := 0x53FE0001; let x : CtxId := .pe 7 7;
        let s1 : State := (jFetch s (ctxKey x) f).1; decide (x = .pe n k) &&
        let a : Word := getG s1 (ctxKey x) (jRa w) + immS w; decide (inScratch n.val a.toNat = true) &&
        decide (plainWord s1 a.toNat u) && decide (issues s x f .lbu w s1)) = true ∧
    (let s : State := onPe 0x67E00000 []; let n : Fin 8 := 7; let k : Fin 8 := 7; let f : Upset := .good;
        let u : Upset := .good; let w : Word := 0x67E00000; let x : CtxId := .pe 7 7;
        let s1 : State := (jFetch s (ctxKey x) f).1; decide (x = .pe n k) && let g : Word := getG s1 (ctxKey x) 29;
        decide (inScratch n.val g.toNat = true) && decide (plainWord s1 g.toNat u) && decide (g.toNat % 4 = 0) &&
        decide ((g + 4).toNat ≤ (s1.rd (ctxReg (ctxKey x) 7)).toNat) && decide (issues s x f .pop w s1)) = true ∧
    (let s : State := onPe 0x5FFE0003 []; let n : Fin 8 := 7; let k : Fin 8 := 7; let f : Upset := .good;
        let u : Upset := .good; let w : Word := 0x5FFE0003; let x : CtxId := .pe 7 7;
        let s1 : State := (jFetch s (ctxKey x) f).1; let i : Instr := Instr.sb x f u; let m : JMn := JMn.sb;
        let z : Nat := 1; decide (x = .pe n k) && let a : Word := getG s1 (ctxKey x) (jRa w) + immS w;
        decide ((i, m, z) ∈ [(Instr.sw x f u, JMn.sw, 4), (.sh x f u, .sh, 2), (.sb x f u, .sb, 1)]) &&
        decide (issues s x f m w s1) && decide (a.toNat % z = 0) && decide (inScratch n.val a.toNat = true) &&
        decide (plainWord s1 a.toNat u)) = true ∧
    (let s : State := onPe 0x63E00000 []; let n : Fin 8 := 7; let k : Fin 8 := 7; let f : Upset := .good;
        let u : Upset := .good; let w : Word := 0x63E00000; let x : CtxId := .pe 7 7;
        let s1 : State := (jFetch s (ctxKey x) f).1; decide (x = .pe n k) && let p : Word := getG s1 (ctxKey x) 29 - 4;
        decide (issues s x f .push w s1) && decide ((s1.rd (ctxReg (ctxKey x) 6)).toNat ≤ p.toNat) &&
        decide (p.toNat % 4 = 0) && decide (inScratch n.val p.toNat = true) &&
        decide (plainWord s1 p.toNat u)) = true := by decide +kernel

theorem witness_RemoteAccesses :
    (let s : State := onPe 0x43FE0000 [(gReg 63 30, 0x20FFFFFC), (MEM_OWN 31, 8)]; let n : Fin 8 := 7; let k : Fin 8 := 7;
        let f : Upset := .good; let w : Word := 0x43FE0000; let x : CtxId := .pe 7 7;
        let s1 : State := (jFetch s (ctxKey x) f).1; decide (x = .pe n k) &&
        let a : Word := getG s1 (ctxKey x) (jRa w) + immS w; decide (inScratch n.val a.toNat = false) &&
        decide (regionOf a.toNat ≠ some .ob) && decide (issues s x f .lw w s1) && decide (a.toNat % 4 = 0)) = true ∧
    (let s : State := onPe 0x57FE0000 [(gReg 63 30, 0x20FFFFFC), (MEM_OWN 31, 8)]; let n : Fin 8 := 7; let k : Fin 8 := 7;
        let f : Upset := .good; let w : Word := 0x57FE0000; let x : CtxId := .pe 7 7;
        let s1 : State := (jFetch s (ctxKey x) f).1; decide (x = .pe n k) &&
        let a : Word := getG s1 (ctxKey x) (jRa w) + immS w; decide (inScratch n.val a.toNat = false) &&
        decide (regionOf a.toNat ≠ some .ob) && decide (issues s x f .sw w s1) && decide (a.toNat % 4 = 0) &&
        decide ((postedOf s1 (ctxKey x)).length < 4)) = true ∧
    (let s : State := { onPe 0 [(gReg 63 30, 0x20FFFFFC), (MEM_OWN 31, 8)] with ctxH := [(63, { blk := .load 0x20FFFFFC 4 31 false false false })] };
        let n : Fin 8 := 7; let k : Fin 8 := 7; let u : Upset := .good; let w : Word := 0x43FE0000; let s1 : State := s;
        let x : CtxId := .pe 7 7; let a : Word := 0x20FFFFFC; let z := 4; let rd := 31; let sg := false;
        decide (x = .pe n k) && decide (a = getG s1 (ctxKey x) (jRa w) + immS w) &&
        decide (inScratch n.val a.toNat = false) && decide (regionOf a.toNat ≠ some .ob) && decide (z ≠ 8) &&
        decide ((s.ctx (ctxKey x)).blk = .load a.toNat z rd sg false false) && decide (ctxLive s (ctxKey x) = true) &&
        decide (behind s (ctxKey x) a.toNat = false) && match busAcc s (n.val + 1) a.toNat (sizeOf_ z) .rd u with
      | (s2, .ok _) => (decide ((s2.ctx (ctxKey x)).blk = (s.ctx (ctxKey x)).blk))
      | _ => false) = true ∧
    (let s : State := { onPe 0 [(gReg 63 30, 0x20FFFFFC), (MEM_OWN 31, 8)] with ctxH := [(63, { posted := [{ addr := 0x20FFFFFC, size := 4, val := 7 }] })] };
        let n : Fin 8 := 7; let k : Fin 8 := 7; let u : Upset := .good; let w : Word := 0x43FE0000; let s1 : State := s;
        let x : CtxId := .pe 7 7; let a : Word := 0x20FFFFFC;
        let s2 := (busAcc (s.setCtx (ctxKey x) { s.ctx (ctxKey x) with posted := [] }) (n.val + 1) 0x20FFFFFC .w (.wr 7) u).1;
        decide (x = .pe n k) && decide (a = getG s1 (ctxKey x) (jRa w) + immS w) &&
        decide (inScratch n.val a.toNat = false) && decide (regionOf a.toNat ≠ some .ob) &&
        match (s.ctx (ctxKey x)).posted with
      | e :: r => (decide (outstanding s (ctxKey x) e.addr e.seq = false) && decide (e.size ≠ 8) &&
          decide ((s.ctx (ctxKey x)).blk = .none) && decide (noSteps s2) &&
          match busAcc (s.setCtx (ctxKey x) { s.ctx (ctxKey x) with posted := r }) (n.val + 1) e.addr (sizeOf_ e.size) (.wr (BitVec.ofNat 32 e.val)) u with
        | (s2, .ok _) => (decide ((s2.ctx (ctxKey x)).blk = .none))
        | _ => false)
      | _ => false) = true := by decide +kernel

theorem witness_BranchesAndJumps :
    (let s : State := onPe 0x73FEFFFF []; let x : CtxId := .pe 7 7; let f : Upset := .good; let w : Word := 0x73FEFFFF;
        let s1 : State := (jFetch s (ctxKey x) f).1; decide (issues s x f .beq w s1)) = true ∧
    (let s : State := onPe 0x77FEFFFF []; let x : CtxId := .pe 7 7; let f : Upset := .good; let w : Word := 0x77FEFFFF;
        let s1 : State := (jFetch s (ctxKey x) f).1; decide (issues s x f .bne w s1)) = true ∧
    (let s : State := onPe 0x7BFEFFFF []; let x : CtxId := .pe 7 7; let f : Upset := .good; let w : Word := 0x7BFEFFFF;
        let s1 : State := (jFetch s (ctxKey x) f).1; decide (issues s x f .blt w s1)) = true ∧
    (let s : State := onPe 0x7FFEFFFF []; let x : CtxId := .pe 7 7; let f : Upset := .good; let w : Word := 0x7FFEFFFF;
        let s1 : State := (jFetch s (ctxKey x) f).1; decide (issues s x f .bge w s1)) = true ∧
    (let s : State := onPe 0x83FEFFFF []; let x : CtxId := .pe 7 7; let f : Upset := .good; let w : Word := 0x83FEFFFF;
        let s1 : State := (jFetch s (ctxKey x) f).1; decide (issues s x f .bltu w s1)) = true ∧
    (let s : State := onPe 0x87FEFFFF []; let x : CtxId := .pe 7 7; let f : Upset := .good; let w : Word := 0x87FEFFFF;
        let s1 : State := (jFetch s (ctxKey x) f).1; decide (issues s x f .bgeu w s1)) = true ∧
    (let s : State := onPe 0x93FFFFFF []; let x : CtxId := .pe 7 7; let f : Upset := .good; let w : Word := 0x93FFFFFF;
        let s1 : State := (jFetch s (ctxKey x) f).1; decide (issues s x f .j w s1)) = true ∧
    (let s : State := onPe 0x981E0000 []; let x : CtxId := .pe 7 7; let f : Upset := .good; let w : Word := 0x981E0000;
        let s1 : State := (jFetch s (ctxKey x) f).1; decide (issues s x f .jr w s1)) = true ∧
    (let s : State := onPe 0x97FFFFFF []; let x : CtxId := .pe 7 7; let f : Upset := .good; let w : Word := 0x97FFFFFF;
        let s1 : State := (jFetch s (ctxKey x) f).1; let k : Nat := ctxKey x; let h : CtxH := s1.ctx k;
        decide (issues s x f .call w s1) && decide (h.rs.length < 32)) = true ∧
    (let s : State := onPe 0x9C1E0000 []; let x : CtxId := .pe 7 7; let f : Upset := .good; let w : Word := 0x9C1E0000;
        let s1 : State := (jFetch s (ctxKey x) f).1; let k : Nat := ctxKey x; let h : CtxH := s1.ctx k;
        decide (issues s x f .callr w s1) && decide (h.rs.length < 32)) = true ∧
    (let s : State := { onPe 0xA0000000 [] with ctxH := [(63, { rs := [5] })] }; let x : CtxId := .pe 7 7;
        let f : Upset := .good; let w : Word := 0xA0000000; let s1 : State := (jFetch s (ctxKey x) f).1;
        let k : Nat := ctxKey x; let h : CtxH := s1.ctx k; decide (issues s x f .ret w s1) && match h.rs with
      | _ :: _ => (true)
      | _ => false) = true := by decide +kernel

theorem witness_SystemInstructions :
    (let s : State := onPe 0xB0000000 []; let x : CtxId := .pe 7 7; let f : Upset := .good; let w : Word := 0xB0000000;
        let s1 : State := (jFetch s (ctxKey x) f).1; let k : Nat := ctxKey x; decide (nothingWaits s1 k) &&
        decide (cst s1 k = 1) && decide (issues s x f .fence w s1) && decide (postedOf s1 k = [])) = true ∧
    (let s : State := onPe 0xB0000001 []; let x : CtxId := .pe 7 7; let f : Upset := .good; let w : Word := 0xB0000001;
        let s1 : State := (jFetch s (ctxKey x) f).1; let k : Nat := ctxKey x; decide (nothingWaits s1 k) &&
        decide (cst s1 k = 1) && decide (issues s x f .wait w s1)) = true ∧
    (let s : State := onPe 0xB0000002 [(ctxReg 63 1, 0x60000000)]; let x : CtxId := .pe 7 7; let f : Upset := .good;
        let w : Word := 0xB0000002; let s1 : State := (jFetch s (ctxKey x) f).1; let k : Nat := ctxKey x;
        decide (nothingWaits s1 k) && decide (cst s1 k = 1) && decide (issues s x f .tret w s1)) = true ∧
    (let s : State := onPe 0xB000F803 []; let x : CtxId := .pe 7 7; let f : Upset := .good; let w : Word := 0xB000F803;
        let s1 : State := (jFetch s (ctxKey x) f).1; let k : Nat := ctxKey x; decide (nothingWaits s1 k) &&
        decide (cst s1 k = 1) && decide (issues s x f .trap w s1) && decide (ctxHM s1 k = false)) = true ∧
    (let s : State := onPe 0xB3E08004 []; let x : CtxId := .pe 7 7; let f : Upset := .good; let w : Word := 0xB3E08004;
        let s1 : State := (jFetch s (ctxKey x) f).1; let k : Nat := ctxKey x; decide (nothingWaits s1 k) &&
        decide (cst s1 k = 1) && decide (issues s x f .csrr w s1) && decide (jRb w ≠ 1) && decide (jRb w ≠ 12)) = true ∧
    (let s : State := onPe 0xB01E6805 []; let x : CtxId := .pe 7 7; let f : Upset := .good; let w : Word := 0xB01E6805;
        let s1 : State := (jFetch s (ctxKey x) f).1; let k : Nat := ctxKey x; decide (nothingWaits s1 k) &&
        decide (cst s1 k = 1) && decide (issues s x f .csrw w s1) && decide (jRb w = 13)) = true ∧
    (let s : State := onPe 0xB0000006 []; let x : CtxId := .pe 7 7; let f : Upset := .good; let w : Word := 0xB0000006;
        let s1 : State := (jFetch s (ctxKey x) f).1; let k : Nat := ctxKey x; decide (nothingWaits s1 k) &&
        decide (cst s1 k = 1) && decide (issues s x f .halt w s1)) = true := by decide +kernel

theorem witness_CellCoprocessor :
    (let s : State := { onPe 0xE3FE0000 [(gReg 63 30, 255)] with fifo := [(511, [7])] }; let n : Fin 8 := 7;
        let k : Fin 8 := 7; let f : Upset := .good; let w : Word := 0xE3FE0000; let x : CtxId := .pe 7 7;
        let s1 : State := (jFetch s (ctxKey x) f).1; decide (x = .pe n k) &&
        let c : Nat := ((getG s1 (ctxKey x) (jRa w)).toNat % 256 + w.toNat % 256) % 256; decide (issues s x f .crx w s1) &&
        decide (behind s1 (ctxKey x) (CELL_RXDATA c) = false) && match busRead s1 (n.val + 1) (CELL_RXDATA c) with
      | (_, .ok _) => (true)
      | _ => false) = true ∧
    (let s : State := { onPe 0xE3FE1000 [(gReg 63 30, 255)] with fifo := [(511, [7])] }; let n : Fin 8 := 7;
        let k : Fin 8 := 7; let f : Upset := .good; let w : Word := 0xE3FE1000; let x : CtxId := .pe 7 7;
        let s1 : State := (jFetch s (ctxKey x) f).1; decide (x = .pe n k) &&
        let c : Nat := ((getG s1 (ctxKey x) (jRa w)).toNat % 256 + w.toNat % 256) % 256; decide (issues s x f .crxw w s1) &&
        decide (fifoWaits s1 (ctxKey x) true c = false) && decide (behind s1 (ctxKey x) (CELL_RXDATA c) = false) &&
        match busRead s1 (n.val + 1) (CELL_RXDATA c) with
      | (_, .ok _) => (true)
      | _ => false) = true ∧
    (let s : State := onPe 0xE3FE4000 [(gReg 63 30, 255)]; let n : Fin 8 := 7; let k : Fin 8 := 7; let f : Upset := .good;
        let w : Word := 0xE3FE4000; let x : CtxId := .pe 7 7; let s1 : State := (jFetch s (ctxKey x) f).1;
        decide (x = .pe n k) && let c : Nat := ((getG s1 (ctxKey x) (jRa w)).toNat % 256 + w.toNat % 256) % 256;
        decide (issues s x f .cstat w s1) && decide (behind s1 (ctxKey x) (CELL_FIFOSTAT c) = false) &&
        match busRead s1 (n.val + 1) (CELL_FIFOSTAT c) with
      | (_, .ok _) => (true)
      | _ => false) = true ∧
    (let s : State := onPe 0xE3FE5020 [(gReg 63 30, 255)]; let n : Fin 8 := 7; let k : Fin 8 := 7; let f : Upset := .good;
        let w : Word := 0xE3FE5020; let x : CtxId := .pe 7 7; let s1 : State := (jFetch s (ctxKey x) f).1;
        decide (x = .pe n k) &&
        let a : Nat := 0x30000000 + (getG s1 (ctxKey x) (jRa w)).toNat % 256 * 0x1000 + w.toNat % 2 ^ 12;
        decide (issues s x f .crd w s1) && decide (behind s1 (ctxKey x) a = false) && match busRead s1 (n.val + 1) a with
      | (_, .ok _) => (true)
      | _ => false) = true ∧
    (let s : State := onPe 0xE3FE2000 [(gReg 63 30, 255)]; let n : Fin 8 := 7; let k : Fin 8 := 7; let f : Upset := .good;
        let w : Word := 0xE3FE2000; let x : CtxId := .pe 7 7; let s1 : State := (jFetch s (ctxKey x) f).1;
        decide (x = .pe n k) && let c : Nat := ((getG s1 (ctxKey x) (jRa w)).toNat % 256 + w.toNat % 256) % 256;
        decide (issues s x f .ctx w s1) && decide (behind s1 (ctxKey x) (CELL_TXDATA c) = false) &&
        match busWrite s1 (n.val + 1) (CELL_TXDATA c) (getG s1 (ctxKey x) (jRd w)) with
      | (_, .ok _) => (true)
      | _ => false) = true ∧
    (let s : State := { onPe 0xE3FE3000 [(gReg 63 30, 255)] with fifo := [] }; let n : Fin 8 := 7; let k : Fin 8 := 7;
        let f : Upset := .good; let w : Word := 0xE3FE3000; let x : CtxId := .pe 7 7;
        let s1 : State := (jFetch s (ctxKey x) f).1; decide (x = .pe n k) &&
        let c : Nat := ((getG s1 (ctxKey x) (jRa w)).toNat % 256 + w.toNat % 256) % 256; decide (issues s x f .ctxw w s1) &&
        decide (fifoWaits s1 (ctxKey x) false c = false) && decide (behind s1 (ctxKey x) (CELL_TXDATA c) = false) &&
        match busWrite s1 (n.val + 1) (CELL_TXDATA c) (getG s1 (ctxKey x) (jRd w)) with
      | (_, .ok _) => (true)
      | _ => false) = true ∧
    (let s : State := onPe 0xE3FE6020 [(gReg 63 30, 255)]; let n : Fin 8 := 7; let k : Fin 8 := 7; let f : Upset := .good;
        let w : Word := 0xE3FE6020; let x : CtxId := .pe 7 7; let s1 : State := (jFetch s (ctxKey x) f).1;
        decide (x = .pe n k) &&
        let a : Nat := 0x30000000 + (getG s1 (ctxKey x) (jRa w)).toNat % 256 * 0x1000 + w.toNat % 2 ^ 12;
        decide (issues s x f .cwr w s1) && decide (behind s1 (ctxKey x) a = false) &&
        match busWrite s1 (n.val + 1) a (getG s1 (ctxKey x) (jRd w)) with
      | (_, .ok _) => (true)
      | _ => false) = true := by decide +kernel

theorem witness_BlockingForms :
    (let s : State := onPe 0xE3FE1000 [(gReg 63 30, 255)]; let n : Fin 8 := 7; let k : Fin 8 := 7; let f : Upset := .good;
        let w : Word := 0xE3FE1000; let x : CtxId := .pe 7 7; let s1 : State := (jFetch s (ctxKey x) f).1;
        decide (x = .pe n k) && let c : Nat := ((getG s1 (ctxKey x) (jRa w)).toNat % 256 + w.toNat % 256) % 256;
        decide (issues s x f .crxw w s1) && decide (fifoWaits s1 (ctxKey x) true c = true)) = true ∧
    (let n : Fin 8 := 7; let k : Fin 8 := 7; let w : Word := 0xE3FE1000;
        let s1 : State := { onPe 0xE3FE1000 [(gReg 63 30, 255)] with fifo := [(511, [7])], ctxH := [(63, { blk := .wait w })] };
        let x : CtxId := .pe 7 7; decide (x = .pe n k) &&
        let c : Nat := ((getG s1 (ctxKey x) (jRa w)).toNat % 256 + w.toNat % 256) % 256;
        decide ((s1.ctx (ctxKey x)).blk = .wait w) && decide (ctxLive s1 (ctxKey x) = true) &&
        decide (jDecode false w = some .crxw) && decide (fifoWaits s1 (ctxKey x) true c = false)) = true ∧
    (let n : Fin 8 := 7; let k : Fin 8 := 7; let w : Word := 0xE3FE1000;
        let s1 : State := { onPe 0xE3FE1000 [(gReg 63 30, 255)] with fifo := [(511, [7])], ctxH := [(63, { blk := .acc w (CELL_RXDATA 255) })] };
        let x : CtxId := .pe 7 7; decide (x = .pe n k) &&
        let c : Nat := ((getG s1 (ctxKey x) (jRa w)).toNat % 256 + w.toNat % 256) % 256;
        decide ((s1.ctx (ctxKey x)).blk = .acc w (CELL_RXDATA c)) && decide (ctxLive s1 (ctxKey x) = true) &&
        decide (jDecode false w = some .crxw) && decide (behind s1 (ctxKey x) (CELL_RXDATA c) = false) &&
        decide (fifoWaits s1 (ctxKey x) true c = false) && match busRead s1 (n.val + 1) (CELL_RXDATA c) with
      | (_, .ok _) => (true)
      | _ => false) = true ∧
    (let s : State := onPe 0xFC1EF000 [(PE_CP7CFG 7, 0x8000000F)]; let n : Fin 8 := 7; let k : Fin 8 := 7;
        let f : Upset := .good; let w : Word := 0xFC1EF000; let x : CtxId := .pe 7 7;
        let s1 : State := (jFetch s (ctxKey x) f).1; decide (x = .pe n k) && decide (issues s x f .x7 w s1) &&
        decide (s1.bt (PE_CP7CFG n.val) 31 = true) && decide (w.toNat % 2 = 0) &&
        let e := 16 * s1.fl (PE_CP7CFG n.val) 3 0 + w.toNat / 2 ^ 12 % 16;
        decide (fifoWaits s1 (ctxKey x) false e = false) && decide (behind s1 (ctxKey x) (CELL_TXDATA e) = false) &&
        match busWrite s1 (n.val + 1) (CELL_TXDATA e) (getG s1 (ctxKey x) (jRa w)) with
      | (_, .ok _) => (true)
      | _ => false) = true := by decide +kernel

theorem witness_CheckCoprocessor :
    (let s : State := onPe 0xE7FE8100 [(gReg 63 31, 0x80000020)]; let n : Fin 8 := 7; let k : Fin 8 := 7;
        let f : Upset := .good; let w : Word := 0xE7FE8100; let x : CtxId := .pe 7 7;
        let s1 : State := (jFetch s (ctxKey x) f).1; let i : Instr := Instr.ckwr x f; let m : JMn := JMn.ckwr;
        let r : Nat := 0x35007000 + w.toNat % 2 ^ 12; let d : Word := getG s1 (ctxKey x) (jRd w); decide (x = .pe n k) &&
        let b : Nat := 0x35000000 + n.val * 0x1000; let a : Word := getG s1 (ctxKey x) (jRa w);
        decide ((i, m, r, d) ∈ [(Instr.ckf1 x f, JMn.ckf1, CHK_FEED1 b, a), (.ckf2 x f, .ckf2, CHK_FEED2 b, a), (.ckf4 x f, .ckf4, CHK_FEED4 b, a), (.ckinit x f, .ckinit, CHK_CMD b, 1), (.ckend x f, .ckend, CHK_CMD b, 2), (.ckwr x f, .ckwr, b + w.toNat % 2 ^ 12, getG s1 (ctxKey x) (jRd w))]) &&
        decide (issues s x f m w s1) && decide (behind s1 (ctxKey x) r = false) && match busWrite s1 (n.val + 1) r d with
      | (_, .ok _) => (true)
      | _ => false) = true ∧
    (let s : State := onPe 0xE7FE7100 []; let n : Fin 8 := 7; let k : Fin 8 := 7; let f : Upset := .good;
        let w : Word := 0xE7FE7100; let x : CtxId := .pe 7 7; let s1 : State := (jFetch s (ctxKey x) f).1;
        let i : Instr := Instr.ckrd x f; let m : JMn := JMn.ckrd; let r : Nat := 0x35007000 + w.toNat % 2 ^ 12;
        decide (x = .pe n k) && let b : Nat := 0x35000000 + n.val * 0x1000;
        decide ((i, m, r) ∈ [(Instr.ckres x f, JMn.ckres, CHK_RESULT b), (.ckst x f, .ckst, CHK_STATE b), (.ckrd x f, .ckrd, b + w.toNat % 2 ^ 12)]) &&
        decide (issues s x f m w s1) && decide (behind s1 (ctxKey x) r = false) && match busRead s1 (n.val + 1) r with
      | (_, .ok _) => (true)
      | _ => false) = true := by decide +kernel

theorem witness_TimeCoprocessor :
    (let s : State := onPe 0xEBFE0003 []; let n : Fin 8 := 7; let k : Fin 8 := 7; let f : Upset := .good;
        let w : Word := 0xEBFE0003; let x : CtxId := .pe 7 7; let s1 : State := (jFetch s (ctxKey x) f).1;
        decide (x = .pe n k) && decide (issues s x f .tsnap w s1) &&
        decide (behind s1 (ctxKey x) (TU_TB_NS (w.toNat % 2 ^ 12)) = false) &&
        decide (closed s1 (n.val + 1) blkTu = false)) = true ∧
    (let s : State := { onPe 0xEBFE1000 [] with ctxH := [(63, { snap := some (0, 5) })] }; let n : Fin 8 := 7;
        let k : Fin 8 := 7; let f : Upset := .good; let w : Word := 0xEBFE1000; let x : CtxId := .pe 7 7;
        let s1 : State := (jFetch s (ctxKey x) f).1; decide (x = .pe n k) && let h : CtxH := s1.ctx (ctxKey x);
        match h.snap with
      | some (_, _) => (decide (issues s x f .tsecl w s1))
      | _ => false) = true ∧
    (let s : State := { onPe 0xEBFE2000 [] with ctxH := [(63, { snap := some (0, 5) })] }; let n : Fin 8 := 7;
        let k : Fin 8 := 7; let f : Upset := .good; let w : Word := 0xEBFE2000; let x : CtxId := .pe 7 7;
        let s1 : State := (jFetch s (ctxKey x) f).1; decide (x = .pe n k) && let h : CtxH := s1.ctx (ctxKey x);
        match h.snap with
      | some (_, _) => (decide (issues s x f .tsech w s1))
      | _ => false) = true ∧
    (let s : State := { onPe 0xEBFE3000 [] with ctxH := [(63, { snap := some (0, 5) })] }; let n : Fin 8 := 7;
        let k : Fin 8 := 7; let f : Upset := .good; let w : Word := 0xEBFE3000; let x : CtxId := .pe 7 7;
        let s1 : State := (jFetch s (ctxKey x) f).1; decide (x = .pe n k) && let h : CtxH := s1.ctx (ctxKey x);
        match h.snap with
      | some (_, _) => (decide (issues s x f .tsub w s1))
      | _ => false) = true ∧
    (let s : State := { onPe 0xEBFE4000 [(gReg 63 30, 0)] with ctxH := [(63, { snap := some (0, 5) })] }; let n : Fin 8 := 7;
        let k : Fin 8 := 7; let f : Upset := .good; let w : Word := 0xEBFE4000; let x : CtxId := .pe 7 7;
        let s1 : State := (jFetch s (ctxKey x) f).1; decide (x = .pe n k) && let a : Word := getG s1 (ctxKey x) (jRa w);
        let h : CtxH := s1.ctx (ctxKey x); match h.snap with
      | some (sec, _) => (decide (issues s x f .twait w s1) && decide (closed s1 (n.val + 1) blkTu = false) &&
          decide (a.toNat < 1000000000) && decide (sec * 1000000000 + a.toNat ≤ (s1.tb 0).sec * 1000000000 + (s1.tb 0).ns))
      | _ => false) = true ∧
    (let s : State := onPe 0xEBFE5000 [(gReg 63 30, 0)]; let n : Fin 8 := 7; let k : Fin 8 := 7; let f : Upset := .good;
        let w : Word := 0xEBFE5000; let x : CtxId := .pe 7 7; let s1 : State := (jFetch s (ctxKey x) f).1;
        decide (x = .pe n k) && let a : Word := getG s1 (ctxKey x) (jRa w);
        let r : Nat := (0x32000000 + a + BitVec.ofNat 32 (w.toNat % 2 ^ 12)).toNat; decide (issues s x f .trd w s1) &&
        decide (regionOf r ≠ some .ob) && decide (behind s1 (ctxKey x) r = false) && match busRead s1 (n.val + 1) r with
      | (_, .ok _) => (true)
      | _ => false) = true ∧
    (let s : State := onPe 0xEBFE6000 [(gReg 63 30, 0)]; let n : Fin 8 := 7; let k : Fin 8 := 7; let f : Upset := .good;
        let w : Word := 0xEBFE6000; let x : CtxId := .pe 7 7; let s1 : State := (jFetch s (ctxKey x) f).1;
        decide (x = .pe n k) && let a : Word := getG s1 (ctxKey x) (jRa w);
        let r : Nat := (0x32000000 + a + BitVec.ofNat 32 (w.toNat % 2 ^ 12)).toNat; decide (issues s x f .twr w s1) &&
        decide (behind s1 (ctxKey x) r = false) && match busWrite s1 (n.val + 1) r (getG s1 (ctxKey x) (jRd w)) with
      | (_, .ok _) => (true)
      | _ => false) = true := by decide +kernel

theorem witness_ImageCoprocessor :
    (let s : State := { onPe 0xEFFE0000 [(gReg 63 30, 1)] with img := [(1, { entry := 0x3904, s0 := { used := true, tag := 0, data := [1, 2, 3, 4] } })] };
        let n : Fin 8 := 7; let k : Fin 8 := 7; let f : Upset := .good; let w : Word := 0xEFFE0000; let x : CtxId := .pe 7 7;
        let s1 : State := (jFetch s (ctxKey x) f).1; decide (x = .pe n k) &&
        let p : Nat := (getG s1 (ctxKey x) (jRa w)).toNat % 65536; decide (closed s1 (n.val + 1) blkImg = false) &&
        decide (issues s x f .iget w s1) && decide (behind s1 (ctxKey x) (0x24000000 + 64 * p) = false) &&
        match pointRead s1 p (w.toNat % 2 == 1) with
      | some (_, _) => (true)
      | _ => false) = true ∧
    (let s : State := onPe 0xEFFE100F []; let n : Fin 8 := 7; let k : Fin 8 := 7; let f : Upset := .good;
        let w : Word := 0xEFFE100F; let x : CtxId := .pe 7 7; let s1 : State := (jFetch s (ctxKey x) f).1;
        decide (x = .pe n k) && let i : Nat := w.toNat % 2 ^ 12; decide (closed s1 (n.val + 1) blkImg = false) &&
        decide (issues s x f .irb w s1) && decide (i ≤ 15)) = true ∧
    (let s : State := onPe 0xEFFE200F []; let n : Fin 8 := 7; let k : Fin 8 := 7; let f : Upset := .good;
        let w : Word := 0xEFFE200F; let x : CtxId := .pe 7 7; let s1 : State := (jFetch s (ctxKey x) f).1;
        decide (x = .pe n k) && let i : Nat := w.toNat % 2 ^ 12; decide (closed s1 (n.val + 1) blkImg = false) &&
        decide (issues s x f .iwb w s1) && decide (i ≤ 15)) = true ∧
    (let s : State := onPe 0xEFFE4000 []; let n : Fin 8 := 7; let k : Fin 8 := 7; let f : Upset := .good;
        let w : Word := 0xEFFE4000; let x : CtxId := .pe 7 7; let s1 : State := (jFetch s (ctxKey x) f).1;
        decide (x = .pe n k) && decide (closed s1 (n.val + 1) blkImg = false) && decide (issues s x f .istn w s1)) = true ∧
    (let s : State := onPe 0xEFFE5000 []; let n : Fin 8 := 7; let k : Fin 8 := 7; let f : Upset := .good;
        let w : Word := 0xEFFE5000; let x : CtxId := .pe 7 7; let s1 : State := (jFetch s (ctxKey x) f).1;
        decide (x = .pe n k) && decide (closed s1 (n.val + 1) blkImg = false) && decide (issues s x f .ists w s1)) = true ∧
    (let s : State := onPe 0xEFFE6000 []; let n : Fin 8 := 7; let k : Fin 8 := 7; let f : Upset := .good;
        let w : Word := 0xEFFE6000; let x : CtxId := .pe 7 7; let s1 : State := (jFetch s (ctxKey x) f).1;
        decide (x = .pe n k) && decide (closed s1 (n.val + 1) blkImg = false) && decide (issues s x f .irts w s1)) = true ∧
    (let s : State := onPe 0xEFFE7000 []; let n : Fin 8 := 7; let k : Fin 8 := 7; let f : Upset := .good;
        let w : Word := 0xEFFE7000; let x : CtxId := .pe 7 7; let s1 : State := (jFetch s (ctxKey x) f).1;
        decide (x = .pe n k) && decide (closed s1 (n.val + 1) blkImg = false) && decide (issues s x f .iepo w s1) &&
        decide (behind s1 (ctxKey x) IMG_EPOCH_LO = false)) = true ∧
    (let s : State := { onPe 0xEFFE3000 [(gReg 63 30, 1)] with img := [(1, { entry := 0x3904, s0 := { used := true, tag := 0, data := [1, 2, 3, 4] } })] };
        let n : Fin 8 := 7; let k : Fin 8 := 7; let f : Upset := .good; let w : Word := 0xEFFE3000; let x : CtxId := .pe 7 7;
        let s1 : State := (jFetch s (ctxKey x) f).1; decide (x = .pe n k) && let d : Word := getG s1 (ctxKey x) (jRd w);
        let p : Nat := (getG s1 (ctxKey x) (jRa w)).toNat % 65536; let h : CtxH := s1.ctx (ctxKey x);
        decide (closed s1 (n.val + 1) blkImg = false) && decide (issues s x f .iput w s1) &&
        decide (behind s1 (ctxKey x) (0x24000000 + 64 * p) = false) && decide (h.bufSet = false) &&
        match imgPut s1 (n.val + 1) none p ((List.range 64).map (fun j => BitVec.ofNat 8 ((h.buf.getD (j / 4) 0).toNat / 2 ^ (8 * (j % 4))))) none (d.toNat % 65536) (s1.tb 0).ns ((s1.tb 0).sec) ((s1.tb 0).frac / 2 ^ 29) with
      | (_, true) => (true)
      | _ => false) = true := by decide +kernel

theorem witness_MailboxCoprocessor :
    (let s : State := onPe 0xF3FE003F [(MBX_CFG 63, 0x80080500), (gReg 63 30, 0x20000000)]; let n : Fin 8 := 7;
        let k : Fin 8 := 7; let f : Upset := .good; let w : Word := 0xF3FE003F; let x : CtxId := .pe 7 7;
        let s1 : State := (jFetch s (ctxKey x) f).1; decide (x = .pe n k) && let j : Nat := w.toNat % 2 ^ 12;
        decide (issues s x f .msend w s1) && decide (behind s1 (ctxKey x) (MBX_PTR j) = false) &&
        match mbxSend s1 (n.val + 1) j (getG s1 (ctxKey x) (jRa w)) ((getG s1 (ctxKey x) (jRd w)).toNat % 65536) with
      | (_, .ok _) => (true)
      | _ => false) = true ∧
    (let s : State := onPe 0xF3FE401F []; let n : Fin 8 := 7; let k : Fin 8 := 7; let f : Upset := .good;
        let w : Word := 0xF3FE401F; let x : CtxId := .pe 7 7; let s1 : State := (jFetch s (ctxKey x) f).1;
        let i : Instr := Instr.lkacq x f; let m : JMn := JMn.lkacq; let r : Nat := MBX_LK 31; decide (x = .pe n k) &&
        let j : Nat := w.toNat % 2 ^ 12;
        decide ((i, m, r) ∈ [(Instr.mtag x f, JMn.mtag, MBX_TAG j), (.mrecv x f, .mrecv, MBX_PTR j), (.mstat x f, .mstat, MBX_STAT j), (.lkacq x f, .lkacq, MBX_LK j)]) &&
        decide (issues s x f m w s1) && decide (behind s1 (ctxKey x) r = false) && match busRead s1 (n.val + 1) r with
      | (_, .ok _) => (true)
      | _ => false) = true ∧
    (let s : State := onPe 0xF3FE501F [(MBX_LK 31, 8)]; let n : Fin 8 := 7; let k : Fin 8 := 7; let f : Upset := .good;
        let w : Word := 0xF3FE501F; let x : CtxId := .pe 7 7; let s1 : State := (jFetch s (ctxKey x) f).1;
        decide (x = .pe n k) && let j : Nat := w.toNat % 2 ^ 12; decide (issues s x f .lkrel w s1) &&
        decide (behind s1 (ctxKey x) (MBX_LK j) = false) && match busWrite s1 (n.val + 1) (MBX_LK j) 0 with
      | (_, .ok _) => (true)
      | _ => false) = true := by decide +kernel

theorem witness_FpuArithmetic :
    (let s : State := setF (onPair 0x2FFEE800 []) 65 30 0x7FF0000000000001; let b : Bool := true; let w : Word := 0xB7FEE800;
        let s1 : State := s; let x : CtxId := .pair true; decide (x = .pair b) && let p : Nat := getF s1 (ctxKey x) (jRa w);
        let q : Nat := getF s1 (ctxKey x) (jRb w); decide (isNan f64 p ∨ isNan f64 q)) = true ∧
    (let s : State := onPair 0xB7FEE800 []; let b : Bool := true; let f : Upset := .good; let w : Word := 0xB7FEE800;
        let x : CtxId := .pair true; let s1 : State := (jFetch s (ctxKey x) f).1; decide (x = .pair b) &&
        decide (issues s x f .fadd w s1)) = true ∧
    (let s : State := onPair 0xB7FEE801 []; let b : Bool := true; let f : Upset := .good; let w : Word := 0xB7FEE801;
        let x : CtxId := .pair true; let s1 : State := (jFetch s (ctxKey x) f).1; decide (x = .pair b) &&
        decide (issues s x f .fsub w s1)) = true ∧
    (let s : State := onPair 0xB7FEE802 []; let b : Bool := true; let f : Upset := .good; let w : Word := 0xB7FEE802;
        let x : CtxId := .pair true; let s1 : State := (jFetch s (ctxKey x) f).1; decide (x = .pair b) &&
        decide (issues s x f .fmul w s1)) = true ∧
    (let s : State := onPair 0xB7FEE803 []; let b : Bool := true; let f : Upset := .good; let w : Word := 0xB7FEE803;
        let x : CtxId := .pair true; let s1 : State := (jFetch s (ctxKey x) f).1; decide (x = .pair b) &&
        decide (issues s x f .fdiv w s1)) = true ∧
    (let s : State := onPair 0xB7FE0004 []; let b : Bool := true; let f : Upset := .good; let w : Word := 0xB7FE0004;
        let x : CtxId := .pair true; let s1 : State := (jFetch s (ctxKey x) f).1; decide (x = .pair b) &&
        decide (issues s x f .fsqrt w s1)) = true ∧
    (let s : State := onPair 0xB7FEE805 []; let b : Bool := true; let f : Upset := .good; let w : Word := 0xB7FEE805;
        let x : CtxId := .pair true; let s1 : State := (jFetch s (ctxKey x) f).1; decide (x = .pair b) &&
        decide (issues s x f .fmin w s1)) = true ∧
    (let s : State := onPair 0xB7FEE806 []; let b : Bool := true; let f : Upset := .good; let w : Word := 0xB7FEE806;
        let x : CtxId := .pair true; let s1 : State := (jFetch s (ctxKey x) f).1; decide (x = .pair b) &&
        decide (issues s x f .fmax w s1)) = true ∧
    (let s : State := onPair 0xB7FE0007 []; let b : Bool := true; let f : Upset := .good; let w : Word := 0xB7FE0007;
        let x : CtxId := .pair true; let s1 : State := (jFetch s (ctxKey x) f).1; decide (x = .pair b) &&
        decide (issues s x f .fneg w s1)) = true ∧
    (let s : State := onPair 0xB7FE0008 []; let b : Bool := true; let f : Upset := .good; let w : Word := 0xB7FE0008;
        let x : CtxId := .pair true; let s1 : State := (jFetch s (ctxKey x) f).1; decide (x = .pair b) &&
        decide (issues s x f .fabs w s1)) = true ∧
    (let s : State := onPair 0xB7FE000C []; let b : Bool := true; let f : Upset := .good; let w : Word := 0xB7FE000C;
        let x : CtxId := .pair true; let s1 : State := (jFetch s (ctxKey x) f).1; decide (x = .pair b) &&
        decide (issues s x f .fcvtdw w s1)) = true ∧
    (let s : State := onPair 0xB7FE000E []; let b : Bool := true; let f : Upset := .good; let w : Word := 0xB7FE000E;
        let x : CtxId := .pair true; let s1 : State := (jFetch s (ctxKey x) f).1; decide (x = .pair b) &&
        decide (issues s x f .fcvtds w s1)) = true ∧
    (let s : State := onPair 0xB7FEE809 []; let b : Bool := true; let f : Upset := .good; let w : Word := 0xB7FEE809;
        let x : CtxId := .pair true; let s1 : State := (jFetch s (ctxKey x) f).1; decide (x = .pair b) &&
        decide (issues s x f .feq w s1)) = true ∧
    (let s : State := onPair 0xB7FEE80A []; let b : Bool := true; let f : Upset := .good; let w : Word := 0xB7FEE80A;
        let x : CtxId := .pair true; let s1 : State := (jFetch s (ctxKey x) f).1; decide (x = .pair b) &&
        decide (issues s x f .flt w s1)) = true ∧
    (let s : State := onPair 0xB7FEE80B []; let b : Bool := true; let f : Upset := .good; let w : Word := 0xB7FEE80B;
        let x : CtxId := .pair true; let s1 : State := (jFetch s (ctxKey x) f).1; decide (x = .pair b) &&
        decide (issues s x f .fle w s1)) = true ∧
    (let s : State := onPair 0xB7FE000F []; let b : Bool := true; let f : Upset := .good; let w : Word := 0xB7FE000F;
        let x : CtxId := .pair true; let s1 : State := (jFetch s (ctxKey x) f).1; decide (x = .pair b) &&
        decide (issues s x f .fcvtsd w s1)) = true ∧
    (let s : State := onPair 0xB7FE000D []; let b : Bool := true; let f : Upset := .good; let w : Word := 0xB7FE000D;
        let x : CtxId := .pair true; let s1 : State := (jFetch s (ctxKey x) f).1; decide (x = .pair b) &&
        decide (issues s x f .fcvtwd w s1)) = true := by decide +kernel

theorem witness_FpuMemory :
    (let s : State := onPair 0xBBFE0000 []; let b : Bool := true; let f : Upset := .good; let w : Word := 0xBBFE0000;
        let x : CtxId := .pair true; let s1 : State := (jFetch s (ctxKey x) f).1; decide (x = .pair b) &&
        let a : Nat := (getG s1 (ctxKey x) (jRa w) + immS w).toNat; decide (a % 8 = 0) && decide (regionOf a ≠ some .ob) &&
        decide (issues s x f .fld w s1) && decide (protOk s1 (ctxKey x) a 3 = true) &&
        decide (cacheable s1 (ctxKey x) a = false)) = true ∧
    (let s : State := onPair 0xBFFE0000 []; let b : Bool := true; let f : Upset := .good; let w : Word := 0xBFFE0000;
        let x : CtxId := .pair true; let s1 : State := (jFetch s (ctxKey x) f).1; decide (x = .pair b) &&
        let a : Nat := (getG s1 (ctxKey x) (jRa w) + immS w).toNat; decide (a % 8 = 0) && decide (regionOf a ≠ some .ob) &&
        decide (issues s x f .fst w s1) && decide (protOk s1 (ctxKey x) a 2 = true) &&
        decide ((postedOf s1 (ctxKey x)).length < 4)) = true := by decide +kernel

theorem witness_ContextCommands :
    (let s : State := onPe 0 [(ctxReg 63 1, 0)]; let m : Master := 8; let x : CtxId := .pe 7 7; let k : Nat := ctxKey x;
        decide (noSteps s) && decide (opens s m (localAddr m.val (ctxReg k 0)) (ctxRegion m x)) &&
        decide (cst s k = 0)) = true ∧
    (let s : State := onPe 0 []; let m : Master := 8; let x : CtxId := .pe 7 7; let k : Nat := ctxKey x;
        let h : CtxH := s.ctx k; decide (noSteps s) && decide (opens s m (localAddr m.val (ctxReg k 0)) (ctxRegion m x)) &&
        decide (cst s k = 1 ∨ cst s k = 2) && decide (h.blk = .none) && decide (h.slot = none)) = true ∧
    (let s : State := onPe 0 [(ctxReg 63 1, 0)]; let m : Master := 8; let x : CtxId := .pe 7 7; let k : Nat := ctxKey x;
        decide (noSteps s) && decide (opens s m (localAddr m.val (ctxReg k 0)) (ctxRegion m x)) && decide (cst s k = 0) &&
        decide (nothingWaits s k)) = true ∧
    (let s : State := onPe 0 [(ctxReg 63 1, 0xC0000000)]; let m : Master := 8; let x : CtxId := .pe 7 7;
        let k : Nat := ctxKey x; decide (noSteps s) && decide (opens s m (localAddr m.val (ctxReg k 0)) (ctxRegion m x)) &&
        decide (cst s k = 3)) = true ∧
    (let s : State := onPe 0 []; let m : Master := 8; let x : CtxId := .pe 7 7; let v := 0x80000001; let k : Nat := ctxKey x;
        decide (noSteps s) && decide (opens s m (localAddr m.val (ctxReg k 11)) (ctxRegion m x)) &&
        decide (fld v 23 0 ≠ 0)) = true := by decide +kernel

theorem witness_ContextStepAndEvents :
    (let s : State := onPe 0x03FEE800 [(ctxReg 63 1, 0)]; let m : Master := 8; let x : CtxId := .pe 7 7;
        let k : Nat := ctxKey x; decide (noSteps s) && decide (opens s m (localAddr m.val (ctxReg k 0)) (ctxRegion m x)) &&
        decide (cst s k = 0) && decide (ctxLive s k = true) && decide ((s.ctx k).blk = .none) && decide (excDue s k = 0) &&
        decide ((s.ctx k).slot = none) &&
        let s0 : State := { s.setCtx k { s.ctx k with step := true, waited := false } with resp := .ok 0 };
        match jFetch s0 k .good with
      | (s1, some (.inl w)) => (decide ((s1.ctx k).slot = none) && decide (jDecode (!onEngine k) w = some .add))
      | _ => false) = true ∧
    (let s : State := onPe 0 [(ctxReg 63 1, 0x50000000), (IMG_IRQSTAT, 1), (IMG_IRQEN, 1), (IMG_IRQROUTE, 0x7F00), (ctxReg 63 13, 1)];
        let x : CtxId := .pe 7 7; let k : Nat := ctxKey x; decide (ctxLive s k = true) && decide (cst s k = 1) &&
        decide (excDue s k = 3) && decide (jTurn s k = true)) = true ∧
    (let s : State := { onPe 0x03FEE800 [] with ctxH := [(63, { dbw := some 5 })] }; let x : CtxId := .pe 7 7;
        let k : Nat := ctxKey x; decide (ctxLive s k = true) && decide (cst s k = 1) && decide (excDue s k = 1) &&
        decide (jTurn s k = true) && match (s.ctx k).dbw with
      | some _ => (true)
      | _ => false) = true ∧
    (let s : State := onPe 0 [(ctxReg 63 1, 0x80000000), (IMG_IRQSTAT, 1), (IMG_IRQEN, 1), (IMG_IRQROUTE, 0x7F00), (ctxReg 63 13, 1)];
        let x : CtxId := .pe 7 7; let k : Nat := ctxKey x; decide (ctxLive s k = true) && decide (cst s k = 2) &&
        decide (intLines s k ≠ 0) && decide (ctxIE s k = false) && decide ((s.ctx k).wdPend = false) &&
        decide ((s.ctx k).dbw = none)) = true ∧
    (let s : State := onPe 0 [(ctxReg 63 11, 0x80000001)]; let x : CtxId := .pe 7 7; let dt := 2000000;
        let k : Nat := ctxKey x; let u := elapse s dt; decide (ctxLive u k = true) && decide (wdOut u k = true) &&
        decide (u.bt (ctxReg k 11) 30 = false)) = true ∧
    (let s : State := onPe 0 [(ctxReg 63 11, 0xC0000001)]; let x : CtxId := .pe 7 7; let dt := 2000000; let n : Fin 8 := 7;
        let j : Fin 8 := 7; let k : Nat := ctxKey x; let u := elapse s dt; decide (ctxLive u k = true) &&
        decide (wdOut u k = true) && decide (x = .pe n j) && decide (u.bt (ctxReg k 11) 30 = true) &&
        decide (u.bt (PE_CTRL n.val) 0 = false)) = true := by decide +kernel

theorem witness_DeviceService :
    (let s : State := { z [(ctxReg 56 1, 0x40000000)] with img := [(65535, { entry := 0x3904, s0 := { used := true, tag := 0, data := [1, 2, 3, 4] } })] };
        let n : Fin 8 := 7; let p : Fin 65536 := 65535; let k : Nat := 56; let c : ImgSlot := newestSlot (s.pt p.val);
        decide (c.used = true) && decide (firmCtx s n.val = some k) && decide (closed s (n.val + 1) blkImg = false) &&
        match imgPut s (n.val + 1) none p.val c.data none (c.qual ||| 1) c.ns c.sec c.sub with
      | (_, true) => (true)
      | _ => false) = true ∧
    (let s : State := { z [(ctxReg 63 1, 0xC0000000), (ctxReg 56 1, 0x40000000)] with img := [(65535, { entry := 0x3910, s0 := { used := true, tag := 0, data := [1, 2, 3, 4] } })] };
        let n : Fin 8 := 7; let k : Fin 8 := 7; let diag : Fin 65536 := 65535; let inputs : List (Fin 65536) := [1];
        let s1 : State := (imgPut s 8 none diag.val (diagBytes s diag.val 3 1) none 0 (s.tb 0).ns (s.tb 0).sec (s.tb 0).sub).1;
        let r : State × Option Nat := (inputs.map (·.val)).foldl (fun r p => serviceThen (staleAgain · 8 p) r) (s1, none);
        decide ((s.ctx (8 * n.val + k.val)).marked = false) && decide (closed s 8 blkImg = false) &&
        decide (cst s (8 * n.val + k.val) = 3) && decide (ctxLive s (8 * n.val + k.val) = true) &&
        decide (ctxLive s 56 = true) && decide (cst s 56 = 1) && decide (s.bt (PE_FAULT n.val) 31 = false) &&
        decide (imgPut s 8 none diag.val (diagBytes s diag.val 3 1) none 0 (s.tb 0).ns (s.tb 0).sec (s.tb 0).sub = (s1, true)) &&
        decide (r = (inputs.map (·.val)).foldl (fun r p => serviceThen (staleAgain · 8 p) r) (s1, none))) = true := by decide +kernel

theorem witness_StepRunsFront :
    (let s : State := { z [] with pending := [.pllLock, .pllLoss] }; let c := .pllLock; let rest := [.pllLoss];
        decide (s.pending = c :: rest)) = true ∧
    (let s : State := z []; decide (s.pending = [])) = true := by decide +kernel

theorem witness_ExceptionEntry :
    (let s : State := onPe 0 []; let x : CtxId := .pe 7 7; let code : Nat := 15; let sub : Nat := 255;
        decide (ctxHM s (ctxKey x) = false) && decide (code < 16) && decide (sub < 256)) = true := by decide +kernel

theorem witness_InstructionPosition :
    (let u : State := onPe 0 []; let x : CtxId := .pe 7 7; let k : Nat := ctxKey x; decide ((u.ctx k).stopping = false) &&
        decide ((u.ctx k).wdPend = false)) = true := by decide +kernel

theorem witness_ExceptionsAndDoubleFault :
    (let s : State := onPe 0xFC000FFF []; let x : CtxId := .pe 7 7; let f : Upset := .good; let w : Word := 0xFC000FFF;
        let s1 : State := (jFetch s (ctxKey x) f).1; let k : Nat := ctxKey x; decide (jReady s k = true) &&
        decide (jFetch s k f = (s1, some (.inl w))) && decide (ctxHM s1 k = false) && decide (nothingWaits s1 k) &&
        decide (jDecode (!onEngine k) w = none)) = true ∧
    (let s : State := { onPe 0xB0000000 [] with ctxH := [(63, { slot := some 8 })] }; let x : CtxId := .pe 7 7;
        let f : Upset := .good; let w : Word := 0xB0000000; let s1 : State := (jFetch s (ctxKey x) f).1;
        let p : JMn × Instr := (JMn.fence, Instr.fence x f); let k : Nat := ctxKey x; decide (jReady s k = true) &&
        decide (jFetch s k f = (s1, some (.inl w))) && decide (ctxHM s1 k = false) && decide (nothingWaits s1 k) &&
        decide (p ∈ [(JMn.j, Instr.j x f), (.call, .call x f), (.ret, .ret x f), (.beq, .beq x f), (.fence, .fence x f), (.wait, .sysWait x f), (.trap, .trap x f), (.halt, .sysHalt x f)]) &&
        decide (jDecode (!onEngine k) w = some p.1) && match (s1.ctx k).slot with
      | some _ => (true)
      | _ => false) = true ∧
    (let s : State := onPe 0x43FE0001 []; let x : CtxId := .pe 7 7; let f : Upset := .good; let u : Upset := .good;
        let w : Word := 0x43FE0001; let s1 : State := (jFetch s (ctxKey x) f).1;
        let p : JMn × Instr := (JMn.lw, Instr.lw x f u); let z : Nat := 4; let k : Nat := ctxKey x;
        decide (jReady s k = true) && decide (jFetch s k f = (s1, some (.inl w))) && decide (ctxHM s1 k = false) &&
        decide (nothingWaits s1 k) &&
        decide ((p, z) ∈ [((JMn.lw, Instr.lw x f u), 4), ((.lh, .lh x f u), 2), ((.lhu, .lhu x f u), 2), ((.sw, .sw x f u), 4), ((.sh, .sh x f u), 2)]) &&
        decide (jDecode (!onEngine k) w = some p.1) && let a : Nat := (getG s1 k (jRa w) + immS w).toNat;
        decide (a % z ≠ 0)) = true ∧
    (let s : State := onPe 0 [(ctxReg 63 1, 0x60000000)]; let n : Fin 8 := 7; let k : Fin 8 := 7; let x : CtxId := .pe 7 7;
        let code : Nat := 3; decide (x = .pe n k) && decide (ctxHM s (ctxKey x) = true) && decide (code ≠ 6) &&
        decide (code ≠ 13) && decide (code ≠ 14) && decide (code < 16)) = true ∧
    (let s : State := onPe 0 [(ctxReg 63 1, 0x60000000)]; let n : Fin 8 := 7; let k : Fin 8 := 7; let x : CtxId := .pe 7 7;
        let code : Nat := 3; decide (x = .pe n k) && decide (ctxHM s (ctxKey x) = true) && decide (code ≠ 6) &&
        decide (code ≠ 13) && decide (code ≠ 14) && decide (code < 16) && decide (s.bt (PE_FAULT n.val) 31 = false)) = true ∧
    (let s : State := onPe 0 [(ctxReg 63 1, 0x60000000), (PE_FAULT 7, 0x80000000)]; let n : Fin 8 := 7; let k : Fin 8 := 7;
        let x : CtxId := .pe 7 7; let code : Nat := 3; decide (x = .pe n k) && decide (ctxHM s (ctxKey x) = true) &&
        decide (code ≠ 6) && decide (code ≠ 13) && decide (code ≠ 14) && decide (code < 16) &&
        decide (s.bt (PE_FAULT n.val) 31 = true)) = true ∧
    (let s : State := onPe 0 [(ctxReg 63 1, 0x60000000)]; let x : CtxId := .pe 7 7; let k : Nat := ctxKey x;
        decide (ctxHM s k = true)) = true ∧
    (let s : State := onPe 0 [(ctxReg 63 1, 0x60000000), (ctxReg 63 11, 0x80000001)]; let x : CtxId := .pe 7 7;
        let dt : Nat := 2000000; let k : Nat := ctxKey x; let u : State := elapse s dt; decide (ctxHM u k = true) &&
        decide (ctxLive u k = true) && decide (wdOut u k = true) &&
        decide (u.bt (ctxReg k 11) 30 = false)) = true := by decide +kernel

/-! ## The witnesses that need a flash image -/

theorem smGet_cells (d : Byte) (l : List Byte) (k i : Nat) : smGet d (cells k l) (k + i) = l.getD i d := by
  induction l generalizing k i with
  | nil => simp [cells, smGet, smFind]
  | cons x r ih =>
    cases i with
    | zero => simp [cells, smGet, smFind]
    | succ i =>
      have h := ih (k + 1) i
      simp only [smGet, cells, smFind] at h ⊢
      rw [if_neg (by omega), if_neg (by omega), show k + (i + 1) = k + 1 + i by omega, h]
      rfl

theorem header_length : header.length = 4096 := by decide +kernel

/-- The header is read back from the flash. -/
theorem hdrOf_image (s : State) (h : s.flash = image) : hdrOf s false = header := by
  apply List.ext_getElem
  · simp [hdrOf, flashBytes, header_length]
  · intro i h1 h2
    have h3 : smGet (0xFF : Byte) image (0 + i) = header[i] := by
      rw [image, smGet_cells, List.append_assoc, List.append_assoc, List.getD_append _ _ _ _ h2]
      simp [h2]
    simp only [hdrOf, flashBytes, List.getElem_map, List.getElem_range, flashByte, h, copyBase]
    exact h3

theorem header_good : hdrGood header = true := by decide +kernel

theorem memInit_flash (s : State) : (memInit s).flash = s.flash := by
  have h : ∀ (l : List (Nat × Nat)) (s : State), (l.foldl (fun s r => s.clearMem r.1 r.2) s).flash = s.flash := by
    intro l
    induction l with
    | nil => intro s; rfl
    | cons x r ih => intro s; exact ih _
  have h2 : ∀ (s : State) (a b : Nat), (s.undefine a b).flash = s.flash := fun _ _ _ => rfl
  unfold memInit
  rw [h2, h]

theorem setBytes_flash (l : List Byte) : ∀ (s : State) (a : Nat), (s.setBytes a l).flash = s.flash := by
  induction l with
  | nil => intro s a; rfl
  | cons x r ih => intro s a; rw [State.setBytes, ih]; rfl

theorem sectLoad_flash (b : Bool) (l : List Sect) (s : State) : (l.foldl (sectLoad b) s).flash = s.flash := by
  induction l generalizing s with
  | nil => rfl
  | cons x r ih =>
    rw [List.foldl_cons, ih]
    unfold sectLoad ldrBytes
    split
    · rw [setBytes_flash]; rfl
    · split
      · rw [setBytes_flash]; rfl
      · rfl

theorem sects_header : sects header = [⟨3, true, 4096, 8, 0, 261101492⟩, ⟨6, true, 4352, 1, 0, 917085598⟩] := by decide +kernel

theorem table_good : tableGood header = true := by decide +kernel

theorem header_len : leAt header 8 4 = 8192 := by decide +kernel

theorem passOne_image (s : State) (hf : s.flash = image) (hp : hdrPart s header = true) (hv : hdrSvn s header = true)
    (hs : secboot s = false) (hg : (sects header).all (sectGood s false) = true) :
    passOne s false ⟨8192, true, false, true⟩ = 0 := by
  simp only [passOne, imageCode, hdrOf_image s hf, header_good, hp, hv, table_good, hg, hs, header_len, copyBase]
  rfl

theorem streamed_image (s : State) (hf : s.flash = image) (hg : (sects header).all (sectGood s false) = true) :
    streamed s false = sects header := by
  simp only [streamed, hdrOf_image s hf]
  exact List.takeWhile_eq_self_iff.mpr (List.all_eq_true.mp hg)

theorem sectsFrom_image (s : State) (hf : s.flash = image) : sectsFrom s false 0 = (sects header).zipIdx := by
  simp only [sectsFrom, List.drop_zero, hdrOf_image s hf]

theorem load_image (s : State) : (sects header).foldl (sectLoad false) s = s := by
  rw [sects_header]
  simp [sectLoad]

/-- What pass 1 of an attempt at the image comes to, and the sections of pass 2. -/
theorem attempt_image (z s : State) (hz : ((memInit z).wr LDR_FLASHCAP 8192).setBt LDR_FUSTAT 30 false = s)
    (hf : s.flash = image) (hp : hdrPart s header = true) (hv : hdrSvn s header = true) (hs : secboot s = false)
    (hk : s.bt LDR_FUSESTAT 29 = false) (hg : (sects header).all (sectGood s false) = true) :
    attempt z false ⟨8192, true, false, true⟩ true =
      passTwo (s.setBt LDR_STATUS 26 false) false true (sects header).zipIdx := by
  have hx := sectsFrom_image (s.setBt LDR_STATUS 26 false) (by rw [State.setBt, State.wr_flash]; exact hf)
  unfold attempt
  simp only [show (BitVec.ofNat 32 8192) = (8192 : Word) from rfl, hz, passOne_image s hf hp hv hs hg, streamed_image s hf hg, load_image]
  simp [keyGood, hk, hx]

/-- The state of the loader after the initialisation of an attempt. -/
def begun (l : List (Nat × Nat)) : State := ((memInit (booting l)).wr LDR_FLASHCAP 8192).setBt LDR_FUSTAT 30 false

theorem begun_flash (l : List (Nat × Nat)) : (begun l).flash = image := by
  rw [begun, State.setBt, State.wr_flash, State.wr_flash, memInit_flash]
  rfl

/-- An attempt at the image that succeeds. -/
theorem witness_StartUp_release :
    (wideReset (booting []) = false ∧ (booting []).bt LDR_STATUS 27 = false ∧ (booting []).fl LDR_STATUS 31 28 = 2) ∧
      (attempt (booting []) false ⟨8192, true, false, true⟩ true).2 = (0, none) ∧
      noSteps (attemptGo (attempt (booting []) false ⟨8192, true, false, true⟩ true) false true [63]) := by
  refine ⟨by decide +kernel, ?_⟩
  rw [attempt_image (booting []) (begun []) rfl (begun_flash []) (by decide +kernel) (by decide +kernel) (by decide +kernel)
    (by decide +kernel) (by rw [sects_header]; decide +kernel), sects_header]
  decide +kernel

/-- The loader with the bridge in reset by SWSUB. -/
def held : List (Nat × Nat) := [(RST_SWSRC, 0x8000000)]

/-- An attempt whose REG entry meets a block in reset: it waits at section 0. -/
theorem witness_StartUp_wait :
    (wideReset (booting held) = false ∧ (booting held).bt LDR_STATUS 27 = false ∧ (booting held).fl LDR_STATUS 31 28 = 2) ∧
      (attempt (booting held) false ⟨8192, true, false, true⟩ true).2.2 = some 0 ∧
      noSteps (attemptGo (attempt (booting held) false ⟨8192, true, false, true⟩ true) false false [63]) := by
  refine ⟨by decide +kernel, ?_⟩
  rw [attempt_image (booting held) (begun held) rfl (begun_flash _) (by decide +kernel)
    (by decide +kernel) (by decide +kernel) (by decide +kernel) (by rw [sects_header]; decide +kernel), sects_header]
  decide +kernel

/-- The last try of an attempt that has waited 10 ms at section 0. -/
theorem witness_StartUp_late :
    (let s : State := { booting (held ++ [(LDR_STATUS, 0x70000000)]) with ldrH := { due := 0, wait := some 0 }, cycles := 10000000 };
      let r := passTwo s false true (sectsFrom s false 0);
      (wideReset s = false ∧ s.bt LDR_STATUS 27 = false ∧ s.fl LDR_STATUS 31 28 ≠ 2 ∧ s.ldrH.wait = some 0) ∧
        r.2 = (12, some 0) ∧ (r.1.ldrH.wait = some 0 ∧ r.1.ldrH.waitAt + 10000000 ≤ r.1.cycles) ∧
        noSteps (attemptGo r false true [63])) := by
  intro s r
  have h : r = passTwo s false true (sects header).zipIdx := by
    simp only [r]
    rw [sectsFrom_image s rfl]
  refine ⟨by decide +kernel, ?_⟩
  rw [h, sects_header]
  decide +kernel

/-- A replay of the bridge's REG entry from the image. -/
theorem witness_StartUp_replay :
    (let s : State := { booting [(LDR_STATUS, 0x80000000)] with replay := [(27, true)] };
      (wideReset s = false ∧ ldrRun s = true ∧ narrowBlocks.find? (fun j => smGet false s.replay j) = some 27 ∧
        s.bt LDR_STATUS 27 = false) ∧
      rereadCode s false false (fun x => x.typ == 3) = 0 ∧
      noSteps (ldrRelease (((regEntries s false).filter (fun e => inTarget 27 e.1.toNat)).foldl replayEntry s) 27)) := by
  intro s
  have h := hdrOf_image s rfl
  refine ⟨by decide +kernel, ?_, ?_⟩
  · simp only [rereadCode, h, header_good, sects_header]
    decide +kernel
  · simp only [regEntries, h, sects_header]
    decide +kernel

end Sys2Proof.Tests
end

/-! SUPPORT. What a bus access answers (R6, R8, R16, R439): the error responses, each with its cause and with what it leaves, and
the access types of single registers. -/

namespace Sys2Proof.Machine

/-! ## The error log (R439) -/

/-- An error response, counted by its cause. -/
def errCounted (s : State) (c : Nat) : State :=
  if c < 4 then (s.wrapInc MEM_ELOG_STAT 31 16).satInc MEM_ELOG_CAUSE0 (8 * c + 7) (8 * c)
  else (s.wrapInc MEM_ELOG_STAT 31 16).satInc MEM_ELOG_CAUSE1 (8 * (c - 4) + 7) (8 * (c - 4))

/-- An entry stored in the error log. -/
def errStored (s : State) (e : LogE) : State :=
  (State.setFl { s with elog := s.elog ++ [e] } MEM_ELOG_STAT 5 0 (s.elog ++ [e]).length).raise MEM_DG_IRQSTAT 0x10

/-- The error log counts, then stores the entry while it has room. -/
theorem logErr_eq (s : State) (m a : Nat) (wr : Bool) (c : Nat) :
    logErr s m a wr c = if (errCounted s c).elog.length < 32 then
        errStored (errCounted s c)
          ⟨a, wr, m, c, ((errCounted s c).tb 0).ns, ((errCounted s c).tb 0).sec, ((errCounted s c).tb 0).sub⟩
      else (errCounted s c).satInc MEM_ELOG_STAT 15 8 := by
  unfold logErr errCounted errStored
  rfl

@[simp] theorem errCounted_ctxH (s : State) (c : Nat) : (errCounted s c).ctxH = s.ctxH := by
  simp only [errCounted, State.wrapInc, State.satInc, State.setFl, apply_ite State.ctxH, State.wr_ctxH, ite_self]

@[simp] theorem errCounted_elog (s : State) (c : Nat) : (errCounted s c).elog = s.elog := by
  simp only [errCounted, State.wrapInc, State.satInc, State.setFl, apply_ite State.elog, State.wr_elog, ite_self]

@[simp] theorem errCounted_tb (s : State) (c t : Nat) : (errCounted s c).tb t = s.tb t := by
  have h : (errCounted s c).tbs = s.tbs := by
    simp only [errCounted, State.wrapInc, State.satInc, State.setFl, apply_ite State.tbs, State.wr_tbs, ite_self]
  simp only [State.tb, h]

@[simp] theorem logErr_ctxH (s : State) (m a : Nat) (wr : Bool) (c : Nat) : (logErr s m a wr c).ctxH = s.ctxH := by
  rw [logErr_eq]
  simp only [errStored, State.satInc, State.raise, State.setFl, apply_ite State.ctxH, State.wr_ctxH, errCounted_ctxH, ite_self]

/-- While fewer than 32 entries are held, the error response is the newest. -/
theorem logErr_elog (s : State) (m a : Nat) (wr : Bool) (c : Nat) (h : s.elog.length < 32) :
    (logErr s m a wr c).elog = s.elog ++ [⟨a, wr, m, c, (s.tb 0).ns, (s.tb 0).sec, (s.tb 0).sub⟩] := by
  rw [logErr_eq, errCounted_elog, if_pos h]
  simp only [errStored, State.raise, State.setFl, State.wr_elog, errCounted_elog, errCounted_tb]

/-- The registers of the error log stand in the diagnostic block: every other register stays. -/
theorem rd_logErr (s : State) (m a : Nat) (wr : Bool) (c : Nat) {b : Nat} (h : b < 0x3400C000 ∨ 0x3400D000 ≤ b) :
    (logErr s m a wr c).rd b = s.rd b := by
  have hstat : b ≠ MEM_ELOG_STAT := by unfold MEM_ELOG_STAT; omega
  have hcause0 : b ≠ MEM_ELOG_CAUSE0 := by unfold MEM_ELOG_CAUSE0; omega
  have hcause1 : b ≠ MEM_ELOG_CAUSE1 := by unfold MEM_ELOG_CAUSE1; omega
  have hirq : b ≠ MEM_DG_IRQSTAT := by unfold MEM_DG_IRQSTAT; omega
  have counted : (errCounted s c).rd b = s.rd b := by
    unfold errCounted
    split
    · rw [rd_satInc_ne _ _ _ _ hcause0, rd_wrapInc_ne _ _ _ _ hstat]
    · rw [rd_satInc_ne _ _ _ _ hcause1, rd_wrapInc_ne _ _ _ _ hstat]
  rw [logErr_eq]
  split
  · rw [errStored, rd_raise_ne _ _ hirq, rd_setFl_ne _ _ _ _ hstat]
    exact counted
  · rw [rd_satInc_ne _ _ _ _ hstat, counted]

/-! ## The access of a non-owner (R319) -/

@[simp] theorem ownerViolation_ctxH (s : State) (m a : Nat) (wr : Bool) : (ownerViolation s m a wr).ctxH = s.ctxH := by
  simp only [ownerViolation, State.raise, apply_ite State.ctxH, State.wr_ctxH, ite_self]

@[simp] theorem ownerViolation_elog (s : State) (m a : Nat) (wr : Bool) : (ownerViolation s m a wr).elog = s.elog := by
  simp only [ownerViolation, State.raise, apply_ite State.elog, State.wr_elog, ite_self]

@[simp] theorem ownerViolation_tbs (s : State) (m a : Nat) (wr : Bool) : (ownerViolation s m a wr).tbs = s.tbs := by
  simp only [ownerViolation, State.raise, apply_ite State.tbs, State.wr_tbs, ite_self]

/-- A non-owner's access changes MEM_VIOL of the bank and MEM_IRQSTAT alone. -/
theorem rd_ownerViolation (s : State) (m a : Nat) (wr : Bool) {b : Nat} (hv : b ≠ MEM_VIOL (bankOf a)) (hi : b ≠ MEM_IRQSTAT) :
    (ownerViolation s m a wr).rd b = s.rd b := by
  unfold ownerViolation
  rw [rd_raise_ne _ _ hi]
  split
  · rfl
  · exact rd_wr_ne _ _ hv

/-- Aligned down to the size of an access, an address of shared memory stays in its bank. -/
theorem bankOf_aligned (a : Nat) (sz : Size) (h : 0x20000000 ≤ a) : bankOf (a / sz.bytes * sz.bytes) = bankOf a := by
  unfold bankOf
  cases sz <;> simp only [Size.bytes] <;> omega

/-- Where shared memory begins (Table 1.3). -/
theorem shared_le_of_regionOf {a : Nat} (h : regionOf a = some .shared) : 0x20000000 ≤ a := by
  simp only [regionOf, ite_eq_iff, Option.some.injEq, reduceCtorEq, and_false, and_true, false_or, or_false] at h
  omega

/-! ## The tests of R439 -/

/-- The access `x` of master `m` at `a` is examined by region `r`: the master can issue it, the region decodes the address, the
write is not masked there (R345), and a register stands at the address unless the region is a memory. -/
structure Examined (s : State) (m a : Nat) (x : Acc) (r : Region) : Prop where
  issue : canIssue s m = true
  region : regionOf a = some r
  notOwn : r ≠ .plOwn
  unmasked : x = .rd ∨ maskedCell r = false ∨ maskedPair s m = false
  stands : r.isMem = true ∨ regDesc (a / 4 * 4) ≠ none

/-- An examined access is not masked. -/
theorem Examined.not_masked {s : State} {m a : Nat} {x : Acc} {r : Region} (h : Examined s m a x r) (p : Prop) :
    ¬((x != .rd) = true ∧ maskedCell r = true ∧ maskedPair s m = true ∧ p) := by
  rintro ⟨hx, hc, hp, -⟩
  rcases h.unmasked with h | h | h
  · simp [h] at hx
  · simp [h] at hc
  · simp [h] at hp

/-- An examined access meets a memory or a register. -/
theorem Examined.not_undecoded {s : State} {m a : Nat} {x : Acc} {r : Region} (h : Examined s m a x r) :
    ¬(r.isMem = false ∧ regDesc (a / 4 * 4) = none) := by
  rintro ⟨hm, hn⟩
  rcases h.stands with h | h
  · simp [h] at hm
  · exact h hn

/-- An address that no region decodes: cause 0. -/
theorem busAcc_undecoded {s : State} {m a : Nat} (hi : canIssue s m = true) (hr : regionOf a = none) (sz : Size) (x : Acc)
    (u : Upset) : busAcc s m a sz x u = busFail s m a (x != .rd) 0 := by
  simp [busAcc, busAccFor, hi, hr]

section
variable {s : State} {m a : Nat} {x : Acc} {r : Region} (h : Examined s m a x r) (sz : Size) (u : Upset)
include h

/-- A master that the region does not admit: cause 1. -/
theorem busAcc_notAdmitted (ha : admits m r = false) : busAcc s m a sz x u = busFail s m a (x != .rd) 1 := by
  simp only [busAcc, busAccFor, h.issue, h.region, if_neg h.notOwn, if_neg (h.not_masked _), if_neg h.not_undecoded, ha, if_true,
    Bool.true_eq_false, if_false]

/-- A part of a register, or a word across two: cause 2. -/
theorem busAcc_narrow (ha : admits m r = true) (hm : r.isMem = false) (hz : sz ≠ .w ∨ a % 4 ≠ 0) :
    busAcc s m a sz x u = busFail s m a (x != .rd) 2 := by
  simp only [busAcc, busAccFor, h.issue, h.region, if_neg h.notOwn, if_neg (h.not_masked _), if_neg h.not_undecoded, ha,
    if_pos (And.intro hm hz), Bool.true_eq_false, if_false]

/-- A register whose block is off or in reset: cause 6. -/
theorem busAcc_shut (ha : admits m r = true) (hz : sz = .w ∧ a % 4 = 0) (hs : shut s m r = true) :
    busAcc s m a sz x u = busFail s m a (x != .rd) 6 := by
  have hw : ¬(r.isMem = false ∧ (sz ≠ .w ∨ a % 4 ≠ 0)) := by simp [hz.1, hz.2]
  simp only [busAcc, busAccFor, h.issue, h.region, if_neg h.notOwn, if_neg (h.not_masked _), if_neg h.not_undecoded, ha,
    if_neg hw, if_pos hs, Bool.true_eq_false, if_false]

end

/-- Shared memory follows PD_CORE, which is in reset only under a wide source, and under one no master issues (R10, R397). -/
theorem shut_shared_of_canIssue {s : State} {m : Nat} (h : canIssue s m = true) : shut s m .shared = false := by
  have hw : wideReset s = false := by
    unfold canIssue at h
    simp only [Bool.and_eq_true, Bool.not_eq_true'] at h
    exact h.1
  have hd : domainOf blkCore = none := by decide
  have hr : inReset s blkCore = false := by simpa [inReset] using hw
  simp only [shut, closed, regionBlk, hd, hr, Bool.false_and, Bool.or_false]

/-- A bank that the master does not own: cause 4. -/
theorem busAcc_notOwner {s : State} {m a : Nat} {x : Acc} (h : Examined s m a x .shared) (sz : Size) (u : Upset)
    (ha : admits m .shared = true) (ho : owns s m (bankOf (a / sz.bytes * sz.bytes)) = false) :
    busAcc s m a sz x u =
      busFail (ownerViolation s m (a / sz.bytes * sz.bytes) (accVal sz.bytes x).isSome) m a (x != .rd) 4 := by
  have hmem : Region.isMem .shared = true := rfl
  simp only [busAcc, busAccFor, h.issue, h.region, if_neg h.notOwn, if_neg (h.not_masked _), ha, hmem, targetMem, sharedAcc, ho,
    shut_shared_of_canIssue h.issue, Bool.true_eq_false, Bool.false_eq_true, false_and, if_false, if_true]

/-! ## Error responses of REGISTER_WRITE -/

/-- A failed access answers its error response, where what failed it has touched only MEM_VIOL of the bank and MEM_IRQSTAT. -/
theorem answersError_of_busFail {s u : State} {m : Master} {a : Word} {sz : Size} {acc : Acc} {c : Nat} (hs : noSteps s)
    (h : busAcc s m.val a.toNat sz acc .good = busFail u m.val a.toNat (acc != .rd) c) (hctx : u.ctxH = s.ctxH)
    (helog : u.elog = s.elog) (htbs : u.tbs = s.tbs)
    (hrd : ∀ b, b ≠ MEM_VIOL (bankOf a.toNat) → b ≠ MEM_IRQSTAT → u.rd b = s.rd b) : answersError s m a sz acc c := by
  have hrow : exec (.registerWrite m a sz acc) s =
      .next (close { logErr u m.val a.toNat (acc != .rd) c with resp := .err c }) := by
    change answer (busAcc s m.val a.toNat sz acc .good) = _
    rw [h, answer, busFail, runSteps_of_noSteps]
    · rfl
    · simpa only [noSteps, logErr_ctxH, hctx] using hs
  refine ⟨_, hrow, close_resp _, fun hroom => ?_, fun b hclose hdiag hviol hirq => ?_⟩
  · have htb : u.tb 0 = s.tb 0 := by simp only [State.tb, htbs]
    rw [close_elog, ← helog, ← htb]
    exact logErr_elog u _ _ _ _ (helog ▸ hroom)
  · rw [close_rd _ hclose, ← hrd b hviol hirq]
    exact rd_logErr u _ _ _ _ hdiag

/-- A test of R439 that fails before the target leaves the state to the error log. -/
theorem answersError_of_busFail_self {s : State} {m : Master} {a : Word} {sz : Size} {acc : Acc} {c : Nat} (hs : noSteps s)
    (h : busAcc s m.val a.toNat sz acc .good = busFail s m.val a.toNat (acc != .rd) c) : answersError s m a sz acc c :=
  answersError_of_busFail hs h rfl rfl rfl (fun _ _ _ => rfl)

/-- Settles O29: one test of R439 after another, and the owner test of R319 behind them. -/
theorem errorResponses : Obligations.ErrorResponses := by
  intro s m a sz acc r hs hi
  refine ⟨fun hr => answersError_of_busFail_self hs (busAcc_undecoded hi hr sz acc .good), fun hr hown hmask hstands => ?_⟩
  have hex : Examined s m.val a.toNat acc r := ⟨hi, hr, hown, hmask, hstands⟩
  refine ⟨fun ha => ?_, fun ha hm hz => ?_, fun ha _ hw hal hshut => ?_, fun ha hsh ho => ?_⟩
  · exact answersError_of_busFail_self hs (busAcc_notAdmitted hex sz .good ha)
  · exact answersError_of_busFail_self hs (busAcc_narrow hex sz .good ha hm hz)
  · exact answersError_of_busFail_self hs (busAcc_shut hex sz .good ha ⟨hw, hal⟩ hshut)
  · subst hsh
    have hbank := bankOf_aligned a.toNat sz (shared_le_of_regionOf hr)
    refine answersError_of_busFail hs (busAcc_notOwner hex sz .good ha ho) (by simp) (by simp) (by simp) ?_
    intro b hviol hirq
    exact rd_ownerViolation _ _ _ _ (hbank.symm ▸ hviol) hirq

/-! ## Software accesses of a register (R8) -/

@[simp] theorem softWrite_ctxH (s : State) (a : Nat) (v : Word) : (s.softWrite a v).ctxH = s.ctxH := by
  unfold State.softWrite
  split
  · rfl
  · dsimp only
    split_ifs <;> simp only [State.wr_ctxH]

@[simp] theorem softWrite_shdH (s : State) (a : Nat) (v : Word) : (s.softWrite a v).shdH = s.shdH := by
  unfold State.softWrite
  split
  · rfl
  · dsimp only
    split_ifs <;> simp only [State.wr_shdH]

/-- The register written holds what its access types make of the word. -/
theorem rd_softWrite_self (s : State) {a : Nat} {d : RegDesc} (h : regDesc a = some d) (v : Word) :
    (s.softWrite a v).rd a = writtenWord d (s.rd a) v (!smGet false s.rwoDone a) := by
  simp only [State.softWrite, h]
  split_ifs
  · exact rd_wr_self s a _
  · exact rd_wr_self s a _

/-- Every other register stays. -/
theorem rd_softWrite_ne (s : State) {a b : Nat} (v : Word) (h : b ≠ a) : (s.softWrite a v).rd b = s.rd b := by
  unfold State.softWrite
  split
  · rfl
  · dsimp only
    split_ifs
    · exact rd_wr_ne s _ h
    · exact rd_wr_ne s _ h

/-- Without RWO bits it does not matter whether the register was written before. -/
theorem writtenWord_of_rwo_zero {d : RegDesc} (h : d.rwo = 0) (old v : Word) (first : Bool) :
    writtenWord d old v first = (old &&& ~~~d.rw ||| v &&& d.rw) &&& ~~~(d.w1c &&& v) := by
  simp [writtenWord, h]

@[simp] theorem readClear_ctxH (s : State) (a : Nat) : (s.readClear a).ctxH = s.ctxH := by
  unfold State.readClear
  split
  · rfl
  · split_ifs
    · rfl
    · simp only [State.wr_ctxH]

/-- The word of all ones, as `simp` writes it, is neutral. -/
theorem and_ones (w : Word) : w &&& 0xFFFFFFFF#32 = w := BitVec.and_allOnes

/-- A read clears the RC bits of its register. -/
theorem rd_readClear_self (s : State) {a : Nat} {d : RegDesc} (h : regDesc a = some d) :
    (s.readClear a).rd a = s.rd a &&& ~~~d.rc := by
  simp only [State.readClear, h]
  split_ifs with hrc
  · simp [hrc, and_ones]
  · exact rd_wr_self s a _

/-- Whether Sg compares with a cell depends on no register but its STATUS. -/
theorem shdOn_softWrite (s : State) {a c : Nat} (v : Word) (h : a ≠ EVF_SHD_STATUS (c / 16)) :
    shdOn (s.softWrite a v) c = shdOn s c := by
  have hfl (hi lo : Nat) : (s.softWrite a v).fl (EVF_SHD_STATUS (c / 16)) hi lo = s.fl (EVF_SHD_STATUS (c / 16)) hi lo := by
    simp only [State.fl, rd_softWrite_ne s v h.symm]
  unfold shdOn shdState shdCur State.shd
  rw [hfl, hfl, softWrite_shdH]

/-! ## The four registers, and what their targets make of an access -/

theorem regDesc_sgcfg {g : Nat} (h : g < 32) : regDesc (EVF_SGCFG g) = some ⟨0xC03F, 0, 0, 0, 0, 0⟩ := by
  simp (disch := omega) only [regDesc, evfDesc, EVF_SGCFG, if_neg, if_pos]

theorem regDesc_sgcnt {g : Nat} (h : g < 32) : regDesc (EVF_SGCNT g) = some ⟨0, 0, 0, 0, 0, 0⟩ := by
  simp (disch := omega) only [regDesc, evfDesc, EVF_SGCNT, if_neg, if_pos]

theorem regDesc_cellIrqstat {c : Nat} (h : c < 256) : regDesc (CELL_IRQSTAT c) = some ⟨0, 0x3F, 0, 0, 0, 0⟩ := by
  have ho : (0x30000000 + c * 0x1000 + 0x60) % 0x1000 = 0x60 := by omega
  simp (disch := omega) only [regDesc, cellDesc, CELL_IRQSTAT, ho, if_neg, if_pos, if_true]

theorem regDesc_peEcc {n : Nat} (h : n < 8) : regDesc (PE_ECC n) = some ⟨0, 0, 0xFFFFFFFF, 0, 0, 0⟩ := by
  have ho : (0x100F0000 + n * 0x100000 + 0x14) % 0x1000 = 0x14 := by omega
  simp (disch := omega) only [regDesc, peDesc, PE_ECC, ho, if_neg, if_pos, if_true]

/-- No route register stands among the start groups. -/
theorem routeKind_startGroup {a : Nat} (h : 0x30208000 ≤ a ∧ a < 0x30209000) : routeKind a = none := by
  unfold routeKind TU_IRQROUTE IMG_IRQROUTE LDR_IRQROUTE SW_IRQROUTE MEM_IRQROUTE MEM_DG_IRQROUTE ARB_IRQROUTE HB_IRQROUTE
    SLOT_IRQROUTE PMU_IRQROUTE AON_IRQROUTE
  simp (disch := omega) only [if_neg]

/-- The route register of a cell is not its status. -/
theorem routeKind_cellIrqstat {c : Nat} (h : c < 256) : routeKind (CELL_IRQSTAT c) = none := by
  unfold CELL_IRQSTAT routeKind TU_IRQROUTE IMG_IRQROUTE LDR_IRQROUTE SW_IRQROUTE MEM_IRQROUTE MEM_DG_IRQROUTE ARB_IRQROUTE
    HB_IRQROUTE SLOT_IRQROUTE PMU_IRQROUTE AON_IRQROUTE
  simp (disch := omega) only [if_neg]

/-- Below the memory block the end of a command touches the second capture registers of the cells only. -/
theorem closeTouches_eq_false {a : Nat} (h : a < 0x34000000) (hc : 0x30100000 ≤ a ∨ a % 0x1000 ≠ 0x54 ∧ a % 0x1000 ≠ 0x5C) :
    closeTouches a = false := by
  simp only [closeTouches, MEM_FT_STAT, MEM_DG_IRQSTAT, Bool.or_eq_false_iff, Bool.and_eq_false_iff, decide_eq_false_iff_not,
    beq_eq_false_iff_ne]
  omega

/-- A register of the start groups but SGCMD takes a plain write, of any master. -/
theorem targetWrite_startGroup (s : State) (m : Nat) {a : Nat} (h : 0x30208000 ≤ a ∧ a < 0x30209000) (hc : a ≠ EVF_SGCMD)
    (v : Word) : targetWrite s m a .evf v = accept (s.softWrite a v) := by
  have ho : 0x30200000 + a % 0x10000 = a := by omega
  have hc : a % 0x10000 ≠ 0x8080 := by unfold EVF_SGCMD at hc; omega
  have hmask : maskedTarget .evf (a % 0x10000) = false := by
    simp only [maskedTarget, Bool.or_eq_false_iff, Bool.and_eq_false_iff, beq_eq_false_iff_ne, decide_eq_false_iff_not]
    omega
  simp (disch := omega) only [targetWrite, hmask, Bool.and_false, Bool.false_eq_true, if_false, evfWrite, ho, if_neg]

/-- CELL_IRQSTAT takes a plain write; no shadow cell compares with the cell, so none takes it too (R111). -/
theorem targetWrite_cellIrqstat (s : State) (m : Nat) {c : Nat} (hm : maskedPair s m = false)
    (hsh : shdOn s c = none) (v : Word) :
    targetWrite s m (CELL_IRQSTAT c) (.cell c) v = accept (s.softWrite (CELL_IRQSTAT c) v) := by
  have ho : CELL_IRQSTAT c % 0x1000 = 0x60 := by unfold CELL_IRQSTAT; omega
  have hw : cellWrite s c 0x60 v = accept (s.softWrite (CELL_IRQSTAT c) v) := by
    simp (disch := omega) only [cellWrite, cellRefuses, cellPlainWrite, if_neg, Bool.false_eq_true, if_false]
  have hne : CELL_IRQSTAT c ≠ EVF_SHD_STATUS (c / 16) := by unfold CELL_IRQSTAT EVF_SHD_STATUS; omega
  simp only [targetWrite, hm, Bool.false_and, Bool.false_eq_true, if_false, ho, cellAccess, hw, mirrorOn, hsh, shdCheck,
    shdOn_softWrite s v hne]

/-- A read of PE_ECC returns it and clears it. -/
theorem targetRead_peEcc (s : State) (m : Nat) {n : Nat} :
    targetRead s m (PE_ECC n) (.pe n) = accept (s.readClear (PE_ECC n)) (s.rd (PE_ECC n)) := by
  have ho : PE_ECC n % 0x1000 = 0x14 := by unfold PE_ECC; omega
  simp (disch := omega) only [targetRead, ho, peRead, if_neg]

/-! ## Accesses of REGISTER_WRITE that its target takes as they are -/

/-- A write that its target takes as a plain write: its register, which has no RWO bits, holds what R8 makes of it. -/
theorem exec_registerWrite_plain {s : State} {m : Master} {a : Word} {r : Region} {d : RegDesc} {v : Word} (hs : noSteps s)
    (h : opens s m a.toNat r) (hm : maskedCell r = false ∨ unmasked s m) (hown : r ≠ .plOwn)
    (ht : targetWrite s m.val a.toNat r v = accept (s.softWrite a.toNat v)) (hroute : routeKind a.toNat = none)
    (hd : regDesc a.toNat = some d) (hrwo : d.rwo = 0) (hclose : closeTouches a.toNat = false) :
    ∃ t, exec (.registerWrite m a .w (.wr v)) s = .next t ∧
      t.rd a.toNat = (s.rd a.toNat &&& ~~~d.rw ||| v &&& d.rw) &&& ~~~(d.w1c &&& v) ∧ t.resp = .ok 0 := by
  have hv : routed m a.toNat r v = v := by simp [routed, hown, hroute]
  have hrow : exec (.registerWrite m a .w (.wr v)) s = .next (close { s.softWrite a.toNat v with resp := .ok 0 }) :=
    writeRow_accept h hm (hv.symm ▸ ht) (by simpa only [noSteps, softWrite_ctxH] using hs)
  refine ⟨_, hrow, ?_, close_resp _⟩
  rw [close_rd _ hclose, ← writtenWord_of_rwo_zero hrwo]
  exact rd_softWrite_self s hd v

/-- Settles O27, at each of the four registers by its descriptor and by what its target makes of the access. -/
theorem accessTypes : Obligations.AccessTypes := by
  intro s m a v hs
  refine ⟨fun g ha h => ?_, fun c ha h hm hsh => ?_, fun g ha h => ?_, fun n ha h => ?_⟩
  · have hg := g.isLt
    have hat : a.toNat = 0x30208000 + g.val * 4 := ha
    obtain ⟨t, hrow, hrd, hresp⟩ := exec_registerWrite_plain hs h (.inl rfl) (by decide)
      (targetWrite_startGroup s m.val (by omega) (by unfold EVF_SGCMD; omega) v) (routeKind_startGroup (by omega))
      (ha ▸ regDesc_sgcfg hg) rfl (closeTouches_eq_false (by omega) (by omega))
    exact ⟨t, hrow, by simpa [and_ones] using hrd, hresp⟩
  · have hc := c.isLt
    have hat : a.toNat = CELL_IRQSTAT c.val := by unfold CELL_IRQSTAT; omega
    obtain ⟨t, hrow, hrd, -⟩ := exec_registerWrite_plain hs h (.inr hm) (by simp)
      (hat ▸ targetWrite_cellIrqstat s m.val hm hsh v) (hat ▸ routeKind_cellIrqstat hc) (hat ▸ regDesc_cellIrqstat hc) rfl
      (closeTouches_eq_false (by omega) (by omega))
    exact ⟨t, hrow, by simpa [and_ones, BitVec.and_comm v] using hrd⟩
  · have hg := g.isLt
    have hat : a.toNat = 0x30208100 + g.val * 4 := ha
    obtain ⟨t, hrow, hrd, -⟩ := exec_registerWrite_plain hs h (.inl rfl) (by decide)
      (targetWrite_startGroup s m.val (by omega) (by unfold EVF_SGCMD; omega) v) (routeKind_startGroup (by omega))
      (ha ▸ regDesc_sgcnt hg) rfl (closeTouches_eq_false (by omega) (by omega))
    exact ⟨t, hrow, by simpa [and_ones] using hrd⟩
  · have hn := n.isLt
    have hat : a.toNat = 0x100F0000 + n.val * 0x100000 + 0x14 := ha
    have hclose : closeTouches a.toNat = false := closeTouches_eq_false (by omega) (by omega)
    have htab : tableWord a.toNat = none := by simp (disch := omega) only [tableWord, if_neg]
    have hrow : exec (.registerWrite m a .w .rd) s = .next (close { s.readClear a.toNat with resp := .ok (s.rd a.toNat) }) :=
      readRow_accept h htab (ha ▸ targetRead_peEcc s m.val) (by simpa only [noSteps, readClear_ctxH] using hs)
    refine ⟨_, hrow, close_resp _, ?_⟩
    rw [close_rd _ hclose]
    have hrd := rd_readClear_self s (ha ▸ regDesc_peEcc hn)
    exact hrd.trans (by simp)

end Sys2Proof.Machine

/-! SUPPORT. Every step ends a command, and the end of a command establishes the invariant (R30, R226, R447). -/

namespace Sys2Proof.Machine

/-! ## What the end of a command establishes -/

/-- The invariant speaks of neither the vectors sent nor what has left the part: it asks that the former are those due. -/
theorem inv_settle {s : State} (hframe : noOverdueFrame s) (htest : testHeld s) : Inv (settle s) := by
  obtain ⟨o, h⟩ := settle_eq s
  rw [h]
  exact ⟨rfl, hframe, htest⟩

/-- The check of the forced test leaves the frames in transmission. -/
theorem ftCheck_noOverdue {s : State} (h : noOverdueFrame s) : noOverdueFrame (ftCheck s) := by
  simpa only [noOverdueFrame, State.hx, ftCheck_hxH, ftCheck_cycles] using h

/-- Whatever a command has done, its end leaves a state that meets the invariant. -/
theorem close_inv (s : State) : Inv (close s) :=
  inv_settle (ftCheck_noOverdue (hxComplete_noOverdue s)) (ftCheck_testHeld _)

/-! ## Every step ends a command -/

/-- No command stops the machine, and each of the 378 ends with `close`. -/
theorem exec_closes (i : Instr) (s : State) : ∃ u, exec i s = .next (close u) := by
  cases i <;> exact ⟨_, rfl⟩

/-- A step runs the command at the front, or lets one cycle pass: either way it ends with `close`. -/
theorem step_closes (s : State) : ∃ u, step s = .next (close u) := by
  unfold step
  cases s.pending with
  | nil => exact ⟨elapse s 1, rfl⟩
  | cons c rest => exact exec_closes c _

/-- Settles O4: a step ends a command, and the end of a command establishes the invariant, whatever state it began in. -/
theorem everyStepKeepsInvariant : Obligations.EveryStepKeepsInvariant := by
  intro s
  obtain ⟨u, hu⟩ := step_closes s
  exact ⟨close u, hu, close_inv u⟩

end Sys2Proof.Machine

/-! SUPPORT. What an error response and the end of a command leave of the memories; the read-only memories (R20). -/

namespace Sys2Proof.Machine

/-! ## The error log writes registers and its entries -/

/-- `t` is `s` but for the registers and the error log. -/
def LogSame (s t : State) : Prop := t = { s with regs := t.regs, elog := t.elog }

theorem LogSame.trans {s t u : State} (h : LogSame s t) (k : LogSame t u) : LogSame s u := by
  unfold LogSame at *
  rw [k, h]

theorem LogSame.wr (s : State) (a : Nat) (v : Word) : LogSame s (s.wr a v) := rfl

theorem LogSame.setElog (s : State) (l : List LogE) : LogSame s { s with elog := l } := rfl

theorem LogSame.errCounted (s : State) (c : Nat) : LogSame s (errCounted s c) := by
  unfold Machine.errCounted
  split
  · exact (LogSame.wr _ _ _).trans (.wr _ _ _)
  · exact (LogSame.wr _ _ _).trans (.wr _ _ _)

/-- An error response changes no field but the registers and the error log. -/
theorem LogSame.logErr (s : State) (m a : Nat) (wr : Bool) (c : Nat) : LogSame s (logErr s m a wr c) := by
  rw [logErr_eq]
  split
  · exact (((LogSame.errCounted s c).trans (.setElog _ _)).trans (.wr _ _ _)).trans (.wr _ _ _)
  · exact (LogSame.errCounted s c).trans (.wr _ _ _)

/-- The error log leaves the status of the forced test. -/
theorem rd_logErr_ftStat (s : State) (m a : Nat) (wr : Bool) (c : Nat) :
    (logErr s m a wr c).rd MEM_FT_STAT = s.rd MEM_FT_STAT := by
  have counted : (errCounted s c).rd MEM_FT_STAT = s.rd MEM_FT_STAT := by
    unfold errCounted
    split
    · rw [rd_satInc_ne _ _ _ _ (by decide), rd_wrapInc_ne _ _ _ _ (by decide)]
    · rw [rd_satInc_ne _ _ _ _ (by decide), rd_wrapInc_ne _ _ _ _ (by decide)]
  rw [logErr_eq]
  split
  · rw [errStored, rd_raise_ne _ _ (by decide), rd_setFl_ne _ _ _ _ (by decide)]
    exact counted
  · rw [rd_satInc_ne _ _ _ _ (by decide), counted]

/-! ## Which registers a reset depends on -/

/-- Whether a block is in reset depends on the reset sources: the fields that hold them, and four registers (R397). -/
theorem inReset_congr {s t : State} (hsrcs : t.srcs = s.srcs) (hldr : t.ldrHold = s.ldrHold) (hoff : t.pdoff = s.pdoff)
    (hwd : t.wdrst = s.wdrst) (hbank : t.bankuv = s.bankuv) (hsw : t.rd RST_SWSRC = s.rd RST_SWSRC)
    (harb : t.rd ARB_STATUS = s.rd ARB_STATUS) (hcan : t.rd RST_BLKCAN = s.rd RST_BLKCAN)
    (hhx : t.rd RST_BLKHX = s.rd RST_BLKHX) (k : Nat) : inReset t k = inReset s k := by
  simp only [inReset, wideReset, loaderHolds, narrowSource, State.bt, hsrcs, hldr, hoff, hwd, hbank, hsw, harb, hcan, hhx]

theorem inReset_logErr (s : State) (m a : Nat) (wr : Bool) (c k : Nat) :
    inReset (logErr s m a wr c) k = inReset s k := by
  have h := LogSame.logErr s m a wr c
  have hrd {b : Nat} (hb : 0x3400D000 ≤ b) := rd_logErr s m a wr c (b := b) (.inr hb)
  exact inReset_congr (by rw [h]) (by rw [h]) (by rw [h]) (by rw [h]) (by rw [h]) (hrd (by decide)) (hrd (by decide))
    (hrd (by decide)) (hrd (by decide)) k

/-- An error response neither starts a forced test nor takes its target out of reset (R447). -/
theorem testHeld_logErr {s : State} (h : testHeld s) (m a : Nat) (wr : Bool) (c : Nat) : testHeld (logErr s m a wr c) := by
  simpa only [testHeld, ftRuns, State.fl, rd_logErr_ftStat, inReset_logErr] using h

/-! ## Where no forced test is overdue, the end of a command leaves the memories -/

/-- The registers that the end of a Huxon frame writes lie in cells and sequencers. -/
theorem rd_hxSent_ftStat (s : State) {n : Nat} (x : HxTx) (hn : n < 32) : (hxSent s n x).rd MEM_FT_STAT = s.rd MEM_FT_STAT := by
  have hdtx : MEM_FT_STAT ≠ HX_DTXCTL n := by unfold MEM_FT_STAT HX_DTXCTL; omega
  have hirq : MEM_FT_STAT ≠ HX_IRQSTAT n := by unfold MEM_FT_STAT HX_IRQSTAT; omega
  have hclear (u : State) : (hxTsClear u n).rd MEM_FT_STAT = u.rd MEM_FT_STAT := by
    unfold hxTsClear
    split
    · rfl
    · next c hc =>
      have hc := hxDataCell_lt u n c hc
      rw [clearCaptures, rd_wr_ne _ _ (by unfold MEM_FT_STAT CELL_TSB_SEC; omega),
        rd_wr_ne _ _ (by unfold MEM_FT_STAT CELL_TSA_SEC; omega)]
  unfold hxSent
  dsimp only
  split_ifs
  · rw [rd_setHx, rd_setHx, hclear, rd_emit]
  · rw [rd_setHx, rd_setHx, hclear, rd_emit]
  · rw [rd_setHx, hclear, rd_emit]
  · rw [hxIrq, rd_raise_ne _ _ hirq, rd_setBt_ne _ _ _ hdtx, rd_setHx, hclear, rd_emit]
  · rw [rd_setHx, hclear, rd_emit]

theorem hxSent_mem (s : State) (n : Nat) (x : HxTx) : (hxSent s n x).mem = s.mem := by
  have hclear (u : State) : (hxTsClear u n).mem = u.mem := by
    unfold hxTsClear
    split <;> rfl
  unfold hxSent
  dsimp only
  split_ifs <;> simp [hclear, hxIrq, State.raise, State.setBt, State.setHx, State.emit]

/-- Frames that complete leave the memories and the status of the forced test. -/
theorem hxComplete_mem_ftStat (s : State) :
    (hxComplete s).mem = s.mem ∧ (hxComplete s).rd MEM_FT_STAT = s.rd MEM_FT_STAT := by
  unfold hxComplete
  refine List.foldlRecOn (motive := fun t : State => t.mem = s.mem ∧ t.rd MEM_FT_STAT = s.rd MEM_FT_STAT) _ _ ⟨rfl, rfl⟩ ?_
  intro t ⟨hmem, hft⟩ n hn
  unfold hxEndOne
  split
  · split_ifs
    · exact ⟨(hxSent_mem t n _).trans hmem, (rd_hxSent_ftStat t _ (List.mem_range.1 hn)).trans hft⟩
    · exact ⟨hmem, hft⟩
  · exact ⟨hmem, hft⟩

theorem inReset_hxComplete (s : State) (k : Nat) : inReset (hxComplete s) k = inReset s k := by
  have h := CloseSame.hxComplete s
  exact inReset_congr (by rw [h.eq]) (by rw [h.eq]) (by rw [h.eq]) (by rw [h.eq]) (by rw [h.eq]) (h.rd _ (by decide))
    (h.rd _ (by decide)) (h.rd _ (by decide)) (h.rd _ (by decide)) k

/-- Where a forced test is as the invariant asks, its check changes nothing. -/
theorem ftCheck_of_testHeld {s : State} (h : testHeld s) : ftCheck s = s := by
  have hno : ¬(ftRuns s && !inReset s (s.fl MEM_FT_STAT 28 24)) = true := by
    rw [Bool.and_eq_true, Bool.not_eq_true']
    rintro ⟨hruns, hout⟩
    exact absurd (h hruns) (by simp [hout])
  rw [ftCheck, if_neg hno]

@[simp] theorem settle_mem (s : State) : (settle s).mem = s.mem := by
  obtain ⟨o, h⟩ := settle_eq s
  rw [h]

/-- Where a forced test runs only on a target in reset, the end of a command leaves every memory. -/
theorem close_mem {s : State} (h : testHeld s) : (close s).mem = s.mem := by
  obtain ⟨hmem, hft⟩ := hxComplete_mem_ftStat s
  have hheld : testHeld (hxComplete s) := by simpa only [testHeld, ftRuns, State.fl, hft, inReset_hxComplete] using h
  rw [close, settle_mem, ftCheck_of_testHeld hheld, hmem]

/-! ## The read-only memories -/

/-- Memories behind no wrapper but that of PD_CORE: boot ROM and boot flash are open to every master that can issue. -/
theorem shut_core_of_canIssue {s : State} {m : Nat} {r : Region} (h : canIssue s m = true)
    (hr : shut s m r = closed s m blkCore) : shut s m r = false := by
  rw [hr]
  exact shut_shared_of_canIssue h

/-- A write of the boot ROM or the boot flash window fails at the tests of R439: a data mover is not admitted, and the target
refuses every other master. -/
theorem busAcc_readOnly {s : State} {m a : Nat} {v : Word} {sz : Size} (hi : canIssue s m = true)
    (hr : regionOf a = some .rom ∨ regionOf a = some .flash) :
    busAcc s m a sz (.wr v) .good = busFail s m a true (if softMaster m then 3 else 1) := by
  have hwr : (Acc.wr v != Acc.rd) = true := rfl
  obtain ⟨r, hreg, hkind⟩ : ∃ r, regionOf a = some r ∧ (r = .rom ∨ r = .flash) := by
    rcases hr with h | h
    · exact ⟨_, h, .inl rfl⟩
    · exact ⟨_, h, .inr rfl⟩
  have hmask : maskedCell r = false := by rcases hkind with rfl | rfl <;> rfl
  have hmem : r.isMem = true := by rcases hkind with rfl | rfl <;> rfl
  have hadm : admits m r = softMaster m := by rcases hkind with rfl | rfl <;> rfl
  have hshut : shut s m r = false := by
    rcases hkind with rfl | rfl
    · exact shut_core_of_canIssue hi rfl
    · exact shut_core_of_canIssue hi rfl
  have hex : Examined s m a (.wr v) r :=
    ⟨hi, hreg, by rcases hkind with rfl | rfl <;> decide, .inr (.inl hmask), .inl hmem⟩
  cases hs : softMaster m with
  | false => exact busAcc_notAdmitted hex sz .good (hadm.trans hs)
  | true =>
    have htarget : targetMem s m (a / sz.bytes * sz.bytes) sz.bytes r (accVal sz.bytes (.wr v)) .good none = refuse s := by
      rcases hkind with rfl | rfl <;> rfl
    simp only [busAcc, busAccFor, hex.issue, hex.region, if_neg hex.notOwn, hmask, hadm, hs, hmem, hshut,
      htarget, hwr, Bool.true_eq_false, Bool.false_eq_true, false_and, and_false, if_false, if_true]

/-- Settles O31: the write answers an error response, which changes the error log alone. -/
theorem readOnlyMemories : Obligations.ReadOnlyMemories := by
  intro s m a v sz hs hi hr
  generalize hc : (if softMaster m.val then 3 else 1) = c
  have hrow : exec (.registerWrite m a sz (.wr v)) s =
      .next (close { logErr s m.val a.toNat true c with resp := .err c }) := by
    change answer (busAcc s m.val a.toNat sz (.wr v) .good) = _
    rw [busAcc_readOnly hi hr, hc, answer, busFail, runSteps_of_noSteps]
    · rfl
    · simpa only [noSteps, logErr_ctxH] using hs
  have hlog := LogSame.logErr s m.val a.toNat true c
  have hheld (h : testHeld s) := testHeld_logErr h m.val a.toNat true c
  have hrd (b : Nat) := rd_logErr s m.val a.toNat true c (b := b)
  generalize logErr s m.val a.toNat true c = u at *
  refine ⟨_, c, hrow, close_resp _, fun hsoft => ?_, ?_⟩
  · rw [← hc, if_pos hsoft]
  · have hmem (h : testHeld s) : (close { u with resp := .err c }).mem = u.mem :=
      close_mem (s := { u with resp := .err c }) (hheld h)
    refine ⟨?_, ?_, ?_, ?_, ?_, ?_, ?_, ?_, ?_, ?_, ?_, ?_, ?_, ?_, fun h => (hmem h).trans (by rw [hlog]),
      fun b hclose hdiag => (close_rd _ hclose).trans (hrd b hdiag)⟩
    all_goals
      simp only [close_flash, close_fuses, close_img, close_fifo, close_ctxH, close_cellH, close_swq, close_fdb, close_mbxH,
        close_hbH, close_slotH, close_tbs, close_ldrH, close_pending]
      rw [hlog]

end Sys2Proof.Machine

/-! SUPPORT. Route registers (R27, R28): what a write stores, the registers a source depends on, and the line that shows it. -/

namespace Sys2Proof.Machine

/-! ## Bits of a word -/

/-- A bit in the model's arithmetic is the bit of the word. -/
theorem bitAt_eq_getLsbD (w : Word) (i : Nat) : bitAt w i = w.getLsbD i := by
  unfold bitAt
  rw [← BitVec.testBit_toNat, Nat.testBit_eq_decide_div_mod_eq]
  rfl

theorem bitAt_or (w v : Word) (i : Nat) : bitAt (w ||| v) i = (bitAt w i || bitAt v i) := by
  simp only [bitAt_eq_getLsbD, BitVec.getLsbD_or]

theorem bitAt_twoPow {i : Nat} (h : i < 32) : bitAt (BitVec.ofNat 32 (2 ^ i)) i = true := by
  rw [bitAt_eq_getLsbD, BitVec.getLsbD_ofNat, Nat.testBit_two_pow_self]
  simpa using h

/-- Words that agree on their low five bits name the same line. -/
theorem fld_low5_congr {w v : Word} (h : ∀ i < 5, w.getLsbD i = v.getLsbD i) : fld w 4 0 = fld v 4 0 := by
  have hfld (x : Word) : fld x 4 0 = x.toNat % 2 ^ 5 := by simp [fld]
  rw [hfld, hfld]
  apply Nat.eq_of_testBit_eq
  intro i
  rw [Nat.testBit_mod_two_pow, Nat.testBit_mod_two_pow]
  by_cases hi : i < 5
  · rw [BitVec.testBit_toNat, BitVec.testBit_toNat, h i hi]
  · simp [hi]

/-! ## The word of a route register -/

/-- The word that a route register holds after a write of `v` over `old` (Table 1.6, R7). -/
def routeWord (old v : Word) : Word := (old &&& 0xFFFF00E0) ||| (routeClean v &&& 0xFF1F)

/-- The line that a route names is the one written. -/
theorem fld_routeWord (old v : Word) : fld (routeWord old v) 4 0 = fld v 4 0 := by
  refine fld_low5_congr fun i hi => ?_
  have hclean : (routeClean v).getLsbD i = v.getLsbD i := by
    unfold routeClean
    split
    · interval_cases i <;> simp
    · rfl
  simp only [routeWord, BitVec.getLsbD_or, BitVec.getLsbD_and, hclean]
  interval_cases i <;> simp

/-- A word that routes to a context or a pair is not 0: its class is set. -/
theorem ne_zero_of_routesTo {s : State} {w : Word} {x : CtxId} (h : routesTo s w x = true) : w ≠ 0 := by
  rintro rfl
  cases x with
  | pe n k => simp [routesTo, fld] at h
  | pair b => simp [routesTo, fld] at h

/-! ## The lines -/

theorem mem_of_smFind {α : Type} {m : SMap α} {k : Nat} {v : α} (h : smFind m k = some v) : (k, v) ∈ m := by
  induction m with
  | nil => simp [smFind] at h
  | cons e r ih =>
    obtain ⟨j, u⟩ := e
    simp only [smFind] at h
    split_ifs at h with hj hlt
    · cases h
      simp [hj]
    · exact List.mem_cons_of_mem _ (ih h)

/-- A register that differs from its reset word is listed. -/
theorem mem_regs_of_rd_ne {s : State} {a : Nat} (h : s.rd a ≠ resetWord a) : (a, s.rd a) ∈ s.regs := by
  unfold State.rd smGet at h ⊢
  cases hf : smFind s.regs a with
  | none => simp [hf] at h
  | some v => simpa using mem_of_smFind hf

/-- The line that one listed register asserts at a context, if it holds the route of an asserted source. -/
def lineOf (s : State) (x : CtxId) (acc : Word) (e : Nat × Word) : Word :=
  match routeKind e.1 with
  | none => acc
  | some k => if routesTo s e.2 x && sourceOn s e.1 k then acc ||| BitVec.ofNat 32 (2 ^ fld e.2 4 0) else acc

theorem lines_eq (s : State) (x : CtxId) : lines s x = s.regs.foldl (lineOf s x) 0 := rfl

/-- A further source takes no line back. -/
theorem bitAt_lineOf {s : State} {x : CtxId} {acc : Word} {e : Nat × Word} {i : Nat} (h : bitAt acc i = true) :
    bitAt (lineOf s x acc e) i = true := by
  unfold lineOf
  split
  · exact h
  · split_ifs
    · simp [bitAt_or, h]
    · exact h

theorem bitAt_lineOf_self {s : State} {x : CtxId} {acc : Word} {e : Nat × Word} {k : RouteKind} (hk : routeKind e.1 = some k)
    (hr : routesTo s e.2 x = true) (hs : sourceOn s e.1 k = true) : bitAt (lineOf s x acc e) (fld e.2 4 0) = true := by
  have hline : fld e.2 4 0 < 32 := fld_lt e.2 4 0
  simp only [lineOf, hk, hr, hs, Bool.and_self, if_true, bitAt_or, bitAt_twoPow hline, Bool.or_true]

theorem bitAt_foldl_lineOf {s : State} {x : CtxId} {i : Nat} (l : List (Nat × Word)) (acc : Word) (h : bitAt acc i = true) :
    bitAt (l.foldl (lineOf s x) acc) i = true := by
  induction l generalizing acc with
  | nil => exact h
  | cons e l ih => exact ih _ (bitAt_lineOf h)

/-- A listed route register asserts its line, whatever stands around it. -/
theorem bitAt_foldl_lineOf_of_mem {s : State} {x : CtxId} {e : Nat × Word} {k : RouteKind} (l : List (Nat × Word)) (acc : Word)
    (hmem : e ∈ l) (hk : routeKind e.1 = some k) (hr : routesTo s e.2 x = true) (hs : sourceOn s e.1 k = true) :
    bitAt (l.foldl (lineOf s x) acc) (fld e.2 4 0) = true := by
  induction l generalizing acc with
  | nil => simp at hmem
  | cons f l ih =>
    rcases List.mem_cons.1 hmem with rfl | hmem
    · exact bitAt_foldl_lineOf l _ (bitAt_lineOf_self hk hr hs)
    · exact ih _ hmem

/-- An asserted source is on the line its route register names, at the context or pair it routes to (R28). -/
theorem bitAt_lines {s : State} {a : Nat} {k : RouteKind} {x : CtxId} (hk : routeKind a = some k) (hreset : resetWord a = 0)
    (hr : routesTo s (s.rd a) x = true) (hs : sourceOn s a k = true) : bitAt (lines s x) (fld (s.rd a) 4 0) = true := by
  have hmem : (a, s.rd a) ∈ s.regs := mem_regs_of_rd_ne (hreset ▸ ne_zero_of_routesTo hr)
  rw [lines_eq]
  exact bitAt_foldl_lineOf_of_mem (e := (a, s.rd a)) s.regs 0 hmem hk hr hs

end Sys2Proof.Machine

/-! SUPPORT. The route registers of every block (R27): where they stand, and that each takes a plain write. -/

namespace Sys2Proof.Machine

/-! ## Where route registers stand -/

/-- The route registers of Table 1.6, by block, and what asserts the source beside each. -/
inductive RouteAt : Nat → RouteKind → Prop where
  | cell {a : Nat} (h : 0x30000000 ≤ a ∧ a < 0x30100000 ∧ a % 0x1000 = 0x68) : RouteAt a .masked
  | shd {a : Nat} (h : 0x30100000 ≤ a ∧ a < 0x30110000 ∧ a % 0x1000 = 0x28) : RouteAt a .masked
  | dma {a : Nat} (h : 0x30209000 ≤ a ∧ a < 0x30209400 ∧ a % 0x20 = 0x18) : RouteAt a .ring
  | pe {a : Nat} (h : 0x10000000 ≤ a ∧ a < 0x10800000 ∧ a % 0x100000 = 0xF0020) : RouteAt a .masked
  | cyc {a : Nat} (h : 0x32000080 ≤ a ∧ a < 0x320000C0 ∧ a % 4 = 0) : RouteAt a (.cyc ((a - 0x32000080) / 4))
  | hx {a : Nat} (h : 0x36000000 ≤ a ∧ a < 0x36020000 ∧ a % 0x1000 = 0x68) : RouteAt a .masked
  | can {a : Nat} (h : 0x31000000 ≤ a ∧ a < 0x31020000 ∧ a % 0x1000 = 0x2C) : RouteAt a .masked
  | ring {a : Nat} (h : 0x33040000 ≤ a ∧ a < 0x33041000 ∧ a % 0x20 = 0x18) : RouteAt a .ring
  | mbx {a : Nat} (h : 0x34000000 ≤ a ∧ a < 0x34000800 ∧ a % 0x20 = 0x10) : RouteAt a .mbx
  | irq {a : Nat} (h : a = TU_IRQROUTE ∨ a = IMG_IRQROUTE ∨ a = LDR_IRQROUTE ∨ a = SW_IRQROUTE ∨ a = MEM_IRQROUTE ∨
      a = MEM_DG_IRQROUTE ∨ a = ARB_IRQROUTE ∨ a = HB_IRQROUTE ∨ a = SLOT_IRQROUTE ∨ a = PMU_IRQROUTE ∨
      a = AON_IRQROUTE) : RouteAt a .masked

theorem routeAt_of_routeKind {a : Nat} {k : RouteKind} (h : routeKind a = some k) : RouteAt a k := by
  unfold routeKind at h
  rcases ite_eq_iff.1 h with ⟨hcell, ⟨⟩⟩ | ⟨-, h⟩
  · exact .cell hcell
  rcases ite_eq_iff.1 h with ⟨hshd, ⟨⟩⟩ | ⟨-, h⟩
  · exact .shd hshd
  rcases ite_eq_iff.1 h with ⟨hdma, ⟨⟩⟩ | ⟨-, h⟩
  · exact .dma hdma
  rcases ite_eq_iff.1 h with ⟨hpe, ⟨⟩⟩ | ⟨-, h⟩
  · exact .pe hpe
  rcases ite_eq_iff.1 h with ⟨hcyc, ⟨⟩⟩ | ⟨-, h⟩
  · exact .cyc hcyc
  rcases ite_eq_iff.1 h with ⟨hhx, ⟨⟩⟩ | ⟨-, h⟩
  · exact .hx hhx
  rcases ite_eq_iff.1 h with ⟨hcan, ⟨⟩⟩ | ⟨-, h⟩
  · exact .can hcan
  rcases ite_eq_iff.1 h with ⟨hring, ⟨⟩⟩ | ⟨-, h⟩
  · exact .ring hring
  rcases ite_eq_iff.1 h with ⟨hmbx, ⟨⟩⟩ | ⟨-, h⟩
  · exact .mbx hmbx
  rcases ite_eq_iff.1 h with ⟨hirq, ⟨⟩⟩ | ⟨-, h⟩
  · exact .irq hirq
  cases h

/-! ## What a write of a route register does -/

/-- `t` is `s` with the register at `a` as a plain write of `v` leaves it, but for EVF_SHD_STATUS, in which a shadow cell notes a
visit, and no context has changed. -/
structure SetsRoute (s t : State) (a : Nat) (v : Word) : Prop where
  self : t.rd a = (s.softWrite a v).rd a
  other : ∀ b, b ≠ a → (b < 0x30100000 ∨ 0x30110000 ≤ b ∨ b % 0x1000 ≠ 4) → t.rd b = s.rd b
  ctxH : t.ctxH = s.ctxH

theorem SetsRoute.softWrite (s : State) (a : Nat) (v : Word) : SetsRoute s (s.softWrite a v) a v :=
  ⟨rfl, fun _ hb _ => rd_softWrite_ne s v hb, softWrite_ctxH s a v⟩

@[simp] theorem rd_setShd (s : State) (g b : Nat) (h : ShadowH) : (s.setShd g h).rd b = s.rd b := rfl

/-- A shadow cell that finds a cell to visit notes it in its STATUS (R109). -/
theorem rd_shdWake_ne (s : State) {g b : Nat} (h : b ≠ EVF_SHD_STATUS g) : (shdWake s g).rd b = s.rd b := by
  unfold shdWake
  split_ifs
  · split
    · rfl
    · rw [shdVisit, rd_setShd, rd_setFl_ne _ _ _ _ h, rd_setFl_ne _ _ _ _ h]
  · rfl

theorem shdWake_ctxH (s : State) (g : Nat) : (shdWake s g).ctxH = s.ctxH := by
  unfold shdWake
  split_ifs
  · split
    · rfl
    · simp only [shdVisit, State.setShd, State.setFl, State.wr_ctxH]
  · rfl

theorem SetsRoute.shdWake {s : State} {a g : Nat} (hg : g < 16) (ha : a % 0x1000 = 0x28) (v : Word) :
    SetsRoute s (shdWake (s.softWrite a v) g) a v := by
  refine ⟨rd_shdWake_ne _ ?_, fun b hb hst => ?_, ?_⟩
  · unfold EVF_SHD_STATUS; omega
  · rw [rd_shdWake_ne _ (by unfold EVF_SHD_STATUS; omega), rd_softWrite_ne s v hb]
  · rw [shdWake_ctxH, softWrite_ctxH]

/-- The register at `a` of region `r` is a route register, and its target takes every write of it by master `m` (Table 1.6). -/
structure RouteReg (s : State) (m a : Nat) (r : Region) : Prop where
  region : regionOf a = some r
  desc : regDesc a = some ⟨0xFF1F, 0, 0, 0, 0, 0⟩
  taken : ∀ v, ∃ t, targetWrite s m a r v = accept t ∧ SetsRoute s t a v

/-- A target that takes the write as a plain one. -/
theorem RouteReg.plain {s : State} {m a : Nat} {r : Region} (hreg : regionOf a = some r)
    (hdesc : regDesc a = some ⟨0xFF1F, 0, 0, 0, 0, 0⟩) (h : ∀ v, targetWrite s m a r v = accept (s.softWrite a v)) :
    RouteReg s m a r :=
  ⟨hreg, hdesc, fun v => ⟨_, h v, .softWrite s a v⟩⟩

/-! ## Targets whose writes are never masked (R345) -/

theorem targetWrite_aon (s : State) (m a : Nat) (v : Word) : targetWrite s m a .aon v = aonWrite s m (a % 0x1000) v := by
  simp [targetWrite, maskedTarget]

theorem targetWrite_pe (s : State) (m a n : Nat) (v : Word) : targetWrite s m a (.pe n) v = peWrite s n (a % 0x1000) v := by
  simp [targetWrite, maskedTarget]

theorem targetWrite_img (s : State) (m a : Nat) (v : Word) : targetWrite s m a .img v = imgWrite s m (a % 0x1000) v := by
  simp [targetWrite, maskedTarget]

theorem targetWrite_can (s : State) (m a n : Nat) (v : Word) : targetWrite s m a (.can n) v = canWrite s n (a % 0x1000) v := by
  simp [targetWrite, maskedTarget]

theorem targetWrite_tu (s : State) (m a : Nat) (v : Word) : targetWrite s m a .tu v = tuWrite s (a % 0x40000) v := by
  simp [targetWrite, maskedTarget]

theorem targetWrite_sw (s : State) (m a : Nat) (v : Word) : targetWrite s m a .sw v = swWrite s (a % 0x400000) v := by
  simp [targetWrite, maskedTarget]

theorem targetWrite_mbx (s : State) (m a : Nat) (v : Word) : targetWrite s m a .mbx v = memRegWrite s m (a % 0x10000) v := by
  simp [targetWrite, maskedTarget]

theorem targetWrite_hx (s : State) (m a n : Nat) (v : Word) : targetWrite s m a (.hx n) v = hxWrite s n (a % 0x1000) v := by
  simp [targetWrite, maskedTarget]

theorem targetWrite_pmu (s : State) (m a : Nat) (v : Word) : targetWrite s m a .pmu v = pmuWrite s m (a % 0x10000) v := by
  simp [targetWrite, maskedTarget]

theorem targetWrite_ldr (s : State) (m a : Nat) (v : Word) : targetWrite s m a .ldr v = ldrWrite s m (a % 0x10000) v := by
  simp [targetWrite, maskedTarget]

theorem targetWrite_arb (s : State) (m a : Nat) (v : Word) : targetWrite s m a .arb v = arbWrite s m (a % 0x10000) v := by
  simp [targetWrite, maskedTarget]

theorem targetWrite_hb (s : State) (m a : Nat) (v : Word) :
    targetWrite s m a .hb v =
      if a % 0x10000 < 0x8000 then hbWrite s (a % 0x10000) v else slotWrite s m (a % 0x10000) v := by
  simp [targetWrite, maskedTarget]

/-! ## The route register of each block -/

variable (s : State) (m : Nat) {a : Nat}

theorem routeReg_cell (h : 0x30000000 ≤ a ∧ a < 0x30100000 ∧ a % 0x1000 = 0x68) (hm : maskedPair s m = false)
    (hsh : shdOn s ((a - 0x30000000) / 0x1000) = none) : RouteReg s m a (.cell ((a - 0x30000000) / 0x1000)) := by
  refine .plain (by simp (disch := omega) only [regionOf, if_neg, if_pos]) (by simp (disch := omega) only [regDesc, cellDesc, h.2.2, if_neg, if_pos, if_true]) fun v => ?_
  generalize hc : (a - 0x30000000) / 0x1000 = c at *
  have hat : 0x30000000 + c * 0x1000 + 0x68 = a := by omega
  have hw : cellWrite s c 0x68 v = accept (s.softWrite a v) := by
    simp (disch := omega) only [cellWrite, cellRefuses, cellPlainWrite, if_neg, Bool.false_eq_true, if_false, hat]
  have hne : a ≠ EVF_SHD_STATUS (c / 16) := by unfold EVF_SHD_STATUS; omega
  simp only [targetWrite, hm, Bool.false_and, Bool.false_eq_true, if_false, h.2.2, cellAccess, hw, mirrorOn, hsh, shdCheck,
    shdOn_softWrite s v hne]

theorem routeReg_shd (h : 0x30100000 ≤ a ∧ a < 0x30110000 ∧ a % 0x1000 = 0x28) :
    RouteReg s m a (.shd ((a - 0x30100000) / 0x1000)) := by
  refine ⟨by simp (disch := omega) only [regionOf, if_neg, if_pos], by simp (disch := omega) only [regDesc, shdDesc, h.2.2, if_neg, if_pos, if_true], fun v => ?_⟩
  generalize hg : (a - 0x30100000) / 0x1000 = g
  have hat : EVF_SHD_CTRL g + 0x28 = a := by unfold EVF_SHD_CTRL; omega
  refine ⟨shdWake (s.softWrite a v) g, ?_, .shdWake (by omega) h.2.2 v⟩
  simp (disch := omega) only [targetWrite, maskedTarget, Bool.and_false, Bool.false_eq_true, if_false, h.2.2, shdWrite, if_neg, hat]

theorem regDesc_dmaRoute {a : Nat} (h : 0x30209000 ≤ a ∧ a < 0x30209400 ∧ a % 0x20 = 0x18) :
    regDesc a = some ⟨0xFF1F, 0, 0, 0, 0, 0⟩ := by
  have hblk : regDesc a = evfDesc (a - 0x30200000) := by simp (disch := omega) only [regDesc, if_neg, if_pos]
  rw [hblk]
  unfold evfDesc
  repeat rw [if_neg (by omega)]
  rw [if_pos (by omega)]

theorem routeReg_dma (h : 0x30209000 ≤ a ∧ a < 0x30209400 ∧ a % 0x20 = 0x18) : RouteReg s m a .evf := by
  refine .plain (by simp (disch := omega) only [regionOf, if_neg, if_pos]) (regDesc_dmaRoute h) fun v => ?_
  have hmask : maskedTarget .evf (a % 0x10000) = false := by
    simp only [maskedTarget, Bool.or_eq_false_iff, Bool.and_eq_false_iff, beq_eq_false_iff_ne, decide_eq_false_iff_not]
    omega
  have hat : EVF_DMA_CFG ((a % 0x10000 - 0x9000) / 0x20) + a % 0x10000 % 0x20 = a := by unfold EVF_DMA_CFG; omega
  simp (disch := omega) only [targetWrite, hmask, Bool.and_false, Bool.false_eq_true, if_false, evfWrite, if_neg, if_pos,
    dmaWrite, hat]

theorem routeReg_pe (h : 0x10000000 ≤ a ∧ a < 0x10800000 ∧ a % 0x100000 = 0xF0020) :
    RouteReg s m a (.pe ((a - 0x10000000) / 0x100000)) := by
  have hoff : a % 0x1000 = 0x20 := by omega
  refine .plain (by simp (disch := omega) only [regionOf, if_neg, if_pos]) (by simp (disch := omega) only [regDesc, peDesc, hoff, if_neg, if_pos, if_true]) fun v => ?_
  have hat : PE_CTRL ((a - 0x10000000) / 0x100000) + 0x20 = a := by unfold PE_CTRL; omega
  simp (disch := omega) only [targetWrite_pe, hoff, peWrite, if_neg, hat]

theorem routeReg_cyc (h : 0x32000080 ≤ a ∧ a < 0x320000C0 ∧ a % 4 = 0) : RouteReg s m a .tu := by
  refine .plain (by simp (disch := omega) only [regionOf, if_neg, if_pos]) (by simp (disch := omega) only [regDesc, tuDesc, if_neg, if_pos]) fun v => ?_
  have hat : 0x32000000 + a % 0x40000 = a := by omega
  simp (disch := omega) only [targetWrite_tu, tuWrite, if_neg, hat]

theorem routeReg_hx (h : 0x36000000 ≤ a ∧ a < 0x36020000 ∧ a % 0x1000 = 0x68) :
    RouteReg s m a (.hx ((a - 0x36000000) / 0x1000)) := by
  refine .plain (by simp (disch := omega) only [regionOf, if_neg, if_pos]) (by simp (disch := omega) only [regDesc, hxDesc, h.2.2, if_neg, if_pos, if_true]) fun v => ?_
  have hat : 0x36000000 + (a - 0x36000000) / 0x1000 * 0x1000 + 0x68 = a := by omega
  simp (disch := omega) only [targetWrite_hx, h.2.2, hxWrite, if_neg, hat]

theorem routeReg_can (h : 0x31000000 ≤ a ∧ a < 0x31020000 ∧ a % 0x1000 = 0x2C) :
    RouteReg s m a (.can ((a - 0x31000000) / 0x1000)) := by
  refine .plain (by simp (disch := omega) only [regionOf, if_neg, if_pos]) (by simp (disch := omega) only [regDesc, canDesc, h.2.2, if_neg, if_pos, if_true]) fun v => ?_
  have hat : 0x31000000 + (a - 0x31000000) / 0x1000 * 0x1000 + 0x2C = a := by omega
  simp (disch := omega) only [targetWrite_can, h.2.2, canWrite, if_neg, hat]

/-- The words at 0x33040800 to 0x33040BFF belong to no ring: they hold no register. -/
theorem regDesc_ringRoute {a : Nat} (h : 0x33040000 ≤ a ∧ a < 0x33041000 ∧ a % 0x20 = 0x18) (hd : regDesc a ≠ none) :
    regDesc a = some ⟨0xFF1F, 0, 0, 0, 0, 0⟩ := by
  have hblk : regDesc a = swDesc (a - 0x33000000) := by simp (disch := omega) only [regDesc, if_neg, if_pos]
  rw [hblk] at hd ⊢
  unfold swDesc at hd ⊢
  by_cases hgap : (a - 0x33000000) / 0x400 = 0x102
  · refine absurd ?_ hd
    repeat rw [if_neg (by omega)]
  · repeat rw [if_neg (by omega)]
    rw [if_pos (by omega)]

theorem routeReg_ring (h : 0x33040000 ≤ a ∧ a < 0x33041000 ∧ a % 0x20 = 0x18) (hd : regDesc a ≠ none) :
    RouteReg s m a .sw := by
  refine .plain (by simp (disch := omega) only [regionOf, if_neg, if_pos]) (regDesc_ringRoute h hd) fun v => ?_
  have hat : 0x33040000 + (a % 0x400000 - 0x40000) / 0x20 * 0x20 + a % 0x400000 % 0x20 = a := by omega
  simp (disch := omega) only [targetWrite_sw, swWrite, if_neg, if_pos,
    ringRegWrite, hat]

theorem routeReg_mbx (h : 0x34000000 ≤ a ∧ a < 0x34000800 ∧ a % 0x20 = 0x10) : RouteReg s m a .mbx := by
  refine .plain (by simp (disch := omega) only [regionOf, if_neg, if_pos]) (by simp (disch := omega) only [regDesc, mbxDesc, if_neg, if_pos]) fun v => ?_
  have hoff : a % 0x10000 % 0x20 = 0x10 := by omega
  have hat : 0x34000000 + a % 0x10000 = a := by omega
  simp (disch := omega) only [targetWrite_mbx, memRegWrite, mbxWrite,
    if_neg, if_pos, hat]

/-- The route registers that stand alone in their block. -/
theorem routeReg_irq (h : a = TU_IRQROUTE ∨ a = IMG_IRQROUTE ∨ a = LDR_IRQROUTE ∨ a = SW_IRQROUTE ∨ a = MEM_IRQROUTE ∨
    a = MEM_DG_IRQROUTE ∨ a = ARB_IRQROUTE ∨ a = HB_IRQROUTE ∨ a = SLOT_IRQROUTE ∨ a = PMU_IRQROUTE ∨ a = AON_IRQROUTE) :
    ∃ r, RouteReg s m a r := by
  rcases h with rfl | rfl | rfl | rfl | rfl | rfl | rfl | rfl | rfl | rfl | rfl
  · exact ⟨.tu, .plain (by decide) (by decide) fun v => by rw [targetWrite_tu]; rfl⟩
  · exact ⟨.img, .plain (by decide) (by decide) fun v => by rw [targetWrite_img]; rfl⟩
  · exact ⟨.ldr, .plain (by decide) (by decide) fun v => by rw [targetWrite_ldr]; rfl⟩
  · exact ⟨.sw, .plain (by decide) (by decide) fun v => by rw [targetWrite_sw]; rfl⟩
  · exact ⟨.mbx, .plain (by decide) (by decide) fun v => by rw [targetWrite_mbx]; rfl⟩
  · exact ⟨.mbx, .plain (by decide) (by decide) fun v => by rw [targetWrite_mbx]; rfl⟩
  · exact ⟨.arb, .plain (by decide) (by decide) fun v => by rw [targetWrite_arb]; rfl⟩
  · exact ⟨.hb, .plain (by decide) (by decide) fun v => by rw [targetWrite_hb]; rfl⟩
  · exact ⟨.hb, .plain (by decide) (by decide) fun v => by rw [targetWrite_hb]; rfl⟩
  · exact ⟨.pmu, .plain (by decide) (by decide) fun v => by rw [targetWrite_pmu]; rfl⟩
  · exact ⟨.aon, .plain (by decide) (by decide) fun v => by rw [targetWrite_aon]; rfl⟩

/-- Every route register that a master reaches takes its write; at a cell, where the write is not masked and no shadow cell
compares. -/
theorem exists_routeReg {k : RouteKind} (hk : routeKind a = some k) (hd : regDesc a ≠ none)
    (hcell : ∀ c < 256, regionOf a = some (.cell c) → maskedPair s m = false ∧ shdOn s c = none) : ∃ r, RouteReg s m a r := by
  cases routeAt_of_routeKind hk with
  | cell h =>
    have hreg : regionOf a = some (.cell ((a - 0x30000000) / 0x1000)) := by simp (disch := omega) only [regionOf, if_neg, if_pos]
    obtain ⟨hm, hsh⟩ := hcell _ (by omega) hreg
    exact ⟨_, routeReg_cell s m h hm hsh⟩
  | shd h => exact ⟨_, routeReg_shd s m h⟩
  | dma h => exact ⟨_, routeReg_dma s m h⟩
  | pe h => exact ⟨_, routeReg_pe s m h⟩
  | cyc h => exact ⟨_, routeReg_cyc s m h⟩
  | hx h => exact ⟨_, routeReg_hx s m h⟩
  | can h => exact ⟨_, routeReg_can s m h⟩
  | ring h => exact ⟨_, routeReg_ring s m h hd⟩
  | mbx h => exact ⟨_, routeReg_mbx s m h⟩
  | irq h => exact routeReg_irq s m h

end Sys2Proof.Machine

/-! SUPPORT. The write of a route register moves an asserted source to its new line and asserts none (R28). -/

namespace Sys2Proof.Machine

/-! ## The registers a source depends on -/

/-- The registers on which the source routed at `a` depends. -/
def sourceRegs (a : Nat) : RouteKind → List Nat
  | .masked => [a - 8, a - 4]
  | .ring => [a - 4]
  | .cyc _ => [TU_CYCSTAT]
  | .mbx => [a - 4, a - 0x10]

theorem sourceOn_congr {s t : State} {a : Nat} {k : RouteKind} (h : ∀ b ∈ sourceRegs a k, t.rd b = s.rd b) :
    sourceOn t a k = sourceOn s a k := by
  cases k with
  | masked =>
    have hstat := h (a - 8) (by simp [sourceRegs])
    have hen := h (a - 4) (by simp [sourceRegs])
    simp only [sourceOn, hstat, hen]
  | ring =>
    have hstat := h (a - 4) (by simp [sourceRegs])
    simp only [sourceOn, State.fl, hstat]
  | cyc j =>
    have hstat := h TU_CYCSTAT (by simp [sourceRegs])
    simp only [sourceOn, State.bt, hstat]
  | mbx =>
    have hstat := h (a - 4) (by simp [sourceRegs])
    have hcfg := h (a - 0x10) (by simp [sourceRegs])
    simp only [sourceOn, State.bt, hstat, hcfg]

/-- A register that neither the write of the route at `a` changes, nor the end of the command unless it is the status that a
masked source has beside its route. -/
abbrev KeptByRoute (a b : Nat) : Prop :=
  b ≠ a ∧ (b < 0x30100000 ∨ 0x30110000 ≤ b ∨ b % 0x1000 ≠ 4) ∧ (b ≠ a - 8 → closeTouches b = false)

/-- A register away from those that the end of a command touches: DTXCTL and IRQSTAT of a sequencer, the second capture registers
of a cell, the status of the forced test. -/
theorem keptByRoute_of {a b : Nat} (h : b ≠ a ∧ (b < 0x30100000 ∨ 0x30110000 ≤ b ∨ b % 0x1000 ≠ 4) ∧
    (b = a - 8 ∨ (b < 0x36000000 ∨ 0x36020000 ≤ b ∨ b % 0x1000 ≠ 0x60 ∧ b % 0x1000 ≠ 0x70) ∧
      (b < 0x30000000 ∨ 0x30100000 ≤ b ∨ b % 0x1000 ≠ 0x54 ∧ b % 0x1000 ≠ 0x5C) ∧ b ≠ 0x3400C094 ∧ b ≠ 0x3400C0C0)) :
    KeptByRoute a b := by
  obtain ⟨hne, hshd, hclose⟩ := h
  refine ⟨hne, hshd, fun hstat => ?_⟩
  simp only [closeTouches, MEM_FT_STAT, MEM_DG_IRQSTAT, Bool.or_eq_false_iff, Bool.and_eq_false_iff, decide_eq_false_iff_not,
    beq_eq_false_iff_ne]
  omega

/-- A route register stands apart from the registers its source depends on. -/
theorem sourceRegs_kept {a : Nat} {k : RouteKind} (h : RouteAt a k) : ∀ b ∈ sourceRegs a k, KeptByRoute a b := by
  cases h with
  | irq h => rcases h with rfl | rfl | rfl | rfl | rfl | rfl | rfl | rfl | rfl | rfl | rfl <;> decide
  | _ h =>
    intro b hb
    simp only [sourceRegs, TU_CYCSTAT, List.mem_cons, List.not_mem_nil, or_false] at hb
    exact keptByRoute_of (by omega)

/-- The only register of a route's source that the end of a command can touch is a status of a masked source. -/
theorem sourceRegs_close {a b : Nat} {k : RouteKind} (h : RouteAt a k) (hb : b ∈ sourceRegs a k)
    (hstat : closeTouches (a - 8) = false) : closeTouches b = false := by
  obtain ⟨-, -, hclose⟩ := sourceRegs_kept h b hb
  by_cases hba : b = a - 8
  · exact hba ▸ hstat
  · exact hclose hba

/-- No route register is touched by the end of a command. -/
theorem closeTouches_route {a : Nat} {k : RouteKind} (h : RouteAt a k) : closeTouches a = false := by
  cases h with
  | irq h => rcases h with rfl | rfl | rfl | rfl | rfl | rfl | rfl | rfl | rfl | rfl | rfl <;> decide
  | _ h =>
    simp only [closeTouches, MEM_FT_STAT, MEM_DG_IRQSTAT, Bool.or_eq_false_iff, Bool.and_eq_false_iff, decide_eq_false_iff_not,
      beq_eq_false_iff_ne]
    omega

/-! ## ROUTE_WRITE -/

theorem lt_of_regionOf_cell {a c : Nat} (h : regionOf a = some (.cell c)) : c < 256 := by
  simp only [regionOf, ite_eq_iff, Option.some.injEq, reduceCtorEq, and_false, false_or, or_false, Region.cell.injEq] at h
  omega

/-- Route registers stand below the memories of the pairs. -/
theorem RouteAt.lt {a : Nat} {k : RouteKind} (h : RouteAt a k) : a < 0x40000000 := by
  cases h with
  | irq h => rcases h with rfl | rfl | rfl | rfl | rfl | rfl | rfl | rfl | rfl | rfl | rfl <;> decide
  | _ h => omega

theorem le_of_regionOf_plOwn {a : Nat} (h : regionOf a = some .plOwn) : 0x40800000 ≤ a := by
  simp only [regionOf, ite_eq_iff, Option.some.injEq, reduceCtorEq, and_false, and_true, false_or, or_false] at h
  omega

/-- What a write leaves in a route register. -/
theorem rd_softWrite_route (s : State) {a : Nat} (h : regDesc a = some ⟨0xFF1F, 0, 0, 0, 0, 0⟩) (v : Word) :
    (s.softWrite a (routeClean v)).rd a = routeWord (s.rd a) v := by
  rw [rd_softWrite_self s h, writtenWord_of_rwo_zero rfl]
  simp [routeWord, and_ones]

/-- ROUTE_WRITE that reaches its register: the target's state, with the write accepted, ends the command. -/
theorem exec_routeWrite {s : State} {m : Master} {a v : Word} {r : Region} {k : RouteKind} (hs : noSteps s)
    (hk : routeKind a.toNat = some k) (h : opens s m a.toNat r)
    (hcell : ∀ c < 256, r ≠ .cell c ∨ (unmasked s m ∧ shdOn s c = none)) :
    ∃ u, exec (.routeWrite m a v) s = .next (close { u with resp := .ok 0 }) ∧ SetsRoute s u a.toNat (routeClean v) ∧
      regDesc a.toNat = some ⟨0xFF1F, 0, 0, 0, 0, 0⟩ := by
  obtain ⟨hi, hreg, hmem, hal, hd, hadm, hshut⟩ := h
  have hcell' (c : Nat) (hc : c < 256) (hrc : regionOf a.toNat = some (.cell c)) :
      maskedPair s m.val = false ∧ shdOn s c = none :=
    (hcell c hc).resolve_left (fun hne => hne (Option.some.inj (hreg.symm.trans hrc)))
  have hmask : maskedCell r = false ∨ unmasked s m := by
    cases r with
    | cell c => exact .inr (hcell' c (lt_of_regionOf_cell hreg) hreg).1
    | _ => exact .inl rfl
  have hown : r ≠ .plOwn := by
    rintro rfl
    have hlow := (routeAt_of_routeKind hk).lt
    have hhigh := le_of_regionOf_plOwn hreg
    omega
  rw [if_neg hown] at hd
  obtain ⟨r', hr'⟩ := exists_routeReg s m.val hk hd hcell'
  obtain rfl : r' = r := Option.some.inj (hr'.region.symm.trans hreg)
  obtain ⟨u, htaken, hset⟩ := hr'.taken (routeClean v)
  have hv : routed m a.toNat r' v = routeClean v := by simp [routed, hown, hk]
  refine ⟨u, ?_, hset, hr'.desc⟩
  have hsteps : noSteps u := by simpa only [noSteps, hset.ctxH] using hs
  exact writeRow_accept ⟨hi, hreg, hmem, hal, by rwa [if_neg hown], hadm, hshut⟩ hmask (hv.symm ▸ htaken) hsteps

/-- Settles O32: the write sets its register alone, so the source stays as it is, and its line follows the new word. -/
theorem routeWrite : Obligations.RouteWrite := by
  intro s m a v r k hs hk h hcell
  obtain ⟨u, hrow, hset, hdesc⟩ := exec_routeWrite (v := v) hs hk h hcell
  have hat := routeAt_of_routeKind hk
  have hword : (close { u with resp := .ok 0 }).rd a.toNat = routeWord (s.rd a.toNat) v :=
    (close_rd _ (closeTouches_route hat)).trans (hset.self.trans (rd_softWrite_route s hdesc v))
  refine ⟨_, hrow, close_resp _, hword, fun hstat => sourceOn_congr fun b hb => ?_, fun x hsrc hroute => ?_⟩
  · obtain ⟨hne, hshd, -⟩ := sourceRegs_kept hat b hb
    exact (close_rd _ (sourceRegs_close hat hb hstat)).trans (hset.other b hne hshd)
  · have hreset : resetWord a.toNat = 0 := by rw [resetWord, hdesc]; rfl
    have hline := bitAt_lines hk hreset hroute hsrc
    rwa [hword, fld_routeWord] at hline

end Sys2Proof.Machine

/-! SUPPORT. Two statements that fail in states which they do not rule out: a forced test overdue, and a register listed twice. -/

namespace Sys2Proof.Machine

/-! ## An inbound read while a forced test is overdue (R351, R447) -/

/-- A forced test stands as running although its target, engine 0, is out of reset; the link is up with the function in D3hot, and a
byte of the engine's scratchpad is listed. -/
def overdueTest : State :=
  { regs := [(MEM_FT_STAT, 0x20000000), (HB_STATUS, 0xA0000000)], ldrHold := [(0, false), (27, false)],
    mem := [(0x10000000, 1)] }

/-- In D3hot an inbound read gets Unsupported Request, whatever it addresses (R351). -/
theorem inboundRequest_d3hot {s : State} (hlink : hostLink s = true) (hd3 : s.bt HB_STATUS 29 = true) (bar : Bar) (o : Nat)
    (ws : List PcieWord) (k : Nat) : inboundRequest s bar o false ws k = s.emit (.completion 1 []) := by
  simp [inboundRequest, hlink, hd3]

/-- Refutes O52, in its clause on Unsupported Request: the request leaves the memories, but the end of its command aborts an overdue
forced test and makes the memories of its target undefined (R447), and the statement asks for no state in which none is overdue.
The byte listed at 0x10000000 is gone. -/
theorem not_pcieBridge : ¬ Obligations.PcieBridge := by
  intro h
  have hsteps : noSteps overdueTest := by decide
  have hlink : hostLink overdueTest = true := by decide +kernel
  have hd3 : overdueTest.bt HB_STATUS 29 = true := by decide +kernel
  obtain ⟨-, -, hur, -⟩ := h overdueTest hsteps
  obtain ⟨t, hrow, -, hmem⟩ := hur .bar0 0 [] 0 hlink (.inl hd3)
  have hrun : exec (.pcieInboundRequest .bar0 0 false [] 0) overdueTest = .next (close (overdueTest.emit (.completion 1 []))) := by
    change done (runSteps (inboundRequest overdueTest .bar0 0 false [] 0)) = _
    rw [inboundRequest_d3hot hlink hd3, runSteps_of_noSteps (overdueTest.emit _) hsteps]
    rfl
  obtain rfl : close (overdueTest.emit (.completion 1 [])) = t := Host.Outcome.next.inj (hrun.symm.trans hrow)
  have hgone : (close (overdueTest.emit (.completion 1 []))).mem = [] := by decide +kernel
  exact absurd (hgone.symm.trans hmem) (by decide)

/-! ## The loss of the PLL where a register is listed twice (R26, R403) -/

/-- The PLL is locked and no source is asserted. RST_CNT is listed as 0xFFFF0000, so its next cold reset wraps COLD to 0, and behind
RST_CTRL once more: a list that is not in the canonical form of the stores, in which keys rise. -/
def shadowedCount : State :=
  { regs := [(RST_CNT, 0xFFFF0000), (RST_CTRL, 1), (RST_CNT, 0x50000), (RST_CLKSTAT, 0x80000000)] }

theorem keepPin_eq (bank : Bool) (s : State) (i : Nat) : ∃ k, keepPin bank s i = { s with keep := k } := by
  unfold keepPin
  split
  · exact ⟨_, rfl⟩
  · exact ⟨_, rfl⟩
  · exact ⟨s.keep, rfl⟩

/-- The pin keepers change no field but their own. -/
theorem keepSync_eq (s : State) : ∃ k, keepSync s = { s with keep := k } := by
  unfold keepSync
  refine List.foldlRecOn (motive := fun t : State => ∃ k, t = { s with keep := k }) _ _ ⟨s.keep, rfl⟩ ?_
  intro t ht g _
  refine List.foldlRecOn (motive := fun t : State => ∃ k, t = { s with keep := k }) _ _ ht ?_
  rintro u ⟨k, rfl⟩ i _
  obtain ⟨k', h⟩ := keepPin_eq (bankKept { s with keep := k } g) { s with keep := k } (32 * g + i)
  exact ⟨k', h⟩

/-- The slots' part of a cold reset leaves RST_CNT. -/
theorem rd_slotCold_count (s : State) (k : Nat) (hk : k < 32) : (slotCold s k).rd RST_CNT = s.rd RST_CNT := by
  have hne : RST_CNT ≠ AON_SLOT_WEARHI k := by simp [RST_CNT, AON_SLOT_WEARHI]; omega
  change (if (s.slot k).en then s.setBt (AON_SLOT_WEARHI k) 30 true else s).rd RST_CNT = _
  split
  · exact rd_setBt_ne s 30 true hne
  · rfl

theorem rd_slotsCold_count (s : State) : ((List.range 32).foldl slotCold s).rd RST_CNT = s.rd RST_CNT := by
  refine List.foldlRecOn (motive := fun t : State => t.rd RST_CNT = s.rd RST_CNT) _ _ rfl ?_
  intro t ht k hk
  exact (rd_slotCold_count t k (List.mem_range.mp hk)).trans ht

/-- A cold reset leaves in RST_CNT what the register list shows there without the registers reset. -/
theorem rd_coldEnter_count (s : State) : (coldEnter s).rd RST_CNT = (coreReset s coldKeeps).rd RST_CNT := by
  have hslots := rd_slotsCold_count (coreReset s coldKeeps)
  unfold coldEnter
  generalize (List.range 32).foldl slotCold (coreReset s coldKeeps) = c at hslots ⊢
  exact (rd_setBt_ne { c with ldrH := {} } 31 false (by decide)).trans hslots

/-- The keeper of 1PPS_OUT has no part in RST_CNT. -/
theorem rd_ppsTakeover_count (s : State) (driving : Bool) : (ppsTakeover s driving).rd RST_CNT = s.rd RST_CNT := by
  unfold ppsTakeover
  split
  · rw [rd_raise_ne _ _ (by decide), rd_wrapInc_ne _ _ _ _ (by decide), rd_setBt_ne _ _ _ (by decide)]
    rfl
  · rfl

/-- The state that the cold reset of a lost PLL resets, as to its registers: the loss and the reset counted, the cause recorded. -/
def lossCounted (s : State) : State := ((s.satInc RST_CLKSTAT 15 0).raise RST_CAUSE 0x10).wrapInc RST_CNT 31 16

/-- What the loss of a locked PLL leaves in RST_CNT where no source is asserted, whatever the keepers hold. -/
theorem rd_pllLoss_count {s : State} (hlock : s.bt RST_CLKSTAT 31 = true) (hsrcs : s.srcs = 0) :
    (pllLoss s).rd RST_CNT = (coreReset (lossCounted s) coldKeeps).rd RST_CNT := by
  obtain ⟨k, hk⟩ := keepSync_eq { s with pllSafe := true }
  unfold pllLoss wideAssert
  simp only [hlock, if_true, hk]
  rw [if_neg (by simp [State.satInc, State.setFl, State.wr, State.emit, hsrcs, bitAt])]
  simp only [State.satInc, State.setFl, State.wr, State.emit, hsrcs]
  exact (rd_ppsTakeover_count _ _).trans (rd_coldEnter_count _)

/-- Refutes O54, in its clause on the loss of the PLL: it speaks of every register list. Where RST_CNT wraps to its reset word, its
entry goes; the cold reset then takes RST_CTRL from the list, which uncovers the second entry. COLD reads 5 and not 0. -/
theorem not_startUp : ¬ Obligations.StartUp := by
  intro h
  obtain ⟨-, -, -, -, -, -, -, -, hloss⟩ := h shadowedCount
  obtain ⟨t, hrow, -, -, -, hcold⟩ := hloss (by decide +kernel)
  obtain ⟨-, -, hcnt⟩ := hcold (by decide)
  obtain rfl : close (pllLoss shadowedCount) = t := Host.Outcome.next.inj hrow
  have hwrap : (shadowedCount.fl RST_CNT 31 16 + 1) % 65536 = 0 := by decide +kernel
  have hfive : fld ((coreReset (lossCounted shadowedCount) coldKeeps).rd RST_CNT) 31 16 = 5 := by decide +kernel
  rw [close_fl _ 31 16 (by decide), State.fl, rd_pllLoss_count (by decide +kernel) rfl, hfive, hwrap] at hcnt
  exact absurd hcnt (by decide)

end Sys2Proof.Machine

/-! SUPPORT. Accesses of a cell's block (R36 to R80): what they leave outside the cells, and the rows of the accesses that a cell's
rules accept. -/

namespace Sys2Proof.Machine

/-! ## What stays outside the cells -/

/-- `t` is `s` outside the cells as far as a bus access looks there: the contexts, the shadow cells, and every register that stands
in no cell. -/
structure OutsideCells (s t : State) : Prop where
  ctxH : t.ctxH = s.ctxH
  shdH : t.shdH = s.shdH
  rd : ∀ a, a < 0x30000000 ∨ 0x30100000 ≤ a → t.rd a = s.rd a

theorem OutsideCells.refl (s : State) : OutsideCells s s := ⟨rfl, rfl, fun _ _ => rfl⟩

theorem OutsideCells.trans {s t u : State} (h : OutsideCells s t) (k : OutsideCells t u) : OutsideCells s u :=
  ⟨k.ctxH.trans h.ctxH, k.shdH.trans h.shdH, fun a ha => (k.rd a ha).trans (h.rd a ha)⟩

/-- A register of a cell is written. -/
theorem OutsideCells.wr (s : State) {c o : Nat} (v : Word) (hc : c < 256) (ho : o < 0x1000) :
    OutsideCells s (s.wr (0x30000000 + c * 0x1000 + o) v) :=
  ⟨rfl, rfl, fun _ _ => rd_wr_ne s v (by omega)⟩

theorem OutsideCells.setCell (s : State) (c : Nat) (h : CellH) : OutsideCells s (s.setCell c h) := ⟨rfl, rfl, fun _ _ => rfl⟩

theorem OutsideCells.setFifo (s : State) (rx : Bool) (c : Nat) (l : List (BitVec 33)) : OutsideCells s (setFifo s rx c l) :=
  ⟨rfl, rfl, fun _ _ => rfl⟩

/-- Which cell a shadow cell compares with does not depend on the cells. -/
theorem OutsideCells.shdOn {s t : State} (h : OutsideCells s t) (c : Nat) : shdOn t c = shdOn s c := by
  have hrd : t.rd (EVF_SHD_STATUS (c / 16)) = s.rd (EVF_SHD_STATUS (c / 16)) := h.rd _ (.inr (by unfold EVF_SHD_STATUS; omega))
  unfold Machine.shdOn shdState shdCur State.shd State.fl
  rw [hrd, h.shdH]

/-! ## The end of a bus access -/

/-- The state in which the row of a bus access with effect `u` and response `r` ends. -/
def answered (u : State) (r : Resp) : State := close { u with resp := r }

@[simp] theorem answered_resp (u : State) (r : Resp) : (answered u r).resp = r := close_resp _
@[simp] theorem answered_fifo (u : State) (r : Resp) : (answered u r).fifo = u.fifo := close_fifo _
@[simp] theorem answered_cellH (u : State) (r : Resp) : (answered u r).cellH = u.cellH := close_cellH _
@[simp] theorem answered_cycles (u : State) (r : Resp) : (answered u r).cycles = u.cycles := close_cycles _

@[simp] theorem cell_answered (u : State) (r : Resp) (c : Nat) : (answered u r).cell c = u.cell c := by
  simp only [State.cell, answered_cellH]

@[simp] theorem fifoOf_answered (u : State) (r : Resp) (rx : Bool) (c : Nat) : fifoOf (answered u r) rx c = fifoOf u rx c := by
  simp only [fifoOf, answered_fifo]

theorem rd_answered (u : State) (r : Resp) {a : Nat} (h : closeTouches a = false) : (answered u r).rd a = u.rd a := close_rd _ h

/-- The end of a command leaves a cell's registers but its second capture words. -/
theorem closeTouches_cellReg {c o : Nat} (hc : c < 256) (ho : o < 0x1000) (h : o ≠ 0x54 ∧ o ≠ 0x5C) :
    closeTouches (0x30000000 + c * 0x1000 + o) = false :=
  closeTouches_eq_false (by omega) (.inr (by omega))

theorem rd_answered_cell (u : State) (r : Resp) {c o : Nat} (hc : c < 256) (ho : o < 0x1000) (h : o ≠ 0x54 ∧ o ≠ 0x5C) :
    (answered u r).rd (0x30000000 + c * 0x1000 + o) = u.rd (0x30000000 + c * 0x1000 + o) :=
  rd_answered u r (closeTouches_cellReg hc ho h)

/-! ## The rows of accesses at a cell that no shadow cell compares with -/

/-- A cell register lies in its cell's block. -/
theorem cell_offset {a c : Nat} (h : regionOf a = some (.cell c)) : a = 0x30000000 + c * 0x1000 + a % 0x1000 := by
  simp only [regionOf, ite_eq_iff, Option.some.injEq, reduceCtorEq, Region.cell.injEq, and_false, false_or, or_false] at h
  omega

/-- Of a cell's registers only CELL_IRQROUTE is a route. -/
theorem routed_cell {m : Master} {a c : Nat} (h : regionOf a = some (.cell c)) (hr : a % 0x1000 ≠ 0x68) (v : Word) :
    routed m a (.cell c) v = v := by
  have hc := lt_of_regionOf_cell h
  have ha := cell_offset h
  have hk : routeKind a = none := by
    unfold routeKind TU_IRQROUTE IMG_IRQROUTE LDR_IRQROUTE SW_IRQROUTE MEM_IRQROUTE MEM_DG_IRQROUTE ARB_IRQROUTE
      HB_IRQROUTE SLOT_IRQROUTE PMU_IRQROUTE AON_IRQROUTE
    simp (disch := omega) only [if_neg]
  simp [routed, hk]

/-- An access that the cell accepts. -/
theorem cellAccess_accept {s t : State} {c : Nat} {f : State → State × Resp} {d : Word} (hf : f s = accept t d)
    (hs : shdOn s c = none) (ht : shdOn t c = none) : cellAccess s c f = accept t d := by
  simp only [cellAccess, hf, mirrorOn, hs, shdCheck, ht]

/-- An access that the cell refuses. -/
theorem cellAccess_refuse {s t : State} {c : Nat} {f : State → State × Resp} (hf : f s = refuse t) :
    cellAccess s c f = refuse t := by
  simp only [cellAccess, hf]

section
variable {s t : State} {m : Master} {a c : Nat} (h : opens s m a (.cell c))
include h

theorem targetWrite_cell (hm : unmasked s m) (hr : a % 0x1000 ≠ 0x68) (v : Word) :
    targetWrite s m.val a (.cell c) (routed m a (.cell c) v) = cellAccess s c (fun s => cellWrite s c (a % 0x1000) v) := by
  obtain ⟨-, hreg, -⟩ := h
  unfold unmasked at hm
  simp only [targetWrite, hm, Bool.false_and, Bool.false_eq_true, if_false, routed_cell hreg hr]

/-- A write that the cell accepts: its effect, and the response. -/
theorem writeRow_cell (hm : unmasked s m) (hr : a % 0x1000 ≠ 0x68) {v : Word} (hw : cellWrite s c (a % 0x1000) v = accept t)
    (hsh : shdOn s c = none) (ht : shdOn t c = none) (hctx : t.ctxH = s.ctxH) (hs : noSteps s) :
    writeRow s m a v = .next (answered t (.ok 0)) := by
  refine writeRow_accept h (.inr hm) ?_ (by simpa only [noSteps, hctx] using hs)
  rw [targetWrite_cell h hm hr]
  exact cellAccess_accept hw hsh ht

/-- A write that the cell refuses, changing nothing. -/
theorem writeRow_cell_refuse (hm : unmasked s m) (hr : a % 0x1000 ≠ 0x68) {v : Word}
    (hw : cellWrite s c (a % 0x1000) v = refuse s) (hs : noSteps s) :
    writeRow s m a v = .next (answered (logErr s m.val a true 3) (.err 3)) := by
  refine writeRow_refuse h (.inr hm) ?_ (by simpa only [noSteps, logErr_ctxH] using hs)
  rw [targetWrite_cell h hm hr]
  exact cellAccess_refuse hw

/-- A read of a cell register that is no bank entry, which the cell accepts. -/
theorem readRow_cell {d : Word} (ha : a % 0x1000 < 0x800) (hw : cellRead s c (a % 0x1000) = accept t d)
    (hsh : shdOn s c = none) (ht : OutsideCells s t) (hs : noSteps s) :
    readRow s m a = .next (answered t (.ok d)) := by
  have hreg := h.2.1
  have hc := lt_of_regionOf_cell hreg
  have hoff := cell_offset hreg
  refine readRow_accept h (by simp (disch := omega) only [tableWord, if_neg]) ?_ (by simpa only [noSteps, ht.ctxH] using hs)
  exact cellAccess_accept (f := fun s => cellRead s c (a % 0x1000)) hw hsh ((ht.shdOn c).trans hsh)

end

end Sys2Proof.Machine

/-! SUPPORT. The commands of CELL_CTRL (Table 2.17): what each leaves outside the cells, and what it does at its cell. -/

namespace Sys2Proof.Machine

/-! ## The commands act in the cells -/

theorem OutsideCells.flushFifo (s : State) (rx : Bool) (c : Nat) : OutsideCells s (flushFifo s rx c) := by
  unfold Machine.flushFifo
  split_ifs
  · exact .refl s
  · exact .setFifo s rx c []

theorem chkBase_cell {c : Nat} (hc : c < 256) : chkBase (.cell (Fin.ofNat 256 c)) = CELL_CTRL c := by
  simp [chkBase, Nat.mod_eq_of_lt hc]

section
variable (s : State) {c : Nat} (hc : c < 256)
include hc

theorem OutsideCells.doSwap : OutsideCells s (doSwap s c) :=
  ((OutsideCells.wr s _ hc (by decide)).trans (.wr _ _ hc (by decide))).trans (.wr _ _ hc (by decide))

theorem OutsideCells.enterStopped : OutsideCells s (enterStopped s c) := by
  have h := (OutsideCells.wr s (setFld (s.rd (CELL_STATUS c)) 31 30 0) hc (o := 4) (by decide)).trans
    (.wr _ (setFld ((s.setFl (CELL_STATUS c) 31 30 0).rd (CELL_STATUS c)) 27 26 0) hc (o := 4) (by decide))
  unfold Machine.enterStopped
  dsimp only
  split_ifs
  · exact h.trans (.doSwap _ hc)
  · exact h

theorem OutsideCells.chkInit : OutsideCells s (chkInit s (CELL_CTRL c)) :=
  (((OutsideCells.wr s _ hc (by decide)).trans (.wr _ _ hc (by decide))).trans (.wr _ _ hc (by decide))).trans
    (.wr _ _ hc (by decide))

theorem OutsideCells.restartCell (idx : Nat) : OutsideCells s (restartCell s c idx) := by
  unfold Machine.restartCell
  rw [chkBase_cell hc]
  exact (((((((OutsideCells.wr s _ hc (by decide)).trans (.wr _ _ hc (by decide))).trans (.setCell _ c _)).trans
    (.wr _ _ hc (by decide))).trans (.wr _ _ hc (by decide))).trans (.wr _ _ hc (by decide))).trans (.chkInit _ hc)).trans
    (.wr _ _ hc (by decide))

theorem OutsideCells.cellCommand (cmd idx : Nat) : OutsideCells s (cellCommand s c cmd idx) := by
  have hmark : OutsideCells s (cmdMark s c) := .setCell s c _
  unfold Machine.cellCommand
  split_ifs
  · exact hmark.trans (.restartCell _ hc idx)
  · exact hmark
  · exact hmark.trans (.enterStopped _ hc)
  · exact (hmark.trans (.setCell _ c _)).trans (.wr _ _ hc (by decide))
  · exact .refl s
  · exact .refl s
  · exact .doSwap s hc
  · exact .wr s _ hc (by decide)
  · exact .flushFifo s false c
  · exact .flushFifo s true c
  · exact hmark.trans (.setCell _ c _)
  · exact .refl s
  · exact .refl s

end

/-- The row of a CELL_CTRL command: its effect `u` at the cell, and the response. -/
theorem writeRow_cellCtrl {s u : State} {m : Master} {c : Nat} (h : opens s m (CELL_CTRL c) (.cell c)) (hm : unmasked s m)
    (hsh : shdOn s c = none) (hs : noSteps s) {v : Word} {cmd idx : Nat} (hcmd : fld v 3 0 = cmd) (hi : fld v 22 16 = idx)
    (hv : cmd < 8) (hu : cellCommand s c cmd idx = u) :
    writeRow s m (CELL_CTRL c) v = .next (answered u (.ok 0)) := by
  subst hcmd hi hu
  have hout := OutsideCells.cellCommand s (lt_of_regionOf_cell h.2.1) (fld v 3 0) (fld v 22 16)
  have hoff : CELL_CTRL c % 0x1000 = 0 := by unfold CELL_CTRL; omega
  have hw : cellWrite s c (CELL_CTRL c % 0x1000) v = accept (cellCommand s c (fld v 3 0) (fld v 22 16)) := by
    simp [hoff, cellWrite, cellRefuses, Nat.not_le.2 hv]
  exact writeRow_cell h hm (by simp [hoff]) hw hsh ((hout.shdOn c).trans hsh) hout.ctxH hs

/-! ## Fields of a register -/

theorem rd_setFl_self (s : State) (a hi lo v : Nat) : (s.setFl a hi lo v).rd a = setFld (s.rd a) hi lo v := rd_wr_self s a _

theorem rd_setBt_self (s : State) (a i : Nat) (b : Bool) : (s.setBt a i b).rd a = putBit (s.rd a) i b := rd_wr_self s a _

/-- A field apart from the one set stays. -/
theorem fld_setFld_apart (w : Word) {hi lo hi' lo' : Nat} (v : Nat) (h : lo ≤ hi) (h32 : hi < 32) (hl : lo' ≤ hi')
    (hd : hi < lo' ∨ hi' < lo) : fld (setFld w hi lo v) hi' lo' = fld w hi' lo' := by
  rcases hd with hd | hd
  · exact fld_setFld_above w hi lo v hi' lo' h h32 hd
  · exact fld_setFld_below w hi lo v hi' lo' h h32 hd hl

/-- A bit outside the field set stays. -/
theorem bitAt_setFld_apart (w : Word) {hi lo i : Nat} (v : Nat) (h : lo ≤ hi) (h32 : hi < 32) (hd : hi < i ∨ i < lo) :
    bitAt (setFld w hi lo v) i = bitAt w i := by
  have hfld := fld_setFld_apart w v h h32 (le_refl i) hd
  simp only [fld, Nat.add_sub_cancel_left, pow_one] at hfld
  simp only [bitAt, hfld]

/-- A field apart from the bit put stays. -/
theorem fld_putBit_apart (w : Word) {i hi lo : Nat} (b : Bool) (h : i < 32) (hl : lo ≤ hi) (hd : i < lo ∨ hi < i) :
    fld (putBit w i b) hi lo = fld w hi lo :=
  fld_setFld_apart w b.toNat le_rfl h hl hd

/-! ## RESTART -/

/-- INIT of a cell's check unit leaves the cell's own registers. -/
theorem rd_chkInit_cell (s : State) {c o : Nat} (ho : o < 0x100) :
    (chkInit s (CELL_CTRL c)).rd (0x30000000 + c * 0x1000 + o) = s.rd (0x30000000 + c * 0x1000 + o) := by
  unfold chkInit CHK_RUN CHK_HOLD CHK_FED CHK_STATE CELL_CTRL
  rw [rd_wr_ne _ _ (by omega), rd_wr_ne _ _ (by omega), rd_wr_ne _ _ (by omega), rd_wr_ne _ _ (by omega)]

@[simp] theorem cell_chkInit (s : State) (b c : Nat) : (chkInit s b).cell c = s.cell c := by
  simp only [chkInit, cell_wr]

@[simp] theorem cell_setFl (s : State) (a hi lo v c : Nat) : (s.setFl a hi lo v).cell c = s.cell c := cell_wr s a c _

@[simp] theorem cell_setBt (s : State) (a i c : Nat) (b : Bool) : (s.setBt a i b).cell c = s.cell c := cell_wr s a c _

@[simp] theorem chkInit_fifo (s : State) (b : Nat) : (chkInit s b).fifo = s.fifo := by
  simp only [chkInit, State.wr_fifo]

@[simp] theorem setFl_fifo (s : State) (a hi lo v : Nat) : (s.setFl a hi lo v).fifo = s.fifo := State.wr_fifo s a _

@[simp] theorem setBt_fifo (s : State) (a i : Nat) (b : Bool) : (s.setBt a i b).fifo = s.fifo := State.wr_fifo s a _

/-- What RESTART at index `idx` leaves of cell `c` (R38). -/
structure Restarted (s t : State) (c idx : Nat) : Prop where
  status : t.rd (CELL_STATUS c) =
    setFld (setFld (setFld (setFld (s.rd (CELL_STATUS c)) 31 30 1) 27 24 0) 22 16 idx) 15 8 0
  shift : t.rd (CELL_SHIFT c) = 0
  shstat : t.rd (CELL_SHSTAT c) = 0
  evlsn : t.rd (CELL_EVLSN c) = s.rd (CELL_EVLSN c) &&& 0xBFBFBFBF
  ct0 : t.rd (CELL_CT0 c) = setFld (s.rd (CELL_CT0 c)) 15 0 (s.fl (CELL_CT0 c) 31 16)
  ct1 : t.rd (CELL_CT1 c) = setFld (s.rd (CELL_CT1 c)) 15 0 (s.fl (CELL_CT1 c) 31 16)
  cell : t.cell c = { s.cell c with fresh := true, sgs := false, step := false }
  fifo : t.fifo = s.fifo

theorem restarted_restartCell (s : State) {c : Nat} (hc : c < 256) (idx : Nat) : Restarted s (restartCell s c idx) c idx := by
  unfold restartCell
  rw [chkBase_cell hc]
  constructor <;>
    simp [rd_chkInit_cell, rd_setFl_ne, rd_wr_ne, rd_setFl_self, State.fl]

/-! ## CELL_STATUS after a command -/

/-- CELL_STATUS after a swap: the other bank is active, none is pending, SWAPS has counted (R58). -/
def swappedStatus (w : Word) : Word :=
  let v := putBit (putBit w 29 (!bitAt w 29)) 28 false
  setFld v 7 0 (fld v 7 0 + 1)

theorem rd_doSwap_status (s : State) (c : Nat) : (doSwap s c).rd (CELL_STATUS c) = swappedStatus (s.rd (CELL_STATUS c)) := by
  simp only [doSwap, State.wrapInc, State.fl, State.bt, rd_setFl_self, rd_setBt_self, swappedStatus]

/-- CELL_STATUS of a cell that enters STOPPED: its position stays, and a pending swap takes effect (R36, R58). -/
def stoppedStatus (w : Word) : Word :=
  let v := setFld (setFld w 31 30 0) 27 26 0
  if bitAt v 28 then swappedStatus v else v

theorem rd_enterStopped_status (s : State) (c : Nat) :
    (enterStopped s c).rd (CELL_STATUS c) = stoppedStatus (s.rd (CELL_STATUS c)) := by
  simp only [enterStopped, State.bt, rd_setFl_self, stoppedStatus, apply_ite (fun t : State => t.rd (CELL_STATUS c)),
    rd_doSwap_status]

theorem fld_swappedStatus (w : Word) {hi lo : Nat} (hl : lo ≤ hi) (h : 7 < lo) (hd : hi < 28 ∨ 29 < lo) :
    fld (swappedStatus w) hi lo = fld w hi lo := by
  rw [swappedStatus, fld_setFld_apart _ _ (by decide) (by decide) hl (.inl h), fld_putBit_apart _ _ (by decide) hl (by omega),
    fld_putBit_apart _ _ (by decide) hl (by omega)]

theorem bitAt_swappedStatus_pending (w : Word) : bitAt (swappedStatus w) 28 = false := by
  rw [swappedStatus, bitAt_setFld_apart _ _ (by decide) (by decide) (by decide), bitAt_putBit_self _ _ _ (by decide)]

theorem bitAt_swappedStatus_bank (w : Word) : bitAt (swappedStatus w) 29 = !bitAt w 29 := by
  rw [swappedStatus, bitAt_setFld_apart _ _ (by decide) (by decide) (by decide), bitAt_putBit_ne _ _ _ _ (by decide) (by decide),
    bitAt_putBit_self _ _ _ (by decide)]

/-- Entering STOPPED: STATE, the position, no pending swap, and the bank it leaves active. -/
theorem stoppedStatus_fields (w : Word) : fld (stoppedStatus w) 31 30 = 0 ∧ fld (stoppedStatus w) 22 16 = fld w 22 16 ∧
    bitAt (stoppedStatus w) 28 = false ∧ bitAt (stoppedStatus w) 29 = (bitAt w 29 != bitAt w 28) := by
  have hpend : bitAt (setFld (setFld w 31 30 0) 27 26 0) 28 = bitAt w 28 := by simp [bitAt_setFld_apart]
  have hbank : bitAt (setFld (setFld w 31 30 0) 27 26 0) 29 = bitAt w 29 := by simp [bitAt_setFld_apart]
  have hstate : fld (setFld (setFld w 31 30 0) 27 26 0) 31 30 = 0 := by simp [fld_setFld_apart, fld_setFld_self]
  have hidx : fld (setFld (setFld w 31 30 0) 27 26 0) 22 16 = fld w 22 16 := by simp [fld_setFld_apart]
  unfold stoppedStatus
  generalize setFld (setFld w 31 30 0) 27 26 0 = v at *
  dsimp only
  cases hp : bitAt w 28 with
  | false => simp [hpend, hbank, hstate, hidx, hp]
  | true =>
    simp [hpend, hbank, hstate, hidx, hp, fld_swappedStatus, bitAt_swappedStatus_pending, bitAt_swappedStatus_bank]

/-! ## The rows -/

theorem cmdMark_cmdAt (s : State) (c : Nat) : s.cycles < ((cmdMark s c).cell c).cmdAt := by
  simp only [cmdMark, cell_setCell_self]
  split_ifs <;> omega

theorem fifoOf_setFifo_self (s : State) (rx : Bool) (c : Nat) (l : List (BitVec 33)) : fifoOf (setFifo s rx c l) rx c = l := by
  simp [fifoOf, setFifo]

theorem fifoOf_setFifo_ne (s : State) {rx rx' : Bool} {c c' : Nat} (l : List (BitVec 33)) (h : c' ≠ c ∨ rx' ≠ rx) :
    fifoOf (setFifo s rx c l) rx' c' = fifoOf s rx' c' := by
  have hrx := rx.toNat_lt
  have hrx' := rx'.toNat_lt
  refine smGet_smSet_ne _ _ _ _ fun hkey => ?_
  rcases h with hc | hdir
  · omega
  · exact hdir ((by decide : ∀ a b : Bool, a.toNat = b.toNat → a = b) _ _ (by omega))

section
variable {s : State} {m : Master} {c : Fin 256} (ho : opens s m (CELL_CTRL c.val) (.cell c.val)) (hm : unmasked s m)
  (hsh : shdOn s c.val = none) (hs : noSteps s)
include ho hm hsh hs

/-- RESTART at an index (R38). -/
theorem exec_cellRestart (idx : Fin 128) : exec (.cellRestart m c idx) s =
    .next (answered (restartCell (cmdMark s c.val) c.val idx.val) (.ok 0)) := by
  have hcmd : fld (BitVec.ofNat 32 (1 + idx.val * 2 ^ 16)) 3 0 = 1 := by simp [fld]; omega
  have hidx : fld (BitVec.ofNat 32 (1 + idx.val * 2 ^ 16)) 22 16 = idx.val := by simp [fld]; omega
  exact writeRow_cellCtrl ho hm hsh hs hcmd hidx (by decide) (by simp [cellCommand])

/-- STOP of a cell that is not STOPPED (R39). -/
theorem exec_cellStop (hst : cellState s c.val ≠ 0) : exec (.cellStop m c) s =
    .next (answered (enterStopped (cmdMark s c.val) c.val) (.ok 0)) :=
  writeRow_cellCtrl ho hm hsh hs (cmd := 2) (idx := 0) rfl rfl (by decide) (by simp [cellCommand, hst])

/-- RESUME of a STOPPED cell (R39). -/
theorem exec_cellResume (hst : cellState s c.val = 0) : exec (.cellResume m c) s =
    .next (answered (((cmdMark s c.val).setCell c.val { (cmdMark s c.val).cell c.val with step := false }).setFl
      (CELL_STATUS c.val) 31 30 1) (.ok 0)) :=
  writeRow_cellCtrl ho hm hsh hs (cmd := 3) (idx := 0) rfl rfl (by decide) (by simp [cellCommand, hst])

/-- SWAP of a cell with no swap pending: at once where it is STOPPED, else pending (R58). -/
theorem exec_cellSwap (hp : s.bt (CELL_STATUS c.val) 28 = false) : exec (.cellSwap m c) s =
    .next (answered ((if cellState s c.val = 0 then doSwap s c.val else s.setBt (CELL_STATUS c.val) 28 true)) (.ok 0)) :=
  writeRow_cellCtrl ho hm hsh hs (cmd := 4) (idx := 0) rfl rfl (by decide) (by simp [cellCommand, hp])

/-- FLUSHTX of a FIFO that the cell owns (R64, R66). -/
theorem exec_flushtx (hd : donor s false c.val = false) : exec (.flushtx m c) s =
    .next (answered (setFifo s false c.val []) (.ok 0)) :=
  writeRow_cellCtrl ho hm hsh hs (cmd := 5) (idx := 0) rfl rfl (by decide) (by simp [cellCommand, flushFifo, hd])

/-- FLUSHRX of a FIFO that the cell owns (R64, R66). -/
theorem exec_flushrx (hd : donor s true c.val = false) : exec (.flushrx m c) s =
    .next (answered (setFifo s true c.val []) (.ok 0)) :=
  writeRow_cellCtrl ho hm hsh hs (cmd := 6) (idx := 0) rfl rfl (by decide) (by simp [cellCommand, flushFifo, hd])

/-- STEP of a STOPPED cell (R39). -/
theorem exec_cellStep (hst : cellState s c.val = 0) : exec (.cellStep m c) s =
    .next (answered ((cmdMark s c.val).setCell c.val { (cmdMark s c.val).cell c.val with step := true }) (.ok 0)) :=
  writeRow_cellCtrl ho hm hsh hs (cmd := 7) (idx := 0) rfl rfl (by decide) (by simp [cellCommand, hst])

end

theorem rd_cmdMark (s : State) (c a : Nat) : (cmdMark s c).rd a = s.rd a := rfl

/-- CELL_STATUS where a row at the cell ends. -/
theorem rd_answered_status (u : State) (r : Resp) {c : Nat} (hc : c < 256) :
    (answered u r).rd (CELL_STATUS c) = u.rd (CELL_STATUS c) :=
  rd_answered_cell u r hc (by decide) (by decide)

/-- Settles O33, command by command: each row's effect, read at CELL_STATUS and at what else the command reaches. -/
theorem cellCommands : Obligations.CellCommands := by
  intro s m c hs hm ho hsh
  have hc := c.isLt
  refine ⟨fun idx => ?_, fun hst => ?_, fun hst => ?_, fun hp => ?_, fun hd => ?_, fun hd => ?_, fun hst => ?_⟩
  · obtain ⟨hstatus, hshift, hshstat, hevlsn, hct0, hct1, hcell, hfifo⟩ :=
      restarted_restartCell (cmdMark s c.val) hc idx.val
    have hrow := exec_cellRestart ho hm hsh hs idx
    generalize restartCell (cmdMark s c.val) c.val idx.val = u at *
    have hidx : idx.val % 128 = idx.val := by omega
    have hrel (a : Nat) : s.fl a 31 16 % 2 ^ 16 = s.fl a 31 16 := Nat.mod_eq_of_lt (fld_lt _ 31 16)
    refine ⟨_, hrow, ?_, ?_, (rd_answered_cell u _ hc (by decide) (by decide)).trans hshift,
      (rd_answered_cell u _ hc (by decide) (by decide)).trans hshstat,
      (rd_answered_cell u _ hc (by decide) (by decide)).trans hevlsn, ?_, ?_, ?_, ?_, ?_, answered_resp _ _⟩
    · simp [cellState, State.fl, rd_answered_status u _ hc, hstatus, fld_setFld_apart, fld_setFld_self]
    · simp [State.fl, rd_answered_status u _ hc, hstatus, fld_setFld_apart, fld_setFld_self, hidx]
    · simp [hcell]
    · simp [hcell]
    · rw [State.fl, rd_answered_cell u _ hc (by decide) (by decide), hct0, fld_setFld_self _ _ _ _ (by decide) (by decide)]
      exact hrel _
    · rw [State.fl, rd_answered_cell u _ hc (by decide) (by decide), hct1, fld_setFld_self _ _ _ _ (by decide) (by decide)]
      exact hrel _
    · exact (answered_fifo u _).trans hfifo
  · obtain ⟨hstate, hidx, hpend, hbank⟩ := stoppedStatus_fields (s.rd (CELL_STATUS c.val))
    refine ⟨_, exec_cellStop ho hm hsh hs hst, ?_⟩
    simpa only [cellState, State.fl, State.bt, rd_answered_status _ _ hc, rd_enterStopped_status, rd_cmdMark] using
      ⟨hstate, hidx, hpend, hbank⟩
  · refine ⟨_, exec_cellResume ho hm hsh hs hst, ?_⟩
    simp [cellState, State.fl, rd_answered_status _ _ hc, rd_setFl_self, rd_cmdMark, fld_setFld_self, fld_setFld_apart]
  · refine ⟨_, exec_cellSwap ho hm hsh hs hp, fun hst => ?_, fun hst => ?_⟩
    · simp [State.bt, hst, rd_answered_status _ _ hc, rd_setBt_self, bitAt_putBit_self, bitAt_putBit_ne]
    · simp [State.bt, hst, rd_answered_status _ _ hc, rd_doSwap_status, bitAt_swappedStatus_pending, bitAt_swappedStatus_bank]
  · refine ⟨_, exec_flushtx ho hm hsh hs hd, ?_, fun d rx hne => ?_⟩
    · rw [fifoOf_answered, fifoOf_setFifo_self]
    · rw [fifoOf_answered, fifoOf_setFifo_ne _ _ (by simpa using hne)]
  · refine ⟨_, exec_flushrx ho hm hsh hs hd, ?_, fun d rx hne => ?_⟩
    · rw [fifoOf_answered, fifoOf_setFifo_self]
    · rw [fifoOf_answered, fifoOf_setFifo_ne _ _ (by simpa using hne)]
  · have hmark : s.cycles < ((cmdMark s c.val).cell c.val).cmdAt := cmdMark_cmdAt s c.val
    refine ⟨_, exec_cellStep ho hm hsh hs hst, ?_, ?_, ?_, answered_fifo _ _, answered_resp _ _, fun a ha => rd_answered _ _ ha⟩
    · simp
    · simpa only [cellState, State.fl, rd_answered_status _ _ hc, rd_setCell, rd_cmdMark] using hst
    · simpa [tickRuns, cmdMark] using hmark

end Sys2Proof.Machine

/-! SUPPORT. FIFO and configuration accesses at a cell (R57, R62, R67, R76): the cell's own rules accept or refuse the access, and the
registers and FIFOs it leaves. -/

namespace Sys2Proof.Machine

/-! ## Register words that a plain write leaves -/

/-- Words that agree on the bits of a field agree on the field. -/
theorem fld_congr {w v : Word} {hi lo : Nat} (h : ∀ i, lo ≤ i → i ≤ hi → w.getLsbD i = v.getLsbD i) : fld w hi lo = fld v hi lo := by
  unfold fld
  refine Nat.eq_of_testBit_eq fun i => ?_
  simp only [Nat.testBit_mod_two_pow, Nat.testBit_div_two_pow, BitVec.testBit_toNat]
  by_cases hi' : i < hi + 1 - lo
  · rw [h (i + lo) (by omega) (by omega)]
  · simp [hi']

/-- A plain write of a register without W1C and RWO bits sets the fields that its RW bits cover. -/
theorem fl_softWrite_self (s : State) {a : Nat} {rw : Word} {hi lo : Nat} {rc wo : Word} {rst : Word}
    (h : regDesc a = some ⟨rw, 0, rc, wo, 0, rst⟩) (hrw : ∀ i, lo ≤ i → i ≤ hi → rw.getLsbD i = true) (h32 : hi < 32) (v : Word) :
    (s.softWrite a v).fl a hi lo = fld v hi lo := by
  rw [State.fl, rd_softWrite_self s h, writtenWord_of_rwo_zero rfl]
  refine fld_congr fun i hlo hhi => ?_
  have hi32 : i < 32 := by omega
  have hset := hrw i hlo hhi
  rw [BitVec.getLsbD_eq_getElem hi32] at hset
  simp [and_ones, hi32, hset]

/-- The bank words take every bit. -/
theorem rd_softWrite_bank (s : State) {c o : Nat} (hc : c < 256) (ho : 0x800 ≤ o ∧ o < 0x1000 ∧ o % 4 = 0) (v : Word) :
    (s.softWrite (0x30000000 + c * 0x1000 + o) v).rd (0x30000000 + c * 0x1000 + o) = v := by
  have hoff : (0x30000000 + c * 0x1000 + o) % 0x1000 = o := by omega
  have hdesc : regDesc (0x30000000 + c * 0x1000 + o) = some ⟨0xFFFFFFFF, 0, 0, 0, 0, 0⟩ := by
    simp (disch := omega) only [regDesc, cellDesc, hoff, if_neg, if_pos]
  rw [rd_softWrite_self s hdesc, writtenWord_of_rwo_zero rfl]
  simp [and_ones]

theorem regDesc_cellReg {c o : Nat} (hc : c < 256) (ho : o < 0x100) : regDesc (0x30000000 + c * 0x1000 + o) = cellDesc o := by
  have hoff : (0x30000000 + c * 0x1000 + o) % 0x1000 = o := by omega
  simp (disch := omega) only [regDesc, hoff, if_neg, if_pos]

theorem OutsideCells.softWrite (s : State) {c o : Nat} (v : Word) (hc : c < 256) (ho : o < 0x1000) :
    OutsideCells s (s.softWrite (0x30000000 + c * 0x1000 + o) v) :=
  ⟨softWrite_ctxH s _ v, softWrite_shdH s _ v, fun _ _ => rd_softWrite_ne s v (by omega)⟩

theorem OutsideCells.define (s : State) (lo hi : Nat) : OutsideCells s (s.define lo hi) := ⟨rfl, rfl, fun _ _ => rfl⟩

theorem OutsideCells.fifoMark (s : State) (c i o : Nat) : OutsideCells s (fifoMark s c i o) := .setCell s c _

/-! ## What the cell makes of the access -/

/-- A write of TXDATA where the FIFO takes it (R62). -/
theorem cellWrite_txdata {s : State} {c : Nat} (hcl : fifoClosed s false c = false)
    (hroom : (fifoOf s false c).length < depth s false c) (v : Word) : cellWrite s c 0x20 v =
      accept (fifoMark (setFifo s false c (fifoOf s false c ++ [BitVec.ofNat 33 v.toNat])) c 1 0) := by
  simp [cellWrite, cellRefuses, hcl, txAppend, Nat.not_le.2 hroom]

/-- A read of RXDATA where the FIFO holds a word (R62). -/
theorem cellRead_rxdata {s : State} {c : Nat} (hcl : fifoClosed s true c = false) {w : BitVec 33} {r : List (BitVec 33)}
    (hf : fifoOf s true c = w :: r) : cellRead s c 0x24 = accept (fifoMark (setFifo s true c r) c 0 1) (w.setWidth 32) := by
  simp [cellRead, hcl, rxTake, hf]

/-- A write of a bank word: refused while a swap is pending, and of the active bank while the cell is not STOPPED (R57). -/
theorem cellWrite_bank {s : State} {c o : Nat} (ho : 0x800 ≤ o) (v : Word) : cellWrite s c o v =
    if s.bt (CELL_STATUS c) 28 ∨ cellState s c ≠ 0 ∧ o / 0x400 % 2 = (s.bt (CELL_STATUS c) 29).toNat then refuse s
    else accept ((s.define (0x30000000 + c * 0x1000 + o) (0x30000000 + c * 0x1000 + o + 4)).softWrite
      (0x30000000 + c * 0x1000 + o) v) := by
  have href : cellRefuses s c o v = decide (s.bt (CELL_STATUS c) 28 = true ∨
      cellState s c ≠ 0 ∧ o / 0x400 % 2 = (s.bt (CELL_STATUS c) 29).toNat) := by
    simp (disch := omega) only [cellRefuses, if_neg, if_pos]
    cases s.bt (CELL_STATUS c) 28 <;> simp [beq_eq_decide]
  have hplain : cellPlainWrite s c o v = (s.define (0x30000000 + c * 0x1000 + o) (0x30000000 + c * 0x1000 + o + 4)).softWrite
      (0x30000000 + c * 0x1000 + o) v := by
    simp (disch := omega) only [cellPlainWrite, if_neg, if_pos]
  simp (disch := omega) only [cellWrite, href, hplain, if_neg, decide_eq_true_eq]

/-- A write of CELL_FIFOCFG that R67 accepts, at a cell with a cell above it in its group. -/
theorem cellWrite_fifocfg {s : State} {c : Nat} {v : Word} (hok : joinOk s c v = true) (hlast : c % 16 ≠ 15) :
    cellWrite s c 0x18 v = accept (s.softWrite (CELL_FIFOCFG c) v) := by
  simp [cellWrite, cellRefuses, hok, cellPlainWrite, hlast]

/-- A write of CELL_MODE that R76 accepts. -/
theorem cellWrite_mode {s : State} {c : Nat} {v : Word} (hst : cellState s c = 0) (hpass : fld v 1 0 ≠ 3)
    (hok : modeOk s c v = true) : cellWrite s c 0x08 v = accept (cellModeSet s c v) := by
  simp [cellWrite, cellRefuses, hst, hpass, hok]

/-! ## CELL_MODE (R76, R109, R112) -/

theorem shdOn_of_state {s : State} {c : Nat} (h : shdState s (c / 16) ≠ 2) : shdOn s c = none := by
  simp only [shdOn, h, false_and, if_false]

theorem shdState_shdVisit (s : State) (g i v : Nat) : shdState (shdVisit s g i v) g = 1 := by
  rw [shdState, State.fl, shdVisit, rd_setShd, rd_setFl_self, rd_setFl_self,
    fld_setFld_apart _ _ (by decide) (by decide) (by decide) (by decide), fld_setFld_self _ _ _ _ (by decide) (by decide)]
  rfl

theorem shdVisit_ctxH (s : State) (g i v : Nat) : (shdVisit s g i v).ctxH = s.ctxH := by
  simp only [shdVisit, State.setShd_ctxH, State.setFl, State.wr_ctxH]

theorem rd_shdVisit_ne (s : State) {g b : Nat} (i v : Nat) (h : b ≠ EVF_SHD_STATUS g) : (shdVisit s g i v).rd b = s.rd b := by
  rw [shdVisit, rd_setShd, rd_setFl_ne _ _ _ _ h, rd_setFl_ne _ _ _ _ h]

/-- What the rotation does after a visit (R109): it changes its own STATUS and COUNT, and does not compare. -/
theorem shdNext_spec (s : State) (g v : Nat) : shdState (shdNext s g v) g ≠ 2 ∧ (shdNext s g v).ctxH = s.ctxH ∧
    ∀ b, b < 0x30100000 → (shdNext s g v).rd b = s.rd b := by
  have hne {b : Nat} (hb : b < 0x30100000) : b ≠ EVF_SHD_STATUS g ∧ b ≠ EVF_SHD_COUNT g := by
    unfold EVF_SHD_STATUS EVF_SHD_COUNT
    omega
  unfold shdNext
  dsimp only
  split
  · exact ⟨by simp [shdState_shdVisit], shdVisit_ctxH _ _ _ _, fun b hb => rd_shdVisit_ne s _ _ (hne hb).1⟩
  · exact ⟨by simp [shdState_shdVisit], (shdVisit_ctxH _ _ _ _).trans (State.wr_ctxH s _ _), fun b hb =>
      (rd_shdVisit_ne _ _ _ (hne hb).1).trans (rd_wrapInc_ne s _ _ _ (hne hb).2)⟩
  · refine ⟨?_, ?_, fun b hb => ?_⟩
    · rw [shdState, State.fl, rd_setShd, rd_setFl_self, fld_setFld_self _ _ _ _ (by decide) (by decide)]
      decide
    · simp only [State.setShd_ctxH, State.setFl, State.wr_ctxH]
    · rw [rd_setShd, rd_setFl_ne s _ _ _ (hne hb).1]

/-- A visit ended without a verdict (R112): where no shadow cell compares with a cell, none does then. -/
theorem shdNoVerdict_spec (s : State) (c : Nat) (h : shdOn s c = none) : shdOn (shdNoVerdict s (c / 16)) c = none ∧
    (shdNoVerdict s (c / 16)).ctxH = s.ctxH ∧ ∀ b, b < 0x30100000 → (shdNoVerdict s (c / 16)).rd b = s.rd b := by
  unfold shdNoVerdict
  split_ifs
  · obtain ⟨hst, hctx, hrd⟩ := shdNext_spec (s.setShd (c / 16) { s.shd (c / 16) with lastMis := none }) (c / 16) (s.cycles + 1)
    exact ⟨shdOn_of_state hst, hctx.trans (State.setShd_ctxH _ _ _), fun b hb => (hrd b hb).trans (rd_setShd _ _ _ _)⟩
  · exact ⟨h, rfl, fun _ _ => rfl⟩

/-- An IDLE shadow cell that finds a cell does not compare yet (R109). -/
theorem shdOn_shdWake (s : State) (c : Nat) (h : shdOn s c = none) : shdOn (shdWake s (c / 16)) c = none := by
  unfold shdWake
  split_ifs
  · split
    · exact h
    · exact shdOn_of_state (by simp [shdState_shdVisit])
  · exact h

/-- The drive of a bound unit reaches the pins of its cell only. -/
theorem OutsideCells.unitDrive (s : State) {c : Nat} (hc : c < 256) : OutsideCells s (unitDrive s c) := by
  unfold Machine.unitDrive
  split_ifs
  · exact (((((OutsideCells.wr s _ hc (by decide)).trans (.wr _ _ hc (by decide))).trans (.wr _ _ hc (by decide))).trans
      (.wr _ _ hc (by decide))).trans (.setCell _ c _)).trans (.setCell _ c _)
  · exact .refl s

theorem rd_unitDrive_ne (s : State) {c b : Nat} (h : b ≠ CELL_PINS c) : (unitDrive s c).rd b = s.rd b := by
  unfold unitDrive
  split_ifs
  · simp only [setOd, setDrive, rd_setCell, rd_setBt_ne _ _ _ h]
  · rfl

/-- A CELL_MODE write that the cell accepts: the register, no comparison begun (R109, R112), no context touched. -/
theorem cellModeSet_spec {s : State} {c : Nat} (hc : c < 256) (h : shdOn s c = none) (v : Word) :
    shdOn (cellModeSet s c v) c = none ∧ (cellModeSet s c v).ctxH = s.ctxH ∧
      (cellModeSet s c v).rd (CELL_MODE c) = (s.softWrite (CELL_MODE c) v).rd (CELL_MODE c) := by
  have hlow : CELL_MODE c < 0x30100000 := by unfold CELL_MODE; omega
  have hsoft := OutsideCells.softWrite s v hc (o := 8) (by decide)
  obtain ⟨u, hu, hout, hmode⟩ : ∃ u, u = (if c % 16 = 15 then unitDrive (s.softWrite (CELL_MODE c) v) c
        else unitDrive (unitDrive (s.softWrite (CELL_MODE c) v) c) (c + 1)) ∧ OutsideCells s u ∧
      u.rd (CELL_MODE c) = (s.softWrite (CELL_MODE c) v).rd (CELL_MODE c) := by
    refine ⟨_, rfl, ?_, ?_⟩
    · split_ifs
      · exact hsoft.trans (.unitDrive _ hc)
      · exact (hsoft.trans (.unitDrive _ hc)).trans (.unitDrive _ (by omega))
    · split_ifs
      · rw [rd_unitDrive_ne _ (by unfold CELL_MODE CELL_PINS; omega)]
      · rw [rd_unitDrive_ne _ (by unfold CELL_MODE CELL_PINS; omega), rd_unitDrive_ne _ (by unfold CELL_MODE CELL_PINS; omega)]
  have hon : shdOn u c = none := (hout.shdOn c).trans h
  have heq : cellModeSet s c v = if fld v 1 0 = 0 then shdWake u (c / 16)
      else if shdCur u (c / 16) = c % 16 then shdNoVerdict u (c / 16) else u := by
    rw [hu]
    rfl
  rw [heq]
  split_ifs
  · exact ⟨shdOn_shdWake u c hon, (shdWake_ctxH u _).trans hout.ctxH,
      (rd_shdWake_ne u (by unfold EVF_SHD_STATUS; omega)).trans hmode⟩
  · obtain ⟨hon', hctx, hrd⟩ := shdNoVerdict_spec u c hon
    exact ⟨hon', hctx.trans hout.ctxH, (hrd _ hlow).trans hmode⟩
  · exact ⟨hon, hout.ctxH, hmode⟩

/-- A bank word's place in its cell's block, and the bank that the place names. -/
theorem cell_bank_offset (c : Nat) (b : Bool) (e : Fin 128) (hi : Bool) : ∃ o,
    CELL_BANK c (256 * b.toNat + 2 * e.val + hi.toNat) = 0x30000000 + c * 0x1000 + o ∧ 0x800 ≤ o ∧ o < 0x1000 ∧ o % 4 = 0 ∧
      o / 0x400 % 2 = b.toNat := by
  have hb := b.toNat_lt
  have hh := hi.toNat_lt
  refine ⟨0x800 + 4 * (256 * b.toNat + 2 * e.val + hi.toNat), ?_, by omega, by omega, by omega, by omega⟩
  unfold CELL_BANK
  omega

section
variable {s : State} {m : Master} {c o : Nat} (hs : noSteps s) (hm : unmasked s m)
  (ho : opens s m (0x30000000 + c * 0x1000 + o) (.cell c)) (hlo : 0x800 ≤ o) (hhi : o < 0x1000)
include hs hm ho hlo hhi

/-- A bank write that R57 accepts: the entry's word, and no other register. -/
theorem bankWrite_accepted (hsh : shdOn s c = none) (hal : o % 4 = 0) (hfree : ¬ (s.bt (CELL_STATUS c) 28 ∨
    cellState s c ≠ 0 ∧ o / 0x400 % 2 = (s.bt (CELL_STATUS c) 29).toNat)) (v : Word) :
    ∃ t, writeRow s m (0x30000000 + c * 0x1000 + o) v = .next t ∧ t.rd (0x30000000 + c * 0x1000 + o) = v ∧
      ∀ d, d ≠ 0x30000000 + c * 0x1000 + o → closeTouches d = false → t.rd d = s.rd d := by
  have hc := lt_of_regionOf_cell ho.2.1
  have hoff : (0x30000000 + c * 0x1000 + o) % 0x1000 = o := by omega
  have hout := (OutsideCells.define s (0x30000000 + c * 0x1000 + o) (0x30000000 + c * 0x1000 + o + 4)).trans
    (.softWrite _ v hc hhi)
  refine ⟨_, writeRow_cell ho hm (by omega) (by rw [hoff, cellWrite_bank hlo, if_neg hfree]) hsh ((hout.shdOn _).trans hsh)
    hout.ctxH hs, ?_, fun d hd htouch => ?_⟩
  · rw [rd_answered_cell _ _ hc hhi (by omega), rd_softWrite_bank _ hc ⟨hlo, hhi, hal⟩]
  · rw [rd_answered _ _ htouch, rd_softWrite_ne _ _ hd]
    rfl

/-- A bank write that R57 refuses: the error response, and nothing of the cell. -/
theorem bankWrite_refused (href : s.bt (CELL_STATUS c) 28 ∨ cellState s c ≠ 0 ∧ o / 0x400 % 2 = (s.bt (CELL_STATUS c) 29).toNat)
    (v : Word) : ∃ t, writeRow s m (0x30000000 + c * 0x1000 + o) v = .next t ∧ t.resp = .err 3 ∧ t.fifo = s.fifo ∧
      t.cellH = s.cellH ∧ ∀ d, closeTouches d = false → (d < 0x3400C000 ∨ 0x3400D000 ≤ d) → t.rd d = s.rd d := by
  have hoff : (0x30000000 + c * 0x1000 + o) % 0x1000 = o := by omega
  have hlog := LogSame.logErr s m.val (0x30000000 + c * 0x1000 + o) true 3
  refine ⟨_, writeRow_cell_refuse ho hm (by omega) (by rw [hoff, cellWrite_bank hlo, if_pos href]) hs, answered_resp _ _, ?_, ?_,
    fun d htouch hd => ?_⟩
  · rw [answered_fifo, hlog]
  · rw [answered_cellH, hlog]
  · rw [rd_answered _ _ htouch, rd_logErr _ _ _ _ _ hd]

end

/-- Settles O34, access by access: what the cell makes of it, and what the row leaves. -/
theorem cellAccesses : Obligations.CellAccesses := by
  intro s m c v hs hm hsh
  have hc := c.isLt
  refine ⟨fun ho hcl hroom => ?_, fun w r ho hcl hf => ?_, fun b e hi a ha ho hp hfree => ?_, fun b e hi ho hst hact => ?_,
    fun ho hok hlast => ?_, fun ho hst hpass hok => ?_⟩
  · have hoff : CELL_TXDATA c.val % 0x1000 = 0x20 := by unfold CELL_TXDATA; omega
    have hout := (OutsideCells.setFifo s false c.val (fifoOf s false c.val ++ [BitVec.ofNat 33 v.toNat])).trans
      (.fifoMark _ c.val 1 0)
    refine ⟨_, writeRow_cell ho hm (by omega) (by rw [hoff]; exact cellWrite_txdata hcl hroom v) hsh
      ((hout.shdOn _).trans hsh) hout.ctxH hs, answered_resp _ _, ?_⟩
    exact (fifoOf_answered _ _ _ _).trans (fifoOf_setFifo_self s false c.val _)
  · have hoff : CELL_RXDATA c.val % 0x1000 = 0x24 := by unfold CELL_RXDATA; omega
    have hout := (OutsideCells.setFifo s true c.val r).trans (.fifoMark _ c.val 0 1)
    refine ⟨_, readRow_cell ho (by omega) (by rw [hoff]; exact cellRead_rxdata hcl hf) hsh hout hs, answered_resp _ _, ?_⟩
    exact (fifoOf_answered _ _ _ _).trans (fifoOf_setFifo_self s true c.val _)
  · subst ha
    obtain ⟨o, hbank, hlo, hhi, hal, hsel⟩ := cell_bank_offset c.val b e hi
    rw [hbank] at ho ⊢
    have href : ¬ (s.bt (CELL_STATUS c.val) 28 ∨
        cellState s c.val ≠ 0 ∧ o / 0x400 % 2 = (s.bt (CELL_STATUS c.val) 29).toNat) := by
      rw [hsel, hp]
      rcases hfree with hst | hb
      · simp [hst]
      · have hne : b.toNat ≠ (s.bt (CELL_STATUS c.val) 29).toNat := fun h =>
          hb ((Bool.ofNat_toNat b).symm.trans ((congrArg Bool.ofNat h).trans (Bool.ofNat_toNat _)))
        simp [hne]
    obtain ⟨t, hrow, hrd⟩ := bankWrite_accepted hs hm ho hlo hhi hsh hal href v
    exact ⟨t, (congrArg (writeRow s m · v) hbank).trans hrow, hrd⟩
  · obtain ⟨o, hbank, hlo, hhi, hal, hsel⟩ := cell_bank_offset c.val b e hi
    rw [hbank] at ho
    obtain ⟨t, hrow, hkept⟩ := bankWrite_refused hs hm ho hlo hhi (.inr ⟨hst, by rw [hsel, hact]⟩) v
    exact ⟨t, (congrArg (writeRow s m · v) hbank).trans hrow, hkept⟩
  · have hoff : CELL_FIFOCFG c.val % 0x1000 = 0x18 := by unfold CELL_FIFOCFG; omega
    have hout := OutsideCells.softWrite s v hc (o := 0x18) (by decide)
    refine ⟨_, writeRow_cell ho hm (by omega) (by rw [hoff]; exact cellWrite_fifocfg hok hlast) hsh
      ((hout.shdOn _).trans hsh) hout.ctxH hs, ?_⟩
    rw [State.fl, rd_answered_cell _ _ hc (o := 0x18) (by decide) (by decide)]
    exact fl_softWrite_self s (regDesc_cellReg hc (by decide)) (by decide) (by decide) v
  · have hoff : CELL_MODE c.val % 0x1000 = 0x08 := by unfold CELL_MODE; omega
    obtain ⟨hon, hctx, hrd⟩ := cellModeSet_spec hc hsh v
    have hdesc : regDesc (CELL_MODE c.val) = cellDesc 8 := regDesc_cellReg hc (by decide)
    have hfl (i j : Nat) : (answered (cellModeSet s c.val v) (.ok 0)).fl (CELL_MODE c.val) i j =
        (s.softWrite (CELL_MODE c.val) v).fl (CELL_MODE c.val) i j := by
      rw [State.fl, rd_answered_cell _ _ hc (o := 8) (by decide) (by decide), ← State.fl, State.fl, hrd, ← State.fl]
    refine ⟨_, writeRow_cell ho hm (by omega) (by rw [hoff]; exact cellWrite_mode hst hpass hok) hsh hon hctx hs,
      (hfl 1 0).trans ?_, (hfl 12 8).trans ?_⟩
    · exact fl_softWrite_self s hdesc (by decide) (by decide) v
    · exact fl_softWrite_self s hdesc (by decide) (by decide) v

end Sys2Proof.Machine

/-! SUPPORT. The sequencers in the cycle of a cell's tick or edge: the fetch of an entry and the line they show leave the frame that
each of them sends, so the end of the row finds none of them overdue. -/

namespace Sys2Proof.Machine

/-! ## What leaves the frames of the sequencers -/

/-- The time and the sequencers stay. -/
structure HxSame (s t : State) : Prop where
  cycles : t.cycles = s.cycles
  hxH : t.hxH = s.hxH

theorem HxSame.refl (s : State) : HxSame s s := ⟨rfl, rfl⟩

theorem HxSame.trans {s t u : State} (h : HxSame s t) (k : HxSame t u) : HxSame s u :=
  ⟨k.cycles.trans h.cycles, k.hxH.trans h.hxH⟩

theorem HxSame.wr (s : State) (a : Nat) (v : Word) : HxSame s (s.wr a v) := ⟨rfl, rfl⟩

theorem HxSame.setEcc (s : State) (a : Nat) (u : Upset) : HxSame s (s.setEcc a u) := ⟨rfl, rfl⟩

theorem HxSame.setByte (s : State) (a : Nat) (b : Byte) : HxSame s (s.setByte a b) := ⟨rfl, rfl⟩

theorem HxSame.define (s : State) (lo hi : Nat) : HxSame s (s.define lo hi) := ⟨rfl, rfl⟩

theorem HxSame.free (s : State) : HxSame s s.free.2 := ⟨rfl, rfl⟩

theorem HxSame.raise (s : State) (a : Nat) (v : Word) : HxSame s (s.raise a v) := .wr s _ _

theorem HxSame.setFl (s : State) (a hi lo v : Nat) : HxSame s (s.setFl a hi lo v) := .wr s _ _

theorem HxSame.setBytes (s : State) (a : Nat) (l : List Byte) : HxSame s (s.setBytes a l) := by
  induction l generalizing s a with
  | nil => exact .refl s
  | cons b l ih => exact (HxSame.setByte s a b).trans (ih (s.setByte a b) (a + 1))

theorem HxSame.logErr (s : State) (m a : Nat) (wr : Bool) (c : Nat) : HxSame s (logErr s m a wr c) := by
  have h := LogSame.logErr s m a wr c
  constructor <;> rw [h]

theorem HxSame.seenUpset (s : State) : HxSame s (seenUpset s).1 := by
  unfold Machine.seenUpset
  split
  · exact ⟨rfl, rfl⟩
  · exact ⟨rfl, rfl⟩

theorem HxSame.settleWord (s : State) (w : Nat) : HxSame s (s.settleWord w) := by
  unfold State.settleWord
  split
  · exact ((((HxSame.free s).trans (.free s.free.2)).trans (.define _ w (w + 8))).trans
      (.setBytes _ w (leBytes 4 s.free.1.toNat))).trans (.setBytes _ (w + 4) (leBytes 4 s.free.2.free.1.toNat))
  · exact .refl s

theorem HxSame.rawAcc (s : State) (a n : Nat) (x : Option Nat) : HxSame s (rawAcc s a n x).1 := by
  cases x with
  | none => exact .settleWord s _
  | some v => exact (HxSame.settleWord s (a / 8 * 8)).trans (.setBytes _ a (leBytes n v))

theorem HxSame.localAcc (s : State) (a n : Nat) (x : Option Nat) (u : Upset) : HxSame s (localAcc s a n x u).1 := by
  unfold Machine.localAcc
  split
  · exact ((HxSame.define s a (a + 8)).trans (.setEcc _ a .good)).trans (.setBytes _ a (leBytes 8 (x.getD 0)))
  · split
    · exact .setEcc s a .double
    · exact (HxSame.setEcc s a .good).trans (.rawAcc _ a n x)

theorem HxSame.scratchAcc (s : State) (e a n : Nat) (x : Option Nat) (u : Upset) : HxSame s (scratchAcc s e a n x u).1 := by
  have h := HxSame.localAcc s a n x u
  unfold Machine.scratchAcc
  split
  next heq => simpa only [heq] using h
  next heq => exact (by simpa only [heq] using h : HxSame s _).trans ((HxSame.wr _ _ _).trans (.wr _ _ _))
  next heq => exact (by simpa only [heq] using h : HxSame s _).trans ((HxSame.wr _ _ _).trans (.wr _ _ _))

theorem HxSame.ownerViolation (s : State) (m a : Nat) (wr : Bool) : HxSame s (ownerViolation s m a wr) := by
  unfold Machine.ownerViolation
  dsimp only
  split
  · exact .wr _ _ _
  · exact (HxSame.wr _ _ _).trans (.wr _ _ _)

theorem HxSame.memEccNote (s : State) (a : Nat) (u : Upset) : HxSame s (memEccNote s a u) := by
  cases u with
  | good => exact .refl s
  | single => exact ((HxSame.wr _ _ _).trans (.wr _ _ _)).trans (.setEcc _ _ _)
  | double =>
    unfold Machine.memEccNote
    dsimp only
    split
    · exact ((HxSame.wr _ _ _).trans (.wr _ _ _)).trans (.setEcc _ _ _)
    · exact ((((HxSame.wr _ _ _).trans (.wr _ _ _)).trans (.wr _ _ _)).trans (.wr _ _ _)).trans (.setEcc _ _ _)

theorem HxSame.sharedAcc (s : State) (m a n : Nat) (x : Option Nat) (u : Upset) : HxSame s (sharedAcc s m a n x u).1 := by
  unfold Machine.sharedAcc
  split
  · exact .ownerViolation s m a _
  · split
    · exact ((HxSame.define s a (a + 8)).trans (.setEcc _ a .good)).trans (.setBytes _ a (leBytes 8 (x.getD 0)))
    · split
      · exact .memEccNote s a .double
      · exact (HxSame.memEccNote s a _).trans (.rawAcc _ a n x)

theorem HxSame.memAcc (s : State) (m a n : Nat) (x : Option Nat) : HxSame s (memAcc s m a n x).1 := by
  have key (e : State × Upset) (he : HxSame s e.1) : HxSame s (match Machine.sharedAcc e.1 m a n x e.2 with
      | (s, .inl v) => (s, some v)
      | (s, .inr c) => (Machine.logErr s m a x.isSome c, none)).1 := by
    have h := he.trans (.sharedAcc e.1 m a n x e.2)
    generalize Machine.sharedAcc e.1 m a n x e.2 = r at h ⊢
    obtain ⟨t, v | c⟩ := r
    · exact h
    · exact h.trans (.logErr t m a x.isSome c)
  unfold Machine.memAcc
  split
  · exact .logErr s _ _ _ _
  · split_ifs
    · exact .logErr s _ _ _ _
    · exact .logErr s _ _ _ _
    · exact key (s, .good) (.refl s)
    · exact key (Machine.seenUpset s) (.seenUpset s)

theorem HxSame.hxAcc (s : State) (n a k : Nat) (x : Option Nat) : HxSame s (hxAcc s n a k x).1 := by
  have key (r : State × Option Nat) (e : Nat) : HxSame s r.1 → HxSame s (match r with
      | (s, none) => (Machine.logErr s (e + 1) a x.isSome 5, none)
      | r => r).1 := by
    intro h
    obtain ⟨t, _ | v⟩ := r
    · exact h.trans (.logErr t _ _ _ _)
    · exact h
  unfold Machine.hxAcc
  extract_lets e
  split_ifs
  · exact .logErr s _ _ _ _
  · exact key _ _ ((HxSame.seenUpset s).trans (.scratchAcc _ e a k x _))
  · exact .memAcc s _ _ _ _

/-- Accesses one after the other, up to the first that fails. -/
theorem HxSame.foldl_acc {acc : State → Nat → Nat → State × Option Nat} (hacc : ∀ t b i, HxSame t (acc t b i).1)
    (cs : List (Nat × Nat)) (s : State) (d : Option (List Byte)) : HxSame s (cs.foldl (fun r c =>
      match r with
      | (s, none) => (s, none)
      | (s, some l) =>
        match acc s c.1 c.2 with
        | (s, none) => (s, none)
        | (s, some v) => (s, some (l ++ leBytes c.2 v))) (s, d)).1 := by
  induction cs generalizing s d with
  | nil => exact .refl s
  | cons c cs ih =>
    cases d with
    | none => exact ih s none
    | some l =>
      have h := hacc s c.1 c.2
      simp only [List.foldl_cons]
      generalize acc s c.1 c.2 = r at h ⊢
      obtain ⟨t, _ | v⟩ := r
      · exact h.trans (ih t none)
      · exact h.trans (ih t (some (l ++ leBytes c.2 v)))

theorem HxSame.hxRead (s : State) (n a k : Nat) : HxSame s (hxRead s n a k).1 := by
  obtain ⟨acc, hacc⟩ : ∃ acc, acc = Machine.hxAcc := ⟨_, rfl⟩
  have hsame (t : State) (b i : Nat) : HxSame t (acc t n b i none).1 := by
    rw [hacc]
    exact .hxAcc t n b i none
  rw [Machine.hxRead, ← hacc]
  exact HxSame.foldl_acc hsame (chunks k a k) s (some [])

/-- The time stays, and the frame that each sequencer sends. -/
structure HxTxSame (s t : State) : Prop where
  cycles : t.cycles = s.cycles
  tx : ∀ n, (t.hx n).tx = (s.hx n).tx

theorem HxTxSame.refl (s : State) : HxTxSame s s := ⟨rfl, fun _ => rfl⟩

theorem HxTxSame.trans {s t u : State} (h : HxTxSame s t) (k : HxTxSame t u) : HxTxSame s u :=
  ⟨k.cycles.trans h.cycles, fun n => (k.tx n).trans (h.tx n)⟩

theorem HxSame.txSame {s t : State} (h : HxSame s t) : HxTxSame s t :=
  ⟨h.cycles, fun n => by simp only [State.hx, h.hxH]⟩

theorem HxTxSame.setHx {s : State} {n : Nat} {h : HxH} (ht : h.tx = (s.hx n).tx) : HxTxSame s (s.setHx n h) := by
  refine ⟨rfl, fun k => ?_⟩
  by_cases hk : k = n
  · rw [hk, hx_setHx_self, ht]
  · rw [hx_setHx_ne s h hk]

theorem HxTxSame.noOverdue {s t : State} (h : HxTxSame s t) (hs : noOverdueFrame s) : noOverdueFrame t := by
  intro n hn x hx
  rw [h.cycles]
  exact hs n hn x ((h.tx n).symm.trans hx)

/-! ## The steps of the sequencers -/

/-- A read, and what follows it where it succeeds and where it fails. -/
theorem HxTxSame.ofRead {s : State} {r : State × Option (List Byte)} {bad : State → State} {good : State → List Byte → State}
    (hb : ∀ t, HxTxSame s t → HxTxSame s (bad t)) (hg : ∀ t l, HxTxSame s t → HxTxSame s (good t l)) :
    HxTxSame s r.1 → HxTxSame s (match r with | (t, none) => bad t | (t, some l) => good t l) := by
  intro h
  obtain ⟨t, _ | l⟩ := r
  · exact hb t h
  · exact hg t l h

theorem HxTxSame.hxFetch (s : State) (n j : Nat) : HxTxSame s (hxFetch s n j) := by
  have hset (t : State) (p : HxPre) (h : HxTxSame s t) : HxTxSame s (t.setHx n { t.hx n with pre := some p }) :=
    h.trans (.setHx rfl)
  have hbad (t : State) (h : HxTxSame s t) :
      HxTxSame s (hxIrq (t.setHx n { t.hx n with pre := some { slot := j } }) n 0x80) :=
    (hset t _ h).trans (HxSame.raise _ _ _).txSame
  have hread (t : State) (a k : Nat) (h : HxTxSame s t) : HxTxSame s (Machine.hxRead t n a k).1 :=
    h.trans (HxSame.hxRead t n a k).txSame
  unfold Machine.hxFetch
  split
  · exact .setHx rfl
  · extract_lets bad
    refine .ofRead hbad (fun t l h => ?_) (hread _ _ _ (.refl s))
    extract_lets e a master b
    split
    · exact hset t _ h
    · refine .ofRead hbad (fun t2 ctl h2 => ?_) (hread _ _ _ h)
      exact .ofRead hbad (fun t3 d h3 => hset t3 _ h3) (hread _ _ _ h2)

theorem HxSame.setDrive (s : State) (c : Nat) (pinB d oe : Bool) : HxSame s (setDrive s c pinB d oe) :=
  (HxSame.wr s _ _).trans (.wr _ _ _)

theorem HxSame.hxShow (s : State) (n : Nat) : HxSame s (hxShow s n) := by
  unfold Machine.hxShow
  extract_lets d
  split
  · exact .refl s
  · extract_lets u
    split_ifs
    · exact .setDrive s _ _ _ _
    · exact (HxSame.setDrive s _ _ _ _).trans (.setDrive _ _ _ _ _)

theorem HxTxSame.hxFetchDue (s : State) (n : Nat) : HxTxSame s (hxFetchDue s n) := by
  unfold Machine.hxFetchDue
  split_ifs
  · exact .refl s
  · split
    · exact .refl s
    · extract_lets from_ held
      split_ifs
      · exact .refl s
      · exact .hxFetch s n _

theorem HxTxSame.hxMove (s : State) : HxTxSame s (hxMove s) :=
  List.foldlRecOn (motive := HxTxSame s) _ _ (.refl s) fun t h e _ =>
    h.trans ((HxTxSame.hxFetchDue t e.1).trans (HxSame.hxShow _ e.1).txSame)

/-- At the time of an event no frame is overdue: those that ended by then completed. -/
theorem elapse_noOverdue (s : State) (dt : Nat) : noOverdueFrame (elapse s dt) :=
  (HxTxSame.hxMove _).noOverdue (hxComplete_noOverdue _)

end Sys2Proof.Machine

/-! SUPPORT. Ticks and edges at a cell (R34, R35, R39, R48, R55, R69): the row of a tick on the divider's grid and off it, the tick of a
STOPPED cell, the tick of an entry that only sets pin A, and the capture of an edge. -/

namespace Sys2Proof.Machine

/-! ## The row of a tick -/

/-- The cell has sampled its pins in this cycle's tick (R34). -/
def sampled (s : State) (c : Nat) (pa pb : Bool) : State :=
  ((s.setCell c { s.cell c with ran := s.cycles + 1 }).setBt (CELL_PINS c) 0 pa).setBt (CELL_PINS c) 1 pb

theorem cellTickAt_eq (s : State) (c : Nat) (pa pb bad : Bool) : cellTickAt s c pa pb bad =
    if tickRuns s c && !startHolds s c then tickRun (sampled s c pa pb) c pa pb (bad && tickFetches s c)
    else (sampled s c pa pb, []) := rfl

/-- Off the grid nothing happens (R34). -/
theorem cellTickRow_off {s : State} {c : Nat} (h : onGrid s c = false) (la lb : Bool) (u : Upset) : cellTickRow s c la lb u = s := by
  simp only [cellTickRow, h, or_true, if_true]

/-- On the grid, with a good fetch: the tick, the pulses of the channels that it drives, and the shadow cell's tick. -/
theorem cellTickRow_on {s : State} {c : Nat} (hlive : cellLive s c = true) (h : onGrid s c = true) (la lb : Bool) :
    cellTickRow s c la lb .good =
      shadowTick s (pulsesCell (cellTickAt s c (la != pinInv s c false) (lb != pinInv s c true) false).1 (c / 16)
        (cellTickAt s c (la != pinInv s c false) (lb != pinInv s c true) false).2,
        (cellTickAt s c (la != pinInv s c false) (lb != pinInv s c true) false).2) c
        (la != pinInv s c false) (lb != pinInv s c true) := by
  have hgood : decide (Upset.good = Upset.double) = false := rfl
  have hecc (t : State) (i : Nat) : dgEcc t 5 i .good = t := rfl
  simp only [cellTickRow, hlive, h, sampleOf, hgood, hecc, ite_self, Bool.true_eq_false, or_self, if_false]

theorem shadowTick_none {s : State} {c : Nat} (h : shdOn s c = none) (r : State × List Nat) (pa pb : Bool) :
    shadowTick s r c pa pb = r.1 := by
  simp only [shadowTick, h]

theorem pulsesCell_nil (s : State) (g : Nat) : pulsesCell s g [] = s := ite_self s

/-- A tick that no shadow cell compares and that drives no channel. -/
theorem cellTickRow_alone {s t : State} {c : Nat} {la lb : Bool} (hlive : cellLive s c = true) (h : onGrid s c = true)
    (hsh : shdOn s c = none) (ht : cellTickAt s c (la != pinInv s c false) (lb != pinInv s c true) false = (t, [])) :
    cellTickRow s c la lb .good = t := by
  rw [cellTickRow_on hlive h, shadowTick_none hsh, ht, pulsesCell_nil]

/-! ## The tick of a STOPPED cell -/

theorem rd_sampled_ne (s : State) {c b : Nat} (pa pb : Bool) (h : b ≠ CELL_PINS c) : (sampled s c pa pb).rd b = s.rd b := by
  rw [sampled, rd_setBt_ne _ _ _ h, rd_setBt_ne _ _ _ h, rd_setCell]

theorem rd_sampled_pins (s : State) (c : Nat) (pa pb : Bool) :
    (sampled s c pa pb).rd (CELL_PINS c) = putBit (putBit (s.rd (CELL_PINS c)) 0 pa) 1 pb := by
  rw [sampled, rd_setBt_self, rd_setBt_self, rd_setCell]

theorem sampled_fifo (s : State) (c : Nat) (pa pb : Bool) : (sampled s c pa pb).fifo = s.fifo := by
  simp only [sampled, State.setBt, State.wr_fifo, State.setCell_fifo]

theorem sampled_undef (s : State) (c : Nat) (pa pb : Bool) : (sampled s c pa pb).undef = s.undef := by
  simp only [sampled, State.setBt, State.wr_undef, State.setCell_undef]

/-- A STOPPED cell that STEP has not released only samples (R34, R39). -/
theorem cellTickAt_stopped {s : State} {c : Nat} (hst : cellState s c = 0) (hstep : (s.cell c).step = false) (pa pb bad : Bool) :
    cellTickAt s c pa pb bad = (sampled s c pa pb, []) := by
  have hruns : tickRuns s c = false := by simp [tickRuns, hst, hstep]
  simp [cellTickAt_eq, hruns]

theorem rd_close_cell (s : State) {c o : Nat} (hc : c < 256) (ho : o < 0x1000) (h : o ≠ 0x54 ∧ o ≠ 0x5C) :
    (close s).rd (0x30000000 + c * 0x1000 + o) = s.rd (0x30000000 + c * 0x1000 + o) :=
  close_rd s (closeTouches_cellReg hc ho h)

/-! ## An entry that only sets pin A -/

/-- The entry that drives pin A high, holds for no cycle, and goes on to the next entry (R42, R48, Table 2.6). -/
def pinAEntry (target : Nat) (cpol : Bool) (imm : Nat) : Entry :=
  ⟨target, 0, cpol, 0, 0, false, false, false, 2, 0, 0, 0, 0, 0, 0, 0, 0, 0, imm⟩

section
variable (s : State) (c target : Nat) (cpol : Bool) (imm : Nat) (pa pb preA preB : Bool)

theorem phase3_pinA (hpass : inPass s c = false) : phase3 s c (pinAEntry target cpol imm) pa pb =
    (setDrive (setOd s c false false) c false true true, []) := by
  simp [phase3, pinAEntry, shopAct, fifoAct, ctAct, flagAct, chkAct, pinAct, hpass]

theorem phase4_pinA (step : Bool) : phase4 s c (pinAEntry target cpol imm) pa pb preA preB step =
    (s.setFl (CELL_STATUS c) 22 16 ((s.fl (CELL_STATUS c) 22 16 + 1) % 128)).setBt (CELL_STATUS c) 25 false := by
  simp [phase4, pinAEntry]

end

/-- The cell is RUNNING with no stall, pin A driven high by the entry's action, which holds for no further cycle. -/
def pinADriven (s : State) (c : Nat) : State :=
  (setDrive (setOd ((s.setFl (CELL_STATUS c) 31 30 1).setFl (CELL_STATUS c) 27 26 0) c false false) c false true true).setFl
    (CELL_STATUS c) 15 8 0

/-- The cell goes on to the next entry. -/
def pinARan (s : State) (c : Nat) : State :=
  ((pinADriven s c).setFl (CELL_STATUS c) 22 16 (((pinADriven s c).fl (CELL_STATUS c) 22 16 + 1) % 128)).setBt (CELL_STATUS c) 25 false

theorem firstTick_pinA {s : State} {c target imm : Nat} {cpol : Bool}
    (he : entryAt s c (s.fl (CELL_STATUS c) 29 29) (s.fl (CELL_STATUS c) 22 16) = pinAEntry target cpol imm)
    (hpass : inPass s c = false) (pa pb preA preB : Bool) :
    firstTick s c pa pb preA preB false = (pinARan s c, []) := by
  have hpass' : inPass ((s.setFl (CELL_STATUS c) 31 30 1).setFl (CELL_STATUS c) 27 26 0) c = false := by
    simpa [inPass, State.fl, rd_setFl_ne] using hpass
  have hcond : (pinAEntry target cpol imm).cond = 0 := rfl
  have hfifo : (pinAEntry target cpol imm).fifo = 0 := rfl
  have hdly : (pinAEntry target cpol imm).dly = 0 := rfl
  simp [firstTick, he, hcond, hfifo, hdly, phase3_pinA _ c target cpol imm pa pb hpass', phase4_pinA, pinARan, pinADriven]

theorem entryAt_congr {s t : State} {c : Nat} (hu : t.undef = s.undef) (hr : ∀ i, t.rd (CELL_BANK c i) = s.rd (CELL_BANK c i))
    (b e : Nat) : entryAt t c b e = entryAt s c b e := by
  have hundef (a : Nat) : undefAt t a = undefAt s a := by rw [undefAt, hu, undefAt]
  simp only [entryAt, bankRd, hundef, hr]

/-- What the tick of a RUNNING cell sees before its entry acts: only the samples of the tick before, and STEP, are replaced. -/
def tickBegun (s : State) (c : Nat) (pa pb : Bool) : State :=
  (s.setCell c { s.cell c with step := false }).setCell c
    { (s.setCell c { s.cell c with step := false }).cell c with prevA := pa, prevB := pb, fresh := false }

theorem rd_tickBegun (s : State) (c : Nat) (pa pb : Bool) (a : Nat) : (tickBegun s c pa pb).rd a = s.rd a := by
  rw [tickBegun, rd_setCell, rd_setCell]

theorem tickRun_pinA {s : State} {c target imm : Nat} {cpol : Bool} (hstep : (s.cell c).step = false) (hst : cellState s c = 1)
    (hrem : s.fl (CELL_STATUS c) 15 8 = 0) (hwait : s.bt (CELL_STATUS c) 25 = false) (hpass : inPass s c = false)
    (he : entryAt s c (s.fl (CELL_STATUS c) 29 29) (s.fl (CELL_STATUS c) 22 16) = pinAEntry target cpol imm) (pa pb : Bool) :
    tickRun s c pa pb false = (pinARan (tickBegun s c pa pb) c, []) := by
  have hfl (a hi lo : Nat) : (tickBegun s c pa pb).fl a hi lo = s.fl a hi lo := by rw [State.fl, rd_tickBegun, State.fl]
  have hbt (a i : Nat) : (tickBegun s c pa pb).bt a i = s.bt a i := by rw [State.bt, rd_tickBegun, State.bt]
  have hstate : cellState (tickBegun s c pa pb) c = 1 := (hfl _ _ _).trans hst
  have hentry : entryAt (tickBegun s c pa pb) c ((tickBegun s c pa pb).fl (CELL_STATUS c) 29 29)
      ((tickBegun s c pa pb).fl (CELL_STATUS c) 22 16) = pinAEntry target cpol imm := by
    rw [hfl, hfl]
    exact (entryAt_congr rfl (fun i => rd_tickBegun s c pa pb _) _ _).trans he
  have hinPass : inPass (tickBegun s c pa pb) c = false := by rw [inPass, hfl, ← inPass, hpass]
  have hbegun : (s.setCell c { s.cell c with step := false }).setCell c
    { (s.setCell c { s.cell c with step := false }).cell c with prevA := pa, prevB := pb, fresh := false } = tickBegun s c pa pb := rfl
  unfold tickRun tickBody
  simp only [hstep, Bool.false_eq_true, if_false, hbegun]
  simp [hstate, hfl, hbt, hrem, hwait, firstTick_pinA hentry hinPass]

/-- CELL_STATUS of the cell that ran the entry: RUNNING, no stall, no wait, at the next entry (R48). -/
def pinAStatus (w : Word) : Word :=
  let v := setFld (setFld (setFld w 31 30 1) 27 26 0) 15 8 0
  putBit (setFld v 22 16 ((fld v 22 16 + 1) % 128)) 25 false

theorem rd_pinARan_status (s : State) (c : Nat) : (pinARan s c).rd (CELL_STATUS c) = pinAStatus (s.rd (CELL_STATUS c)) := by
  simp [pinARan, pinADriven, pinAStatus, State.fl, setDrive, setOd, rd_setFl_self, rd_setBt_self, rd_setBt_ne]

theorem rd_pinARan_pins (s : State) (c : Nat) :
    (pinARan s c).rd (CELL_PINS c) = putBit (putBit (s.rd (CELL_PINS c)) 2 true) 4 true := by
  simp [pinARan, pinADriven, setDrive, setOd, dBit, oeBit, rd_setBt_self, rd_setBt_ne, rd_setFl_ne]

theorem pinAStatus_fields (w : Word) : fld (pinAStatus w) 31 30 = 1 ∧ fld (pinAStatus w) 22 16 = (fld w 22 16 + 1) % 128 := by
  simp [pinAStatus, fld_putBit_apart, fld_setFld_apart, fld_setFld_self]

/-- The tick of a RUNNING cell, no start held, at an entry that only sets pin A (R35, R48). -/
theorem cellTickAt_pinA {s : State} {c target imm : Nat} {cpol : Bool} (hhold : startHolds s c = false)
    (hstep : (s.cell c).step = false) (hcmd : (s.cell c).cmdAt ≤ s.cycles) (hst : cellState s c = 1)
    (hrem : s.fl (CELL_STATUS c) 15 8 = 0) (hwait : s.bt (CELL_STATUS c) 25 = false) (hpass : inPass s c = false)
    (he : entryAt s c (s.fl (CELL_STATUS c) 29 29) (s.fl (CELL_STATUS c) 22 16) = pinAEntry target cpol imm) (pa pb : Bool) :
    cellTickAt s c pa pb false = (pinARan (tickBegun (sampled s c pa pb) c pa pb) c, []) := by
  have hruns : tickRuns s c = true := by simp [tickRuns, hst, hcmd]
  have hstatus : (sampled s c pa pb).rd (CELL_STATUS c) = s.rd (CELL_STATUS c) := rd_sampled_ne s pa pb (by simp)
  have hmode : (sampled s c pa pb).rd (CELL_MODE c) = s.rd (CELL_MODE c) := rd_sampled_ne s pa pb (by simp)
  have hbank (i : Nat) : (sampled s c pa pb).rd (CELL_BANK c i) = s.rd (CELL_BANK c i) :=
    rd_sampled_ne s pa pb (by unfold CELL_BANK CELL_PINS; omega)
  have hstep' : ((sampled s c pa pb).cell c).step = false := by simpa [sampled, State.setBt] using hstep
  rw [cellTickAt_eq, hruns, hhold, Bool.false_and, Bool.not_false, Bool.and_true, if_pos rfl]
  refine tickRun_pinA (target := target) (cpol := cpol) (imm := imm) hstep' ?_ ?_ ?_ ?_ ?_ pa pb
  · exact (congrArg (fld · 31 30) hstatus).trans hst
  · exact (congrArg (fld · 15 8) hstatus).trans hrem
  · exact (congrArg (bitAt · 25) hstatus).trans hwait
  · exact (congrArg (fld · 1 0 != 0) hmode).trans hpass
  · rw [State.fl, State.fl, hstatus]
    exact (entryAt_congr (sampled_undef s c pa pb) hbank _ _).trans he

/-! ## The capture of an edge -/

theorem TB.after_sub_lt (x : TB) (sub : Nat) : (x.after sub).sub < 8 := by
  have hfrac : (x.after sub).frac < 2 ^ 32 := Nat.mod_lt _ (by decide)
  unfold TB.sub
  omega

/-- Setting VALID leaves the fields apart from it. -/
theorem fld_or_valid (w : Word) {hi lo : Nat} (h : hi < 7 ∨ 7 < lo) : fld (w ||| 0x80) hi lo = fld w hi lo := by
  refine fld_congr fun i hlo hhi => ?_
  have hbit : (0x80 : Word).getLsbD i = false := by
    have hne : (7 : Nat) ≠ i := by omega
    rw [show (0x80 : Word) = BitVec.twoPow 32 7 from rfl, BitVec.getLsbD_twoPow]
    simp [hne]
  rw [BitVec.getLsbD_or, hbit, Bool.or_false]

/-- The registers of a capture of pin A. -/
def capturedA (s : State) (c : Nat) (t : TB) (sub : Nat) : State :=
  (((s.wr (CELL_TSA_NS c) (BitVec.ofNat 32 t.ns)).setFl (CELL_TSA_SEC c) 31 16 t.sec).setFl (CELL_TSA_SEC c) 2 0 sub).raise
    (CELL_TSA_SEC c) 0x80

theorem capture_pinA {s : State} {c : Nat} (h : s.bt (CELL_TSA_SEC c) 7 = false) (t : TB) (sub : Nat) :
    capture s c false t sub = capturedA s c t sub := by
  simp [capture, capturedA, h]

theorem HxSame.capturedA (s : State) (c : Nat) (t : TB) (sub : Nat) : HxSame s (capturedA s c t sub) :=
  (((HxSame.wr s _ _).trans (.setFl _ _ _ _ _)).trans (.setFl _ _ _ _ _)).trans (.raise _ _ _)

theorem rd_capturedA_ns (s : State) (c : Nat) (t : TB) (sub : Nat) :
    (capturedA s c t sub).rd (CELL_TSA_NS c) = BitVec.ofNat 32 t.ns := by
  have hne : CELL_TSA_NS c ≠ CELL_TSA_SEC c := by simp
  rw [capturedA, rd_raise_ne _ _ hne, rd_setFl_ne _ _ _ _ hne, rd_setFl_ne _ _ _ _ hne, rd_wr_self]

theorem rd_capturedA_sec (s : State) (c : Nat) (t : TB) (sub : Nat) : (capturedA s c t sub).rd (CELL_TSA_SEC c) =
    setFld (setFld (s.rd (CELL_TSA_SEC c)) 31 16 t.sec) 2 0 sub ||| 0x80 := by
  have hne : CELL_TSA_SEC c ≠ CELL_TSA_NS c := by simp
  rw [capturedA, State.raise, rd_wr_self, rd_setFl_self, rd_setFl_self, rd_wr_ne _ _ hne]

/-- The end of a command at which no frame is overdue leaves every register but those of the forced test. -/
theorem rd_close_noOverdue {s : State} (h : noOverdueFrame s) {a : Nat} (ha : a ≠ MEM_FT_STAT ∧ a ≠ MEM_DG_IRQSTAT) :
    (close s).rd a = s.rd a := by
  have hsettle (t : State) : (settle t).rd a = t.rd a := by
    obtain ⟨o, ho⟩ := settle_eq t
    rw [ho]
    rfl
  have hundef (l : List (Nat × Nat)) : (l.foldl (fun (s : State) r => s.undefine r.1 r.2) s).rd a = s.rd a :=
    List.foldlRecOn (motive := fun t : State => t.rd a = s.rd a) l _ rfl fun t ht _ _ => ht
  rw [close, hsettle, hxComplete_of_noOverdue s h, ftCheck]
  split_ifs
  · dsimp only
    rw [rd_raise_ne _ _ ha.2, rd_setFl_ne _ _ _ _ ha.1, hundef]
  · rfl

/-- An edge of pin A that CELL_CAPCFG selects while VALID is 0 (R55). -/
theorem edgeCapture_selected {s : State} {c : Nat} (hlive : cellLive s c = true) (hsel : s.fl (CELL_CAPCFG c) 1 0 = 3)
    (hv : s.bt (CELL_TSA_SEC c) 7 = false) (la : Bool) (sub : Nat) :
    edgeCapture s c false la sub = capturedA s c ((s.tb 0).after sub) ((s.tb 0).after sub).sub := by
  simp [edgeCapture, hlive, hsel, capture_pinA hv]

/-! ## What the rows leave -/

section
variable (s : State) {c : Nat} (hc : c < 256) (pa pb : Bool)
include hc

theorem close_sampled : cellState (close (sampled s c pa pb)) c = cellState s c ∧ (close (sampled s c pa pb)).bt (CELL_PINS c) 0 = pa ∧
    (close (sampled s c pa pb)).bt (CELL_PINS c) 1 = pb ∧ (close (sampled s c pa pb)).fifo = s.fifo := by
  refine ⟨?_, ?_, ?_, (close_fifo _).trans (sampled_fifo s c pa pb)⟩
  · rw [cellState, State.fl, rd_close_cell _ hc (by decide) (by decide), rd_sampled_ne _ _ _ (by simp), cellState, State.fl]
  · rw [State.bt, rd_close_cell _ hc (by decide) (by decide), rd_sampled_pins, bitAt_putBit_ne _ _ _ _ (by decide) (by decide),
      bitAt_putBit_self _ _ _ (by decide)]
  · rw [State.bt, rd_close_cell _ hc (by decide) (by decide), rd_sampled_pins, bitAt_putBit_self _ _ _ (by decide)]

theorem close_pinARan {t : State} (ht : t = close (pinARan (tickBegun (sampled s c pa pb) c pa pb) c)) :
    t.bt (CELL_PINS c) 2 = true ∧ t.bt (CELL_PINS c) 4 = true ∧
      t.fl (CELL_STATUS c) 22 16 = (s.fl (CELL_STATUS c) 22 16 + 1) % 128 ∧ cellState t c = 1 := by
  have hpins : t.rd (CELL_PINS c) = putBit (putBit ((sampled s c pa pb).rd (CELL_PINS c)) 2 true) 4 true := by
    rw [ht, rd_close_cell _ hc (by decide) (by decide), rd_pinARan_pins, rd_tickBegun]
  have hstatus : t.rd (CELL_STATUS c) = pinAStatus (s.rd (CELL_STATUS c)) := by
    rw [ht, rd_close_cell _ hc (by decide) (by decide), rd_pinARan_status, rd_tickBegun, rd_sampled_ne _ _ _ (by simp)]
  obtain ⟨hstate, hnext⟩ := pinAStatus_fields (s.rd (CELL_STATUS c))
  simp only [cellState, State.fl, State.bt, hpins, hstatus]
  exact ⟨by rw [bitAt_putBit_ne _ _ _ _ (by decide) (by decide), bitAt_putBit_self _ _ _ (by decide)],
    bitAt_putBit_self _ _ _ (by decide), hnext, hstate⟩

theorem close_capturedA (h : noOverdueFrame s) (z : TB) {sub : Nat} (hsub : sub < 8) {t : State}
    (ht : t = close (capturedA s c z sub)) : t.rd (CELL_TSA_NS c) = BitVec.ofNat 32 z.ns ∧ t.bt (CELL_TSA_SEC c) 7 = true ∧
      t.fl (CELL_TSA_SEC c) 2 0 = sub ∧ t.fl (CELL_TSA_SEC c) 31 16 = z.sec % 2 ^ 16 := by
  have hclose {a : Nat} (ha : a ≠ MEM_FT_STAT ∧ a ≠ MEM_DG_IRQSTAT) : t.rd a = (capturedA s c z sub).rd a := by
    rw [ht, rd_close_noOverdue ((HxSame.capturedA s c z sub).txSame.noOverdue h) ha]
  have hsec : t.rd (CELL_TSA_SEC c) = setFld (setFld (s.rd (CELL_TSA_SEC c)) 31 16 z.sec) 2 0 sub ||| 0x80 := by
    rw [hclose (by unfold CELL_TSA_SEC MEM_FT_STAT MEM_DG_IRQSTAT; omega), rd_capturedA_sec]
  have hns : t.rd (CELL_TSA_NS c) = BitVec.ofNat 32 z.ns := by
    rw [hclose (by unfold CELL_TSA_NS MEM_FT_STAT MEM_DG_IRQSTAT; omega), rd_capturedA_ns]
  refine ⟨hns, ?_, ?_, ?_⟩
  · rw [State.bt, hsec, bitAt_or]
    exact Bool.or_true _
  · rw [State.fl, hsec, fld_or_valid _ (by decide), fld_setFld_self _ _ _ _ (by decide) (by decide)]
    exact Nat.mod_eq_of_lt hsub
  · rw [State.fl, hsec, fld_or_valid _ (by decide), fld_setFld_apart _ _ (by decide) (by decide) (by decide) (by decide),
      fld_setFld_self _ _ _ _ (by decide) (by decide)]

end

/-- Settles O35: the row of a tick on the grid and off it, the ticks of a STOPPED cell and of an entry that only sets pin A, the capture
of an edge, and the row of an edge at a direct source. -/
theorem cellEvents : Obligations.CellEvents := by
  intro s c la lb dt u hu hlive
  have hnone : noOverdueFrame u := by rw [hu]; exact elapse_noOverdue s dt
  have hrow (la lb : Bool) : exec (.cellTick c la lb dt .good) s = done (cellTickRow u c.val la lb .good) := by rw [hu]; rfl
  have hedge (sub : Fin 8) : exec (.edgeCapture c false la sub dt) s = done (edgeCapture u c.val false la sub.val) := by rw [hu]; rfl
  refine ⟨fun pa pb r hg hpa hpb hr => ?_, fun hg => ?_, fun hg hsh hst hstep => ?_,
    fun e he hg hsh hhold hstep hcmd hst hrem hwait hpass hent => ?_, fun sub z hz hsel hv => ?_, fun hlive => ⟨_, rfl, ?_⟩⟩
  · rw [hrow, cellTickRow_on hlive hg, hr, hpa, hpb, done]
  · rw [hrow, cellTickRow_off hg, done]
  · obtain ⟨hstate, hpa, hpb, hfifo⟩ := close_sampled u c.isLt (la != pinInv u c.val false) (lb != pinInv u c.val true)
    exact ⟨_, (hrow la lb).trans (congrArg done (cellTickRow_alone hlive hg hsh (cellTickAt_stopped hst hstep _ _ _))),
      hstate.trans hst, hpa, hpb, hfifo⟩
  · exact ⟨_, (hrow la lb).trans (congrArg done (cellTickRow_alone hlive hg hsh
      (cellTickAt_pinA hhold hstep hcmd hst hrem hwait hpass (he.symm.trans hent) _ _))), close_pinARan u c.isLt _ _ rfl⟩
  · refine ⟨_, (hedge sub).trans (congrArg done (edgeCapture_selected hlive hsel hv la sub.val)), ?_⟩
    rw [← hz]
    exact close_capturedA u c.isLt hnone z (hz ▸ TB.after_sub_lt _ _) rfl
  · refine congrArg done ?_
    rw [if_pos hlive]
    rfl

end Sys2Proof.Machine

/-! SUPPORT. Writes of the event fabric's registers (R71, R84, R101): the row of one that the fabric accepts. -/

namespace Sys2Proof.Machine

/-- Of the registers of the event fabric only the DMA routes are routes (Table 1.6). -/
theorem routed_evf {m : Master} {a : Nat} (h : 0x30200000 ≤ a ∧ a < 0x30210000) (hr : a < 0x30209000 ∨ a % 0x20 ≠ 0x18) (v : Word) :
    routed m a .evf v = v := by
  have hk : routeKind a = none := by
    unfold routeKind TU_IRQROUTE IMG_IRQROUTE LDR_IRQROUTE SW_IRQROUTE MEM_IRQROUTE MEM_DG_IRQROUTE ARB_IRQROUTE
      HB_IRQROUTE SLOT_IRQROUTE PMU_IRQROUTE AON_IRQROUTE
    simp (disch := omega) only [if_neg]
  simp [routed, hk]

/-- A write of the event fabric that no token masks is what the fabric makes of it. -/
theorem targetWrite_evf {s : State} {m a : Nat} (hm : maskedPair s m = false ∨ maskedTarget .evf (a % 0x10000) = false) (v : Word) :
    targetWrite s m a .evf v = evfWrite s (a % 0x10000) v := by
  rcases hm with hm | hm
  · simp only [targetWrite, hm, Bool.false_and, Bool.false_eq_true, if_false]
  · simp only [targetWrite, hm, Bool.and_false, Bool.false_eq_true, if_false]

/-- The row of a write that the fabric accepts: its effect, and the response. -/
theorem writeRow_evf {s u : State} {m : Master} {a : Nat} {v : Word} (h : opens s m a .evf)
    (hm : unmasked s m ∨ maskedTarget .evf (a % 0x10000) = false) (hr : a < 0x30209000 ∨ a % 0x20 ≠ 0x18)
    (hw : evfWrite s (a % 0x10000) v = accept u) (hctx : u.ctxH = s.ctxH) (hs : noSteps s) :
    writeRow s m a v = .next (answered u (.ok 0)) := by
  have hreg := h.2.1
  have hblk : 0x30200000 ≤ a ∧ a < 0x30210000 := by
    simp only [regionOf, ite_eq_iff, Option.some.injEq, reduceCtorEq, and_false, and_true, false_or, or_false] at hreg
    omega
  refine writeRow_accept h (.inl rfl) ?_ (by simpa only [noSteps, hctx] using hs)
  rw [routed_evf hblk hr, targetWrite_evf hm]
  exact hw

end Sys2Proof.Machine

/-! SUPPORT. Pulses and starts (R71, R72, R74, R100, R101, Table 3.4): an item planned twice stays one, what a start does to its group
and to a member, and what the capture ports leave of the crossings. -/

namespace Sys2Proof.Machine

/-! ## The agenda -/

theorem mem_insertDue_self (l : List Due) (d : Due) : d ∈ insertDue l d := by
  induction l with
  | nil => simp [insertDue]
  | cons e r ih =>
    rw [insertDue]
    split_ifs with he hlt
    · simp [he]
    · simp
    · simp [ih]

/-- An item that is there already stays one (R100). -/
theorem insertDue_insertDue (l : List Due) (d : Due) : insertDue (insertDue l d) d = insertDue l d := by
  induction l with
  | nil => simp [insertDue]
  | cons e r ih =>
    rw [insertDue]
    split_ifs with he hlt
    · simp [insertDue, he]
    · simp [insertDue]
    · simp [insertDue, he, hlt, ih]

theorem plan_plan (s : State) (t : Nat) (k : DueK) : (s.plan t k).plan t k = s.plan t k := by
  simp only [State.plan, insertDue_insertDue]

@[simp] theorem rd_plan (s : State) (t : Nat) (k : DueK) (a : Nat) : (s.plan t k).rd a = s.rd a := rfl

theorem plan_contains (s : State) (t : Nat) (k : DueK) : (s.plan t k).agenda.contains { at_ := t, what := k } = true :=
  List.contains_iff_mem.2 (mem_insertDue_self _ _)

/-! ## Pulses -/

/-- A pulse of one channel stands in the global stage of the next cycle, unless the fabric is in reset. -/
theorem pulsesNow_single (s : State) (ch : Nat) :
    pulsesNow s [ch] = if inReset s blkEvf then s else s.plan (s.cycles + 1) (.glob ch none) := rfl

/-- Two pulses of a channel in one cycle are one (R100). -/
theorem pulsesNow_twice (s : State) (ch : Nat) : pulsesNow (pulsesNow s [ch]) [ch] = pulsesNow s [ch] := by
  have hreset : inReset (s.plan (s.cycles + 1) (.glob ch none)) blkEvf = inReset s blkEvf := rfl
  rw [pulsesNow_single s]
  split_ifs with h
  · rw [pulsesNow_single, if_pos h]
  · rw [pulsesNow_single, hreset, if_neg h, State.plan_cycles, plan_plan]

theorem evfWrite_swpulse (s : State) (hi : Bool) (v : Word) :
    evfWrite s ((if hi then EVF_SWPULSE1 else EVF_SWPULSE0) % 0x10000) v =
      accept (pulsesNow s (bitsFrom v (if hi then 32 else 0))) := by
  cases hi with
  | false =>
    have ho : EVF_SWPULSE0 % 0x10000 = 0x100 := by decide
    simp [ho, evfWrite]
  | true =>
    have ho : EVF_SWPULSE1 % 0x10000 = 0x104 := by decide
    simp [ho, evfWrite]

theorem pulsesNow_ctxH (s : State) (chs : List Nat) : (pulsesNow s chs).ctxH = s.ctxH := by
  unfold pulsesNow pulsesAt
  split
  · rfl
  · exact List.foldlRecOn (motive := fun t : State => t.ctxH = s.ctxH) _ _ rfl fun t ht _ _ => ht

/-! ## Starts of groups -/

theorem groupStart_planned {s : State} {g : Nat} (h : s.agenda.contains { at_ := s.cycles + 1, what := .members g } = true) :
    groupStart s g = s := by
  rw [groupStart, if_pos h]

theorem groupStart_first {s : State} {g : Nat} (h : s.agenda.contains { at_ := s.cycles + 1, what := .members g } = false) :
    groupStart s g = (s.wrapInc (EVF_SGCNT g) 15 0).plan (s.cycles + 1) (.members g) := by
  rw [groupStart, h, if_neg Bool.false_ne_true]

/-- All the starts of a group in one cycle are one (R72). -/
theorem groupStart_twice (s : State) (g : Nat) : groupStart (groupStart s g) g = groupStart s g := by
  cases h : s.agenda.contains { at_ := s.cycles + 1, what := .members g } with
  | true => rw [groupStart_planned h, groupStart_planned h]
  | false =>
    rw [groupStart_first h]
    exact groupStart_planned (plan_contains _ _ _)

theorem evfWrite_sgcmd (s : State) (v : Word) : evfWrite s (EVF_SGCMD % 0x10000) v = accept (startGroups s (bitsFrom v 0)) := by
  have ho : EVF_SGCMD % 0x10000 = 0x8080 := by decide
  simp [ho, evfWrite]

/-- The first start of a group in a cycle is counted. -/
theorem groupStart_counts {s : State} {g : Nat} (h : s.agenda.contains { at_ := s.cycles + 1, what := .members g } = false) :
    (groupStart s g).fl (EVF_SGCNT g) 15 0 = (s.fl (EVF_SGCNT g) 15 0 + 1) % 2 ^ 16 := by
  rw [groupStart_first h]
  exact fl_setFl_self s _ 15 0 _ (by decide) (by decide)

theorem startGroups_ctxH (s : State) (l : List Nat) : (startGroups s l).ctxH = s.ctxH := by
  refine List.foldlRecOn (motive := fun t : State => t.ctxH = s.ctxH) _ _ rfl fun t ht g _ => ?_
  cases h : t.agenda.contains { at_ := t.cycles + 1, what := .members g } with
  | true => rw [groupStart_planned h, ht]
  | false =>
    rw [groupStart_first h, ← ht]
    rfl

/-! ## The start of a member -/

/-- RESTART of a cell changes the hidden state of no other. -/
theorem cell_restartCell_ne (s : State) {c d : Nat} (idx : Nat) (h : d ≠ c) : (restartCell s c idx).cell d = s.cell d := by
  simp only [restartCell, cell_wr, cell_chkInit, cell_setFl, cell_setCell_ne _ _ h]

theorem restartCell_cycles (s : State) (c idx : Nat) : (restartCell s c idx).cycles = s.cycles := by
  simp only [restartCell, chkInit, State.setFl, State.wr_cycles, State.setCell_cycles]

@[simp] theorem rd_dividerRestart (s : State) (c a : Nat) : (dividerRestart s c).rd a = s.rd a := rfl

/-- A member in start mode, at which no command completes, restarts at its IDX, latches the start and restarts its divider. -/
theorem startMember_restarts {s : State} {c : Nat} (hlive : cellLive s c = true) (hcmd : (s.cell c).cmdAt ≤ s.cycles)
    (hmode : s.bt (CELL_SGRP c) 9 = false) : startMember s c =
      dividerRestart ((restartCell s c (s.fl (CELL_SGRP c) 22 16)).setCell c
        { (restartCell s c (s.fl (CELL_SGRP c) 22 16)).cell c with sgs := true }) c := by
  have hmode' : bitAt (s.rd (CELL_SGRP c)) 9 = false := hmode
  rw [startMember, if_neg (by simp [hlive, Nat.not_lt.2 hcmd])]
  simp only [hmode', Bool.false_eq_true, if_false]
  rfl

/-- STATUS of a restarted cell: RUNNING at the entry of the index. -/
theorem Restarted.fields {s t : State} {c idx : Nat} (h : Restarted s t c idx) (hidx : idx < 2 ^ 7) :
    cellState t c = 1 ∧ t.fl (CELL_STATUS c) 22 16 = idx := by
  simpa [cellState, State.fl, h.status, fld_setFld_apart, fld_setFld_self] using hidx

/-! ## A pulse in the global stage -/

theorem rd_tuCapture {s : State} {i a : Nat} (sub : Nat) (hi : i < 8) (h : a < 0x32000400 ∨ 0x32000490 ≤ a) :
    (tuCapture s i sub).rd a = s.rd a := by
  have hns : a ≠ TU_CAP_NS i := by unfold TU_CAP_NS; omega
  have hsec : a ≠ TU_CAP_SEC i := by unfold TU_CAP_SEC; omega
  unfold tuCapture
  split_ifs
  · rfl
  · exact rd_raise_ne s _ hsec
  · rw [rd_wr_ne _ _ hsec, rd_wr_ne _ _ hns]

/-- A pulse at the capture ports changes no register but theirs (R179). -/
theorem rd_tuListen (s : State) (ch : Nat) {a : Nat} (h : a < 0x32000400 ∨ 0x32000490 ≤ a) : (tuListen s ch).rd a = s.rd a := by
  refine List.foldlRecOn (motive := fun t : State => t.rd a = s.rd a) _ _ rfl fun t ht i hi => ?_
  split_ifs
  · exact (rd_tuCapture 0 (List.mem_range.1 hi) h).trans ht
  · exact ht

/-- Which controllers listen on a channel depends on their EVCFG. -/
theorem cansOn_congr {s t : State} (h : ∀ n < 32, t.rd (CAN_EVCFG n) = s.rd (CAN_EVCFG n)) (ch : Nat) : cansOn t ch = cansOn s ch :=
  List.filter_congr fun n hn => by simp only [State.bt, State.fl, h n (List.mem_range.1 hn)]

/-- Which converters listen on a channel depends on their EVCFG. -/
theorem adcsOn_congr {s t : State} (h : ∀ x < 2, t.rd (PMU_ADC_EVCFG x) = s.rd (PMU_ADC_EVCFG x)) (ch : Nat) :
    adcsOn t ch = adcsOn s ch :=
  List.filter_congr fun x hx => by
    have hx2 : x < 2 := by simp only [List.mem_cons, List.not_mem_nil, or_false] at hx; omega
    simp only [State.bt, State.fl, h x hx2]

/-- A pulse to which no controller and no converter listens is counted and captured. -/
theorem fabGlobal_uncrossed {s : State} {ch : Nat} (hch : ch < 64) (hcan : cansOn s ch = []) (hadc : adcsOn s ch = []) :
    fabGlobal s ch = tuListen (s.wrapInc (EVF_CHCNT ch) 15 0) ch := by
  have hrd {a : Nat} (h : 0x30201000 ≤ a) (hcap : a < 0x32000400 ∨ 0x32000490 ≤ a) :
      (tuListen (s.wrapInc (EVF_CHCNT ch) 15 0) ch).rd a = s.rd a := by
    rw [rd_tuListen _ _ hcap, rd_wrapInc_ne _ _ _ _ (by unfold EVF_CHCNT; omega)]
  have hcan' := (cansOn_congr (fun n hn => hrd (by unfold CAN_EVCFG; omega) (.inl (by unfold CAN_EVCFG; omega))) ch).trans hcan
  have hadc' := (adcsOn_congr (fun x hx => hrd (by unfold PMU_ADC_EVCFG; omega) (.inr (by unfold PMU_ADC_EVCFG; omega))) ch).trans hadc
  simp only [fabGlobal, hcan', hadc', List.foldl_nil]

/-- Settles O36: the two rows by what the fabric makes of the write, the start of a group and the pulse of a channel because an item
planned twice is one, and the start of a member as a RESTART. -/
theorem pulsesAndStarts : Obligations.PulsesAndStarts := by
  refine ⟨fun s m hi v hm hs ho => ?_, fun s m v hm hs ho => ?_, fun s g => ⟨groupStart_twice s g.val, groupStart_counts⟩,
    fun s c t hlive hcmd hmode ht => ?_, fun s ch => ⟨pulsesNow_twice s ch.val, fun hcan hadc => ?_⟩⟩
  · exact writeRow_evf ho (.inl hm) (.inl (by cases hi <;> decide)) (evfWrite_swpulse s hi v) (pulsesNow_ctxH _ _) hs
  · exact writeRow_evf ho (.inl hm) (.inl (by decide)) (evfWrite_sgcmd s v) (startGroups_ctxH _ _) hs
  · have hr := restarted_restartCell s c.isLt (s.fl (CELL_SGRP c.val) 22 16)
    have hother {d : Nat} (hd : d ≠ c.val) := cell_restartCell_ne s (s.fl (CELL_SGRP c.val) 22 16) hd
    have hcycles := restartCell_cycles s c.val (s.fl (CELL_SGRP c.val) 22 16)
    rw [startMember_restarts hlive hcmd hmode] at ht
    generalize restartCell s c.val (s.fl (CELL_SGRP c.val) 22 16) = u at *
    obtain ⟨hstate, hidx⟩ := hr.fields (fld_lt _ 22 16)
    have hrd (a : Nat) : t.rd a = u.rd a := by rw [ht, rd_dividerRestart, rd_setCell]
    refine ⟨by rw [cellState, State.fl, hrd, ← State.fl, ← cellState, hstate], by rw [State.fl, hrd, ← State.fl, hidx], ?_⟩
    subst ht
    refine ⟨by simp [dividerRestart], by simp [dividerRestart], by simp [dividerRestart, hcycles], fun d hd => ?_⟩
    rw [dividerRestart, cell_setCell_ne _ _ hd, cell_setCell_ne _ _ hd, hother hd]
  · exact ⟨_, fabGlobal_uncrossed ch.isLt hcan hadc, fl_setFl_self s _ 15 0 _ (by decide) (by decide),
      fun a ha => rd_wrapInc_ne s _ _ _ ha⟩

end Sys2Proof.Machine

/-! SUPPORT. The registers of a DMA channel (R84): the writes of CFG and LEN that the channel accepts, and what they leave. -/

namespace Sys2Proof.Machine

/-! ## Where the registers of a channel stand -/

/-- A write in the register block of channel `i` reaches the channel, whether or not the master holds the token (R345). -/
theorem evfWrite_dma (s : State) {a i o : Nat} (ha : a = EVF_DMA_CFG i + o) (hi : i < 32) (ho : o < 0x20) (v : Word) :
    maskedTarget .evf (a % 0x10000) = false ∧ evfWrite s (a % 0x10000) v = dmaWrite s i o v := by
  have hoff : a % 0x10000 = 0x9000 + i * 0x20 + o := by unfold EVF_DMA_CFG at ha; omega
  have hchan : (0x9000 + i * 0x20 + o - 0x9000) / 0x20 = i := by omega
  have hreg : (0x9000 + i * 0x20 + o) % 0x20 = o := by omega
  rw [hoff]
  constructor
  · simp only [maskedTarget, Bool.or_eq_false_iff, Bool.and_eq_false_iff, beq_eq_false_iff_ne, decide_eq_false_iff_not]
    omega
  · simp (disch := omega) only [evfWrite, if_neg, if_pos, hchan, hreg]

/-- The row of a write that a DMA channel accepts: its effect, and the response. -/
theorem writeRow_dma {s u : State} {m : Master} {a i o : Nat} {v : Word} (h : opens s m a .evf) (ha : a = EVF_DMA_CFG i + o)
    (hi : i < 32) (ho : o < 0x18) (hw : dmaWrite s i o v = accept u) (hctx : u.ctxH = s.ctxH) (hs : noSteps s) :
    writeRow s m a v = .next (answered u (.ok 0)) := by
  obtain ⟨hmask, heff⟩ := evfWrite_dma s ha hi (by omega) v
  exact writeRow_evf h (.inr hmask) (.inr (by unfold EVF_DMA_CFG at ha; omega)) (heff.trans hw) hctx hs

/-- The end of a command leaves the registers of the DMA channels. -/
theorem rd_answered_dma (u : State) (r : Resp) {a : Nat} (h : 0x30209000 ≤ a ∧ a < 0x30209400) : (answered u r).rd a = u.rd a :=
  rd_answered u r (closeTouches_eq_false (by omega) (.inl (by omega)))

theorem regDesc_dmaCfg {i : Nat} (h : i < 32) : regDesc (EVF_DMA_CFG i) = some ⟨0xE0FF1FFF, 0, 0, 0, 0, 0⟩ := by
  simp (disch := omega) only [regDesc, evfDesc, EVF_DMA_CFG, if_neg, if_pos]

theorem regDesc_dmaLen {i : Nat} (h : i < 32) : regDesc (EVF_DMA_LEN i) = some ⟨0xFFFF, 0, 0, 0, 0, 0⟩ := by
  simp (disch := omega) only [regDesc, evfDesc, EVF_DMA_LEN, if_neg, if_pos]

/-! ## The channel's rules -/

/-- A bit is the field of width one. -/
theorem bitAt_eq_fld (w : Word) (i : Nat) : bitAt w i = (fld w i i == 1) := by
  simp only [bitAt, fld, Nat.add_sub_cancel_left, pow_one]

/-- The checks of an enable refuse MODE 3 (R84). -/
theorem mode_of_enableOk {s : State} {i : Nat} {v : Word} (h : dmaBadEnable s i v = false) : fld v 30 29 ≠ 3 := by
  intro h3
  simp [dmaBadEnable, h3] at h

/-- A write that sets EN of a channel that is off, and passes its checks, is a plain one. -/
theorem dmaWrite_enable {s : State} {i : Nat} {v : Word} (hoff : s.bt (EVF_DMA_CFG i) 31 = false)
    (hok : dmaBadEnable s i v = false) : dmaWrite s i 0 v = accept (s.softWrite (EVF_DMA_CFG i) v) := by
  simp [dmaWrite, hoff, hok, mode_of_enableOk hok]

/-- A write that clears EN of a channel that is on drops the words it has collected. -/
theorem dmaWrite_disable {s : State} {i : Nat} {v : Word} (hon : s.bt (EVF_DMA_CFG i) 31 = true) (hen : bitAt v 31 = false)
    (hmode : fld v 30 29 ≠ 3) : dmaWrite s i 0 v = accept ((s.softWrite (EVF_DMA_CFG i) v).setDma i {}) := by
  simp [dmaWrite, hon, hen, hmode]

/-- A write of LEN of a channel that is off clears both pointers. -/
theorem dmaWrite_len {s : State} {i : Nat} (hoff : s.bt (EVF_DMA_CFG i) 31 = false) (v : Word) : dmaWrite s i 8 v =
    accept (((s.softWrite (EVF_DMA_LEN i) v).wr (EVF_DMA_HWPTR i) 0).wr (EVF_DMA_SWPTR i) 0) := by
  have ha : EVF_DMA_CFG i + 8 = EVF_DMA_LEN i := by unfold EVF_DMA_CFG EVF_DMA_LEN; omega
  simp [dmaWrite, hoff, ha]

/-! ## What the rows leave -/

/-- CFG takes EN, MODE and CELL as written. -/
theorem softWrite_dmaCfg (s : State) {i : Nat} (hi : i < 32) (v : Word) :
    (s.softWrite (EVF_DMA_CFG i) v).bt (EVF_DMA_CFG i) 31 = bitAt v 31 ∧
      (s.softWrite (EVF_DMA_CFG i) v).fl (EVF_DMA_CFG i) 30 29 = fld v 30 29 ∧
      (s.softWrite (EVF_DMA_CFG i) v).fl (EVF_DMA_CFG i) 23 16 = fld v 23 16 := by
  have hdesc := regDesc_dmaCfg hi
  have hen := fl_softWrite_self s (hi := 31) (lo := 31) hdesc (by decide) (by decide) v
  refine ⟨?_, fl_softWrite_self s hdesc (by decide) (by decide) v, fl_softWrite_self s hdesc (by decide) (by decide) v⟩
  rw [State.bt, bitAt_eq_fld, ← State.fl, hen, bitAt_eq_fld]

@[simp] theorem rd_setDma (s : State) (i a : Nat) (h : DmaH) : (s.setDma i h).rd a = s.rd a := rfl

theorem dma_answered_setDma (s : State) (i : Nat) (h : DmaH) (r : Resp) : (answered (s.setDma i h) r).dma i = h := by
  simp [State.dma, answered, State.setDma]

section
variable {s : State} {m : Master} {ch : Fin 32} (hs : noSteps s)
include hs

/-- DMA_ENABLE of a channel that is off, where the checks pass. -/
theorem dmaEnable_enables (h : opens s m (EVF_DMA_CFG ch.val) .evf) (hoff : s.bt (EVF_DMA_CFG ch.val) 31 = false) {v : Word}
    (hok : dmaBadEnable s ch.val (putBit v 31 true) = false) : ∃ t, exec (.dmaEnable m ch v) s = .next t ∧
      t.bt (EVF_DMA_CFG ch.val) 31 = true ∧ t.fl (EVF_DMA_CFG ch.val) 30 29 = fld v 30 29 ∧
      t.fl (EVF_DMA_CFG ch.val) 23 16 = fld v 23 16 := by
  obtain ⟨hen, hmode, hcell⟩ := softWrite_dmaCfg s ch.isLt (putBit v 31 true)
  rw [bitAt_putBit_self _ _ _ (by decide)] at hen
  rw [fld_putBit_apart _ _ (by decide) (by decide) (by decide)] at hmode hcell
  refine ⟨_, writeRow_dma h (o := 0) rfl ch.isLt (by decide) (dmaWrite_enable hoff hok) (softWrite_ctxH _ _ _) hs, ?_⟩
  simp only [State.bt, State.fl, rd_answered_dma _ _ (show 0x30209000 ≤ EVF_DMA_CFG ch.val ∧ EVF_DMA_CFG ch.val < 0x30209400 by
    unfold EVF_DMA_CFG; omega)] at hen hmode hcell ⊢
  exact ⟨hen, hmode, hcell⟩

/-- DMA_DISABLE of a channel that is on. -/
theorem dmaDisable_disables (h : opens s m (EVF_DMA_CFG ch.val) .evf) (hon : s.bt (EVF_DMA_CFG ch.val) 31 = true) {v : Word}
    (hmode : fld v 30 29 ≠ 3) : ∃ t, exec (.dmaDisable m ch v) s = .next t ∧ t.bt (EVF_DMA_CFG ch.val) 31 = false ∧
      (t.dma ch.val).words = [] := by
  have hbit : bitAt (putBit v 31 false) 31 = false := bitAt_putBit_self _ _ _ (by decide)
  have hmode' : fld (putBit v 31 false) 30 29 ≠ 3 := by rwa [fld_putBit_apart _ _ (by decide) (by decide) (by decide)]
  obtain ⟨hen, -, -⟩ := softWrite_dmaCfg s ch.isLt (putBit v 31 false)
  refine ⟨_, writeRow_dma h (o := 0) rfl ch.isLt (by decide) (dmaWrite_disable hon hbit hmode') (softWrite_ctxH _ _ _) hs, ?_, ?_⟩
  · rw [State.bt, rd_answered_dma _ _ (by unfold EVF_DMA_CFG; omega), rd_setDma, ← State.bt, hen, hbit]
  · rw [dma_answered_setDma]

/-- DMA_LEN_WRITE of a channel that is off. -/
theorem dmaLenWrite_clears (h : opens s m (EVF_DMA_LEN ch.val) .evf) (hoff : s.bt (EVF_DMA_CFG ch.val) 31 = false) (v : Word) :
    ∃ t, exec (.dmaLenWrite m ch v) s = .next t ∧ t.fl (EVF_DMA_LEN ch.val) 15 0 = fld v 15 0 ∧
      t.rd (EVF_DMA_HWPTR ch.val) = 0 ∧ t.rd (EVF_DMA_SWPTR ch.val) = 0 := by
  have hlen := fl_softWrite_self s (hi := 15) (lo := 0) (regDesc_dmaLen ch.isLt) (by decide) (by decide) v
  refine ⟨_, writeRow_dma h (o := 8) (by unfold EVF_DMA_LEN EVF_DMA_CFG; omega) ch.isLt (by decide) (dmaWrite_len hoff v)
    (softWrite_ctxH _ _ _) hs, ?_, ?_, ?_⟩
  · rw [State.fl, rd_answered_dma _ _ (by unfold EVF_DMA_LEN; omega),
      rd_wr_ne _ _ (by unfold EVF_DMA_LEN EVF_DMA_SWPTR; omega), rd_wr_ne _ _ (by unfold EVF_DMA_LEN EVF_DMA_HWPTR; omega),
      ← State.fl, hlen]
  · rw [rd_answered_dma _ _ (by unfold EVF_DMA_HWPTR; omega), rd_wr_ne _ _ (by unfold EVF_DMA_HWPTR EVF_DMA_SWPTR; omega),
      rd_wr_self]
  · rw [rd_answered_dma _ _ (by unfold EVF_DMA_SWPTR; omega), rd_wr_self]

end

end Sys2Proof.Machine

/-! SUPPORT. A record of an RX ring (R82, R85): what its write leaves of the memory and of the rest of the part. -/

namespace Sys2Proof.Machine

/-! ## The bytes of a record -/

@[simp] theorem length_leBytes (n v : Nat) : (leBytes n v).length = n := by
  induction n generalizing v with
  | zero => rfl
  | succ n ih => simp [leBytes, ih]

/-- Byte `j` of a value, the lowest first (R12). -/
theorem getElem_leBytes {n j : Nat} (v : Nat) (h : j < (leBytes n v).length) : (leBytes n v)[j] = BitVec.ofNat 8 (v / 256 ^ j) := by
  induction n generalizing v j with
  | zero => simp [leBytes] at h
  | succ n ih =>
    cases j with
    | zero => simp [leBytes]
    | succ j =>
      simp only [leBytes, List.getElem_cons_succ]
      rw [ih, Nat.div_div_eq_div_mul, pow_succ']

/-- The word of 64 bits at `a` written: defined, its check bits good (R315). -/
def dwordPut (s : State) (a v : Nat) : State := ((s.define a (a + 8)).setEcc a .good).setBytes a (leBytes 8 v)

theorem byte_dwordPut_in (s : State) (a v : Nat) {j : Nat} (h : j < 8) : (dwordPut s a v).byte (a + j) = BitVec.ofNat 8 (v / 256 ^ j) := by
  rw [dwordPut, byte_setBytes_in _ _ _ _ (by simpa using h), getElem_leBytes]

theorem byte_dwordPut_out (s : State) (a v : Nat) {b : Nat} (h : b < a ∨ a + 8 ≤ b) : (dwordPut s a v).byte b = s.byte b := by
  rw [dwordPut, byte_setBytes_out _ _ _ _ (by simpa using h)]
  rfl

/-- A data mover or core that owns the bank writes a whole word without a check (R315, R317). -/
theorem memAcc_dword {s : State} {m a : Nat} (hadm : admits m .shared = true) (hlo : 0x20000000 ≤ a) (hhi : a + 8 ≤ 0x21000000)
    (hown : owns s m (bankOf a) = true) (v : Nat) : memAcc s m a 8 (some v) = (dwordPut s a v, some 0) := by
  have hreg : regionOf a = some .shared := by simp (disch := omega) only [regionOf, if_neg, if_pos]
  simp [memAcc, hreg, hadm, sharedAcc, hown, dwordPut]

/-! ## What moving a record leaves -/

/-- `t` is `s` but for memory, its check bits, the FIFOs, the hidden state of the cells, the rotation of the DMA channels, and the
registers of the channels. -/
structure DmaSame (s t : State) : Prop where
  eq : t = { s with regs := t.regs, mem := t.mem, ecc := t.ecc, undef := t.undef, fifo := t.fifo, cellH := t.cellH,
                    dmaLast := t.dmaLast, dmaAt := t.dmaAt }
  rd : ∀ a, a < 0x30209000 ∨ 0x30209400 ≤ a → t.rd a = s.rd a

theorem DmaSame.refl (s : State) : DmaSame s s := ⟨rfl, fun _ _ => rfl⟩

theorem DmaSame.trans {s t u : State} (h : DmaSame s t) (k : DmaSame t u) : DmaSame s u :=
  ⟨by rw [k.eq, h.eq], fun a ha => (k.rd a ha).trans (h.rd a ha)⟩

/-- A register of a channel is written. -/
theorem DmaSame.wr (s : State) {a : Nat} (v : Word) (h : 0x30209000 ≤ a ∧ a < 0x30209400) : DmaSame s (s.wr a v) :=
  ⟨rfl, fun _ _ => rd_wr_ne s v (by omega)⟩

theorem DmaSame.setBytes (s : State) (a : Nat) (l : List Byte) : DmaSame s (s.setBytes a l) := by
  induction l generalizing s a with
  | nil => exact .refl s
  | cons b l ih => exact (show DmaSame s (s.setByte a b) from ⟨rfl, fun _ _ => rfl⟩).trans (ih _ _)

theorem DmaSame.dwordPut (s : State) (a v : Nat) : DmaSame s (dwordPut s a v) :=
  (show DmaSame s ((s.define a (a + 8)).setEcc a .good) from ⟨rfl, fun _ _ => rfl⟩).trans (.setBytes _ _ _)

theorem DmaSame.setFifo (s : State) (rx : Bool) (c : Nat) (l : List (BitVec 33)) : DmaSame s (setFifo s rx c l) :=
  ⟨rfl, fun _ _ => rfl⟩

theorem DmaSame.fifoMark (s : State) (c i o : Nat) : DmaSame s (fifoMark s c i o) := ⟨rfl, fun _ _ => rfl⟩

theorem DmaSame.shdOn {s t : State} (h : DmaSame s t) (c : Nat) (hc : c < 256) : shdOn t c = shdOn s c := by
  have hrd : t.rd (EVF_SHD_STATUS (c / 16)) = s.rd (EVF_SHD_STATUS (c / 16)) := h.rd _ (.inl (by unfold EVF_SHD_STATUS; omega))
  have hshd : t.shdH = s.shdH := by rw [h.eq]
  unfold Machine.shdOn shdState shdCur State.shd State.fl
  rw [hrd, hshd]

/-- Moving a record takes no block out of reset, and starts no forced test (R447). -/
theorem DmaSame.testHeld {s t : State} (h : DmaSame s t) (hs : testHeld s) : testHeld t := by
  have hrd {a : Nat} (ha : 0x30209400 ≤ a) : t.rd a = s.rd a := h.rd a (.inr ha)
  have hreset (k : Nat) : inReset t k = inReset s k :=
    inReset_congr (by rw [h.eq]) (by rw [h.eq]) (by rw [h.eq]) (by rw [h.eq]) (by rw [h.eq]) (hrd (by decide)) (hrd (by decide))
      (hrd (by decide)) (hrd (by decide)) k
  simpa only [Machine.testHeld, ftRuns, State.fl, hrd (a := MEM_FT_STAT) (by decide), hreset] using hs

/-! ## The pointer -/

/-- HWPTR one record on, around the ring (R82). -/
def hwptrStep (s : State) (i : Nat) : State :=
  s.setFl (EVF_DMA_HWPTR i) 15 0 ((s.fl (EVF_DMA_HWPTR i) 15 0 + 1) % dmaLen s i)

/-- The advance of a channel steps its pointer, and may set THR. -/
theorem dmaAdvance_cases (s : State) (i : Nat) (tx : Bool) :
    dmaAdvance s i tx = hwptrStep s i ∨ dmaAdvance s i tx = (hwptrStep s i).raise (EVF_DMA_STAT i) 0x1 := by
  unfold dmaAdvance
  dsimp only
  split_ifs
  · exact .inr rfl
  · exact .inl rfl

theorem DmaSame.dmaAdvance (s : State) {i : Nat} (hi : i < 32) (tx : Bool) : DmaSame s (dmaAdvance s i tx) := by
  have hstep : DmaSame s (hwptrStep s i) := .wr s _ (by unfold EVF_DMA_HWPTR; omega)
  rcases dmaAdvance_cases s i tx with h | h
  · rw [h]
    exact hstep
  · rw [h]
    exact hstep.trans (.wr _ _ (by unfold EVF_DMA_STAT; omega))

theorem LogSame.dmaAdvance (s : State) (i : Nat) (tx : Bool) : LogSame s (dmaAdvance s i tx) := by
  rcases dmaAdvance_cases s i tx with h | h
  · rw [h]
    exact .wr s _ _
  · rw [h]
    exact (LogSame.wr s _ _).trans (.wr _ _ _)

theorem dmaAdvance_hwptr {s : State} {i : Nat} (hlen : dmaLen s i ≠ 0) (tx : Bool) :
    (dmaAdvance s i tx).fl (EVF_DMA_HWPTR i) 15 0 = (s.fl (EVF_DMA_HWPTR i) 15 0 + 1) % dmaLen s i := by
  have hne : EVF_DMA_HWPTR i ≠ EVF_DMA_STAT i := by unfold EVF_DMA_HWPTR EVF_DMA_STAT; omega
  have hbound : dmaLen s i < 2 ^ 16 := fld_lt _ 15 0
  have hlt : (s.fl (EVF_DMA_HWPTR i) 15 0 + 1) % dmaLen s i < 2 ^ 16 := (Nat.mod_lt _ (by omega)).trans hbound
  have hstep : (hwptrStep s i).fl (EVF_DMA_HWPTR i) 15 0 = (s.fl (EVF_DMA_HWPTR i) 15 0 + 1) % dmaLen s i :=
    (fl_setFl_self s _ 15 0 _ (by decide) (by decide)).trans (Nat.mod_eq_of_lt hlt)
  rcases dmaAdvance_cases s i tx with h | h
  · rw [h, hstep]
  · rw [h, State.fl, rd_raise_ne _ _ hne, ← State.fl, hstep]

/-! ## The transfer -/

/-- The channel is the one served last, in this CLK_FAB cycle (R85). -/
def dmaServed (s : State) (i : Nat) : State := { s with dmaLast := i, dmaAt := (s.cycles - s.clk0) / 2 + 1 }

/-- The head word of cell `c`'s RX FIFO has become the record at `a`: the words `r` remain. -/
def recordMoved (s : State) (i c a : Nat) (w : BitVec 33) (r : List (BitVec 33)) : State :=
  fifoMark (setFifo (dwordPut (dmaServed s i) a w.toNat) true c r) c 0 1

theorem DmaSame.recordMoved (s : State) (i c a : Nat) (w : BitVec 33) (r : List (BitVec 33)) :
    DmaSame s (recordMoved s i c a w r) :=
  (((show DmaSame s (dmaServed s i) from ⟨rfl, fun _ _ => rfl⟩).trans (.dwordPut _ _ _)).trans (.setFifo _ _ _ _)).trans
    (.fifoMark _ _ _ _)

/-- Moving the record writes no register. -/
theorem rd_recordMoved (s : State) (i c a : Nat) (w : BitVec 33) (r : List (BitVec 33)) (b : Nat) :
    (recordMoved s i c a w r).rd b = s.rd b := by
  have hregs : (recordMoved s i c a w r).regs = s.regs := setBytes_regs _ _ _
  rw [State.rd, hregs, State.rd]

/-- An input of a cell with which no shadow cell compares, before and after. -/
theorem cellInput_alone {s : State} {c : Nat} {f : State → State} (hs : shdOn s c = none) (hf : shdOn (f s) c = none) :
    cellInput s c f = f s := by
  simp only [cellInput, mirror, mirrorOn, hs, shdCheck, hf]

/-- It is the turn of channel `i` in RX word mode, its group answers, and its record fits: the head word `w` of the RX FIFO of cell
`c`, before the words `r`, goes to `a` in a bank that the DMA owns (R82, R85, R317). -/
structure RxTurn (s : State) (i c a : Nat) (w : BitVec 33) (r : List (BitVec 33)) : Prop where
  cell : s.fl (EVF_DMA_CFG i) 23 16 = c
  out : inReset s blkEvf = false
  turn : dmaTurn s = some i
  idle : s.dmaAt ≠ (s.cycles - s.clk0) / 2 + 1
  mode : s.fl (EVF_DMA_CFG i) 30 29 = 0
  answers : closed s 14 (blkGrp (c / 16)) = false
  head : fifoOf s true c = w :: r
  room : (s.fl (EVF_DMA_HWPTR i) 15 0 + 1) % dmaLen s i ≠ s.fl (EVF_DMA_SWPTR i) 15 0
  record : (s.rd (EVF_DMA_BASE i)).toNat + 8 * s.fl (EVF_DMA_HWPTR i) 15 0 = a
  shared : 0x20000000 ≤ a ∧ a + 8 ≤ 0x21000000
  owner : owns s 14 (bankOf a) = true

section
variable {s : State} {i c a : Nat} {w : BitVec 33} {r : List (BitVec 33)} (h : RxTurn s i c a w r)
include h

theorem dmaRx_moves : dmaRx (dmaServed s i) i = dmaAdvance (recordMoved s i c a w r) i false := by
  have hown : owns (dmaServed s i) 14 (bankOf a) = true := h.owner
  have hacc := memAcc_dword (by decide) h.shared.1 h.shared.2 hown w.toNat
  have hfl (b hi lo : Nat) : (dmaServed s i).fl b hi lo = s.fl b hi lo := rfl
  have hlen : dmaLen (dmaServed s i) i = dmaLen s i := rfl
  have hbase (b : Nat) : (dmaServed s i).rd b = s.rd b := rfl
  have hfifo (c : Nat) : fifoOf (dmaServed s i) true c = fifoOf s true c := rfl
  simp only [dmaRx, hfl, hlen, hbase, hfifo, h.cell, h.head, if_neg h.room, h.record, hacc, recordMoved]

/-- The transfer is the record moved, and the pointer's advance (R82, R85). -/
theorem dmaTransfer_moves : dmaTransfer s i = dmaAdvance (recordMoved s i c a w r) i false := by
  have hcell : fld (s.rd (EVF_DMA_CFG i)) 23 16 = c := h.cell
  have hmode : fld (s.rd (EVF_DMA_CFG i)) 30 29 = 0 := h.mode
  have hopen : closed (dmaServed s i) 14 (blkGrp (c / 16)) = false := h.answers
  rw [← dmaRx_moves h]
  unfold dmaTransfer
  dsimp only
  rw [if_neg (by simp [h.out, h.turn, h.idle]), ← dmaServed, hcell, hopen, if_neg Bool.false_ne_true, hmode]
  rfl

theorem DmaSame.dmaTransfer (hi : i < 32) : DmaSame s (dmaTransfer s i) := by
  rw [dmaTransfer_moves h]
  exact (DmaSame.recordMoved s i c a w r).trans (.dmaAdvance _ hi false)

theorem dmaTransfer_fifo : fifoOf (dmaTransfer s i) true c = r := by
  rw [dmaTransfer_moves h, fifoOf, LogSame.dmaAdvance]
  exact fifoOf_setFifo_self _ _ _ _

theorem dmaTransfer_byte (b : Nat) : (dmaTransfer s i).byte b = (dwordPut (dmaServed s i) a w.toNat).byte b := by
  rw [dmaTransfer_moves h, State.byte, LogSame.dmaAdvance]
  rfl

theorem dmaTransfer_hwptr (hlen : dmaLen s i ≠ 0) :
    (dmaTransfer s i).fl (EVF_DMA_HWPTR i) 15 0 = (s.fl (EVF_DMA_HWPTR i) 15 0 + 1) % dmaLen s i := by
  have hfl (b : Nat) : (recordMoved s i c a w r).fl b 15 0 = s.fl b 15 0 := by rw [State.fl, rd_recordMoved, ← State.fl]
  have hsame : dmaLen (recordMoved s i c a w r) i = dmaLen s i := hfl _
  rw [dmaTransfer_moves h, dmaAdvance_hwptr (hsame.symm ▸ hlen), hsame, hfl]

end

/-- The row of a transfer at a cell with which no shadow cell compares. -/
theorem exec_dmaTransfer {s : State} {ch : Fin 32} {c a : Nat} {w : BitVec 33} {r : List (BitVec 33)}
    (h : RxTurn s ch.val c a w r) (hshd : shdOn s c = none) :
    exec (.dmaTransfer ch) s = .next (close (dmaTransfer s ch.val)) := by
  have hc : c < 256 := h.cell ▸ fld_lt _ 23 16
  have halone := cellInput_alone (f := fun s => dmaTransfer s ch.val) hshd (((DmaSame.dmaTransfer h ch.isLt).shdOn c hc).trans hshd)
  rw [← halone, ← h.cell]
  rfl

/-- Settles O37: the writes of CFG and LEN by the channel's own rules, and the transfer as one record written behind the owner test. -/
theorem cellDma : Obligations.CellDma := by
  intro s m ch v hs
  refine ⟨fun h hoff hok => dmaEnable_enables hs h hoff hok, fun h hon hmode => dmaDisable_disables hs h hon hmode,
    fun h hoff => dmaLenWrite_clears hs h hoff v, ?_⟩
  rintro w r a hw hout hturn hidle hshd - hmode hopen hhead rfl hroom hlen ha - hlo hhi hown hheld
  have h : RxTurn s ch.val (s.fl (EVF_DMA_CFG ch.val) 23 16) a w r :=
    ⟨rfl, hout, hturn, hidle, hmode, hopen, hhead, hroom, ha.symm, ⟨hlo, hhi⟩, hown⟩
  have hmem := close_mem ((DmaSame.dmaTransfer h ch.isLt).testHeld hheld)
  have hbyte (b : Nat) : (close (dmaTransfer s ch.val)).byte b = (dwordPut (dmaServed s ch.val) a w.toNat).byte b := by
    rw [State.byte, hmem]
    exact dmaTransfer_byte h b
  refine ⟨_, exec_dmaTransfer h hshd, ?_, ?_, fun j hj => ?_, fun b hb => ?_⟩
  · rw [fifoOf, close_fifo]
    exact dmaTransfer_fifo h
  · rw [close_fl _ _ _ (closeTouches_eq_false (by unfold EVF_DMA_HWPTR; omega) (.inl (by unfold EVF_DMA_HWPTR; omega)))]
    exact dmaTransfer_hwptr h hlen
  · rw [hbyte, byte_dwordPut_in _ _ _ hj]
  · rw [hbyte, byte_dwordPut_out _ _ _ hb]
    rfl

end Sys2Proof.Machine

/-! SUPPORT. Writes of a check unit's registers (R88, R90, R92): where the registers stand, and the row of a write that the unit of an
engine or of a STOPPED cell accepts. -/

namespace Sys2Proof.Machine

/-! ## Where the registers of a unit stand -/

theorem regDesc_chk (u : ChkUnit) {o : Nat} (ho : 0x100 ≤ o ∧ o < 0x140) : regDesc (chkBase u + o) = chkDesc o := by
  cases u with
  | cell c =>
    have hoff : (0x30000000 + c.val * 0x1000 + o) % 0x1000 = o := by omega
    simp (disch := omega) only [chkBase, regDesc, hoff, if_neg, if_pos]
  | pe n =>
    have hoff : (0x35000000 + n.val * 0x1000 + o) % 0x1000 = o := by omega
    simp (disch := omega) only [chkBase, regDesc, hoff, if_neg, if_pos]
  | hx n =>
    have hoff : (0x36000000 + n.val * 0x1000 + o) % 0x1000 = o := by omega
    simp (disch := omega) only [chkBase, regDesc, hoff, if_neg, if_pos]

/-- The registers of a unit stand in a cell's block, an engine-side unit's or a sequencer's (Table 1.3). -/
theorem chkReg_range (u : ChkUnit) {o : Nat} (ho : 0x100 ≤ o ∧ o < 0x140) : (chkBase u + o) % 0x1000 = o ∧
    (0x30000000 ≤ chkBase u + o ∧ chkBase u + o < 0x30100000 ∨ 0x35000000 ≤ chkBase u + o ∧ chkBase u + o < 0x35008000 ∨
      0x36000000 ≤ chkBase u + o ∧ chkBase u + o < 0x36020000) := by
  cases u with
  | cell c =>
    simp only [chkBase]
    exact ⟨by omega, .inl (by omega)⟩
  | pe n =>
    simp only [chkBase]
    exact ⟨by omega, .inr (.inl (by omega))⟩
  | hx n =>
    simp only [chkBase]
    exact ⟨by omega, .inr (.inr (by omega))⟩

/-- The end of a command leaves the registers of the check units. -/
theorem closeTouches_chk (u : ChkUnit) {o : Nat} (ho : 0x100 ≤ o ∧ o < 0x140) : closeTouches (chkBase u + o) = false := by
  obtain ⟨hoff, hrange⟩ := chkReg_range u ho
  have hne : o ≠ 0x54 ∧ o ≠ 0x5C ∧ o ≠ 0x60 ∧ o ≠ 0x70 := by omega
  have hdiag : chkBase u + o ≠ MEM_FT_STAT ∧ chkBase u + o ≠ MEM_DG_IRQSTAT := by
    unfold MEM_FT_STAT MEM_DG_IRQSTAT
    omega
  simp [closeTouches, hoff, hne, hdiag]

/-- No register of a check unit is a route. -/
theorem routeKind_chk (u : ChkUnit) {o : Nat} (ho : 0x100 ≤ o ∧ o < 0x140) : routeKind (chkBase u + o) = none := by
  obtain ⟨hoff, hrange⟩ := chkReg_range u ho
  unfold routeKind TU_IRQROUTE IMG_IRQROUTE LDR_IRQROUTE SW_IRQROUTE MEM_IRQROUTE MEM_DG_IRQROUTE ARB_IRQROUTE
    HB_IRQROUTE SLOT_IRQROUTE PMU_IRQROUTE AON_IRQROUTE
  rcases hrange with hcell | hpe | hhx
  · simp (disch := omega) only [hoff, if_neg]
  · simp (disch := omega) only [hoff, if_neg]
  · simp (disch := omega) only [hoff, if_neg]

/-! ## What stays outside a unit's block -/

/-- `t` is `s` outside the block at `b`: the contexts, the shadow cells, and every register that stands elsewhere. -/
structure InBlock (b : Nat) (s t : State) : Prop where
  ctxH : t.ctxH = s.ctxH
  shdH : t.shdH = s.shdH
  rd : ∀ a, a < b ∨ b + 0x1000 ≤ a → t.rd a = s.rd a

theorem InBlock.refl (b : Nat) (s : State) : InBlock b s s := ⟨rfl, rfl, fun _ _ => rfl⟩

theorem InBlock.trans {b : Nat} {s t u : State} (h : InBlock b s t) (k : InBlock b t u) : InBlock b s u :=
  ⟨k.ctxH.trans h.ctxH, k.shdH.trans h.shdH, fun a ha => (k.rd a ha).trans (h.rd a ha)⟩

theorem InBlock.wr {b o : Nat} {s t : State} (h : InBlock b s t) (v : Word) (ho : o < 0x1000 := by decide) :
    InBlock b s (t.wr (b + o) v) :=
  h.trans ⟨rfl, rfl, fun _ _ => rd_wr_ne t v (by omega)⟩

theorem InBlock.softWrite {b o : Nat} (s : State) (v : Word) (ho : o < 0x1000 := by decide) : InBlock b s (s.softWrite (b + o) v) :=
  ⟨softWrite_ctxH s _ v, softWrite_shdH s _ v, fun _ _ => rd_softWrite_ne s v (by omega)⟩

theorem InBlock.chkInit {b : Nat} {s t : State} (h : InBlock b s t) : InBlock b s (chkInit t b) :=
  (((h.wr _).wr _).wr _).wr _

/-- A cell's block lies in the cells. -/
theorem InBlock.outsideCells {s t : State} {c : Nat} (h : InBlock (CELL_CTRL c) s t) (hc : c < 256) : OutsideCells s t :=
  ⟨h.ctxH, h.shdH, fun a ha => h.rd a (by unfold CELL_CTRL; omega)⟩

/-! ## The row of a write that the unit accepts -/

/-- The cell of a cell unit. -/
def unitCell : ChkUnit → Option Nat
  | .cell c => some c.val
  | _ => none

/-- Region `r` leads master `m` to unit `u`, of an engine, or (`cu`) of a STOPPED cell with which no shadow cell compares. -/
def unitStands (s : State) (m : Master) (u : ChkUnit) (r : Region) (cu : Bool) : Prop :=
  (cu = false ∧ ∃ n : Fin 8, u = .pe n ∧ r = .chk n.val) ∨
    (cu = true ∧ ∃ c : Fin 256, u = .cell c ∧ r = .cell c.val ∧ cellState s c.val = 0 ∧ shdOn s c.val = none ∧ unmasked s m)

/-- A write of an engine-side unit that its rules accept. -/
theorem targetWrite_chk {s : State} {m : Nat} {n : Fin 8} {o : Nat} {v : Word} (ho : 0x100 ≤ o ∧ o < 0x140)
    (hok : chkRefuses o v false false true = false) : targetWrite s m (chkBase (.pe n) + o) (.chk n.val) v =
      accept (chkWrite s (chkBase (.pe n)) o v none) := by
  have hoff : (0x35000000 + n.val * 0x1000 + o) % 0x1000 = o := by omega
  simp only [targetWrite, maskedTarget, Bool.and_false, Bool.false_eq_true, if_false, chkBase, hoff, hok]

/-- A write of the unit of a STOPPED cell that its rules accept. -/
theorem cellWrite_chk {s : State} {c : Fin 256} {o : Nat} {v : Word} (ho : 0x100 ≤ o ∧ o < 0x140) (hst : cellState s c.val = 0)
    (hok : chkRefuses o v true false true = false) :
    cellWrite s c.val o v = accept (chkWrite s (chkBase (.cell c)) o v (some c.val)) := by
  have href : cellRefuses s c.val o v = false := by
    simp (disch := omega) only [cellRefuses, if_neg, if_pos, hst, BEq.rfl, hok]
  have hplain : cellPlainWrite s c.val o v = chkWrite s (chkBase (.cell c)) o v (some c.val) := by
    simp (disch := omega) only [cellPlainWrite, if_neg, if_pos, Fin.ofNat_eq_cast, Fin.cast_val_eq_self]
  simp (disch := omega) only [cellWrite, href, hplain, if_neg, Bool.false_eq_true, if_false]

/-- The row of a write that the unit accepts: the unit's registers are as its effect `t` leaves them. -/
theorem writeRow_chk {s t : State} {m : Master} {u : ChkUnit} {r : Region} {cu : Bool} {o : Nat} {v : Word}
    (hu : unitStands s m u r cu) (hs : noSteps s) (ho : 0x100 ≤ o ∧ o < 0x140) (h : opens s m (chkBase u + o) r)
    (hok : chkRefuses o v cu false true = false) (ht : chkWrite s (chkBase u) o v (unitCell u) = t)
    (hin : InBlock (chkBase u) s t) : ∃ t', writeRow s m (chkBase u + o) v = .next t' ∧
      ∀ d, 0x100 ≤ d ∧ d < 0x140 → t'.rd (chkBase u + d) = t.rd (chkBase u + d) := by
  refine ⟨answered t (.ok 0), ?_, fun d hd => rd_answered _ _ (closeTouches_chk u hd)⟩
  obtain ⟨rfl, n, rfl, rfl⟩ | ⟨rfl, c, rfl, rfl, hst, hshd, hm⟩ := hu
  · have hroute : routed m (chkBase (.pe n) + o) (.chk n.val) v = v := by simp [routed, routeKind_chk _ ho]
    refine writeRow_accept h (.inl rfl) ?_ (by simpa only [noSteps, hin.ctxH] using hs)
    rw [hroute, targetWrite_chk ho hok, ← ht]
    rfl
  · have hoff := (chkReg_range (.cell c) ho).1
    have hout := InBlock.outsideCells hin c.isLt
    refine writeRow_cell h hm (by omega) ?_ hshd ((hout.shdOn _).trans hshd) hout.ctxH hs
    rw [hoff, cellWrite_chk ho hst hok, ← ht]
    rfl

end Sys2Proof.Machine

/-! SUPPORT. What a check unit makes of a write (R89, R90, R92, R93, R97): parameters and INIT, END in append mode, and the bytes fed in
append mode. -/

namespace Sys2Proof.Machine

/-! ## INIT (R92) -/

theorem rd_chkInit_run (s : State) (b : Nat) : (chkInit s b).rd (CHK_RUN b) = s.rd (CHK_INIT b) := by
  simp [chkInit, rd_wr_ne]

theorem rd_chkInit_state (s : State) (b : Nat) : (chkInit s b).rd (CHK_STATE b) = 0 := rd_wr_self _ _ _

/-- INIT opens the unit. -/
theorem bt_chkInit_closed (s : State) (b : Nat) : (chkInit s b).bt (CHK_STATE b) 31 = false := by
  rw [State.bt, rd_chkInit_state]
  decide

/-- INIT keeps the parameters, the results and the counts. -/
theorem rd_chkInit_kept (s : State) (b : Nat) {o : Nat} (ho : o < 0x110 ∨ 0x120 ≤ o) :
    (chkInit s b).rd (b + o) = s.rd (b + o) := by
  simp (disch := omega) only [chkInit, CHK_RUN, CHK_HOLD, CHK_FED, CHK_STATE, rd_wr_ne]

/-! ## The parameters (R90, R92) -/

/-- CFG written, and the parameters cut to its width (R90). -/
def cfgTaken (s : State) (b : Nat) (v : Word) : State :=
  let s := s.softWrite (CHK_CFG b) v
  let k := ones (chkW s b)
  ((s.wr (CHK_POLY b) (s.rd (CHK_POLY b) &&& k)).wr (CHK_INIT b) (s.rd (CHK_INIT b) &&& k)).wr (CHK_XOROUT b)
    (s.rd (CHK_XOROUT b) &&& k)

theorem chkWrite_cfg (s : State) (b : Nat) (v : Word) (cell : Option Nat) :
    chkWrite s b 0x100 v cell = chkInit (cfgTaken s b v) b := rfl

theorem InBlock.cfgTaken (s : State) (b : Nat) (v : Word) : InBlock b s (cfgTaken s b v) :=
  (((InBlock.softWrite s v).wr _).wr _).wr _

/-- CFG takes the fields that its RW bits cover. -/
theorem fl_cfgTaken (s : State) (u : ChkUnit) (v : Word) {hi lo : Nat}
    (hrw : ∀ i, lo ≤ i → i ≤ hi → (0xF33F : Word).getLsbD i = true) (h32 : hi < 32) :
    (cfgTaken s (chkBase u) v).fl (CHK_CFG (chkBase u)) hi lo = fld v hi lo := by
  rw [← fl_softWrite_self s (regDesc_chk u (o := 0x100) (by decide)) hrw h32 v]
  simp [cfgTaken, State.fl, rd_wr_ne]

/-- The offset of a parameter register. -/
def paramOff : ChkParam → Nat
  | .poly => 0x104
  | .init => 0x108
  | .xorout => 0x10C

theorem chkParamAt_eq (u : ChkUnit) (p : ChkParam) : chkParamAt u p = chkBase u + paramOff p := by cases p <;> rfl

theorem paramOff_mem (p : ChkParam) : paramOff p = 0x104 ∨ paramOff p = 0x108 ∨ paramOff p = 0x10C := by cases p <;> decide

/-- A parameter written with WIDTH 32 is taken whole. -/
theorem chkWrite_param {s : State} {b : Nat} (hw : chkW s b = 32) (p : ChkParam) (v : Word) (cell : Option Nat) :
    chkWrite s b (paramOff p) v cell = chkInit (s.softWrite (b + paramOff p) v) b := by
  have hmask : v &&& ones (chkW s b) = v := by
    rw [hw]
    exact and_ones v
  have hoff := paramOff_mem p
  simp (disch := omega) only [chkWrite, hmask, if_neg, if_pos]

theorem rd_softWrite_param (s : State) (u : ChkUnit) (p : ChkParam) (v : Word) :
    (s.softWrite (chkBase u + paramOff p) v).rd (chkBase u + paramOff p) = v := by
  have hdesc : regDesc (chkBase u + paramOff p) = some ⟨0xFFFFFFFF, 0, 0, 0, 0, 0⟩ := by
    rw [regDesc_chk u (by have := paramOff_mem p; omega)]
    cases p <;> rfl
  rw [rd_softWrite_self s hdesc, writtenWord_of_rwo_zero rfl]
  simp [and_ones]

/-! ## END in append mode (R93) -/

/-- An open unit closed with F as its result; the bits of an unfinished byte are dropped. -/
def closedWithF (s : State) (b : Nat) : State :=
  let t := if s.fl (CHK_STATE b) 20 18 != 0 then s.raise (CHK_STAT b) 0x4 else s
  (((t.setFl (CHK_STATE b) 20 18 0).setFl (CHK_STATE b) 15 8 0).wr (CHK_RESULT b) (BitVec.ofNat 32 (chkF s b))).setBt
    (CHK_STATE b) 31 true

theorem chkEnd_append {s : State} {b : Nat} (hmode : chkMode s b = 0) (hopen : chkClosed s b = false) (cell : Option Nat) :
    chkEnd s b cell = cell.elim ((closedWithF s b).setFl (CHK_STATE b) 26 21 0)
      (chkLoad ((closedWithF s b).setFl (CHK_STATE b) 26 21 (chkW s b)) b) := by
  cases cell <;> simp [chkEnd, hmode, hopen, closedWithF]

/-- The shifter load of an END writes the shifter, its level, and the bits that remain (R93). -/
theorem chkLoad_writes (s : State) (c : Nat) : ∃ v w n, chkLoad s (CELL_CTRL c) c =
    ((s.wr (CELL_CTRL c + 0x28) v).wr (CELL_CTRL c + 0x2C) w).setFl (CHK_STATE (CELL_CTRL c)) 26 21 n := ⟨_, _, _, rfl⟩

/-- `t` is the unit closed with F: CLOSED, and RESULT. -/
structure EndedWithF (s t : State) (b : Nat) : Prop where
  block : InBlock b s t
  closed : t.bt (CHK_STATE b) 31 = true
  result : t.rd (CHK_RESULT b) = BitVec.ofNat 32 (chkF s b)

theorem EndedWithF.closedWithF (s : State) (b : Nat) : EndedWithF s (closedWithF s b) b := by
  refine ⟨?_, bt_setBt_self _ _ _ _ (by decide), ?_⟩
  · unfold Machine.closedWithF
    dsimp only
    split_ifs
    · exact (((((InBlock.refl b s).wr _).wr _).wr _).wr _).wr _
    · exact ((((InBlock.refl b s).wr _).wr _).wr _).wr _
  · simp [Machine.closedWithF, rd_setBt_ne]

/-- The count of the bits to be shifted out touches neither CLOSED nor RESULT. -/
theorem EndedWithF.setRem {s t : State} {b : Nat} (h : EndedWithF s t b) (n : Nat) :
    EndedWithF s (t.setFl (CHK_STATE b) 26 21 n) b :=
  ⟨h.block.wr _, by rw [State.bt, rd_setFl_self, bitAt_setFld_apart _ _ (by decide) (by decide) (by decide)]; exact h.closed,
    (rd_setFl_ne _ _ _ _ (by simp)).trans h.result⟩

/-- Nor does a register of the unit's cell. -/
theorem EndedWithF.wrCell {s t : State} {b o : Nat} (h : EndedWithF s t b) (v : Word) (ho : o < 0x100 := by decide) :
    EndedWithF s (t.wr (b + o) v) b :=
  ⟨h.block.wr _ (by omega), by rw [State.bt, rd_wr_ne _ _ (by unfold CHK_STATE; omega)]; exact h.closed,
    (rd_wr_ne _ _ (by unfold CHK_RESULT; omega)).trans h.result⟩

theorem EndedWithF.chkLoad {s t : State} {c : Nat} (h : EndedWithF s t (CELL_CTRL c)) :
    EndedWithF s (chkLoad t (CELL_CTRL c) c) (CELL_CTRL c) := by
  obtain ⟨v, w, n, hload⟩ := chkLoad_writes t c
  rw [hload]
  exact ((h.wrCell v).wrCell w).setRem n

theorem EndedWithF.chkEnd {s : State} {u : ChkUnit} (hmode : chkMode s (chkBase u) = 0)
    (hopen : chkClosed s (chkBase u) = false) : EndedWithF s (chkEnd s (chkBase u) (unitCell u)) (chkBase u) := by
  rw [chkEnd_append hmode hopen]
  cases u with
  | cell c => exact ((EndedWithF.closedWithF s (CELL_CTRL c.val)).setRem _).chkLoad
  | pe n => exact (EndedWithF.closedWithF s _).setRem 0
  | hx n => exact (EndedWithF.closedWithF s _).setRem 0

/-! ## Feeds in append mode (R89, R97) -/

theorem crcBit_lt {w poly r : Nat} (hw : w ≤ 32) (hp : poly < 2 ^ 32) (b : Bool) : crcBit w poly r b < 2 ^ 32 := by
  have hcut : r * 2 % 2 ^ w < 2 ^ 32 :=
    lt_of_lt_of_le (Nat.mod_lt _ (by positivity)) (Nat.pow_le_pow_right (by decide) hw)
  simp only [crcBit]
  split_ifs
  · exact Nat.xor_lt_two_pow hcut hp
  · exact hcut

theorem crcByte_lt {w poly r : Nat} (hw : w ≤ 32) (hp : poly < 2 ^ 32) (hr : r < 2 ^ 32) (refin : Bool) (x : Nat) :
    crcByte w poly refin r x < 2 ^ 32 :=
  List.foldlRecOn (motive := (· < 2 ^ 32)) _ _ hr fun _ _ b _ => crcBit_lt hw hp b

/-- The low `n` bytes of `x` through the polynomial, the lowest byte first. -/
def crcLow (w poly n r x : Nat) : Nat := (List.range n).foldl (fun r j => crcByte w poly false r (x / 256 ^ j % 256)) r

theorem crcLow_succ (w poly n r x : Nat) :
    crcLow w poly (n + 1) r x = crcLow w poly n (crcByte w poly false r (x % 256)) (x / 256) := by
  simp only [crcLow, List.range_succ_eq_map, List.foldl_cons, List.foldl_map, pow_zero, Nat.div_one, pow_succ',
    Nat.div_div_eq_div_mul]

/-- A bit of a byte of a word. -/
theorem byteBit_eq_getLsbD (v : Word) (j : Nat) {k : Nat} (hk : k < 8) :
    (v.toNat / 256 ^ j % 256 / 2 ^ k % 2 == 1) = v.getLsbD (8 * j + k) := by
  have hpow : 256 ^ j = 2 ^ (8 * j) := by rw [pow_mul]; rfl
  have hbyte : (v.toNat / 256 ^ j % 2 ^ 8).testBit k = v.getLsbD (8 * j + k) := by
    rw [hpow, Nat.testBit_mod_two_pow, Nat.testBit_div_two_pow, BitVec.testBit_toNat]
    simp [hk, Nat.add_comm]
  rw [← hbyte, Nat.testBit_eq_decide_div_mod_eq]
  rfl

/-- A byte of a word goes through the polynomial bit by bit from its highest. -/
theorem crcByte_word (w poly r j : Nat) (v : Word) : crcByte w poly false r (v.toNat / 256 ^ j % 256) =
    ([7, 6, 5, 4, 3, 2, 1, 0].map (8 * j + ·)).foldl (fun r i => crcBit w poly r (v.getLsbD i)) r := by
  have hbits : byteBits false (v.toNat / 256 ^ j % 256) = [7, 6, 5, 4, 3, 2, 1, 0].map (fun k => v.getLsbD (8 * j + k)) := by
    rw [show [7, 6, 5, 4, 3, 2, 1, 0] = (List.range 8).map (7 - ·) from rfl, List.map_map]
    exact List.map_congr_left fun i _ => byteBit_eq_getLsbD v j (by omega)
  rw [crcByte, hbits, List.foldl_map, List.foldl_map]

theorem crcLow_word (w poly n r : Nat) (v : Word) : crcLow w poly n r v.toNat =
    ((List.range n).flatMap (fun j => [7, 6, 5, 4, 3, 2, 1, 0].map (8 * j + ·))).foldl
      (fun r i => crcBit w poly r (v.getLsbD i)) r := by
  simp only [List.foldl_flatMap, ← crcByte_word, crcLow]

/-- The unit is open, in append mode, and takes whole bytes without reflection. -/
structure AppendsBytes (s : State) (b : Nat) : Prop where
  width : chkW s b ≤ 32
  mode : chkMode s b = 0
  opened : chkClosed s b = false
  bytes : chkGran s b = false
  unreflected : s.bt (CHK_CFG b) 13 = false

/-- FED counts 32 bits. -/
theorem wrapInc_word (s : State) (a n : Nat) : s.wrapInc a 31 0 n = s.wr a (s.rd a + BitVec.ofNat 32 n) := by
  have hset : setFld (s.rd a) 31 0 (s.fl a 31 0 + n) = s.rd a + BitVec.ofNat 32 n := by
    have hlt := (s.rd a).isLt
    apply BitVec.eq_of_toNat_eq
    rw [setFld_toNat _ _ _ _ (by decide) (by decide)]
    simp only [State.fl, fld, BitVec.toNat_add, BitVec.toNat_ofNat]
    omega
  rw [State.wrapInc, State.setFl, hset]

/-- A byte fed: counted, and through the polynomial. -/
def byteFed (s : State) (b x : Nat) : State :=
  (s.wr (CHK_FED b) (s.rd (CHK_FED b) + 8)).wr (CHK_RUN b)
    (BitVec.ofNat 32 (crcByte (chkW s b) (s.rd (CHK_POLY b)).toNat false (s.rd (CHK_RUN b)).toNat x))

theorem chkFeedByte_append {s : State} {b : Nat} (h : AppendsBytes s b) (x : Nat) : chkFeedByte s b x = byteFed s b x := by
  obtain ⟨-, hmode, hopen, hgran, hrefl⟩ := h
  have hcfg (v : Word) : (s.wr (CHK_FED b) v).rd (CHK_CFG b) = s.rd (CHK_CFG b) := rd_wr_ne _ _ (by simp)
  simp only [chkMode, chkGran, State.fl, State.bt] at hmode hgran hrefl
  simp [chkFeedByte, hopen, wrapInc_word, chkPush, chkMode, chkProcess, chkGran, chkW, State.fl, State.bt, hcfg, hmode, hgran,
    hrefl, rd_wr_ne, byteFed]

theorem rd_byteFed_kept (s : State) (b x : Nat) {o : Nat} (ho : o ≠ 0x110 ∧ o ≠ 0x11C) :
    (byteFed s b x).rd (b + o) = s.rd (b + o) := by
  simp (disch := omega) only [byteFed, CHK_RUN, CHK_FED, rd_wr_ne]

theorem AppendsBytes.byteFed {s : State} {b : Nat} (h : AppendsBytes s b) (x : Nat) : AppendsBytes (byteFed s b x) b := by
  have hcfg : (Machine.byteFed s b x).rd (CHK_CFG b) = s.rd (CHK_CFG b) := rd_byteFed_kept s b x (by decide)
  have hstate : (Machine.byteFed s b x).rd (CHK_STATE b) = s.rd (CHK_STATE b) := rd_byteFed_kept s b x (by decide)
  constructor <;> simp only [chkW, chkMode, chkClosed, chkGran, State.fl, State.bt, hcfg, hstate]
  exacts [h.width, h.mode, h.opened, h.bytes, h.unreflected]

/-- The bytes fed to a unit in append mode: the register, and the count (R97). -/
theorem chkFeedN_append {s : State} {b : Nat} (h : AppendsBytes s b) (n x : Nat) : InBlock b s (chkFeedN s b n x) ∧
    ((chkFeedN s b n x).rd (CHK_RUN b)).toNat = crcLow (chkW s b) (s.rd (CHK_POLY b)).toNat n (s.rd (CHK_RUN b)).toNat x ∧
    (chkFeedN s b n x).rd (CHK_FED b) = s.rd (CHK_FED b) + BitVec.ofNat 32 (8 * n) := by
  induction n generalizing s x with
  | zero => exact ⟨.refl b s, rfl, by simp [chkFeedN]⟩
  | succ n ih =>
    obtain ⟨hblock, hrun, hfed⟩ := ih (h.byteFed (x % 256)) (x / 256)
    have hw : chkW (byteFed s b (x % 256)) b = chkW s b := by
      rw [chkW, State.fl, rd_byteFed_kept _ _ _ (by decide), ← State.fl, ← chkW]
    have hreg : ((byteFed s b (x % 256)).rd (CHK_RUN b)).toNat =
        crcByte (chkW s b) (s.rd (CHK_POLY b)).toNat false (s.rd (CHK_RUN b)).toNat (x % 256) := by
      rw [byteFed, rd_wr_self, BitVec.toNat_ofNat, Nat.mod_eq_of_lt]
      exact crcByte_lt h.width (BitVec.isLt _) (BitVec.isLt _) _ _
    have hcount : (byteFed s b (x % 256)).rd (CHK_FED b) = s.rd (CHK_FED b) + 8 := by simp [byteFed, rd_wr_ne]
    rw [chkFeedN, chkFeedByte_append h]
    refine ⟨(((InBlock.refl b s).wr _).wr _).trans hblock, ?_, ?_⟩
    · rw [hrun, hw, rd_byteFed_kept _ _ _ (by decide), hreg, crcLow_succ]
    · rw [hfed, hcount, BitVec.add_assoc, show 8 * (n + 1) = 8 + 8 * n by omega, BitVec.ofNat_add]
      rfl

/-! ## The rows -/

section
variable {s : State} {m : Master} {u : ChkUnit} {r : Region} {cu : Bool} (hu : unitStands s m u r cu) (hs : noSteps s)
include hu hs

/-- CHK_CFG_WRITE with a word that R90 accepts. -/
theorem chkCfgWrite_inits {v : Word} (h : opens s m (CHK_CFG (chkBase u)) r) (hok : chkCfgBad cu v = false) :
    ∃ t, exec (.chkCfgWrite m u v) s = .next t ∧ t.fl (CHK_CFG (chkBase u)) 5 0 = fld v 5 0 ∧
      t.fl (CHK_CFG (chkBase u)) 9 8 = fld v 9 8 ∧ t.bt (CHK_STATE (chkBase u)) 31 = false := by
  obtain ⟨t, hrow, hrd⟩ := writeRow_chk hu hs (by decide) h (by simp [chkRefuses, hok]) (chkWrite_cfg s _ v _)
    (InBlock.cfgTaken s _ v).chkInit
  have hcfg (hi lo : Nat) : t.fl (CHK_CFG (chkBase u)) hi lo = (cfgTaken s (chkBase u) v).fl (CHK_CFG (chkBase u)) hi lo := by
    rw [State.fl, hrd _ (by decide), rd_chkInit_kept _ _ (by decide), ← State.fl]
  refine ⟨t, hrow, (hcfg 5 0).trans (fl_cfgTaken s u v (by decide) (by decide)),
    (hcfg 9 8).trans (fl_cfgTaken s u v (by decide) (by decide)), ?_⟩
  rw [State.bt, hrd _ (by decide), ← State.bt, bt_chkInit_closed]

/-- CHK_PARAM_WRITE of a unit of WIDTH 32. -/
theorem chkParamWrite_inits (p : ChkParam) (h : opens s m (chkParamAt u p) r) (hw : s.fl (CHK_CFG (chkBase u)) 5 0 = 32)
    (v : Word) : ∃ t, exec (.chkParamWrite m u p v) s = .next t ∧ t.rd (chkParamAt u p) = v ∧
      t.rd (CHK_RUN (chkBase u)) = (if p = .init then v else s.rd (CHK_INIT (chkBase u))) ∧
      t.bt (CHK_STATE (chkBase u)) 31 = false := by
  have hoff := paramOff_mem p
  have hself := rd_softWrite_param s u p v
  have hok : chkRefuses (paramOff p) v cu false true = false := by cases p <;> simp [chkRefuses, paramOff]
  rw [chkParamAt_eq] at h ⊢
  obtain ⟨t, hrow, hrd⟩ := writeRow_chk hu hs (by omega) h hok (chkWrite_param hw p v _)
    (InBlock.softWrite s v (by omega)).chkInit
  refine ⟨t, (congrArg (writeRow s m · v) (chkParamAt_eq u p)).trans hrow, ?_, ?_, ?_⟩
  · rw [hrd _ (by omega), rd_chkInit_kept _ _ (by omega), hself]
  · rw [hrd _ (by decide), rd_chkInit_run]
    cases p with
    | init => exact hself
    | poly => exact rd_softWrite_ne _ _ (by simp [paramOff])
    | xorout => exact rd_softWrite_ne _ _ (by simp [paramOff])
  · rw [State.bt, hrd _ (by decide), ← State.bt, bt_chkInit_closed]

/-- CHK_INIT. -/
theorem chkInit_opens (h : opens s m (CHK_CMD (chkBase u)) r) : ∃ t, exec (.chkInit m u) s = .next t ∧
    t.rd (CHK_RUN (chkBase u)) = s.rd (CHK_INIT (chkBase u)) ∧ t.rd (CHK_STATE (chkBase u)) = 0 ∧
    t.rd (CHK_RESULT (chkBase u)) = s.rd (CHK_RESULT (chkBase u)) ∧
    t.rd (CHK_COUNT (chkBase u)) = s.rd (CHK_COUNT (chkBase u)) := by
  have heff : chkWrite s (chkBase u) 0x130 1 (unitCell u) = chkInit s (chkBase u) := rfl
  obtain ⟨t, hrow, hrd⟩ := writeRow_chk hu hs (by decide) h (by cases cu <;> decide) heff (InBlock.refl _ s).chkInit
  refine ⟨t, hrow, ?_, ?_, ?_, ?_⟩
  · rw [hrd _ (by decide), rd_chkInit_run]
  · rw [hrd _ (by decide), rd_chkInit_state]
  · rw [hrd _ (by decide), rd_chkInit_kept _ _ (by decide)]
  · rw [hrd _ (by decide), rd_chkInit_kept _ _ (by decide)]

/-- CHK_END of an open unit in append mode. -/
theorem chkEnd_closes (h : opens s m (CHK_CMD (chkBase u)) r) (hmode : chkMode s (chkBase u) = 0)
    (hopen : chkClosed s (chkBase u) = false) : ∃ t, exec (.chkEnd m u) s = .next t ∧ t.bt (CHK_STATE (chkBase u)) 31 = true ∧
      t.rd (CHK_RESULT (chkBase u)) = BitVec.ofNat 32 (chkF s (chkBase u)) := by
  have hend := EndedWithF.chkEnd hmode hopen
  have heff : chkWrite s (chkBase u) 0x130 2 (unitCell u) = chkEnd s (chkBase u) (unitCell u) := rfl
  obtain ⟨t, hrow, hrd⟩ := writeRow_chk hu hs (by decide) h (by cases cu <;> decide) heff hend.block
  refine ⟨t, hrow, ?_, ?_⟩
  · rw [State.bt, hrd _ (by decide), ← State.bt, hend.closed]
  · rw [hrd _ (by decide), hend.result]

end

/-- The offset of a feed register, and the bytes that it takes (Table 4.8). -/
def feedOff : FeedN → Nat × Nat
  | .n1 => (0x134, 1)
  | .n2 => (0x138, 2)
  | .n4 => (0x13C, 4)

theorem chkFeedAt_eq (u : ChkUnit) (f : FeedN) : chkFeedAt u f = chkBase u + (feedOff f).1 := by cases f <;> rfl

theorem chkWrite_feed (s : State) (b : Nat) (f : FeedN) (v : Word) (cell : Option Nat) :
    chkWrite s b (feedOff f).1 v cell = chkFeedN s b (feedOff f).2 v.toNat := by
  cases f <;> simp [chkWrite, feedOff]

/-- CHK_FEED of an engine's unit in append mode. -/
theorem chkFeed_appends {s : State} {m : Master} {u : ChkUnit} {r : Region} (hu : unitStands s m u r false) (hs : noSteps s)
    (f : FeedN) (h : opens s m (chkFeedAt u f) r) (happ : AppendsBytes s (chkBase u)) (v : Word) :
    ∃ t, exec (.chkFeed m u f v) s = .next t ∧
      t.rd (CHK_RUN (chkBase u)) = BitVec.ofNat 32 (crcLow (chkW s (chkBase u)) (s.rd (CHK_POLY (chkBase u))).toNat
        (feedOff f).2 (s.rd (CHK_RUN (chkBase u))).toNat v.toNat) ∧
      t.rd (CHK_FED (chkBase u)) = s.rd (CHK_FED (chkBase u)) + BitVec.ofNat 32 (8 * (feedOff f).2) := by
  obtain ⟨hblock, hrun, hfed⟩ := chkFeedN_append happ (feedOff f).2 v.toNat
  have hoff : 0x100 ≤ (feedOff f).1 ∧ (feedOff f).1 < 0x140 := by cases f <;> decide
  have hok : chkRefuses (feedOff f).1 v false false true = false := by cases f <;> simp [chkRefuses, feedOff]
  rw [chkFeedAt_eq] at h
  obtain ⟨t, hrow, hrd⟩ := writeRow_chk hu hs hoff h hok (chkWrite_feed s _ f v _) hblock
  refine ⟨t, (congrArg (writeRow s m · v) (chkFeedAt_eq u f)).trans hrow, ?_, ?_⟩
  · rw [hrd _ (by decide), ← hrun, BitVec.ofNat_toNat, BitVec.setWidth_eq]
  · rw [hrd _ (by decide), hfed]

/-- Settles O38, row by row: each write reaches its unit, which takes the parameter, opens, closes with F, or takes the bytes fed
through the polynomial. -/
theorem checkUnits : Obligations.CheckUnits := by
  rintro s m u r cu _ v rfl hs hu
  refine ⟨fun h hok => chkCfgWrite_inits hu hs h hok, fun p h hw => chkParamWrite_inits hu hs p h hw v,
    fun h => chkInit_opens hu hs h, fun h hmode hopen => chkEnd_closes hu hs h hmode hopen,
    fun f n hf hcu h hw hmode hopen hgran hrefl => ?_⟩
  subst hcu
  obtain rfl : n = (feedOff f).2 := by
    simp only [List.mem_cons, Prod.mk.injEq, List.not_mem_nil, or_false] at hf
    obtain ⟨rfl, rfl⟩ | ⟨rfl, rfl⟩ | ⟨rfl, rfl⟩ := hf <;> rfl
  have hfed := chkFeed_appends hu hs f h ⟨hw, hmode, hopen, hgran, hrefl⟩ v
  rw [crcLow_word] at hfed
  exact hfed

end Sys2Proof.Machine

/-! SUPPORT. A statement that fails in a state which it does not rule out: a shadow cell whose copy lists a register of its own. -/

namespace Sys2Proof.Machine

/-- Group 0 is out of reset, its shadow cell is in COMPARE at cell 0, and its POLICY is TAKEOVER. The copy lists EVF_SHD_STATUS of the
shadow cell as 0, a register outside the set of R110: no copy that `shdTake` makes lists it (`shdHolds`). -/
def foreignCopy : State :=
  { regs := [(EVF_SHD_CTRL 0, 1), (EVF_SHD_STATUS 0, 0x40000000)], ldrHold := [(blkGrp 0, false)],
    shdH := [(0, { copy := some { regs := [(EVF_SHD_STATUS 0, 0)] } })] }

/-- What a takeover puts in place of cell 0's set includes the foreign register, so the record of the mismatch there is lost. -/
theorem bt_shdMismatch_foreignCopy : (shdMismatch foreignCopy 0 1 true).bt (EVF_SHD_STATUS 0) 0 = false := by decide +kernel

/-- Refutes O39, in its clause on mismatches: it speaks of every copy. A takeover puts each register that the copy lists in place of the
cell's (R113, R114), so a copy that lists EVF_SHD_STATUS clears the flag that the mismatch has just set for the cell. -/
theorem not_shadowCells : ¬ Obligations.ShadowCells := by
  intro h
  obtain ⟨-, -, hmismatch, -⟩ := h foreignCopy 0 0 (by decide +kernel)
  obtain ⟨t, hrow, hflag, -⟩ := hmismatch 1 true (by decide +kernel) (by decide)
  obtain rfl : close (shdMismatch foreignCopy 0 1 true) = t := Host.Outcome.next.inj hrow
  have hcur : shdCur foreignCopy (0 : Fin 16).val = 0 := by decide +kernel
  rw [hcur, close_bt _ 0 (by decide)] at hflag
  exact absurd (bt_shdMismatch_foreignCopy.symm.trans hflag) (by decide)

end Sys2Proof.Machine

/-! SUPPORT. The words of Jaedin instructions (R127 to R131, Tables 6.4 to 6.6): fields and immediates as words, and the values of the
register operations as Table 6.6 gives them. -/

namespace Sys2Proof.Machine

/-! ## Fields and immediates -/

/-- Sign extension of the low `n` bits is the signed value of the word of `n` bits. -/
theorem sext_eq_toInt {n : Nat} (h : 0 < n) (v : Nat) : sext n v = (BitVec.ofNat n v).toInt := by
  have hn : 2 ^ n = 2 * 2 ^ (n - 1) := by rw [← pow_succ', Nat.sub_add_cancel h]
  simp only [sext, BitVec.toInt_eq_toNat_cond, BitVec.toNat_ofNat]
  refine ite_congr (propext ?_) (fun _ => rfl) (fun _ => rfl)
  omega

/-- The word of a sign extension. -/
theorem wordOfInt_sext {n : Nat} (h : 0 < n) (v : Nat) : wordOfInt (sext n v) = (BitVec.ofNat n v).signExtend 32 := by
  rw [sext_eq_toInt h]
  rfl

theorem ofNat_jImmU (w : Word) : BitVec.ofNat 16 (jImmU w) = w.setWidth 16 := by
  refine BitVec.eq_of_toNat_eq ?_
  simp [jImmU, fld]

/-- The immediate with its sign (R127). -/
theorem jImm_eq_immS (w : Word) : jImm w = immS w := by
  rw [jImm, wordOfInt_sext (by decide), ofNat_jImmU, immS]

/-- The immediate without a sign (R127). -/
theorem ofNat_jImmU_word (w : Word) : BitVec.ofNat 32 (jImmU w) = (w.setWidth 16).setWidth 32 := by
  refine BitVec.eq_of_toNat_eq ?_
  simp [jImmU, fld]

/-- The destination of a branch: its address and four times the offset (R131). -/
theorem jTo16_eq (w p : Word) : jTo16 w p.toNat = (p + 4 * immS w).toNat := by
  have himm : BitVec.ofInt 32 (sext 16 (jImmU w)) = immS w := jImm_eq_immS w
  rw [jTo16, BitVec.ofNat_toNat, BitVec.setWidth_eq, wordOfInt, BitVec.ofInt_mul, himm]
  rfl

/-- The destination of a jump or a call: its address and four times the offset (R131). -/
theorem jTo26_eq (w p : Word) : jTo26 w p.toNat = (p + 4 * (w.setWidth 26).signExtend 32).toNat := by
  have hfld : BitVec.ofNat 26 (fld w 25 0) = w.setWidth 26 := BitVec.eq_of_toNat_eq (by simp [fld])
  have hoff : BitVec.ofInt 32 (sext 26 (fld w 25 0)) = (w.setWidth 26).signExtend 32 := hfld ▸ wordOfInt_sext (by decide) _
  rw [jTo26, BitVec.ofNat_toNat, BitVec.setWidth_eq, wordOfInt, BitVec.ofInt_mul, hoff]
  rfl

/-! ## Operations of opcode 0x00 on two registers (Table 6.6) -/

theorem bit01_slt (a b : Word) : bit01 (a.slt b) = if a.toInt < b.toInt then 1 else 0 := by
  simp [bit01, BitVec.slt_eq_decide]

theorem bit01_ult (a b : Word) : bit01 (a.ult b) = if a.toNat < b.toNat then 1 else 0 := by
  simp [bit01, BitVec.ult_eq_decide]

theorem shiftLeft_eq_ofNat (a : Word) (n : Nat) : a <<< n = BitVec.ofNat 32 (a.toNat * 2 ^ n) := by
  refine BitVec.eq_of_toNat_eq ?_
  simp [Nat.shiftLeft_eq]

theorem ushiftRight_eq_ofNat (a : Word) (n : Nat) : a >>> n = BitVec.ofNat 32 (a.toNat / 2 ^ n) := by
  refine BitVec.eq_of_toNat_eq ?_
  have hlt : a.toNat / 2 ^ n < 2 ^ 32 := (Nat.div_le_self _ _).trans_lt a.isLt
  rw [BitVec.toNat_ushiftRight, BitVec.toNat_ofNat, Nat.mod_eq_of_lt hlt, Nat.shiftRight_eq_div_pow]

theorem sshiftRight_eq_ofInt (a : Word) (n : Nat) : a.sshiftRight n = BitVec.ofInt 32 (a.toInt / 2 ^ n) := by
  rw [BitVec.sshiftRight, Int.shiftRight_eq_div_pow]
  norm_cast

/-- A rotation to the right: the bits shifted out below come back on top. -/
theorem rotateRight_eq_ofNat (a : Word) {n : Nat} (h : n < 32) :
    a.rotateRight n = BitVec.ofNat 32 (a.toNat / 2 ^ n + a.toNat * 2 ^ (32 - n)) := by
  have hpow : 2 ^ 32 = 2 ^ n * 2 ^ (32 - n) := by rw [← pow_add]; congr 1; omega
  have hlow : a.toNat / 2 ^ n < 2 ^ (32 - n) := Nat.div_lt_of_lt_mul (hpow ▸ a.isLt)
  have hhigh : a.toNat * 2 ^ (32 - n) % 2 ^ 32 = 2 ^ (32 - n) * (a.toNat % 2 ^ n) := by
    rw [hpow, mul_comm (2 ^ n), mul_comm a.toNat, Nat.mul_mod_mul_left]
  have hsum : 2 ^ (32 - n) * (a.toNat % 2 ^ n) + a.toNat / 2 ^ n < 2 ^ 32 := by
    have hmod : a.toNat % 2 ^ n + 1 ≤ 2 ^ n := Nat.mod_lt _ (by positivity)
    calc _ < 2 ^ (32 - n) * (a.toNat % 2 ^ n + 1) := by rw [Nat.mul_succ]; omega
      _ ≤ 2 ^ (32 - n) * 2 ^ n := Nat.mul_le_mul_left _ hmod
      _ = 2 ^ 32 := by rw [hpow, mul_comm]
  refine BitVec.eq_of_toNat_eq ?_
  rw [BitVec.toNat_rotateRight, BitVec.toNat_ofNat, Nat.mod_eq_of_lt h, Nat.shiftRight_eq_div_pow, Nat.shiftLeft_eq, Nat.add_mod,
    hhigh, Nat.or_comm, ← Nat.two_pow_add_eq_or_of_lt hlow,
    Nat.mod_eq_of_lt (hlow.trans_le (Nat.pow_le_pow_right (by decide) (by omega))),
    Nat.add_comm (a.toNat / 2 ^ n), Nat.mod_eq_of_lt hsum]

theorem min_slt (a b : Word) : (if a.slt b then a else b) = BitVec.ofInt 32 (min a.toInt b.toInt) := by
  simp only [BitVec.slt_eq_decide, decide_eq_true_eq]
  split
  · next h => rw [min_eq_left h.le, BitVec.ofInt_toInt]
  · next h => rw [min_eq_right (not_lt.1 h), BitVec.ofInt_toInt]

theorem max_slt (a b : Word) : (if a.slt b then b else a) = BitVec.ofInt 32 (max a.toInt b.toInt) := by
  simp only [BitVec.slt_eq_decide, decide_eq_true_eq]
  split
  · next h => rw [max_eq_right h.le, BitVec.ofInt_toInt]
  · next h => rw [max_eq_left (not_lt.1 h), BitVec.ofInt_toInt]

theorem min_ult (a b : Word) : (if a.ult b then a else b) = BitVec.ofNat 32 (min a.toNat b.toNat) := by
  simp only [BitVec.ult_eq_decide, decide_eq_true_eq]
  split
  · next h => rw [min_eq_left h.le, BitVec.ofNat_toNat, BitVec.setWidth_eq]
  · next h => rw [min_eq_right (not_lt.1 h), BitVec.ofNat_toNat, BitVec.setWidth_eq]

theorem max_ult (a b : Word) : (if a.ult b then b else a) = BitVec.ofNat 32 (max a.toNat b.toNat) := by
  simp only [BitVec.ult_eq_decide, decide_eq_true_eq]
  split
  · next h => rw [max_eq_right h.le, BitVec.ofNat_toNat, BitVec.setWidth_eq]
  · next h => rw [max_eq_left (not_lt.1 h), BitVec.ofNat_toNat, BitVec.setWidth_eq]

/-! ## Register instructions that issue -/

/-- What an operation on two registers does. -/
theorem jSem_aluRR {s : State} {k : Nat} {i : JMn} {w v : Word} (u : Upset)
    (h : aluRR i (getG s k (jRa w)) (getG s k (jRb w)) = some v) : jSem s k i w u = .nxt (setG s k (jRd w) v) := by
  simp only [jSem, h]

/-- What an operation on a register and an immediate does. -/
theorem jSem_aluRI {s : State} {k : Nat} {i : JMn} {w v : Word} (u : Upset)
    (hr : aluRR i (getG s k (jRa w)) (getG s k (jRb w)) = none)
    (h : aluRI i w (getG s k (jRa w)) (getG s k (jRd w)) = some v) : jSem s k i w u = .nxt (setG s k (jRd w) v) := by
  simp only [jSem, hr, h]

section
variable {s s1 : State} {x : CtxId} {f : Upset} {i : JMn} {w v v' : Word} (h : issues s x f i w s1)
include h

/-- An operation on two registers gives its value, in whatever form the value is written. -/
theorem jRow_aluRR (hv : aluRR i (getG s1 (ctxKey x) (jRa w)) (getG s1 (ctxKey x) (jRb w)) = some v) (he : v = v') :
    jRow s x i f .good = gives s s1 x i w v' :=
  he ▸ jRow_completes h (jSem_aluRR .good hv)

/-- An operation on a register and an immediate gives its value. -/
theorem jRow_aluRI (hr : aluRR i (getG s1 (ctxKey x) (jRa w)) (getG s1 (ctxKey x) (jRb w)) = none)
    (hv : aluRI i w (getG s1 (ctxKey x) (jRa w)) (getG s1 (ctxKey x) (jRd w)) = some v) (he : v = v') :
    jRow s x i f .good = gives s s1 x i w v' :=
  he ▸ jRow_completes h (jSem_aluRI .good hr hv)

end

/-- Settles O5: every operation is what its row in Table 6.6 says, by its value as a number. -/
theorem registerOperations : Obligations.RegisterOperations := by
  rintro s x f w s1 a b n rfl rfl rfl
  have hn (c : Word) : c.toNat % 32 < 32 := Nat.mod_lt _ (by decide)
  exact ⟨fun h => jRow_aluRR h rfl (by simp [BitVec.ofNat_add]),
    fun h => jRow_aluRR h rfl (BitVec.eq_of_toInt_eq (by simp [BitVec.toInt_sub])),
    fun h => jRow_aluRR h rfl rfl, fun h => jRow_aluRR h rfl rfl, fun h => jRow_aluRR h rfl rfl, fun h => jRow_aluRR h rfl rfl,
    fun h => jRow_aluRR h rfl (shiftLeft_eq_ofNat _ _), fun h => jRow_aluRR h rfl (ushiftRight_eq_ofNat _ _),
    fun h => jRow_aluRR h rfl (sshiftRight_eq_ofInt _ _), fun h => jRow_aluRR h rfl (rotateRight_eq_ofNat _ (hn _)),
    fun h => jRow_aluRR h rfl (bit01_slt _ _), fun h => jRow_aluRR h rfl (bit01_ult _ _),
    fun h => jRow_aluRR h rfl (min_slt _ _), fun h => jRow_aluRR h rfl (max_slt _ _),
    fun h => jRow_aluRR h rfl (min_ult _ _), fun h => jRow_aluRR h rfl (max_ult _ _),
    fun h => jRow_aluRR h rfl (by simp [BitVec.ofNat_mul]), fun h => jRow_aluRR h rfl rfl, fun h => jRow_aluRR h rfl rfl⟩

/-- Settles O7: the immediate as a word with its sign or without. -/
theorem immediateOperations : Obligations.ImmediateOperations := by
  rintro s x f w s1 a z e rfl rfl rfl
  have himm : jImm w = (w.setWidth 16).signExtend 32 := jImm_eq_immS w
  have hupper : BitVec.ofNat 32 (jImmU w * 2 ^ 16) = (w.setWidth 16).setWidth 32 <<< 16 := by
    rw [shiftLeft_eq_ofNat, ← ofNat_jImmU_word, BitVec.toNat_ofNat]
    exact BitVec.eq_of_toNat_eq (by simp [Nat.mod_mul_mod])
  exact ⟨fun h => jRow_aluRI h rfl rfl (by rw [himm]), fun h => jRow_aluRI h rfl rfl (by rw [ofNat_jImmU_word]),
    fun h => jRow_aluRI h rfl rfl (by rw [ofNat_jImmU_word]), fun h => jRow_aluRI h rfl rfl (by rw [ofNat_jImmU_word]),
    fun h => jRow_aluRI h rfl rfl (by rw [himm, bit01_slt]), fun h => jRow_aluRI h rfl rfl (by rw [himm, bit01_ult]),
    fun h => jRow_aluRI h rfl rfl hupper⟩

end Sys2Proof.Machine

/-! SUPPORT. The operations on bits (R129, R130): leading zeros, ones, bytes and bits reversed, and the bit fields. -/

namespace Sys2Proof.Machine

/-! ## Operations of opcode 0x00 on one register -/

/-- Leading zeros, by their bounds. -/
theorem clz32_bounds (a : Word) :
    clz32 a ≤ 32 ∧ a.toNat < 2 ^ (32 - clz32 a) ∧ (clz32 a < 32 → 2 ^ (31 - clz32 a) ≤ a.toNat) := by
  unfold clz32
  split
  · next h => simp [h]
  · next h =>
    have hlog : a.toNat.log2 < 32 := (Nat.log2_lt h).2 a.isLt
    have hlt : 32 - (31 - a.toNat.log2) = a.toNat.log2 + 1 := by omega
    have hle : 31 - (31 - a.toNat.log2) = a.toNat.log2 := by omega
    rw [hlt, hle]
    exact ⟨by omega, Nat.lt_log2_self, fun _ => Nat.log2_self_le h⟩

theorem popc32_eq_countP (a : Word) : popc32 a = (List.range 32).countP (fun i => a.getLsbD i) := by
  rw [popc32, List.countP_eq_length_filter]
  congr 2
  exact funext (bitAt_eq_getLsbD a)

/-- Byte `i` of a little-endian number. -/
theorem leNat_byte (l : List Byte) (i : Nat) : leNat l / 256 ^ i % 256 = (l.getD i 0).toNat := by
  induction l generalizing i with
  | nil => simp [leNat]
  | cons b r ih =>
    have hb := b.isLt
    cases i with
    | zero => simp [leNat]; omega
    | succ i =>
      have hrest : (b.toNat + 256 * leNat r) / 256 = leNat r := by omega
      rw [leNat, pow_succ', ← Nat.div_div_eq_div_mul, hrest, ih, List.getD_cons_succ]

theorem leNat_lt (l : List Byte) : leNat l < 256 ^ l.length := by
  induction l with
  | nil => simp [leNat]
  | cons b r ih =>
    have hb := b.isLt
    rw [leNat, List.length_cons, pow_succ]
    omega

/-- Byte `i` of the word of four bytes. -/
theorem word_leNat_byte {l : List Byte} (h : l.length = 4) (i : Nat) :
    (BitVec.ofNat 32 (leNat l)).toNat / 256 ^ i % 256 = (l.getD i 0).toNat := by
  have hlt : leNat l < 2 ^ 32 := by simpa [h] using leNat_lt l
  rw [BitVec.toNat_ofNat, Nat.mod_eq_of_lt hlt, leNat_byte]

/-- Byte `i` of the reversed word is byte `3 - i` of the word. -/
theorem bswap32_byte (a : Word) {i : Nat} (h : i < 4) : (bswap32 a).toNat / 256 ^ i % 256 = a.toNat / 256 ^ (3 - i) % 256 := by
  have hlen : (leBytes 4 a.toNat).reverse.length = 4 := by simp
  have hbyte : (leBytes 4 a.toNat).reverse.getD i 0 = BitVec.ofNat 8 (a.toNat / 256 ^ (3 - i)) := by
    rw [List.getD_eq_getElem _ _ (hlen ▸ h), List.getElem_reverse, getElem_leBytes, length_leBytes]
  rw [bswap32, word_leNat_byte hlen, hbyte, BitVec.toNat_ofNat]

/-- The low `m` bits of a word, the lowest first. -/
def revBits (a : Word) : Nat → Nat
  | 0 => 0
  | m + 1 => Nat.bit (a.getLsbD m) (revBits a m)

theorem testBit_revBits (a : Word) {m j : Nat} (h : j < m) : (revBits a m).testBit j = a.getLsbD (m - 1 - j) := by
  induction m generalizing j with
  | zero => omega
  | succ m ih =>
    cases j with
    | zero => simp [revBits]
    | succ j =>
      rw [revBits, Nat.testBit_bit_succ, ih (by omega)]
      congr 1
      omega

/-- The sum that reverses a word has put its low `m` bits on top. -/
theorem foldl_brev (a : Word) {m : Nat} (h : m ≤ 32) :
    (List.range m).foldl (fun n i => n + if bitAt a i then 2 ^ (31 - i) else 0) 0 = 2 ^ (32 - m) * revBits a m := by
  induction m with
  | zero => simp [revBits]
  | succ m ih =>
    have hpow : 2 ^ (32 - m) = 2 * 2 ^ (31 - m) := by rw [← pow_succ']; congr 1; omega
    rw [List.range_succ, List.foldl_append, ih (by omega), List.foldl_cons, List.foldl_nil, revBits,
      show 32 - (m + 1) = 31 - m by omega, bitAt_eq_getLsbD, hpow]
    cases a.getLsbD m
    · simp [Nat.bit]; ring
    · simp [Nat.bit]; ring

theorem getLsbD_brev32 (a : Word) {i : Nat} (h : i < 32) : (brev32 a).getLsbD i = a.getLsbD (31 - i) := by
  rw [brev32, foldl_brev a le_rfl, BitVec.getLsbD_ofNat]
  simp [h, testBit_revBits a h]

/-! ## Bit fields -/

/-- A bit of a field. -/
theorem testBit_fld (w : Word) (hi lo j : Nat) : (fld w hi lo).testBit j = (decide (j < hi + 1 - lo) && w.getLsbD (lo + j)) := by
  rw [fld, Nat.testBit_mod_two_pow, Nat.testBit_div_two_pow, BitVec.testBit_toNat, Nat.add_comm j]

/-- Setting a field puts the bits of the value there and leaves every other bit. -/
theorem getLsbD_setFld (w : Word) {hi lo : Nat} (v : Nat) (h : lo ≤ hi) (h32 : hi < 32) (i : Nat) :
    (setFld w hi lo v).getLsbD i = if lo ≤ i ∧ i ≤ hi then v.testBit (i - lo) else w.getLsbD i := by
  split
  · next hin =>
    have hfld := congrArg (Nat.testBit · (i - lo)) (fld_setFld_self w hi lo v h h32)
    simp only [testBit_fld, Nat.testBit_mod_two_pow, Nat.add_sub_cancel' hin.1] at hfld
    have hlt : i - lo < hi + 1 - lo := by omega
    simpa [hlt] using hfld
  · next hout =>
    rw [← bitAt_eq_getLsbD, ← bitAt_eq_getLsbD]
    exact bitAt_setFld_apart w v h h32 (by omega)

/-- Bit `i` of EXTS: of the field below its length, above it the sign. -/
theorem getLsbD_exts (a : Word) (p : Nat) {l i : Nat} (hl : 0 < l) (h : i < 32) :
    (wordOfInt (sext l (a.toNat / 2 ^ p % 2 ^ l))).getLsbD i = if i < l then a.getLsbD (p + i) else a.getLsbD (p + l - 1) := by
  have hbit {j : Nat} (hj : j < l) : (BitVec.ofNat l (a.toNat / 2 ^ p % 2 ^ l)).getLsbD j = a.getLsbD (p + j) := by
    rw [BitVec.getLsbD_ofNat, Nat.testBit_mod_two_pow, Nat.testBit_div_two_pow, BitVec.testBit_toNat]
    simp [hj, Nat.add_comm]
  rw [wordOfInt_sext hl, BitVec.getLsbD_signExtend, BitVec.msb_eq_getLsbD_last, hbit (Nat.sub_lt hl (by decide)),
    ← Nat.add_sub_assoc hl]
  simp only [h, decide_true, Bool.true_and]
  split
  · next hi => exact hbit hi
  · rfl

/-! ## The decoder at opcode 0x02 -/

theorem jIf_eq_some {b : Bool} {m : Option JMn} {i : JMn} : jIf b m = some i ↔ b = true ∧ m = some i := by
  cases b <;> simp [jIf]

theorem jNth_ne {l : List JMn} {i : JMn} (h : i ∉ l) (n : Nat) : jNth l n ≠ some i := fun hn => h (List.mem_of_getElem? hn)

theorem jDecodeSys_ne_ins (pair : Bool) (w : Word) : jDecodeSys pair w ≠ some .ins := by
  unfold jDecodeSys
  split <;> simp [jIf_eq_some]

theorem jDecodeCp_ne_ins (w : Word) : jDecodeCp w ≠ some .ins := by
  unfold jDecodeCp
  split <;> simp (disch := decide) [jIf_eq_some, jNth_ne]

/-- A bit field lies in the word (R129): other encodings are reserved. -/
theorem field_le_of_jDecode_ins {pair : Bool} {w : Word} (h : jDecode pair w = some .ins) : jRb w + fld w 10 6 + 1 ≤ 32 := by
  unfold jDecode at h
  split at h
  case h_3 => exact of_decide_eq_true (jIf_eq_some.1 h).1
  all_goals
    simp (disch := decide) [jDecodeAlu, jDecodeFpu, jIf_eq_some, jNth_ne, jDecodeSys_ne_ins, jDecodeCp_ne_ins] at h

/-- Settles O6: each operation's value, and for the bit fields each of its bits. -/
theorem bitFieldOperations : Obligations.BitFieldOperations := by
  constructor
  · rintro s x f w s1 a rfl
    refine ⟨fun h => ?_, fun h => jRow_aluRR h rfl (by rw [popc32_eq_countP]), fun h => ?_, fun h => ?_⟩
    · obtain ⟨hle, hlt, hge⟩ := clz32_bounds (getG s1 (ctxKey x) (jRa w))
      exact ⟨_, hle, hlt, hge, jRow_aluRR h rfl rfl⟩
    · exact ⟨_, jRow_aluRR h rfl rfl, fun i hi => bswap32_byte _ hi⟩
    · exact ⟨_, jRow_aluRR h rfl rfl, fun i hi => getLsbD_brev32 _ hi⟩
  · rintro s x f w s1 a d p l rfl rfl rfl rfl
    have hp : jRb w = w.toNat / 2 ^ 11 % 32 := rfl
    have hl : fld w 10 6 + 1 = w.toNat / 2 ^ 6 % 32 + 1 := rfl
    refine ⟨fun h => jRow_aluRI h rfl rfl (shiftLeft_eq_ofNat _ _), fun h => jRow_aluRI h rfl rfl (ushiftRight_eq_ofNat _ _),
      fun h => jRow_aluRI h rfl rfl (sshiftRight_eq_ofInt _ _),
      fun h => jRow_aluRI h rfl rfl (rotateRight_eq_ofNat _ (Nat.mod_lt _ (by decide))), fun h => jRow_aluRI h rfl rfl rfl,
      fun h => ⟨_, jRow_aluRI h rfl rfl rfl, fun i hi => getLsbD_exts _ _ (Nat.succ_pos _) hi⟩,
      fun h => ⟨_, jRow_aluRI h rfl rfl rfl, fun i hi => ?_⟩⟩
    obtain ⟨-, -, hdec, -⟩ := h
    have hfield := field_le_of_jDecode_ins hdec
    rw [getLsbD_setFld _ _ (by omega) (by omega), hp, hl, BitVec.testBit_toNat]
    refine ite_congr (propext ?_) (fun _ => rfl) (fun _ => rfl)
    omega

end Sys2Proof.Machine

/-! SUPPORT. The registers and the hidden state of a Jaedin context (R119, R120, R147 to R154): where its registers stand, and what
each operation on a context leaves. -/

namespace Sys2Proof.Machine

/-! ## Keys -/

theorem ctxKey_lt (x : CtxId) : ctxKey x < 66 := by
  cases x with
  | pe n k => simp only [ctxKey]; omega
  | pair b => cases b <;> simp [ctxKey]

theorem ctxKey_pe_lt (n k : Fin 8) : ctxKey (.pe n k) < 64 := by simp only [ctxKey]; omega

theorem ctxKey_pe_div (n k : Fin 8) : ctxKey (.pe n k) / 8 = n.val := by simp only [ctxKey]; omega

theorem ctxKey_pe_mod (n k : Fin 8) : ctxKey (.pe n k) % 8 = k.val := by simp only [ctxKey]; omega

@[simp] theorem onEngine_pe (n k : Fin 8) : onEngine (ctxKey (.pe n k)) = true := decide_eq_true (ctxKey_pe_lt n k)

@[simp] theorem ctxBlk_pe (n k : Fin 8) : ctxBlk (ctxKey (.pe n k)) = n.val := by
  rw [ctxBlk, if_pos (ctxKey_pe_lt n k), ctxKey_pe_div]

@[simp] theorem ctxMaster_pe (n k : Fin 8) : ctxMaster (ctxKey (.pe n k)) = n.val + 1 := by rw [ctxMaster, ctxBlk_pe]

/-! ## Where the registers of a context stand (Tables 6.12, 6.13, 15.8) -/

theorem ctxReg_ne (k : Nat) {m m' : Nat} (h : m ≠ m') : ctxReg k m ≠ ctxReg k m' := by
  unfold ctxReg PE_CTX_CTRL
  split <;> omega

theorem gReg_ne_ctxReg {k i m : Nat} (hi : i < 32) (hm : m < 32) : gReg k i ≠ ctxReg k m := by
  unfold gReg ctxReg PE_CTX_G PE_CTX_CTRL pairG
  split <;> omega

/-- The registers of an engine itself (Table 6.12) are none of a context. -/
theorem pe_ne_ctxReg {n o k m : Nat} (ho : o < 0x100) (hm : m < 32) : PE_CTRL n + o ≠ ctxReg k m := by
  unfold ctxReg PE_CTX_CTRL PE_CTRL
  split <;> omega

theorem closeTouches_ctxReg {k m : Nat} (hk : k < 66) (hm : m < 32) : closeTouches (ctxReg k m) = false := by
  simp only [closeTouches, ctxReg, PE_CTX_CTRL, MEM_FT_STAT, MEM_DG_IRQSTAT, Bool.or_eq_false_iff, Bool.and_eq_false_iff,
    decide_eq_false_iff_not, beq_eq_false_iff_ne]
  split <;> omega

theorem closeTouches_gReg {k i : Nat} (hk : k < 66) (hi : i < 32) : closeTouches (gReg k i) = false := by
  unfold gReg PE_CTX_G pairG
  split
  all_goals
    simp only [closeTouches, MEM_FT_STAT, MEM_DG_IRQSTAT, Bool.or_eq_false_iff, Bool.and_eq_false_iff, decide_eq_false_iff_not,
      beq_eq_false_iff_ne]
    omega

theorem closeTouches_pe {n o : Nat} (hn : n < 8) (ho : o < 0x100) : closeTouches (PE_CTRL n + o) = false := by
  simp only [closeTouches, PE_CTRL, MEM_FT_STAT, MEM_DG_IRQSTAT, Bool.or_eq_false_iff, Bool.and_eq_false_iff,
    decide_eq_false_iff_not, beq_eq_false_iff_ne]
  omega

/-! ## Reads after a write of one register of the context -/

@[simp] theorem rd_wr_ctxReg (s : State) (k : Nat) {m m' : Nat} (v : Word) (h : m' ≠ m) :
    (s.wr (ctxReg k m) v).rd (ctxReg k m') = s.rd (ctxReg k m') :=
  rd_wr_ne s v (ctxReg_ne k h)

@[simp] theorem cst_wr (s : State) (k : Nat) {m : Nat} (v : Word) (h : 1 ≠ m) : cst (s.wr (ctxReg k m) v) k = cst s k := by
  rw [cst, State.fl, rd_wr_ctxReg s k v h]
  rfl

@[simp] theorem ctxHM_wr (s : State) (k : Nat) {m : Nat} (v : Word) (h : 1 ≠ m) : ctxHM (s.wr (ctxReg k m) v) k = ctxHM s k := by
  rw [ctxHM, State.bt, rd_wr_ctxReg s k v h]
  rfl

@[simp] theorem ctxIE_wr (s : State) (k : Nat) {m : Nat} (v : Word) (h : 1 ≠ m) : ctxIE (s.wr (ctxReg k m) v) k = ctxIE s k := by
  rw [ctxIE, State.bt, rd_wr_ctxReg s k v h]
  rfl

@[simp] theorem ctxPC_wr (s : State) (k : Nat) {m : Nat} (v : Word) (h : 2 ≠ m) : ctxPC (s.wr (ctxReg k m) v) k = ctxPC s k := by
  rw [ctxPC, rd_wr_ctxReg s k v h]
  rfl

theorem getG_wr {k i m : Nat} (hi : i < 32) (hm : m < 32) (s : State) (v : Word) :
    getG (s.wr (ctxReg k m) v) k i = getG s k i := by
  rw [getG, getG, rd_wr_ne s v (gReg_ne_ctxReg hi hm)]

theorem vBase_wr {k m : Nat} (hm : m < 32) (s : State) (v : Word) : vBase (s.wr (ctxReg k m) v) k = vBase s k := by
  unfold vBase
  rw [rd_wr_ne s v (pe_ne_ctxReg (by decide : 4 < 0x100) hm)]

@[simp] theorem cst_setCtx (s : State) (j : Nat) (h : CtxH) (k : Nat) : cst (s.setCtx j h) k = cst s k := rfl
@[simp] theorem ctxHM_setCtx (s : State) (j : Nat) (h : CtxH) (k : Nat) : ctxHM (s.setCtx j h) k = ctxHM s k := rfl
@[simp] theorem ctxIE_setCtx (s : State) (j : Nat) (h : CtxH) (k : Nat) : ctxIE (s.setCtx j h) k = ctxIE s k := rfl
@[simp] theorem ctxPC_setCtx (s : State) (j : Nat) (h : CtxH) (k : Nat) : ctxPC (s.setCtx j h) k = ctxPC s k := rfl
@[simp] theorem getG_setCtx (s : State) (j : Nat) (h : CtxH) (k i : Nat) : getG (s.setCtx j h) k i = getG s k i := rfl
@[simp] theorem vBase_setCtx (s : State) (j : Nat) (h : CtxH) (k : Nat) : vBase (s.setCtx j h) k = vBase s k := rfl

/-! ## Fields of STAT (Table 6.1) -/

@[simp] theorem cst_setBt (s : State) (k : Nat) {i : Nat} (b : Bool) (h : i < 30) : cst (s.setBt (ctxReg k 1) i b) k = cst s k := by
  rw [cst, State.fl, rd_setBt_self, fld_putBit_apart _ _ (by omega) (by decide) (.inl h)]
  rfl

@[simp] theorem ctxHM_setBt_self (s : State) (k : Nat) (b : Bool) : ctxHM (s.setBt (ctxReg k 1) 29 b) k = b :=
  bt_setBt_self s _ _ _ (by decide)

@[simp] theorem ctxHM_setBt_IE (s : State) (k : Nat) (b : Bool) : ctxHM (s.setBt (ctxReg k 1) 28 b) k = ctxHM s k :=
  bt_setBt_ne s _ _ _ _ (by decide) (by decide)

@[simp] theorem ctxIE_setBt_self (s : State) (k : Nat) (b : Bool) : ctxIE (s.setBt (ctxReg k 1) 28 b) k = b :=
  bt_setBt_self s _ _ _ (by decide)

@[simp] theorem cst_setFl_self (s : State) (k st : Nat) : cst (s.setFl (ctxReg k 1) 31 30 st) k = st % 4 :=
  fl_setFl_self s _ _ _ _ (by decide) (by decide)

@[simp] theorem ctxHM_setFl_state (s : State) (k st : Nat) : ctxHM (s.setFl (ctxReg k 1) 31 30 st) k = ctxHM s k := by
  rw [ctxHM, State.bt, rd_setFl_self, bitAt_setFld_apart _ _ (by decide) (by decide) (.inr (by decide))]
  rfl

@[simp] theorem ctxIE_setFl_state (s : State) (k st : Nat) : ctxIE (s.setFl (ctxReg k 1) 31 30 st) k = ctxIE s k := by
  rw [ctxIE, State.bt, rd_setFl_self, bitAt_setFld_apart _ _ (by decide) (by decide) (.inr (by decide))]
  rfl

/-! ## The general registers -/

@[simp] theorem ctx_setG (s : State) (k i : Nat) (v : Word) (j : Nat) : (setG s k i v).ctx j = s.ctx j := by
  unfold setG
  split <;> rfl

theorem rd_setG_ne (s : State) {k i a : Nat} (v : Word) (h : i = 0 ∨ a ≠ gReg k i) : (setG s k i v).rd a = s.rd a := by
  unfold setG
  split
  · rfl
  · next hi => exact rd_wr_ne s v (h.resolve_left hi)

theorem rd_setG_ctxReg {k i m : Nat} (hi : i < 32) (hm : m < 32) (s : State) (v : Word) :
    (setG s k i v).rd (ctxReg k m) = s.rd (ctxReg k m) :=
  rd_setG_ne s v (.inr (gReg_ne_ctxReg hi hm).symm)

theorem getG_setG_self (s : State) {k i : Nat} (v : Word) (h : i ≠ 0) : getG (setG s k i v) k i = v := by
  simp [getG, setG, h]

/-- Writing a general register writes the register store alone. -/
theorem setG_eq (s : State) (k i : Nat) (v : Word) : setG s k i v = { s with regs := (setG s k i v).regs } := by
  unfold setG
  split <;> rfl

theorem jRd_lt (w : Word) : jRd w < 32 := fld_lt w 25 21
theorem jRb_lt (w : Word) : jRb w < 32 := fld_lt w 15 11

/-! ## The issue stage, ISSUED and the position -/

@[simp] theorem rd_noteIssue (s : State) (k t g a : Nat) : (noteIssue s k t g).rd a = s.rd a := rfl

@[simp] theorem ctx_noteIssue_self (s : State) (k t g : Nat) : (noteIssue s k t g).ctx k = { s.ctx k with readyAt := t + g } :=
  ctx_setCtx_self s k _

@[simp] theorem cst_noteIssue (s : State) (k t g j : Nat) : cst (noteIssue s k t g) j = cst s j := rfl
@[simp] theorem ctxHM_noteIssue (s : State) (k t g j : Nat) : ctxHM (noteIssue s k t g) j = ctxHM s j := rfl
@[simp] theorem ctxPC_noteIssue (s : State) (k t g j : Nat) : ctxPC (noteIssue s k t g) j = ctxPC s j := rfl
@[simp] theorem vBase_noteIssue (s : State) (k t g j : Nat) : vBase (noteIssue s k t g) j = vBase s j := rfl

@[simp] theorem ctx_countIssue (s : State) (k j : Nat) : (countIssue s k).ctx j = s.ctx j := rfl

@[simp] theorem rd_countIssue_self (s : State) (k : Nat) : (countIssue s k).rd (ctxReg k 14) = s.rd (ctxReg k 14) + 1 := by
  simp [countIssue]

@[simp] theorem rd_countIssue_ctxReg (s : State) (k : Nat) {m : Nat} (h : m ≠ 14) :
    (countIssue s k).rd (ctxReg k m) = s.rd (ctxReg k m) :=
  rd_wr_ctxReg s k _ h

@[simp] theorem cst_countIssue (s : State) (k : Nat) : cst (countIssue s k) k = cst s k := cst_wr s k _ (by decide)
@[simp] theorem ctxHM_countIssue (s : State) (k : Nat) : ctxHM (countIssue s k) k = ctxHM s k := ctxHM_wr s k _ (by decide)
@[simp] theorem ctxPC_countIssue (s : State) (k : Nat) : ctxPC (countIssue s k) k = ctxPC s k := ctxPC_wr s k _ (by decide)

@[simp] theorem succOf_countIssue (s : State) (k : Nat) : succOf (countIssue s k) k = succOf s k := by
  simp only [succOf, ctx_countIssue, ctxPC_countIssue]

@[simp] theorem ctxPC_setPC (s : State) (k a : Nat) : ctxPC (setPC s k a) k = a % 2 ^ 32 := by
  rw [ctxPC, setPC, rd_wr_self, BitVec.toNat_ofNat]

@[simp] theorem ctx_setPC (s : State) (k a j : Nat) : (setPC s k a).ctx j = s.ctx j := rfl

@[simp] theorem rd_setPC (s : State) (k a : Nat) {m : Nat} (h : m ≠ 2) : (setPC s k a).rd (ctxReg k m) = s.rd (ctxReg k m) :=
  rd_wr_ctxReg s k _ h

@[simp] theorem cst_setPC (s : State) (k a : Nat) : cst (setPC s k a) k = cst s k := cst_wr s k _ (by decide)
@[simp] theorem ctxHM_setPC (s : State) (k a : Nat) : ctxHM (setPC s k a) k = ctxHM s k := ctxHM_wr s k _ (by decide)

/-! ## After an instruction (R120, R132) -/

@[simp] theorem ctx_advance_self (s : State) (k : Nat) :
    (advance s k).ctx k = { s.ctx k with slot := none, succ := none, blk := .none } := by
  simp [advance]

@[simp] theorem rd_advance (s : State) (k : Nat) {m : Nat} (h : m ≠ 2) : (advance s k).rd (ctxReg k m) = s.rd (ctxReg k m) :=
  rd_setPC _ k _ h

@[simp] theorem ctxPC_advance (s : State) (k : Nat) : ctxPC (advance s k) k = ((s.ctx k).slot.getD (succOf s k)) % 2 ^ 32 :=
  ctxPC_setPC _ k _

@[simp] theorem cst_advance (s : State) (k : Nat) : cst (advance s k) k = cst s k := cst_setPC _ k _

@[simp] theorem ctx_transferTo_self (s : State) (k d : Nat) :
    (transferTo s k d).ctx k = { s.ctx k with slot := some d, succ := none, blk := .none } := by
  simp [transferTo]

@[simp] theorem rd_transferTo (s : State) (k d : Nat) {m : Nat} (h : m ≠ 2) :
    (transferTo s k d).rd (ctxReg k m) = s.rd (ctxReg k m) :=
  rd_setPC _ k _ h

@[simp] theorem ctxPC_transferTo (s : State) (k d : Nat) : ctxPC (transferTo s k d) k = succOf s k % 2 ^ 32 := ctxPC_setPC _ k _

/-! ## The state of a context and its watchdog (Table 6.1, R154) -/

@[simp] theorem cst_setCst (s : State) (k st : Nat) : cst (setCst s k st) k = st % 4 := cst_setFl_self _ k st

@[simp] theorem rd_setCst (s : State) (k st : Nat) {m : Nat} (h : m ≠ 1) : (setCst s k st).rd (ctxReg k m) = s.rd (ctxReg k m) :=
  rd_setFl_ne _ _ _ _ (ctxReg_ne k h)

@[simp] theorem ctx_setCst_self (s : State) (k st : Nat) :
    (setCst s k st).ctx k = { s.ctx k with wdUsed := wdCount s k, wdFrom := s.cycles } := by
  rw [setCst, State.setFl, ctx_wr, ctx_setCtx_self]

@[simp] theorem ctxIE_setCst (s : State) (k st : Nat) : ctxIE (setCst s k st) k = ctxIE s k := ctxIE_setFl_state _ k st

/-- A count reloaded in this cycle is 0. -/
theorem wdCount_of_reloaded {s : State} {k : Nat} (hu : (s.ctx k).wdUsed = 0) (hf : (s.ctx k).wdFrom = s.cycles) :
    wdCount s k = 0 := by
  simp [wdCount, hu, hf]

/-! ## The end of a command -/

section
variable {k : Nat} (hk : k < 66) (s : State)
include hk

theorem close_ctxReg {m : Nat} (hm : m < 32) : (close s).rd (ctxReg k m) = s.rd (ctxReg k m) := close_rd s (closeTouches_ctxReg hk hm)

theorem close_cst : cst (close s) k = cst s k := close_fl s 31 30 (closeTouches_ctxReg hk (by decide))
theorem close_ctxHM : ctxHM (close s) k = ctxHM s k := close_bt s 29 (closeTouches_ctxReg hk (by decide))
theorem close_ctxIE : ctxIE (close s) k = ctxIE s k := close_bt s 28 (closeTouches_ctxReg hk (by decide))
theorem close_ctxPC : ctxPC (close s) k = ctxPC s k := congrArg BitVec.toNat (close_ctxReg hk s (by decide))

theorem close_getG {i : Nat} (hi : i < 32) : getG (close s) k i = getG s k i := by
  rw [getG, getG, close_rd s (closeTouches_gReg hk hi)]

theorem close_vBase : vBase (close s) k = vBase s k := by
  unfold vBase
  split
  · next h => rw [close_rd s (closeTouches_pe (by omega) (by decide : 4 < 0x100))]
  · rfl

end

@[simp] theorem close_ctx (s : State) (k : Nat) : (close s).ctx k = s.ctx k := by
  rw [State.ctx, close_ctxH]
  rfl

/-- The end of a command leaves the count of a watchdog. -/
theorem close_wdCount {k : Nat} (hk : k < 66) (s : State) : wdCount (close s) k = wdCount s k := by
  have hwd : (close s).bt (ctxReg k 11) 31 = s.bt (ctxReg k 11) 31 := close_bt s 31 (closeTouches_ctxReg hk (by decide))
  have hcounts : wdCounts (close s) k = wdCounts s k := by rw [wdCounts, wdCounts, hwd, close_cst hk]
  rw [wdCount, wdCount, hcounts, close_ctx, close_cycles]

end Sys2Proof.Machine

/-! SUPPORT. Exceptions and the end of an instruction (R120, R132, R147 to R149): what the entry of an exception saves and leaves, when
nothing waits for the boundary of a context, and where an instruction that issued leaves its context. -/

namespace Sys2Proof.Machine

/-! ## The entry of an exception (R147, R148) -/

/-- TADDR, where the exception has an address. -/
def setTaddr (s : State) (k : Nat) : Option Nat → State
  | some a => s.wr (ctxReg k 5) (BitVec.ofNat 32 a)
  | none => s

/-- What the entry of an exception saves, with handler mode set. -/
def excSave (s : State) (k : Nat) (rpc rnext cause : Word) (ta : Option Nat) : State :=
  (setTaddr (((s.wr (ctxReg k 3) rpc).wr (ctxReg k 16) rnext).wr (ctxReg k 4) cause) k ta).setBt (ctxReg k 1) 29 true

/-- The context at the address of a handler, with no slot and no block left. -/
def excAt (s : State) (k pc : Nat) : State :=
  (setPC s k pc).setCtx k { (setPC s k pc).ctx k with slot := none, succ := none, blk := .none }

/-- The word that CAUSE takes. -/
def causeWord (code : Nat) (slot : Bool) (sub : Nat) : Word := BitVec.ofNat 32 (slot.toNat * 2 ^ 31 + sub % 256 * 2 ^ 16 + code)

/-- The entry of an exception that is no double fault. -/
def excEntry (s : State) (k code rpc rnext : Nat) (slot : Bool) (sub : Nat) (ta : Option Nat) : State :=
  excAt (excSave s k (BitVec.ofNat 32 rpc) (BitVec.ofNat 32 rnext) (causeWord code slot sub) ta) k
    (vBase (excSave s k (BitVec.ofNat 32 rpc) (BitVec.ofNat 32 rnext) (causeWord code slot sub) ta) k + code * 0x40)

/-- The exception is no double fault: the context is outside handler mode, or it is DBUSW, WDOG or INT (R153). -/
abbrev NoDoubleFault (s : State) (k code : Nat) : Prop := ctxHM s k = false ∨ code = 6 ∨ code = 13 ∨ code = 14

theorem takeExc_eq_excEntry {s : State} {k code : Nat} (h : NoDoubleFault s k code) (rpc rnext : Nat) (slot : Bool) (sub : Nat)
    (ta : Option Nat) : takeExc s k code rpc rnext slot sub ta = excEntry s k code rpc rnext slot sub ta := by
  have hno : ¬(ctxHM s k = true ∧ code ≠ 6 ∧ code ≠ 13 ∧ code ≠ 14) := by
    rintro ⟨hm, h6, h13, h14⟩
    rcases h with h | h | h | h
    · exact absurd hm (by simp [h])
    · exact h6 h
    · exact h13 h
    · exact h14 h
  rw [takeExc, if_neg hno]
  cases ta <;> rfl

theorem takeExc_double {s : State} {k code : Nat} (h : ctxHM s k = true) (h6 : code ≠ 6) (h13 : code ≠ 13) (h14 : code ≠ 14)
    (rpc rnext : Nat) (slot : Bool) (sub : Nat) (ta : Option Nat) :
    takeExc s k code rpc rnext slot sub ta = ctxFault s k code (if code = 3 then rpc else ctxPC s k) := by
  rw [takeExc, if_pos ⟨h, h6, h13, h14⟩]

section
variable (s : State) (k : Nat) (ta : Option Nat)

@[simp] theorem rd_setTaddr {m : Nat} (h : m ≠ 5) : (setTaddr s k ta).rd (ctxReg k m) = s.rd (ctxReg k m) := by
  cases ta with
  | none => rfl
  | some a => exact rd_wr_ctxReg s k _ h

@[simp] theorem ctx_setTaddr (j : Nat) : (setTaddr s k ta).ctx j = s.ctx j := by cases ta <;> rfl

theorem setTaddr_mem : (setTaddr s k ta).mem = s.mem := by cases ta <;> rfl

theorem getG_setTaddr {i : Nat} (hi : i < 32) : getG (setTaddr s k ta) k i = getG s k i := by
  cases ta with
  | none => rfl
  | some a => exact getG_wr hi (by decide) s _

variable (rpc rnext cause : Word)

@[simp] theorem ctx_excSave (j : Nat) : (excSave s k rpc rnext cause ta).ctx j = s.ctx j := by
  rw [excSave, State.setBt, ctx_wr, ctx_setTaddr, ctx_wr, ctx_wr, ctx_wr]

/-- The registers of the context that no exception saves stay. -/
theorem rd_excSave {m : Nat} (h : m ∉ [1, 3, 4, 5, 16]) :
    (excSave s k rpc rnext cause ta).rd (ctxReg k m) = s.rd (ctxReg k m) := by
  simp only [List.mem_cons, List.not_mem_nil, or_false, not_or] at h
  obtain ⟨h1, h3, h4, h5, h16⟩ := h
  rw [excSave, rd_setBt_ne _ _ _ (ctxReg_ne k h1), rd_setTaddr _ _ _ h5, rd_wr_ctxReg _ _ _ h4, rd_wr_ctxReg _ _ _ h16,
    rd_wr_ctxReg _ _ _ h3]

theorem rd_excSave_rpc : (excSave s k rpc rnext cause ta).rd (ctxReg k 3) = rpc := by
  rw [excSave, rd_setBt_ne _ _ _ (ctxReg_ne k (by decide)), rd_setTaddr _ _ _ (by decide), rd_wr_ctxReg _ _ _ (by decide),
    rd_wr_ctxReg _ _ _ (by decide), rd_wr_self]

theorem rd_excSave_rnext : (excSave s k rpc rnext cause ta).rd (ctxReg k 16) = rnext := by
  rw [excSave, rd_setBt_ne _ _ _ (ctxReg_ne k (by decide)), rd_setTaddr _ _ _ (by decide), rd_wr_ctxReg _ _ _ (by decide),
    rd_wr_self]

theorem rd_excSave_cause : (excSave s k rpc rnext cause ta).rd (ctxReg k 4) = cause := by
  rw [excSave, rd_setBt_ne _ _ _ (ctxReg_ne k (by decide)), rd_setTaddr _ _ _ (by decide), rd_wr_self]

theorem rd_excSave_taddr (a : Nat) : (excSave s k rpc rnext cause (some a)).rd (ctxReg k 5) = BitVec.ofNat 32 a := by
  rw [excSave, rd_setBt_ne _ _ _ (ctxReg_ne k (by decide)), setTaddr, rd_wr_self]

/-- STAT but for HM stays. -/
theorem rd_excSave_stat : (excSave s k rpc rnext cause ta).rd (ctxReg k 1) = putBit (s.rd (ctxReg k 1)) 29 true := by
  rw [excSave, rd_setBt_self, rd_setTaddr _ _ _ (by decide), rd_wr_ctxReg _ _ _ (by decide), rd_wr_ctxReg _ _ _ (by decide),
    rd_wr_ctxReg _ _ _ (by decide)]

theorem getG_excSave {i : Nat} (hi : i < 32) : getG (excSave s k rpc rnext cause ta) k i = getG s k i := by
  rw [excSave, State.setBt, getG_wr hi (by decide), getG_setTaddr _ _ _ hi, getG_wr hi (by decide), getG_wr hi (by decide),
    getG_wr hi (by decide)]

theorem excSave_mem : (excSave s k rpc rnext cause ta).mem = s.mem := by
  rw [excSave, State.setBt, State.wr_mem, setTaddr_mem, State.wr_mem, State.wr_mem, State.wr_mem]

end

section
variable (s : State) (k pc : Nat)

theorem ctx_excAt_self : (excAt s k pc).ctx k = { s.ctx k with slot := none, succ := none, blk := .none } := by
  rw [excAt, ctx_setCtx_self, ctx_setPC]

theorem ctx_excAt_ne {j : Nat} (h : j ≠ k) : (excAt s k pc).ctx j = s.ctx j := by
  rw [excAt, ctx_setCtx_ne _ _ h, ctx_setPC]

theorem rd_excAt {m : Nat} (h : m ≠ 2) : (excAt s k pc).rd (ctxReg k m) = s.rd (ctxReg k m) := by
  rw [excAt, rd_setCtx, rd_setPC _ _ _ h]

theorem ctxPC_excAt : ctxPC (excAt s k pc) k = pc % 2 ^ 32 := by
  rw [excAt, ctxPC_setCtx, ctxPC_setPC]

theorem getG_excAt {i : Nat} (hi : i < 32) : getG (excAt s k pc) k i = getG s k i := by
  rw [excAt, getG_setCtx, setPC, getG_wr hi (by decide)]

theorem vBase_excAt : vBase (excAt s k pc) k = vBase s k := by
  rw [excAt, vBase_setCtx, setPC, vBase_wr (by decide)]

theorem excAt_mem : (excAt s k pc).mem = s.mem := rfl

end

section
variable (s : State) (k code rpc rnext : Nat) (slot : Bool) (sub : Nat) (ta : Option Nat)

theorem ctx_excEntry_self :
    (excEntry s k code rpc rnext slot sub ta).ctx k = { s.ctx k with slot := none, succ := none, blk := .none } := by
  rw [excEntry, ctx_excAt_self, ctx_excSave]

theorem ctx_excEntry_ne {j : Nat} (h : j ≠ k) : (excEntry s k code rpc rnext slot sub ta).ctx j = s.ctx j := by
  rw [excEntry, ctx_excAt_ne _ _ _ h, ctx_excSave]

theorem rd_excEntry_stat :
    (excEntry s k code rpc rnext slot sub ta).rd (ctxReg k 1) = putBit (s.rd (ctxReg k 1)) 29 true := by
  rw [excEntry, rd_excAt _ _ _ (by decide), rd_excSave_stat]

theorem cst_excEntry : cst (excEntry s k code rpc rnext slot sub ta) k = cst s k := by
  rw [cst, State.fl, rd_excEntry_stat, fld_putBit_apart _ _ (by decide) (by decide) (.inl (by decide)), cst, State.fl]

theorem ctxHM_excEntry : ctxHM (excEntry s k code rpc rnext slot sub ta) k = true := by
  rw [ctxHM, State.bt, rd_excEntry_stat, bitAt_putBit_self _ _ _ (by decide)]

theorem ctxIE_excEntry : ctxIE (excEntry s k code rpc rnext slot sub ta) k = ctxIE s k := by
  rw [ctxIE, State.bt, rd_excEntry_stat, bitAt_putBit_ne _ _ _ _ (by decide) (by decide), ctxIE, State.bt]

/-- The registers of the context that no exception saves stay. -/
theorem rd_excEntry {m : Nat} (h : m ∉ [1, 2, 3, 4, 5, 16]) :
    (excEntry s k code rpc rnext slot sub ta).rd (ctxReg k m) = s.rd (ctxReg k m) := by
  simp only [List.mem_cons, List.not_mem_nil, or_false, not_or] at h
  rw [excEntry, rd_excAt _ _ _ h.2.1, rd_excSave]
  simp [h]

theorem rd_excEntry_taddr (a : Nat) :
    (excEntry s k code rpc rnext slot sub (some a)).rd (ctxReg k 5) = BitVec.ofNat 32 a := by
  rw [excEntry, rd_excAt _ _ _ (by decide), rd_excSave_taddr]

theorem getG_excEntry {i : Nat} (hi : i < 32) : getG (excEntry s k code rpc rnext slot sub ta) k i = getG s k i := by
  rw [excEntry, getG_excAt _ _ _ hi, getG_excSave _ _ _ _ _ _ hi]

theorem excEntry_mem : (excEntry s k code rpc rnext slot sub ta).mem = s.mem := by
  rw [excEntry, excAt_mem, excSave_mem]

/-- The context has entered the handler. -/
theorem entered_excEntry {sub : Nat} (h : sub < 256) : entered (excEntry s k code rpc rnext slot sub ta) k code rpc rnext slot sub := by
  refine ⟨ctxHM_excEntry .., ?_, ?_, ?_, ?_, ?_, ?_⟩
  · rw [excEntry, ctxPC_excAt, vBase_excAt, Nat.mul_comm]
  · rw [excEntry, rd_excAt _ _ _ (by decide), rd_excSave_rpc]
  · rw [excEntry, rd_excAt _ _ _ (by decide), rd_excSave_rnext]
  · rw [excEntry, rd_excAt _ _ _ (by decide), rd_excSave_cause, causeWord, Nat.mod_eq_of_lt h]
  · rw [ctx_excEntry_self]
  · rw [ctx_excEntry_self]

end

/-- Settles O14, by what the entry of an exception writes. -/
theorem exceptionEntry : Obligations.ExceptionEntry := by
  rintro s x code rpc rnext sub slot ta t hhm - hsub rfl
  rw [takeExc_eq_excEntry (.inl hhm)]
  refine ⟨entered_excEntry s _ code rpc rnext slot ta hsub, cst_excEntry .., ctxIE_excEntry .., ?_,
    fun i hi => getG_excEntry _ _ _ _ _ _ _ _ hi,
    excEntry_mem .., fun k hk => ctx_excEntry_ne _ _ _ _ _ _ _ _ hk⟩
  rintro a rfl
  exact rd_excEntry_taddr ..

end Sys2Proof.Machine

/-! SUPPORT. The boundary of a context and the end of an instruction (R120, R121, R132, R149): when nothing waits for the boundary, and
what an instruction that issued leaves. -/

namespace Sys2Proof.Machine

/-! ## The boundary -/

/-- In handler mode no condition of R149 is taken. -/
theorem excDue_of_HM {s : State} {k : Nat} (h : ctxHM s k = true) : excDue s k = 0 := by
  simp [excDue, h]

/-- WDOG is due only where it is pending. -/
theorem excDue_ne_two {s : State} {k : Nat} (h : (s.ctx k).wdPend = false) : excDue s k ≠ 2 := by
  simp only [excDue, h, Bool.false_eq_true, if_false]
  split_ifs <;> decide

/-- Nothing is taken at the boundary of the context: it is at none, or neither a STOP nor a WDOG waits for it. -/
abbrev AtRest (s : State) (k : Nat) : Prop :=
  (s.ctx k).blk ≠ .none ∨ (s.ctx k).slot.isSome = true ∨ cst s k ≠ 1 ∨
    (s.ctx k).stopping = false ∧ ((s.ctx k).wdPend = false ∨ ctxHM s k = true)

theorem boundary_atRest {s : State} {k : Nat} (h : AtRest s k) : boundary s k = s := by
  unfold boundary
  dsimp only
  rcases h with h | h | h | ⟨hstop, hpend⟩
  · rw [if_pos (.inl h)]
  · rw [if_pos (.inr (.inl h))]
  · rw [if_pos (.inr (.inr h))]
  · have hdue : excDue s k ≠ 2 := by
      rcases hpend with h | h
      · exact excDue_ne_two h
      · simp [excDue_of_HM h]
    rw [hstop, if_neg Bool.false_ne_true, if_neg hdue, ite_self]

/-- An instruction after which nothing is taken at the boundary leaves its effect, with the issue noted. -/
theorem issued_atRest {u : State} {k : Nat} (h : AtRest u k) (s : State) (i : JMn) :
    issued s u k i = close (noteIssue u k (issueCyc s k) (jGap k i s u)) := by
  have hrest : AtRest (noteIssue u k (issueCyc s k) (jGap k i s u)) k := by
    simpa only [AtRest, ctx_noteIssue_self, cst_noteIssue, ctxHM_noteIssue] using h
  rw [issued, boundary_atRest hrest]

section
variable {u : State} {k : Nat} (h : AtRest u k) (s : State) (i : JMn)
include h

theorem rd_issued {a : Nat} (ha : closeTouches a = false) : (issued s u k i).rd a = u.rd a := by
  rw [issued_atRest h, close_rd _ ha, rd_noteIssue]

theorem ctx_issued_self : ∃ t, (issued s u k i).ctx k = { u.ctx k with readyAt := t } := by
  rw [issued_atRest h, close_ctx, ctx_noteIssue_self]
  exact ⟨_, rfl⟩

variable (hk : k < 66)
include hk

theorem rd_issued_ctxReg {m : Nat} (hm : m < 32) : (issued s u k i).rd (ctxReg k m) = u.rd (ctxReg k m) :=
  rd_issued h s i (closeTouches_ctxReg hk hm)

theorem cst_issued : cst (issued s u k i) k = cst u k := by
  rw [cst, State.fl, rd_issued_ctxReg h s i hk (by decide), cst, State.fl]

theorem ctxHM_issued : ctxHM (issued s u k i) k = ctxHM u k := by
  rw [ctxHM, State.bt, rd_issued_ctxReg h s i hk (by decide), ctxHM, State.bt]

theorem ctxPC_issued : ctxPC (issued s u k i) k = ctxPC u k := by
  rw [ctxPC, rd_issued_ctxReg h s i hk (by decide), ctxPC]

end

/-! ## Entering a handler at the end of a row -/

/-- The end of a command leaves the context in the handler. -/
theorem entered_close {s : State} {k code rpc rnext : Nat} {slot : Bool} {sub : Nat} (hk : k < 66)
    (h : entered s k code rpc rnext slot sub) : entered (close s) k code rpc rnext slot sub := by
  simpa only [entered, close_ctxHM hk, close_ctxPC hk, close_vBase hk, close_ctxReg hk _ (by decide : 3 < 32),
    close_ctxReg hk _ (by decide : 16 < 32), close_ctxReg hk _ (by decide : 4 < 32), close_ctx] using h

/-- An instruction that ends in a handler: handler mode keeps what waits for the boundary, but for a STOP. -/
theorem entered_issued {u : State} {k code rpc rnext : Nat} {slot : Bool} {sub : Nat} (hk : k < 66) (hstop : (u.ctx k).stopping = false)
    (h : entered u k code rpc rnext slot sub) (s : State) (i : JMn) : entered (issued s u k i) k code rpc rnext slot sub := by
  have hrest : AtRest u k := .inr (.inr (.inr ⟨hstop, .inr h.1⟩))
  rw [issued_atRest hrest]
  refine entered_close hk ?_
  simpa only [entered, ctxHM_noteIssue, ctxPC_noteIssue, vBase_noteIssue, rd_noteIssue, ctx_noteIssue_self] using h

/-! ## Where an instruction leaves its context -/

/-- Settles O9: the position that `advance` or `transferTo` sets stands at the end of the row. -/
theorem instructionPosition : Obligations.InstructionPosition := by
  rintro s u x i k t rfl
  have hk := ctxKey_lt x
  refine ⟨?_, fun d => ?_⟩
  · rintro rfl hstop hpend
    have hrest : AtRest (advance (countIssue u (ctxKey x)) (ctxKey x)) (ctxKey x) :=
      .inr (.inr (.inr (by simp [hstop, hpend])))
    obtain ⟨r, hctx⟩ := ctx_issued_self hrest s i
    refine ⟨?_, by rw [completes, hctx, ctx_advance_self], by rw [completes, hctx, ctx_advance_self], ?_, ?_⟩
    · rw [completes, ctxPC_issued hrest s i hk, ctxPC_advance, ctx_countIssue, succOf_countIssue]
    · rw [completes, rd_issued_ctxReg hrest s i hk (by decide), rd_advance _ _ (by decide), rd_countIssue_self]
    · rw [completes, cst_issued hrest s i hk, cst_advance, cst_countIssue]
  · rintro rfl
    have hrest : AtRest (transferTo (countIssue u (ctxKey x)) (ctxKey x) d) (ctxKey x) := .inr (.inl (by simp))
    obtain ⟨r, hctx⟩ := ctx_issued_self hrest s i
    refine ⟨?_, by rw [transfers, hctx, ctx_transferTo_self], by rw [transfers, hctx, ctx_transferTo_self], ?_,
      by rw [transfers, hctx, ctx_transferTo_self, ctx_countIssue]⟩
    · rw [transfers, ctxPC_issued hrest s i hk, ctxPC_transferTo, succOf_countIssue]
    · rw [transfers, rd_issued_ctxReg hrest s i hk (by decide), rd_transferTo _ _ _ (by decide), rd_countIssue_self]

/-! ## What the boundary and the end of an instruction leave -/

/-- `t` is `s` but for what an instruction of context `k` may change at its end: the position and the saved state, the hidden state of
the context, and the issue stage. -/
structure CtxSame (k : Nat) (s t : State) : Prop where
  eq : t = { s with regs := t.regs, ctxH := t.ctxH, issueH := t.issueH }
  rd : ∀ a, boundaryReg k a = false → t.rd a = s.rd a
  ctx : ∀ j, j ≠ k → t.ctx j = s.ctx j

section
variable {k : Nat} {s t u : State}

theorem CtxSame.refl (s : State) : CtxSame k s s := ⟨rfl, fun _ _ => rfl, fun _ _ => rfl⟩

theorem CtxSame.trans (h : CtxSame k s t) (h' : CtxSame k t u) : CtxSame k s u :=
  ⟨by rw [h'.eq, h.eq], fun a ha => (h'.rd a ha).trans (h.rd a ha), fun j hj => (h'.ctx j hj).trans (h.ctx j hj)⟩

theorem CtxSame.wr (s : State) {m : Nat} (v : Word) (h : m ∈ [1, 2, 3, 4, 14, 16]) : CtxSame k s (s.wr (ctxReg k m) v) := by
  refine ⟨rfl, fun a ha => rd_wr_ne s v ?_, fun j _ => ctx_wr s _ j v⟩
  rintro rfl
  have hin : boundaryReg k (ctxReg k m) = true := List.any_eq_true.2 ⟨m, h, beq_self_eq_true _⟩
  exact absurd ha (by simp [hin])

theorem CtxSame.setCtx (s : State) (h : CtxH) : CtxSame k s (s.setCtx k h) :=
  ⟨rfl, fun _ _ => rfl, fun _ hj => ctx_setCtx_ne s h hj⟩

theorem CtxSame.setIssue (s : State) (n : Nat) (h : IssueH) : CtxSame k s (s.setIssue n h) := ⟨rfl, fun _ _ => rfl, fun _ _ => rfl⟩

variable (k s)

theorem CtxSame.noteIssue (c g : Nat) : CtxSame k s (noteIssue s k c g) := (CtxSame.setCtx s _).trans (.setIssue _ _ _)

theorem CtxSame.countIssue : CtxSame k s (countIssue s k) := .wr s _ (by decide)

theorem CtxSame.setPC (a : Nat) : CtxSame k s (setPC s k a) := .wr s _ (by decide)

theorem CtxSame.advance : CtxSame k s (advance s k) := (CtxSame.setCtx s _).trans (.setPC k _ _)

theorem CtxSame.setCst (st : Nat) : CtxSame k s (setCst s k st) := (CtxSame.setCtx s _).trans (.wr _ _ (by decide))

theorem CtxSame.ctxStopNow : CtxSame k s (ctxStopNow s k) := (CtxSame.setCst k s 0).trans (.setCtx _ _)

/-- An exception without an address leaves TADDR too. -/
theorem CtxSame.excEntry (code rpc rnext : Nat) (slot : Bool) (sub : Nat) :
    CtxSame k s (excEntry s k code rpc rnext slot sub none) :=
  ((((CtxSame.wr s _ (by decide)).trans (.wr _ _ (by decide))).trans (.wr _ _ (by decide))).trans (.wr _ _ (by decide))).trans
    ((CtxSame.setPC k _ _).trans (.setCtx _ _))

theorem CtxSame.takeWdog : CtxSame k s (takeWdog s k) := by
  rw [Machine.takeWdog, takeExc_eq_excEntry (.inr (.inr (.inl rfl)))]
  exact ((CtxSame.setCtx s _).trans (.noteIssue k _ _ _)).trans (.excEntry k _ _ _ _ _ _)

theorem CtxSame.boundary : CtxSame k s (boundary s k) := by
  unfold Machine.boundary
  dsimp only
  split_ifs
  · exact .refl s
  · exact .ctxStopNow k s
  · exact .takeWdog k s
  · exact .refl s

end

/-- A forced test depends on no register of a context. -/
theorem CtxSame.testHeld {k : Nat} {s t : State} (hk : k < 66) (h : CtxSame k s t) (ht : testHeld s) : testHeld t := by
  have hrd {a : Nat} (ha : 0x34000000 ≤ a) (ha' : a < 0x40000000) : t.rd a = s.rd a := by
    refine h.rd a (List.any_eq_false.2 fun m hm => ?_)
    simp only [List.mem_cons, List.not_mem_nil, or_false] at hm
    simp only [ctxReg, PE_CTX_CTRL, beq_iff_eq]
    split <;> omega
  have hreset (j : Nat) : inReset t j = inReset s j :=
    inReset_congr (by rw [h.eq]) (by rw [h.eq]) (by rw [h.eq]) (by rw [h.eq]) (by rw [h.eq]) (hrd (by decide) (by decide))
      (hrd (by decide) (by decide)) (hrd (by decide) (by decide)) (hrd (by decide) (by decide)) j
  simpa only [Machine.testHeld, ftRuns, State.fl, hreset, hrd (a := MEM_FT_STAT) (by decide) (by decide)] using ht

/-- A forced test depends on no general register. -/
theorem testHeld_setG {s : State} (h : testHeld s) (k i : Nat) (v : Word) (hi : i < 32) : testHeld (setG s k i v) := by
  have hrd {a : Nat} (ha : 0x34000000 ≤ a) (ha' : a < 0x40000000) : (setG s k i v).rd a = s.rd a := by
    refine rd_setG_ne s v (.inr ?_)
    unfold gReg PE_CTX_G pairG
    split <;> omega
  have heq := setG_eq s k i v
  have hreset (j : Nat) : inReset (setG s k i v) j = inReset s j :=
    inReset_congr (by rw [heq]) (by rw [heq]) (by rw [heq]) (by rw [heq]) (by rw [heq]) (hrd (by decide) (by decide))
      (hrd (by decide) (by decide)) (hrd (by decide) (by decide)) (hrd (by decide) (by decide)) j
  simpa only [testHeld, ftRuns, State.fl, hreset, hrd (a := MEM_FT_STAT) (by decide) (by decide)] using h

/-- An instruction that completes leaves its effect `u`, but for the end of its row. -/
theorem completes_eq_close (s u : State) (k : Nat) (i : JMn) : ∃ v, completes s u k i = close v ∧ CtxSame k u v :=
  ⟨_, rfl, (((CtxSame.countIssue k u).trans (.advance k _)).trans (.noteIssue k _ _ _)).trans (.boundary k _)⟩

/-! ## The register instructions -/

/-- Every row of Tables 6.5 and 6.6 is an instruction that completes with a value. -/
theorem registerRows_spec {x : CtxId} {f : Upset} {p : JMn × Instr} (h : p ∈ registerRows x f) (s s1 : State) (w : Word) :
    exec p.2 s = jRow s x p.1 f .good ∧ ∃ v, jSem s1 (ctxKey x) p.1 w .good = .nxt (setG s1 (ctxKey x) (jRd w) v) := by
  revert p
  simp only [registerRows, List.cons_append, List.nil_append, List.forall_mem_cons, List.not_mem_nil, false_imp_iff, implies_true,
    and_true]
  iterate 36 refine And.intro ⟨rfl, _, rfl⟩ ?_
  exact ⟨rfl, _, rfl⟩

/-- Settles O8: the value goes to RD, and the rest of the row writes the position of the context alone. -/
theorem registerFrame : Obligations.RegisterFrame := by
  intro s x f w s1 t p hp h hheld ht
  have hk := ctxKey_lt x
  obtain ⟨hexec, v, hsem⟩ := registerRows_spec hp s s1 w
  obtain ⟨z, hz, hsame⟩ := completes_eq_close s (setG s1 (ctxKey x) (jRd w) v) (ctxKey x) p.1
  rw [hexec, jRow_completes h hsem, hz, Host.Outcome.next.injEq] at ht
  subst ht
  have hsetG := setG_eq s1 (ctxKey x) (jRd w) v
  have hmem : (close z).mem = s1.mem := by
    rw [close_mem (hsame.testHeld hk (testHeld_setG hheld _ _ v (jRd_lt w))), hsame.eq, hsetG]
  refine ⟨fun a ha hb hc => ?_, fun b => by rw [State.byte, hmem, State.byte], ?_, ?_, ?_, ?_, ?_, ?_, ?_, ?_, fun j hj => ?_⟩
  · rw [close_rd _ hc, hsame.rd a hb, rd_setG_ne s1 v ha]
  · rw [close_fifo, hsame.eq, hsetG]
  · rw [close_cellH, hsame.eq, hsetG]
  · rw [close_img, hsame.eq, hsetG]
  · rw [close_tbs, hsame.eq, hsetG]
  · rw [close_mbxH, hsame.eq, hsetG]
  · rw [close_agenda, hsame.eq, hsetG]
  · rw [close_fpr, hsame.eq, hsetG]
  · rw [close_elog, hsame.eq, hsetG]
  · rw [close_ctx, hsame.ctx j hj, ctx_setG]

end Sys2Proof.Machine

/-! SUPPORT. The coprocessors (R139 to R146): an operation of CP0 to CP4 or CP7 as the access it makes, and its row. -/

namespace Sys2Proof.Machine

/-! ## Accesses of a coprocessor -/

theorem fld_byte (w : Word) : fld w 7 0 = w.toNat % 256 := by simp [fld]

theorem fld_half (w : Word) : fld w 15 0 = w.toNat % 65536 := by simp [fld]

theorem jImm12_eq (w : Word) : jImm12 w = w.toNat % 2 ^ 12 := by simp [jImm12, fld]

section
variable {s s2 : State} {k a rd : Nat} {v d : Word} (hb : behind s k a = false)
include hb

/-- With no earlier access outstanding an access is made at once (R17). -/
theorem inOrder_first (r : JRes) : inOrder s k a r = r := by simp [inOrder, hb]

theorem cpRead_ok (h : busRead s (ctxMaster k) a = (s2, .ok v)) : cpRead s k a rd = .nxt (setG s2 k rd v) := by
  rw [cpRead, inOrder_first hb, h, cpDone]

theorem cpWrite_ok (h : busWrite s (ctxMaster k) a d = (s2, .ok v)) : cpWrite s k a d = .nxt s2 := by
  rw [cpWrite, inOrder_first hb, h, cpDone]

end

section
variable {s s1 s2 : State} {n k : Fin 8} {f : Upset} {i : JMn} {w : Word} {v d : Word} {a : Nat} (h : issues s (.pe n k) f i w s1)
  (hb : behind s1 (ctxKey (.pe n k)) a = false)
include h hb

/-- The row of an operation that is a read. -/
theorem jRow_cpRead (hsem : jSem s1 (ctxKey (.pe n k)) i w .good = cpRead s1 (ctxKey (.pe n k)) a (jRd w))
    (hr : busRead s1 (n.val + 1) a = (s2, .ok v)) : jRow s (.pe n k) i f .good = gives s s2 (.pe n k) i w v :=
  jRow_completes h (hsem.trans (cpRead_ok hb (by rwa [ctxMaster_pe])))

/-- The row of an operation that is a write. -/
theorem jRow_cpWrite (hsem : jSem s1 (ctxKey (.pe n k)) i w .good = cpWrite s1 (ctxKey (.pe n k)) a d)
    (hw : busWrite s1 (n.val + 1) a d = (s2, .ok v)) : jRow s (.pe n k) i f .good = .next (completes s s2 (ctxKey (.pe n k)) i) :=
  jRow_completes h (hsem.trans (cpWrite_ok hb (by rwa [ctxMaster_pe])))

end

/-! ## CP0: the cells -/

theorem cp0Cell_eq (s : State) (k : Nat) (w : Word) : cp0Cell s k w = ((getG s k (jRa w)).toNat % 256 + w.toNat % 256) % 256 := by
  rw [cp0Cell, fld_byte, fld_byte]

/-- Settles O16: each operation is one access, at the cell that RA and the instruction name. -/
theorem cellCoprocessor : Obligations.CellCoprocessor := by
  rintro s n k f w s1 s2 v x c a rfl rfl rfl
  rw [← cp0Cell_eq]
  have hreg : 0x30000000 + (getG s1 (ctxKey (.pe n k)) (jRa w)).toNat % 256 * 0x1000 + w.toNat % 2 ^ 12 =
      0x30000000 + fld (getG s1 (ctxKey (.pe n k)) (jRa w)) 7 0 * 0x1000 + jImm12 w := by rw [fld_byte, jImm12_eq]
  rw [hreg]
  refine ⟨fun h hb hr => jRow_cpRead h hb rfl hr, fun h hw hb hr => jRow_cpRead h hb ?_ hr, fun h hb hr => jRow_cpRead h hb rfl hr,
    fun h hb hr => jRow_cpRead h hb rfl hr, fun h hb hr => jRow_cpWrite h hb rfl hr, fun h hw hb hr => jRow_cpWrite h hb ?_ hr,
    fun h hb hr => jRow_cpWrite h hb rfl hr⟩
  · exact if_neg (by simp [hw])
  · exact if_neg (by simp [hw])

/-! ## CP1: the check unit -/

/-- Settles O18: each operation is one access to the engine's own unit. -/
theorem checkCoprocessor : Obligations.CheckCoprocessor := by
  rintro s n k f w s1 s2 v a x b rfl rfl rfl
  rw [← jImm12_eq]
  have hbase : 0x35000000 + n.val * 0x1000 = 0x35000000 + ctxKey (.pe n k) / 8 * 0x1000 := by rw [ctxKey_pe_div]
  rw [hbase]
  constructor
  · intro i m r d hmem h hb hw
    simp only [List.mem_cons, Prod.mk.injEq, List.not_mem_nil, or_false] at hmem
    rcases hmem with ⟨rfl, rfl, rfl, rfl⟩ | ⟨rfl, rfl, rfl, rfl⟩ | ⟨rfl, rfl, rfl, rfl⟩ | ⟨rfl, rfl, rfl, rfl⟩ | ⟨rfl, rfl, rfl, rfl⟩ |
      ⟨rfl, rfl, rfl, rfl⟩
    all_goals exact jRow_cpWrite h hb rfl hw
  · intro i m r hmem h hb hr
    simp only [List.mem_cons, Prod.mk.injEq, List.not_mem_nil, or_false] at hmem
    rcases hmem with ⟨rfl, rfl, rfl⟩ | ⟨rfl, rfl, rfl⟩ | ⟨rfl, rfl, rfl⟩
    all_goals exact jRow_cpRead h hb rfl hr

/-! ## CP2: the time unit -/

/-- Settles O19, operation by operation. -/
theorem timeCoprocessor : Obligations.TimeCoprocessor := by
  rintro s n k f w s1 s2 v a x r h y rfl rfl rfl rfl rfl
  rw [← jImm12_eq]
  refine ⟨fun h hb hc => jRow_completes h ?_, fun sec sub hsnap => ⟨fun h => jRow_completes h ?_, fun h => jRow_completes h ?_,
    fun h => jRow_completes h ?_, fun h hc ha ht => jRow_completes h ?_⟩, fun h hob hb hr => jRow_cpRead h hb (if_neg hob) hr,
    fun h hb hw => jRow_cpWrite h hb rfl hw⟩
  · change inOrder s1 _ (TU_TB_NS (jImm12 w)) _ = _
    rw [inOrder_first hb, ctxMaster_pe, hc]
    rfl
  · change jCp2 s1 _ .tsecl w = _
    simp only [jCp2, hsnap]
  · change jCp2 s1 _ .tsech w = _
    simp only [jCp2, hsnap]
  · change jCp2 s1 _ .tsub w = _
    simp only [jCp2, hsnap]
  · have hreached : timeReached s1 (ctxKey (.pe n k)) (getG s1 (ctxKey (.pe n k)) (jRa w)) = true := by
      rw [timeReached, hsnap]
      exact decide_eq_true ht
    change jCp2 s1 _ .twait w = _
    simp only [jCp2, hsnap, ctxMaster_pe, hc, hreached, if_neg (Nat.not_le.2 ha), Option.isNone_some, Bool.false_eq_true, if_false,
      if_true]

/-! ## CP3: the image store -/

/-- The words of the point buffer that a slot read gives. -/
def slotWords (c : ImgSlot) : List Word :=
  (List.range 16).map (fun i => BitVec.ofNat 32 (leNat ((List.range 4).map (fun b => slotByte c (4 * i + b)))))

theorem slotWords_byte (c : ImgSlot) {j b : Nat} (hj : j < 16) (hb : b < 4) :
    ((slotWords c).getD j 0).toNat / 256 ^ b % 256 = (slotByte c (4 * j + b)).toNat := by
  have hw : (slotWords c).getD j 0 = BitVec.ofNat 32 (leNat ((List.range 4).map (fun b => slotByte c (4 * j + b)))) := by
    simp [slotWords, List.getD_eq_getElem?_getD, hj]
  rw [hw, word_leNat_byte (by simp)]
  simp [List.getD_eq_getElem?_getD, hb]

/-- The point buffer filled from a slot. -/
def bufFilled (s : State) (k : Nat) (c : ImgSlot) : State :=
  s.setCtx k { s.ctx k with buf := slotWords c, bufNs := c.ns, bufSec := c.sec, bufSub := c.sub }

/-- IGET of a point that is there, free of errors. -/
theorem jIget_ok {s : State} {k : Nat} {w : Word} {c : ImgSlot} {q : Nat}
    (hb : behind s k (0x24000000 + 64 * fld (getG s k (jRa w)) 15 0) = false) (hc : closed s (ctxMaster k) blkImg = false)
    (hr : pointRead s (fld (getG s k (jRa w)) 15 0) (bitAt w 0) = some (c, q)) :
    jIget s k w .good = .nxt (setG (bufFilled s k c) k (jRd w) (BitVec.ofNat 32 q)) := by
  unfold jIget
  dsimp only
  rw [inOrder_first hb, hc, hr]
  rfl

theorem getD_bufSet (l : List Word) (i : Nat) (v : Word) {j : Nat} (hj : j < 16) :
    (bufSet_ l i v).getD j 0 = if j = i then v else l.getD j 0 := by
  simp [bufSet_, List.getD_eq_getElem?_getD, hj]

/-- IPUT with no timestamp set in the buffer: the store takes the time of TB0. -/
theorem jIput_ok {s s2 : State} {k : Nat} {w : Word} (hb : behind s k (0x24000000 + 64 * fld (getG s k (jRa w)) 15 0) = false)
    (hc : closed s (ctxMaster k) blkImg = false) (hset : (s.ctx k).bufSet = false)
    (hp : imgPut s (ctxMaster k) none (fld (getG s k (jRa w)) 15 0)
      ((List.range 64).map (fun i => BitVec.ofNat 8 (((s.ctx k).buf.getD (i / 4) 0).toNat / 2 ^ (8 * (i % 4))))) none
      (fld (getG s k (jRd w)) 15 0) (s.tb 0).ns (s.tb 0).sec (s.tb 0).sub = (s2, true)) :
    jIput s k w = .nxt (s2.setCtx k { s2.ctx k with bufSet := false }) := by
  unfold jIput
  dsimp only
  rw [inOrder_first hb, hc, hset]
  simp only [Bool.false_eq_true, if_false, hp]

/-- Settles O20, operation by operation. -/
theorem imageCoprocessor : Obligations.ImageCoprocessor := by
  rintro s n k f w s1 d x p i h rfl rfl rfl rfl rfl hc
  rw [← ctxMaster_pe n k] at hc ⊢
  rw [← jImm12_eq, ← fld_half, ← fld_half]
  have hns : fld (getG s1 (ctxKey (.pe n k)) (jRd w)) 29 0 = (getG s1 (ctxKey (.pe n k)) (jRd w)).toNat % 2 ^ 30 := by simp [fld]
  rw [← hns]
  refine ⟨fun c q h hb hr => ?_, fun h hi => jRow_completes h (if_neg (Nat.not_lt.2 hi)), fun h hi => ?_,
    fun h => jRow_completes h rfl, fun h => jRow_completes h rfl, fun h => jRow_completes h rfl, fun h hb => jRow_completes h ?_,
    fun s2 h hb hset hput => jRow_completes h (jIput_ok hb hc hset hput)⟩
  · have hpin : (w.toNat % 2 == 1) = bitAt w 0 := by rw [bitAt, pow_zero, Nat.div_one]
    refine ⟨_, jRow_completes h (jIget_ok hb hc (hpin ▸ hr)), rfl, rfl, ?_⟩
    rw [bufFilled, ctx_setCtx_self]
    exact ⟨rfl, rfl, rfl, fun j hj b hb => slotWords_byte c hj hb⟩
  · refine ⟨_, jRow_completes h (if_neg (Nat.not_lt.2 hi)), rfl, fun j hj => ?_⟩
    rw [ctx_setCtx_self]
    exact getD_bufSet _ _ _ hj
  · change inOrder s1 _ IMG_EPOCH_LO _ = _
    rw [inOrder_first hb, hc]
    rfl

/-! ## CP4: mailboxes and locks -/

/-- Settles O21: each operation is one access to the MBX block. -/
theorem mailboxCoprocessor : Obligations.MailboxCoprocessor := by
  rintro s n k f w s1 s2 v x j rfl rfl
  rw [← jImm12_eq]
  refine ⟨fun h hb hs => jRow_completes h ?_, fun i m r hmem h hb hr => ?_, fun h hb hw => jRow_cpWrite h hb rfl hw⟩
  · rw [← ctxMaster_pe n k, ← fld_half] at hs
    change inOrder s1 _ (MBX_PTR (jImm12 w)) _ = _
    rw [inOrder_first hb, hs]
  · simp only [List.mem_cons, Prod.mk.injEq, List.not_mem_nil, or_false] at hmem
    rcases hmem with ⟨rfl, rfl, rfl⟩ | ⟨rfl, rfl, rfl⟩ | ⟨rfl, rfl, rfl⟩ | ⟨rfl, rfl, rfl⟩
    all_goals exact jRow_cpRead h hb rfl hr

end Sys2Proof.Machine

/-! SUPPORT. Instructions that block their context and complete later (R125, R141, R146). -/

namespace Sys2Proof.Machine

/-- An instruction that blocks its context leaves it blocked so: nothing is taken at the boundary. -/
theorem jRow_blocks {s s1 v : State} {x : CtxId} {f : Upset} {i : JMn} {w : Word} {u : Upset} (h : issues s x f i w s1)
    (hsem : jSem s1 (ctxKey x) i w u = .hold v) (hblk : (v.ctx (ctxKey x)).blk ≠ .none) :
    ∃ t, jRow s x i f u = .next t ∧ (t.ctx (ctxKey x)).blk = (v.ctx (ctxKey x)).blk ∧ t.fifo = v.fifo := by
  have hrest : AtRest (countIssue v (ctxKey x)) (ctxKey x) := .inl hblk
  obtain ⟨r, hctx⟩ := ctx_issued_self hrest s i
  refine ⟨_, jRow_own h (.inl hsem), by rw [hctx, ctx_countIssue], ?_⟩
  rw [issued_atRest hrest, close_fifo]
  rfl

/-! ## The end of what blocks -/

/-- A blocked instruction that completes with `v`. -/
theorem jEnd_nxt (s v : State) (k : Nat) : jEnd s k (.nxt v) = boundary (advance v k) k := rfl

@[simp] theorem ctx_blockOn_self (s : State) (k : Nat) (b : Blk) : (blockOn s k b).ctx k = { s.ctx k with blk := b, seq := accSeq s k } :=
  ctx_setCtx_self s k _

/-- CRXW whose FIFO holds a word issues its access. -/
theorem waitIssue_crxw {s : State} {x : CtxId} {w : Word} (hblk : (s.ctx (ctxKey x)).blk = .wait w) (hlive : ctxLive s (ctxKey x) = true)
    (hdec : jDecode false w = some .crxw) (hw : fifoWaits s (ctxKey x) true (cp0Cell s (ctxKey x) w) = false) :
    waitIssue s x = blockOn s (ctxKey x) (.acc w (CELL_RXDATA (cp0Cell s (ctxKey x) w))) := by
  simp only [waitIssue, hlive, hblk, hdec, waitFifo, hw, Bool.true_eq_false, Bool.false_eq_true, if_false, if_true]

/-- The access that CRXW has issued completes: the instruction does what it does. -/
theorem remoteLoadDone_crxw {s : State} {n k : Fin 8} {w : Word} {a : Nat} (u : Upset)
    (hblk : (s.ctx (ctxKey (.pe n k))).blk = .acc w a) (hlive : ctxLive s (ctxKey (.pe n k)) = true)
    (hb : behind s (ctxKey (.pe n k)) a = false) (hdec : jDecode false w = some .crxw)
    (hw : fifoWaits s (ctxKey (.pe n k)) true (cp0Cell s (ctxKey (.pe n k)) w) = false) :
    remoteLoadDone s (.pe n k) u = jEnd s (ctxKey (.pe n k)) (jSem s (ctxKey (.pe n k)) .crxw w .good) := by
  simp only [remoteLoadDone, accDone, hblk, hlive, hb, onEngine_pe, Bool.not_true, hdec, waitFifo, hw, Bool.true_eq_false,
    Bool.false_eq_true, or_self, if_false]

/-- X7 without a result, whose FIFO has room, is a write of its CP7 cell (R146). -/
theorem jX7_write {s s2 : State} {k : Nat} {w v : Word} (hen : s.bt (PE_CP7CFG (k / 8)) 31 = true)
    (hw : fifoWaits s k false (16 * s.fl (PE_CP7CFG (k / 8)) 3 0 + jFn4 w) = false) (hres : jImm12 w % 2 = 0)
    (hb : behind s k (CELL_TXDATA (16 * s.fl (PE_CP7CFG (k / 8)) 3 0 + jFn4 w)) = false)
    (hwr : busWrite s (ctxMaster k) (CELL_TXDATA (16 * s.fl (PE_CP7CFG (k / 8)) 3 0 + jFn4 w)) (getG s k (jRa w)) = (s2, .ok v)) :
    jX7 s k w = .nxt s2 := by
  simp only [jX7, hen, hw, cpWrite_ok hb hwr, hres, Bool.true_eq_false, Bool.false_eq_true, if_false, Nat.zero_ne_one]

/-- Settles O17: CRXW from the wait over the issue to the completion, and X7. -/
theorem blockingForms : Obligations.BlockingForms := by
  rintro s n k f w s1 s2 v x c rfl rfl
  rw [← cp0Cell_eq]
  refine ⟨fun h hw => ?_, fun hblk hlive hdec hw => ?_, fun u hblk hlive hdec hb hw hr => ?_, fun e h hen hres he hw hb hwr => ?_⟩
  · obtain ⟨t, hrow, hblk, hfifo⟩ := jRow_blocks (v := s1.setCtx _ _) h (if_pos hw) (by rw [ctx_setCtx_self]; exact Blk.noConfusion)
    exact ⟨t, hrow, by rw [hblk, ctx_setCtx_self], hfifo⟩
  · refine ⟨_, congrArg done (waitIssue_crxw hblk hlive hdec hw), by rw [close_ctx, ctx_blockOn_self], ?_⟩
    rw [close_fifo]
    rfl
  · have hsem : jSem s1 (ctxKey (.pe n k)) .crxw w .good = .nxt (setG s2 (ctxKey (.pe n k)) (jRd w) v) :=
      (if_neg (by simp [hw])).trans (cpRead_ok hb (by rwa [ctxMaster_pe]))
    exact congrArg done ((remoteLoadDone_crxw u hblk hlive hb hdec hw).trans (by rw [hsem, jEnd_nxt]))
  · have hfn : jFn4 w = w.toNat / 2 ^ 12 % 16 := rfl
    have himm : jImm12 w % 2 = 0 := by rw [jImm12_eq]; omega
    rw [← hfn, ← ctxKey_pe_div n k] at he
    rw [← ctxKey_pe_div n k] at hen
    subst he
    exact jRow_completes h (jX7_write hen hw himm hb (by rwa [ctxMaster_pe]))

end Sys2Proof.Machine

/-! SUPPORT. Control transfers (R131, R132, R137): the destination of each, and what the return stack holds. -/

namespace Sys2Proof.Machine

/-! ## Branches -/

section
variable {s s1 : State} {x : CtxId} {f : Upset} {i : JMn} {w : Word} {b taken : Bool} (h : issues s x f i w s1)
include h

/-- A branch goes where its condition says. -/
theorem jRow_branch (hr : aluRR i (getG s1 (ctxKey x) (jRa w)) (getG s1 (ctxKey x) (jRb w)) = none)
    (hi : aluRI i w (getG s1 (ctxKey x) (jRa w)) (getG s1 (ctxKey x) (jRd w)) = none)
    (ht : jTaken i (getG s1 (ctxKey x) (jRd w)) (getG s1 (ctxKey x) (jRa w)) = some b) (he : b = taken) :
    jRow s x i f .good = branches s s1 x i w taken := by
  subst he
  rw [branches, ← jTo16_eq]
  refine jRow_transfers h ?_
  simp only [jSem, hr, hi, ht, ctxPC]

end

/-! ## The return stack -/

/-- A call with fewer than 32 addresses held pushes the address after its slot. -/
theorem jCall_push {s : State} {k : Nat} (h : (s.ctx k).rs.length < 32) (d : Nat) :
    jCall s k d = .jump (s.setCtx k { s.ctx k with rs := (s.rd (ctxReg k 2) + 8) :: (s.ctx k).rs }) d := by
  have hret : BitVec.ofNat 32 (ctxPC s k + 8) = s.rd (ctxReg k 2) + 8 := by
    rw [BitVec.ofNat_add, ctxPC, BitVec.ofNat_toNat, BitVec.setWidth_eq]
    rfl
  simp only [jCall, rsPush, if_pos h, hret]

/-- RET with an address held takes the newest. -/
theorem jRet_pop {s : State} {k : Nat} {v : Word} {r : List Word} (h : (s.ctx k).rs = v :: r) :
    jRet s k = .jump (s.setCtx k { s.ctx k with rs := r }) v.toNat := by
  simp only [jRet, rsPop, h]

/-- Settles O12, branch by branch and jump by jump. -/
theorem branchesAndJumps : Obligations.BranchesAndJumps := by
  constructor
  · rintro s x f w s1 a b rfl rfl
    have hne (c d : Word) : (c != d) = decide (c ≠ d) := by
      rw [decide_not]
      rfl
    have hge (c d : Word) : (!c.slt d) = decide (d.toInt ≤ c.toInt) := by
      rw [BitVec.slt_eq_decide, ← decide_not]
      exact decide_eq_decide.2 not_lt
    have hgeu (c d : Word) : (!c.ult d) = decide (d.toNat ≤ c.toNat) := by
      rw [BitVec.ult_eq_decide, ← decide_not]
      exact decide_eq_decide.2 not_lt
    exact ⟨fun h => jRow_branch h rfl rfl rfl rfl, fun h => jRow_branch h rfl rfl rfl (hne _ _),
      fun h => jRow_branch h rfl rfl rfl BitVec.slt_eq_decide, fun h => jRow_branch h rfl rfl rfl (hge _ _),
      fun h => jRow_branch h rfl rfl rfl BitVec.ult_eq_decide, fun h => jRow_branch h rfl rfl rfl (hgeu _ _)⟩
  · rintro s x f w s1 k a p o h rfl rfl rfl rfl rfl
    rw [← jTo26_eq]
    exact ⟨fun h => jRow_transfers h rfl, fun h => jRow_transfers h rfl, fun h hlen => jRow_transfers h (jCall_push hlen _),
      fun h hlen => jRow_transfers h (jCall_push hlen _), fun v r h hrs => jRow_transfers h (jRet_pop hrs)⟩

end Sys2Proof.Machine

/-! SUPPORT. The system instructions (R120, R126, R147, R151, R152, R156), exceptions at issue, and double faults (R128, R133, R134, R149,
R153). -/

namespace Sys2Proof.Machine

/-! ## Registers that CSRR and CSRW reach -/

/-- IMASK takes every bit (Tables 6.13, 15.8). -/
theorem peDesc_imask (j : Fin 8) : peDesc (0x134 + j * 0x80) = some ⟨0xFFFFFFFF, 0, 0, 0, 0, 0⟩ := by
  decide +revert

/-- The descriptor of a register of an engine is that of its offset. -/
theorem regDesc_pe {q o : Nat} (hq : q < 8) (ho : o < 0x1000) : regDesc (0x100F0000 + q * 0x100000 + o) = peDesc o := by
  have hoff : (0x100F0000 + q * 0x100000 + o) % 0x1000 = o := by omega
  have hpe : 0x10000000 ≤ 0x100F0000 + q * 0x100000 + o ∧ 0x100F0000 + q * 0x100000 + o < 0x10800000 ∧
      0xF0000 ≤ (0x100F0000 + q * 0x100000 + o) % 0x100000 ∧ (0x100F0000 + q * 0x100000 + o) % 0x100000 < 0xF1000 := by omega
  rw [regDesc, if_neg (by omega), if_neg (by omega), if_pos hpe, hoff]

theorem regDesc_imask {k : Nat} (hk : k < 66) : regDesc (ctxReg k 13) = some ⟨0xFFFFFFFF, 0, 0, 0, 0, 0⟩ := by
  unfold ctxReg PE_CTX_CTRL
  split
  · have hj : k % 8 < 8 := Nat.mod_lt _ (by decide)
    calc regDesc (0x100F0000 + k / 8 * 0x100000 + 0x100 + k % 8 * 0x80 + 4 * 13)
        = regDesc (0x100F0000 + k / 8 * 0x100000 + (0x134 + k % 8 * 0x80)) := congrArg regDesc (by omega)
      _ = _ := (regDesc_pe (by omega) (by omega)).trans (peDesc_imask ⟨k % 8, hj⟩)
  · obtain rfl | rfl : k = 64 ∨ k = 65 := by omega
    · rfl
    · rfl

/-- A register all of whose bits software writes takes the value. -/
theorem softWrite_plain (s : State) {a : Nat} (h : regDesc a = some ⟨0xFFFFFFFF, 0, 0, 0, 0, 0⟩) (v : Word) :
    s.softWrite a v = s.wr a v := by
  have hw (old : Word) (first : Bool) : writtenWord ⟨0xFFFFFFFF, 0, 0, 0, 0, 0⟩ old v first = v := by
    rw [writtenWord_of_rwo_zero rfl]
    simp [and_ones]
  simp only [State.softWrite, h, hw, if_true]

/-- CSRW of IMASK. -/
theorem csrWrite_imask (s : State) {k : Nat} (hk : k < 66) (v : Word) : csrWrite s k 13 v = s.wr (ctxReg k 13) v := by
  simp [csrWrite, ctxBadValue, ctxSet, softWrite_plain s (regDesc_imask hk)]

/-! ## WAIT, TRET, TRAP and HALT -/

/-- In RUN, WAIT leaves the context in WAIT after the instruction. -/
theorem jWait_run {s : State} {k : Nat} (h : cst s k = 1) : jWait s k = setCst (advance s k) k 2 := by
  have hne : cst (advance s k) k ≠ 0 := by simp [h]
  rw [jWait, if_neg hne]

section
variable (s : State) (k : Nat)

theorem jTret_eq : jTret s k =
    (setPC (s.setBt (ctxReg k 1) 29 false) k (s.rd (ctxReg k 3)).toNat).setCtx k
      { s.ctx k with
        slot := if s.bt (ctxReg k 4) 31 then some (s.rd (ctxReg k 16)).toNat else none,
        succ := if s.bt (ctxReg k 4) 31 ∨ (s.rd (ctxReg k 16)).toNat = ((s.rd (ctxReg k 3)).toNat + 4) % 2 ^ 32 then none
          else some (s.rd (ctxReg k 16)).toNat } := by
  rw [jTret, ctx_setPC, State.setBt, ctx_wr]

theorem ctxHM_jTret : ctxHM (jTret s k) k = false := by
  rw [jTret_eq, ctxHM_setCtx, ctxHM_setPC, ctxHM_setBt_self]

theorem rd_jTret_pc : (jTret s k).rd (ctxReg k 2) = s.rd (ctxReg k 3) := by
  rw [jTret_eq, rd_setCtx, setPC, rd_wr_self, BitVec.ofNat_toNat, BitVec.setWidth_eq]

end

/-- No control transfer's slot holds a system instruction (R133). -/
theorem slot_none_of_issues {s s1 : State} {x : CtxId} {f : Upset} {i : JMn} {w : Word} (h : issues s x f i w s1)
    (hsys : i.sys = true) : (s1.ctx (ctxKey x)).slot = none := by
  obtain ⟨-, -, -, -, hslot⟩ := h
  rw [← Option.not_isSome_iff_eq_none]
  exact fun hs => hslot ⟨hs, .inr hsys⟩

/-- A system instruction that sets the position itself, after which nothing is taken at the boundary. -/
theorem jRow_sets {s s1 v : State} {x : CtxId} {f : Upset} {i : JMn} {w : Word} (h : issues s x f i w s1)
    (hsem : jSem s1 (ctxKey x) i w .good = .own v) (hrest : AtRest (countIssue v (ctxKey x)) (ctxKey x)) :
    ∃ t, jRow s x i f .good = .next t ∧ cst t (ctxKey x) = cst v (ctxKey x) ∧ ctxHM t (ctxKey x) = ctxHM v (ctxKey x) ∧
      t.rd (ctxReg (ctxKey x) 2) = v.rd (ctxReg (ctxKey x) 2) ∧ (t.ctx (ctxKey x)).slot = (v.ctx (ctxKey x)).slot := by
  have hk := ctxKey_lt x
  obtain ⟨r, hctx⟩ := ctx_issued_self hrest s i
  refine ⟨_, jRow_own h (.inr hsem), ?_, ?_, ?_, by rw [hctx, ctx_countIssue]⟩
  · rw [cst_issued hrest s i hk, cst_countIssue]
  · rw [ctxHM_issued hrest s i hk, ctxHM_countIssue]
  · rw [rd_issued_ctxReg hrest s i hk (by decide), rd_countIssue_ctxReg _ _ (by decide)]

/-- An instruction counted leaves the context in the handler that it has entered. -/
theorem entered_countIssue {s : State} {k code rpc rnext : Nat} {slot : Bool} {sub : Nat} (h : entered s k code rpc rnext slot sub) :
    entered (countIssue s k) k code rpc rnext slot sub := by
  simpa (disch := decide) only [entered, ctxHM_countIssue, ctxPC_countIssue, rd_countIssue_ctxReg, ctx_countIssue, countIssue, ctxHM_wr,
    ctxPC_wr, rd_wr_ctxReg, ctx_wr, vBase_wr] using h

/-- Settles O13, instruction by instruction. -/
theorem systemInstructions : Obligations.SystemInstructions := by
  rintro s x f w s1 k rfl ⟨hstop, hpend⟩ hrun
  have hk := ctxKey_lt x
  have quiet {v : State} (hs : (v.ctx (ctxKey x)).stopping = (s1.ctx (ctxKey x)).stopping)
      (hp : (v.ctx (ctxKey x)).wdPend = (s1.ctx (ctxKey x)).wdPend) : AtRest (countIssue v (ctxKey x)) (ctxKey x) :=
    .inr (.inr (.inr ⟨hs.trans hstop, .inl (hp.trans hpend)⟩))
  refine ⟨fun h hpost => jRow_completes h (if_pos (by simp [hpost])), fun h => ?_, fun h => ?_, fun h hm => ?_, fun h h1 h12 => ?_,
    fun h h13 => ?_, fun h => ?_⟩
  · have hslot := slot_none_of_issues h rfl
    obtain ⟨t, hrow, hst, -, hpc, -⟩ := jRow_sets h (v := setCst (advance s1 (ctxKey x)) (ctxKey x) 2)
      (congrArg JRes.own (jWait_run hrun)) (quiet (by simp) (by simp))
    refine ⟨t, hrow, by rw [hst, cst_setCst], ?_⟩
    rw [ctxPC, hpc, rd_setCst _ _ _ (by decide), ← ctxPC, ctxPC_advance, hslot]
    rfl
  · obtain ⟨t, hrow, -, hhm, hpc, hslot⟩ := jRow_sets h (v := jTret s1 (ctxKey x)) rfl
      (quiet (by rw [jTret_eq, ctx_setCtx_self]) (by rw [jTret_eq, ctx_setCtx_self]))
    exact ⟨t, hrow, hhm.trans (ctxHM_jTret _ _), hpc.trans (rd_jTret_pc _ _), by rw [hslot, jTret_eq, ctx_setCtx_self]⟩
  · have hent := entered_countIssue (entered_excEntry s1 (ctxKey x) 11 (succOf s1 (ctxKey x)) (succOf s1 (ctxKey x) + 4) false none
      ((jRb_lt w).trans (by decide)))
    refine ⟨_, jRow_own h (.inr (congrArg JRes.own (takeExc_eq_excEntry (.inl hm) _ _ _ _ _))), ?_⟩
    exact entered_issued hk (by rw [ctx_countIssue, ctx_excEntry_self]; exact hstop) hent s _
  · exact jRow_completes h (by
      change JRes.nxt (setG s1 _ _ (ctxReadWord s1 _ (jRb w))) = _
      rw [ctxReadWord, if_neg h1, if_neg h12])
  · exact jRow_completes h (by
      change JRes.nxt (csrWrite s1 _ (jRb w) _) = _
      rw [h13, csrWrite_imask s1 hk])
  · have hslot := slot_none_of_issues h rfl
    obtain ⟨t, hrow, hst, -, hpc, -⟩ := jRow_sets h (v := setCst (advance s1 (ctxKey x)) (ctxKey x) 0) rfl (quiet (by simp) (by simp))
    refine ⟨t, hrow, by rw [hst, cst_setCst], ?_⟩
    rw [ctxPC, hpc, rd_setCst _ _ _ (by decide), ← ctxPC, ctxPC_advance, hslot]
    rfl

/-! ## Exceptions at issue (R149) -/

/-- A row whose issue ends in the state `t`. -/
theorem jRow_of_jRun {s t : State} {x : CtxId} {f u : Upset} {i : JMn} (hr : jReady s (ctxKey x) = true)
    (h : jRun s (ctxKey x) (some i) f u = some t) : jRow s x i f u = .next (issued s t (ctxKey x) i) := by
  unfold jRow done jIssue
  simp only [hr, h, if_true]
  rfl

/-- An exception of the instruction at the position, outside handler mode with nothing waiting: the context is in the handler at the
end of the row, and ISSUED has not counted. -/
theorem entered_issued_excHere {s1 : State} {k : Nat} (hk : k < 66) (hm : ctxHM s1 k = false) (hstop : (s1.ctx k).stopping = false)
    (code : Nat) (ta : Option Nat) (s : State) (i : JMn) :
    entered (issued s (excHere s1 k code 0 ta) k i) k code (ctxPC s1 k) (posNext s1 k) (s1.ctx k).slot.isSome 0 ∧
      (∀ a, ta = some a → (issued s (excHere s1 k code 0 ta) k i).rd (ctxReg k 5) = BitVec.ofNat 32 a) ∧
      (issued s (excHere s1 k code 0 ta) k i).rd (ctxReg k 14) = s1.rd (ctxReg k 14) := by
  rw [excHere, takeExc_eq_excEntry (.inl hm)]
  have hstop' : ((excEntry s1 k code (ctxPC s1 k) (posNext s1 k) (s1.ctx k).slot.isSome 0 ta).ctx k).stopping = false := by
    rw [ctx_excEntry_self]
    exact hstop
  have hent := entered_excEntry s1 k code (ctxPC s1 k) (posNext s1 k) (s1.ctx k).slot.isSome ta (sub := 0) (by decide)
  have hrest : AtRest (excEntry s1 k code (ctxPC s1 k) (posNext s1 k) (s1.ctx k).slot.isSome 0 ta) k :=
    .inr (.inr (.inr ⟨hstop', .inr hent.1⟩))
  refine ⟨entered_issued hk hstop' hent s i, ?_, ?_⟩
  · rintro a rfl
    rw [rd_issued_ctxReg hrest s i hk (by decide), rd_excEntry_taddr]
  · rw [rd_issued_ctxReg hrest s i hk (by decide), rd_excEntry _ _ _ _ _ _ _ _ (by decide)]

section
variable {s s1 : State} {k : Nat} {f : Upset} {w : Word} (hf : jFetch s k f = (s1, some (.inl w)))
include hf

/-- A reserved encoding raises ILLEGAL, whichever instruction was asked for. -/
theorem jRun_illegal (hd : jDecode (!onEngine k) w = none) (want : Option JMn) (u : Upset) :
    jRun s k want f u = some (excHere s1 k 1 0 none) := by
  simp only [jRun, hf, hd]

/-- A control transfer or a system instruction in a slot raises SLOTILL. -/
theorem jRun_slotIllegal {i : JMn} (hd : jDecode (!onEngine k) w = some i) (hforb : jForbidden s1 k i w = false)
    (hslot : (s1.ctx k).slot.isSome = true) (hi : i.transfer = true ∨ i.sys = true) (u : Upset) :
    jRun s k (some i) f u = some (excHere s1 k 2 0 none) := by
  have hwant : ¬((some i).isSome = true ∧ some i ≠ some i) := fun h => h.2 rfl
  simp only [jRun, hf, hd, if_neg hwant, hforb, Bool.false_eq_true, if_false, if_pos (And.intro hslot hi)]

/-- A load or a store of a part that is not aligned raises DALIGN. -/
theorem jRun_misaligned {i : JMn} {a : Nat} (hd : jDecode (!onEngine k) w = some i) (hforb : jForbidden s1 k i w = false)
    (hi : i.transfer = false ∧ i.sys = false) {u : Upset} (hsem : jSem s1 k i w u = .exc s1 4 0 (some a)) :
    jRun s k (some i) f u = some (excHere s1 k 4 0 (some a)) := by
  have hwant : ¬((some i).isSome = true ∧ some i ≠ some i) := fun h => h.2 rfl
  have hslot : ¬((s1.ctx k).slot.isSome = true ∧ (i.transfer = true ∨ i.sys = true)) := by simp [hi]
  simp only [jRun, hf, hd, if_neg hwant, hforb, Bool.false_eq_true, if_false, if_neg hslot, hsem]
  rfl

end

/-- Outside TRET and CSRW no instruction is illegal beyond its encoding. -/
theorem jForbidden_eq_false {i : JMn} (s : State) (k : Nat) (w : Word) (h : i ≠ .tret ∧ i ≠ .csrw) : jForbidden s k i w = false := by
  simp [jForbidden, h]

/-! ## Double faults (R153) -/

/-- The context halted by a fault. -/
def ctxHalted (s : State) (k : Nat) : State :=
  ((setCst s k 3).setBt (ctxReg k 1) 29 false).setCtx k
    { ((setCst s k 3).setBt (ctxReg k 1) 29 false).ctx k with
      slot := none, succ := none, blk := .none, stopping := false, step := false, waited := false, marked := false }

/-- PE_FAULT and PE_FAULTPC record a fault while they hold none. -/
def faultNoted (s : State) (n j code pc : Nat) : State :=
  if s.bt (PE_FAULT n) 31 then s
  else (s.wr (PE_FAULT n) (setFld (setFld (putBit (s.rd (PE_FAULT n)) 31 true) 6 4 j) 3 0 code)).wr (PE_FAULTPC n) (BitVec.ofNat 32 pc)

theorem ctxFault_engine {k : Nat} (hk : k < 64) (s : State) (code pc : Nat) :
    ctxFault s k code pc = (faultNoted (ctxHalted s k) (k / 8) (k % 8) code pc).raise (PE_IRQSTAT (k / 8)) 0x1 := by
  rw [ctxFault, if_pos hk]
  rfl

theorem cst_ctxHalted (s : State) (k : Nat) : cst (ctxHalted s k) k = 3 := by
  rw [ctxHalted, cst_setCtx, cst_setBt _ _ _ (by decide), cst_setCst]

/-- A fault halts the context and leaves every register but its STAT. -/
theorem rd_ctxHalted_ne (s : State) {k a : Nat} (h : a ≠ ctxReg k 1) : (ctxHalted s k).rd a = s.rd a := by
  rw [ctxHalted, rd_setCtx, rd_setBt_ne _ _ _ h, setCst, rd_setFl_ne _ _ _ _ h, rd_setCtx]

theorem rd_faultNoted_ctxReg (s : State) (n j code pc k : Nat) {m : Nat} (hm : m < 32) :
    (faultNoted s n j code pc).rd (ctxReg k m) = s.rd (ctxReg k m) := by
  have hf : ctxReg k m ≠ PE_FAULT n := (pe_ne_ctxReg (o := 0xC) (by decide) hm).symm
  have hpc : ctxReg k m ≠ PE_FAULTPC n := (pe_ne_ctxReg (o := 0x10) (by decide) hm).symm
  unfold faultNoted
  split
  · rfl
  · rw [rd_wr_ne _ _ hpc, rd_wr_ne _ _ hf]

/-- After a fault the context is FAULTED. -/
theorem cst_ctxFault {k : Nat} (hk : k < 64) (s : State) (code pc : Nat) : cst (ctxFault s k code pc) k = 3 := by
  have hne : ctxReg k 1 ≠ PE_IRQSTAT (k / 8) := (pe_ne_ctxReg (o := 0x18) (by decide) (by decide)).symm
  rw [ctxFault_engine hk, cst, State.fl, rd_raise_ne _ _ hne, rd_faultNoted_ctxReg _ _ _ _ _ _ (by decide), ← State.fl, ← cst,
    cst_ctxHalted]

/-- The word of PE_FAULT records the context, the code, and that it holds a fault. -/
theorem faultWord_fields (w : Word) {j code : Nat} (hj : j < 8) (hc : code < 16) :
    bitAt (setFld (setFld (putBit w 31 true) 6 4 j) 3 0 code) 31 = true ∧
      fld (setFld (setFld (putBit w 31 true) 6 4 j) 3 0 code) 6 4 = j ∧
      fld (setFld (setFld (putBit w 31 true) 6 4 j) 3 0 code) 3 0 = code := by
  refine ⟨?_, ?_, ?_⟩
  · rw [bitAt_setFld_apart _ _ (by decide) (by decide) (.inl (by decide)), bitAt_setFld_apart _ _ (by decide) (by decide) (.inl (by decide)),
      bitAt_putBit_self _ _ _ (by decide)]
  · rw [fld_setFld_apart _ _ (by decide) (by decide) (by decide) (.inl (by decide)), fld_setFld_self _ _ _ _ (by decide) (by decide)]
    exact Nat.mod_eq_of_lt hj
  · rw [fld_setFld_self _ _ _ _ (by decide) (by decide)]
    exact Nat.mod_eq_of_lt hc

end Sys2Proof.Machine

/-! SUPPORT. Double faults and the first expiry of a watchdog (R133, R149, R153, R154), and O15. -/

namespace Sys2Proof.Machine

/-! ## Faults of an engine's context -/

/-- The position as a word is the PC register. -/
theorem ofNat_ctxPC (s : State) (k : Nat) : BitVec.ofNat 32 (ctxPC s k) = s.rd (ctxReg k 2) := by
  rw [ctxPC, BitVec.ofNat_toNat, BitVec.setWidth_eq]

theorem pe_ne {n o o' : Nat} (h : o ≠ o') : PE_CTRL n + o ≠ PE_CTRL n + o' := fun he => h (Nat.add_left_cancel he)

section
variable (s : State) (n j code pc : Nat)

theorem faultNoted_of_held (h : s.bt (PE_FAULT n) 31 = true) : faultNoted s n j code pc = s := if_pos h

/-- A fault where none is held is recorded. -/
theorem faultNoted_of_free (h : s.bt (PE_FAULT n) 31 = false) :
    (faultNoted s n j code pc).rd (PE_FAULT n) = setFld (setFld (putBit (s.rd (PE_FAULT n)) 31 true) 6 4 j) 3 0 code ∧
      (faultNoted s n j code pc).rd (PE_FAULTPC n) = BitVec.ofNat 32 pc := by
  have hne : PE_FAULT n ≠ PE_FAULTPC n := pe_ne (by decide : (0xC : Nat) ≠ 0x10)
  rw [faultNoted, if_neg (by simp [h])]
  exact ⟨by rw [rd_wr_ne _ _ hne, rd_wr_self], rd_wr_self ..⟩

end

/-- What a fault of an engine's context leaves in the registers of the engine. -/
theorem ctxFault_registers {n k : Fin 8} (s : State) {code : Nat} (hc : code < 16) (pc : Nat) (t : State)
    (ht : t = ctxFault s (ctxKey (.pe n k)) code pc) :
    t.bt (PE_IRQSTAT n.val) 0 = true ∧ t.bt (PE_FAULT n.val) 31 = true ∧
      (s.bt (PE_FAULT n.val) 31 = false → t.fl (PE_FAULT n.val) 6 4 = k.val ∧ t.fl (PE_FAULT n.val) 3 0 = code ∧
        t.rd (PE_FAULTPC n.val) = BitVec.ofNat 32 pc) ∧
      (s.bt (PE_FAULT n.val) 31 = true → t.rd (PE_FAULT n.val) = s.rd (PE_FAULT n.val) ∧
        t.rd (PE_FAULTPC n.val) = s.rd (PE_FAULTPC n.val)) := by
  have hfault : PE_FAULT n.val ≠ PE_IRQSTAT n.val := pe_ne (by decide : (0xC : Nat) ≠ 0x18)
  have hpc : PE_FAULTPC n.val ≠ PE_IRQSTAT n.val := pe_ne (by decide : (0x10 : Nat) ≠ 0x18)
  have hrdF : (ctxHalted s (ctxKey (.pe n k))).rd (PE_FAULT n.val) = s.rd (PE_FAULT n.val) :=
    rd_ctxHalted_ne s (pe_ne_ctxReg (o := 0xC) (by decide) (by decide))
  have hrdP : (ctxHalted s (ctxKey (.pe n k))).rd (PE_FAULTPC n.val) = s.rd (PE_FAULTPC n.val) :=
    rd_ctxHalted_ne s (pe_ne_ctxReg (o := 0x10) (by decide) (by decide))
  have hbt : (ctxHalted s (ctxKey (.pe n k))).bt (PE_FAULT n.val) 31 = s.bt (PE_FAULT n.val) 31 := congrArg (bitAt · 31) hrdF
  rw [ctxFault_engine (ctxKey_pe_lt n k), ctxKey_pe_div, ctxKey_pe_mod] at ht
  have hF := congrArg (·.rd (PE_FAULT n.val)) ht
  have hP := congrArg (·.rd (PE_FAULTPC n.val)) ht
  simp only [rd_raise_ne _ _ hfault, rd_raise_ne _ _ hpc] at hF hP
  have hI : t.bt (PE_IRQSTAT n.val) 0 = true := by
    rw [ht, State.bt, State.raise, rd_wr_self, bitAt_or]
    exact Bool.or_true _
  obtain hfree | hheld := Bool.eq_false_or_eq_true (s.bt (PE_FAULT n.val) 31) |>.symm
  · obtain ⟨hw, hwpc⟩ := faultNoted_of_free _ n.val k.val code pc (hbt.trans hfree)
    obtain ⟨hv, hj, hcode⟩ := faultWord_fields ((ctxHalted s (ctxKey (.pe n k))).rd (PE_FAULT n.val)) k.isLt hc
    rw [hw] at hF
    rw [hwpc] at hP
    exact ⟨hI, by rw [State.bt, hF, hv], fun _ => ⟨by rw [State.fl, hF, hj], by rw [State.fl, hF, hcode], hP⟩,
      fun h => absurd h (by simp [hfree])⟩
  · rw [faultNoted_of_held _ _ _ _ _ (hbt.trans hheld)] at hF hP
    exact ⟨hI, by rw [State.bt, hF, hrdF, ← State.bt, hheld], fun h => absurd h (by simp [hheld]),
      fun _ => ⟨hF.trans hrdF, hP.trans hrdP⟩⟩

/-- In handler mode DBUSW is not taken. -/
theorem dbuswTaken_of_HM {s : State} {x : CtxId} (h : ctxHM s (ctxKey x) = true) : dbuswTaken s x = s := by
  simp [dbuswTaken, excDue_of_HM h]

/-- In handler mode INT is not taken. -/
theorem intTaken_of_HM {s : State} {x : CtxId} (h : ctxHM s (ctxKey x) = true) : intTaken s x = s := by
  simp [intTaken, excDue_of_HM h]

/-- The first expiry of a watchdog: EXP is set, the count reloaded, and WDOG pending (R154). -/
def wdogFirst (s : State) (k : Nat) : State :=
  (wdReload (s.setBt (ctxReg k 11) 30 true) k).setCtx k { (wdReload (s.setBt (ctxReg k 11) 30 true) k).ctx k with wdPend := true }

theorem wdogExpire_first {s : State} {x : CtxId} (hlive : ctxLive s (ctxKey x) = true) (hout : wdOut s (ctxKey x) = true)
    (hexp : s.bt (ctxReg (ctxKey x) 11) 30 = false) :
    wdogExpire s x = if cst (wdogFirst s (ctxKey x)) (ctxKey x) = 1 ∧ excDue (wdogFirst s (ctxKey x)) (ctxKey x) = 2
      then takeWdog (wdogFirst s (ctxKey x)) (ctxKey x) else wdogFirst s (ctxKey x) := by
  have hgo : ¬(ctxLive s (ctxKey x) = false ∨ wdOut s (ctxKey x) = false) := by simp [hlive, hout]
  exact (if_neg hgo).trans (if_neg (by simp [hexp]))

theorem ctx_wdogFirst (s : State) (k : Nat) :
    (wdogFirst s k).ctx k = { s.ctx k with wdUsed := 0, wdFrom := s.cycles, wdPend := true } := by
  rw [wdogFirst, ctx_setCtx_self, wdReload, ctx_setCtx_self, State.setBt, ctx_wr, State.wr_cycles]

theorem rd_wdogFirst (s : State) (k : Nat) {m : Nat} (h : m ≠ 11) : (wdogFirst s k).rd (ctxReg k m) = s.rd (ctxReg k m) := by
  rw [wdogFirst, rd_setCtx, wdReload, rd_setCtx, rd_setBt_ne _ _ _ (ctxReg_ne k h)]

theorem ctxHM_wdogFirst (s : State) (k : Nat) : ctxHM (wdogFirst s k) k = ctxHM s k :=
  congrArg (bitAt · 29) (rd_wdogFirst s k (by decide))

/-- The word and half-word accesses. -/
theorem jSem_misaligned {s : State} {k z : Nat} {w : Word} {u : Upset} {m : JMn} {i : Instr} {x : CtxId} {f : Upset}
    (hm : ((m, i), z) ∈ [((JMn.lw, Instr.lw x f u), 4), ((.lh, .lh x f u), 2), ((.lhu, .lhu x f u), 2), ((.sw, .sw x f u), 4),
      ((.sh, .sh x f u), 2)]) (hz : (getG s k (jRa w) + immS w).toNat % z ≠ 0) :
    (∀ s, exec i s = jRow s x m f u) ∧ (m ≠ .tret ∧ m ≠ .csrw) ∧ (m.transfer = false ∧ m.sys = false) ∧
      jSem s k m w u = .exc s 4 0 (some (getG s k (jRa w) + immS w).toNat) := by
  rw [← jImm_eq_immS] at hz ⊢
  simp only [List.mem_cons, Prod.mk.injEq, List.not_mem_nil, or_false] at hm
  rcases hm with ⟨⟨rfl, rfl⟩, rfl⟩ | ⟨⟨rfl, rfl⟩, rfl⟩ | ⟨⟨rfl, rfl⟩, rfl⟩ | ⟨⟨rfl, rfl⟩, rfl⟩ | ⟨⟨rfl, rfl⟩, rfl⟩
  all_goals exact ⟨fun _ => rfl, by decide, by decide, if_pos hz⟩

/-- Control transfers and system instructions that no position forbids. -/
theorem slotIllegal_spec {x : CtxId} {f : Upset} {p : JMn × Instr}
    (hp : p ∈ [(JMn.j, Instr.j x f), (.call, .call x f), (.ret, .ret x f), (.beq, .beq x f), (.fence, .fence x f),
      (.wait, .sysWait x f), (.trap, .trap x f), (.halt, .sysHalt x f)]) :
    (∀ s, exec p.2 s = jRow s x p.1 f .good) ∧ (p.1 ≠ .tret ∧ p.1 ≠ .csrw) ∧ (p.1.transfer = true ∨ p.1.sys = true) := by
  revert p
  simp only [List.forall_mem_cons, List.not_mem_nil, false_imp_iff, implies_true, and_true]
  refine ⟨?_, ?_, ?_, ?_, ?_, ?_, ?_, ?_⟩
  all_goals exact ⟨fun _ => rfl, by decide, by decide⟩

/-- Settles O15: an exception at issue enters the handler, in handler mode it faults, and the three that R153 excepts wait. -/
theorem exceptionsAndDoubleFault : Obligations.ExceptionsAndDoubleFault := by
  refine ⟨?_, ?_, ?_, ?_⟩
  · rintro s x f u w s1 k rfl hready hf hm ⟨hstop, -⟩
    have hent := entered_issued_excHere (ctxKey_lt x) hm hstop
    refine ⟨fun hd => ?_, fun d p hp hd hslot => ?_, ?_⟩
    · obtain ⟨he, -, hiss⟩ := hent 1 none s .add
      exact ⟨_, jRow_of_jRun hready (jRun_illegal hf hd _ _), he, hiss⟩
    · obtain ⟨hexec, hforb, hi⟩ := slotIllegal_spec hp
      have hrun := jRun_slotIllegal hf hd (jForbidden_eq_false s1 _ w hforb) (by rw [hslot]; rfl) hi .good
      obtain ⟨he, -, hiss⟩ := hent 2 none s p.1
      rw [posNext, hslot] at he
      exact ⟨_, (hexec s).trans (jRow_of_jRun hready hrun), he, hiss⟩
    · rintro ⟨m, i⟩ z a hp hd rfl hz
      obtain ⟨hexec, hforb, hi, hsem⟩ := jSem_misaligned hp hz
      obtain ⟨he, hta, hiss⟩ := hent 4 (some (getG s1 (ctxKey x) (jRa w) + immS w).toNat) s m
      exact ⟨_, (hexec s).trans (jRow_of_jRun hready (jRun_misaligned hf hd (jForbidden_eq_false s1 _ w hforb) hi hsem)), he,
        hta _ rfl, hiss⟩
  · rintro s n k x code rpc rnext sub slot ta t rfl hm h6 h13 h14 hc ht
    rw [takeExc_double hm h6 h13 h14] at ht
    obtain ⟨hirq, hv, hfree, hheld⟩ := ctxFault_registers s hc _ t ht
    refine ⟨by rw [ht, cst_ctxFault (ctxKey_pe_lt n k)], hirq, hv, fun h => ?_, hheld⟩
    obtain ⟨hj, hcode, hpc⟩ := hfree h
    exact ⟨hj, hcode, by rw [hpc, apply_ite (BitVec.ofNat 32), ofNat_ctxPC]⟩
  · rintro s x k rfl hm
    exact ⟨excDue_of_HM hm, congrArg done (dbuswTaken_of_HM hm), congrArg done (intTaken_of_HM hm)⟩
  · rintro s x k dt u rfl hu hm hlive hout hexp
    have hexec : exec (.wdogExpiry x dt) s = done (wdogExpire u x) := by
      rw [hu]
      rfl
    have hnot : excDue (wdogFirst u (ctxKey x)) (ctxKey x) ≠ 2 := by
      rw [excDue_of_HM ((ctxHM_wdogFirst _ _).trans hm)]
      decide
    rw [wdogExpire_first hlive hout hexp, if_neg (fun h => hnot h.2)] at hexec
    refine ⟨_, hexec, ?_, ?_⟩
    · rw [close_ctx, ctx_wdogFirst]
    · rw [close_ctxReg (ctxKey_lt x) _ (by decide), rd_wdogFirst _ _ (by decide)]

end Sys2Proof.Machine

/-! SUPPORT. Loads and stores in an engine's own scratchpads (R12, R123, R124, R136). -/

namespace Sys2Proof.Machine

/-! ## Little-endian words (R12) -/

theorem ofNat_byte_append (n : Nat) (b : Byte) (v : Nat) : BitVec.ofNat (n + 8) (b.toNat + 256 * v) = BitVec.ofNat n v ++ b := by
  refine BitVec.eq_of_toNat_eq ?_
  have hb : b.toNat < 2 ^ 8 := b.isLt
  have hrest : (b.toNat + 256 * v) / 2 ^ 8 = v := by omega
  rw [BitVec.toNat_append, ← Nat.shiftLeft_add_eq_or_of_lt hb, Nat.shiftLeft_eq, BitVec.toNat_ofNat, BitVec.toNat_ofNat, Nat.pow_add,
    Nat.mul_comm (2 ^ n), Nat.mod_mul, hrest]
  omega

theorem ofNat_leNat_one (b : Byte) : BitVec.ofNat 8 (leNat [b]) = b := by simp [leNat]

theorem ofNat_leNat_two (b c : Byte) : BitVec.ofNat 16 (leNat [b, c]) = c ++ b :=
  (ofNat_byte_append 8 b _).trans (by rw [ofNat_leNat_one])

theorem ofNat_leNat_four (b c d e : Byte) : BitVec.ofNat 32 (leNat [b, c, d, e]) = e ++ d ++ c ++ b := by
  have h : BitVec.ofNat 24 (leNat [c, d, e]) = e ++ d ++ c := (ofNat_byte_append 16 c _).trans (by rw [ofNat_leNat_two])
  exact (ofNat_byte_append 24 b _).trans (by rw [h])

/-- A value of fewer bits, extended with zeros. -/
theorem setWidth_ofNat_leNat {l : List Byte} {n : Nat} (hn : n = 8 * l.length) (hw : n ≤ 32) :
    (BitVec.ofNat n (leNat l)).setWidth 32 = BitVec.ofNat 32 (leNat l) := by
  have hlt : leNat l < 2 ^ n := by
    have h := leNat_lt l
    rwa [hn, Nat.pow_mul]
  exact BitVec.setWidth_ofNat_of_le_of_lt hw hlt

theorem bytes_congr (s t : State) (h : t.mem = s.mem) (a n : Nat) : t.bytes a n = s.bytes a n := by
  induction n generalizing a with
  | zero => rfl
  | succ n ih => rw [State.bytes, State.bytes, ih, State.byte, State.byte, h]

/-! ## A word of a scratchpad with good check bits (R124) -/

section
variable {s : State} {a : Nat} {u : Upset} (h : plainWord s a u)
include h

theorem checkAt_plain : checkAt s a u = .good := by
  obtain ⟨hu, he, -⟩ := h
  rw [checkAt, he, hu]
  rfl

theorem settleWord_plain : (s.setEcc a .good).settleWord (a / 8 * 8) = s.setEcc a .good := if_neg (by
  obtain ⟨-, -, hd⟩ := h
  simpa [State.setEcc, undefAt] using hd)

theorem scratchAcc_read (e n : Nat) : scratchAcc s e a n none u = (s.setEcc a .good, some (leNat (s.bytes a n))) := by
  have hn : ¬((none : Option Nat).isSome = true ∧ n = 8) := fun h => Bool.noConfusion h.1
  have hb : (s.setEcc a .good).bytes a n = s.bytes a n := bytes_congr s (s.setEcc a .good) rfl a n
  simp only [scratchAcc, localAcc, if_neg hn, checkAt_plain h, rawAcc, settleWord_plain h, hb]

theorem scratchAcc_write (e v : Nat) {n : Nat} (hn : n ≠ 8) :
    scratchAcc s e a n (some v) u = ((s.setEcc a .good).setBytes a (leBytes n v), some 0) := by
  have hn : ¬((some v).isSome = true ∧ n = 8) := fun h => hn h.2
  simp only [scratchAcc, localAcc, if_neg hn, checkAt_plain h, rawAcc, settleWord_plain h]

/-- A load of an engine's own scratchpad takes its value at once (R123). -/
theorem jLoadAt_own {k : Nat} (hown : ownScratch k a = true) (n rd : Nat) (sg pop : Bool) :
    jLoadAt s k a n rd sg pop false u = .nxt (loadWrite (s.setEcc a .good) k (leNat (s.bytes a n)) n rd sg pop false) := by
  rw [jLoadAt, if_pos hown, scratchAcc_read h]

end

/-! ## Stores -/

/-- The bytes stored in a scratchpad, with the words that a fetch may still find old. -/
def scratchPut (s : State) (a n v : Nat) (l : List (Nat × Word × Nat)) : State :=
  { (s.setEcc a .good).setBytes a (leBytes n v) with stale := l }

theorem byte_scratchPut_in (s : State) (a v : Nat) (l : List (Nat × Word × Nat)) {n j : Nat} (hj : j < n) :
    (scratchPut s a n v l).byte (a + j) = BitVec.ofNat 8 (v / 256 ^ j) := by
  change ((s.setEcc a .good).setBytes a (leBytes n v)).byte (a + j) = _
  rw [byte_setBytes_in _ _ _ _ (by simpa using hj), getElem_leBytes]

theorem byte_scratchPut_out (s : State) (a n v : Nat) (l : List (Nat × Word × Nat)) {c : Nat} (hc : c < a ∨ a + n ≤ c) :
    (scratchPut s a n v l).byte c = s.byte c := by
  change ((s.setEcc a .good).setBytes a (leBytes n v)).byte c = _
  rw [byte_setBytes_out _ _ _ _ (by simpa using hc)]
  rfl

theorem rd_scratchPut (s : State) (a n v : Nat) (l : List (Nat × Word × Nat)) (c : Nat) : (scratchPut s a n v l).rd c = s.rd c :=
  congrArg (smGet (resetWord c) · c) (setBytes_regs _ _ _)

/-- Byte `j` of the low `n` bytes of a value is byte `j` of the value. -/
theorem ofNat_low_byte (v : Nat) {n j : Nat} (hj : j < n) : BitVec.ofNat 8 (v % 2 ^ (8 * n) / 256 ^ j) = BitVec.ofNat 8 (v / 256 ^ j) := by
  have hpow : 2 ^ (8 * n) = 256 ^ j * 256 ^ (n - j) := by rw [← pow_add, Nat.add_sub_cancel' hj.le, Nat.pow_mul]
  have hdvd : 256 ∣ 256 ^ (n - j) := dvd_pow_self 256 (by omega)
  refine BitVec.eq_of_toNat_eq ?_
  rw [hpow, Nat.mod_mul_right_div_self, BitVec.toNat_ofNat, BitVec.toNat_ofNat]
  exact Nat.mod_mod_of_dvd _ hdvd

theorem ownStore_plain {s : State} {a n : Nat} {u : Upset} (h : plainWord s a u) (k v : Nat) (hn : n ≠ 8) :
    ∃ l, ownStore s k a n v u = (scratchPut s a n v l, true) := by
  by_cases hcode : a / 4 * 4 < (codeRange k).2
  · refine ⟨((s.setEcc a .good).setBytes a (leBytes n v)).stale ++ [(a / 4 * 4, (s.settleWord (a / 8 * 8)).mem32 (a / 4 * 4), k)], ?_⟩
    simp only [ownStore, scratchAcc_write h _ _ hn, if_pos hcode]
    rfl
  · refine ⟨((s.setEcc a .good).setBytes a (leBytes n v)).stale, ?_⟩
    simp only [ownStore, scratchAcc_write h _ _ hn, if_neg hcode]
    rfl

/-- A store in an engine's own scratchpad stands at once (R123); PUSH lowers g29 (R136). -/
theorem jStoreAt_own {s : State} {k a n : Nat} {u : Upset} (h : plainWord s a u) (hown : ownScratch k a = true) (v : Nat) (hn : n ≠ 8)
    (push : Bool) : ∃ l, jStoreAt s k a n v push u =
      .nxt (if push then setG (scratchPut s a n v l) k 29 (BitVec.ofNat 32 a) else scratchPut s a n v l) := by
  obtain ⟨l, hl⟩ := ownStore_plain h k v hn
  exact ⟨l, by rw [jStoreAt, if_pos hown, hl]⟩

/-- An aligned store by an instruction is a store of the low bytes of RD. -/
theorem store_spec {x : CtxId} {f u : Upset} {i : Instr} {m : JMn} {z : Nat}
    (hi : (i, m, z) ∈ [(Instr.sw x f u, JMn.sw, 4), (.sh x f u, .sh, 2), (.sb x f u, .sb, 1)]) (s : State) {s1 : State} {k : Nat}
    {w : Word} (hz : (getG s1 k (jRa w) + jImm w).toNat % z = 0) : z ≠ 8 ∧ exec i s = jRow s x m f u ∧
      jSem s1 k m w u = jStoreAt s1 k (getG s1 k (jRa w) + jImm w).toNat z ((getG s1 k (jRd w)).toNat % 2 ^ (8 * z)) false u := by
  simp only [List.mem_cons, Prod.mk.injEq, List.not_mem_nil, or_false] at hi
  rcases hi with ⟨rfl, rfl, rfl⟩ | ⟨rfl, rfl, rfl⟩ | ⟨rfl, rfl, rfl⟩
  all_goals exact ⟨by decide, rfl, if_neg (not_not.2 hz)⟩

/-- Settles O10: loads by `jLoadAt_own`, stores by `jStoreAt_own`. -/
theorem ownScratchpad : Obligations.OwnScratchpad := by
  have hown {n k : Fin 8} {a : Nat} (h : inScratch n.val a = true) : ownScratch (ctxKey (.pe n k)) a = true := by
    rw [ownScratch, onEngine_pe, ctxKey_pe_div, h]
    rfl
  refine ⟨?_, ?_, ?_⟩
  · rintro s n k f u w s1 x a b rfl ha hb hin hp
    obtain rfl : b = fun i => s1.byte (a.toNat + i) := funext hb
    rw [← jImm_eq_immS] at ha
    subst ha
    have hload := jLoadAt_own hp (hown (k := k) hin)
    refine ⟨fun h hz => ?_, fun h hz => ?_, fun h hz => ?_, fun h => ?_, fun h => ?_⟩
    · refine jRow_completes h ((if_neg (not_not.2 hz)).trans ((hload 4 _ false false).trans ?_))
      rw [← ofNat_leNat_four]
      rfl
    · refine jRow_completes h ((if_neg (not_not.2 hz)).trans ((hload 2 _ true false).trans ?_))
      rw [← ofNat_leNat_two, ← wordOfInt_sext (by decide)]
      rfl
    · refine jRow_completes h ((if_neg (not_not.2 hz)).trans ((hload 2 _ false false).trans ?_))
      rw [← ofNat_leNat_two, setWidth_ofNat_leNat (n := 16) (l := [_, _]) rfl (by decide)]
      rfl
    · refine jRow_completes h ((if_neg (not_not.2 (Nat.mod_one _))).trans ((hload 1 _ true false).trans ?_))
      beta_reduce
      rw [← ofNat_leNat_one (s1.byte _), ← wordOfInt_sext (by decide)]
      rfl
    · refine jRow_completes h ((if_neg (not_not.2 (Nat.mod_one _))).trans ((hload 1 _ false false).trans ?_))
      beta_reduce
      rw [← ofNat_leNat_one (s1.byte _), setWidth_ofNat_leNat (n := 8) (l := [_]) rfl (by decide)]
      rfl
  · rintro s n k f u w s1 x g b rfl rfl hb hin hp hz hlim h
    obtain rfl : b = fun i => s1.byte ((getG s1 (ctxKey (.pe n k)) 29).toNat + i) := funext hb
    refine jRow_completes h ((if_neg (Nat.not_lt.2 hlim)).trans ((if_neg (not_not.2 hz)).trans
      ((jLoadAt_own hp (hown hin) 4 _ false true).trans ?_)))
    rw [← ofNat_leNat_four]
    rfl
  · rintro s n k f u w s1 x a p d rfl ha rfl rfl
    refine ⟨fun i m z hi h hz hin hp => ?_, fun h hlim hz hin hp => ?_⟩
    · rw [← jImm_eq_immS] at ha
      subst ha
      obtain ⟨hn, hexec, hsem⟩ := store_spec hi s hz
      obtain ⟨l, hst⟩ := jStoreAt_own hp (hown hin) ((getG s1 (ctxKey (.pe n k)) (jRd w)).toNat % 2 ^ (8 * z)) hn false
      refine ⟨_, hexec.trans (jRow_completes h (hsem.trans hst)), fun j hj => ?_, fun c hc => byte_scratchPut_out _ _ _ _ _ hc,
        rd_scratchPut _ _ _ _ _⟩
      exact (byte_scratchPut_in _ _ _ _ hj).trans (ofNat_low_byte _ hj)
    · have hg : (getG s1 (ctxKey (.pe n k)) 29).toNat % 4 = 0 := by bv_omega
      obtain ⟨l, hst⟩ := jStoreAt_own hp (hown hin) (getG s1 (ctxKey (.pe n k)) (jRd w)).toNat (by decide : 4 ≠ 8) true
      rw [BitVec.ofNat_toNat, BitVec.setWidth_eq] at hst
      have hbyte (t : State) (v : Word) (c : Nat) : (setG t (ctxKey (.pe n k)) 29 v).byte c = t.byte c := rfl
      refine ⟨_, jRow_completes h ((if_neg (Nat.not_lt.2 hlim)).trans ((if_neg (not_not.2 hg)).trans hst)),
        fun j hj => ?_, fun c hc => ?_, getG_setG_self _ _ (by decide), fun c hc => ?_⟩
      · exact (hbyte _ _ _).trans (byte_scratchPut_in _ _ _ _ hj)
      · exact (hbyte _ _ _).trans (byte_scratchPut_out _ _ _ _ _ hc)
      · exact (rd_setG_ne _ _ (.inr hc)).trans (rd_scratchPut _ _ _ _ _ _)

end Sys2Proof.Machine

/-! SUPPORT. Loads and stores of an engine that go through the interconnect (R17, R125). -/

namespace Sys2Proof.Machine

/-! ## The data cache is the control pairs' (R334) -/

section
variable {k : Nat} (hk : onEngine k = true)
include hk

theorem cacheable_engine (s : State) (a : Nat) : cacheable s k a = false := by
  rw [cacheable, hk]
  rfl

theorem protOk_engine (s : State) (a bit : Nat) : protOk s k a bit = true := by
  rw [protOk, hk]
  rfl

theorem cachedCopy_engine (s : State) (c : SMap Word) (a : Nat) : cachedCopy s c k a = (s, none) := by
  rw [cachedCopy, cacheable_engine hk]
  rfl

theorem dcacheHit_engine (s : State) (a n : Nat) : dcacheHit s k a n = (s, none) := by
  simp only [dcacheHit, cachedCopy_engine hk]

theorem dcachePatch_engine (s : State) (a n v : Nat) : dcachePatch s k a n v = s := if_pos hk

theorem dcacheStore_engine (s : State) (a n v : Nat) : dcacheStore s k a n v = s := by
  rw [dcacheStore, dcachePatch_engine hk, dcachePatch_engine hk, dcachePatch_engine hk, ite_self]

theorem storeOut_engine (s : State) (cyc : Nat) : storeOut s k cyc = s := if_pos hk

/-! ## Issue (R125) -/

variable {a : Nat} (hown : ownScratch k a = false)
include hown

/-- A load beyond the scratchpads blocks its context. -/
theorem jLoadAt_remote (hob : regionOf a ≠ some .ob) (s : State) (n rd : Nat) (sg pop fpu : Bool) (u : Upset) :
    jLoadAt s k a n rd sg pop fpu u = .hold (blockOn s k (.load a n rd sg pop fpu)) := by
  have hnot : ¬ownScratch k a = true := by simp [hown]
  have hprot : ¬protOk s k a 3 = false := by simp [protOk_engine hk]
  rw [jLoadAt, if_neg hnot, if_neg hprot, if_neg hob, dcacheHit_engine hk]

/-- A store beyond the scratchpads is posted. -/
theorem jStoreAt_remote {s : State} (hlen : (postedOf s k).length < 4) (n v : Nat) (u : Upset) :
    jStoreAt s k a n v false u = .nxt { s.setCtx k { s.ctx k with posted := (s.ctx k).posted ++
      [{ addr := a, size := n, val := v, seq := s.issueNo, cyc := cpuNow s (ctxBlk k) }] } with issueNo := s.issueNo + 1 } := by
  have hnot : ¬ownScratch k a = true := by simp [hown]
  have hprot : ¬protOk s k a 2 = false := by simp [protOk_engine hk]
  rw [jStoreAt, if_neg hnot, if_neg hprot, if_neg (Nat.not_le.2 hlen), dcacheStore_engine hk]
  rfl

end

/-! ## Completion -/

/-- The value that a remote load returns goes to its register (R125). -/
theorem remoteLoadDone_load {s s2 : State} {x : CtxId} {a z rd : Nat} {sg : Bool} {v : Word} {u : Upset} (hk : onEngine (ctxKey x) = true)
    (hob : regionOf a ≠ some .ob) (hz : z ≠ 8) (hblk : (s.ctx (ctxKey x)).blk = .load a z rd sg false false)
    (hlive : ctxLive s (ctxKey x) = true) (hb : behind s (ctxKey x) a = false)
    (hacc : busAcc s (ctxMaster (ctxKey x)) a (sizeOf_ z) .rd u = (s2, .ok v))
    (hkeep : (s2.ctx (ctxKey x)).blk = (s.ctx (ctxKey x)).blk) :
    remoteLoadDone s x u = boundary (advance (setG s2 (ctxKey x) rd (if sg then wordOfInt (sext (8 * z) v.toNat) else v)) (ctxKey x))
      (ctxKey x) := by
  have hload : loadAcc s (ctxKey x) a z u = (s2, some v.toNat) := by
    simp only [loadAcc, if_neg hz, cacheable_engine hk, Bool.false_eq_true, if_false, hacc]
  have hval : loadValue s2 (ctxKey x) v.toNat = jEnd s2 (ctxKey x) (.nxt (loadWrite s2 (ctxKey x) v.toNat z rd sg false false)) := by
    simp only [loadValue, hkeep, hblk]
  have hwrite : loadWrite s2 (ctxKey x) v.toNat z rd sg false false =
      setG s2 (ctxKey x) rd (if sg then wordOfInt (sext (8 * z) v.toNat) else v) := by
    simp [loadWrite]
  simp only [remoteLoadDone, hblk, hlive, hb, Bool.true_eq_false, Bool.false_eq_true, or_self, if_false, if_neg hob, hload, hval, hwrite,
    jEnd_nxt]

/-- The oldest posted store of an engine's context reaches its target (R125). -/
theorem postedStoreDone_oldest {s s2 : State} {x : CtxId} {e : PostE} {r : List PostE} {v : Word} {u : Upset}
    (hk : onEngine (ctxKey x) = true) (hpost : (s.ctx (ctxKey x)).posted = e :: r)
    (hfirst : outstanding s (ctxKey x) e.addr e.seq = false) (hz : e.size ≠ 8)
    (hacc : busAcc (s.setCtx (ctxKey x) { s.ctx (ctxKey x) with posted := r }) (ctxMaster (ctxKey x)) e.addr (sizeOf_ e.size)
      (.wr (BitVec.ofNat 32 e.val)) u = (s2, .ok v)) (hblk : (s2.ctx (ctxKey x)).blk = .none) : postedStoreDone s x 0 u = s2 := by
  have hnot : ¬outstanding s (ctxKey x) e.addr e.seq = true := by simp [hfirst]
  simp only [postedStoreDone, hpost, List.getElem?_cons_zero, if_neg hnot, storeOut_engine hk, List.eraseIdx_cons_zero, storeAcc, if_neg hz,
    hacc, afterPosted, hblk]

/-- Settles O11, from issue to completion. -/
theorem remoteAccesses : Obligations.RemoteAccesses := by
  rintro s n k f u w s1 x a d rfl ha rfl hin hob
  rw [← jImm_eq_immS] at ha
  subst ha
  have hk := onEngine_pe n k
  have hown : ownScratch (ctxKey (.pe n k)) (getG s1 (ctxKey (.pe n k)) (jRa w) + jImm w).toNat = false := by
    rw [ownScratch, ctxKey_pe_div, hin, Bool.and_false]
  refine ⟨fun h hz => ?_, fun h hz hlen => ?_, fun z rd sg s2 v hz hblk hlive hb hacc hkeep => ?_,
    fun e r s2 v hpost hfirst hz _ hsteps hacc hblk => ?_⟩
  · obtain ⟨t, hrow, hblk, -⟩ := jRow_blocks h
      ((if_neg (not_not.2 hz)).trans (jLoadAt_remote hk hown hob s1 4 (jRd w) false false false u))
      (by rw [ctx_blockOn_self]; exact Blk.noConfusion)
    exact ⟨t, hrow, by rw [hblk, ctx_blockOn_self]⟩
  · have hval : (getG s1 (ctxKey (.pe n k)) (jRd w)).toNat % 2 ^ (8 * 4) = (getG s1 (ctxKey (.pe n k)) (jRd w)).toNat :=
      Nat.mod_eq_of_lt (BitVec.isLt _)
    have hst := jStoreAt_remote hk hown hlen 4 (getG s1 (ctxKey (.pe n k)) (jRd w)).toNat u
    rw [ctxBlk_pe] at hst
    refine ⟨_, jRow_completes h ((if_neg (not_not.2 hz)).trans ((congrArg (jStoreAt s1 _ _ 4 · false u) hval).trans hst)), ?_,
      fun c => rfl⟩
    exact congrArg CtxH.posted (ctx_setCtx_self s1 _ _)
  · exact congrArg done (remoteLoadDone_load hk hob hz hblk hlive hb (by rwa [ctxMaster_pe]) hkeep)
  · have hdone := postedStoreDone_oldest hk hpost hfirst hz (by rwa [ctxMaster_pe]) hblk
    exact congrArg done ((congrArg runSteps hdone).trans (runSteps_of_noSteps s2 hsteps))

end Sys2Proof.Machine

/-! SUPPORT. The commands of a context and the writes of its registers (R120, R154, Table 6.2). -/

namespace Sys2Proof.Machine

/-! ## STEP under way -/

section
variable {s : State} (h : noSteps s)
include h

/-- With no STEP under way, no context is stepping. -/
theorem step_of_noSteps (k : Nat) : (s.ctx k).step = false := by
  unfold State.ctx smGet
  cases hf : smFind s.ctxH k with
  | none => rfl
  | some c => exact h _ (mem_of_smFind hf)

theorem noSteps_setCtx (k : Nat) {c : CtxH} (hc : c.step = false) : noSteps (s.setCtx k c) := by
  intro e he
  change e ∈ smSet {} s.ctxH k c at he
  unfold smSet at he
  split at he
  · exact h e ((smErase_sublist _ _).mem he)
  · rcases mem_smInsert _ _ _ _ he with rfl | he
    · exact hc
    · exact h e he

theorem noSteps_wr (a : Nat) (v : Word) : noSteps (s.wr a v) := h

theorem noSteps_wdReload (k : Nat) : noSteps (wdReload s k) := noSteps_setCtx h k (step_of_noSteps h k)

theorem noSteps_setCst (k st : Nat) : noSteps (setCst s k st) := by
  rw [setCst, State.setFl]
  refine noSteps_wr (noSteps_setCtx h k ?_) _ _
  exact step_of_noSteps h k

end

/-! ## The write of a register of a context -/

/-- Where a master sees a register of an engine's context. -/
theorem localAddr_pe (m : Master) (n j : Fin 8) {i : Nat} (hi : i < 18) :
    localAddr m.val (ctxReg (ctxKey (.pe n j)) i) = 0x100F0000 + n.val * 0x100000 + (0x100 + j.val * 0x80 + 4 * i) := by
  have hreg : ctxReg (ctxKey (.pe n j)) i = 0x100F0000 + n.val * 0x100000 + 0x100 + j.val * 0x80 + 4 * i := by
    rw [ctxReg, if_pos (ctxKey_pe_lt n j), ctxKey_pe_div, ctxKey_pe_mod]
  rw [localAddr, if_neg (by omega), hreg]
  omega

/-- Where a master sees a register of a pair: its own pair in the window of R341. -/
theorem localAddr_pair (m : Master) (b : Bool) {i : Nat} (hi : i < 18) :
    localAddr m.val (ctxReg (ctxKey (.pair b)) i) =
      if m.val = 9 + b.toNat then 0x40800000 + (0x100 + 4 * i) else 0x40810000 + b.toNat * 0x10000 + (0x100 + 4 * i) := by
  have hb := b.toNat_lt
  have hreg : ctxReg (ctxKey (.pair b)) i = 0x40810100 + b.toNat * 0x10000 + 4 * i := by
    rw [ctxReg, ctxKey, if_neg (by omega), Nat.add_sub_cancel_left]
  rw [localAddr, hreg]
  split_ifs <;> omega

/-- No register of a context is a route of interrupts. -/
theorem routeKind_ctx {a : Nat} (ha : (0x10000000 ≤ a ∧ a < 0x10800000 ∧ a % 0x100000 ≠ 0xF0020) ∨
    (0x40800000 ≤ a ∧ a < 0x40830000)) :
    routeKind a = none := by
  unfold routeKind TU_IRQROUTE IMG_IRQROUTE LDR_IRQROUTE SW_IRQROUTE MEM_IRQROUTE MEM_DG_IRQROUTE ARB_IRQROUTE HB_IRQROUTE SLOT_IRQROUTE
    PMU_IRQROUTE AON_IRQROUTE
  simp (disch := omega) only [if_neg]

theorem routed_ctx (m : Master) (x : CtxId) {i : Nat} (hi : i < 18) (v : Word) :
    routed m (localAddr m.val (ctxReg (ctxKey x) i)) (ctxRegion m x) v = v := by
  have hnone : routeKind (if ctxRegion m x = .plOwn then ownWindow m.val (localAddr m.val (ctxReg (ctxKey x) i))
      else localAddr m.val (ctxReg (ctxKey x) i)) = none := by
    refine routeKind_ctx ?_
    cases x with
    | pe n j =>
      rw [localAddr_pe m n j hi, if_neg Region.noConfusion]
      omega
    | pair b =>
      have hb := b.toNat_lt
      rw [localAddr_pair m b hi, ownWindow]
      split_ifs <;> omega
  rw [routed, hnone]
  rfl

/-- A write of a register of a context reaches the context. -/
theorem targetWrite_ctx (s : State) (m : Master) (x : CtxId) {i : Nat} (hi : i < 18) (v : Word) :
    targetWrite s m.val (localAddr m.val (ctxReg (ctxKey x) i)) (ctxRegion m x) v = ctxWrite s (ctxKey x) i v := by
  cases x with
  | pe n j =>
    have hoff : (0x100F0000 + n.val * 0x100000 + (0x100 + j.val * 0x80 + 4 * i)) % 0x1000 = 0x100 + j.val * 0x80 + 4 * i := by omega
    have hkey : 8 * n.val + (0x100 + j.val * 0x80 + 4 * i - 0x100) / 0x80 = ctxKey (.pe n j) := by
      simp only [ctxKey]
      omega
    have hix : (0x100 + j.val * 0x80 + 4 * i) % 0x80 / 4 = i := by omega
    rw [localAddr_pe m n j hi, ctxRegion, targetWrite_pe, hoff, peWrite, if_pos (by omega), hkey, hix]
  | pair b =>
    have hpl (p : Nat) : plWrite s p (0x100 + 4 * i) v = ctxWrite s (64 + p) i v := by
      rw [plWrite, if_neg (by omega), if_pos (by omega), Nat.add_sub_cancel_left, Nat.mul_div_cancel_left _ (by decide)]
    rw [localAddr_pair m b hi, ctxRegion]
    split_ifs with hm
    · have hoff : (0x40800000 + (0x100 + 4 * i)) % 0x10000 = 0x100 + 4 * i := by omega
      simp only [targetWrite, maskedTarget, Bool.and_false, Bool.false_eq_true, if_false, hoff, hpl, hm, Nat.add_sub_cancel_left, ctxKey]
    · have hoff : (0x40810000 + b.toNat * 0x10000 + (0x100 + 4 * i)) % 0x10000 = 0x100 + 4 * i := by omega
      simp only [targetWrite, maskedTarget, Bool.and_false, Bool.false_eq_true, if_false, hoff, hpl, ctxKey]

/-- The row of a write of a register of a context that its rules accept: its effect, the response, and what steps then. -/
theorem writeRow_ctx_run {s u : State} {m : Master} {x : CtxId} {i : Nat} (hi : i < 18)
    (h : opens s m (localAddr m.val (ctxReg (ctxKey x) i)) (ctxRegion m x)) {v : Word} (hw : ctxWrite s (ctxKey x) i v = accept u) :
    writeRow s m (localAddr m.val (ctxReg (ctxKey x) i)) v = done (runSteps { u with resp := .ok 0 }) := by
  have hcell : maskedCell (ctxRegion m x) = false := by
    unfold ctxRegion
    split
    · rfl
    · split_ifs <;> rfl
  rw [writeRow, answer, busWrite_opens h (.inl hcell), routed_ctx m x hi, targetWrite_ctx s m x hi, hw]

/-- With no STEP under way the row ends with the effect and the response. -/
theorem writeRow_ctx {s u : State} {m : Master} {x : CtxId} {i : Nat} (hi : i < 18)
    (h : opens s m (localAddr m.val (ctxReg (ctxKey x) i)) (ctxRegion m x)) {v : Word} (hw : ctxWrite s (ctxKey x) i v = accept u)
    (hs : noSteps u) : writeRow s m (localAddr m.val (ctxReg (ctxKey x) i)) v = .next (answered u (.ok 0)) :=
  (writeRow_ctx_run hi h hw).trans (congrArg done (runSteps_of_noSteps { u with resp := .ok 0 } hs))

/-! ## What the commands do (Table 6.2) -/

section
variable (s : State) (k : Nat)

theorem cst_ctxStart : cst (ctxStart s k) k = 1 := by
  rw [ctxStart, wdReload, cst_setCtx, cst_setFl_self]

theorem ctxHM_ctxStart : ctxHM (ctxStart s k) k = false := by
  rw [ctxStart, wdReload, ctxHM_setCtx, ctxHM_setFl_state, ctxHM_setCtx, ctxHM_wr _ _ _ (by decide), ctxHM_setBt_IE, ctxHM_setBt_self]

theorem ctxIE_ctxStart : ctxIE (ctxStart s k) k = false := by
  rw [ctxStart, wdReload, ctxIE_setCtx, ctxIE_setFl_state, ctxIE_setCtx, ctxIE_wr _ _ _ (by decide), ctxIE_setBt_self]

/-- The return stack is empty, its pointer at its base (R137). -/
theorem rd_ctxStart_rsptr : (ctxStart s k).rd (ctxReg k 10) = s.rd (ctxReg k 8) := by
  rw [ctxStart, wdReload, rd_setCtx, rd_setFl_ne _ _ _ _ (ctxReg_ne k (by decide)), rd_setCtx, rd_wr_self]

theorem rd_ctxStart {i : Nat} (h1 : i ≠ 1) (h10 : i ≠ 10) : (ctxStart s k).rd (ctxReg k i) = s.rd (ctxReg k i) := by
  rw [ctxStart, wdReload, rd_setCtx, rd_setFl_ne _ _ _ _ (ctxReg_ne k h1), rd_setCtx, rd_wr_ctxReg _ _ _ h10,
    rd_setBt_ne _ _ _ (ctxReg_ne k h1), rd_setBt_ne _ _ _ (ctxReg_ne k h1)]

theorem ctx_ctxStart : (ctxStart s k).ctx k =
    { s.ctx k with rs := [], snap := none, slot := none, succ := none, blk := .none, stopping := false, step := false, waited := false,
                   wdUsed := 0, wdFrom := s.cycles } := by
  rw [ctxStart, wdReload, ctx_setCtx_self, State.setFl, ctx_wr, ctx_setCtx_self, ctx_wr, State.setBt, State.setBt, ctx_wr, ctx_wr,
    State.wr_cycles, State.setCtx_cycles, State.wr_cycles, State.wr_cycles, State.wr_cycles]

theorem ctxStart_cycles : (ctxStart s k).cycles = s.cycles := by
  rw [ctxStart, wdReload, State.setCtx_cycles, State.setFl, State.wr_cycles, State.setCtx_cycles, State.wr_cycles, State.setBt, State.setBt,
    State.wr_cycles, State.wr_cycles]

theorem noSteps_ctxStart {s : State} (h : noSteps s) (k : Nat) : noSteps (ctxStart s k) :=
  noSteps_wdReload (noSteps_wr (noSteps_setCtx (noSteps_wr (noSteps_wr (noSteps_wr h _ _) _ _) _ _) k rfl) _ _) k

theorem ctx_ctxStopNow : (ctxStopNow s k).ctx k =
    { s.ctx k with wdUsed := wdCount s k, wdFrom := s.cycles, waited := cst s k == 2, stopping := false, step := false } := by
  rw [ctxStopNow, ctx_setCtx_self, ctx_setCst_self]

end

/-- STOP of a context at a boundary. -/
theorem ctxStop_now {s : State} {k : Nat} (hb : (s.ctx k).blk = .none) (hs : (s.ctx k).slot = none) : ctxStop s k = ctxStopNow s k := by
  have hab : ¬abandonable s k = true := by simp [abandonable, hb]
  have hno : ¬((s.ctx k).blk ≠ .none ∨ (s.ctx k).slot.isSome = true) := by simp [hb, hs]
  rw [ctxStop, if_neg hab, if_neg hno]

/-- RESUME where nothing waits for the boundary. -/
theorem ctxResume_quiet {s : State} {k : Nat} (h : nothingWaits s k) : ctxResume s k =
    setCst (s.setCtx k { s.ctx k with waited := false, step := false }) k (if (s.ctx k).waited then 2 else 1) := by
  refine boundary_atRest (.inr (.inr (.inr ?_)))
  rw [ctx_setCst_self, ctx_setCtx_self]
  exact ⟨h.1, .inl h.2⟩

/-! ## WDOG (R154) -/

/-- The word of WDOG after a write. -/
theorem wdogWord_fields (v : Word) (en : Bool) :
    fld (putBit (v &&& 0x00FFFFFF) 31 en) 23 0 = fld v 23 0 ∧ bitAt (putBit (v &&& 0x00FFFFFF) 31 en) 30 = false ∧
      bitAt (putBit (v &&& 0x00FFFFFF) 31 en) 31 = en := by
  refine ⟨?_, ?_, bitAt_putBit_self _ _ _ (by decide)⟩
  · rw [fld_putBit_apart _ _ (by decide) (by decide) (.inr (by decide)), fld, fld, BitVec.toNat_and]
    have hmask : v.toNat &&& 0xFFFFFF = v.toNat % 2 ^ 24 := Nat.and_two_pow_sub_one_eq_mod _ 24
    simp [hmask]
  · rw [bitAt_putBit_ne _ _ _ _ (by decide) (by decide), bitAt_eq_getLsbD, BitVec.getLsbD_and]
    exact Bool.and_false _

section
variable (s : State) (k : Nat) (v : Word)

/-- EN is never cleared, EXP is (R154). -/
theorem rd_wdogWrite : (wdogWrite s k v).rd (ctxReg k 11) = putBit (v &&& 0x00FFFFFF) 31 (s.bt (ctxReg k 11) 31 || bitAt v 31) := by
  rw [wdogWrite, wdReload, rd_setCtx, rd_wr_self]

theorem ctx_wdogWrite : (wdogWrite s k v).ctx k = { s.ctx k with wdUsed := 0, wdFrom := s.cycles } := by
  rw [wdogWrite, wdReload, ctx_setCtx_self, ctx_wr, State.wr_cycles]

theorem wdogWrite_cycles : (wdogWrite s k v).cycles = s.cycles := by
  rw [wdogWrite, wdReload, State.setCtx_cycles, State.wr_cycles]

theorem noSteps_wdogWrite {s : State} (h : noSteps s) (k : Nat) (v : Word) : noSteps (wdogWrite s k v) := by
  rw [wdogWrite]
  exact noSteps_wdReload (noSteps_wr h _ _) k

theorem ctxWrite_wdog (h : fld v 23 0 ≠ 0) : ctxWrite s k 11 v = accept (wdogWrite s k v) := by
  simp [ctxWrite, ctxHeld, ctxBadValue, h, ctxSet]

end

section
variable (u : State) (r : Resp) {x : CtxId}

theorem rd_answered_ctx {i : Nat} (hi : i < 32) : (answered u r).rd (ctxReg (ctxKey x) i) = u.rd (ctxReg (ctxKey x) i) :=
  close_ctxReg (ctxKey_lt x) _ hi

theorem cst_answered : cst (answered u r) (ctxKey x) = cst u (ctxKey x) := close_cst (ctxKey_lt x) _
theorem ctxHM_answered : ctxHM (answered u r) (ctxKey x) = ctxHM u (ctxKey x) := close_ctxHM (ctxKey_lt x) _
theorem ctxIE_answered : ctxIE (answered u r) (ctxKey x) = ctxIE u (ctxKey x) := close_ctxIE (ctxKey_lt x) _
theorem getG_answered {i : Nat} (hi : i < 32) : getG (answered u r) (ctxKey x) i = getG u (ctxKey x) i := close_getG (ctxKey_lt x) _ hi
theorem cycles_answered : (answered u r).cycles = u.cycles := close_cycles _
theorem ctx_answered (k : Nat) : (answered u r).ctx k = u.ctx k := close_ctx _ k

end

/-- Settles O24, command by command. -/
theorem contextCommands : Obligations.ContextCommands := by
  rintro s m x k h rfl rfl hsteps
  have hk := ctxKey_lt x
  have hcmd {c : Word} {u : State} (ho : opens s m (localAddr m.val (ctxReg (ctxKey x) 0)) (ctxRegion m x))
      (hw : ctxCommand s (ctxKey x) (fld c 3 0) = accept u) (hu : noSteps u) :
      writeRow s m (localAddr m.val (ctxReg (ctxKey x) 0)) c = .next (answered u (.ok 0)) := writeRow_ctx (by decide) ho hw hu
  refine ⟨fun ho => ⟨fun hst => ?_, fun hst hb hsl => ?_, fun hst hq => ?_, fun hst => ?_⟩, fun v ho hper => ?_⟩
  · have hw : ctxCommand s (ctxKey x) 1 = accept (ctxStart s (ctxKey x)) := by simp [ctxCommand, hst]
    refine ⟨_, hcmd ho hw (noSteps_ctxStart hsteps _), ?_, ?_, ?_, ?_, ?_, ?_, ?_, close_resp _⟩
    · rw [cst_answered, cst_ctxStart]
    · rw [ctxHM_answered, ctxHM_ctxStart]
    · rw [ctxIE_answered, ctxIE_ctxStart]
    · rw [ctx_answered, ctx_ctxStart]
    · rw [rd_answered_ctx _ _ (by decide), rd_ctxStart_rsptr]
    · exact wdCount_of_reloaded (by rw [ctx_answered, ctx_ctxStart]) (by rw [ctx_answered, ctx_ctxStart, cycles_answered, ctxStart_cycles])
    · rw [rd_answered_ctx _ _ (by decide), rd_ctxStart _ _ (by decide) (by decide)]
  · have hw : ctxCommand s (ctxKey x) 2 = accept (ctxStopNow s (ctxKey x)) := by simp [ctxCommand, hst, ctxStop_now hb hsl]
    refine ⟨_, hcmd ho hw (noSteps_setCtx (noSteps_setCst hsteps _ _) _ rfl), ?_, ?_, ?_⟩
    · rw [cst_answered, ctxStopNow, cst_setCtx, cst_setCst]
    · rw [ctx_answered, ctx_ctxStopNow]
    · rw [rd_answered_ctx _ _ (by decide), ctxStopNow, rd_setCtx, rd_setCst _ _ _ (by decide)]
  · have hw : ctxCommand s (ctxKey x) 3 = accept (ctxResume s (ctxKey x)) := by simp [ctxCommand, hst]
    rw [ctxResume_quiet hq] at hw
    refine ⟨_, hcmd ho hw (noSteps_setCst (noSteps_setCtx hsteps _ rfl) _ _), ?_, ?_, ?_⟩
    · rw [cst_answered, cst_setCst]
      split <;> rfl
    · rw [ctx_answered, ctx_setCst_self, ctx_setCtx_self]
    · rw [rd_answered_ctx _ _ (by decide), rd_setCst _ _ _ (by decide), rd_setCtx]
  · have hw : ctxCommand s (ctxKey x) 5 = accept (setCst s (ctxKey x) 0) := by simp [ctxCommand, hst]
    refine ⟨_, hcmd ho hw (noSteps_setCst hsteps _ _), ?_, ?_, fun i hi => ?_⟩
    · rw [cst_answered, cst_setCst]
    · rw [ctx_answered, ctx_setCst_self]
    · rw [getG_answered _ _ hi, setCst, State.setFl, getG_wr hi (by decide), getG_setCtx]
  · obtain ⟨hfper, hexp, hen⟩ := wdogWord_fields v (s.bt (ctxReg (ctxKey x) 11) 31 || bitAt v 31)
    refine ⟨_, writeRow_ctx (by decide) ho (ctxWrite_wdog s _ v hper) (noSteps_wdogWrite hsteps _ v), ?_, ?_, ?_, ?_⟩
    · rw [State.fl, rd_answered_ctx _ _ (by decide), rd_wdogWrite, hfper]
    · rw [State.bt, rd_answered_ctx _ _ (by decide), rd_wdogWrite, hexp]
    · rw [State.bt, rd_answered_ctx _ _ (by decide), rd_wdogWrite, hen]
    · exact wdCount_of_reloaded (by rw [ctx_answered, ctx_wdogWrite])
        (by rw [ctx_answered, ctx_wdogWrite, cycles_answered, wdogWrite_cycles])

end Sys2Proof.Machine

/-! SUPPORT. STEP (R120, Table 6.2), and what a context meets between instructions (R149, R150, R151, R154). -/

namespace Sys2Proof.Machine

/-! ## STEP -/

/-- The command to STEP, in the state that it leaves. -/
def stepTold (s : State) (k : Nat) : State :=
  { s.setCtx k { s.ctx k with step := true, waited := false } with resp := .ok 0 }

/-- Listing a context puts it between contexts that were listed. -/
theorem smInsert_split {α : Type} (m : SMap α) (k : Nat) (v : α) :
    ∃ l r, smInsert m k v = l ++ (k, v) :: r ∧ (∀ e ∈ l, e ∈ m) ∧ ∀ e ∈ r, e ∈ m := by
  induction m with
  | nil => exact ⟨[], [], rfl, by simp, by simp⟩
  | cons e m ih =>
    obtain ⟨j, u⟩ := e
    unfold smInsert
    split_ifs
    · exact ⟨[], m, rfl, by simp, fun e he => .tail _ he⟩
    · exact ⟨[], (j, u) :: m, rfl, by simp, fun e he => he⟩
    · obtain ⟨l, r, h, hl, hr⟩ := ih
      refine ⟨(j, u) :: l, r, by rw [h]; rfl, ?_, fun e he => .tail _ (hr e he)⟩
      rintro e (_ | ⟨_, he⟩)
      · exact .head _
      · exact .tail _ (hl e he)

/-- Contexts with no STEP under way make none. -/
theorem foldl_stepOne {l : List (Nat × CtxH)} (h : ∀ e ∈ l, e.2.step = false) (t : State) :
    l.foldl (fun s e => if e.2.step then stepOne s e.1 else s) t = t := by
  induction l generalizing t with
  | nil => rfl
  | cons e l ih =>
    rw [List.foldl_cons, h e (.head _), if_neg Bool.false_ne_true, ih fun e he => h e (.tail _ he)]

/-- One context told to STEP makes one. -/
theorem runSteps_stepTold {s : State} (h : noSteps s) (k : Nat) : runSteps (stepTold s k) = stepOne (stepTold s k) k := by
  have hne : ({ s.ctx k with step := true, waited := false } : CtxH) ≠ {} := fun he => Bool.noConfusion (congrArg CtxH.step he)
  obtain ⟨l, r, hsplit, hl, hr⟩ := smInsert_split s.ctxH k { s.ctx k with step := true, waited := false }
  have hctx : (stepTold s k).ctxH = l ++ (k, { s.ctx k with step := true, waited := false }) :: r := (if_neg hne).trans hsplit
  rw [runSteps, hctx, List.foldl_append, foldl_stepOne (fun e he => h e (hl e he)), List.foldl_cons, if_pos rfl,
    foldl_stepOne (fun e he => h e (hr e he))]

section
variable (s : State) (k : Nat)

theorem ctx_stepTold : (stepTold s k).ctx k = { s.ctx k with step := true, waited := false } := ctx_setCtx_self s k _

theorem ctxLive_stepTold : ctxLive (stepTold s k) k = ctxLive s k := by
  have hreset : inReset (stepTold s k) (ctxBlk k) = inReset s (ctxBlk k) := inReset_congr rfl rfl rfl rfl rfl rfl rfl rfl rfl _
  rw [ctxLive, hreset]
  rfl

theorem intLines_stepTold : intLines (stepTold s k) k = intLines s k := rfl

/-- Being told to STEP makes nothing due (R149). -/
theorem excDue_stepTold : excDue (stepTold s k) k = excDue s k := by
  have hab : abandonable (stepTold s k) k = abandonable s k := by rw [abandonable, ctx_stepTold, abandonable]
  have hat : atBoundary (stepTold s k) k = atBoundary s k := by rw [atBoundary, ctx_stepTold, hab, atBoundary]
  have hie : ctxIE (stepTold s k) k = ctxIE s k := rfl
  have hhm : ctxHM (stepTold s k) k = ctxHM s k := rfl
  simp only [excDue, ctx_stepTold, hab, hat, hie, hhm, intLines_stepTold]

end

/-- A STEP with nothing due, of an instruction other than a control transfer: the instruction, and the STEP is done. -/
theorem stepOne_run {s v s1 : State} {k : Nat} {w : Word} {i : JMn} (hstep : (s.ctx k).step = true) (hlive : ctxLive s k = true)
    (hst : cst s k = 0) (hblk : (s.ctx k).blk = .none) (hdue : excDue s k = 0) (hf : jFetch s k .good = (s1, some (.inl w)))
    (hd : jDecode (!onEngine k) w = some i) (hi : i.transfer = false) (hrun : jRun s k none .good .good = some v) :
    stepOne s k = v.setCtx k { v.ctx k with step := false } := by
  have hdone : stepDue s k = s := by
    rw [stepDue, hdue]
    rfl
  have htr : stepTransfer s k = false := by simp only [stepTransfer, hf, hd, hi, Bool.false_and]
  have hgo : ¬(!(s.ctx k).step || !ctxLive s k || cst s k != 0 || (s.ctx k).blk != .none) = true := by simp [hstep, hlive, hst, hblk]
  simp only [stepOne, if_neg hgo, hdone, htr, hrun, Bool.false_and, Bool.false_eq_true, if_false]

/-- An ADD that issues. -/
theorem jRun_add {s s1 : State} {k : Nat} {w : Word} (hf : jFetch s k .good = (s1, some (.inl w)))
    (hd : jDecode (!onEngine k) w = some .add) (hslot : (s1.ctx k).slot = none) : jRun s k none .good .good =
      some (advance (countIssue (setG s1 k (jRd w) (getG s1 k (jRa w) + getG s1 k (jRb w))) k) k) := by
  simp [jRun, hf, hd, jForbidden_eq_false, hslot, jSem, aluRR, jHeld, jCounted, jFinish]

theorem succOf_setG (s : State) {k i : Nat} (hi : i < 32) (v : Word) : succOf (setG s k i v) k = succOf s k := by
  rw [succOf, ctx_setG, ctxPC, rd_setG_ctxReg hi (by decide), ← ctxPC, succOf]

theorem getG_advance (s : State) {k i : Nat} (hi : i < 32) : getG (advance s k) k i = getG s k i := by
  rw [advance, setPC, getG_wr hi (by decide), getG_setCtx]

theorem getG_countIssue (s : State) {k i : Nat} (hi : i < 32) : getG (countIssue s k) k i = getG s k i := getG_wr hi (by decide) _ _

theorem cst_setG (s : State) {k i : Nat} (hi : i < 32) (v : Word) : cst (setG s k i v) k = cst s k := by
  rw [cst, State.fl, rd_setG_ctxReg hi (by decide), ← State.fl, ← cst]

/-- The row of a STEP told to a STOPPED context (Table 6.2). -/
theorem ctxStep_row {s : State} {m : Master} {x : CtxId} (h : noSteps s)
    (ho : opens s m (localAddr m.val (ctxReg (ctxKey x) 0)) (ctxRegion m x)) (hst : cst s (ctxKey x) = 0) :
    exec (.ctxStep m x) s = .next (close (stepOne (stepTold s (ctxKey x)) (ctxKey x))) := by
  have hw : ctxWrite s (ctxKey x) 0 4 = accept (s.setCtx (ctxKey x) { s.ctx (ctxKey x) with step := true, waited := false }) := by
    change ctxCommand s (ctxKey x) 4 = _
    simp [ctxCommand, hst]
  rw [← runSteps_stepTold h]
  exact writeRow_ctx_run (by decide) ho hw

/-! ## Between instructions -/

/-- The entry of an exception, with its issue noted (R121, R147). -/
theorem entered_takeExc {s v : State} {x : CtxId} {code rpc rnext : Nat} {slot : Bool} {ta : Option Nat}
    (hc : code = 6 ∨ code = 13 ∨ code = 14) (hv : v = takeExc s (ctxKey x) code rpc rnext slot 0 ta) :
    v = excEntry s (ctxKey x) code rpc rnext slot 0 ta ∧ entered (close v) (ctxKey x) code rpc rnext slot 0 := by
  rw [takeExc_eq_excEntry (.inr hc)] at hv
  exact ⟨hv, hv ▸ entered_close (ctxKey_lt x) (entered_excEntry _ _ _ _ _ _ _ (by decide))⟩

theorem rd_entryIssue (s : State) (k a : Nat) : (entryIssue s k).rd a = s.rd a := rd_noteIssue ..

theorem intTaken_due {s : State} {x : CtxId} (hlive : ctxLive s (ctxKey x) = true) (hst : cst s (ctxKey x) = 1)
    (hdue : excDue s (ctxKey x) = 3) (hturn : jTurn s (ctxKey x) = true) : intTaken s x = takeInt s (ctxKey x) :=
  if_pos (by simp [hlive, hst, hdue, hturn])

theorem dbuswTaken_due {s : State} {x : CtxId} (hlive : ctxLive s (ctxKey x) = true) (hst : cst s (ctxKey x) = 1)
    (hdue : excDue s (ctxKey x) = 1) (hturn : jTurn s (ctxKey x) = true) : dbuswTaken s x = takeDbusw s (ctxKey x) :=
  if_pos (by simp [hlive, hst, hdue, hturn])

/-- With nothing pending and interrupts off, nothing is due. -/
theorem excDue_quiet {s : State} {k : Nat} (hie : ctxIE s k = false) (hpend : (s.ctx k).wdPend = false) (hdbw : (s.ctx k).dbw = none) :
    excDue s k = 0 := by
  simp [excDue, hie, hpend, hdbw]

/-- WAIT ends on a line (R151). -/
theorem contextWake_quiet {s : State} {x : CtxId} (hlive : ctxLive s (ctxKey x) = true) (hst : cst s (ctxKey x) = 2)
    (hline : intLines s (ctxKey x) ≠ 0) (hie : ctxIE s (ctxKey x) = false) (hpend : (s.ctx (ctxKey x)).wdPend = false)
    (hdbw : (s.ctx (ctxKey x)).dbw = none) : contextWake s x = setCst s (ctxKey x) 1 := by
  have hgo : (ctxLive s (ctxKey x) && cst s (ctxKey x) == 2 && intLines s (ctxKey x) != 0) = true :=
    Bool.and_eq_true_iff.2 ⟨by simp [hlive, hst], bne_iff_ne.2 hline⟩
  have hdue : excDue (setCst s (ctxKey x) 1) (ctxKey x) = 0 :=
    excDue_quiet (by rw [ctxIE_setCst, hie]) (by rw [ctx_setCst_self]; exact hpend) (by rw [ctx_setCst_self]; exact hdbw)
  rw [contextWake, if_pos hgo]
  dsimp only
  rw [hdue]
  rfl

/-! ## The watchdog (R154) -/

theorem rd_wdogFirst_self (s : State) (k : Nat) : (wdogFirst s k).rd (ctxReg k 11) = putBit (s.rd (ctxReg k 11)) 30 true := by
  rw [wdogFirst, rd_setCtx, wdReload, rd_setCtx, rd_setBt_self]

theorem cst_wdogFirst (s : State) (k : Nat) : cst (wdogFirst s k) k = cst s k := congrArg (fld · 31 30) (rd_wdogFirst s k (by decide))

theorem ctxPC_wdogFirst (s : State) (k : Nat) : ctxPC (wdogFirst s k) k = ctxPC s k := congrArg BitVec.toNat (rd_wdogFirst s k (by decide))

theorem wdogFirst_cycles (s : State) (k : Nat) : (wdogFirst s k).cycles = s.cycles := by
  rw [wdogFirst, State.setCtx_cycles, wdReload, State.setCtx_cycles, State.setBt, State.wr_cycles]

/-- WDOG taken leaves the register and the count of the watchdog. -/
theorem takeWdog_watchdog (s : State) (k : Nat) : (takeWdog s k).rd (ctxReg k 11) = s.rd (ctxReg k 11) ∧
    ((takeWdog s k).ctx k).wdUsed = (s.ctx k).wdUsed ∧ ((takeWdog s k).ctx k).wdFrom = (s.ctx k).wdFrom ∧
    (takeWdog s k).cycles = s.cycles := by
  refine ⟨?_, ?_, ?_, by rw [(CtxSame.takeWdog k s).eq]⟩
  all_goals rw [takeWdog, takeExc_eq_excEntry (.inr (.inr (.inl rfl)))]
  · rw [rd_excEntry _ _ _ _ _ _ _ _ (by decide), rd_entryIssue, rd_setCtx]
  · rw [ctx_excEntry_self, entryIssue, ctx_noteIssue_self, ctx_setCtx_self]
  · rw [ctx_excEntry_self, entryIssue, ctx_noteIssue_self, ctx_setCtx_self]

/-- After the first expiry EXP is set and the count reloaded, whether WDOG is taken or waits. -/
theorem wdogExpire_first_watchdog {s : State} {x : CtxId} (hlive : ctxLive s (ctxKey x) = true) (hout : wdOut s (ctxKey x) = true)
    (hexp : s.bt (ctxReg (ctxKey x) 11) 30 = false) :
    (wdogExpire s x).bt (ctxReg (ctxKey x) 11) 30 = true ∧ wdCount (wdogExpire s x) (ctxKey x) = 0 := by
  have hbit : bitAt (putBit (s.rd (ctxReg (ctxKey x) 11)) 30 true) 30 = true := bitAt_putBit_self _ _ _ (by decide)
  obtain ⟨hrd, hu, hfrom, hcyc⟩ := takeWdog_watchdog (wdogFirst s (ctxKey x)) (ctxKey x)
  rw [ctx_wdogFirst] at hu hfrom
  rw [wdogFirst_cycles] at hcyc
  rw [wdogExpire_first hlive hout hexp]
  split
  · exact ⟨by rw [State.bt, hrd, rd_wdogFirst_self, hbit], wdCount_of_reloaded hu (hfrom.trans hcyc.symm)⟩
  · exact ⟨by rw [State.bt, rd_wdogFirst_self, hbit],
      wdCount_of_reloaded (by rw [ctx_wdogFirst]) (by rw [ctx_wdogFirst, wdogFirst_cycles])⟩

/-- At a boundary outside handler mode the first expiry takes WDOG at once. -/
theorem excDue_wdogFirst {s : State} {k : Nat} (hblk : (s.ctx k).blk = .none) (hslot : (s.ctx k).slot = none)
    (hdbw : (s.ctx k).dbw = none) (hhm : ctxHM s k = false) : excDue (wdogFirst s k) k = 2 := by
  have hat : atBoundary (wdogFirst s k) k = true := by simp [atBoundary, ctx_wdogFirst, hblk, hslot]
  simp [excDue, ctxHM_wdogFirst, hhm, hat, ctx_wdogFirst, hdbw]

/-- A fault leaves PE_CTRL. -/
theorem rd_ctxFault_ctrl (s : State) (n k : Fin 8) (code pc : Nat) :
    (ctxFault s (ctxKey (.pe n k)) code pc).rd (PE_CTRL n.val) = s.rd (PE_CTRL n.val) := by
  have hirq : PE_CTRL n.val ≠ PE_IRQSTAT n.val := by unfold PE_CTRL PE_IRQSTAT; omega
  have hfault : PE_CTRL n.val ≠ PE_FAULT n.val := by unfold PE_CTRL PE_FAULT; omega
  have hpc : PE_CTRL n.val ≠ PE_FAULTPC n.val := by unfold PE_CTRL PE_FAULTPC; omega
  have hstat : PE_CTRL n.val ≠ ctxReg (ctxKey (.pe n k)) 1 := by
    unfold PE_CTRL ctxReg PE_CTX_CTRL
    split <;> omega
  have hhalt := rd_ctxHalted_ne s hstat
  rw [ctxFault_engine (ctxKey_pe_lt n k), ctxKey_pe_div, rd_raise_ne _ _ hirq]
  unfold faultNoted
  split
  · exact hhalt
  · rw [rd_wr_ne _ _ hpc, rd_wr_ne _ _ hfault, hhalt]

/-- The second expiry faults the context (R154). -/
theorem wdogExpire_second {s : State} {n k : Fin 8} (hlive : ctxLive s (ctxKey (.pe n k)) = true) (hout : wdOut s (ctxKey (.pe n k)) = true)
    (hexp : s.bt (ctxReg (ctxKey (.pe n k)) 11) 30 = true) (hctrl : s.bt (PE_CTRL n.val) 0 = false) :
    wdogExpire s (.pe n k) = ctxFault s (ctxKey (.pe n k)) 13 (ctxPC s (ctxKey (.pe n k))) := by
  have hgo : ¬(ctxLive s (ctxKey (.pe n k)) = false ∨ wdOut s (ctxKey (.pe n k)) = false) := by simp [hlive, hout]
  have hkeep : (ctxFault s (ctxKey (.pe n k)) 13 (ctxPC s (ctxKey (.pe n k)))).bt (PE_CTRL (ctxKey (.pe n k) / 8)) 0 = false := by
    rw [State.bt, ctxKey_pe_div, rd_ctxFault_ctrl, ← State.bt, hctrl]
  exact (if_neg hgo).trans ((if_pos hexp).trans (if_neg (by simp [hkeep])))

/-- Settles O25: the STEP of an ADD by `stepOne_run`, the rest by the entry of an exception. -/
theorem contextStepAndEvents : Obligations.ContextStepAndEvents := by
  refine ⟨?_, ?_⟩
  · rintro s m x k s0 s1 w rfl hsteps ho hst hlive hblk hdue - rfl hf hslot hd
    have hk := ctxKey_lt x
    have hstep := stepOne_run (s := stepTold s (ctxKey x)) (by rw [ctx_stepTold]) (by rw [ctxLive_stepTold, hlive]) hst
      (by rw [ctx_stepTold]; exact hblk) (by rw [excDue_stepTold, hdue]) hf hd rfl (jRun_add hf hd hslot)
    refine ⟨_, (ctxStep_row hsteps ho hst).trans (by rw [hstep]), ?_, fun hrd => ?_, ?_, ?_⟩
    · rw [close_ctx, ctx_setCtx_self]
    · rw [close_getG hk _ (jRd_lt w), getG_setCtx, getG_advance _ (jRd_lt w), getG_countIssue _ (jRd_lt w), getG_setG_self _ _ hrd]
    · rw [close_ctxPC hk, ctxPC_setCtx, ctxPC_advance, ctx_countIssue, ctx_setG, hslot, succOf_countIssue, succOf_setG _ (jRd_lt w)]
      rfl
    · rw [close_cst hk, cst_setCtx, cst_advance, cst_countIssue, cst_setG _ (jRd_lt w)]
  · rintro s x k rfl
    have hk := ctxKey_lt x
    refine ⟨fun hlive hst hdue hturn => ?_, fun a hlive hst hdue hturn hdbw => ?_, fun hlive hst hline hie hpend hdbw => ?_,
      fun dt u hu hlive hout => ?_⟩
    · exact ⟨_, congrArg done (intTaken_due hlive hst hdue hturn), (entered_takeExc (.inr (.inr rfl)) rfl).2⟩
    · have htake : takeDbusw s (ctxKey x) = takeExc (entryIssue (s.setCtx (ctxKey x) { s.ctx (ctxKey x) with dbw := none }) (ctxKey x))
          (ctxKey x) 6 (ctxPC s (ctxKey x)) (posNext s (ctxKey x)) (s.ctx (ctxKey x)).slot.isSome 0 (some a) := by
        simp only [takeDbusw, hdbw]
      obtain ⟨hentry, hent⟩ := entered_takeExc (.inl rfl) htake
      refine ⟨_, congrArg done (dbuswTaken_due hlive hst hdue hturn), hent, ?_, ?_⟩
      · rw [close_ctxReg hk _ (by decide), hentry, rd_excEntry_taddr]
      · rw [close_ctx, hentry, ctx_excEntry_self, entryIssue, ctx_noteIssue_self, ctx_setCtx_self]
    · refine ⟨_, congrArg done (contextWake_quiet hlive hst hline hie hpend hdbw), ?_, ?_⟩
      · rw [close_cst hk, cst_setCst]
      · rw [close_ctxReg hk _ (by decide), rd_setCst _ _ _ (by decide)]
    · have hexec : exec (.wdogExpiry x dt) s = done (wdogExpire u x) := by
        rw [hu]
        rfl
      refine ⟨fun hexp => ?_, ?_⟩
      · obtain ⟨hbit, hcount⟩ := wdogExpire_first_watchdog hlive hout hexp
        refine ⟨_, hexec, ?_, by rw [close_wdCount hk, hcount], fun hst hblk hslot hdbw hhm => ?_⟩
        · rw [close_bt _ _ (closeTouches_ctxReg hk (by decide)), hbit]
        · have hdue := excDue_wdogFirst hblk hslot hdbw hhm
          have hst' : cst (wdogFirst u (ctxKey x)) (ctxKey x) = 1 := (cst_wdogFirst u _).trans hst
          have htake : wdogExpire u x = takeWdog (wdogFirst u (ctxKey x)) (ctxKey x) :=
            (wdogExpire_first hlive hout hexp).trans (if_pos ⟨hst', hdue⟩)
          have hent := (entered_takeExc (.inr (.inl rfl)) htake).2
          rwa [ctxPC_wdogFirst, posNext, succOf, ctxPC_wdogFirst, ctx_wdogFirst, hslot] at hent
      · rintro n j rfl hexp hctrl
        refine ⟨_, hexec, ?_⟩
        rw [close_cst hk, wdogExpire_second hlive hout hexp hctrl, cst_ctxFault (ctxKey_pe_lt n j)]

end Sys2Proof.Machine

/-! SUPPORT. The device service (R162, R167, R170): a write of a point by firmware, and what a recovery marks. -/

namespace Sys2Proof.Machine

section
variable {s : State}

/-- A write of a point that the open image store takes: nothing is logged, and no point is refused (R209). -/
theorem firmPut_accepted {s1 : State} {m p q ns sec sub : Nat} {data : List Byte} (hopen : closed s m blkImg = false)
    (hput : imgPut s m none p data none q ns sec sub = (s1, true)) : firmPut s m p data q ns sec sub = (s1, none) := by
  have hno : ¬closed s m blkImg = true := by simp [hopen]
  rw [firmPut, if_neg hno, hput]

/-- With no point refused, the firmware's context goes on. -/
theorem firmEnd_none (k : Nat) (s : State) : firmEnd k (s, none) = s := rfl

/-- A point that has had a value is written again with the data and the timestamp of its newest slot, and STALE set (R167). -/
theorem staleAgain_used {p : Nat} {c : ImgSlot} (hc : c = newestSlot (s.pt p)) (hused : c.used = true) (m : Nat) :
    staleAgain s m p = firmPut s m p c.data (c.qual ||| 1) c.ns c.sec c.sub := by
  subst hc
  have hno : ¬(newestSlot (s.pt p)).used = false := by simp [hused]
  exact if_neg hno

/-- A timed-out point is written again by the firmware that runs on its engine. -/
theorem pointTimeoutRow_firm {n k : Nat} (hk : firmCtx s n = some k) (p : Nat) :
    pointTimeoutRow s n p = firmEnd k (staleAgain s (n + 1) p) := by
  rw [pointTimeoutRow, hk]

/-- Without a fault noted in PE_FAULT the reason is not the watchdog: FAILED with REASON 1, the inputs in order, then the mark
(steps 1 and 2 of R170). -/
theorem serviceMark_fault {n : Nat} (hfault : s.bt (PE_FAULT n) 31 = false) (k diag : Nat) (inputs : List Nat) {r : State × Option Nat}
    (hr : r = inputs.foldl (fun r p => serviceThen (staleAgain · 8 p) r) (serviceDiag diag 3 1 s)) :
    serviceMark s n k diag inputs = (r.1.setCtx (8 * n + k) { r.1.ctx (8 * n + k) with marked := true }, r.2) := by
  subst hr
  simp only [serviceMark, hfault, Bool.false_and, Bool.false_eq_true, if_false]

/-- A FAULTED context whose points are not marked, with the service running: its points are marked, then the engine restarts (R170). -/
theorem instanceRecovery_unmarked {n k : Nat} (hst : cst s (8 * n + k) = 3) (hlive : ctxLive s (8 * n + k) = true)
    (hservice : ctxLive s 56 = true) (hruns : cst s 56 = 1) (hmark : (s.ctx (8 * n + k)).marked = false) (diag : Nat)
    (inputs run : List Nat) :
    instanceRecovery s n k diag inputs run =
      firmEnd 56 (serviceThen (serviceRestart · n diag run) (serviceMark s n k diag inputs)) := by
  have hgo : ¬(cst s (8 * n + k) ≠ 3 ∨ ctxLive s (8 * n + k) = false ∨ ctxLive s 56 = false ∨ (cst s 56 ≠ 1 ∧ cst s 56 ≠ 2)) := by
    simp [hst, hlive, hservice, hruns]
  have hno : ¬(s.ctx (8 * n + k)).marked = true := by simp [hmark]
  rw [instanceRecovery, if_neg hgo, if_neg hno]

end

/-- Settles O26: both rows by the writes that the image store takes. -/
theorem deviceService : Obligations.DeviceService := by
  refine ⟨fun s s1 n p c k hc hused hk hopen hput => congrArg done ?_,
    fun s n k diag inputs run s1 r hmark hopen hst hlive hservice hruns hfault hput hr => congrArg done ?_⟩
  · calc pointTimeoutRow s n.val p.val
        = firmEnd k (staleAgain s (n.val + 1) p.val) := pointTimeoutRow_firm hk _
      _ = firmEnd k (s1, none) := by rw [staleAgain_used hc hused, firmPut_accepted hopen hput]
      _ = s1 := firmEnd_none k s1
  · have hdiag : serviceDiag diag.val 3 1 s = (s1, none) := firmPut_accepted hopen hput
    rw [← hdiag] at hr
    rw [instanceRecovery_unmarked hst hlive hservice hruns hmark, serviceMark_fault hfault k.val diag.val _ hr]

end Sys2Proof.Machine

/-! SUPPORT. The registers of the time unit (R171 to R196): where they stand, and the row of a write that the unit accepts. -/

namespace Sys2Proof.Machine

/-! ## What the end of a command leaves -/

/-- The end of a command leaves the registers of the time unit and of the switch. -/
theorem rd_close_timed (u : State) {a : Nat} (h : 0x32000000 ≤ a) (h' : a < 0x34000000) : (close u).rd a = u.rd a :=
  close_rd u (closeTouches_eq_false h' (.inl (by omega)))

theorem rd_answered_timed (u : State) (r : Resp) {a : Nat} (h : 0x32000000 ≤ a) (h' : a < 0x34000000) :
    (answered u r).rd a = u.rd a :=
  rd_answered u r (closeTouches_eq_false h' (.inl (by omega)))

@[simp] theorem answered_tbs (u : State) (r : Resp) : (answered u r).tbs = u.tbs := close_tbs _
@[simp] theorem answered_tsq (u : State) (r : Resp) : (answered u r).tsq = u.tsq := close_tsq _

@[simp] theorem mrd_answered (u : State) (r : Resp) (m a : Nat) : (answered u r).mrd m a = u.mrd m a := by
  simp only [State.mrd, answered, close_mregs]

@[simp] theorem tb_answered (u : State) (r : Resp) (n : Nat) : (answered u r).tb n = u.tb n := by
  simp only [State.tb, answered_tbs]

/-! ## Writes and reads of the unit -/

/-- Of the registers of the time unit IRQROUTE and CYCROUTE alone are routes (Table 1.6). -/
theorem routeKind_tu {a : Nat} (h : 0x32000000 ≤ a ∧ a < 0x32040000) (hr : a < 0x32000010 ∨ 0x320000C0 ≤ a) : routeKind a = none := by
  unfold routeKind TU_IRQROUTE IMG_IRQROUTE LDR_IRQROUTE SW_IRQROUTE MEM_IRQROUTE MEM_DG_IRQROUTE ARB_IRQROUTE HB_IRQROUTE
    SLOT_IRQROUTE PMU_IRQROUTE AON_IRQROUTE
  simp (disch := omega) only [if_neg]

/-- A register of region `tu` stands in the block of the time unit. -/
theorem tu_block {a : Nat} (h : regionOf a = some .tu) : 0x32000000 ≤ a ∧ a < 0x32040000 := by
  simp only [regionOf, ite_eq_iff, Option.some.injEq, reduceCtorEq, and_false, and_true, false_or, or_false] at h
  omega

/-- The row of a write that the time unit accepts: its effect, and the response. -/
theorem writeRow_tu {s u : State} {m : Master} {a : Nat} {v : Word} (h : opens s m a .tu) (hr : a < 0x32000010 ∨ 0x320000C0 ≤ a)
    (hw : tuWrite s (a % 0x40000) v = (u, .ok 0)) (hctx : u.ctxH = s.ctxH) (hs : noSteps s) :
    writeRow s m a v = .next (answered u (.ok 0)) := by
  have hv : routed m a .tu v = v := by simp [routed, routeKind_tu (tu_block h.2.1) hr]
  refine writeRow_accept h (.inl rfl) ?_ (by simpa only [noSteps, hctx] using hs)
  rw [hv, targetWrite_tu, hw]

/-- The row of a read that the time unit answers. -/
theorem readRow_tu {s u : State} {m : Master} {a : Nat} {d : Word} (h : opens s m a .tu)
    (hw : tuRead s m.val (a % 0x40000) = (u, .ok d)) (hctx : u.ctxH = s.ctxH) (hs : noSteps s) :
    readRow s m a = .next (answered u (.ok d)) := by
  have hblk := tu_block h.2.1
  exact readRow_accept h (by simp (disch := omega) only [tableWord, if_neg]) hw (by simpa only [noSteps, hctx] using hs)

@[simp] theorem softWrite_tbs (s : State) (a : Nat) (v : Word) : (s.softWrite a v).tbs = s.tbs := by
  unfold State.softWrite
  split
  · rfl
  · dsimp only
    split_ifs <;> simp only [State.wr_tbs]

@[simp] theorem tb_softWrite (s : State) (a : Nat) (v : Word) (n : Nat) : (s.softWrite a v).tb n = s.tb n := by
  simp only [State.tb, softWrite_tbs]

/-- A plain write of a register without W1C and RWO bits sets the bits that its RW bits cover. -/
theorem bt_softWrite_self (s : State) {a i : Nat} {rw rc wo rst : Word} (h : regDesc a = some ⟨rw, 0, rc, wo, 0, rst⟩)
    (hrw : rw.getLsbD i = true) (h32 : i < 32) (v : Word) : (s.softWrite a v).bt a i = bitAt v i := by
  have hfl := fl_softWrite_self s (hi := i) (lo := i) h (fun j hlo hhi => Nat.le_antisymm hhi hlo ▸ hrw) h32 v
  rw [State.bt, bitAt_eq_fld, ← State.fl, hfl, bitAt_eq_fld]

/-- A bit raised reads 1. -/
theorem bt_raise {s : State} (a : Nat) {i : Nat} {w : Word} (h : bitAt w i = true) : (s.raise a w).bt a i = true := by
  rw [State.bt, State.raise, rd_wr_self, bitAt_or, h, Bool.or_true]

end Sys2Proof.Machine

/-! SUPPORT. Trigger entries (R186 to R189): the time of an entry, its test, what a firing and a write make of it. -/

namespace Sys2Proof.Machine

/-! ## The time of an entry (R186) -/

/-- The trigger time depends on the three registers that hold it. -/
theorem trgTime_congr {s t : State} {i : Nat} (h : ∀ a, TU_TRG_NS i ≤ a → a ≤ TU_TRG_SECHI i → t.rd a = s.rd a) :
    trgTime t i = trgTime s i := by
  simp only [trgTime, State.fl]
  rw [h (TU_TRG_NS i) (by unfold TU_TRG_NS; omega) (by unfold TU_TRG_NS TU_TRG_SECHI; omega),
    h (TU_TRG_SECLO i) (by unfold TU_TRG_NS TU_TRG_SECLO; omega) (by unfold TU_TRG_SECLO TU_TRG_SECHI; omega),
    h (TU_TRG_SECHI i) (by unfold TU_TRG_NS TU_TRG_SECHI; omega) (by unfold TU_TRG_SECHI; omega)]

/-- The period depends on the two registers that hold it. -/
theorem trgPer_congr {s t : State} {i : Nat} (h : ∀ a, TU_TRG_PERLO i ≤ a → a ≤ TU_TRG_PERHI i → t.rd a = s.rd a) :
    trgPer t i = trgPer s i := by
  simp only [trgPer, State.fl]
  rw [h (TU_TRG_PERLO i) (by unfold TU_TRG_PERLO; omega) (by unfold TU_TRG_PERLO TU_TRG_PERHI; omega),
    h (TU_TRG_PERHI i) (by unfold TU_TRG_PERLO TU_TRG_PERHI; omega) (by unfold TU_TRG_PERHI; omega)]

/-- Setting the time changes the three registers that hold it. -/
theorem rd_setTrgTime (s : State) {i a : Nat} (t : Nat) (h : a < TU_TRG_NS i ∨ TU_TRG_SECHI i < a) :
    (setTrgTime s i t).rd a = s.rd a := by
  unfold TU_TRG_NS TU_TRG_SECHI at h
  rw [setTrgTime, rd_setFl_ne _ _ _ _ (by unfold TU_TRG_SECHI; omega), rd_wr_ne _ _ (by unfold TU_TRG_SECLO; omega),
    rd_setFl_ne _ _ _ _ (by unfold TU_TRG_NS; omega)]

/-- The time set is kept to 48 bits of seconds (R186, log entry 101). -/
theorem trgTime_setTrgTime (s : State) (i t : Nat) : trgTime (setTrgTime s i t) i = t % (2 ^ 48 * 10 ^ 9) := by
  have hns : TU_TRG_NS i ≠ TU_TRG_SECHI i ∧ TU_TRG_NS i ≠ TU_TRG_SECLO i := by
    unfold TU_TRG_NS TU_TRG_SECHI TU_TRG_SECLO; omega
  have hlo : TU_TRG_SECLO i ≠ TU_TRG_SECHI i := by unfold TU_TRG_SECHI TU_TRG_SECLO; omega
  have hrns : (setTrgTime s i t).fl (TU_TRG_NS i) 29 0 = t % 1000000000 % 2 ^ 30 := by
    rw [setTrgTime, State.fl, rd_setFl_ne _ _ _ _ hns.1, rd_wr_ne _ _ hns.2, ← State.fl,
      fl_setFl_self _ _ _ _ _ (by decide) (by decide)]
  have hrlo : ((setTrgTime s i t).rd (TU_TRG_SECLO i)).toNat = t / 1000000000 % 2 ^ 48 % 2 ^ 32 := by
    rw [setTrgTime, rd_setFl_ne _ _ _ _ hlo, rd_wr_self, BitVec.toNat_ofNat]
  have hrhi : (setTrgTime s i t).fl (TU_TRG_SECHI i) 15 0 = t / 1000000000 % 2 ^ 48 / 2 ^ 32 % 2 ^ 16 :=
    fl_setFl_self _ _ _ _ _ (by decide) (by decide)
  rw [trgTime, hrns, hrlo, hrhi, nsOf]
  omega

/-! ## Firing (R187) -/

/-- A firing is counted. -/
def fireCounted (s : State) (i : Nat) : State := s.wrapInc (TU_TRG_STAT i) 31 16

theorem rd_fireCounted (s : State) {i a : Nat} (h : a ≠ TU_TRG_STAT i) : (fireCounted s i).rd a = s.rd a :=
  rd_wrapInc_ne s _ _ _ h

/-- A one-shot entry is disabled as it fires. -/
theorem fireNext_oneShot {s : State} {i : Nat} (h : s.bt (TU_TRG_CTRL i) 30 = false) :
    fireNext s i = (fireCounted s i).setBt (TU_TRG_CTRL i) 31 false := by
  have hb : (fireCounted s i).bt (TU_TRG_CTRL i) 30 = false := by
    rw [State.bt, rd_fireCounted s (by unfold TU_TRG_CTRL TU_TRG_STAT; omega), ← State.bt, h]
  rw [fireNext, ← fireCounted, hb, if_neg Bool.false_ne_true]

/-- A periodic entry moves by its period as it fires. -/
theorem fireNext_periodic {s : State} {i : Nat} (h : s.bt (TU_TRG_CTRL i) 30 = true) :
    fireNext s i = setTrgTime (fireCounted s i) i (trgTime s i + trgPer s i) := by
  have hb : (fireCounted s i).bt (TU_TRG_CTRL i) 30 = true := by
    rw [State.bt, rd_fireCounted s (by unfold TU_TRG_CTRL TU_TRG_STAT; omega), ← State.bt, h]
  have ht : trgTime (fireCounted s i) i = trgTime s i := trgTime_congr fun a _ ha =>
    rd_fireCounted s (by unfold TU_TRG_SECHI at ha; unfold TU_TRG_STAT; omega)
  have hp : trgPer (fireCounted s i) i = trgPer s i := trgPer_congr fun a _ ha =>
    rd_fireCounted s (by unfold TU_TRG_PERHI at ha; unfold TU_TRG_STAT; omega)
  rw [fireNext, ← fireCounted, hb, if_pos rfl, ht, hp]

/-- What a firing makes of its entry: FIRES counts, EN follows RELOAD, the other fields of CTRL stay, and the time of a periodic entry
moves by its period. -/
structure Fired (s t : State) (i : Nat) : Prop where
  fires : t.fl (TU_TRG_STAT i) 31 16 = (s.fl (TU_TRG_STAT i) 31 16 + 1) % 2 ^ 16
  en : t.bt (TU_TRG_CTRL i) 31 = s.bt (TU_TRG_CTRL i) 30
  ctrl : ∀ hi lo, lo ≤ hi → hi < 31 → t.fl (TU_TRG_CTRL i) hi lo = s.fl (TU_TRG_CTRL i) hi lo
  time : s.bt (TU_TRG_CTRL i) 30 = true → trgTime t i = (trgTime s i + trgPer s i) % (2 ^ 48 * 10 ^ 9)

theorem fired_fireNext {s : State} {i : Nat} (hon : trgOn s i = true) : Fired s (fireNext s i) i := by
  have hcs : TU_TRG_STAT i ≠ TU_TRG_CTRL i := by unfold TU_TRG_CTRL TU_TRG_STAT; omega
  have hfires : (fireCounted s i).fl (TU_TRG_STAT i) 31 16 = (s.fl (TU_TRG_STAT i) 31 16 + 1) % 2 ^ 16 :=
    fl_setFl_self _ _ _ _ _ (by decide) (by decide)
  have hctrl := rd_fireCounted s hcs.symm
  cases h : s.bt (TU_TRG_CTRL i) 30 with
  | false =>
    rw [fireNext_oneShot h]
    refine ⟨?_, ?_, fun hi lo hle h31 => ?_, fun hp => absurd (h.symm.trans hp) (by decide)⟩
    · rw [State.fl, rd_setBt_ne _ _ _ hcs, ← State.fl, hfires]
    · rw [bt_setBt_self _ _ _ _ (by decide), h]
    · rw [State.fl, rd_setBt_self, fld_putBit_apart _ _ (by decide) hle (.inr h31), hctrl, ← State.fl]
  | true =>
    have hkeep : (setTrgTime (fireCounted s i) i (trgTime s i + trgPer s i)).rd (TU_TRG_CTRL i) = s.rd (TU_TRG_CTRL i) :=
      (rd_setTrgTime _ _ (.inl (by unfold TU_TRG_CTRL TU_TRG_NS; omega))).trans hctrl
    rw [fireNext_periodic h]
    refine ⟨?_, ?_, fun hi lo _ _ => ?_, fun _ => trgTime_setTrgTime _ _ _⟩
    · rw [State.fl, rd_setTrgTime _ _ (.inr (by unfold TU_TRG_STAT TU_TRG_SECHI; omega)), ← State.fl, hfires]
    · rw [State.bt, hkeep, h]
      exact hon
    · rw [State.fl, hkeep, ← State.fl]

/-- What a firing made of its entry stays where the registers of the entry stay. -/
theorem Fired.congr {s t u : State} {i : Nat} (h : Fired s t i)
    (hrd : ∀ a, TU_TRG_CTRL i ≤ a → a ≤ TU_TRG_STAT i → u.rd a = t.rd a) : Fired s u i := by
  have hstat := hrd (TU_TRG_STAT i) (by unfold TU_TRG_CTRL TU_TRG_STAT; omega) le_rfl
  have hctrl := hrd (TU_TRG_CTRL i) le_rfl (by unfold TU_TRG_CTRL TU_TRG_STAT; omega)
  refine ⟨?_, ?_, fun hi lo hle h31 => ?_, fun hp => (trgTime_congr fun a ha ha' => hrd a ?_ ?_).trans (h.time hp)⟩
  · rw [State.fl, hstat, ← State.fl, h.fires]
  · rw [State.bt, hctrl, ← State.bt, h.en]
  · rw [State.fl, hctrl, ← State.fl, h.ctrl hi lo hle h31]
  · unfold TU_TRG_CTRL
    unfold TU_TRG_NS at ha
    omega
  · unfold TU_TRG_STAT
    unfold TU_TRG_SECHI at ha'
    omega

/-- An entry of KIND 3 whose time has come fires: it sets a cyclic interrupt (R187, Table 8.5). -/
theorem fire_cyclic {s : State} {i : Nat} (hout : inReset s blkTu = false) (hon : trgOn s i = true) (hr : trgReached s i = true)
    (hk : s.fl (TU_TRG_CTRL i) 27 24 = 3) (busy : Bool) (ready : Nat) (bad : List Nat) : fire s i busy ready bad =
      (fireNext s i).raise TU_CYCSTAT (BitVec.ofNat 32 (2 ^ (s.fl (TU_TRG_CTRL i) 15 0 % 16))) := by
  have hf := fired_fireNext hon
  have hkind : fld ((fireNext s i).rd (TU_TRG_CTRL i)) 27 24 = 3 := (hf.ctrl 27 24 (by decide) (by decide)).trans hk
  have htgt : fld ((fireNext s i).rd (TU_TRG_CTRL i)) 15 0 = s.fl (TU_TRG_CTRL i) 15 0 := hf.ctrl 15 0 (by decide) (by decide)
  rw [fire, if_neg (by simp [hout, hon, hr])]
  simp only [fireTarget, hkind, htgt]

/-! ## The test of an entry (R188) -/

/-- A miss changes registers alone, and of them TRG_STAT of its entry and TU_IRQSTAT. -/
theorem LogSame.trgMiss (s : State) (i n : Nat) : LogSame s (trgMiss s i n) :=
  ((LogSame.wr s _ _).trans (.wr _ _ _)).trans (.wr _ _ _)

theorem rd_trgMiss (s : State) {i a : Nat} (n : Nat) (h : a ≠ TU_TRG_STAT i) (hq : a ≠ TU_IRQSTAT) : (trgMiss s i n).rd a = s.rd a := by
  rw [trgMiss, rd_raise_ne _ _ hq, rd_raise_ne _ _ h, rd_satInc_ne _ _ _ _ h]

/-- Where its time is ahead the entry stays as it is. -/
theorem trgTest_ahead {s : State} {i : Nat} (h : (trgTb s i).total ≤ trgTime s i * 2 ^ 32) : trgTest s i = s := by
  rw [trgTest, if_pos (.inr h)]

theorem trgTest_off {s : State} {i : Nat} (h : trgOn s i = false) : trgTest s i = s := by
  rw [trgTest, if_pos (.inl h)]

/-- A late one-shot is missed, and disabled. -/
theorem trgTest_lateOneShot {s : State} {i : Nat} (hon : trgOn s i = true) (h : trgTime s i * 2 ^ 32 < (trgTb s i).total)
    (hone : s.bt (TU_TRG_CTRL i) 30 = false) : trgTest s i = (trgMiss s i 1).setBt (TU_TRG_CTRL i) 31 false := by
  rw [trgTest, if_neg (not_or.2 ⟨by simp [hon], Nat.not_le.2 h⟩), if_pos hone]

/-- The instants of a late periodic entry that have passed are missed, and its time moves behind them. -/
theorem trgTest_latePeriodic {s : State} {i : Nat} (hon : trgOn s i = true) (h : trgTime s i * 2 ^ 32 < (trgTb s i).total)
    (hper : s.bt (TU_TRG_CTRL i) 30 = true) : ∃ n t, trgTest s i = trgMiss (setTrgTime s i t) i n := by
  rw [trgTest, if_neg (not_or.2 ⟨by simp [hon], Nat.not_le.2 h⟩), if_neg (by simp [hper])]
  exact ⟨_, _, rfl⟩

/-- What a test can do: nothing, or a miss with the entry disabled, or a miss with its time moved. -/
theorem trgTest_cases (s : State) (i : Nat) : trgTest s i = s ∨ trgTest s i = (trgMiss s i 1).setBt (TU_TRG_CTRL i) 31 false ∨
    ∃ n t, trgTest s i = trgMiss (setTrgTime s i t) i n := by
  cases hon : trgOn s i with
  | false => exact .inl (trgTest_off hon)
  | true =>
    rcases Nat.lt_or_ge (trgTime s i * 2 ^ 32) (trgTb s i).total with h | h
    · cases hper : s.bt (TU_TRG_CTRL i) 30 with
      | false => exact .inr (.inl (trgTest_lateOneShot hon h hper))
      | true => exact .inr (.inr (trgTest_latePeriodic hon h hper))
    · exact .inl (trgTest_ahead h)

/-- A test changes registers alone. -/
theorem LogSame.trgTest (s : State) (i : Nat) : LogSame s (trgTest s i) := by
  rcases trgTest_cases s i with h | h | ⟨n, t, h⟩ <;> rw [h]
  · exact .refl s
  · exact (LogSame.trgMiss s i 1).trans (.wr _ _ _)
  · exact (((LogSame.wr s _ _).trans (.wr _ _ _)).trans (.wr _ _ _)).trans (.trgMiss _ _ _)

/-- The registers that a test changes are those of its entry, and TU_IRQSTAT. -/
theorem rd_trgTest (s : State) {i a : Nat} (h : a < TU_TRG_CTRL i) (hq : a ≠ TU_IRQSTAT) : (trgTest s i).rd a = s.rd a := by
  have hne : a ≠ TU_TRG_STAT i := by unfold TU_TRG_CTRL at h; unfold TU_TRG_STAT; omega
  rcases trgTest_cases s i with ht | ht | ⟨n, t, ht⟩ <;> rw [ht]
  · rw [rd_setBt_ne _ _ _ (Nat.ne_of_lt h), rd_trgMiss _ _ hne hq]
  · rw [rd_trgMiss _ _ hne hq, rd_setTrgTime _ _ (.inl (by unfold TU_TRG_CTRL at h; unfold TU_TRG_NS; omega))]

/-- A test leaves the fields of CTRL below EN. -/
theorem fl_trgTest_ctrl (s : State) (i : Nat) {hi lo : Nat} (hle : lo ≤ hi) (h31 : hi < 31) :
    (trgTest s i).fl (TU_TRG_CTRL i) hi lo = s.fl (TU_TRG_CTRL i) hi lo := by
  have hne : TU_TRG_CTRL i ≠ TU_TRG_STAT i := by unfold TU_TRG_CTRL TU_TRG_STAT; omega
  have hq : TU_TRG_CTRL i ≠ TU_IRQSTAT := by unfold TU_TRG_CTRL TU_IRQSTAT; omega
  rcases trgTest_cases s i with ht | ht | ⟨n, t, ht⟩ <;> rw [ht]
  · rw [State.fl, rd_setBt_self, fld_putBit_apart _ _ (by decide) hle (.inr h31), rd_trgMiss _ _ hne hq, ← State.fl]
  · rw [State.fl, rd_trgMiss _ _ hne hq, rd_setTrgTime _ _ (.inl (by unfold TU_TRG_CTRL TU_TRG_NS; omega)), ← State.fl]

/-! ## Writes of CTRL (R188, R189) -/

theorem regDesc_trgCtrl {i : Nat} (h : i < 1024) : regDesc (TU_TRG_CTRL i) = some ⟨0xFF00FFFF, 0, 0, 0, 0, 0⟩ := by
  have hblk : regDesc (TU_TRG_CTRL i) = tuDesc (TU_TRG_CTRL i - 0x32000000) := by
    simp (disch := omega) only [regDesc, TU_TRG_CTRL, if_neg, if_pos]
  have hoff : TU_TRG_CTRL i - 0x32000000 = 0x10000 + i * 0x20 := by unfold TU_TRG_CTRL; omega
  rw [hblk, hoff]
  simp (disch := omega) only [tuDesc, if_neg, if_pos]

/-- A write of CTRL of entry `i` reaches the entry. -/
theorem tuWrite_trgCtrl (s : State) {i : Nat} (h : i < 1024) (v : Word) :
    tuWrite s (TU_TRG_CTRL i % 0x40000) v = trgWrite s i 0 v := by
  have hoff : TU_TRG_CTRL i % 0x40000 = 0x10000 + i * 0x20 := by unfold TU_TRG_CTRL; omega
  have hentry : (0x10000 + i * 0x20 - 0x10000) / 0x20 = i := by omega
  have hreg : (0x10000 + i * 0x20) % 0x20 = 0 := by omega
  rw [hoff, tuWrite, if_pos (by omega), hentry, hreg]

/-- The checks of an enable refuse the reserved KINDs (R189). -/
theorem kind_of_enableOk {s : State} {i : Nat} {v : Word} (h : trgBadEnable s i v = false) : fld v 27 24 < 7 := by
  by_contra hk
  simp [trgBadEnable, trgBadTarget, Nat.not_lt.1 hk] at h

/-- EN has no part in the checks of an enable. -/
theorem trgBadEnable_putBit (s : State) (i : Nat) (v : Word) (b : Bool) : trgBadEnable s i (putBit v 31 b) = trgBadEnable s i v := by
  have hfld {hi lo : Nat} (hle : lo ≤ hi) (h31 : hi < 31) : fld (putBit v 31 b) hi lo = fld v hi lo :=
    fld_putBit_apart v b (by decide) hle (.inr h31)
  have hbit : bitAt (putBit v 31 b) 30 = bitAt v 30 := bitAt_putBit_ne v 31 30 b (by decide) (by decide)
  simp (disch := decide) only [trgBadEnable, trgBadTarget, hfld, hbit]

/-- A write that sets EN of a free entry that is off, and passes its checks, is a plain one, and the entry is tested. -/
theorem trgWrite_enable {s : State} {i : Nat} {v : Word} (hfree : trgOfStore s i = false) (hoff : trgOn s i = false)
    (hok : trgBadEnable s i v = false) (hen : bitAt v 31 = true) :
    trgWrite s i 0 v = (trgTest (s.softWrite (TU_TRG_CTRL i) v) i, .ok 0) := by
  simp [trgWrite, hfree, hoff, hok, hen, Nat.not_le.2 (kind_of_enableOk hok)]

/-- A write that clears EN of a free entry is a plain one, whether the entry is on or off. -/
theorem trgWrite_disable {s : State} {i : Nat} {v : Word} (hfree : trgOfStore s i = false) (hk : fld v 27 24 < 7)
    (hen : bitAt v 31 = false) : trgWrite s i 0 v = (s.softWrite (TU_TRG_CTRL i) v, .ok 0) := by
  simp [trgWrite, hfree, hen, Nat.not_le.2 hk]

/-- A write of CTRL of entry `i` leaves its time. -/
theorem trgTime_softWrite_ctrl (s : State) (i : Nat) (v : Word) : trgTime (s.softWrite (TU_TRG_CTRL i) v) i = trgTime s i :=
  trgTime_congr fun a ha _ => rd_softWrite_ne s v (by unfold TU_TRG_NS at ha; unfold TU_TRG_CTRL; omega)

/-! ## The rows -/

/-- TRIGGER_FIRE of an entry of KIND 3 (R187). -/
theorem triggerFire_cyclic {u : State} {i : Nat} (hi : i < 1024) (hout : inReset u blkTu = false) (hon : trgOn u i = true)
    (hr : trgReached u i = true) (hk : u.fl (TU_TRG_CTRL i) 27 24 = 3) (busy : Bool) (ready : Nat) (bad : List Nat) :
    (close (fire u i busy ready bad)).bt TU_CYCSTAT (u.fl (TU_TRG_CTRL i) 15 0 % 16) = true ∧
      Fired u (close (fire u i busy ready bad)) i := by
  have hf := fired_fireNext hon
  rw [fire_cyclic hout hon hr hk]
  generalize fireNext u i = t at hf ⊢
  generalize hx : u.fl (TU_TRG_CTRL i) 15 0 % 16 = x
  refine ⟨?_, hf.congr fun a ha ha' => ?_⟩
  · rw [State.bt, rd_close_timed _ (by decide) (by decide)]
    exact bt_raise _ (bitAt_twoPow (by omega))
  · unfold TU_TRG_CTRL at ha
    unfold TU_TRG_STAT at ha'
    rw [rd_close_timed _ (by omega) (by omega), rd_raise_ne _ _ (by unfold TU_CYCSTAT; omega)]

section
variable {s : State} {m : Master} {i : Fin 1024} (hs : noSteps s) (h : opens s m (TU_TRG_CTRL i.val) .tu)
  (hfree : trgOfStore s i.val = false) (v : Word)
include hs h hfree

/-- TRIGGER_ENABLE of an entry that is off, where the checks pass: CTRL as written, and the entry tested. -/
theorem triggerEnable_row (hoff : trgOn s i.val = false) (hok : trgBadEnable s i.val v = false) :
    exec (.triggerEnable m i v) s =
      .next (answered (trgTest (s.softWrite (TU_TRG_CTRL i.val) (putBit v 31 true)) i.val) (.ok 0)) := by
  refine writeRow_tu h (.inr (by unfold TU_TRG_CTRL; omega)) ?_ ?_ hs
  · rw [tuWrite_trgCtrl s i.isLt]
    exact trgWrite_enable hfree hoff ((trgBadEnable_putBit s i.val v true).trans hok) (bitAt_putBit_self v 31 true (by decide))
  · rw [LogSame.trgTest]
    exact softWrite_ctxH s _ _

/-- TRIGGER_DISABLE: CTRL as written. -/
theorem triggerDisable_row (hk : fld v 27 24 < 7) : exec (.triggerDisable m i v) s =
    .next (answered (s.softWrite (TU_TRG_CTRL i.val) (putBit v 31 false)) (.ok 0)) := by
  refine writeRow_tu h (.inr (by unfold TU_TRG_CTRL; omega)) ?_ (softWrite_ctxH s _ _) hs
  rw [tuWrite_trgCtrl s i.isLt]
  exact trgWrite_disable hfree (by rwa [fld_putBit_apart v false (by decide) (by decide) (by decide)])
    (bitAt_putBit_self v 31 false (by decide))

end

/-- CTRL takes EN, RELOAD, TB and KIND as written. -/
theorem softWrite_trgCtrl (s : State) {i : Nat} (hi : i < 1024) (v : Word) (b : Bool) :
    trgOn (s.softWrite (TU_TRG_CTRL i) (putBit v 31 b)) i = b ∧
      (s.softWrite (TU_TRG_CTRL i) (putBit v 31 b)).bt (TU_TRG_CTRL i) 30 = bitAt v 30 ∧
      (s.softWrite (TU_TRG_CTRL i) (putBit v 31 b)).fl (TU_TRG_CTRL i) 30 24 = fld v 30 24 ∧
      trgTb (s.softWrite (TU_TRG_CTRL i) (putBit v 31 b)) i = s.tb (fld v 29 28) := by
  have hdesc := regDesc_trgCtrl hi
  refine ⟨?_, ?_, ?_, ?_⟩
  · rw [trgOn, bt_softWrite_self s hdesc (by decide) (by decide), bitAt_putBit_self v 31 b (by decide)]
  · rw [bt_softWrite_self s hdesc (by decide) (by decide), bitAt_putBit_ne v 31 30 b (by decide) (by decide)]
  · rw [fl_softWrite_self s hdesc (by decide) (by decide), fld_putBit_apart v b (by decide) (by decide) (by decide)]
  · rw [trgTb, fl_softWrite_self s hdesc (by decide) (by decide), fld_putBit_apart v b (by decide) (by decide) (by decide),
      tb_softWrite]

/-- A miss shows in MISS of its entry and in the interrupt status, and leaves EN to what follows. -/
theorem missed_disabled (s : State) (i : Nat) :
    trgOn ((trgMiss s i 1).setBt (TU_TRG_CTRL i) 31 false) i = false ∧
      ((trgMiss s i 1).setBt (TU_TRG_CTRL i) 31 false).bt (TU_TRG_STAT i) 0 = true ∧
      ((trgMiss s i 1).setBt (TU_TRG_CTRL i) 31 false).bt TU_IRQSTAT 0 = true := by
  refine ⟨bt_setBt_self _ _ _ _ (by decide), ?_, ?_⟩
  · rw [State.bt, rd_setBt_ne _ _ _ (by unfold TU_TRG_STAT TU_TRG_CTRL; omega), trgMiss,
      rd_raise_ne _ _ (by unfold TU_TRG_STAT TU_IRQSTAT; omega)]
    exact bt_raise _ (by decide)
  · rw [State.bt, rd_setBt_ne _ _ _ (by unfold TU_IRQSTAT TU_TRG_CTRL; omega)]
    exact bt_raise _ (by decide)

/-! ## The timestamp queue (R184) -/

/-- The read of W3 gives the head of the queue, which leaves it. -/
theorem tuRead_tsqW3 (s : State) (m : Nat) : tuRead s m (TU_TSQ_W3 % 0x40000) = (tsqPop s, .ok (tsqWord s 3)) := rfl

theorem tsqPop_tsq (s : State) : (tsqPop s).tsq = s.tsq.tail := by
  unfold tsqPop
  split
  · next h => rw [h]; rfl
  · next e r h =>
    rw [h]
    dsimp only
    split_ifs
    · rfl
    · rfl

theorem tsqPop_ctxH (s : State) : (tsqPop s).ctxH = s.ctxH := by
  unfold tsqPop
  split
  · rfl
  · dsimp only
    split_ifs
    · rfl
    · rfl

/-- An empty queue reads 0. -/
theorem tsqWord_empty {s : State} (h : s.tsq = []) (j : Nat) : tsqWord s j = 0 := by
  rw [tsqWord, h]

/-- Settles O41: the firing by what it makes of its entry, the writes of CTRL by the checks of the entry and its test, and the read of
W3 as the head of the queue removed. -/
theorem triggerEntries : Obligations.TriggerEntries := by
  intro s m i v
  have hi := i.isLt
  refine ⟨?_, fun hs h hfree => ?_, fun hs h => ?_⟩
  · intro dt busy ready bad u hu hout hon hr hk
    have hrow : exec (.triggerFire i dt busy ready bad) s = .next (close (fire u i.val busy ready (bad.map (·.val)))) := by
      rw [hu]
      rfl
    obtain ⟨hcyc, hf⟩ := triggerFire_cyclic hi hout hon hr hk busy ready (bad.map (·.val))
    exact ⟨_, hrow, hcyc, hf.fires, hf.en, hf.time⟩
  · refine ⟨fun hoff hok => ?_, fun hk => ?_⟩
    · obtain ⟨hon, hone, hfl, htb⟩ := softWrite_trgCtrl s hi v true
      have htime := trgTime_softWrite_ctrl s i.val (putBit v 31 true)
      have hkeep (a : Nat) (ha : 0x32000000 ≤ a ∧ a < 0x34000000) := rd_answered_timed
        (trgTest (s.softWrite (TU_TRG_CTRL i.val) (putBit v 31 true)) i.val) (.ok 0) ha.1 ha.2
      refine ⟨_, triggerEnable_row hs h hfree v hoff hok, answered_resp _ _, ?_, fun hahead => ?_, fun hlate hper => ?_⟩
      · rw [State.fl, hkeep _ (by unfold TU_TRG_CTRL; omega), ← State.fl, fl_trgTest_ctrl _ _ (by decide) (by decide), hfl]
      · rw [trgOn, State.bt, hkeep _ (by unfold TU_TRG_CTRL; omega), trgTest_ahead (by rwa [htb, htime])]
        exact hon
      · obtain ⟨hoff', hmiss, hirq⟩ := missed_disabled (s.softWrite (TU_TRG_CTRL i.val) (putBit v 31 true)) i.val
        rw [trgOn, State.bt, State.bt, State.bt, hkeep _ (by unfold TU_TRG_CTRL; omega), hkeep _ (by unfold TU_TRG_STAT; omega),
          hkeep _ (by decide), trgTest_lateOneShot hon (by rwa [htb, htime]) (hone.trans hper)]
        exact ⟨hoff', hmiss, hirq⟩
    · obtain ⟨hoff, -, hfl, -⟩ := softWrite_trgCtrl s hi v false
      refine ⟨_, triggerDisable_row hs h hfree v hk, answered_resp _ _, ?_, ?_⟩
      · rw [trgOn, State.bt, rd_answered_timed _ _ (by unfold TU_TRG_CTRL; omega) (by unfold TU_TRG_CTRL; omega)]
        exact hoff
      · rw [State.fl, rd_answered_timed _ _ (by unfold TU_TRG_CTRL; omega) (by unfold TU_TRG_CTRL; omega)]
        exact hfl
  · refine ⟨_, readRow_tu h (tuRead_tsqW3 s m.val) (tsqPop_ctxH s) hs, answered_resp _ _, ?_, fun hempty => ?_⟩
    · rw [answered_tsq, tsqPop_tsq]
    · rw [answered_resp, tsqWord_empty hempty]

end Sys2Proof.Machine

/-! SUPPORT. The timebases (R172 to R176): the latching read, RATE, STEP and LOAD, and the discipline of the root PLL. -/

namespace Sys2Proof.Machine

/-! ## Reading a timebase (R173) -/

theorem mrd_mwr_self (s : State) (m a : Nat) (v : Word) : (s.mwr m a v).mrd m a = v := by
  simp [State.mrd, State.mwr]

theorem mrd_mwr_ne (s : State) (m : Nat) {a b : Nat} (v : Word) (h : b ≠ a) : (s.mwr m a v).mrd m b = s.mrd m b := by
  simp only [State.mrd, State.mwr]
  exact smGet_smSet_ne _ _ _ _ (by omega)

/-- The seconds and the fraction of timebase `n` latched for master `m`. -/
def tbLatched (s : State) (m n : Nat) : State :=
  ((s.mwr m (TU_TB_SECLO n) (BitVec.ofNat 32 (s.tb n).sec)).mwr m (TU_TB_SECHI n) (BitVec.ofNat 32 ((s.tb n).sec / 2 ^ 32))).mwr m
    (TU_TB_SUB n) (BitVec.ofNat 32 (s.tb n).sub)

/-- The read of NS gives the nanoseconds and latches the rest. -/
theorem tuRead_tbNs (s : State) (m : Nat) {n : Nat} (h : n < 4) :
    tuRead s m (TU_TB_NS n % 0x40000) = (tbLatched s m n, .ok (BitVec.ofNat 32 (s.tb n).ns)) := by
  have hoff : TU_TB_NS n % 0x40000 = 0x100 + n * 0x40 := by unfold TU_TB_NS; omega
  have htb : (0x100 + n * 0x40 - 0x100) / 0x40 = n := by omega
  rw [hoff, tuRead, if_pos (by omega), htb, tbLatched]

theorem tbLatched_mrd (s : State) (m n : Nat) :
    (tbLatched s m n).mrd m (TU_TB_SECLO n) = BitVec.ofNat 32 (s.tb n).sec ∧
      (tbLatched s m n).mrd m (TU_TB_SECHI n) = BitVec.ofNat 32 ((s.tb n).sec / 2 ^ 32) ∧
      (tbLatched s m n).mrd m (TU_TB_SUB n) = BitVec.ofNat 32 (s.tb n).sub := by
  unfold tbLatched TU_TB_SECLO TU_TB_SECHI TU_TB_SUB
  refine ⟨?_, ?_, mrd_mwr_self _ _ _ _⟩
  · rw [mrd_mwr_ne _ _ _ (by omega), mrd_mwr_ne _ _ _ (by omega), mrd_mwr_self]
  · rw [mrd_mwr_ne _ _ _ (by omega), mrd_mwr_self]

/-! ## RATE (R174, R175) -/

theorem regDesc_tbRate {n : Nat} (h : n < 4) : regDesc (TU_TB_RATE n) = some ⟨0xFFFFFFFF, 0, 0, 0, 0, 0⟩ := by
  have hblk : regDesc (TU_TB_RATE n) = tuDesc (TU_TB_RATE n - 0x32000000) := by
    simp (disch := omega) only [regDesc, TU_TB_RATE, if_neg, if_pos]
  have hoff : TU_TB_RATE n - 0x32000000 = 0x110 + n * 0x40 := by unfold TU_TB_RATE; omega
  rw [hblk, hoff]
  simp (disch := omega) only [tuDesc, if_neg, if_pos]

theorem tuWrite_tbRate (s : State) {n : Nat} (h : n < 4) (v : Word) : tuWrite s (TU_TB_RATE n % 0x40000) v = rateWrite s n v := by
  have hoff : TU_TB_RATE n % 0x40000 = 0x110 + n * 0x40 := by unfold TU_TB_RATE; omega
  have htb : (0x110 + n * 0x40 - 0x100) / 0x40 = n := by omega
  have hreg : (0x110 + n * 0x40) % 0x40 = 0x10 := by omega
  rw [hoff]
  simp (disch := omega) only [tuWrite, if_neg, if_pos, htb, hreg, if_true]

/-- RATE takes every bit. -/
theorem rd_softWrite_tbRate (s : State) {n : Nat} (h : n < 4) (v : Word) : (s.softWrite (TU_TB_RATE n) v).rd (TU_TB_RATE n) = v := by
  rw [rd_softWrite_self s (regDesc_tbRate h), writtenWord_of_rwo_zero rfl]
  simp [and_ones]

/-- A RATE that is not reserved is taken; it may begin a slew, which clears DISCLK. -/
theorem rateWrite_cases {s : State} {n : Nat} {v : Word} (h : rateBad s n v = false) :
    rateWrite s n v = (s.softWrite (TU_TB_RATE n) v, .ok 0) ∨
      rateWrite s n v = ((s.softWrite (TU_TB_RATE n) v).setBt TU_STATUS 1 false, .ok 0) := by
  rw [rateWrite, h, if_neg Bool.false_ne_true]
  dsimp only
  split_ifs
  · exact .inr rfl
  · exact .inl rfl

/-! ## STEP and LOAD (R174) -/

theorem LogSame.ctxH {s t : State} (h : LogSame s t) : t.ctxH = s.ctxH := by rw [h]
theorem LogSame.tbs {s t : State} (h : LogSame s t) : t.tbs = s.tbs := by rw [h]

/-- The re-test of the entries of a timebase changes registers alone. -/
theorem LogSame.trgRetest (s : State) (n : Nat) : LogSame s (trgRetest s n) := by
  refine List.foldlRecOn (motive := LogSame s) _ _ (.refl s) fun t ht i _ => ?_
  split_ifs
  · exact ht.trans (.trgTest t i)
  · exact ht

/-- It changes the registers of the entries, and TU_IRQSTAT. -/
theorem rd_trgRetest (s : State) (n : Nat) {a : Nat} (h : a < 0x32010000) (hq : a ≠ TU_IRQSTAT) : (trgRetest s n).rd a = s.rd a := by
  refine List.foldlRecOn (motive := fun t : State => t.rd a = s.rd a) _ _ rfl fun t ht i _ => ?_
  split_ifs
  · exact (rd_trgTest t (by unfold TU_TRG_CTRL; omega) hq).trans ht
  · exact ht

@[simp] theorem rd_setTb (s : State) (n a : Nat) (x : TB) : (s.setTb n x).rd a = s.rd a := rfl

/-- The gate cycles of a state replaced. -/
def withGates (s : State) (g : SMap GateH) : State := { s with gates := g }

@[simp] theorem rd_withGates (s : State) (g : SMap GateH) (a : Nat) : (withGates s g).rd a = s.rd a := rfl
@[simp] theorem withGates_ctxH (s : State) (g : SMap GateH) : (withGates s g).ctxH = s.ctxH := rfl
@[simp] theorem tb_withGates (s : State) (g : SMap GateH) (n : Nat) : (withGates s g).tb n = s.tb n := rfl

/-- A timebase moved and STEPS counted, and its entries tested anew. -/
def tbRetested (s : State) (n : Nat) (x : TB) : State := trgRetest ((s.setTb n x).wrapInc (TU_TB_STAT n) 31 16) n

/-- Moving a timebase re-tests its entries, and for TB0 begins the gate cycles anew (R300). -/
theorem tbMoved_eq (s : State) (n : Nat) (x : TB) : tbMoved s n x =
    (if n = 0 then withGates (tbRetested s n x)
      ((tbRetested s n x).gates.map fun e => (e.1, { e.2 with since := nsOf x.sec x.ns, cycle := none })) else tbRetested s n x,
      .ok 0) := rfl

theorem tbRetested_ctxH (s : State) (n : Nat) (x : TB) : (tbRetested s n x).ctxH = s.ctxH := by
  rw [tbRetested, (LogSame.trgRetest _ n).ctxH, State.wrapInc, State.setFl, State.wr_ctxH]
  rfl

theorem tb_tbRetested (s : State) (n : Nat) (x : TB) : (tbRetested s n x).tb n = x := by
  rw [State.tb, tbRetested, (LogSame.trgRetest _ n).tbs, State.wrapInc, State.setFl, State.wr_tbs]
  exact smGet_smSet_self _ _ _ _

theorem tbRetested_steps (s : State) {n : Nat} (hn : n < 4) (x : TB) :
    (tbRetested s n x).fl (TU_TB_STAT n) 31 16 = (s.fl (TU_TB_STAT n) 31 16 + 1) % 2 ^ 16 := by
  rw [State.fl, tbRetested, rd_trgRetest _ _ (by unfold TU_TB_STAT; omega) (by unfold TU_TB_STAT TU_IRQSTAT; omega), ← State.fl,
    State.wrapInc, fl_setFl_self _ _ _ _ _ (by decide) (by decide), State.fl, rd_setTb, ← State.fl]

/-- What moving timebase `n` to `x` leaves. -/
theorem tbMoved_accepts (s : State) {n : Nat} (hn : n < 4) (x : TB) : ∃ u, tbMoved s n x = (u, .ok 0) ∧ u.ctxH = s.ctxH ∧
    u.tb n = x ∧ u.fl (TU_TB_STAT n) 31 16 = (s.fl (TU_TB_STAT n) 31 16 + 1) % 2 ^ 16 := by
  have hctx := tbRetested_ctxH s n x
  have htb := tb_tbRetested s n x
  have hsteps := tbRetested_steps s hn x
  rw [tbMoved_eq]
  generalize tbRetested s n x = r at *
  split_ifs
  · exact ⟨_, rfl, by rw [withGates_ctxH, hctx], by rw [tb_withGates, htb], by rw [State.fl, rd_withGates, ← State.fl, hsteps]⟩
  · exact ⟨_, rfl, hctx, htb, hsteps⟩

/-- STEP by an offset that is not negative and stays within the second. -/
theorem tbStep_within {s : State} {n : Nat} (hlock : tbLocked s n = false) (hsec : s.rd (TU_TB_OFFSEC n) = 0)
    (hpos : 0 ≤ (s.rd (TU_TB_OFFNS n)).toInt) (hns : (s.tb n).ns + (s.rd (TU_TB_OFFNS n)).toNat < 1000000000)
    (h64 : (s.tb n).sec < 2 ^ 64) :
    tbStep s n = tbMoved s n { s.tb n with ns := (s.tb n).ns + (s.rd (TU_TB_OFFNS n)).toNat } := by
  have hoff : (s.rd (TU_TB_OFFNS n)).toInt = (s.rd (TU_TB_OFFNS n)).toNat := by
    rw [BitVec.toInt_eq_toNat_cond] at hpos ⊢
    split_ifs at hpos ⊢ <;> omega
  have hzero : (s.rd (TU_TB_OFFSEC n)).toInt = 0 := by rw [hsec]; rfl
  have hsum : (((s.tb n).sec : Int) + 0) * 1000000000 + ((s.tb n).ns + ((s.rd (TU_TB_OFFNS n)).toNat : Int)) =
      (((s.tb n).sec * 1000000000 + ((s.tb n).ns + (s.rd (TU_TB_OFFNS n)).toNat) : Nat) : Int) := by push_cast; ring
  rw [tbStep, hoff, hzero, hsum, if_neg]
  · rw [Int.toNat_natCast]
    congr 2
    · omega
    · omega
  · rw [hlock]
    simp only [Bool.false_eq_true, false_or]
    omega

/-- LOAD of a value whose nanoseconds are below a second. -/
theorem tbLoad_accepted {s : State} {n : Nat} (hlock : tbLocked s n = false) (hns : (s.rd (TU_TB_OFFNS n)).toNat < 1000000000) :
    tbLoad s n = tbMoved s n ⟨(s.rd (TU_TB_LDSECHI n)).toNat * 2 ^ 32 + (s.rd (TU_TB_OFFSEC n)).toNat,
      (s.rd (TU_TB_OFFNS n)).toNat, 0⟩ := by
  rw [tbLoad, if_neg]
  rw [hlock]
  simp only [Bool.false_eq_true, false_or]
  omega

/-- A write of TU_TB_CMD is STEP or LOAD. -/
theorem tuWrite_tbCmd (s : State) {n : Nat} (h : n < 4) :
    tuWrite s (TU_TB_CMD n % 0x40000) 1 = tbStep s n ∧ tuWrite s (TU_TB_CMD n % 0x40000) 2 = tbLoad s n := by
  have hoff : TU_TB_CMD n % 0x40000 = 0x120 + n * 0x40 := by unfold TU_TB_CMD; omega
  have htb : (0x120 + n * 0x40 - 0x100) / 0x40 = n := by omega
  have hreg : (0x120 + n * 0x40) % 0x40 = 0x20 := by omega
  have h1 : fld (1 : Word) 1 0 = 1 := by decide
  have h2 : fld (2 : Word) 1 0 = 2 := by decide
  rw [hoff]
  constructor
  · simp (disch := omega) only [tuWrite, if_neg, if_pos, htb, hreg, h1, if_true]
  · simp (disch := omega) only [tuWrite, if_neg, if_pos, htb, hreg, h2, if_true]

/-- The row of a command that moves timebase `n` to `x`. -/
theorem writeRow_tbMoved {s : State} {m : Master} {n : Fin 4} {v : Word} {x : TB} (hs : noSteps s)
    (h : opens s m (TU_TB_CMD n.val) .tu) (hw : tuWrite s (TU_TB_CMD n.val % 0x40000) v = tbMoved s n.val x) :
    ∃ t, writeRow s m (TU_TB_CMD n.val) v = .next t ∧ t.resp = .ok 0 ∧ t.tb n.val = x ∧
      t.fl (TU_TB_STAT n.val) 31 16 = (s.fl (TU_TB_STAT n.val) 31 16 + 1) % 2 ^ 16 := by
  have hn := n.isLt
  obtain ⟨u, hu, hctx, htb, hsteps⟩ := tbMoved_accepts s n.isLt x
  refine ⟨_, writeRow_tu h (.inr (by unfold TU_TB_CMD; omega)) (hw.trans hu) hctx hs, answered_resp _ _, ?_, ?_⟩
  · rw [tb_answered, htb]
  · rw [State.fl, rd_answered_timed _ _ (by unfold TU_TB_STAT; omega) (by unfold TU_TB_STAT; omega), ← State.fl, hsteps]

/-! ## Discipline (R175, R176) -/

theorem tuWrite_ctrl (s : State) (v : Word) : tuWrite s (TU_CTRL % 0x40000) v = discWrite s v := rfl

/-- A write of DISC that is not reserved: the field is taken, and a new source clears DISCLK. -/
theorem discWrite_accepts {s : State} {v : Word} (h : fld v 1 0 ≠ 3) : ∃ u, discWrite s v = (u, .ok 0) ∧ u.ctxH = s.ctxH ∧
    u.fl TU_CTRL 1 0 = fld v 1 0 ∧ (fld v 1 0 ≠ s.fl TU_CTRL 1 0 → u.bt TU_STATUS 1 = false) := by
  have hdesc : regDesc TU_CTRL = some ⟨0x3, 0, 0, 0, 0, 0⟩ := by decide
  have hfl := fl_softWrite_self s (hi := 1) (lo := 0) hdesc (by decide) (by decide) v
  rw [discWrite, if_neg h]
  dsimp only
  split_ifs with hsame
  · exact ⟨_, rfl, softWrite_ctxH _ _ _, hfl, fun hne => absurd hsame hne⟩
  · refine ⟨_, rfl, softWrite_ctxH _ _ _, ?_, fun _ => bt_setBt_self _ _ _ _ (by decide)⟩
    rw [State.fl, rd_setBt_ne _ _ _ (by decide), ← State.fl, hfl]

theorem ifTu_running {s : State} (h : inReset s blkTu = false) (f : State → State) : ifTu s f = f s := by
  rw [ifTu, h, if_neg Bool.false_ne_true]

/-- The end of a slew sets DISCLK while the PLL is locked and its source is there. -/
theorem slewDone_locks {s : State} (hlock : s.bt RST_CLKSTAT 31 = true) (hsrc : s.fl TU_CTRL 1 0 ≠ 1 ∨ s.bt TU_STATUS 2 = true) :
    slewDone s = s.setBt TU_STATUS 1 true := by
  rw [slewDone, if_neg]
  rintro (h | ⟨hone, hlost⟩)
  · simp [hlock] at h
  · rcases hsrc with hsrc | hsrc
    · exact hsrc hone
    · simp [hsrc] at hlost

/-- The loss of 10MHZ_IN shows in REFOK, DISCLK and the interrupt status. -/
theorem refLoss_shows {s : State} (h : s.fl TU_CTRL 1 0 = 1) :
    (refLoss s).bt TU_STATUS 2 = false ∧ (refLoss s).bt TU_STATUS 1 = false ∧ (refLoss s).bt TU_IRQSTAT 1 = true := by
  rw [refLoss, if_pos h]
  refine ⟨?_, ?_, bt_raise _ (by decide)⟩
  · rw [State.bt, rd_raise_ne _ _ (by decide), ← State.bt, bt_setBt_ne _ _ _ _ _ (by decide) (by decide),
      bt_setBt_self _ _ _ _ (by decide)]
  · rw [State.bt, rd_raise_ne _ _ (by decide), ← State.bt, bt_setBt_self _ _ _ _ (by decide)]

/-- Its return shows in REFOK, and the slew back to it in DISCLK. -/
theorem refReturn_shows {s : State} (h : s.fl TU_CTRL 1 0 = 1) :
    (refReturn s).bt TU_STATUS 2 = true ∧ (refReturn s).bt TU_STATUS 1 = false := by
  rw [refReturn, if_pos h, bt_setBt_ne _ _ _ _ _ (by decide) (by decide)]
  exact ⟨bt_setBt_self _ _ _ _ (by decide), bt_setBt_self _ _ _ _ (by decide)⟩

/-- A bit of the time unit after the end of a command. -/
theorem bt_close_timed (u : State) {a : Nat} (i : Nat) (h : 0x32000000 ≤ a) (h' : a < 0x34000000) : (close u).bt a i = u.bt a i := by
  rw [State.bt, rd_close_timed u h h', ← State.bt]

/-! ## The clauses of O40 on one timebase -/

section
variable {s : State} {m : Master} {n : Fin 4} (hs : noSteps s)
include hs

/-- TB_NS_READ (R173). -/
theorem tbNsRead_latches (h : opens s m (TU_TB_NS n.val) .tu) : ∃ t, exec (.tbNsRead m n) s = .next t ∧
    t.resp = .ok (BitVec.ofNat 32 (s.tb n.val).ns) ∧ t.mrd m.val (TU_TB_SECLO n.val) = BitVec.ofNat 32 (s.tb n.val).sec ∧
    t.mrd m.val (TU_TB_SECHI n.val) = BitVec.ofNat 32 ((s.tb n.val).sec / 2 ^ 32) ∧
    t.mrd m.val (TU_TB_SUB n.val) = BitVec.ofNat 32 (s.tb n.val).sub ∧ t.tb n.val = s.tb n.val := by
  obtain ⟨hlo, hhi, hsub⟩ := tbLatched_mrd s m.val n.val
  refine ⟨_, readRow_tu h (tuRead_tbNs s m.val n.isLt) rfl hs, answered_resp _ _, ?_⟩
  simp only [mrd_answered, hlo, hhi, hsub, tb_answered, true_and]
  rfl

/-- TB_RATE_WRITE (R174). -/
theorem tbRateWrite_takes (h : opens s m (TU_TB_RATE n.val) .tu) {v : Word} (hok : rateBad s n.val v = false) :
    ∃ t, exec (.tbRateWrite m n v) s = .next t ∧ t.rd (TU_TB_RATE n.val) = v ∧ t.tbs = s.tbs ∧ t.resp = .ok 0 := by
  have hn := n.isLt
  have hrd := rd_softWrite_tbRate s n.isLt v
  obtain ⟨u, hw, hctx, hrate, htbs⟩ : ∃ u, rateWrite s n.val v = (u, .ok 0) ∧ u.ctxH = s.ctxH ∧ u.rd (TU_TB_RATE n.val) = v ∧
      u.tbs = s.tbs := by
    rcases rateWrite_cases hok with hw | hw
    · exact ⟨_, hw, softWrite_ctxH _ _ _, hrd, softWrite_tbs _ _ _⟩
    · refine ⟨_, hw, softWrite_ctxH _ _ _, ?_, softWrite_tbs _ _ _⟩
      rw [rd_setBt_ne _ _ _ (by unfold TU_TB_RATE TU_STATUS; omega), hrd]
  refine ⟨_, writeRow_tu h (.inr (by unfold TU_TB_RATE; omega)) ((tuWrite_tbRate s n.isLt v).trans hw) hctx hs, ?_, ?_,
    answered_resp _ _⟩
  · rw [rd_answered_timed _ _ (by unfold TU_TB_RATE; omega) (by unfold TU_TB_RATE; omega), hrate]
  · rw [answered_tbs, htbs]

/-- TB_STEP (R174). -/
theorem tbStep_steps (h : opens s m (TU_TB_CMD n.val) .tu) (hlock : tbLocked s n.val = false)
    (hsec : s.rd (TU_TB_OFFSEC n.val) = 0) (hpos : 0 ≤ (s.rd (TU_TB_OFFNS n.val)).toInt)
    (hns : (s.tb n.val).ns + (s.rd (TU_TB_OFFNS n.val)).toNat < 1000000000) (h64 : (s.tb n.val).sec < 2 ^ 64) :
    ∃ t, exec (.tbStep m n) s = .next t ∧ t.resp = .ok 0 ∧
      t.tb n.val = { s.tb n.val with ns := (s.tb n.val).ns + (s.rd (TU_TB_OFFNS n.val)).toNat } ∧
      t.fl (TU_TB_STAT n.val) 31 16 = (s.fl (TU_TB_STAT n.val) 31 16 + 1) % 2 ^ 16 :=
  writeRow_tbMoved hs h ((tuWrite_tbCmd s n.isLt).1.trans (tbStep_within hlock hsec hpos hns h64))

/-- TB_LOAD (R174). -/
theorem tbLoad_loads (h : opens s m (TU_TB_CMD n.val) .tu) (hlock : tbLocked s n.val = false)
    (hns : (s.rd (TU_TB_OFFNS n.val)).toNat < 1000000000) :
    ∃ t, exec (.tbLoad m n) s = .next t ∧ t.resp = .ok 0 ∧ t.tb n.val =
      ⟨(s.rd (TU_TB_LDSECHI n.val)).toNat * 2 ^ 32 + (s.rd (TU_TB_OFFSEC n.val)).toNat, (s.rd (TU_TB_OFFNS n.val)).toNat, 0⟩ := by
  obtain ⟨t, hrow, hresp, htb, -⟩ := writeRow_tbMoved hs h ((tuWrite_tbCmd s n.isLt).2.trans (tbLoad_accepted hlock hns))
  exact ⟨t, hrow, hresp, htb⟩

/-- DISC_WRITE (R175). -/
theorem discWrite_takes (h : opens s m TU_CTRL .tu) {v : Word} (hok : fld v 1 0 ≠ 3) : ∃ t, exec (.discWrite m v) s = .next t ∧
    t.fl TU_CTRL 1 0 = fld v 1 0 ∧ (fld v 1 0 ≠ s.fl TU_CTRL 1 0 → t.bt TU_STATUS 1 = false) := by
  obtain ⟨u, hw, hctx, hfl, hdis⟩ := discWrite_accepts (s := s) hok
  refine ⟨_, writeRow_tu h (.inl (by decide)) ((tuWrite_ctrl s v).trans hw) hctx hs, ?_, fun hne => ?_⟩
  · rw [State.fl, rd_answered_timed _ _ (by decide) (by decide), ← State.fl, hfl]
  · rw [State.bt, rd_answered_timed _ _ (by decide) (by decide), ← State.bt, hdis hne]

end

end Sys2Proof.Machine

/-! SUPPORT. The pulse per second (R177, R179, R191 to R193): the edges of 1PPS_OUT, its keeper, and the capture of 1PPS_IN. -/

namespace Sys2Proof.Machine

/-! ## The output -/

/-- A level change of 1PPS_OUT is one of the level alone. -/
theorem setPps_pps (s : State) (b : Bool) : (setPps s b).pps = { s.pps with high := b } := by
  unfold setPps
  split_ifs with h
  · rw [← h]
  · rfl

@[simp] theorem rd_setPps (s : State) (b : Bool) (a : Nat) : (setPps s b).rd a = s.rd a := by
  unfold setPps
  split_ifs
  · rfl
  · rfl

/-- The end of a command leaves whether the keeper holds the output. -/
theorem ppsHeld_close (s : State) : ppsHeld (close s) = ppsHeld s := bt_close_timed s 0 (by decide) (by decide)

/-! ## Edges of the time unit (R191) -/

/-- A rising edge as the keeper notes it: its cycle, the width in force, and the periods learnt. -/
def ppsNoted (s : State) (periods : List Nat) : PpsH :=
  { s.pps with rose := true, roseAt := s.cycles, width := s.fl TU_PPS_CFG 19 0, periods := periods }

/-- The output has risen: the edge is noted, and the keeper gives the output back. -/
def ppsRisen (s : State) (periods : List Nat) : State :=
  setPps (State.setBt { s with pps := ppsNoted s periods } TU_PPS_STAT 0 false) true

/-- A rising edge where the timebase has passed a whole second plus offset. -/
theorem ppsEdge_rising {s u : State} (refCycles : Nat) (hdrv : ppsDriven u = true)
    (hsec : ppsCount u (s.tb (u.fl TU_PPS_CFG 21 20)) < ppsCount u (u.tb (u.fl TU_PPS_CFG 21 20))) :
    ∃ l, ppsEdge s u true refCycles = ppsRisen u l := by
  rw [ppsEdge, if_neg (by simp [hdrv]), if_pos rfl, if_neg (Int.not_le.2 hsec)]
  exact ⟨_, rfl⟩

theorem ppsRisen_high (s : State) (l : List Nat) :
    (ppsRisen s l).pps.high = true ∧ (ppsRisen s l).pps.roseAt = s.cycles ∧ ppsHeld (ppsRisen s l) = false := by
  unfold ppsRisen
  rw [setPps_pps]
  refine ⟨rfl, rfl, ?_⟩
  rw [ppsHeld, State.bt, rd_setPps, ← State.bt, bt_setBt_self _ _ _ _ (by decide)]

/-- The output is low once the width has passed. -/
theorem ppsEdge_falling {s u : State} (refCycles : Nat) (hdrv : ppsDriven u = true) (hheld : ppsHeld u = false)
    (hwidth : u.pps.roseAt + u.fl TU_PPS_CFG 19 0 * 1000 ≤ u.cycles) : (ppsEdge s u false refCycles).pps.high = false := by
  rw [ppsEdge, if_neg (by simp [hdrv]), if_neg Bool.false_ne_true]
  split_ifs with h
  · rw [setPps_pps]
  · simpa [hheld, hwidth] using h

/-! ## Edges of the keeper (R192) -/

/-- A rising edge of the keeper, within a cycle of the reference of the learnt period. -/
theorem ppsKeeperEdge_rising {s : State} (hheld : ppsHeld s = true)
    (hper : ∀ n ∈ ppsPeriod s.pps, s.pps.roseAt + n ≤ s.cycles + 40) : (ppsKeeperEdge s true).pps.high = true ∧
      ∀ n, ppsPeriod s.pps = some n → (ppsKeeperEdge s true).pps.roseAt = s.pps.roseAt + n := by
  rw [ppsKeeperEdge, if_neg (by simp [hheld]), if_pos rfl]
  cases hn : ppsPeriod s.pps with
  | none =>
    dsimp only
    rw [setPps_pps]
    exact ⟨rfl, fun n h => nomatch h⟩
  | some n =>
    dsimp only
    rw [if_neg (Nat.not_lt.2 (hper n hn)), setPps_pps]
    refine ⟨rfl, fun n' h => ?_⟩
    cases h
    rfl

/-- A falling edge of the keeper, within a cycle of the reference of the width. -/
theorem ppsKeeperEdge_falling {s : State} (hheld : ppsHeld s = true)
    (hwidth : s.pps.roseAt + s.pps.width * 1000 ≤ s.cycles + 40) : (ppsKeeperEdge s false).pps.high = false := by
  rw [ppsKeeperEdge, if_neg (by simp [hheld]), if_neg Bool.false_ne_true, if_neg (Nat.not_lt.2 hwidth), setPps_pps]

/-- Ten seconds without a handback end the hold: the output is low, and EXPIRED and the interrupt status show it. -/
theorem ppsExpire_ends {s : State} (hheld : ppsHeld s = true) (hage : s.pps.heldAt + 10000000000 ≤ s.cycles) :
    (ppsExpire s).pps.high = false ∧ ppsHeld (ppsExpire s) = false ∧ (ppsExpire s).bt TU_PPS_STAT 1 = true ∧
      (ppsExpire s).bt TU_IRQSTAT 3 = true := by
  have hpps (t : State) : (((t.setBt TU_PPS_STAT 0 false).raise TU_PPS_STAT 0x2).raise TU_IRQSTAT 0x8).pps = t.pps := rfl
  have hidle : bitAt ((2 : Word)) 0 = false := by decide
  rw [ppsExpire, if_pos (by simp [hheld, hage])]
  refine ⟨?_, ?_, ?_, bt_raise _ (by decide)⟩
  · rw [hpps, setPps_pps]
  · rw [ppsHeld, State.bt, rd_raise_ne _ _ (by decide), State.raise, rd_wr_self, bitAt_or, ← State.bt,
      bt_setBt_self _ _ _ _ (by decide), hidle]
    rfl
  · rw [State.bt, rd_raise_ne _ _ (by decide), ← State.bt]
    exact bt_raise _ (by decide)

/-! ## The capture of 1PPS_IN (R177, R179, R193) -/

/-- The second word of a capture: VALID, the seconds and the eighths of a nanosecond, the overrun bit `b` as it was (Table 8.10). -/
def capWord (x : TB) (b : Nat) : Word := BitVec.ofNat 32 (x.sec % 2 ^ 16 * 2 ^ 16 + b * 2 ^ 6 + 0x80 + x.sub)

/-- A capture at a port that is enabled and free. -/
theorem tuCapture_free {s : State} {i : Nat} (hen : s.bt (TU_CAP_CFG i) 31 = true) (hfree : s.bt (TU_CAP_SEC i) 7 = false) (sub : Nat) :
    tuCapture s i sub =
      (s.wr (TU_CAP_NS i) (BitVec.ofNat 32 ((s.tb (s.fl (TU_CAP_CFG i) 9 8)).after sub).ns)).wr (TU_CAP_SEC i)
        (capWord ((s.tb (s.fl (TU_CAP_CFG i) 9 8)).after sub) (s.fl (TU_CAP_SEC i) 6 6)) := by
  rw [tuCapture, if_neg (by simp [hen]), if_neg (by simp [hfree]), capWord]

theorem capWord_fields {x : TB} {b : Nat} (hsub : x.sub < 8) (hb : b < 2) :
    bitAt (capWord x b) 7 = true ∧ fld (capWord x b) 2 0 = x.sub := by
  have hlt : x.sec % 2 ^ 16 * 2 ^ 16 + b * 2 ^ 6 + 0x80 + x.sub < 2 ^ 32 := by omega
  have hnat : (capWord x b).toNat = x.sec % 2 ^ 16 * 2 ^ 16 + b * 2 ^ 6 + 0x80 + x.sub := by
    rw [capWord, BitVec.toNat_ofNat, Nat.mod_eq_of_lt hlt]
  constructor
  · rw [bitAt, hnat, beq_iff_eq]
    omega
  · rw [fld, hnat]
    omega

/-- What the capture of 1PPS_IN leaves at port 8. -/
theorem tuCapture_shows {s : State} {i : Nat} (hen : s.bt (TU_CAP_CFG i) 31 = true) (hfree : s.bt (TU_CAP_SEC i) 7 = false)
    (sub : Nat) : (tuCapture s i sub).bt (TU_CAP_SEC i) 7 = true ∧
      (tuCapture s i sub).fl (TU_CAP_SEC i) 2 0 = ((s.tb (s.fl (TU_CAP_CFG i) 9 8)).after sub).sub ∧
      (tuCapture s i sub).rd (TU_CAP_NS i) = BitVec.ofNat 32 ((s.tb (s.fl (TU_CAP_CFG i) 9 8)).after sub).ns := by
  obtain ⟨hvalid, hsub⟩ := capWord_fields (TB.after_sub_lt (s.tb (s.fl (TU_CAP_CFG i) 9 8)) sub) (fld_lt (s.rd (TU_CAP_SEC i)) 6 6)
  rw [tuCapture_free hen hfree]
  refine ⟨?_, ?_, ?_⟩
  · rw [State.bt, rd_wr_self]
    exact hvalid
  · rw [State.fl, rd_wr_self]
    exact hsub
  · rw [rd_wr_ne _ _ (by unfold TU_CAP_NS TU_CAP_SEC; omega), rd_wr_self]

/-! ## The rows -/

/-- Settles O40: the timebases register by register, the pulse per second edge by edge. That RATE, STEP and LOAD act at the command is
log entry 23, and the keeper that has learnt no period takes an edge at any time by log entry 102. -/
theorem timebasesAndPps : Obligations.TimebasesAndPps := by
  refine ⟨fun s m n v x hs hx => ?_, fun s dt ref rise sub u hu => ?_⟩
  · rw [hx]
    refine ⟨tbNsRead_latches hs, fun h hok => tbRateWrite_takes hs h hok, tbStep_steps hs, tbLoad_loads hs, fun h hok => discWrite_takes hs h hok,
      fun hout hlock hsrc => ⟨_, rfl, ?_⟩, fun hout hten => ⟨⟨_, rfl, ?_⟩, _, rfl, ?_⟩⟩
    · rw [ifTu_running hout, bt_close_timed _ _ (by decide) (by decide), slewDone_locks hlock hsrc,
        bt_setBt_self _ _ _ _ (by decide)]
    · rw [ifTu_running hout, bt_close_timed _ _ (by decide) (by decide), bt_close_timed _ _ (by decide) (by decide),
        bt_close_timed _ _ (by decide) (by decide)]
      exact refLoss_shows hten
    · rw [ifTu_running hout, bt_close_timed _ _ (by decide) (by decide), bt_close_timed _ _ (by decide) (by decide)]
      exact refReturn_shows hten
  · have hedge (b : Bool) : exec (.ppsOutEdge b dt ref) s = .next (close (ppsEdge s u b ref)) := by rw [hu]; rfl
    have hkeeper (b : Bool) : exec (.ppsKeeperEdge b dt) s = .next (close (ppsKeeperEdge u b)) := by rw [hu]; rfl
    have hexpiry : exec (.ppsHoldoverExpiry dt) s = .next (close (ppsExpire u)) := by rw [hu]; rfl
    have hin : exec (.ppsInEdge sub dt) s = .next (close (ifTu u fun s => tuCapture s 8 sub.val)) := by rw [hu]; rfl
    refine ⟨fun n hn hdrv hsec => ⟨_, hedge true, ?_⟩, fun hdrv hheld hw => ⟨_, hedge false, ?_⟩,
      fun hheld hper => ⟨_, hkeeper true, ?_⟩, fun hheld hw => ⟨_, hkeeper false, ?_⟩, fun hheld hage => ⟨_, hexpiry, ?_⟩,
      fun z hout hen hfree hz => ⟨_, hin, ?_⟩⟩
    · obtain ⟨l, hl⟩ := ppsEdge_rising ref hdrv (hn ▸ hsec)
      rw [hl, close_pps, ppsHeld_close]
      exact ppsRisen_high u l
    · rw [close_pps]
      exact ppsEdge_falling ref hdrv hheld hw
    · rw [close_pps]
      exact ppsKeeperEdge_rising hheld hper
    · rw [close_pps]
      exact ppsKeeperEdge_falling hheld hw
    · rw [close_pps, ppsHeld_close, bt_close_timed _ _ (by decide) (by decide), bt_close_timed _ _ (by decide) (by decide)]
      exact ppsExpire_ends hheld hage
    · rw [hz, ifTu_running hout, bt_close_timed _ _ (by decide) (by decide), State.fl,
        rd_close_timed _ (by decide) (by decide), rd_close_timed _ (by decide) (by decide), ← State.fl]
      exact tuCapture_shows hen hfree sub.val

end Sys2Proof.Machine

/-! SUPPORT. Frames that the switch receives (R284 to R289): the row of a frame that the lookup forwards, and of a short one. -/

namespace Sys2Proof.Machine

/-! ## What the count of a received frame leaves -/

/-- A frame received without error at port `p` is counted. -/
def rxCounted (s : State) (p : Nat) : State := s.wrapInc (SW_P_CNT0 p) 31 0

theorem rd_rxCounted (s : State) {p a : Nat} (h : a ≠ SW_P_CNT0 p) : (rxCounted s p).rd a = s.rd a := rd_wrapInc_ne s _ _ _ h

theorem hashPass_rxCounted (s : State) (p : Nat) (da : List Byte) : hashPass (rxCounted s p) p da = hashPass s p da := by
  have hlt : ethCrc da % 512 / 32 < 16 := by omega
  have hne : SW_P_HASH p (ethCrc da % 512 / 32) ≠ SW_P_CNT0 p := by unfold SW_P_HASH SW_P_CNT0; omega
  simp only [hashPass, State.bt, rd_rxCounted s hne]

theorem portState_rxCounted (s : State) (p q : Nat) : portState (rxCounted s q) p = portState s p := by
  have hne : SW_P_CFG p ≠ SW_P_CNT0 q := by unfold SW_P_CFG SW_P_CNT0; omega
  simp only [portState, State.fl, rd_rxCounted s hne]

theorem prpPair_rxCounted (s : State) {q : Nat} (hq : q < 16) (p : Nat) : prpPair (rxCounted s q) p = prpPair s p := by
  have hne : SW_PRP_CFG (p / 2) ≠ SW_P_CNT0 q := by unfold SW_PRP_CFG SW_P_CNT0; omega
  have hbt : (rxCounted s q).bt (SW_PRP_CFG (p / 2)) 31 = s.bt (SW_PRP_CFG (p / 2)) 31 := by rw [State.bt, rd_rxCounted s hne, State.bt]
  unfold prpPair
  rw [hbt]

theorem ptpEvent_rxCounted (s : State) (p : Nat) (body : List Byte) : ptpEvent (rxCounted s p) body = ptpEvent s body := by
  have hrd (i : Nat) (hi : i < 4) : (rxCounted s p).rd (TU_PTPDOM i) = s.rd (TU_PTPDOM i) :=
    rd_rxCounted s (by unfold TU_PTPDOM SW_P_CNT0; omega)
  have hinst : ptpInstance (rxCounted s p) body = ptpInstance s body := by
    unfold ptpInstance
    cases ptpAt body with
    | none => rfl
    | some o =>
      dsimp only
      rw [List.find?_congr fun i hi => ?_]
      simp only [hrd i (List.mem_range.1 hi)]
  rw [ptpEvent, hinst, ptpEvent]

/-- The copy of a frame of port `p`, `len` bytes long with its FCS, whose ingress instant is `t` (R178). -/
def receivedCopy (x : Rx) (len p : Nat) (t : Int) : SwCopy :=
  { da := x.da, sa := x.sa, tci := x.tci, rseq := x.rseq, body := x.body, len := len, src := p, cls := 0,
    sec := (split125 t).1, ns := (split125 t).2.1, sub := (split125 t).2.2, tIn := t, bad := false }

/-- A frame received without error that the lookup forwards goes to the ports the lookup gives (R289). -/
theorem frameForward_forwards {w w1 : State} {p : Nat} {d : List Byte} {tin : List Int} {f : Fwd} (hp : p < 12)
    (hlive : swLive w = true) (hup : linkUp w p = true) (hmin : 60 ≤ d.length) (hmax : d.length + 4 ≤ maxLen w p)
    (hdata : beNat ((d.drop 12).take 2) ≠ 0x8808) (hhash : hashPass w p (d.take 6) = true) (hon : portState w p ≠ 0)
    (hprp : prpPair w p = none) (hptp : ptpEvent w (parseFrame d).body = none)
    (hf : forward (rxCounted w p) (receivedCopy (parseFrame d) (d.length + 4) p (tin.getD 0 0)) none = (w1, some f)) (busy : Word)
    (sub : Nat) : frameForward w p d .good busy tin sub ⟨0, .good⟩ = sendAll w1 f busy sub := by
  have hstart : ¬(swLive w = false ∨ linkUp w p = false) := by simp [hlive, hup]
  have hlong : ¬maxLen w p < d.length + 4 := Nat.not_lt.2 hmax
  have hshort : ¬d.length + 4 < 64 := by omega
  have hcount : w.wrapInc (SW_P_CNT0 p) 31 0 = rxCounted w p := rfl
  rw [receivedCopy] at hf
  rw [frameForward, if_neg hstart]
  simp only [hlong, decide_false, Bool.false_or, ne_eq, not_true_eq_false, hshort, if_false, Bool.false_eq_true, hdata, hcount,
    hashPass_rxCounted, hhash, portState_rxCounted, hon, prpPair_rxCounted w (show p < 16 by omega), hprp, dgEcc,
    Bool.true_eq_false, ptpEvent_rxCounted, hptp, hf]
  rw [if_neg (by decide)]

/-- The row of a received frame, at the states of its timestamp point and of its forwarding. -/
theorem exec_frameForward {s u w : State} {dt rest : Nat} (hu : u = elapse s dt) (hw : w = elapse u rest) (p : Fin 12) (d : List Byte)
    (fcs : Fcs) (busy : Word) (sub csub : Fin 8) (e : EccSeen) : exec (.frameForward p d fcs busy dt sub rest csub e) s =
      .next (close (runSteps (frameForward w p.val d fcs busy
        ((List.range 4).map fun t => ingressAt u p.val t sub.val) csub.val e))) := by
  rw [hw, hu]
  rfl

end Sys2Proof.Machine

/-! SUPPORT. What leaves an egress port (R285, R295, R304): the next frame of its highest ready class, and launches. -/

namespace Sys2Proof.Machine

/-- A port that may send starts the head of the class that R295 chooses. -/
theorem transmitRow_sends {s : State} {p c : Nat} {x : SwCopy} {r : List SwCopy} (hp : p < 12) (hcal : bitAt s.serCal (p + 2) = false)
    (hlive : swLive s = true) (hup : linkUp s p = true) (hc : nextClass s p = some c) (hq : swQueue s (8 * p + c) = x :: r)
    (sub : Nat) : transmitRow s p sub ⟨0, .good⟩ = popHead (sendCopy s p x sub false) (8 * p + c) := by
  have hsend : frameTransmit s p sub = popHead (sendCopy s p x sub false) (8 * p + c) := by
    rw [frameTransmit, if_neg (by simp [hlive, hup, hp])]
    simp only [hc, hq]
  rw [transmitRow, if_neg (by simp [hcal, hlive, hup])]
  simp only [hc, dgEcc]
  rw [if_neg (by decide), hsend]

/-- The launch time of the head of a queue has come. -/
theorem launchTime_due {s : State} {q n : Nat} {x : SwCopy} {r : List SwCopy} (hlive : swLive s = true)
    (hq : swQueue s q = x :: r) (hlt : x.lt = some n) (hmode : s.fl (SW_Q_CFG q) 30 29 = 1) (hlate : x.late = false)
    (hn : n ≤ now0 s) (busy : Bool) : launchTime s q busy = launchHead s q busy (now0 s - n) := by
  unfold now0 at hn
  simp only [launchTime, hq, hlt, hlive, hmode, hlate, hn, decide_true, beq_self_eq_true, Bool.not_false, Bool.and_self, if_true]
  rfl

/-- The head is launched in time where its port can take it (R185, R304). -/
theorem launchHead_inTime {s : State} {q ago : Nat} {x : SwCopy} {r : List SwCopy} (hq : swQueue s q = x :: r)
    (hidle : portBusy s (q / 8) = false) (hup : linkUp s (q / 8) = true) (hopen : gateOpen s (q / 8) (q % 8) = true)
    (hfits : gateFits s (q / 8) (q % 8) (outLen x) = true) (hpause : paused s (q / 8) (q % 8) = false)
    (hlimit : ago ≤ launchLimit s (q / 8)) (hhead : smGet 0 s.headAt q + 1000 + ago ≤ s.cycles) :
    launchHead s q false ago = popHead (sendCopy s (q / 8) x 0 false) q := by
  simp only [launchHead, hq, hidle, hup, hopen, hfits, hpause, hlimit, hhead, decide_true, Bool.not_false, Bool.and_self, if_true]

/-- The head misses its launch while the port is busy: it is late, and counted (R304). -/
theorem launchHead_busy {s : State} {q : Nat} {x : SwCopy} {r : List SwCopy} (hq : swQueue s q = x :: r)
    (hkeep : s.bt (SW_Q_CFG q) 28 = false) (ago : Nat) :
    launchHead s q true ago = setSwQueue (s.satInc (SW_Q_LATE q) 31 16) q ({ x with late := true } :: r) := by
  have hbt : (s.satInc (SW_Q_LATE q) 31 16).bt (SW_Q_CFG q) 28 = false := by
    rw [State.bt, rd_satInc_ne _ _ _ _ (by unfold SW_Q_CFG SW_Q_LATE; omega), ← State.bt, hkeep]
  simp only [launchHead, hq, Bool.not_true, Bool.false_and, Bool.false_eq_true, if_false, hbt]

/-- A field that a saturating counter has counted in. -/
theorem fl_satInc_self (s : State) (a hi lo : Nat) (h : lo ≤ hi) (h32 : hi < 32) :
    (s.satInc a hi lo).fl a hi lo = min (2 ^ (hi + 1 - lo) - 1) (s.fl a hi lo + 1) := by
  have hpos : 0 < 2 ^ (hi + 1 - lo) := by positivity
  rw [State.satInc, fl_setFl_self _ _ _ _ _ h h32, min_comm, Nat.mod_eq_of_lt (by omega)]

@[simp] theorem rd_setSwQueue (s : State) (q a : Nat) (l : List SwCopy) : (setSwQueue s q l).rd a = s.rd a := rfl

@[simp] theorem swQueue_setSwQueue_self (s : State) (q : Nat) (l : List SwCopy) : swQueue (setSwQueue s q l) q = l := by
  simp [swQueue, setSwQueue]

@[simp] theorem swQueue_close (s : State) (q : Nat) : swQueue (close s) q = swQueue s q := by
  simp only [swQueue, close_swq]

/-- A field of the switch after the end of a command. -/
theorem fl_close_timed (u : State) {a : Nat} (hi lo : Nat) (h : 0x32000000 ≤ a) (h' : a < 0x34000000) :
    (close u).fl a hi lo = u.fl a hi lo := by
  rw [State.fl, rd_close_timed u h h', ← State.fl]

end Sys2Proof.Machine

/-! SUPPORT. Priority flow control (R298, R299): the refresh of a hold, a received PFC frame and its pauses, and a privileged copy that
waits. -/

namespace Sys2Proof.Machine

/-- A PFC frame that is sent is counted. -/
theorem fl_sendPfc (s : State) (p c quanta : Nat) :
    (sendPfc s p c quanta).fl (SW_P_CNT4 p) 15 0 = min (2 ^ 16 - 1) (s.fl (SW_P_CNT4 p) 15 0 + 1) :=
  fl_satInc_self s _ 15 0 (by decide) (by decide)

/-- A hold is refreshed once half its time has passed. -/
theorem pfcRefresh_due {s : State} {p c : Nat} (hp : p < 12) (hlive : swLive s = true) (hheld : held s p c = true)
    (hdue : smGet 0 s.pfcAt (8 * p + c) + quantaTime s p (s.fl (SW_P_PFC p) 15 0 / 2) ≤ s.cycles) :
    pfcRefresh s p c = sendPfc s p c (s.fl (SW_P_PFC p) 15 0) := by
  rw [pfcRefresh, if_pos (by simp [hlive, hp, hheld, hdue])]

/-! ## A received PFC frame -/

/-- The pauses of a state replaced. -/
def withPauses (s : State) (m : SMap Nat) : State := { s with swPause := m }

@[simp] theorem rd_withPauses (s : State) (m : SMap Nat) (a : Nat) : (withPauses s m).rd a = s.rd a := rfl
@[simp] theorem withPauses_cycles (s : State) (m : SMap Nat) : (withPauses s m).cycles = s.cycles := rfl

/-- Class `c` as a PFC frame with these classes and quanta leaves it (R299). -/
def pauseStep (p : Nat) (classes : Word) (quanta : List Nat) (s : State) (c : Nat) : State :=
  if bitAt classes c && s.bt (SW_P_PFC p) (16 + c) then
    { s with swPause := smSet 0 s.swPause (8 * p + c) (s.cycles + quantaTime s p (quanta.getD c 0 % 65536)) }
  else s

/-- A received PFC frame is counted, and the classes take it one after the other. -/
theorem pfcReceive_eq {s : State} {p : Nat} (hlive : swLive s = true) (hup : linkUp s p = true) (classes : Word)
    (quanta : List Nat) : pfcReceive s p classes quanta =
      (List.range 8).foldl (pauseStep p classes quanta) (s.satInc (SW_P_CNT4 p) 31 16) := by
  rw [pfcReceive, if_neg (by simp [hlive, hup])]
  rfl

section
variable (p : Nat) (classes : Word) (quanta : List Nat)

/-- A PFC frame changes the pauses alone. -/
theorem pauseStep_eq (s : State) (c : Nat) : ∃ m, pauseStep p classes quanta s c = withPauses s m := by
  unfold pauseStep
  split_ifs
  · exact ⟨_, rfl⟩
  · exact ⟨s.swPause, rfl⟩

theorem foldl_pauseStep_eq (s : State) (l : List Nat) : ∃ m, l.foldl (pauseStep p classes quanta) s = withPauses s m := by
  refine List.foldlRecOn (motive := fun t : State => ∃ m, t = withPauses s m) _ _ ⟨s.swPause, rfl⟩ ?_
  rintro t ⟨m, rfl⟩ c _
  obtain ⟨m', h⟩ := pauseStep_eq p classes quanta (withPauses s m) c
  exact ⟨m', h⟩

/-- The pause of class `c` after its own step. -/
def pauseAfter (s : State) (c : Nat) : Nat :=
  if bitAt classes c && s.bt (SW_P_PFC p) (16 + c) then s.cycles + quantaTime s p (quanta.getD c 0 % 65536)
  else smGet 0 s.swPause (8 * p + c)

/-- It depends on what is paused, the time, and two registers of the port. -/
theorem pauseAfter_congr {s t : State} {c : Nat} (hpfc : t.rd (SW_P_PFC p) = s.rd (SW_P_PFC p))
    (hlink : t.rd (SW_P_LINK p) = s.rd (SW_P_LINK p)) (hcyc : t.cycles = s.cycles)
    (hold : smGet 0 t.swPause (8 * p + c) = smGet 0 s.swPause (8 * p + c)) :
    pauseAfter p classes quanta t c = pauseAfter p classes quanta s c := by
  unfold pauseAfter quantaTime State.bt State.fl
  rw [hpfc, hlink, hcyc, hold]

theorem smGet_pauseStep_self (s : State) (c : Nat) :
    smGet 0 (pauseStep p classes quanta s c).swPause (8 * p + c) = pauseAfter p classes quanta s c := by
  unfold pauseStep pauseAfter
  split_ifs
  · exact smGet_smSet_self _ _ _ _
  · rfl

theorem smGet_pauseStep_ne (s : State) {c k : Nat} (h : k ≠ 8 * p + c) :
    smGet 0 (pauseStep p classes quanta s c).swPause k = smGet 0 s.swPause k := by
  unfold pauseStep
  split_ifs
  · exact smGet_smSet_ne _ _ _ _ h
  · rfl

/-- The pauses of the first `n` classes are those of the frame. -/
theorem smGet_foldl_pauseStep (s : State) (n c : Nat) :
    smGet 0 ((List.range n).foldl (pauseStep p classes quanta) s).swPause (8 * p + c) =
      if c < n then pauseAfter p classes quanta s c else smGet 0 s.swPause (8 * p + c) := by
  induction n with
  | zero => simp
  | succ n ih =>
    rw [List.range_succ, List.foldl_append, List.foldl_cons, List.foldl_nil]
    by_cases hc : c = n
    · subst hc
      rw [smGet_pauseStep_self, if_pos (Nat.lt_succ_self c)]
      rw [if_neg (Nat.lt_irrefl c)] at ih
      obtain ⟨m, hm⟩ := foldl_pauseStep_eq p classes quanta s (List.range c)
      rw [hm] at ih ⊢
      exact pauseAfter_congr p classes quanta (rd_withPauses s m _) (rd_withPauses s m _) (withPauses_cycles s m) ih
    · rw [smGet_pauseStep_ne _ _ _ _ (by omega), ih]
      simp only [show c < n + 1 ↔ c < n by omega]

end

/-- What a received PFC frame leaves: it is counted, and each class that it names and that obeys is paused (R299). -/
theorem pfcReceive_pauses {s : State} {p : Nat} (hlive : swLive s = true) (hup : linkUp s p = true) (classes : Word)
    (quanta : List Nat) :
    (pfcReceive s p classes quanta).fl (SW_P_CNT4 p) 31 16 = min (2 ^ 16 - 1) (s.fl (SW_P_CNT4 p) 31 16 + 1) ∧
      ∀ c < 8, smGet 0 (pfcReceive s p classes quanta).swPause (8 * p + c) = pauseAfter p classes quanta s c := by
  have hcount := fl_satInc_self s (SW_P_CNT4 p) 31 16 (by decide) (by decide)
  have hpfc : (s.satInc (SW_P_CNT4 p) 31 16).rd (SW_P_PFC p) = s.rd (SW_P_PFC p) :=
    rd_satInc_ne _ _ _ _ (by unfold SW_P_PFC SW_P_CNT4; omega)
  have hlink : (s.satInc (SW_P_CNT4 p) 31 16).rd (SW_P_LINK p) = s.rd (SW_P_LINK p) :=
    rd_satInc_ne _ _ _ _ (by unfold SW_P_LINK SW_P_CNT4; omega)
  have hcyc : (s.satInc (SW_P_CNT4 p) 31 16).cycles = s.cycles := State.wr_cycles _ _ _
  have hold : (s.satInc (SW_P_CNT4 p) 31 16).swPause = s.swPause := State.wr_swPause _ _ _
  rw [pfcReceive_eq hlive hup]
  generalize s.satInc (SW_P_CNT4 p) 31 16 = u at *
  constructor
  · obtain ⟨m, hm⟩ := foldl_pauseStep_eq p classes quanta u (List.range 8)
    rw [hm, State.fl, rd_withPauses, ← State.fl, hcount]
  · intro c hc
    rw [smGet_foldl_pauseStep, if_pos hc]
    exact pauseAfter_congr p classes quanta hpfc hlink hcyc (by rw [hold])

/-! ## Waiting privileged copies (R295, R298) -/

/-- The classes from the highest down to class `k` are those above it, and it. -/
theorem classes_from {k : Nat} (h : k < 8) : [7, 6, 5, 4, 3, 2, 1, 0].filter (fun c => decide (k ≤ c)) =
    [7, 6, 5, 4, 3, 2, 1, 0].filter (fun c => decide (k < c)) ++ [k] := by
  revert k
  decide

/-- Nothing is delivered from empty queues. -/
theorem foldl_deliver_empty {s : State} {q : Nat} (l : List Nat) (h : ∀ c ∈ l, swQueue s (q / 8 * 8 + c) = []) :
    l.foldl (fun s c => deliver (q / 8 * 8 + c) (swQueue s (q / 8 * 8 + c)).length s) s = s := by
  refine List.foldlRecOn (motive := fun t : State => t = s) _ _ rfl ?_
  rintro t rfl c hc
  rw [h c hc]
  rfl

/-- Where the higher classes of its port hold none, the copies of a queue are delivered. -/
theorem privResume_delivers {s : State} {q : Nat} (hq : 96 ≤ q) (hq' : q < 128) (himg : q / 8 ≠ 14) (hlive : swLive s = true)
    (hempty : ∀ c < 128, c ≤ q ∨ c / 8 ≠ q / 8 ∨ swQueue s c = []) : privResume s q = deliver q (swQueue s q).length s := by
  have hself : q / 8 * 8 + q % 8 = q := Nat.div_add_mod' q 8
  have habove : ∀ c ∈ [7, 6, 5, 4, 3, 2, 1, 0].filter (fun c => decide (q % 8 < c)), swQueue s (q / 8 * 8 + c) = [] := by
    intro c hc
    obtain ⟨hmem, hlt⟩ := List.mem_filter.1 hc
    have hlt : q % 8 < c := of_decide_eq_true hlt
    have hc8 : c < 8 := by
      simp only [List.mem_cons, List.not_mem_nil, or_false] at hmem
      omega
    rcases hempty (q / 8 * 8 + c) (by omega) with h | h | h
    · omega
    · omega
    · exact h
  rw [privResume, if_pos (by simp [hlive, hq, himg]), classes_from (Nat.mod_lt q (by decide)), List.foldl_append,
    foldl_deliver_empty _ habove, List.foldl_cons, List.foldl_nil, hself]

end Sys2Proof.Machine

/-! SUPPORT. Descriptors (R307), PRP (R309) and sequence recovery (R292). -/

namespace Sys2Proof.Machine

/-- A descriptor with no launch time and no one-step message, to no direct port, whose frame the switch takes (R307). `h` is the
descriptor, `bytes` its frame. -/
theorem txDescriptor_taken {s s1 s2 s3 : State} {r d len fl : Nat} {h bytes : List Byte} (hlive : swLive s = true)
    (himg : r / 32 ≠ 2) (hen : s.bt (SW_R_CFG r) 31 = true) (htx : s.bt (SW_R_CFG r) 30 = true)
    (hptr : s.fl (SW_R_HWPTR r) 15 0 ≠ s.fl (SW_R_SWPTR r) 15 0)
    (hd : d = (s.rd (SW_R_BASE r)).toNat + 32 * s.fl (SW_R_HWPTR r) 15 0) (hread : memRead s 13 d 18 = (s1, some h))
    (hlen : len = leNat ((h.drop 4).take 2)) (hfl : fl = (h.getD 7 0).toNat) (hmin : 14 ≤ len) (hdst : h.getD 6 0 = 255)
    (hheld : held s1 (12 + r / 32) (fl % 8) = false) (hdata : memRead s1 13 (leNat (h.take 4)) len = (s2, some bytes))
    (hflags : fl < 64)
    (hsend : internalSend s2 (12 + r / 32) bytes (fl % 8) none false (fl / 32 % 2 == 1) none = some s3) :
    txDescriptor s r = txAnswer s3 r d false := by
  have hone : (fl / 64 % 2 == 1) = false := by
    rw [Nat.div_eq_of_lt hflags]
    rfl
  have hall : (255 : Byte).toNat = 255 := rfl
  have hshort : ¬(len < 14 ∨ 12 ≤ 255 ∧ 255 ≤ 254) := by omega
  rw [txDescriptor, if_neg (by simp [hlive, himg, hen, htx, hptr])]
  simp only [← hd, hread, ← hlen, ← hfl, hheld, hdst, hall, if_neg hshort, hdata, hone, if_neg (show ¬128 ≤ fl by omega), Bool.false_and,
    Bool.false_eq_true, if_false, if_true, hsend]

/-- The oldest entry of a pair, seen on LAN A only, is forgotten and counted after FORGET (R309). -/
theorem prpForget_onlyA {s : State} {k : Nat} {e : PrpE} {r : List PrpE} (htab : prpTable s k = e :: r)
    (hage : e.at_ + s.fl (SW_PRP_CFG k) 15 0 * 1000000 ≤ s.cycles) (ha : e.a = true) (hb : e.b = false) :
    prpForget s k = (setPrpTable s k r).satInc (SW_PRP_CNT1 k) 31 16 := by
  simp only [prpForget, htab, if_pos hage, prpForgotten, ha, hb, Bool.not_false, Bool.and_self, if_true]

/-- Recovery of a stream that takes no frame for RESETMS is reset and counted (R292). -/
theorem recReset_resets {s : State} {i : Nat} (hen : s.bt (SW_ST_W0 i) 31 = true) (hrec : s.bt (SW_ST_W1 i) 13 = true)
    (htake : (smGet {} s.recs i).takeAny = false)
    (hage : (smGet {} s.recs i).at_ + s.fl (SW_ST_W2 i) 31 16 * 1000000 ≤ s.cycles) :
    recReset s i = State.satInc { s with recs := smSet {} s.recs i {} } (SW_ST_W7 i) 31 16 := by
  rw [recReset, if_pos (by simp [hen, hrec, htake, hage])]

end Sys2Proof.Machine

/-! SUPPORT. What a stretch of no cycles leaves (R45, R172, R244): a second look at what is due at an instant moves the sequencers'
fetches and the cells' widths, and nothing of the switch. -/

namespace Sys2Proof.Machine

/-! ## The relation -/

/-- The registers that neither a fetch of a sequencer nor a new width of a cell writes: of the blocks from the switch on those outside
shared memory and the sequencers, and at none of the offsets that these write in a cell or a sequencer. -/
def KeptReg (a : Nat) : Prop :=
  0x33000000 ≤ a ∧ (a < 0x34000000 ∨ 0x37000000 ≤ a) ∧ a % 0x100 ≠ 0x28 ∧ a % 0x100 ≠ 0x2C ∧ a % 0x100 ≠ 0x4C ∧ a % 0x100 ≠ 0x60

/-- `t` is `s` but for memory, the sequencers, the cells, the timebases, the error log, what leaves the part, the free values, and
registers that are not kept. -/
structure MoveSame (s t : State) : Prop where
  eq : t = { s with regs := t.regs, mem := t.mem, ecc := t.ecc, undef := t.undef, hxH := t.hxH, cellH := t.cellH, tbs := t.tbs,
                    elog := t.elog, out := t.out, msix := t.msix, freeCtr := t.freeCtr, upsets := t.upsets }
  rd : ∀ a, KeptReg a → t.rd a = s.rd a

namespace MoveSame

theorem refl (s : State) : MoveSame s s := ⟨rfl, fun _ _ => rfl⟩

theorem trans {s t u : State} (h : MoveSame s t) (k : MoveSame t u) : MoveSame s u :=
  ⟨by rw [k.eq, h.eq], fun a ha => (k.rd a ha).trans (h.rd a ha)⟩

theorem wr (s : State) {a : Nat} (v : Word) (h : ¬KeptReg a) : MoveSame s (s.wr a v) := by
  refine ⟨rfl, fun b hb => rd_wr_ne s v ?_⟩
  rintro rfl
  exact h hb

theorem setEcc (s : State) (a : Nat) (u : Upset) : MoveSame s (s.setEcc a u) := ⟨rfl, fun _ _ => rfl⟩
theorem setByte (s : State) (a : Nat) (b : Byte) : MoveSame s (s.setByte a b) := ⟨rfl, fun _ _ => rfl⟩
theorem define (s : State) (lo hi : Nat) : MoveSame s (s.define lo hi) := ⟨rfl, fun _ _ => rfl⟩
theorem free (s : State) : MoveSame s s.free.2 := ⟨rfl, fun _ _ => rfl⟩
theorem setHx (s : State) (n : Nat) (h : HxH) : MoveSame s (s.setHx n h) := ⟨rfl, fun _ _ => rfl⟩
theorem setCell (s : State) (c : Nat) (h : CellH) : MoveSame s (s.setCell c h) := ⟨rfl, fun _ _ => rfl⟩
theorem setTb (s : State) (n : Nat) (x : TB) : MoveSame s (s.setTb n x) := ⟨rfl, fun _ _ => rfl⟩

theorem setBytes (s : State) (a : Nat) (l : List Byte) : MoveSame s (s.setBytes a l) := by
  induction l generalizing s a with
  | nil => exact refl s
  | cons b l ih => exact (setByte s a b).trans (ih (s.setByte a b) (a + 1))

/-- The end of Huxon frames (R226). -/
theorem hxComplete (s : State) : MoveSame s (hxComplete s) := by
  have h := CloseSame.hxComplete s
  refine ⟨by rw [h.eq], fun a ha => h.rd a ?_⟩
  obtain ⟨hlo, hblk, -⟩ := ha
  simp only [closeTouches, MEM_FT_STAT, MEM_DG_IRQSTAT, Bool.or_eq_false_iff, Bool.and_eq_false_iff, decide_eq_false_iff_not,
    beq_eq_false_iff_ne]
  omega

/-! ## A read of a sequencer (R16, R124, R244, R312 to R319) -/

theorem logErr (s : State) (m a : Nat) (wr : Bool) (c : Nat) : MoveSame s (logErr s m a wr c) := by
  have h := LogSame.logErr s m a wr c
  refine ⟨by rw [h], fun b hb => rd_logErr s m a wr c ?_⟩
  obtain ⟨-, hblk, -⟩ := hb
  omega

theorem seenUpset (s : State) : MoveSame s (seenUpset s).1 := by
  unfold Machine.seenUpset
  split
  · exact ⟨rfl, fun _ _ => rfl⟩
  · exact free s

theorem settleWord (s : State) (w : Nat) : MoveSame s (s.settleWord w) := by
  unfold State.settleWord
  split
  · exact ((((free s).trans (free s.free.2)).trans (define _ w (w + 8))).trans
      (setBytes _ w (leBytes 4 s.free.1.toNat))).trans (setBytes _ (w + 4) (leBytes 4 s.free.2.free.1.toNat))
  · exact refl s

theorem rawRead (s : State) (a n : Nat) : MoveSame s (rawAcc s a n none).1 := settleWord s _

theorem localRead (s : State) (a n : Nat) (u : Upset) : MoveSame s (localAcc s a n none u).1 := by
  rw [localAcc, if_neg (by simp)]
  split
  · exact setEcc s a .double
  · exact (setEcc s a .good).trans (rawRead _ a n)

/-- The registers of an engine's scratchpads are not kept. -/
theorem not_kept_pe {e o : Nat} (he : e < 8) (ho : o < 0x100) : ¬KeptReg (0x100F0000 + e * 0x100000 + o) := by
  rintro ⟨hlo, -⟩
  omega

theorem scratchRead (s : State) {e : Nat} (he : e < 8) (a n : Nat) (u : Upset) : MoveSame s (scratchAcc s e a n none u).1 := by
  have h := localRead s a n u
  have hecc (t : State) (v : Word) : MoveSame t (t.wr (PE_ECC e) v) := wr t v (not_kept_pe he (by decide))
  have hirq (t : State) (v : Word) : MoveSame t (t.wr (PE_IRQSTAT e) v) := wr t v (not_kept_pe he (by decide))
  unfold Machine.scratchAcc
  split
  next heq => simpa only [heq] using h
  next heq => exact (by simpa only [heq] using h : MoveSame s _).trans ((hecc _ _).trans (hirq _ _))
  next heq => exact (by simpa only [heq] using h : MoveSame s _).trans ((hecc _ _).trans (hirq _ _))

/-- The registers of shared memory are not kept. -/
theorem not_kept_mem {a : Nat} (h : 0x34000000 ≤ a) (h' : a < 0x34010000) : ¬KeptReg a := by
  rintro ⟨-, hblk, -⟩
  omega

theorem memEccNote (s : State) {a : Nat} (ha : bankOf a < 32) (u : Upset) : MoveSame s (memEccNote s a u) := by
  have hecc (t : State) (v : Word) : MoveSame t (t.wr (MEM_ECC (bankOf a)) v) :=
    wr t v (not_kept_mem (by unfold MEM_ECC; omega) (by unfold MEM_ECC; omega))
  have hirq (t : State) (v : Word) : MoveSame t (t.wr MEM_IRQSTAT v) := wr t v (not_kept_mem (by decide) (by decide))
  cases u with
  | good => exact refl s
  | single => exact ((hecc _ _).trans (hirq _ _)).trans (setEcc _ _ _)
  | double =>
    unfold Machine.memEccNote
    dsimp only
    split
    · exact ((hecc _ _).trans (hirq _ _)).trans (setEcc _ _ _)
    · exact ((((hecc _ _).trans (hirq _ _)).trans (hecc _ _)).trans (hecc _ _)).trans (setEcc _ _ _)

theorem ownerViolation (s : State) (m : Nat) {a : Nat} (ha : bankOf a < 32) (w : Bool) : MoveSame s (ownerViolation s m a w) := by
  have hirq (t : State) (v : Word) : MoveSame t (t.wr MEM_IRQSTAT v) := wr t v (not_kept_mem (by decide) (by decide))
  unfold Machine.ownerViolation
  dsimp only
  split
  · exact hirq _ _
  · exact (wr _ _ (not_kept_mem (by unfold MEM_VIOL; omega) (by unfold MEM_VIOL; omega))).trans (hirq _ _)

theorem sharedRead (s : State) (m : Nat) {a : Nat} (ha : bankOf a < 32) (n : Nat) (u : Upset) :
    MoveSame s (sharedAcc s m a n none u).1 := by
  unfold Machine.sharedAcc
  split
  · exact ownerViolation s m ha _
  · rw [if_neg (by simp)]
    split
    · exact memEccNote s ha .double
    · exact (memEccNote s ha _).trans (rawRead _ a n)

/-- Shared memory has 32 banks (Table 1.3). -/
theorem bank_of_shared {a : Nat} (h : regionOf a = some .shared) : bankOf a < 32 := by
  simp only [regionOf, ite_eq_iff, Option.some.injEq, reduceCtorEq, and_false, and_true, false_or, or_false] at h
  unfold bankOf
  omega

theorem memRead (s : State) (m a n : Nat) : MoveSame s (memAcc s m a n none).1 := by
  unfold Machine.memAcc
  split
  · exact logErr s _ _ _ _
  · next r hr =>
    by_cases hadm : admits m r = false
    · rw [if_pos hadm]
      exact logErr s _ _ _ _
    · rw [if_neg hadm]
      by_cases hsh : r ≠ .shared
      · rw [if_pos hsh]
        exact logErr s _ _ _ _
      · have hbank : bankOf a < 32 := bank_of_shared (by rw [hr, not_not.1 hsh])
        have h := (seenUpset s).trans (sharedRead (Machine.seenUpset s).1 m hbank n (Machine.seenUpset s).2)
        rw [if_neg hsh, if_neg (by simp)]
        dsimp only
        generalize sharedAcc (Machine.seenUpset s).1 m a n none (Machine.seenUpset s).2 = r at h ⊢
        obtain ⟨t, v | c⟩ := r
        · exact h
        · exact h.trans (logErr t m a _ c)

theorem hxWord (s : State) (n a k : Nat) : MoveSame s (hxAcc s n a k none).1 := by
  have he : s.fl (HX_ENG n) 6 4 < 8 := fld_lt _ 6 4
  unfold Machine.hxAcc
  extract_lets e
  split_ifs
  · exact logErr s _ _ _ _
  · have h := (seenUpset s).trans (scratchRead (Machine.seenUpset s).1 he a k (Machine.seenUpset s).2)
    generalize hr : scratchAcc (Machine.seenUpset s).1 e a k none (Machine.seenUpset s).2 = r
    have h : MoveSame s r.1 := hr ▸ h
    obtain ⟨t, _ | v⟩ := r
    · exact h.trans (logErr t _ _ _ _)
    · exact h
  · exact memRead s _ _ _

/-- Accesses one after the other, up to the first that fails. -/
theorem foldl_acc {acc : State → Nat → Nat → State × Option Nat} (hacc : ∀ t b i, MoveSame t (acc t b i).1) (s : State)
    (cs : List (Nat × Nat)) (d : Option (List Byte)) : MoveSame s (cs.foldl (fun r c =>
      match r with
      | (s, none) => (s, none)
      | (s, some l) =>
        match acc s c.1 c.2 with
        | (s, none) => (s, none)
        | (s, some v) => (s, some (l ++ leBytes c.2 v))) (s, d)).1 := by
  refine List.foldlRecOn (motive := fun r : State × Option (List Byte) => MoveSame s r.1) _ _ (refl s) ?_
  rintro ⟨t, _ | l⟩ ht c _
  · exact ht
  · have h := ht.trans (hacc t c.1 c.2)
    dsimp only
    generalize acc t c.1 c.2 = r at h ⊢
    obtain ⟨u, _ | v⟩ := r
    · exact h
    · exact h

theorem hxRead (s : State) (n a k : Nat) : MoveSame s (hxRead s n a k).1 := by
  obtain ⟨acc, hacc⟩ : ∃ acc, acc = Machine.hxAcc := ⟨_, rfl⟩
  have hsame (t : State) (b i : Nat) : MoveSame t (acc t n b i none).1 := by
    rw [hacc]
    exact hxWord t n b i
  rw [Machine.hxRead, ← hacc]
  exact foldl_acc hsame s (chunks k a k) (some [])

/-! ## Fetches and drives (R78, R244) -/

/-- A read, and what follows it where it succeeds and where it fails. -/
theorem ofRead {s : State} {r : State × Option (List Byte)} {bad : State → State} {good : State → List Byte → State}
    (hb : ∀ t, MoveSame s t → MoveSame s (bad t)) (hg : ∀ t l, MoveSame s t → MoveSame s (good t l)) :
    MoveSame s r.1 → MoveSame s (match r with | (t, none) => bad t | (t, some l) => good t l) := by
  intro h
  obtain ⟨t, _ | l⟩ := r
  · exact hb t h
  · exact hg t l h

theorem hxIrq (s : State) (n : Nat) (v : Word) : MoveSame s (hxIrq s n v) := by
  refine wr s _ ?_
  rintro ⟨-, -, -, -, -, h⟩
  unfold HX_IRQSTAT at h
  omega

theorem hxFetch (s : State) (n j : Nat) : MoveSame s (hxFetch s n j) := by
  have hset (t : State) (p : HxPre) (h : MoveSame s t) : MoveSame s (t.setHx n { t.hx n with pre := some p }) :=
    h.trans (setHx t n _)
  have hbad (t : State) (h : MoveSame s t) :
      MoveSame s (Machine.hxIrq (t.setHx n { t.hx n with pre := some { slot := j } }) n 0x80) :=
    (hset t _ h).trans (hxIrq _ n _)
  have hread (t : State) (a k : Nat) (h : MoveSame s t) : MoveSame s (Machine.hxRead t n a k).1 := h.trans (hxRead t n a k)
  unfold Machine.hxFetch
  split
  · exact setHx s n _
  · extract_lets bad
    refine ofRead hbad (fun t l h => ?_) (hread _ _ _ (refl s))
    extract_lets e a master b
    split
    · exact hset t _ h
    · refine ofRead hbad (fun t2 ctl h2 => ?_) (hread _ _ _ h)
      exact ofRead hbad (fun t3 d h3 => hset t3 _ h3) (hread _ _ _ h2)

theorem hxFetchDue (s : State) (n : Nat) : MoveSame s (hxFetchDue s n) := by
  unfold Machine.hxFetchDue
  split_ifs
  · exact refl s
  · split
    · exact refl s
    · extract_lets from_ held
      split_ifs
      · exact refl s
      · exact hxFetch s n _

/-- A word of a cell's block at one of the offsets that a drive and a width write. -/
theorem not_kept_cell {c o : Nat} (ho : o = 0x28 ∨ o = 0x2C ∨ o = 0x4C) : ¬KeptReg (0x30000000 + c * 0x1000 + o) := by
  rintro ⟨-, -, h28, h2c, h4c, -⟩
  omega

theorem setDrive (s : State) (c : Nat) (pinB d oe : Bool) : MoveSame s (setDrive s c pinB d oe) :=
  (wr s _ (not_kept_cell (by decide))).trans (wr _ _ (not_kept_cell (by decide)))

theorem hxShow (s : State) (n : Nat) : MoveSame s (hxShow s n) := by
  unfold Machine.hxShow
  extract_lets d
  split
  · exact refl s
  · extract_lets u
    split_ifs
    · exact setDrive s _ _ _ _
    · exact (setDrive s _ _ _ _).trans (setDrive _ _ _ _ _)

theorem hxMove (s : State) : MoveSame s (hxMove s) :=
  List.foldlRecOn (motive := MoveSame s) _ _ (refl s) fun t h e _ =>
    h.trans ((hxFetchDue t e.1).trans (hxShow _ e.1))

/-! ## No time passes -/

theorem tickTbs (s : State) (n : Nat) (l : List Nat) : MoveSame s (tickTbs s n l) := by
  induction l generalizing s with
  | nil => exact refl s
  | cons t l ih => exact (setTb s t _).trans (ih _)

theorem tick_zero (s : State) : MoveSame s (tick s 0) := by
  unfold tick
  dsimp only
  split_ifs
  · exact tickTbs s 0 _
  · exact refl s

theorem widthSet (s : State) (c : Nat) : MoveSame s (widthSet s c) :=
  ((setCell s c _).trans (wr _ _ (not_kept_cell (by decide)))).trans (wr _ _ (not_kept_cell (by decide)))

theorem widthsDue (s : State) : MoveSame s (widthsDue s) := by
  refine List.foldlRecOn (motive := MoveSame s) _ _ (refl s) fun t h e _ => ?_
  split_ifs
  · exact h.trans (widthSet t e.1)
  · exact h

/-- Of a stretch of no cycles nothing is due at its end. -/
theorem passTo_zero (s : State) (fuel : Nat) : passTo s 0 fuel = tick s 0 := by
  cases fuel with
  | zero => rfl
  | succ fuel =>
    unfold passTo
    split
    · rfl
    · dsimp only
      rw [if_pos (Nat.zero_le _)]

/-- A stretch of no cycles. -/
theorem elapse_zero (s : State) : MoveSame s (elapse s 0) := by
  have hpass : MoveSame s (pass s 0) := by
    rw [pass, passTo_zero]
    exact (tick_zero s).trans (widthsDue _)
  exact (hpass.trans (hxComplete _)).trans (hxMove _)

end MoveSame

end Sys2Proof.Machine

/-! SUPPORT. The rows of the switch (O47). -/

namespace Sys2Proof.Machine

/-! ## What a stretch of no cycles leaves of the switch -/

section
variable {s t : State}

theorem MoveSame.ctxH (h : MoveSame s t) : t.ctxH = s.ctxH := by rw [h.eq]
theorem MoveSame.swq (h : MoveSame s t) : t.swq = s.swq := by rw [h.eq]
theorem MoveSame.fdb (h : MoveSame s t) : t.fdb = s.fdb := by rw [h.eq]

theorem MoveSame.bt (h : MoveSame s t) {a : Nat} (i : Nat) (ha : KeptReg a) : t.bt a i = s.bt a i := by
  rw [State.bt, h.rd a ha, State.bt]

theorem MoveSame.fl (h : MoveSame s t) {a : Nat} (hi lo : Nat) (ha : KeptReg a) : t.fl a hi lo = s.fl a hi lo := by
  rw [State.fl, h.rd a ha, State.fl]

theorem MoveSame.inReset (h : MoveSame s t) (k : Nat) : inReset t k = inReset s k := by
  refine inReset_congr ?_ ?_ ?_ ?_ ?_ (h.rd _ (by unfold KeptReg; decide)) (h.rd _ (by unfold KeptReg; decide))
    (h.rd _ (by unfold KeptReg; decide)) (h.rd _ (by unfold KeptReg; decide)) k
  all_goals rw [h.eq]

theorem MoveSame.swLive (h : MoveSame s t) : swLive t = swLive s := by
  rw [Machine.swLive, h.inReset, domOff, h.bt _ (by unfold KeptReg; decide), Machine.swLive, domOff]

/-- The registers of the switch's external ports are kept but the two at the offsets of a cell. -/
theorem keptReg_port {p o : Nat} (hp : p < 12) (ho : o = 0 ∨ o = 8 ∨ o = 0x88) : KeptReg (0x33010000 + o + p * 0x100) := by
  unfold KeptReg
  omega

theorem MoveSame.linkUp (h : MoveSame s t) {p : Nat} (hp : p < 12) : linkUp t p = linkUp s p := by
  rw [Machine.linkUp, h.bt (a := SW_P_LINK p) _ (keptReg_port hp (o := 8) (by decide)), Machine.linkUp]

theorem MoveSame.maxLen (h : MoveSame s t) {p : Nat} (hp : p < 12) : maxLen t p = maxLen s p :=
  h.fl _ _ (keptReg_port hp (o := 0) (by decide))

theorem MoveSame.fl_cnt2 (h : MoveSame s t) {p : Nat} (hp : p < 12) (hi lo : Nat) :
    t.fl (SW_P_CNT2 p) hi lo = s.fl (SW_P_CNT2 p) hi lo :=
  h.fl _ _ (keptReg_port hp (o := 0x88) (by decide))

end

/-! ## Rows -/

/-- A frame too short is counted, and passes no step (R284). -/
theorem frameForward_short {w : State} {p : Nat} {d : List Byte} (hlive : swLive w = true) (hup : linkUp w p = true)
    (hshort : d.length < 60) (hmax : d.length + 4 ≤ maxLen w p) (busy : Word) (tin : List Int) (sub : Nat) (e : EccSeen) :
    frameForward w p d .good busy tin sub e = w.satInc (SW_P_CNT2 p) 15 8 := by
  have hlong : ¬maxLen w p < d.length + 4 := Nat.not_lt.2 hmax
  rw [frameForward, if_neg (by simp [hlive, hup])]
  simp only [hlong, decide_false, Bool.false_eq_true, if_false]
  rw [if_pos (by omega)]

/-- The row of a frame too short, whose timestamp point is its end. -/
theorem exec_frameForward_short {s u : State} {dt : Nat} (hu : u = elapse s dt) (hs : noSteps u) (p : Fin 12) {d : List Byte}
    (hlive : swLive u = true) (hup : linkUp u p.val = true) (hshort : d.length < 60) (hmax : d.length + 4 ≤ maxLen u p.val)
    (busy : Word) (sub csub : Fin 8) (e : EccSeen) : ∃ t, exec (.frameForward p d .good busy dt sub 0 csub e) s = .next t ∧
      t.swq = u.swq ∧ t.fdb = u.fdb ∧
      t.fl (SW_P_CNT2 p.val) 15 8 = min (2 ^ 8 - 1) (u.fl (SW_P_CNT2 p.val) 15 8 + 1) := by
  have hrow := exec_frameForward hu rfl p d .good busy (rest := 0) sub csub e
  have h := MoveSame.elapse_zero u
  generalize elapse u 0 = w at h hrow
  rw [← h.swLive] at hlive
  rw [← h.linkUp p.isLt] at hup
  rw [← h.maxLen p.isLt] at hmax
  have hrun : runSteps (w.satInc (SW_P_CNT2 p.val) 15 8) = w.satInc (SW_P_CNT2 p.val) 15 8 := by
    refine runSteps_of_noSteps _ ?_
    rw [noSteps, State.satInc, State.setFl, State.wr_ctxH, h.ctxH]
    exact hs
  rw [frameForward_short hlive hup hshort hmax, hrun] at hrow
  refine ⟨_, hrow, ?_, ?_, ?_⟩
  · rw [close_swq, State.satInc, State.setFl, State.wr_swq, h.swq]
  · rw [close_fdb, State.satInc, State.setFl, State.wr_fdb, h.fdb]
  · rw [fl_close_timed _ _ _ (by unfold SW_P_CNT2; omega) (by unfold SW_P_CNT2; omega), fl_satInc_self _ _ _ _ (by decide) (by decide),
      h.fl_cnt2 p.isLt]

section
variable (s : State) (p : Fin 12)

/-- The row of a class's pause end (R299). -/
theorem exec_pfcPauseEnd (c : Fin 8) : (paused s p.val c.val = true → exec (.pfcPauseEnd p c) s = .next (close s)) ∧
    (paused s p.val c.val = false → ∃ t, exec (.pfcPauseEnd p c) s = .next t ∧ smGet 0 t.swPause (8 * p.val + c.val) = 0 ∧
      ∀ i, i ≠ 8 * p.val + c.val → smGet 0 t.swPause i = smGet 0 s.swPause i) := by
  have hrow : exec (.pfcPauseEnd p c) s = .next (close (pauseEnd s p.val c.val)) := rfl
  rw [hrow, pauseEnd]
  constructor
  · intro h
    rw [if_pos h]
  · intro h
    rw [if_neg (by simp [h])]
    refine ⟨_, rfl, ?_, fun i hi => ?_⟩
    · rw [close_swPause]
      exact smGet_smSet_self 0 s.swPause _ 0
    · rw [close_swPause]
      exact smGet_smSet_ne 0 0 s.swPause 0 hi

/-- The row of a received PFC frame (R299). -/
theorem exec_pfcFrameReceive (v : Word) (qs : List Nat) (hlive : swLive s = true) (hup : linkUp s p.val = true) :
    ∃ t, exec (.pfcFrameReceive p v qs) s = .next t ∧
      t.fl (SW_P_CNT4 p.val) 31 16 = min (2 ^ 16 - 1) (s.fl (SW_P_CNT4 p.val) 31 16 + 1) ∧
      ∀ c < 8, smGet 0 t.swPause (8 * p.val + c) = pauseAfter p.val v qs s c := by
  obtain ⟨hcnt, hpause⟩ := pfcReceive_pauses hlive hup v qs
  refine ⟨close (pfcReceive s p.val v qs), rfl, ?_, fun c hc => ?_⟩
  · rw [fl_close_timed _ _ _ (by unfold SW_P_CNT4; omega) (by unfold SW_P_CNT4; omega), hcnt]
  · rw [close_swPause, hpause c hc]

end

/-- The row of a late launch (R304). -/
theorem exec_launchTimeReached_busy {s u : State} {dt : Nat} (hu : u = elapse s dt) (hlive : swLive u = true) (q : Fin 96)
    {x : SwCopy} {r : List SwCopy} {n : Nat} (hq : swQueue u q.val = x :: r) (hlt : x.lt = some n)
    (hmode : u.fl (SW_Q_CFG q.val) 30 29 = 1) (hlate : x.late = false) (hn : n ≤ now0 u)
    (hkeep : u.bt (SW_Q_CFG q.val) 28 = false) : ∃ t, exec (.launchTimeReached q dt true) s = .next t ∧
      swQueue t q.val = { x with late := true } :: r ∧
      t.fl (SW_Q_LATE q.val) 31 16 = min (2 ^ 16 - 1) (u.fl (SW_Q_LATE q.val) 31 16 + 1) := by
  have hrow : exec (.launchTimeReached q dt true) s = .next (close (launchTime u q.val true)) := by
    rw [hu]
    rfl
  rw [launchTime_due hlive hq hlt hmode hlate hn, launchHead_busy hq hkeep] at hrow
  refine ⟨_, hrow, ?_, ?_⟩
  · rw [swQueue_close, swQueue_setSwQueue_self]
  · rw [fl_close_timed _ _ _ (by unfold SW_Q_LATE; omega) (by unfold SW_Q_LATE; omega), State.fl, rd_setSwQueue, ← State.fl,
      fl_satInc_self _ _ _ _ (by decide) (by decide)]

/-- The row of a duplicate table entry seen on LAN A only, once forgotten (R309). -/
theorem exec_prpForget_onlyA {s u : State} {dt : Nat} (hu : u = elapse s dt) (k : Fin 6) {e : PrpE} {r : List PrpE}
    (htab : prpTable u k.val = e :: r) (hage : e.at_ + u.fl (SW_PRP_CFG k.val) 15 0 * 1000000 ≤ u.cycles) (ha : e.a = true)
    (hb : e.b = false) : ∃ t, exec (.prpForget k dt) s = .next t ∧ prpTable t k.val = r ∧
      t.fl (SW_PRP_CNT1 k.val) 31 16 = min (2 ^ 16 - 1) (u.fl (SW_PRP_CNT1 k.val) 31 16 + 1) := by
  have hrow : exec (.prpForget k dt) s = .next (close (prpForget u k.val)) := by
    rw [hu]
    rfl
  rw [prpForget_onlyA htab hage ha hb] at hrow
  refine ⟨_, hrow, ?_, ?_⟩
  · rw [prpTable, close_prp, State.satInc, State.setFl, State.wr_prp]
    exact smGet_smSet_self [] u.prp _ r
  · rw [fl_close_timed _ _ _ (by unfold SW_PRP_CNT1; omega) (by unfold SW_PRP_CNT1; omega), fl_satInc_self _ _ _ _ (by decide) (by decide)]
    rfl

/-- The row of a stream's recovery reset (R292). -/
theorem exec_seqRecoveryReset {s : State} (i : Fin 1024) (hen : s.bt (SW_ST_W0 i.val) 31 = true)
    (hrec : s.bt (SW_ST_W1 i.val) 13 = true) (htake : (smGet {} s.recs i.val).takeAny = false)
    (hage : (smGet {} s.recs i.val).at_ + s.fl (SW_ST_W2 i.val) 31 16 * 1000000 ≤ s.cycles) :
    ∃ t, exec (.seqRecoveryReset i) s = .next t ∧ (smGet {} t.recs i.val).takeAny = true ∧
      t.fl (SW_ST_W7 i.val) 31 16 = min (2 ^ 16 - 1) (s.fl (SW_ST_W7 i.val) 31 16 + 1) := by
  have hrow : exec (.seqRecoveryReset i) s = .next (close (recReset s i.val)) := rfl
  rw [recReset_resets hen hrec htake hage] at hrow
  refine ⟨_, hrow, ?_, ?_⟩
  · rw [close_recs, State.satInc, State.setFl, State.wr_recs, smGet_smSet_self]
  · rw [fl_close_timed _ _ _ (by unfold SW_ST_W7; omega) (by unfold SW_ST_W7; omega), fl_satInc_self _ _ _ _ (by decide) (by decide)]
    rfl

/-- Settles O47: each row by the lemma on what its event does to the switch; the end of the row leaves the switch alone. -/
theorem switchFrames : Obligations.SwitchFrames := by
  unfold Obligations.SwitchFrames
  intro s p dt u hu hlive hup
  refine ⟨?_, ?_, ?_, ?_, ?_, exec_pfcPauseEnd s p, ?_, ?_, ?_, ?_, ?_, ?_⟩
  · intro d busy sub rest csub x y w w1 f hw hlive hup hmin hmax hdata hhash hon hprp hx hptp hy hf hs
    rw [hy, hx] at hf
    rw [hx] at hptp
    have hf' : forward (rxCounted w p.val) (receivedCopy (parseFrame d) (d.length + 4) p.val
        (((List.range 4).map fun t => ingressAt u p.val t sub.val).getD 0 0)) none = (w1, some f) := hf
    rw [exec_frameForward hu hw, frameForward_forwards p.isLt hlive hup hmin hmax hdata hhash hon hprp hptp hf',
      runSteps_of_noSteps _ hs]
  · intro d busy sub csub e hs hshort hmax
    exact exec_frameForward_short hu hs p hlive hup hshort hmax busy sub csub e
  · intro sub c x r hcal hc hq
    have hrow : exec (.frameTransmit p dt sub ⟨0, .good⟩) s = .next (close (transmitRow u p.val sub.val ⟨0, .good⟩)) := by
      rw [hu]
      rfl
    rw [hrow, transmitRow_sends p.isLt hcal hlive hup hc hq]
  · intro c q hqp hlive hheld hdue
    have hrow : exec (.pfcRefresh q c) s = .next (close (pfcRefresh s p.val c.val)) := by
      rw [← hqp]
      rfl
    rw [pfcRefresh_due p.isLt hlive hheld hdue] at hrow
    refine ⟨_, hrow, ?_⟩
    rw [fl_close_timed _ _ _ (by unfold SW_P_CNT4; omega) (by unfold SW_P_CNT4; omega), fl_sendPfc]
  · intro v qs hlive hup
    exact exec_pfcFrameReceive s p v qs hlive hup
  · intro q hq himg hlive hempty
    have hrow : exec (.privCopyResume q) s = .next (close (privResume s q.val)) := rfl
    rw [hrow, privResume_delivers hq q.isLt himg hlive hempty]
  · intro q x r n hqp hq hlt hmode hlate hn hlimit hhead hidle hopen hfits hpause
    have hrow : exec (.launchTimeReached q dt false) s = .next (close (launchTime u q.val false)) := by
      rw [hu]
      rfl
    rw [← hqp] at hup hlimit hidle hopen hfits hpause ⊢
    rw [hrow, launchTime_due hlive hq hlt hmode hlate hn,
      launchHead_inTime hq hidle hup hopen hfits hpause hlimit hhead]
  · intro q x r n hq hlt hmode hlate hn hkeep
    exact exec_launchTimeReached_busy hu hlive q hq hlt hmode hlate hn hkeep
  · intro r h bytes d len fl s1 s2 s3 w hlive himg hen htx hptr hd hread hlen hfl hmin hdst hheld hdata hflags hsend hw hs
    have hrow : exec (.txDescriptor r) s = .next (close (runSteps (txDescriptor s r.val))) := rfl
    rw [hrow, txDescriptor_taken hlive himg hen htx hptr hd hread hlen hfl hmin hdst hheld hdata hflags hsend, ← hw,
      runSteps_of_noSteps _ hs]
  · intro k e r htab hage ha hb
    exact exec_prpForget_onlyA hu k htab hage ha hb
  · intro i hen hrec htake hage
    exact exec_seqRecoveryReset i hen hrec htake hage

end Sys2Proof.Machine

/-! SUPPORT. The registers of the image store (R222): where they stand, the row of an access that the store accepts, and what each
register makes of a write. -/

namespace Sys2Proof.Machine

/-! ## What the end of a command leaves -/

/-- The end of a command touches no register below the cells. -/
theorem closeTouches_low {a : Nat} (h : a < 0x30000000) : closeTouches a = false := by
  simp only [closeTouches, MEM_FT_STAT, MEM_DG_IRQSTAT, Bool.or_eq_false_iff, Bool.and_eq_false_iff, decide_eq_false_iff_not,
    beq_eq_false_iff_ne]
  omega

theorem rd_answered_low (u : State) (r : Resp) {a : Nat} (h : a < 0x30000000) : (answered u r).rd a = u.rd a :=
  rd_answered u r (closeTouches_low h)

theorem bt_answered_low (u : State) (r : Resp) {a : Nat} (i : Nat) (h : a < 0x30000000) : (answered u r).bt a i = u.bt a i := by
  rw [State.bt, rd_answered_low u r h, ← State.bt]

theorem fl_answered_low (u : State) (r : Resp) {a : Nat} (hi lo : Nat) (h : a < 0x30000000) :
    (answered u r).fl a hi lo = u.fl a hi lo := by
  rw [State.fl, rd_answered_low u r h, ← State.fl]

@[simp] theorem answered_img (u : State) (r : Resp) : (answered u r).img = u.img := close_img _
@[simp] theorem answered_imgE (u : State) (r : Resp) : (answered u r).imgE = u.imgE := close_imgE _
@[simp] theorem answered_xpend (u : State) (r : Resp) : (answered u r).xpend = u.xpend := close_xpend _

@[simp] theorem pt_answered (u : State) (r : Resp) (p : Nat) : (answered u r).pt p = u.pt p := by
  simp only [State.pt, answered_img]

@[simp] theorem sub_answered (u : State) (r : Resp) (i : Nat) : (answered u r).sub i = u.sub i := by
  simp only [State.sub, answered, close_subs]

@[simp] theorem mapg_answered (u : State) (r : Resp) (i : Nat) : (answered u r).mapg i = u.mapg i := by
  simp only [State.mapg, answered, close_maps]

/-- A plain write of a register changes registers, and the notes of those that are written once. -/
theorem softWrite_eq (s : State) (a : Nat) (v : Word) : ∃ r d, s.softWrite a v = { s with regs := r, rwoDone := d } := by
  unfold State.softWrite
  split
  · exact ⟨s.regs, s.rwoDone, rfl⟩
  · dsimp only
    split_ifs
    · exact ⟨_, s.rwoDone, rfl⟩
    · exact ⟨_, _, rfl⟩

@[simp] theorem softWrite_img (s : State) (a : Nat) (v : Word) : (s.softWrite a v).img = s.img := by
  obtain ⟨r, d, h⟩ := softWrite_eq s a v
  rw [h]

@[simp] theorem softWrite_imgE (s : State) (a : Nat) (v : Word) : (s.softWrite a v).imgE = s.imgE := by
  obtain ⟨r, d, h⟩ := softWrite_eq s a v
  rw [h]

@[simp] theorem softWrite_xpend (s : State) (a : Nat) (v : Word) : (s.softWrite a v).xpend = s.xpend := by
  obtain ⟨r, d, h⟩ := softWrite_eq s a v
  rw [h]

/-! ## The rows -/

/-- A register of region `img` stands in the block of the image store. -/
theorem img_block {a : Nat} (h : regionOf a = some .img) : 0x24400000 ≤ a ∧ a < 0x24401000 := by
  simp only [regionOf, ite_eq_iff, Option.some.injEq, reduceCtorEq, and_false, and_true, false_or, or_false] at h
  omega

/-- Of the registers of the image store IRQROUTE alone is a route (Table 1.6). -/
theorem routeKind_img {a : Nat} (h : 0x24400000 ≤ a ∧ a < 0x24401000) (hr : a ≠ IMG_IRQROUTE) : routeKind a = none := by
  unfold IMG_IRQROUTE at hr
  unfold routeKind TU_IRQROUTE IMG_IRQROUTE LDR_IRQROUTE SW_IRQROUTE MEM_IRQROUTE MEM_DG_IRQROUTE ARB_IRQROUTE HB_IRQROUTE
    SLOT_IRQROUTE PMU_IRQROUTE AON_IRQROUTE
  simp (disch := omega) only [if_neg]

/-- The row of a write that the image store accepts: its effect, and the response. -/
theorem writeRow_img {s u : State} {m : Master} {a : Nat} {v : Word} (h : opens s m a .img) (hr : a ≠ IMG_IRQROUTE)
    (hw : imgWrite s m.val (a % 0x1000) v = (u, .ok 0)) (hctx : u.ctxH = s.ctxH) (hs : noSteps s) :
    writeRow s m a v = .next (answered u (.ok 0)) := by
  have hv : routed m a .img v = v := by simp [routed, routeKind_img (img_block h.2.1) hr]
  refine writeRow_accept h (.inl rfl) ?_ (by simpa only [noSteps, hctx] using hs)
  rw [hv, targetWrite_img, hw]

/-- The row of a read that the image store answers. -/
theorem readRow_img {s u : State} {m : Master} {a : Nat} {d : Word} (h : opens s m a .img)
    (hw : imgRead s m.val (a % 0x1000) = (u, .ok d)) (hctx : u.ctxH = s.ctxH) (hs : noSteps s) :
    readRow s m a = .next (answered u (.ok d)) := by
  have hblk := img_block h.2.1
  exact readRow_accept h (by simp (disch := omega) only [tableWord, if_neg]) hw (by simpa only [noSteps, hctx] using hs)

/-! ## What each register makes of a write -/

section
variable (s : State) (m : Nat) (v : Word)

theorem imgWrite_ctrl : imgWrite s m (IMG_CTRL % 0x1000) v = imgCtrl s v := by
  rw [imgWrite, if_pos (by decide)]
theorem imgWrite_pinCmd : imgWrite s m (IMG_PINCMD % 0x1000) v = imgPin s m (fld v 1 0) := rfl
theorem imgWrite_wput : imgWrite s m (IMG_WPUT % 0x1000) v = imgWput s m v := rfl
theorem imgWrite_ptw : imgWrite s m (IMG_PTW % 0x1000) v = ptWrite s (s.fl IMG_PTIDX 15 0) v := rfl
theorem imgWrite_sbw0 : imgWrite s m (IMG_SBW0 % 0x1000) v = subWrite s (s.fl IMG_SBIDX 7 0) v := rfl

theorem imgWrite_mapping (w1 : Bool) : imgWrite s m ((if w1 then IMG_MPW1 else IMG_MPW0) % 0x1000) v =
    mapWrite s (s.fl IMG_MPIDX 11 0) (if w1 then { s.mapg (s.fl IMG_MPIDX 11 0) with w1 := v }
      else { s.mapg (s.fl IMG_MPIDX 11 0) with w0 := v &&& 0x800000FF }) := by
  cases w1 <;> rfl

theorem imgWrite_xcfg {x : Nat} (h : x < 16) : imgWrite s m (IMG_XCFG x % 0x1000) v = xWrite s x 0 v := by
  have hoff : IMG_XCFG x % 0x1000 = 0x200 + x * 0x10 := by unfold IMG_XCFG; omega
  have hmine : imgMine (0x200 + x * 0x10) = false := by
    simp only [imgMine, Bool.or_eq_false_iff, Bool.and_eq_false_iff, decide_eq_false_iff_not, beq_eq_false_iff_ne]
    omega
  have hlock : imgLocked (0x200 + x * 0x10) = false := by
    simp only [imgLocked, Bool.or_eq_false_iff, Bool.and_eq_false_iff, decide_eq_false_iff_not, beq_eq_false_iff_ne]
    omega
  have hset : (0x200 + x * 0x10 - 0x200) / 0x10 = x := by omega
  have hreg : (0x200 + x * 0x10) % 0x10 = 0 := by omega
  simp (disch := omega) only [hoff, imgWrite, hmine, hlock, hset, hreg, Bool.false_eq_true, false_and, if_false, if_neg, if_pos]

end

theorem regDesc_imgCtrl : regDesc IMG_CTRL = some ⟨0xE0000000, 0, 0, 0, 0, 0⟩ := by decide

theorem regDesc_xcfg {x : Nat} (h : x < 16) : regDesc (IMG_XCFG x) = some ⟨0xF8FFF07F, 0, 0, 0, 0, 0x38000000⟩ := by
  have hblk : regDesc (IMG_XCFG x) = imgDesc (IMG_XCFG x - 0x24400000) := by
    simp (disch := omega) only [regDesc, IMG_XCFG, if_neg, if_pos]
  have hoff : IMG_XCFG x - 0x24400000 = 0x200 + x * 0x10 := by unfold IMG_XCFG; omega
  rw [hblk, hoff]
  simp (disch := omega) only [imgDesc, if_neg, if_pos]

end Sys2Proof.Machine

/-! SUPPORT. The points (R199, R205, R212): the slot that a view reads, the slot that a write takes, and the write of a table entry. -/

namespace Sys2Proof.Machine

/-! ## Points and slots -/

@[simp] theorem pt_setPt_self (s : State) (p : Nat) (x : ImgPt) : (s.setPt p x).pt p = x := by simp [State.pt, State.setPt]

theorem pt_setPt_ne (s : State) {p q : Nat} (x : ImgPt) (h : q ≠ p) : (s.setPt p x).pt q = s.pt q := by
  simp only [State.pt, State.setPt]
  exact smGet_smSet_ne _ _ _ _ h

@[simp] theorem slot_setSlot_self (x : ImgPt) (i : Nat) (c : ImgSlot) : (x.setSlot i c).slot i = c := by
  unfold ImgPt.setSlot ImgPt.slot
  split_ifs <;> rfl

theorem slot_setSlot_ne (x : ImgPt) {i j : Nat} (c : ImgSlot) (hi : i ∈ [0, 1, 2]) (hj : j ∈ [0, 1, 2]) (h : i ≠ j) :
    (x.setSlot j c).slot i = x.slot i := by
  have hbound : i < 3 ∧ j < 3 := by
    simp only [List.mem_cons, List.not_mem_nil, or_false] at hi hj
    omega
  unfold ImgPt.setSlot ImgPt.slot
  grind

/-! ## The slot that a view reads -/

/-- A used slot that an epoch covers. -/
def covers (x : ImgPt) (e i : Nat) : Bool := (x.slot i).used && decide ((x.slot i).tag ≤ e)

/-- One slot looked at in the choice of visible(e). -/
def visStep (x : ImgPt) (e : Nat) (best : Option Nat) (i : Nat) : Option Nat :=
  if covers x e i then
    match best with
    | none => some i
    | some b => if (x.slot b).tag < (x.slot i).tag then some i else best
  else best

theorem visible_eq_foldl (x : ImgPt) (e : Nat) : visible x e = [0, 1, 2].foldl (visStep x e) none := rfl

/-- The slot chosen covers the epoch. -/
theorem covers_of_visible {x : ImgPt} {e i : Nat} (h : visible x e = some i) : covers x e i = true := by
  have hfold : ∀ k, [0, 1, 2].foldl (visStep x e) none = some k → covers x e k = true := by
    refine List.foldlRecOn (motive := fun best => ∀ k, best = some k → covers x e k = true) _ _ (by simp) ?_
    intro best hbest i _ k hk
    unfold visStep at hk
    split_ifs at hk with hcov
    · split at hk
      · cases hk
        exact hcov
      · split_ifs at hk
        · cases hk
          exact hcov
        · exact hbest k hk
    · exact hbest k hk
  exact hfold i (visible_eq_foldl x e ▸ h)

/-- Where slot `j` of a point becomes one that the epoch does not cover, the choice so far is the same, or was slot `j` and has fallen
to none newer. -/
structure Hidden (x y : ImgPt) (j : Nat) (best best' : Option Nat) : Prop where
  slots : ∀ c, best' = some c → y.slot c = x.slot c
  choice : best' = best ∨ best = some j ∧ ∀ c, best' = some c → (x.slot c).tag ≤ (x.slot j).tag

/-- Slot `j` itself: it was chosen or not, and is not now. -/
theorem Hidden.step_self {x y : ImgPt} {e j : Nat} {best best' : Option Nat} (h : Hidden x y j best best')
    (hj : covers y e j = false) : Hidden x y j (visStep x e best j) (visStep y e best' j) := by
  obtain ⟨hslots, hchoice⟩ := h
  have hnew : visStep y e best' j = best' := by simp [visStep, hj]
  rw [hnew]
  refine ⟨hslots, ?_⟩
  cases hcov : covers x e j with
  | false => simpa [visStep, hcov] using hchoice
  | true =>
    rcases hchoice with rfl | ⟨rfl, hle⟩
    · cases best' with
      | none => exact .inr ⟨by simp [visStep, hcov], by simp⟩
      | some b =>
        by_cases hlt : (x.slot b).tag < (x.slot j).tag
        · refine .inr ⟨by simp [visStep, hcov, hlt], ?_⟩
          rintro c ⟨⟩
          exact hlt.le
        · exact .inl (by simp [visStep, hcov, hlt])
    · exact .inr ⟨by simp [visStep, hcov], hle⟩

/-- Another slot: it is chosen over slot `j` only if it is newer, and then over what slot `j` has fallen to as well. -/
theorem Hidden.step_other {x y : ImgPt} {e j : Nat} {best best' : Option Nat} (h : Hidden x y j best best') {i : Nat}
    (hi : y.slot i = x.slot i) : Hidden x y j (visStep x e best i) (visStep y e best' i) := by
  have hcov : covers y e i = covers x e i := by simp only [covers, hi]
  cases hc : covers x e i with
  | false => simpa [visStep, hcov, hc] using h
  | true =>
    obtain ⟨hslots, hchoice⟩ := h
    cases best' with
    | none =>
      have hnew : visStep y e none i = some i := by simp [visStep, hcov, hc]
      rw [hnew]
      refine ⟨by rintro c ⟨⟩; exact hi, ?_⟩
      rcases hchoice with rfl | ⟨rfl, -⟩
      · exact .inl (by simp [visStep, hc])
      · by_cases hlt : (x.slot j).tag < (x.slot i).tag
        · exact .inl (by simp [visStep, hc, hlt])
        · refine .inr ⟨by simp [visStep, hc, hlt], ?_⟩
          rintro c ⟨⟩
          exact Nat.not_lt.1 hlt
    | some b =>
      have hb := hslots b rfl
      have hnew : visStep y e (some b) i = if (x.slot b).tag < (x.slot i).tag then some i else some b := by
        simp [visStep, hcov, hc, hi, hb]
      rw [hnew]
      refine ⟨by split_ifs <;> (rintro c ⟨⟩; assumption), ?_⟩
      rcases hchoice with rfl | ⟨rfl, hle⟩
      · exact .inl (by simp [visStep, hc])
      · have hbj := hle b rfl
        by_cases hlt : (x.slot j).tag < (x.slot i).tag
        · exact .inl (by simp [visStep, hc, hlt, hbj.trans_lt hlt])
        · refine .inr ⟨by simp [visStep, hc, hlt], ?_⟩
          split_ifs
          · rintro c ⟨⟩
            exact Nat.not_lt.1 hlt
          · exact hle

/-- A slot that is not the one chosen can become one that the epoch does not cover: the choice stays (R205). -/
theorem visible_setSlot {x : ImgPt} {e j : Nat} {c : ImgSlot} (hj : j ∈ [0, 1, 2]) (hvis : visible x e ≠ some j)
    (hc : e < c.tag) : visible (x.setSlot j c) e = visible x e := by
  have hcov : covers (x.setSlot j c) e j = false := by simp [covers, Nat.not_le.2 hc]
  have hslots {i : Nat} (hi : i ∈ [0, 1, 2]) (h : i ≠ j) : (x.setSlot j c).slot i = x.slot i := slot_setSlot_ne x c hi hj h
  have hfold : ∀ (l : List Nat) (best best' : Option Nat), (∀ i ∈ l, i ∈ [0, 1, 2]) → Hidden x (x.setSlot j c) j best best' →
      Hidden x (x.setSlot j c) j (l.foldl (visStep x e) best) (l.foldl (visStep (x.setSlot j c) e) best') := by
    intro l
    induction l with
    | nil => exact fun _ _ _ h => h
    | cons i l ih =>
      intro best best' hl h
      refine ih _ _ (fun k hk => hl k (List.mem_cons_of_mem _ hk)) ?_
      by_cases hij : i = j
      · exact hij ▸ h.step_self (e := e) hcov
      · exact h.step_other (hslots (hl i List.mem_cons_self) hij)
  have hend := (hfold [0, 1, 2] none none (fun _ h => h) ⟨by simp, .inl rfl⟩).choice
  rw [← visible_eq_foldl, ← visible_eq_foldl] at hend
  exact hend.resolve_right fun h => hvis h.1

/-! ## The slot that a write takes -/

/-- Two slots at most are held, so one is free. -/
theorem free_slot (c q : Option Nat) : [0, 1, 2].filter (fun i => some i != c && some i != q) ≠ [] := by
  intro h
  simp only [List.filter_eq_nil_iff, List.mem_cons, List.not_mem_nil, or_false, forall_eq_or_imp, forall_eq, Bool.and_eq_true,
    bne_iff_ne, ne_eq, not_and, not_not] at h
  obtain ⟨h0, h1, h2⟩ := h
  by_cases hc0 : some 0 = c
  · have hq1 := h1 (by simp [← hc0])
    have hq2 := h2 (by simp [← hc0])
    exact absurd (hq1.trans hq2.symm) (by decide)
  · have hq0 := h0 hc0
    by_cases hc1 : some 1 = c
    · exact absurd (hq0.trans (h2 (by simp [← hc1])).symm) (by decide)
    · exact absurd (hq0.trans (h1 hc1).symm) (by decide)

/-- The oldest of some slots is one of them. -/
theorem foldl_oldest_mem (x : ImgPt) {l : List Nat} (h : l ≠ []) :
    l.foldl (fun best i => if slotAge (x.slot i) < slotAge (x.slot best) then i else best) (l.headD 0) ∈ l := by
  refine List.foldlRecOn (motive := (· ∈ l)) _ _ ?_ ?_
  · cases l with
    | nil => exact absurd rfl h
    | cons a l => exact List.mem_cons_self
  · intro best hbest i hi
    split_ifs
    · exact hi
    · exact hbest

/-- A write takes one of the three slots, and never the one that the current view reads (R205). -/
theorem writeSlot_spec (s : State) (x : ImgPt) : writeSlot s x ∈ [0, 1, 2] ∧ visible x s.imgE ≠ some (writeSlot s x) := by
  unfold writeSlot
  dsimp only
  split
  · next i hfind =>
    have htag := List.find?_some hfind
    refine ⟨List.mem_of_find?_eq_some hfind, fun hvis => ?_⟩
    have hcov := covers_of_visible hvis
    simp only [Bool.and_eq_true, beq_iff_eq, covers, decide_eq_true_eq] at htag hcov
    omega
  · have hmem := foldl_oldest_mem x (free_slot (visible x s.imgE) (if pinHeld s then visible x (pinQ s) else none))
    obtain ⟨hslot, hfree⟩ := List.mem_filter.1 hmem
    simp only [Bool.and_eq_true, bne_iff_ne, ne_eq] at hfree
    exact ⟨hslot, fun h => hfree.1 h.symm⟩

/-! ## The point table (R199) -/

/-- A point newly defined: slot 0 holds the initial value, the others are unused. -/
def freshPoint (v : Word) : ImgPt := { entry := v, s0 := ⟨true, 0, List.replicate (ptSize v) 0, 0x80, 0, 0, 0⟩ }

/-- A write that gives a point another size, class or writer, and passes the checks, defines it anew. -/
theorem ptWrite_fresh {s : State} {p : Nat} {v : Word} (hcen : s.bt IMG_CTRL 31 = false) (h7 : bitAt v 7 = false)
    (hbad : ptBadWord v = false) (hsize : ptSize v ≠ 0) (hclass : ptClass v ≠ 6) (hnew : fld v 15 0 ≠ fld (s.pt p).entry 15 0)
    (hmap : inMapping s p = false) (hexp : inExport s p = false ∨ ptClass v ≠ 3)
    (hcost : imgCost (s.setPt p (freshPoint v)).img ≤ 4194304) : ptWrite s p v = (s.setPt p (freshPoint v), .ok 0) := by
  have hv : v &&& 0xFFFFFF7F = v := by
    rw [bitAt_eq_getLsbD] at h7
    refine BitVec.eq_of_getLsbD_eq fun i hi => ?_
    rw [BitVec.getLsbD_and]
    by_cases hi7 : i = 7
    · rw [hi7, h7, Bool.false_and]
    · interval_cases i <;> simp_all
  have hexport : ¬(inExport s p = true ∧ exportable v = false) := by
    rintro ⟨hin, hno⟩
    rcases hexp with h | h
    · exact absurd hin (by simp [h])
    · simp [exportable, hsize, h] at hno
  have hfresh : ({ entry := v, s0 := { used := true, data := List.replicate (ptSize v) 0, qual := 0x80 } } : ImgPt) = freshPoint v :=
    rfl
  simp only [ptWrite, hv, hsize, hnew, if_false, hfresh, hcen, hbad, Nat.not_lt.2 hcost, hclass, hexport, hmap, and_false,
    false_and, or_self, Bool.false_eq_true]

/-! ## A point write by an engine (R209, R212) -/

/-- The writer of a class-1 point: an engine, whose WID it is. -/
theorem imgPut_engine {s : State} {m p : Nat} {data : List Byte} {q ns sec sub : Nat} (hsize : ptSize (s.pt p).entry ≠ 0)
    (hclass : ptClass (s.pt p).entry = 1) (hm : m = 1 + ptWid (s.pt p).entry % 8) :
    imgPut s m none p data none q ns sec sub =
      (pointWrite s p (data.take (ptSize (s.pt p).entry)) (localQual s q) ns sec sub, true) := by
  have hboot : m ≠ 16 := by omega
  have hwriter : writerOf s m none (s.pt p).entry = true := by simp [writerOf, hclass, hm]
  simp [imgPut, hsize, hboot, hwriter, hclass]

/-- The quality that a local write of QUAL from IMG_WPUT stores (R212). -/
theorem localQual_wput (s : State) (v : Word) :
    localQual s (fld v 31 16) = fld v 31 28 * 2 ^ 12 + (s.bt IMG_CTRL 30).toNat * 64 + fld v 19 16 := by
  have huser : fld v 31 16 / 4096 % 16 = fld v 31 28 := by simp only [fld]; omega
  have hlow : fld v 31 16 % 16 = fld v 19 16 := by simp only [fld]; omega
  simp only [localQual, huser, hlow, Nat.reducePow]

/-- A point write sets the slot that it takes, and the current view reads what it read (R205). -/
theorem pointWrite_spec (s : State) (p : Nat) (data : List Byte) (q ns sec sub : Nat) :
    ((pointWrite s p data q ns sec sub).pt p).slot (writeSlot s (s.pt p)) =
        ⟨true, s.imgE + 1, data, q, ns, sec % 2 ^ 48, sub⟩ ∧
      visible ((pointWrite s p data q ns sec sub).pt p) s.imgE = visible (s.pt p) s.imgE := by
  obtain ⟨hslot, hvis⟩ := writeSlot_spec s (s.pt p)
  rw [pointWrite, pt_setPt_self]
  exact ⟨slot_setSlot_self _ _ _, visible_setSlot hslot hvis (Nat.lt_succ_self _)⟩

end Sys2Proof.Machine

/-! SUPPORT. Commits (R202, R203): the trigger entries of the store armed, and CEN set and cleared. -/

namespace Sys2Proof.Machine

/-! ## A trigger entry of the store (R202) -/

/-- Arming an entry changes CTRL, the time and the period of the entry. -/
theorem rd_armTrigger (s : State) {i a : Nat} (time kind : Nat) (h : a < TU_TRG_CTRL i ∨ TU_TRG_PERHI i < a) :
    (armTrigger s i time kind).rd a = s.rd a := by
  unfold TU_TRG_CTRL TU_TRG_PERHI at h
  rw [armTrigger, rd_wr_ne _ _ (by unfold TU_TRG_CTRL; omega), rd_setFl_ne _ _ _ _ (by unfold TU_TRG_PERHI; omega),
    rd_wr_ne _ _ (by unfold TU_TRG_PERLO; omega), rd_setTrgTime _ _ (by unfold TU_TRG_NS TU_TRG_SECHI; omega)]

/-- The registers below the trigger entries stay, the parameters of the store among them. -/
theorem rd_armTrigger_low (s : State) (i time kind : Nat) {a : Nat} (h : a < 0x32010000) :
    (armTrigger s i time kind).rd a = s.rd a :=
  rd_armTrigger s time kind (.inl (by unfold TU_TRG_CTRL; omega))

theorem imgP_armTrigger (s : State) (i time kind : Nat) : imgP (armTrigger s i time kind) = imgP s := by
  simp only [imgP, State.fl]
  rw [rd_armTrigger_low _ _ _ _ (by decide), rd_armTrigger_low _ _ _ _ (by decide)]

theorem armTrigger_ctxH (s : State) (i time kind : Nat) : (armTrigger s i time kind).ctxH = s.ctxH := by
  simp only [armTrigger, setTrgTime, State.setFl, State.wr_ctxH]

/-- Entry `i` is enabled and periodic at a period and a time, with KIND and TB0. -/
structure Armed (t : State) (i time kind per : Nat) : Prop where
  on : trgOn t i = true
  per : trgPer t i = per
  ctrl : t.fl (TU_TRG_CTRL i) 30 24 = 0x40 + kind
  time : trgTime t i = time % (2 ^ 48 * 10 ^ 9)

/-- The registers of the entry decide whether it is armed. -/
theorem Armed.congr {t u : State} {i time kind per : Nat} (h : Armed t i time kind per)
    (hrd : ∀ a, TU_TRG_CTRL i ≤ a → a ≤ TU_TRG_PERHI i → u.rd a = t.rd a) : Armed u i time kind per := by
  obtain ⟨hon, hper, hctrl, htime⟩ := h
  have hc := hrd (TU_TRG_CTRL i) le_rfl (by unfold TU_TRG_CTRL TU_TRG_PERHI; omega)
  refine ⟨?_, ?_, ?_, ?_⟩
  · rw [trgOn, State.bt, hc, ← State.bt, ← trgOn]
    exact hon
  · have hp : trgPer u i = trgPer t i := trgPer_congr fun a ha ha' => hrd a (by unfold TU_TRG_PERLO at ha; unfold TU_TRG_CTRL; omega) ha'
    exact hp.trans hper
  · rw [State.fl, hc, ← State.fl]
    exact hctrl
  · have ht : trgTime u i = trgTime t i := trgTime_congr fun a ha ha' => by
      unfold TU_TRG_NS at ha
      unfold TU_TRG_SECHI at ha'
      exact hrd a (by unfold TU_TRG_CTRL; omega) (by unfold TU_TRG_PERHI; omega)
    exact ht.trans htime

theorem armed_armTrigger (s : State) (i time : Nat) {kind : Nat} (hk : kind < 16) (hP : imgP s < 2 ^ 36) :
    Armed (armTrigger s i time kind) i time kind (imgP s) := by
  have hlo : TU_TRG_PERLO i ≠ TU_TRG_CTRL i ∧ TU_TRG_PERLO i ≠ TU_TRG_PERHI i := by
    unfold TU_TRG_PERLO TU_TRG_CTRL TU_TRG_PERHI; omega
  have hhi : TU_TRG_PERHI i ≠ TU_TRG_CTRL i := by unfold TU_TRG_PERHI TU_TRG_CTRL; omega
  have hctrl : (armTrigger s i time kind).rd (TU_TRG_CTRL i) = BitVec.ofNat 32 (0xC0000000 + kind * 2 ^ 24) := rd_wr_self _ _ _
  have hword : (BitVec.ofNat 32 (0xC0000000 + kind * 2 ^ 24)).toNat = 0xC0000000 + kind * 2 ^ 24 := by
    rw [BitVec.toNat_ofNat]; omega
  refine ⟨?_, ?_, ?_, ?_⟩
  · rw [trgOn, State.bt, hctrl, bitAt, hword, beq_iff_eq]
    omega
  · have hrlo : ((armTrigger s i time kind).rd (TU_TRG_PERLO i)).toNat = imgP s % 2 ^ 32 := by
      rw [armTrigger, rd_wr_ne _ _ hlo.1, rd_setFl_ne _ _ _ _ hlo.2, rd_wr_self, BitVec.toNat_ofNat]
    have hrhi : (armTrigger s i time kind).fl (TU_TRG_PERHI i) 3 0 = imgP s / 2 ^ 32 % 2 ^ 4 := by
      rw [armTrigger, State.fl, rd_wr_ne _ _ hhi]
      exact fl_setFl_self _ _ _ _ _ (by decide) (by decide)
    rw [trgPer, hrlo, hrhi]
    omega
  · rw [State.fl, hctrl, fld, hword]
    omega
  · rw [← trgTime_setTrgTime s i time]
    refine trgTime_congr fun a ha ha' => ?_
    unfold TU_TRG_NS at ha
    unfold TU_TRG_SECHI at ha'
    rw [armTrigger, rd_wr_ne _ _ (by unfold TU_TRG_CTRL; omega), rd_setFl_ne _ _ _ _ (by unfold TU_TRG_PERHI; omega),
      rd_wr_ne _ _ (by unfold TU_TRG_PERLO; omega)]

/-! ## COMMIT_ENABLE (R202) -/

/-- The sample entry armed, then the commit entry. -/
def storeArmed (s : State) : State :=
  armTrigger (armTrigger s (s.fl IMG_TRIG 9 0) (commitAt s (imgK0 s) - imgL s) 4) (s.fl IMG_TRIG 25 16) (commitAt s (imgK0 s)) 5

/-- The epoch set, and what was due for the epoch before it dropped: the miss check and the export frames. -/
def epochSet (s : State) (epoch : Nat) : State := { s with imgE := epoch, missDue := false, xpend := [] }

@[simp] theorem rd_epochSet (s : State) (epoch a : Nat) : (epochSet s epoch).rd a = s.rd a := rfl
@[simp] theorem epochSet_xpend (s : State) (epoch : Nat) : (epochSet s epoch).xpend = [] := rfl
@[simp] theorem epochSet_imgE (s : State) (epoch : Nat) : (epochSet s epoch).imgE = epoch := rfl
@[simp] theorem epochSet_img (s : State) (epoch : Nat) : (epochSet s epoch).img = s.img := rfl
@[simp] theorem epochSet_ctxH (s : State) (epoch : Nat) : (epochSet s epoch).ctxH = s.ctxH := rfl

/-- Commits enabled by a write of IMG_CTRL. -/
def commitsOn (s : State) (v : Word) : State :=
  epochSet (((storeArmed s).softWrite IMG_CTRL v).setBt TU_STATUS 0 true) (imgK0 s - 1)

/-- The period fits in a trigger entry where R200 admits it. -/
theorem imgP_lt_of_paramsOk {s : State} (h : imgParamsOk s = true) : imgP s < 2 ^ 36 := by
  simp only [imgParamsOk, Bool.and_eq_true, decide_eq_true_eq] at h
  omega

/-- An enable that R202 does not refuse. -/
theorem imgCtrl_enable {s : State} {v : Word} (hv : bitAt v 31 = true) (hcen : s.bt IMG_CTRL 31 = false)
    (hok : imgParamsOk s = true) (hE : s.imgE ≤ imgK0 s - 1) (hk0 : imgK0 s < 2 ^ 48)
    (hne : s.fl IMG_TRIG 9 0 ≠ s.fl IMG_TRIG 25 16) (ha : trgOn s (s.fl IMG_TRIG 9 0) = false)
    (hb : trgOn s (s.fl IMG_TRIG 25 16) = false) : imgCtrl s v = (commitsOn s v, .ok 0) := by
  have haccept : ¬(imgParamsOk s = false ∨ imgK0 s - 1 < s.imgE ∨ 2 ^ 48 ≤ imgK0 s ∨ s.fl IMG_TRIG 9 0 = s.fl IMG_TRIG 25 16 ∨
      trgOn s (s.fl IMG_TRIG 9 0) = true ∨ trgOn s (s.fl IMG_TRIG 25 16) = true) := by
    simpa [hok, hne, ha, hb, hE] using hk0
  rw [imgCtrl, if_pos ⟨hv, hcen⟩, commitEnable, if_neg haccept]
  rfl

/-- Both entries of the store are armed, with the period of the store. -/
theorem armed_storeArmed {s : State} (hok : imgParamsOk s = true) (hne : s.fl IMG_TRIG 9 0 ≠ s.fl IMG_TRIG 25 16) :
    Armed (storeArmed s) (s.fl IMG_TRIG 9 0) (commitAt s (imgK0 s) - imgL s) 4 (imgP s) ∧
      Armed (storeArmed s) (s.fl IMG_TRIG 25 16) (commitAt s (imgK0 s)) 5 (imgP s) := by
  have hP := imgP_lt_of_paramsOk hok
  rw [storeArmed]
  generalize hsample : armTrigger s (s.fl IMG_TRIG 9 0) (commitAt s (imgK0 s) - imgL s) 4 = u
  have hu : Armed u (s.fl IMG_TRIG 9 0) (commitAt s (imgK0 s) - imgL s) 4 (imgP s) :=
    hsample ▸ armed_armTrigger s _ _ (by decide) hP
  have hkeep : imgP u = imgP s := hsample ▸ imgP_armTrigger s _ _ _
  have hcommit := armed_armTrigger u (s.fl IMG_TRIG 25 16) (commitAt s (imgK0 s)) (kind := 5) (by decide) (by rwa [hkeep])
  rw [hkeep] at hcommit
  refine ⟨hu.congr fun a hlo hhi => rd_armTrigger _ _ _ ?_, hcommit⟩
  unfold TU_TRG_CTRL at hlo ⊢
  unfold TU_TRG_PERHI at hhi ⊢
  omega

/-- Registers of the trigger entries after the enable. -/
theorem rd_commitsOn_trg (s : State) (v : Word) {a : Nat} (h : 0x32010000 ≤ a) : (commitsOn s v).rd a = (storeArmed s).rd a := by
  rw [commitsOn, rd_epochSet, rd_setBt_ne _ _ _ (by unfold TU_STATUS; omega), rd_softWrite_ne _ _ (by unfold IMG_CTRL; omega)]

theorem bt_commitsOn_cen (s : State) (v : Word) : (commitsOn s v).bt IMG_CTRL 31 = bitAt v 31 := by
  rw [commitsOn, State.bt, rd_epochSet, rd_setBt_ne _ _ _ (by decide)]
  exact bt_softWrite_self _ regDesc_imgCtrl (by decide) (by decide) v

theorem bt_commitsOn_tb0lock (s : State) (v : Word) : (commitsOn s v).bt TU_STATUS 0 = true := by
  rw [commitsOn, State.bt, rd_epochSet]
  exact bt_setBt_self _ _ _ _ (by decide)

theorem commitsOn_ctxH (s : State) (v : Word) : (commitsOn s v).ctxH = s.ctxH := by
  rw [commitsOn, epochSet_ctxH, State.setBt, State.wr_ctxH, softWrite_ctxH, storeArmed, armTrigger_ctxH, armTrigger_ctxH]

/-! ## COMMIT_DISABLE (R203) -/

/-- The two entries of the store as CEN clears. -/
def storeDisarmed (s : State) : State :=
  (s.setBt (TU_TRG_CTRL (s.fl IMG_TRIG 9 0)) 31 false).setBt (TU_TRG_CTRL (s.fl IMG_TRIG 25 16)) 31 false

/-- TB0LOCK and CEN clear with them. -/
def storeStopped (s : State) : State := ((storeDisarmed s).setBt TU_STATUS 0 false).setBt IMG_CTRL 31 false

/-- Commits disabled by a write of IMG_CTRL. -/
def commitsOff (s : State) (v : Word) : State := (epochSet (storeStopped s) (storeStopped s).imgE).softWrite IMG_CTRL v

theorem commitDisable_eq (s : State) : commitDisable s = epochSet (storeStopped s) (storeStopped s).imgE := rfl

theorem imgCtrl_disable {s : State} {v : Word} (hv : bitAt v 31 = false) (hcen : s.bt IMG_CTRL 31 = true) :
    imgCtrl s v = (commitsOff s v, .ok 0) := by
  rw [imgCtrl, if_neg (by simp [hv]), if_pos ⟨hcen, hv⟩, commitDisable_eq, commitsOff]

/-- Clearing EN of one entry leaves off an entry that is off. -/
theorem trgOn_setBt_off {s : State} {i j : Nat} (h : i = j ∨ trgOn s i = false) :
    trgOn (s.setBt (TU_TRG_CTRL j) 31 false) i = false := by
  by_cases hij : i = j
  · exact hij ▸ bt_setBt_self s _ 31 false (by decide)
  · rw [trgOn, State.bt, rd_setBt_ne _ _ _ (by unfold TU_TRG_CTRL; omega)]
    exact h.resolve_left hij

theorem trgOn_storeDisarmed (s : State) : trgOn (storeDisarmed s) (s.fl IMG_TRIG 9 0) = false ∧
    trgOn (storeDisarmed s) (s.fl IMG_TRIG 25 16) = false :=
  ⟨trgOn_setBt_off (.inr (trgOn_setBt_off (.inl rfl))), trgOn_setBt_off (.inl rfl)⟩

/-- Registers of the time unit after the disable. -/
theorem rd_commitsOff_tu (s : State) (v : Word) {a : Nat} (h : 0x32000000 ≤ a) :
    (commitsOff s v).rd a = ((storeDisarmed s).setBt TU_STATUS 0 false).rd a := by
  rw [commitsOff, rd_softWrite_ne _ _ (by unfold IMG_CTRL; omega), rd_epochSet, storeStopped, rd_setBt_ne _ _ _ (by unfold IMG_CTRL; omega)]

theorem bt_commitsOff_cen (s : State) (v : Word) : (commitsOff s v).bt IMG_CTRL 31 = bitAt v 31 :=
  bt_softWrite_self _ regDesc_imgCtrl (by decide) (by decide) v

/-- What the disable leaves, and the export frames that it abandons. -/
theorem commitsOff_fields (s : State) (v : Word) : (commitsOff s v).xpend = [] ∧ (commitsOff s v).imgE = s.imgE ∧
    (commitsOff s v).img = s.img ∧ (commitsOff s v).ctxH = s.ctxH := by
  rw [commitsOff, softWrite_xpend, softWrite_imgE, softWrite_img, softWrite_ctxH, epochSet_xpend, epochSet_imgE, epochSet_img,
    epochSet_ctxH, storeStopped, storeDisarmed]
  simp only [State.setBt, State.wr_imgE, State.wr_img, State.wr_ctxH, and_self]

end Sys2Proof.Machine

/-! SUPPORT. The rows of the image store (O42): the point table, CEN, the pin (R207), the window and IMG_WPUT (R213), the epoch (R222). -/

namespace Sys2Proof.Machine

/-! ## The pin (R207) -/

/-- The pin held by master `m` at the present epoch. -/
def pinned (s : State) (m : Nat) : State :=
  (((s.setBt IMG_PINSTAT 31 true).setFl IMG_PINSTAT 20 16 m).wr IMG_PINEP_LO (BitVec.ofNat 32 s.imgE)).wr IMG_PINEP_HI
    (BitVec.ofNat 32 (s.imgE / 2 ^ 32))

/-- The pin released. -/
def unpinned (s : State) : State := (s.setBt IMG_PINSTAT 31 false).setFl IMG_PINSTAT 20 16 0

theorem imgWrite_pin (s : State) (m : Nat) : imgWrite s m (IMG_PINCMD % 0x1000) 1 = imgPin s m 1 := by
  have hop : fld 1 1 0 = 1 := by decide
  rw [imgWrite_pinCmd, hop]

theorem imgWrite_unpin (s : State) (m : Nat) : imgWrite s m (IMG_PINCMD % 0x1000) 2 = imgPin s m 2 := by
  have hop : fld 2 1 0 = 2 := by decide
  rw [imgWrite_pinCmd, hop]

theorem imgPin_pin {s : State} (h : pinHeld s = false) (m : Nat) : imgPin s m 1 = (pinned s m, .ok 0) := by
  simp only [imgPin, h, pinned, State.setBt, State.setFl, State.wr_imgE, Bool.false_eq_true, if_false, if_true, one_ne_zero]

theorem imgPin_unpin {s : State} {m : Nat} (h : pinHeld s = true) (hm : s.fl IMG_PINSTAT 20 16 = m) :
    imgPin s m 2 = (unpinned s, .ok 0) := by
  rw [imgPin, if_neg (by decide), if_neg (by decide), if_pos ⟨rfl, h, hm⟩]
  rfl

theorem pinned_ctxH (s : State) (m : Nat) : (pinned s m).ctxH = s.ctxH := by
  simp only [pinned, State.setBt, State.setFl, State.wr_ctxH]

theorem unpinned_ctxH (s : State) : (unpinned s).ctxH = s.ctxH := by simp only [unpinned, State.setBt, State.setFl, State.wr_ctxH]

/-- PINSTAT of the pin held: HELD and OWNER. -/
theorem pinStat_pinned (s : State) (m : Nat) : (pinned s m).rd IMG_PINSTAT = setFld (putBit (s.rd IMG_PINSTAT) 31 true) 20 16 m := by
  rw [pinned, rd_wr_ne _ _ (by decide), rd_wr_ne _ _ (by decide), rd_setFl_self, rd_setBt_self]

/-- Q is the epoch of the PIN command. -/
theorem pinQ_pinned (s : State) (m : Nat) : pinQ (pinned s m) = s.imgE % 2 ^ 64 := by
  have hlo : (pinned s m).rd IMG_PINEP_LO = BitVec.ofNat 32 s.imgE := by rw [pinned, rd_wr_ne _ _ (by decide), rd_wr_self]
  have hhi : (pinned s m).rd IMG_PINEP_HI = BitVec.ofNat 32 (s.imgE / 2 ^ 32) := rd_wr_self _ _ _
  rw [pinQ, hlo, hhi, BitVec.toNat_ofNat, BitVec.toNat_ofNat]
  omega

/-! ## The window (R213) -/

/-- What a window read loads for its master from a slot with its reported quality. -/
def windowLoaded (s : State) (m : Nat) (c : ImgSlot) (q : Nat) : State :=
  (((s.mwr m IMG_RQUAL (BitVec.ofNat 32 q)).mwr m IMG_RTS_NS (BitVec.ofNat 32 (c.ns % 2 ^ 30))).mwr m IMG_RTS_SEC
    (BitVec.ofNat 32 (c.sec % 2 ^ 16 * 2 ^ 16 + c.sub))).mwr m IMG_RTAG (BitVec.ofNat 32 c.tag)

/-- The word that a window read of `n` bytes at byte `b` of a slot returns. -/
def windowWord (c : ImgSlot) (b n : Nat) : Word := BitVec.ofNat 32 (leNat ((List.range n).map (fun i => slotByte c (b + i))))

theorem imgWindowRead_ok {s : State} {m o : Nat} {c : ImgSlot} {q : Nat}
    (h : pointRead s (o / 64) (bitAt (s.mrd m IMG_VIEW) 0) = some (c, q)) (n : Nat) :
    imgWindowRead s m o n = (windowLoaded s m c q, .ok (windowWord c (o % 64) n)) := by
  rw [imgWindowRead, h]
  rfl

/-- An aligned read of the window by a master that it admits. -/
theorem busAcc_window {s : State} {m o : Nat} {sz : Size} {c : ImgSlot} {q : Nat} (ho : o < 0x400000) (hi : canIssue s m = true)
    (ha : admits m .imgWin = true) (hs : shut s m .imgWin = false) (hz : o % sz.bytes = 0)
    (h : pointRead s (o / 64) (bitAt (s.mrd m IMG_VIEW) 0) = some (c, q)) :
    busAcc s m (0x24000000 + o) sz .rd .good = (windowLoaded s m c q, .ok (windowWord c (o % 64) sz.bytes)) := by
  have hreg : regionOf (0x24000000 + o) = some .imgWin := by simp (disch := omega) only [regionOf, if_neg, if_pos]
  have halign : (0x24000000 + o) / sz.bytes * sz.bytes = 0x24000000 + o := by cases sz <;> simp only [Size.bytes] at hz ⊢ <;> omega
  have hoff : 0x24000000 + o - 0x24000000 = o := by omega
  have htarget : targetMem s m (0x24000000 + o) sz.bytes .imgWin (accVal sz.bytes .rd) .good none =
      (windowLoaded s m c q, .ok (windowWord c (o % 64) sz.bytes)) := by
    rw [← imgWindowRead_ok h]
    simp only [targetMem, accVal, dgEcc, hoff]
  have hmem : Region.isMem .imgWin = true := rfl
  have hrd : (Acc.rd != Acc.rd) = false := rfl
  simp only [busAcc, busAccFor, hi, hreg, hrd, hmem, ha, hs, halign, htarget, Bool.false_eq_true, Bool.true_eq_false, false_and,
    if_false, if_true]

theorem mrd_windowLoaded (s : State) (m : Nat) (c : ImgSlot) (q : Nat) :
    (windowLoaded s m c q).mrd m IMG_RQUAL = BitVec.ofNat 32 q ∧
      (windowLoaded s m c q).mrd m IMG_RTS_NS = BitVec.ofNat 32 (c.ns % 2 ^ 30) ∧
      (windowLoaded s m c q).mrd m IMG_RTAG = BitVec.ofNat 32 c.tag := by
  unfold windowLoaded
  refine ⟨?_, ?_, mrd_mwr_self _ _ _ _⟩
  · rw [mrd_mwr_ne _ _ _ (by decide), mrd_mwr_ne _ _ _ (by decide), mrd_mwr_ne _ _ _ (by decide), mrd_mwr_self]
  · rw [mrd_mwr_ne _ _ _ (by decide), mrd_mwr_ne _ _ _ (by decide), mrd_mwr_self]

/-- The row of a window read, whether its upset is one of the data or of the tags. -/
theorem exec_imgWindowRead {s : State} {m : Master} {o : Fin 0x400000} {sz : Size} {c : ImgSlot} {q : Nat} (hs : noSteps s)
    (hi : canIssue s m.val = true) (ha : admits m.val .imgWin = true) (hshut : shut s m.val .imgWin = false)
    (hz : o.val % sz.bytes = 0) (h : pointRead s (o.val / 64) (bitAt (s.mrd m.val IMG_VIEW) 0) = some (c, q)) (tags : Bool) :
    exec (.imgWindowRead m o sz tags .good) s =
      .next (answered (windowLoaded s m.val c q) (.ok (windowWord c (o.val % 64) sz.bytes))) := by
  have hacc := busAcc_window o.isLt hi ha hshut hz h
  have hrow : windowRow s m.val o.val sz tags .good = (windowLoaded s m.val c q, .ok (windowWord c (o.val % 64) sz.bytes)) := by
    cases tags <;> simp [windowRow, hacc, dgEcc]
  change answer (windowRow s m.val o.val sz tags .good) = _
  rw [hrow, answer, runSteps_of_noSteps _ (by simpa only [noSteps, windowLoaded, State.mwr_ctxH] using hs)]
  rfl

/-! ## IMG_WPUT (R213) -/

/-- The bytes of a master's write buffer. -/
def writeBuffer (s : State) (m : Nat) : List Byte :=
  (List.range 64).map (fun i => BitVec.ofNat 8 ((s.mrd m (IMG_WB (i / 4))).toNat / 2 ^ (8 * (i % 4))))

/-- The timestamp that a master has set is used up by its put. -/
def timestampUsed (u : State) (m : Nat) : State := { u with wtsSet := putBit u.wtsSet m false }

@[simp] theorem pt_timestampUsed (u : State) (m p : Nat) : (timestampUsed u m).pt p = u.pt p := rfl

/-- A put by an engine that has set no timestamp takes the time of TB0. -/
theorem imgWput_engine {s : State} {m : Nat} {v : Word} (hsize : ptSize (s.pt (fld v 15 0)).entry ≠ 0)
    (hclass : ptClass (s.pt (fld v 15 0)).entry = 1) (hm : m = 1 + ptWid (s.pt (fld v 15 0)).entry % 8)
    (hset : bitAt s.wtsSet m = false) : imgWput s m v =
      (timestampUsed (pointWrite s (fld v 15 0) ((writeBuffer s m).take (ptSize (s.pt (fld v 15 0)).entry))
        (localQual s (fld v 31 16)) (s.tb 0).ns (s.tb 0).sec (s.tb 0).sub) m, .ok 0) := by
  have hput := imgPut_engine (data := writeBuffer s m) (q := fld v 31 16) (ns := (s.tb 0).ns) (sec := (s.tb 0).sec)
    (sub := (s.tb 0).sub) hsize hclass hm
  rw [writeBuffer] at hput
  simp only [imgWput, hset, Bool.false_eq_true, if_false, hput, if_true]
  rfl

/-! ## The epoch (R222) -/

theorem imgRead_epochLo (s : State) (m : Nat) : imgRead s m (IMG_EPOCH_LO % 0x1000) =
    (s.mwr m IMG_EPOCH_HI (BitVec.ofNat 32 (s.imgE / 2 ^ 32)), .ok (BitVec.ofNat 32 s.imgE)) := rfl

/-! ## The rows -/

section
variable {s : State} {m : Master} (hs : noSteps s)
include hs

/-- POINT_TABLE_WRITE that defines a point anew (R199). -/
theorem exec_pointTableWrite_fresh {v : Word} (h : opens s m IMG_PTW .img)
    (hw : ptWrite s (s.fl IMG_PTIDX 15 0) v = (s.setPt (s.fl IMG_PTIDX 15 0) (freshPoint v), .ok 0)) :
    ∃ t, exec (.pointTableWrite m v) s = .next t ∧ t.resp = .ok 0 ∧ t.pt (s.fl IMG_PTIDX 15 0) = freshPoint v ∧
      ∀ q, q ≠ s.fl IMG_PTIDX 15 0 → t.pt q = s.pt q := by
  refine ⟨_, writeRow_img h (by decide) ((imgWrite_ptw s m.val v).trans hw) rfl hs, answered_resp _ _, ?_, fun q hq => ?_⟩
  · rw [pt_answered, pt_setPt_self]
  · rw [pt_answered, pt_setPt_ne s _ hq]

/-- COMMIT_ENABLE that is not refused (R202). -/
theorem exec_commitEnable_enables {v : Word} (h : opens s m IMG_CTRL .img) (hcen : s.bt IMG_CTRL 31 = false)
    (hok : imgParamsOk s = true) (hE : s.imgE ≤ imgK0 s - 1) (hk0 : imgK0 s < 2 ^ 48)
    (hne : s.fl IMG_TRIG 9 0 ≠ s.fl IMG_TRIG 25 16) (ha : trgOn s (s.fl IMG_TRIG 9 0) = false)
    (hb : trgOn s (s.fl IMG_TRIG 25 16) = false) :
    ∃ t, exec (.commitEnable m v) s = .next t ∧ t.resp = .ok 0 ∧ t.bt IMG_CTRL 31 = true ∧ t.imgE = imgK0 s - 1 ∧
      t.bt TU_STATUS 0 = true ∧ Armed t (s.fl IMG_TRIG 9 0) (commitAt s (imgK0 s) - imgL s) 4 (imgP s) ∧
      Armed t (s.fl IMG_TRIG 25 16) (commitAt s (imgK0 s)) 5 (imgP s) := by
  have hen := bitAt_putBit_self v 31 true (by decide)
  obtain ⟨hsample, hcommit⟩ := armed_storeArmed hok hne
  have hkeep (i : Nat) (hi : i < 2 ^ 10) (a : Nat) (hlo : TU_TRG_CTRL i ≤ a) (hhi : a ≤ TU_TRG_PERHI i) :
      (answered (commitsOn s (putBit v 31 true)) (.ok 0)).rd a = (storeArmed s).rd a := by
    unfold TU_TRG_CTRL at hlo
    unfold TU_TRG_PERHI at hhi
    rw [rd_answered_timed _ _ (by omega) (by omega), rd_commitsOn_trg _ _ (by omega)]
  refine ⟨_, writeRow_img h (by decide) ((imgWrite_ctrl s m.val _).trans (imgCtrl_enable hen hcen hok hE hk0 hne ha hb))
    (commitsOn_ctxH s _) hs, answered_resp _ _, ?_, ?_, ?_, hsample.congr (hkeep _ (fld_lt _ 9 0)),
    hcommit.congr (hkeep _ (fld_lt _ 25 16))⟩
  · rw [bt_answered_low _ _ _ (by decide), bt_commitsOn_cen, hen]
  · rw [answered_imgE, commitsOn, epochSet_imgE]
  · rw [State.bt, rd_answered_timed _ _ (by decide) (by decide), ← State.bt, bt_commitsOn_tb0lock]

/-- COMMIT_DISABLE (R203). -/
theorem exec_commitDisable_disables {v : Word} (h : opens s m IMG_CTRL .img) (hcen : s.bt IMG_CTRL 31 = true) :
    ∃ t, exec (.commitDisable m v) s = .next t ∧ t.bt IMG_CTRL 31 = false ∧ trgOn t (s.fl IMG_TRIG 9 0) = false ∧
      trgOn t (s.fl IMG_TRIG 25 16) = false ∧ t.bt TU_STATUS 0 = false ∧ t.xpend = [] ∧ t.imgE = s.imgE ∧ t.img = s.img := by
  have hclear := bitAt_putBit_self v 31 false (by decide)
  obtain ⟨hsample, hcommit⟩ := trgOn_storeDisarmed s
  obtain ⟨hxpend, hE, himg, hctx⟩ := commitsOff_fields s (putBit v 31 false)
  have hkeep {i : Nat} (hi : i < 2 ^ 10) (hoff : trgOn (storeDisarmed s) i = false) :
      trgOn (answered (commitsOff s (putBit v 31 false)) (.ok 0)) i = false := by
    rw [trgOn, State.bt, rd_answered_timed _ _ (by unfold TU_TRG_CTRL; omega) (by unfold TU_TRG_CTRL; omega),
      rd_commitsOff_tu _ _ (by unfold TU_TRG_CTRL; omega), rd_setBt_ne _ _ _ (by unfold TU_TRG_CTRL TU_STATUS; omega)]
    exact hoff
  refine ⟨_, writeRow_img h (by decide) ((imgWrite_ctrl s m.val _).trans (imgCtrl_disable hclear hcen)) hctx hs, ?_,
    hkeep (fld_lt _ 9 0) hsample, hkeep (fld_lt _ 25 16) hcommit, ?_, (answered_xpend _ _).trans hxpend,
    (answered_imgE _ _).trans hE, (answered_img _ _).trans himg⟩
  · rw [bt_answered_low _ _ _ (by decide), bt_commitsOff_cen, hclear]
  · rw [State.bt, rd_answered_timed _ _ (by decide) (by decide), rd_commitsOff_tu _ _ (by decide)]
    exact bt_setBt_self _ _ _ _ (by decide)

/-- IMG_PIN while no pin is held (R207). -/
theorem exec_imgPin_pins (h : opens s m IMG_PINCMD .img) (hfree : pinHeld s = false) :
    ∃ t, exec (.imgPin m) s = .next t ∧ pinHeld t = true ∧ pinQ t = s.imgE % 2 ^ 64 ∧ t.fl IMG_PINSTAT 20 16 = m.val := by
  have hstat : (answered (pinned s m.val) (.ok 0)).rd IMG_PINSTAT = _ :=
    (rd_answered_low _ _ (by decide)).trans (pinStat_pinned s m.val)
  refine ⟨_, writeRow_img h (by decide) ((imgWrite_pin s m.val).trans (imgPin_pin hfree m.val)) (pinned_ctxH s m.val) hs, ?_, ?_, ?_⟩
  · rw [pinHeld, State.bt, hstat, bitAt_setFld_apart _ _ (by decide) (by decide) (by decide), bitAt_putBit_self _ _ _ (by decide)]
  · rw [← pinQ_pinned s m.val, pinQ, rd_answered_low _ _ (by decide), rd_answered_low _ _ (by decide), ← pinQ]
  · rw [State.fl, hstat, fld_setFld_self _ _ _ _ (by decide) (by decide)]
    exact Nat.mod_eq_of_lt m.isLt

/-- IMG_UNPIN by the owner (R207). -/
theorem exec_imgUnpin_releases (h : opens s m IMG_PINCMD .img) (hheld : pinHeld s = true) (hown : s.fl IMG_PINSTAT 20 16 = m.val) :
    ∃ t, exec (.imgUnpin m) s = .next t ∧ pinHeld t = false := by
  refine ⟨_, writeRow_img h (by decide) ((imgWrite_unpin s m.val).trans (imgPin_unpin hheld hown)) (unpinned_ctxH s) hs, ?_⟩
  rw [pinHeld, bt_answered_low _ _ _ (by decide), unpinned, State.bt, rd_setFl_self, rd_setBt_self,
    bitAt_setFld_apart _ _ (by decide) (by decide) (by decide), bitAt_putBit_self _ _ _ (by decide)]

/-- IMG_WPUT by the engine that writes the point, with no timestamp set (R205, R212, R213). -/
theorem exec_imgWput_writes {v : Word} (h : opens s m IMG_WPUT .img) (hsize : ptSize (s.pt (fld v 15 0)).entry ≠ 0)
    (hclass : ptClass (s.pt (fld v 15 0)).entry = 1) (hm : m.val = 1 + ptWid (s.pt (fld v 15 0)).entry % 8)
    (hset : bitAt s.wtsSet m.val = false) :
    ∃ t, exec (.imgWput m v) s = .next t ∧ t.resp = .ok 0 ∧ (t.pt (fld v 15 0)).slot (writeSlot s (s.pt (fld v 15 0))) =
        ⟨true, s.imgE + 1, (writeBuffer s m.val).take (ptSize (s.pt (fld v 15 0)).entry),
          fld v 31 28 * 2 ^ 12 + (s.bt IMG_CTRL 30).toNat * 64 + fld v 19 16, (s.tb 0).ns, (s.tb 0).sec % 2 ^ 48, (s.tb 0).sub⟩ ∧
      visible (t.pt (fld v 15 0)) s.imgE = visible (s.pt (fld v 15 0)) s.imgE := by
  refine ⟨_, writeRow_img h (by decide) ((imgWrite_wput s m.val v).trans (imgWput_engine hsize hclass hm hset)) rfl hs,
    answered_resp _ _, ?_⟩
  rw [pt_answered, pt_timestampUsed, ← localQual_wput]
  exact pointWrite_spec s _ _ _ _ _ _

/-- EPOCH_READ (R222). -/
theorem exec_epochRead_latches (h : opens s m IMG_EPOCH_LO .img) :
    ∃ t, exec (.epochRead m) s = .next t ∧ t.resp = .ok (BitVec.ofNat 32 s.imgE) ∧
      t.mrd m.val IMG_EPOCH_HI = BitVec.ofNat 32 (s.imgE / 2 ^ 32) := by
  refine ⟨_, readRow_img h (imgRead_epochLo s m.val) rfl hs, answered_resp _ _, ?_⟩
  rw [mrd_answered, mrd_mwr_self]

end

/-- Settles O42, row by row: the table entry defines its point, CEN arms and disarms the two triggers, the pin and the epoch latch hold
E, a window read loads what it read, and a put takes a slot that the current view does not read. -/
theorem imageStore : Obligations.ImageStore := by
  unfold Obligations.ImageStore
  intro s m v p hs
  refine ⟨?_, ?_, fun h hcen => exec_commitDisable_disables hs h hcen,
    fun h => ⟨fun hfree => exec_imgPin_pins hs h hfree, fun hheld hown => exec_imgUnpin_releases hs h hheld hown⟩, ?_, ?_,
    fun h => exec_epochRead_latches hs h⟩
  · rintro rfl h hcen h7 hbad hsize hclass hnew hmap hexp hcost
    exact exec_pointTableWrite_fresh hs h (ptWrite_fresh hcen h7 hbad hsize hclass hnew hmap hexp hcost)
  · rintro a b rfl rfl h hcen hok hE hk0 hne ha hb
    obtain ⟨t, hrow, hresp, hon, hepoch, hlock, hsample, hcommit⟩ :=
      exec_commitEnable_enables (v := v) hs h hcen hok hE hk0 hne ha hb
    exact ⟨t, hrow, hresp, hon, hepoch, hlock, hsample.on, hcommit.on, hcommit.per, hsample.ctrl, hcommit.ctrl, hsample.time,
      hcommit.time⟩
  · intro o sz tags c q hi ha hshut hz hread
    obtain ⟨hqual, hns, htag⟩ := mrd_windowLoaded s m.val c q
    exact ⟨_, exec_imgWindowRead hs hi ha hshut hz hread tags, answered_resp _ _, (mrd_answered _ _ _ _).trans hqual,
      (mrd_answered _ _ _ _).trans hns, (mrd_answered _ _ _ _).trans htag, answered_img _ _⟩
  · rintro w x rfl rfl rfl h hsize hclass hm hset
    exact exec_imgWput_writes hs h hsize hclass hm hset

end Sys2Proof.Machine

/-! SUPPORT. Export sets (R215, R216): EN of a set, and the set that is abandoned. -/

namespace Sys2Proof.Machine

/-! ## After the end of a command -/

theorem bt_close_low (u : State) {a : Nat} (i : Nat) (h : a < 0x30000000) : (close u).bt a i = u.bt a i :=
  close_bt u i (closeTouches_low h)

theorem fl_close_low (u : State) {a : Nat} (hi lo : Nat) (h : a < 0x30000000) : (close u).fl a hi lo = u.fl a hi lo :=
  close_fl u hi lo (closeTouches_low h)

/-! ## EN of a set (R215) -/

/-- EN has no part in the checks of an enable. -/
theorem xBad_putBit (s : State) (x : Nat) (v : Word) (b : Bool) : xBad s x (putBit v 31 b) = xBad s x v := by
  have hfld : fld (putBit v 31 b) 6 0 = fld v 6 0 := fld_putBit_apart v b (by decide) (by decide) (by decide)
  simp only [xBad, hfld]

/-- A write that sets EN of a set that is off, and passes the checks, is a plain one. -/
theorem xWrite_enable {s : State} {x : Nat} {v : Word} (hoff : s.bt (IMG_XCFG x) 31 = false) (hok : xBad s x v = false) :
    xWrite s x 0 v = (s.softWrite (IMG_XCFG x) v, .ok 0) := by
  simp only [xWrite, hoff, hok, Bool.false_eq_true, if_false, and_false, Nat.add_zero]

/-- A write that clears EN is a plain one, whether the set is on or off. -/
theorem xWrite_disable {s : State} {x : Nat} {v : Word} (hen : bitAt v 31 = false) :
    xWrite s x 0 v = (s.softWrite (IMG_XCFG x) v, .ok 0) := by
  cases hon : s.bt (IMG_XCFG x) 31 with
  | true => simp only [xWrite, hon, hen, and_self, if_true, Nat.add_zero]
  | false => simp only [xWrite, hon, hen, Bool.false_eq_true, false_and, and_false, if_false, Nat.add_zero]

/-- XCFG takes EN, TC and NREC as written. -/
theorem softWrite_xcfg (s : State) {x : Nat} (hx : x < 16) (v : Word) (b : Bool) :
    (s.softWrite (IMG_XCFG x) (putBit v 31 b)).bt (IMG_XCFG x) 31 = b ∧
      (s.softWrite (IMG_XCFG x) (putBit v 31 b)).fl (IMG_XCFG x) 6 0 = fld v 6 0 ∧
      (s.softWrite (IMG_XCFG x) (putBit v 31 b)).fl (IMG_XCFG x) 30 27 = fld v 30 27 := by
  have hdesc := regDesc_xcfg hx
  refine ⟨?_, ?_, ?_⟩
  · rw [bt_softWrite_self s hdesc (by decide) (by decide), bitAt_putBit_self v 31 b (by decide)]
  · rw [fl_softWrite_self s hdesc (by decide) (by decide), fld_putBit_apart v b (by decide) (by decide) (by decide)]
  · rw [fl_softWrite_self s hdesc (by decide) (by decide), fld_putBit_apart v b (by decide) (by decide) (by decide)]

/-- The row of a write of XCFG that is a plain one: EN, NREC and TC as written. -/
theorem writeRow_xcfg {s : State} {m : Master} {x : Fin 16} {v : Word} {b : Bool} (hs : noSteps s)
    (h : opens s m (IMG_XCFG x.val) .img)
    (hw : xWrite s x.val 0 (putBit v 31 b) = (s.softWrite (IMG_XCFG x.val) (putBit v 31 b), .ok 0)) :
    ∃ t, writeRow s m (IMG_XCFG x.val) (putBit v 31 b) = .next t ∧ t.resp = .ok 0 ∧ t.bt (IMG_XCFG x.val) 31 = b ∧
      t.fl (IMG_XCFG x.val) 6 0 = fld v 6 0 ∧ t.fl (IMG_XCFG x.val) 30 27 = fld v 30 27 := by
  have hlow : IMG_XCFG x.val < 0x30000000 := by unfold IMG_XCFG; omega
  obtain ⟨hen, hnrec, htc⟩ := softWrite_xcfg s x.isLt v b
  refine ⟨_, writeRow_img h (by unfold IMG_XCFG IMG_IRQROUTE; omega) ((imgWrite_xcfg s m.val _ x.isLt).trans hw)
    (softWrite_ctxH s _ _) hs, answered_resp _ _, ?_, ?_, ?_⟩
  · rw [bt_answered_low _ _ _ hlow, hen]
  · rw [fl_answered_low _ _ _ _ hlow, hnrec]
  · rw [fl_answered_low _ _ _ _ hlow, htc]

/-! ## The abandoned set (R216) -/

/-- The frame of set `x` abandoned. -/
def setAbandoned (s : State) (x : Nat) : State := { s with xpend := s.xpend.filter (fun f => f.set != x) }

@[simp] theorem rd_setAbandoned (s : State) (x a : Nat) : (setAbandoned s x).rd a = s.rd a := rfl

/-- Of a set not handed over in time the frame goes, counted as late. -/
theorem exportLateRow_late {u : State} {x : Nat} (hout : inReset u blkImg = false)
    (hpend : u.xpend.any (fun f => f.set == x) = true)
    (hlate : commitAt u u.imgE + (u.rd (IMG_XOFF x)).toNat ≤ now0 u + 1000) : exportLateRow u x 0 =
      ((setAbandoned u x).satInc IMG_CNT_EXP 31 16).raise IMG_IRQSTAT 0x2 := by
  rw [exportLateRow, hout, if_neg (by decide), handOver]
  dsimp only
  rw [if_pos hlate, exportLate, if_pos hpend, setAbandoned]

/-- The row of EXPORT_LATE, none handed over. -/
theorem exec_exportLate_abandons {s u : State} {dt : Nat} (hu : u = elapse s dt) (x : Fin 16) (hout : inReset u blkImg = false)
    (hpend : u.xpend.any (fun f => f.set == x.val) = true)
    (hlate : commitAt u u.imgE + (u.rd (IMG_XOFF x.val)).toNat ≤ now0 u + 1000) :
    ∃ t, exec (.exportLate x 0 dt) s = .next t ∧ t.xpend = u.xpend.filter (fun f => f.set != x.val) ∧
      t.fl IMG_CNT_EXP 31 16 = min (2 ^ 16 - 1) (u.fl IMG_CNT_EXP 31 16 + 1) ∧ t.bt IMG_IRQSTAT 1 = true := by
  have hrow : exec (.exportLate x 0 dt) s = .next (close (exportLateRow u x.val 0)) := by
    rw [hu]
    rfl
  rw [exportLateRow_late hout hpend hlate] at hrow
  refine ⟨_, hrow, ?_, ?_, ?_⟩
  · rw [close_xpend, State.raise, State.wr_xpend, State.satInc, State.setFl, State.wr_xpend, setAbandoned]
  · rw [fl_close_low _ _ _ (by decide), State.fl, rd_raise_ne _ _ (by decide), ← State.fl,
      fl_satInc_self _ _ _ _ (by decide) (by decide), State.fl, rd_setAbandoned, ← State.fl]
  · rw [bt_close_low _ _ (by decide), bt_raise _ (by decide)]

end Sys2Proof.Machine

/-! SUPPORT. Imports (R218, R219, R221): subscriptions and mappings, the frame that the IMG port delivers, and the miss check. -/

namespace Sys2Proof.Machine

/-! ## Subscriptions and mappings (R218) -/

@[simp] theorem sub_setSub_self (s : State) (i : Nat) (x : ImgSub) : (s.setSub i x).sub i = x := by simp [State.sub, State.setSub]

theorem sub_setSub_ne (s : State) {i j : Nat} (x : ImgSub) (h : j ≠ i) : (s.setSub i x).sub j = s.sub j := by
  simp only [State.sub, State.setSub]
  exact smGet_smSet_ne _ _ _ _ h

@[simp] theorem mapg_setMapg_self (s : State) (i : Nat) (x : ImgMap) : (s.setMapg i x).mapg i = x := by
  simp [State.mapg, State.setMapg]

theorem mapg_setMapg_ne (s : State) {i j : Nat} (x : ImgMap) (h : j ≠ i) : (s.setMapg i x).mapg j = s.mapg j := by
  simp only [State.mapg, State.setMapg]
  exact smGet_smSet_ne _ _ _ _ h

/-- The bits of SBW0 that a write sets: EN, SRCID and SET (Table 9.14). -/
theorem sbw0_fields (v : Word) : bitAt (v &&& 0xBFFF000F) 31 = bitAt v 31 ∧ fld (v &&& 0xBFFF000F) 29 16 = fld v 29 16 ∧
    fld (v &&& 0xBFFF000F) 3 0 = fld v 3 0 := by
  refine ⟨?_, fld_congr fun i hlo hhi => ?_, fld_congr fun i hlo hhi => ?_⟩
  · simp [bitAt_eq_getLsbD]
  · interval_cases i <;> simp
  · interval_cases i <;> simp

/-- No other enabled subscription has the source device and set of a word. -/
def sourceFree (s : State) (i : Nat) (v : Word) : Bool :=
  s.subs.all (fun e => e.1 == i || !bitAt e.2.w0 31 || fld e.2.w0 29 16 != fld v 29 16 || fld e.2.w0 3 0 != fld v 3 0)

/-- A write of SBW0 of a subscription that is off: one that enables it has a source of its own. -/
theorem subWrite_off {s : State} {i : Nat} {v : Word} (hoff : bitAt (s.sub i).w0 31 = false)
    (hok : bitAt v 31 = false ∨ fld v 29 16 ≠ s.fl IMG_DEVID 13 0 ∧ sourceFree s i v = true) :
    subWrite s i v = (s.setSub i { s.sub i with w0 := v &&& 0xBFFF000F }, .ok 0) := by
  obtain ⟨hen, hsrc, hset⟩ := sbw0_fields v
  have haccept : ¬(bitAt v 31 = true ∧ (fld v 29 16 = s.fl IMG_DEVID 13 0 ∨
      s.subs.any (fun e => e.1 != i && bitAt e.2.w0 31 && fld e.2.w0 29 16 == fld v 29 16 && fld e.2.w0 3 0 == fld v 3 0) = true)) := by
    rintro ⟨hon, href⟩
    rcases hok with hclear | ⟨hdev, hfree⟩
    · simp [hclear] at hon
    · rcases href with hself | hdup
      · exact hdev hself
      · obtain ⟨e, hmem, he⟩ := List.any_eq_true.1 hdup
        have hother := List.all_eq_true.1 hfree e hmem
        simp only [Bool.and_eq_true, bne_iff_ne, ne_eq, beq_iff_eq] at he
        obtain ⟨⟨⟨hne, hon'⟩, hsrc'⟩, hset'⟩ := he
        simp [hne, hon', hsrc', hset'] at hother
  simp only [subWrite, hoff, Bool.false_eq_true, if_false, hen, hsrc, hset]
  rw [if_neg haccept]

/-- A write of a mapping between subscriptions that are off: one that enables it passes its checks. -/
theorem mapWrite_off {s : State} {i : Nat} {x : ImgMap} (hold : bitAt (s.sub (fld (s.mapg i).w0 7 0)).w0 31 = false)
    (hnew : bitAt (s.sub (fld x.w0 7 0)).w0 31 = false) (hok : bitAt x.w0 31 = true → mapOk s i x = true) :
    mapWrite s i x = (s.setMapg i x, .ok 0) := by
  have hgood : ¬(bitAt x.w0 31 = true ∧ mapOk s i x = false) := fun h => by simp [hok h.1] at h
  simp only [mapWrite, hold, hnew, hgood, Bool.false_eq_true, or_self, if_false]

/-! ## The head of a switch queue -/

/-- `t` keeps the points of `s` and every register below the switch. -/
structure BelowSwitch (s t : State) : Prop where
  img : t.img = s.img
  rd : ∀ a < 0x33000000, t.rd a = s.rd a

theorem BelowSwitch.refl (s : State) : BelowSwitch s s := ⟨rfl, fun _ _ => rfl⟩

theorem BelowSwitch.trans {s t u : State} (h : BelowSwitch s t) (k : BelowSwitch t u) : BelowSwitch s u :=
  ⟨k.img.trans h.img, fun a ha => (k.rd a ha).trans (h.rd a ha)⟩

theorem BelowSwitch.satInc (s : State) {a : Nat} (hi lo n : Nat) (h : 0x33000000 ≤ a) : BelowSwitch s (s.satInc a hi lo n) :=
  ⟨rfl, fun _ hb => rd_satInc_ne s hi lo n (by omega)⟩

theorem BelowSwitch.sendPfc (s : State) (p c quanta : Nat) : BelowSwitch s (sendPfc s p c quanta) :=
  (BelowSwitch.satInc s 15 0 1 (by unfold SW_P_CNT4; omega)).trans ⟨rfl, fun _ _ => rfl⟩

theorem BelowSwitch.pfcFall (s : State) (i c : Nat) : BelowSwitch s (pfcFall s i c) := by
  have hfree : BelowSwitch s { s with swHold := smSet false s.swHold (8 * i + c) false } := ⟨rfl, fun _ _ => rfl⟩
  unfold Machine.pfcFall
  split
  · dsimp only
    split
    · exact hfree
    · exact hfree.trans (.sendPfc _ i c 0)
  · exact .refl s

theorem BelowSwitch.pfcFalls (s : State) : BelowSwitch s (pfcFalls s) :=
  List.foldlRecOn (motive := BelowSwitch s) _ _ (.refl s) fun _ ht _ _ => ht.trans (.pfcFall _ _ _)

theorem BelowSwitch.newHead (s : State) (q : Nat) : BelowSwitch s (newHead s q) := by
  have hqueue (l : List SwCopy) : BelowSwitch s (setSwQueue s q l) := ⟨rfl, fun _ _ => rfl⟩
  exact ((hqueue _).trans (.satInc _ 15 0 _ (by unfold SW_Q_LATE; omega))).trans ⟨rfl, fun _ _ => rfl⟩

/-- A head that leaves its queue changes the switch alone. -/
theorem BelowSwitch.popHead (s : State) (q : Nat) : BelowSwitch s (popHead s q) := by
  have hqueue (l : List SwCopy) : BelowSwitch s (setSwQueue s q l) := ⟨rfl, fun _ _ => rfl⟩
  unfold Machine.popHead
  split
  · exact .refl s
  · exact ((hqueue _).trans (.newHead _ q)).trans (.pfcFalls _)

/-! ## The frame that the IMG port delivers (R219, R295) -/

/-- In a falling list the first element that passes a test is the greatest that does. -/
theorem find?_falling {l : List Nat} (hl : l.Pairwise (· > ·)) {f : Nat → Bool} {q : Nat} (hq : q ∈ l) (hf : f q = true)
    (habove : ∀ p ∈ l, q < p → f p = false) : l.find? f = some q := by
  induction l with
  | nil => simp at hq
  | cons a l ih =>
    obtain ⟨hhead, htail⟩ := List.pairwise_cons.1 hl
    rcases List.mem_cons.1 hq with rfl | hmem
    · simp [hf]
    · have ha : f a = false := habove a List.mem_cons_self (hhead q hmem)
      rw [List.find?_cons, ha]
      exact ih htail hmem fun p hp => habove p (List.mem_cons_of_mem _ hp)

/-- The head of a queue of the IMG port is ready. -/
def headReady (s : State) (q : Nat) : Bool :=
  match swQueue s q with
  | [] => false
  | x :: _ => !waitsLaunch s q x

/-- The frame delivered is the head of the highest class whose head is ready. -/
theorem importRow_delivers {u : State} {q : Nat} {x : SwCopy} {r : List SwCopy} (hout : inReset u blkImg = false)
    (hlive : swLive u = true) (hlo : 112 ≤ q) (hhi : q < 120) (hq : swQueue u q = x :: r) (hready : waitsLaunch u q x = false)
    (habove : ∀ p < 120, p ≤ q ∨ (swQueue u p).head?.all (waitsLaunch u p) = true) : importRow u =
      importFrame (if x.bad then popHead u q else (popHead u q).wrapInc (SW_P_CNT1 14) 31 0) (copyBytes x) x.bad := by
  have hfind : ([7, 6, 5, 4, 3, 2, 1, 0].map (112 + ·)).find? (headReady u) = some q := by
    refine find?_falling (by decide) ?_ (by simp [headReady, hq, hready]) fun p hp hlt => ?_
    · simp only [List.map_cons, List.map_nil, List.mem_cons, List.not_mem_nil, or_false]
      omega
    · have hp120 : p < 120 := by
        simp only [List.map_cons, List.map_nil, List.mem_cons, List.not_mem_nil, or_false] at hp
        omega
      have hwaits := (habove p hp120).resolve_left (Nat.not_le.2 hlt)
      cases hhead : swQueue u p with
      | nil => simp [headReady, hhead]
      | cons y l => simpa [headReady, hhead] using hwaits
  have hstart : importRow u = match ([7, 6, 5, 4, 3, 2, 1, 0].map (112 + ·)).find? (headReady u) with
      | none => u
      | some q => match swQueue u q with
        | [] => u
        | x :: _ => importFrame (if x.bad then popHead u q else (popHead u q).wrapInc (SW_P_CNT1 14) 31 0) (copyBytes x) x.bad := by
    rw [importRow, if_neg (by simp [hout, hlive])]
    rfl
  rw [hstart, hfind]
  dsimp only
  rw [hq]

/-- A frame discarded is counted and shown (R219). -/
theorem impDrop_counts (s : State) : (impDrop s).fl IMG_CNT_IMP 31 16 = min (2 ^ 16 - 1) (s.fl IMG_CNT_IMP 31 16 + 1) ∧
    (impDrop s).bt IMG_IRQSTAT 4 = true := by
  refine ⟨?_, bt_raise _ (by decide)⟩
  rw [impDrop, State.fl, rd_raise_ne _ _ (by decide), ← State.fl]
  exact fl_satInc_self _ _ _ _ (by decide) (by decide)

/-- A frame whose FCS is wrong is discarded. -/
theorem importFrame_bad (s : State) (data : List Byte) : importFrame s data true = impDrop s := by
  rw [importFrame, if_pos (.inl rfl)]

/-! ## The miss check (R221) -/

/-- A subscription that has missed an epoch. -/
def missed (x : ImgSub) : ImgSub := { x with miss := min 65535 (x.miss + 1) }

/-- Its miss counted. -/
def missOne (s : State) (e : Nat × ImgSub) : State := s.setSub e.1 (missed (s.sub e.1))

/-- A subscription is counted once if it is listed, and not at all otherwise. -/
theorem sub_foldl_missOne (l : List (Nat × ImgSub)) (hl : (l.map (·.1)).Nodup) (s : State) (i : Nat) :
    (l.foldl missOne s).sub i = if i ∈ l.map (·.1) then missed (s.sub i) else s.sub i := by
  induction l generalizing s with
  | nil => simp
  | cons e l ih =>
    obtain ⟨hnot, htail⟩ := List.nodup_cons.1 hl
    rw [List.foldl_cons, ih htail, List.map_cons]
    by_cases hi : i = e.1
    · subst hi
      rw [if_neg hnot, if_pos List.mem_cons_self, missOne, sub_setSub_self]
    · have hkeep : (missOne s e).sub i = s.sub i := sub_setSub_ne s _ hi
      simp only [hkeep, List.mem_cons, hi, false_or]

/-- The subscriptions whose last epoch is not E. -/
def missing (s : State) : List (Nat × ImgSub) := s.subs.filter (fun e => bitAt e.2.w0 31 && e.2.last != some s.imgE)

/-- The check done. -/
def missesCounted (s : State) : State := { (missing s).foldl missOne s with missDue := false }

theorem missCheck_due {s : State} (hdue : s.missDue = true) (hcen : s.bt IMG_CTRL 31 = true) :
    missCheck s = if (missing s).isEmpty then missesCounted s else (missesCounted s).raise IMG_IRQSTAT 0x8 := by
  rw [missCheck, if_neg (by simp [hdue, hcen])]
  rfl

theorem missCheck_missDue {s : State} (hdue : s.missDue = true) (hcen : s.bt IMG_CTRL 31 = true) : (missCheck s).missDue = false := by
  rw [missCheck_due hdue hcen]
  split_ifs
  · rfl
  · rfl

/-- An enabled subscription whose last epoch is not E has a miss counted, and MISS shows it. -/
theorem missCheck_counts {s : State} (hdue : s.missDue = true) (hcen : s.bt IMG_CTRL 31 = true) (hkeys : (s.subs.map (·.1)).Nodup)
    {i : Nat} (hi : (i, s.sub i) ∈ s.subs) (hen : bitAt (s.sub i).w0 31 = true) (hlast : (s.sub i).last ≠ some s.imgE) :
    (missCheck s).sub i = missed (s.sub i) ∧ (missCheck s).bt IMG_IRQSTAT 3 = true := by
  have hmem : (i, s.sub i) ∈ missing s := List.mem_filter.2 ⟨hi, by simp [hen, hlast]⟩
  have hsome : (missing s).isEmpty = false := by
    rw [List.isEmpty_eq_false_iff]
    exact List.ne_nil_of_mem hmem
  have hnodup : ((missing s).map (·.1)).Nodup := hkeys.sublist (List.filter_sublist.map _)
  have hsub := sub_foldl_missOne (missing s) hnodup s i
  rw [if_pos (List.mem_map_of_mem (f := (·.1)) hmem)] at hsub
  rw [missCheck_due hdue hcen, hsome, if_neg (by decide)]
  exact ⟨hsub, bt_raise _ (by decide)⟩

end Sys2Proof.Machine

/-! SUPPORT. The commands of exports and imports (R215, R216, R218, R219, R221) as rows of the instruction set. -/

namespace Sys2Proof.Machine

/-! ## Imports (R219, R221) -/

/-- A frame whose FCS is wrong, taken from its queue, leaves the points and is counted. -/
theorem impDrop_popHead (u : State) (q : Nat) : (close (impDrop (popHead u q))).img = u.img ∧
    (close (impDrop (popHead u q))).fl IMG_CNT_IMP 31 16 = min (2 ^ 16 - 1) (u.fl IMG_CNT_IMP 31 16 + 1) ∧
    (close (impDrop (popHead u q))).bt IMG_IRQSTAT 4 = true := by
  obtain ⟨hcount, hirq⟩ := impDrop_counts (popHead u q)
  have hpop := BelowSwitch.popHead u q
  refine ⟨?_, ?_, ?_⟩
  · rw [close_img, impDrop, State.raise, State.wr_img, State.satInc, State.setFl, State.wr_img, hpop.img]
  · rw [fl_close_low _ _ _ (by decide), hcount, State.fl, hpop.rd IMG_CNT_IMP (by decide), ← State.fl]
  · rw [bt_close_low _ _ (by decide), hirq]

/-- The row of the frame that the IMG port delivers. -/
theorem exec_importFrame {s u : State} {dt : Nat} (hu : u = elapse s dt) {q : Nat} {x : SwCopy} {r : List SwCopy}
    (hout : inReset u blkImg = false) (hlive : swLive u = true) (hlo : 112 ≤ q) (hhi : q < 120) (hq : swQueue u q = x :: r)
    (hready : waitsLaunch u q x = false) (habove : ∀ p < 120, p ≤ q ∨ (swQueue u p).head?.all (waitsLaunch u p) = true) :
    exec (.importFrame dt) s = .next (close (importFrame
      (if x.bad then popHead u q else (popHead u q).wrapInc (SW_P_CNT1 14) 31 0) (copyBytes x) x.bad)) := by
  have hrow : exec (.importFrame dt) s = .next (close (importRow u)) := by
    rw [hu]
    rfl
  rw [hrow, importRow_delivers hout hlive hlo hhi hq hready habove]

/-- The row of the miss check, once the delay after the commit has passed. -/
theorem exec_importMissCheck {s u : State} {dt : Nat} (hu : u = elapse s dt) (hout : inReset u blkImg = false)
    (hpast : commitAt u u.imgE + imgD u ≤ now0 u) : exec (.importMissCheck dt) s = .next (close (missCheck u)) := by
  have hrow : exec (.importMissCheck dt) s = .next (close (missRow u)) := by
    rw [hu]
    rfl
  rw [hrow, missRow, if_neg (by simp [hout, hpast])]

theorem sub_close (s : State) (i : Nat) : (close s).sub i = s.sub i := by
  simp only [State.sub, close_subs]

/-! ## Subscriptions and mappings (R218) -/

/-- The row of a write of SBW0 of a subscription that is off. -/
theorem exec_subscriptionWrite {s : State} {m : Master} {v : Word} (hs : noSteps s) (h : opens s m IMG_SBW0 .img) {i : Nat}
    (hi : i = s.fl IMG_SBIDX 7 0) (hoff : bitAt (s.sub i).w0 31 = false)
    (hok : bitAt v 31 = false ∨ fld v 29 16 ≠ s.fl IMG_DEVID 13 0 ∧ sourceFree s i v = true) :
    ∃ t, exec (.subscriptionWrite m v) s = .next t ∧ t.resp = .ok 0 ∧ t.sub i = { s.sub i with w0 := v &&& 0xBFFF000F } := by
  subst hi
  refine ⟨_, writeRow_img h (by decide) ((imgWrite_sbw0 s m.val v).trans (subWrite_off hoff hok)) rfl hs,
    answered_resp _ _, ?_⟩
  rw [sub_answered, sub_setSub_self]

/-- The row of a write of a mapping between subscriptions that are off. -/
theorem exec_mappingWrite {s : State} {m : Master} {v : Word} {w1 : Bool} (hs : noSteps s)
    (h : opens s m (if w1 then IMG_MPW1 else IMG_MPW0) .img) {i : Nat} (hi : i = s.fl IMG_MPIDX 11 0) {x : ImgMap}
    (hx : x = if w1 then { s.mapg i with w1 := v } else { s.mapg i with w0 := v &&& 0x800000FF })
    (hold : bitAt (s.sub (fld (s.mapg i).w0 7 0)).w0 31 = false) (hnew : bitAt (s.sub (fld x.w0 7 0)).w0 31 = false)
    (hok : bitAt x.w0 31 = true → mapOk s i x = true) :
    ∃ t, exec (.mappingWrite m w1 v) s = .next t ∧ t.resp = .ok 0 ∧ t.mapg i = x ∧ ∀ j, j ≠ i → t.mapg j = s.mapg j := by
  have hroute : (if w1 then IMG_MPW1 else IMG_MPW0) ≠ IMG_IRQROUTE := by cases w1 <;> decide
  have hw : imgWrite s m.val ((if w1 then IMG_MPW1 else IMG_MPW0) % 0x1000) v = (s.setMapg i x, .ok 0) := by
    rw [imgWrite_mapping, ← hi, ← hx, mapWrite_off hold hnew hok]
  refine ⟨_, writeRow_img h hroute hw rfl hs, answered_resp _ _, ?_, fun j hj => ?_⟩
  · rw [mapg_answered, mapg_setMapg_self]
  · rw [mapg_answered, mapg_setMapg_ne s x hj]

/-- Settles O43, row by row: the writes of XCFG are plain ones, the abandoned set, the delivered frame and the miss check are
the model's rows after the time that passes, and the writes of subscriptions and mappings meet no enabled subscription. -/
theorem exportImport : Obligations.ExportImport := by
  unfold Obligations.ExportImport
  intro s m v hs
  refine ⟨fun x h => ⟨fun hoff hok => ?_, ?_⟩, fun x dt u hu hout hpend hlate => exec_exportLate_abandons hu x hout hpend hlate,
    fun dt u q x r hu hout hlive hlo hhi hq hready habove => ?_, fun dt u hu hout hdue hcen hpast hkeys => ?_,
    fun i hi h hoff hok => exec_subscriptionWrite hs h hi hoff hok,
    fun i w1 x hi h hx hold hnew hok => exec_mappingWrite hs h hi hx hold hnew hok⟩
  · obtain ⟨t, hrow, hresp, hen, hnrec, -⟩ :=
      writeRow_xcfg (b := true) hs h (xWrite_enable hoff ((xBad_putBit s x.val v true).trans hok))
    exact ⟨t, hrow, hresp, hen, hnrec⟩
  · exact writeRow_xcfg (b := false) hs h (xWrite_disable (bitAt_putBit_self v 31 false (by decide)))
  · have hrow := exec_importFrame hu hout hlive hlo hhi hq hready habove
    refine ⟨hrow, fun hbad => ⟨_, hrow, ?_⟩⟩
    rw [hbad, if_pos rfl, importFrame_bad]
    exact impDrop_popHead u q
  · refine ⟨_, exec_importMissCheck hu hout hpast, ?_, fun i hi hen hlast => ?_⟩
    · rw [close_missDue, missCheck_missDue hdue hcen]
    · obtain ⟨hmiss, hirq⟩ := missCheck_counts hdue hcen hkeys hi hen hlast
      exact ⟨by rw [sub_close, hmiss, missed], by rw [bt_close_low _ _ (by decide), hirq]⟩

end Sys2Proof.Machine

/-! SUPPORT. What the operations of a Huxon sequencer leave (R224 to R269): a check of a frame writes the registers of its unit, an access
to memory the registers below the engine-side units, and from the begin of a cycle on the parameters, the status and the counters of
the sequencer stay. -/

namespace Sys2Proof.Machine

/-! ## Writes of registers alone -/

/-- `t` is `s` but for registers at addresses of `W`. -/
structure OnlyWrites (W : Nat → Prop) (s t : State) : Prop where
  eq : t = { s with regs := t.regs }
  rd : ∀ a, ¬W a → t.rd a = s.rd a

namespace OnlyWrites

variable {W : Nat → Prop} {s t u : State}

theorem refl (s : State) : OnlyWrites W s s := ⟨rfl, fun _ _ => rfl⟩

theorem trans (h : OnlyWrites W s t) (k : OnlyWrites W t u) : OnlyWrites W s u :=
  ⟨by rw [k.eq, h.eq], fun a ha => (k.rd a ha).trans (h.rd a ha)⟩

theorem wr {a : Nat} (h : OnlyWrites W s t) (v : Word) (ha : W a) : OnlyWrites W s (t.wr a v) :=
  h.trans ⟨rfl, fun _ hb => rd_wr_ne t v fun e => hb (e ▸ ha)⟩

theorem ite {c : Prop} [Decidable c] (h : OnlyWrites W s t) (k : OnlyWrites W s u) : OnlyWrites W s (if c then t else u) := by
  split_ifs
  · exact h
  · exact k

theorem foldl {β : Type} {f : State → β → State} (hf : ∀ t b, OnlyWrites W t (f t b)) (l : List β) (s : State) :
    OnlyWrites W s (l.foldl f s) :=
  List.foldlRecOn (motive := OnlyWrites W s) _ _ (refl s) fun t h b _ => h.trans (hf t b)

theorem hx (h : OnlyWrites W s t) (n : Nat) : t.hx n = s.hx n := by rw [h.eq]; rfl

theorem cycles (h : OnlyWrites W s t) : t.cycles = s.cycles := by rw [h.eq]

end OnlyWrites

/-- The registers of the check unit of the block at `b`. -/
def ChkReg (b a : Nat) : Prop := b + 0x100 ≤ a ∧ a < b + 0x140

/-- The offsets of those registers in a block. -/
def chkOffset (o : Nat) : Bool := decide (0x100 ≤ o) && decide (o < 0x140)

theorem chkReg_offset (b : Nat) {o : Nat} (h : chkOffset o = true) : ChkReg b (b + o) := by
  rw [chkOffset, Bool.and_eq_true, decide_eq_true_eq, decide_eq_true_eq] at h
  unfold ChkReg
  omega

section
variable (s : State) (b : Nat)

theorem OnlyWrites.chkInit : OnlyWrites (ChkReg b) s (chkInit s b) :=
  ((((OnlyWrites.refl s).wr _ (chkReg_offset b rfl)).wr _ (chkReg_offset b rfl)).wr _ (chkReg_offset b rfl)).wr _ (chkReg_offset b rfl)

theorem OnlyWrites.chkProcess (x : Nat) : OnlyWrites (ChkReg b) s (chkProcess s b x) :=
  (OnlyWrites.refl s).wr _ (chkReg_offset b rfl)

theorem OnlyWrites.chkPush (n x : Nat) : OnlyWrites (ChkReg b) s (chkPush s b n x) := by
  unfold Machine.chkPush
  dsimp only
  split_ifs
  · exact .chkProcess s b x
  · exact (OnlyWrites.chkProcess s b _).wr _ (chkReg_offset b rfl)
  · exact ((OnlyWrites.refl s).wr _ (chkReg_offset b rfl)).wr _ (chkReg_offset b rfl)

theorem OnlyWrites.chkFeedByte (x : Nat) : OnlyWrites (ChkReg b) s (chkFeedByte s b x) := by
  unfold Machine.chkFeedByte
  split_ifs
  · exact (OnlyWrites.refl s).wr _ (chkReg_offset b rfl)
  · exact ((OnlyWrites.refl s).wr _ (chkReg_offset b rfl)).trans (.chkPush _ b 8 x)

/-- END of a unit that no cell holds. -/
theorem OnlyWrites.chkEnd : OnlyWrites (ChkReg b) s (chkEnd s b none) := by
  have step (o : Nat) (ho : chkOffset o = true) (t : State) (h : OnlyWrites (ChkReg b) s t) (v : Word) :
      OnlyWrites (ChkReg b) s (t.wr (b + o) v) := h.wr v (chkReg_offset b ho)
  have state {t : State} := step 0x118 rfl t
  have result {t : State} := step 0x120 rfl t
  have rxval {t : State} := step 0x124 rfl t
  have stat {t : State} := step 0x128 rfl t
  have count {t : State} := step 0x12C rfl t
  have raised {t : State} (h : OnlyWrites (ChkReg b) s t) (c : Prop) [Decidable c] (m : Word) :
      OnlyWrites (ChkReg b) s (if c then t.raise (CHK_STAT b) m else t) := .ite (stat h _) h
  have h := OnlyWrites.refl (W := ChkReg b) s
  unfold Machine.chkEnd
  dsimp only
  refine .ite (.ite (.ite (stat h _) (state h _)) ?_) (.ite (stat h _) ?_)
  · exact state (state (result (state (state (raised h _ _) _) _) _) _) _
  · refine .ite (count ?fed _) (count ?fed _)
    exact state (state (state (rxval (result (state (state (raised (raised h _ _) _ _) _) _) _) _) _) _) _

end
end Sys2Proof.Machine

/-! SUPPORT. A read of a sequencer (R16, R244, R312 to R319) leaves the registers above those of shared memory. -/

namespace Sys2Proof.Machine

/-- The registers above those of shared memory stay. -/
def HighSame (s t : State) : Prop := ∀ a, 0x34010000 ≤ a → t.rd a = s.rd a

namespace HighSame

theorem refl (s : State) : HighSame s s := fun _ _ => rfl

theorem trans {s t u : State} (h : HighSame s t) (k : HighSame t u) : HighSame s u := fun a ha => (k a ha).trans (h a ha)

theorem wr (s : State) {b : Nat} (v : Word) (h : b < 0x34010000) : HighSame s (s.wr b v) :=
  fun _ _ => rd_wr_ne s v (by omega)

theorem setEcc (s : State) (b : Nat) (u : Upset) : HighSame s (s.setEcc b u) := fun _ _ => rfl

theorem logErr (s : State) (m b : Nat) (wr : Bool) (c : Nat) : HighSame s (logErr s m b wr c) :=
  fun _ _ => rd_logErr s m b wr c (.inr (by omega))

theorem seenUpset (s : State) : HighSame s (seenUpset s).1 := by
  unfold Machine.seenUpset
  split <;> exact fun _ _ => rfl

theorem settleWord (s : State) (w : Nat) : HighSame s (s.settleWord w) := by
  unfold State.settleWord
  split
  · intro a _
    simp only [State.rd, State.setMem32, setBytes_regs]
    rfl
  · exact refl s

theorem rawRead (s : State) (b n : Nat) : HighSame s (rawAcc s b n none).1 := settleWord s _

theorem localRead (s : State) (b n : Nat) (u : Upset) : HighSame s (localAcc s b n none u).1 := by
  rw [localAcc, if_neg (by simp)]
  split
  · exact setEcc s b .double
  · exact (setEcc s b .good).trans (rawRead _ b n)

/-- Uncorrectable and corrected errors of an engine's scratchpad are counted in the engine (R124). -/
theorem scratchRead (s : State) {e : Nat} (he : e < 8) (b n : Nat) (u : Upset) : HighSame s (scratchAcc s e b n none u).1 := by
  have h := localRead s b n u
  have noted (t : State) (h : HighSame s t) (v w : Word) : HighSame s ((t.wr (PE_ECC e) v).wr (PE_IRQSTAT e) w) :=
    (h.trans (wr t v (by unfold PE_ECC; omega))).trans (wr _ w (by unfold PE_IRQSTAT; omega))
  unfold Machine.scratchAcc
  split
  next heq => simpa only [heq] using h
  next heq => exact noted _ (by simpa only [heq] using h) _ _
  next heq => exact noted _ (by simpa only [heq] using h) _ _

theorem memEccNote (s : State) {b : Nat} (hb : bankOf b < 32) (u : Upset) : HighSame s (memEccNote s b u) := by
  have hecc (t : State) (v : Word) : HighSame t (t.wr (MEM_ECC (bankOf b)) v) := wr t v (by unfold MEM_ECC; omega)
  have hirq (t : State) (v : Word) : HighSame t (t.wr MEM_IRQSTAT v) := wr t v (by decide)
  cases u with
  | good => exact refl s
  | single => exact ((hecc _ _).trans (hirq _ _)).trans (setEcc _ _ _)
  | double =>
    unfold Machine.memEccNote
    dsimp only
    split
    · exact ((hecc _ _).trans (hirq _ _)).trans (setEcc _ _ _)
    · exact ((((hecc _ _).trans (hirq _ _)).trans (hecc _ _)).trans (hecc _ _)).trans (setEcc _ _ _)

theorem ownerViolation (s : State) (m : Nat) {b : Nat} (hb : bankOf b < 32) (w : Bool) :
    HighSame s (ownerViolation s m b w) :=
  fun a ha => rd_ownerViolation s m b w (by unfold MEM_VIOL; omega) (by unfold MEM_IRQSTAT; omega)

theorem sharedRead (s : State) (m : Nat) {b : Nat} (hb : bankOf b < 32) (n : Nat) (u : Upset) :
    HighSame s (sharedAcc s m b n none u).1 := by
  unfold Machine.sharedAcc
  split
  · exact ownerViolation s m hb _
  · rw [if_neg (by simp)]
    split
    · exact memEccNote s hb .double
    · exact (memEccNote s hb _).trans (rawRead _ b n)

theorem memRead (s : State) (m b n : Nat) : HighSame s (memAcc s m b n none).1 := by
  have shared (hb : bankOf b < 32) (e : State × Upset) (he : HighSame s e.1) : HighSame s
      (match Machine.sharedAcc e.1 m b n none e.2 with
        | (s, .inl v) => (s, some v)
        | (s, .inr c) => (Machine.logErr s m b (none : Option Nat).isSome c, none)).1 := by
    have h := he.trans (sharedRead e.1 m hb n e.2)
    generalize sharedAcc e.1 m b n none e.2 = r at h ⊢
    obtain ⟨t, v | c⟩ := r
    · exact h
    · exact h.trans (logErr t m b _ c)
  unfold Machine.memAcc
  split
  · exact logErr s _ _ _ _
  · next r hr =>
    split_ifs with hadm hsh
    · exact logErr s _ _ _ _
    · exact logErr s _ _ _ _
    · exact shared (MoveSame.bank_of_shared (hr.trans (congrArg some (not_not.1 hsh)))) (s, .good) (refl s)
    · exact shared (MoveSame.bank_of_shared (hr.trans (congrArg some (not_not.1 hsh)))) _ (seenUpset s)

theorem hxWord (s : State) (n b k : Nat) : HighSame s (hxAcc s n b k none).1 := by
  have he : s.fl (HX_ENG n) 6 4 < 8 := fld_lt _ 6 4
  have logged (r : State × Option Nat) (e : Nat) : HighSame s r.1 → HighSame s (match r with
      | (s, none) => (Machine.logErr s (e + 1) b (none : Option Nat).isSome 5, none)
      | r => r).1 := by
    intro h
    obtain ⟨t, _ | v⟩ := r
    · exact h.trans (logErr t _ _ _ _)
    · exact h
  unfold Machine.hxAcc
  extract_lets e
  split_ifs
  · exact logErr s _ _ _ _
  · exact logged _ _ ((seenUpset s).trans (scratchRead _ he b k _))
  · exact memRead s _ _ _

end HighSame

/-- A relation that every access of a read keeps holds over the read: the accesses follow each other up to the first that fails. -/
theorem hxRead_keeps {R : State → State → Prop} (hrefl : ∀ t, R t t) (htrans : ∀ t u v, R t u → R u v → R t v) {n : Nat}
    (hacc : ∀ t b i, R t (hxAcc t n b i none).1) (s : State) (b k : Nat) : R s (hxRead s n b k).1 := by
  obtain ⟨acc, he⟩ : ∃ acc, acc = hxAcc := ⟨_, rfl⟩
  rw [hxRead, ← he]
  rw [← he] at hacc
  refine List.foldlRecOn (motive := fun r : State × Option (List Byte) => R s r.1) _ _ (hrefl s) ?_
  rintro ⟨t, _ | l⟩ ht c _
  · exact ht
  · have h := htrans _ _ _ ht (hacc t c.1 c.2)
    dsimp only
    generalize acc t n c.1 c.2 none = r at h ⊢
    obtain ⟨u, _ | v⟩ := r
    · exact h
    · exact h

theorem HighSame.hxRead (s : State) (n b k : Nat) : HighSame s (hxRead s n b k).1 :=
  hxRead_keeps .refl (fun _ _ _ => .trans) (fun t b i => .hxWord t n b i) s b k

/-- A relation that every read of a sequencer keeps, and every note of what it has fetched, holds over a fetch (R244). -/
theorem hxFetch_keeps {R : State → State → Prop} (htrans : ∀ t u v, R t u → R u v → R t v) {n : Nat}
    (hread : ∀ t b k, R t (hxRead t n b k).1) (hset : ∀ t p, R t (t.setHx n { t.hx n with pre := p }))
    (hirq : ∀ t, R t (hxIrq t n 0x80)) (s : State) (j : Nat) : R s (hxFetch s n j) := by
  have ofRead {t : State} {r : State × Option (List Byte)} {bad : State → State} {good : State → List Byte → State}
      (hb : ∀ u, R t u → R t (bad u)) (hg : ∀ u l, R t u → R t (good u l)) :
      R t r.1 → R t (match r with | (u, none) => bad u | (u, some l) => good u l) := by
    intro hr
    obtain ⟨u, _ | l⟩ := r
    · exact hb u hr
    · exact hg u l hr
  have noted (u : State) (p : Option HxPre) (hu : R s u) := htrans _ _ _ hu (hset u p)
  have hbad (u : State) (hu : R s u) := htrans _ _ _ (noted u (some { slot := j }) hu) (hirq _)
  unfold hxFetch
  split
  · exact hset s none
  · extract_lets bad
    refine ofRead hbad (fun u l hu => ?_) (hread s _ _)
    extract_lets e a master b
    split
    · exact noted u _ hu
    · refine ofRead hbad (fun v ctl hv => ?_) (htrans _ _ _ hu (hread u _ _))
      exact ofRead hbad (fun w d hw => noted w _ hw) (htrans _ _ _ hv (hread v _ _))

end Sys2Proof.Machine

/-! SUPPORT. What stays of a sequencer through a cycle (R239, R244, R247): its parameters, its status and the count of cycles, its own
instants and slots, and what its interrupts have raised. -/

namespace Sys2Proof.Machine

/-! ## What a step within a cycle leaves -/

/-- The offsets of a sequencer's registers that no step within a cycle writes: the parameters, STATUS and CYCNT, the counters,
and CNT_SU. -/
def staysInCycle (o : Nat) : Bool := decide (o < 0x44) || (decide (0x54 ≤ o) && decide (o < 0x60)) || o == 0x98

theorem lt_of_staysInCycle {o : Nat} (h : staysInCycle o = true) : o < 0x100 := by
  simp only [staysInCycle, Bool.or_eq_true, Bool.and_eq_true, decide_eq_true_eq, beq_iff_eq] at h
  omega

/-- `t` is `s` for sequencer `n`, but for what a step within a cycle may change. -/
structure InCycle (n : Nat) (s t : State) : Prop where
  rd : ∀ o, staysInCycle o = true → t.rd (HX_CTRL n + o) = s.rd (HX_CTRL n + o)
  irq : ∀ i, s.bt (HX_IRQSTAT n) i = true → t.bt (HX_IRQSTAT n) i = true
  hx : t.hx n = { s.hx n with tx := (t.hx n).tx, pre := (t.hx n).pre, noPoll := (t.hx n).noPoll }

namespace InCycle

variable {n : Nat} {s t u : State}

theorem refl (s : State) : InCycle n s s := ⟨fun _ _ => rfl, fun _ h => h, rfl⟩

theorem trans (h : InCycle n s t) (k : InCycle n t u) : InCycle n s u :=
  ⟨fun o ho => (k.rd o ho).trans (h.rd o ho), fun i hi => k.irq i (h.irq i hi), by rw [k.hx, h.hx]⟩

/-- A write at an address at which no register stays. -/
theorem wrAt (h : InCycle n s t) {a : Nat} (v : Word) (ha : ∀ o, staysInCycle o = true → HX_CTRL n + o ≠ a)
    (hi : HX_IRQSTAT n ≠ a) : InCycle n s (t.wr a v) := by
  refine h.trans ⟨fun o ho => rd_wr_ne t v (ha o ho), fun i hset => ?_, rfl⟩
  rw [State.bt, rd_wr_ne t v hi]
  exact hset

theorem wr (h : InCycle n s t) {o : Nat} (v : Word) (ho : staysInCycle o = false ∧ o ≠ 0x60) :
    InCycle n s (t.wr (HX_CTRL n + o) v) := by
  refine h.wrAt v (fun p hp he => ?_) fun he => ho.2 (Nat.add_left_cancel he).symm
  rw [Nat.add_left_cancel he, ho.1] at hp
  cases hp

theorem hxIrq (h : InCycle n s t) (v : Word) : InCycle n s (hxIrq t n v) := by
  refine h.trans ⟨fun o ho => rd_raise_ne t _ fun he => ?_, fun i hset => ?_, rfl⟩
  · rw [Nat.add_left_cancel he] at ho
    exact absurd ho (by decide)
  · rw [State.bt, Machine.hxIrq, State.raise, rd_wr_self, bitAt_or, ← State.bt, hset, Bool.true_or]

theorem setHx (h : InCycle n s t) {x : HxH}
    (hx : x = { t.hx n with tx := x.tx, pre := x.pre, noPoll := x.noPoll }) : InCycle n s (t.setHx n x) :=
  h.trans ⟨fun _ _ => rfl, fun _ hset => hset, by rw [hx_setHx_self]; exact hx⟩

/-- Writes outside the sequencer's own registers. -/
theorem ofOnlyWrites {W : Nat → Prop} (h : OnlyWrites W s t) (hW : ∀ o < 0x100, ¬W (HX_CTRL n + o)) : InCycle n s t := by
  refine ⟨fun o ho => h.rd _ (hW o (lt_of_staysInCycle ho)), fun i hset => ?_, by rw [h.hx]⟩
  rw [State.bt, h.rd _ (hW 0x60 (by decide))]
  exact hset

/-- A read of memory. -/
theorem hxRead (s : State) (n b k : Nat) : InCycle n s (hxRead s n b k).1 := by
  have h := HighSame.hxRead s n b k
  have hx : (Machine.hxRead s n b k).1.hx n = s.hx n := by simp only [State.hx, (HxSame.hxRead s n b k).hxH]
  refine ⟨fun o _ => h _ (by unfold HX_CTRL; omega), fun i hset => ?_, by rw [hx]⟩
  rw [State.bt, h _ (by unfold HX_IRQSTAT; omega)]
  exact hset

theorem hxFetch (s : State) (n j : Nat) : InCycle n s (hxFetch s n j) :=
  hxFetch_keeps (fun _ _ _ => .trans) (fun t b k => .hxRead t n b k) (fun t _ => (refl t).setHx rfl) (fun t => (refl t).hxIrq _) s j

/-! ## What it tells of the sequencer -/

theorem fl (h : InCycle n s t) {o : Nat} (hi lo : Nat) (ho : staysInCycle o = true) :
    t.fl (HX_CTRL n + o) hi lo = s.fl (HX_CTRL n + o) hi lo := congrArg (fld · hi lo) (h.rd o ho)

theorem bt (h : InCycle n s t) {o : Nat} (i : Nat) (ho : staysInCycle o = true) :
    t.bt (HX_CTRL n + o) i = s.bt (HX_CTRL n + o) i := congrArg (bitAt · i) (h.rd o ho)

theorem state (h : InCycle n s t) : hxState t n = hxState s n := h.fl _ _ rfl
theorem addr (h : InCycle n s t) : hxAddr t n = hxAddr s n := h.fl _ _ rfl
theorem dur (h : InCycle n s t) (len : Nat) : hxDur t n len = hxDur s n len := congrArg (10 * hxBytes len * ·) (h.fl _ _ rfl)

theorem slotPulse (h : InCycle n s t) : hxSlotPulse t n = hxSlotPulse s n := by
  unfold hxSlotPulse
  rw [h.bt (o := 0x34) _ rfl, h.fl (o := 0x34) _ _ rfl]

theorem ref (h : InCycle n s t) : (t.hx n).ref = (s.hx n).ref := by rw [h.hx]
theorem exp (h : InCycle n s t) : (t.hx n).exp = (s.hx n).exp := by rw [h.hx]
theorem await (h : InCycle n s t) : (t.hx n).await = (s.hx n).await := by rw [h.hx]
theorem due (h : InCycle n s t) : (t.hx n).due = (s.hx n).due := by rw [h.hx]

end InCycle

/-! ## Frames sent -/

section
variable (s : State) (n : Nat)

/-- The check of a frame runs in the sequencer's unit (R231). -/
theorem OnlyWrites.hxCheck (len mode : Nat) (l : List Byte) :
    OnlyWrites (ChkReg (HX_CTRL n)) s (hxChkRun (hxChkSet s n len mode) n l) := by
  have step (o : Nat) (ho : chkOffset o = true) (t : State) (h : OnlyWrites (ChkReg (HX_CTRL n)) s t) (v : Word) :
      OnlyWrites (ChkReg (HX_CTRL n)) s (t.wr (HX_CTRL n + o) v) := h.wr v (chkReg_offset _ ho)
  have hset : OnlyWrites (ChkReg (HX_CTRL n)) s (hxChkSet s n len mode) :=
    (step 0x10C rfl _ (step 0x108 rfl _ (step 0x104 rfl _ (step 0x100 rfl _ (refl s) _) _) _) _).trans (.chkInit _ _)
  have hfed := OnlyWrites.foldl (fun t (x : Byte) => OnlyWrites.chkFeedByte t (HX_CTRL n) x.toNat) l (hxChkSet s n len mode)
  exact (hset.trans hfed).trans (.chkEnd _ _)

theorem InCycle.hxCheck (len mode : Nat) (l : List Byte) : InCycle n s (hxChkRun (hxChkSet s n len mode) n l) :=
  .ofOnlyWrites (.hxCheck s n len mode l) fun o ho => by unfold ChkReg; omega

variable (typ slot start addr : Nat) (qok : Bool) (payload : List Byte)

/-- A transmission that begins at `start` ends d(LEN) later (R232). -/
theorem hxTransmit_tx : ((hxTransmit s n typ slot start addr qok payload).hx n).tx =
    some { typ := typ, slot := slot, endAt := start + hxDur s n payload.length,
           data := hxHead addr qok typ payload ++ hxCheck (hxHead addr qok typ payload) } := by
  have hdur := (InCycle.hxCheck s n payload.length 0 (hxHead addr qok typ payload)).dur payload.length
  rw [hxTransmit, hx_setHx_self, hdur]

theorem InCycle.hxTransmit : InCycle n s (hxTransmit s n typ slot start addr qok payload) :=
  (InCycle.hxCheck s n payload.length 0 _).setHx rfl

end

/-! ## Dawns -/

section
variable (s : State) (n : Nat)

theorem InCycle.hxGrantLost : InCycle n s (hxGrantLost s n) := (((refl s).wr _ (by decide)).wr _ (by decide)).setHx rfl

/-- The grant of a dawn writes the address of its slot, and the node's claim (R239, R268). -/
theorem InCycle.hxGrant (slot a : Nat) : InCycle n s (hxGrant s n slot a) := by
  have hset : InCycle n s (setTwAddr s n slot a) := by
    unfold setTwAddr
    split_ifs
    · exact refl s
    · refine (refl s).wrAt _ (fun o ho => ?_) (by unfold HX_IRQSTAT HX_TWADDR; omega)
      have hlt := lt_of_staysInCycle ho
      unfold HX_CTRL HX_TWADDR
      omega
  unfold Machine.hxGrant
  dsimp only
  split_ifs
  · exact refl s
  · exact (refl s).wr _ (by decide)
  · exact hset
  · exact (((hset.wr _ (by decide)).wr _ (by decide)).wr _ (by decide)).setHx rfl
  · exact hset.trans (.hxGrantLost _ n)
  · exact hset

theorem InCycle.hxTimes (ts : Nat × Nat × Nat) (ns sec : Nat) : InCycle n s (hxTimes s n ts ns sec) :=
  ((((refl s).wr _ (by decide)).wr _ (by decide)).wr _ (by decide)).wr _ (by decide)

end

end Sys2Proof.Machine

/-! SUPPORT. The end of a row at a sequencer: with no frame overdue it leaves the sequencers, and every register of theirs but DTXCTL and
IRQSTAT in any case. -/

namespace Sys2Proof.Machine

/-! ## What the end of a row leaves -/

theorem closeTouches_seq {n o : Nat} (hn : n < 32) (ho : o < 0x1000) (h : o ≠ 0x60 ∧ o ≠ 0x70) :
    closeTouches (HX_CTRL n + o) = false := by
  simp only [closeTouches, HX_CTRL, MEM_FT_STAT, MEM_DG_IRQSTAT, Bool.or_eq_false_iff, Bool.and_eq_false_iff,
    decide_eq_false_iff_not, beq_eq_false_iff_ne]
  omega

section
variable (u : State) {n : Nat} (hn : n < 32)
include hn

theorem fl_close_seq {o : Nat} (hi lo : Nat) (h : o < 0x1000 ∧ o ≠ 0x60 ∧ o ≠ 0x70) :
    (close u).fl (HX_CTRL n + o) hi lo = u.fl (HX_CTRL n + o) hi lo := close_fl u hi lo (closeTouches_seq hn h.1 h.2)

theorem bt_close_seq {o : Nat} (i : Nat) (h : o < 0x1000 ∧ o ≠ 0x60 ∧ o ≠ 0x70) :
    (close u).bt (HX_CTRL n + o) i = u.bt (HX_CTRL n + o) i := close_bt u i (closeTouches_seq hn h.1 h.2)

theorem hxState_close : hxState (close u) n = hxState u n := fl_close_seq u hn _ _ (by decide)

end

/-- With no frame overdue the end of a row leaves the sequencers. -/
theorem hx_close {u : State} (h : noOverdueFrame u) (n : Nat) : (close u).hx n = u.hx n := by
  obtain ⟨o, ho⟩ := settle_eq (ftCheck u)
  have hclose : (close u).hxH = u.hxH := by
    rw [close, hxComplete_of_noOverdue u h, ho]
    exact ftCheck_hxH u
  simp only [State.hx, hclose]

/-- A sequencer that drops its frame, or keeps it, makes none overdue. -/
theorem noOverdue_setHx {s : State} (h : noOverdueFrame s) {n : Nat} {x : HxH} (hx : x.tx = none ∨ x.tx = (s.hx n).tx) :
    noOverdueFrame (s.setHx n x) := by
  obtain hx | hx := hx
  · intro m hm y hy
    by_cases he : m = n
    · rw [he, hx_setHx_self, hx] at hy
      cases hy
    · rw [hx_setHx_ne s x he] at hy
      exact h m hm y hy
  · exact (HxTxSame.setHx hx).noOverdue h

/-! ## Registers and instants of a sequencer -/

section
variable (s : State) (n a : Nat)

@[simp] theorem hx_setFl (hi lo v : Nat) : (s.setFl a hi lo v).hx n = s.hx n := hx_wr s a n _
@[simp] theorem hx_setBt (i : Nat) (v : Bool) : (s.setBt a i v).hx n = s.hx n := hx_wr s a n _
@[simp] theorem hx_raise (v : Word) : (s.raise a v).hx n = s.hx n := hx_wr s a n _
@[simp] theorem hx_satInc (hi lo k : Nat) : (s.satInc a hi lo k).hx n = s.hx n := hx_wr s a n _
@[simp] theorem hx_wrapInc (hi lo k : Nat) : (s.wrapInc a hi lo k).hx n = s.hx n := hx_wr s a n _
@[simp] theorem hx_hxIrq (k : Nat) (v : Word) : (hxIrq s k v).hx n = s.hx n := hx_wr s _ n _

end

/-- The registers of a sequencer stand apart. -/
theorem seqReg_ne (n : Nat) {o p : Nat} (h : o ≠ p) : HX_CTRL n + o ≠ HX_CTRL n + p :=
  fun he => h (Nat.add_left_cancel he)

/-- A change of STATE shows in STATUS (R253). -/
theorem hxState_hxGo (s : State) (n : Nat) {st : Nat} (h : st < 16) : hxState (hxGo s n st) n = st := by
  unfold hxState hxGo hxIrq
  dsimp only
  rw [State.fl, rd_raise_ne _ _ (seqReg_ne n (o := 0x4) (by decide)), ← State.fl, fl_setFl_self _ _ _ _ _ (by decide) (by decide)]
  exact Nat.mod_eq_of_lt h

/-- A change of STATE writes STATUS and IRQSTAT alone. -/
theorem OnlyWrites.hxGo (s : State) (n st : Nat) : OnlyWrites (fun a => a = HX_STATUS n ∨ a = HX_IRQSTAT n) s (hxGo s n st) := by
  have hsilent := ite (c := st = 4) (refl s) ((refl s).wr (W := fun a => a = HX_STATUS n ∨ a = HX_IRQSTAT n)
    (putBit (s.rd (HX_STATUS n)) 27 false) (.inl rfl))
  exact (((ite hsilent (hsilent.wr _ (.inl rfl))).wr _ (.inl rfl)).wr _ (.inr rfl))

theorem rd_hxGo (s : State) (n st : Nat) {o : Nat} (h : o ≠ 4 ∧ o ≠ 0x60) :
    (hxGo s n st).rd (HX_CTRL n + o) = s.rd (HX_CTRL n + o) := by
  refine (OnlyWrites.hxGo s n st).rd _ ?_
  rintro (he | he)
  · exact seqReg_ne n h.1 he
  · exact seqReg_ne n h.2 he

@[simp] theorem hx_hxGo (s : State) (n k st : Nat) : (hxGo s k st).hx n = s.hx n := (OnlyWrites.hxGo s k st).hx n

end Sys2Proof.Machine

/-! SUPPORT. The commands of a sequencer (R240, R241, R253, R265, R266): what a write of each of its command registers does. -/

namespace Sys2Proof.Machine

/-! ## The row of a write that the sequencer accepts -/

/-- Of a sequencer's registers IRQROUTE alone is a route (Table 1.6). -/
theorem routeKind_seq {n o : Nat} (hn : n < 32) (ho : o < 0x1000 ∧ o ≠ 0x68) : routeKind (HX_CTRL n + o) = none := by
  unfold routeKind HX_CTRL TU_IRQROUTE IMG_IRQROUTE LDR_IRQROUTE SW_IRQROUTE MEM_IRQROUTE MEM_DG_IRQROUTE ARB_IRQROUTE
    HB_IRQROUTE SLOT_IRQROUTE PMU_IRQROUTE AON_IRQROUTE
  simp (disch := omega) only [if_neg]

theorem writeRow_hx {s u : State} {m : Master} {n o : Nat} {v : Word} (ho : o < 0x1000 ∧ o ≠ 0x68) (hn : n < 32)
    (h : opens s m (HX_CTRL n + o) (.hx n))
    (hw : hxWrite s n o v = (u, .ok 0)) (hs : noSteps u) :
    writeRow s m (HX_CTRL n + o) v = .next (answered u (.ok 0)) := by
  have hv : routed m (HX_CTRL n + o) (.hx n) v = v := by simp [routed, routeKind_seq hn ho]
  have hoff : (HX_CTRL n + o) % 0x1000 = o := by unfold HX_CTRL; omega
  refine writeRow_accept h (.inl rfl) ?_ hs
  rw [hv, targetWrite_hx, hoff, hw]

section
variable {u : State} {n : Nat} (r : Resp)

theorem hx_answered (h : noOverdueFrame u) (k : Nat) : (answered u r).hx k = u.hx k := hx_close (u := { u with resp := r }) h k

theorem rd_answered_noOverdue (hn : n < 32) (h : noOverdueFrame u) {o : Nat} (ho : o < 0x1000) :
    (answered u r).rd (HX_CTRL n + o) = u.rd (HX_CTRL n + o) :=
  rd_close_noOverdue (s := { u with resp := r }) h (by unfold HX_CTRL MEM_FT_STAT MEM_DG_IRQSTAT; omega)

end

/-! ## STATE (R241, R253) -/

section
variable (s : State) (n : Nat)

theorem hxGo_cycles (st : Nat) : (hxGo s n st).cycles = s.cycles := (OnlyWrites.hxGo s n st).cycles

theorem hxGo_ctxH (st : Nat) : (hxGo s n st).ctxH = s.ctxH := by rw [(OnlyWrites.hxGo s n st).eq]

theorem noOverdue_hxGo {s : State} (h : noOverdueFrame s) (st : Nat) : noOverdueFrame (hxGo s n st) :=
  HxTxSame.noOverdue ⟨hxGo_cycles s n st, fun k => by rw [hx_hxGo]⟩ h

theorem hxState_setHx (k : Nat) (h : HxH) : hxState (s.setHx k h) n = hxState s n := rfl

theorem hxState_hxListen : hxState (hxListen s n) n = 1 := by
  rw [hxListen, hxState_setHx, hxState_hxGo s n (by decide)]

theorem hx_hxListen : (hxListen s n).hx n =
    { s.hx n with since := s.cycles, brk := 0, tx := none, await := none, due := none } := by
  rw [hxListen, hx_setHx_self, hx_hxGo, hxGo_cycles]

theorem noOverdue_hxListen {s : State} (h : noOverdueFrame s) : noOverdueFrame (hxListen s n) :=
  noOverdue_setHx (noOverdue_hxGo n h 1) (.inl rfl)

theorem hxState_hxEnterStopped : hxState (hxEnterStopped s n) n = 0 := by
  rw [hxEnterStopped, hxState_setHx, hxState_hxGo s n (by decide)]

theorem hx_hxEnterStopped : (hxEnterStopped s n).hx n =
    { s.hx n with tx := none, await := none, due := none, brk := 0, stopping := false, first := false, pulse := 0 } := by
  rw [hxEnterStopped, hx_setHx_self, hx_hxGo]

theorem noOverdue_hxEnterStopped {s : State} (h : noOverdueFrame s) : noOverdueFrame (hxEnterStopped s n) :=
  noOverdue_setHx (noOverdue_hxGo n h 0) (.inl rfl)

theorem noSteps_hxEnterStopped {s : State} (h : noSteps s) : noSteps (hxEnterStopped s n) := by
  rw [hxEnterStopped, noSteps, State.setHx_ctxH, hxGo_ctxH]
  exact h

end

/-- A START whose schedule is read and obeys R241 enters LISTEN. -/
theorem hxStartOp_listens {s s0 s1 : State} {n : Nat} {l : List Byte} (hst : hxState s n = 0)
    (hs0 : s0 = s.setBt (HX_STATUS n) 25 false) (hread : hxRead s0 n (s0.rd (HX_SCHBASE n)).toNat (16 * hxSlots s0 n) = (s1, some l))
    (hok : startOk s1 n = true) (hbad : badSlot s1 n = none) :
    hxStartOp s n = (hxListen ((s1.setFl (HX_SUSTAT n) 1 0 0).setHx n { grants := (s1.hx n).grants }) n, .ok 0) := by
  subst hs0
  rw [hxStartOp, if_neg (not_not.2 hst)]
  simp only [hread, hok, hbad, Bool.true_eq_false, if_false]

/-- HALT, or a STOP that acts as it, of a sequencer that runs. -/
theorem hxHaltOp_running {s : State} {n : Nat} (h : hxState s n ≠ 0) : hxHaltOp s n = hxEnterStopped s n := if_neg h

theorem hxStopOp_active {s : State} {n : Nat} (h : hxState s n = 4) :
    hxStopOp s n = s.setHx n { s.hx n with stopping := true } := if_pos (.inl h)

theorem hxStopOp_outside {s : State} {n : Nat} (h : hxState s n = 1 ∨ hxState s n = 2 ∨ hxState s n = 3 ∨ hxState s n = 6) :
    hxStopOp s n = hxEnterStopped s n := by
  rw [hxStopOp, if_neg (by omega), hxHaltOp_running (by omega)]

/-! ## What the command registers make of a write -/

section
variable (s : State) (n : Nat) (v : Word)

/-- A command in HX_CTRL (Table 10.12). -/
theorem hxWrite_start : hxWrite s n 0 1 = hxStartOp s n := by
  rw [hxWrite, if_pos rfl, if_pos (by decide)]

theorem hxWrite_stop : hxWrite s n 0 2 = (hxStopOp s n, .ok 0) := by
  rw [hxWrite, if_pos rfl, if_neg (by decide), if_pos (by decide)]

theorem hxWrite_halt : hxWrite s n 0 3 = (hxHaltOp s n, .ok 0) := by
  rw [hxWrite, if_pos rfl, if_neg (by decide), if_neg (by decide), if_pos (by decide)]

theorem hxWrite_dtxctl : hxWrite s n 0x70 v = dtxWrite s n v := by
  simp (disch := omega) only [hxWrite, if_neg, if_true]

theorem hxWrite_claim : hxWrite s n 0xA0 v = claimWrite s n v := by
  simp (disch := omega) only [hxWrite, if_neg, if_true]

theorem hxWrite_grant : hxWrite s n 0xA4 v = grantWrite s n v := by
  simp (disch := omega) only [hxWrite, if_neg, if_true]

end

theorem regDesc_seq {n o : Nat} (hn : n < 32) (ho : o < 0x100) : regDesc (HX_CTRL n + o) = hxDesc o := by
  have hoff : (0x36000000 + n * 0x1000 + o) % 0x1000 = o := by omega
  unfold HX_CTRL regDesc
  rw [hoff]
  simp (disch := omega) only [if_neg, if_pos]

theorem regDesc_dtxctl {n : Nat} (hn : n < 32) : regDesc (HX_DTXCTL n) = some ⟨0xBF0000FF, 0, 0, 0, 0, 0⟩ :=
  regDesc_seq hn (o := 0x70) (by decide)

theorem regDesc_claim {n : Nat} (hn : n < 32) : regDesc (HX_CLAIM n) = some ⟨0x80FF0000, 0, 0, 0, 0, 0xFF⟩ :=
  regDesc_seq hn (o := 0xA0) (by decide)

end Sys2Proof.Machine

/-! SUPPORT. What a write of DTXCTL, CLAIM and GRANT does to its register and to the queue of grants, and the rows of O44. -/

namespace Sys2Proof.Machine

/-! ## DTXCTL, CLAIM and GRANT (R240, R265, R266) -/

/-- GO = 1 while no dusk frame is queued: the frame is queued, its failures counted from 0. -/
theorem dtxWrite_queue {s : State} {n : Nat} {v : Word} (hlen : fld v 7 0 < 128) (hgo : bitAt v 31 = true)
    (hfree : s.bt (HX_DTXCTL n) 31 = false) : dtxWrite s n v = ((s.softWrite (HX_DTXCTL n) v).setFl (HX_DTXCTL n) 15 8 0, .ok 0) := by
  rw [State.bt] at hfree
  rw [dtxWrite, if_neg (Nat.not_le.2 hlen)]
  simp only [hfree, hgo, Bool.false_eq_true, if_false, if_true]

/-- GO = 0 while no frame is in transmission. -/
theorem dtxWrite_withdraw {s : State} {n : Nat} {v : Word} (hlen : fld v 7 0 < 128) (hgo : bitAt v 31 = false)
    (hidle : (s.hx n).tx = none) (hsame : s.bt (HX_DTXCTL n) 31 = true → fld v 29 24 = s.fl (HX_DTXCTL n) 29 24 ∧
      fld v 7 0 = s.fl (HX_DTXCTL n) 7 0) : dtxWrite s n v = (s.softWrite (HX_DTXCTL n) v, .ok 0) := by
  rw [dtxWrite, if_neg (Nat.not_le.2 hlen), hidle]
  cases hq : s.bt (HX_DTXCTL n) 31 with
  | false => rw [State.bt] at hq; simp only [hq, hgo, Bool.false_eq_true, if_false]
  | true =>
    obtain ⟨hdst, hn⟩ := hsame hq
    rw [State.fl] at hdst hn
    rw [State.bt] at hq
    simp only [hq, hgo, hdst, hn, ne_eq, not_true_eq_false, or_self, Bool.false_eq_true, if_false, if_true]

/-- GO = 0 while no frame is in transmission. -/
theorem claimWrite_withdraw {s : State} {n : Nat} {v : Word} (hgo : bitAt v 31 = false) (hidle : (s.hx n).tx = none) :
    claimWrite s n v = (s.softWrite (HX_CLAIM n) v, .ok 0) := by
  rw [claimWrite, if_neg (Bool.not_eq_true _ ▸ hgo), hidle]
  simp only [Bool.and_false, Bool.false_eq_true, if_false]

/-- GO = 1 of a node that may claim: the claim stands, its sendings counted from 0 unless it stood before. -/
theorem claimWrite_claim {s : State} {n : Nat} {v : Word} (hgo : bitAt v 31 = true) (hrole : hxRole s n = 0) (hlo : 1 ≤ hxAddr s n)
    (hhi : hxAddr s n ≤ 62) (hst : hxState s n = 4) (hpolled : polledAddr s n (hxAddr s n) = false)
    (hheld : s.fl (HX_CLAIM n) 7 0 = 0xFF) (hslot : fld v 23 16 = 0xFF ∨ isTwilight s n (fld v 23 16) = true) :
    claimWrite s n v = (if s.bt (HX_CLAIM n) 31 then s.softWrite (HX_CLAIM n) v
      else (s.softWrite (HX_CLAIM n) v).setFl (HX_CLAIM n) 15 8 0, .ok 0) := by
  rw [claimWrite, if_pos hgo, if_pos ⟨hrole, hlo, hhi, hst, hpolled, hheld, hslot⟩]

/-- GRANT of a master with room in its queue. -/
theorem grantWrite_accepts {s : State} {n : Nat} {v : Word} (hst : hxState s n = 5) (hslot : isTwilight s n (fld v 23 16) = true)
    (haddr : fld v 5 0 ≠ 63) (hroom : (s.hx n).grants.length < 8) :
    grantWrite s n v = (if bitAt v 31 then hxQueue s n (fld v 23 16) (fld v 5 0) else s, .ok 0) := by
  rw [grantWrite, if_pos ⟨hst, hslot, haddr, hroom⟩]

theorem hxQueue_room {s : State} {n : Nat} (h : (s.hx n).grants.length < 8) (slot a : Nat) : hxQueue s n slot a =
    (s.setHx n { s.hx n with grants := (s.hx n).grants ++ [(slot, a, 0)] }).setFl (HX_GRSTAT n) 3 0
      ((s.hx n).grants.length + 1) := by
  rw [hxQueue, if_neg (Nat.not_le.2 h)]

/-- A field without RW bits of a register without other writable bits stays. -/
theorem fl_softWrite_kept (s : State) {a : Nat} {rw rc rst : Word} {hi lo : Nat} (h : regDesc a = some ⟨rw, 0, rc, 0, 0, rst⟩)
    (hrw : ∀ i, lo ≤ i → i ≤ hi → rw.getLsbD i = false) (h32 : hi < 32) (v : Word) :
    (s.softWrite a v).fl a hi lo = s.fl a hi lo := by
  rw [State.fl, rd_softWrite_self s h, writtenWord_of_rwo_zero rfl]
  refine fld_congr fun i hlo hhi => ?_
  have hi32 : i < 32 := by omega
  have hclear := hrw i hlo hhi
  rw [BitVec.getLsbD_eq_getElem hi32] at hclear
  have hones : (4294967295#32)[i] = true := BitVec.getElem_allOnes i hi32
  simp [hi32, hclear, hones]

theorem noOverdue_wr {s : State} (h : noOverdueFrame s) (a : Nat) (v : Word) : noOverdueFrame (s.wr a v) := h

/-- A plain write leaves the frames of the sequencers. -/
theorem noOverdue_softWrite {s : State} (h : noOverdueFrame s) (a : Nat) (v : Word) : noOverdueFrame (s.softWrite a v) := by
  obtain ⟨r, d, he⟩ := softWrite_eq s a v
  rw [he]
  exact h

theorem noSteps_softWrite {s : State} (h : noSteps s) (a : Nat) (v : Word) : noSteps (s.softWrite a v) := by
  rw [noSteps, softWrite_ctxH]
  exact h

/-! ## A grant queued (R266) -/

section
variable {s : State} {n : Nat} (h : (s.hx n).grants.length < 8) (slot a : Nat)
include h

theorem hxQueue_grants : ((hxQueue s n slot a).hx n).grants = (s.hx n).grants ++ [(slot, a, 0)] := by
  rw [hxQueue_room h, hx_setFl, hx_setHx_self]

theorem hxQueue_length : (hxQueue s n slot a).fl (HX_GRSTAT n) 3 0 = (s.hx n).grants.length + 1 := by
  rw [hxQueue_room h, fl_setFl_self _ _ _ _ _ (by decide) (by decide)]
  exact Nat.mod_eq_of_lt (by omega)

theorem noSteps_hxQueue (hs : noSteps s) : noSteps (hxQueue s n slot a) := by
  rw [hxQueue_room h]
  exact hs

theorem noOverdue_hxQueue (hf : noOverdueFrame s) : noOverdueFrame (hxQueue s n slot a) := by
  have hset : noOverdueFrame (s.setHx n { s.hx n with grants := (s.hx n).grants ++ [(slot, a, 0)] }) :=
    noOverdue_setHx hf (.inr rfl)
  rw [hxQueue_room h]
  exact noOverdue_wr hset _ _

end

/-! ## The rows -/

/-- The row of a write that the sequencer accepts keeps what the write left: the sequencers and their registers. -/
theorem writeRow_keeps {s u : State} {m : Master} {n o : Nat} {v : Word} (ho : o < 0x1000 ∧ o ≠ 0x68) (hn : n < 32)
    (h : opens s m (HX_CTRL n + o) (.hx n))
    (hw : hxWrite s n o v = (u, .ok 0)) (hs : noSteps u) (hf : noOverdueFrame u) :
    ∃ t, writeRow s m (HX_CTRL n + o) v = .next t ∧ t.resp = .ok 0 ∧ (∀ k, t.hx k = u.hx k) ∧
      ∀ p, p < 0x1000 → t.rd (HX_CTRL n + p) = u.rd (HX_CTRL n + p) :=
  ⟨_, writeRow_hx ho hn h hw hs, answered_resp _ _, hx_answered _ hf, fun _ hp => rd_answered_noOverdue _ hn hf hp⟩

section
variable {s : State} {m : Master} {n : Fin 32} {v : Word} (hs : noSteps s) (hf : noOverdueFrame s)
include hs hf

/-- STOP in ACTIVE waits for the end of the cycle. -/
theorem exec_hxStop_active (h : opens s m (HX_CTRL n.val) (.hx n.val)) (hst : hxState s n.val = 4) :
    ∃ t, exec (.hxStop m n) s = .next t ∧ hxState t n.val = 4 ∧ (t.hx n.val).stopping = true := by
  have hw : hxWrite s n.val 0 2 = (s.setHx n.val { s.hx n.val with stopping := true }, .ok 0) := by
    rw [hxWrite_stop, hxStopOp_active hst]
  obtain ⟨t, hrow, -, hhx, hrd⟩ := writeRow_keeps (o := 0) (by decide) n.isLt h hw hs (noOverdue_setHx hf (.inr rfl))
  refine ⟨t, hrow, ?_, ?_⟩
  · rw [hxState, State.fl, hrd 4 (by decide)]
    exact hst
  · rw [hhx, hx_setHx_self]

/-- A row that ends in the entry to STOPPED. -/
theorem writeRow_stops (h : opens s m (HX_CTRL n.val) (.hx n.val)) (hw : hxWrite s n.val 0 v = (hxEnterStopped s n.val, .ok 0)) :
    ∃ t, writeRow s m (HX_CTRL n.val) v = .next t ∧ hxState t n.val = 0 ∧ (t.hx n.val).tx = none := by
  obtain ⟨t, hrow, -, hhx, hrd⟩ := writeRow_keeps (o := 0) (by decide) n.isLt h hw (noSteps_hxEnterStopped _ hs)
    (noOverdue_hxEnterStopped _ hf)
  refine ⟨t, hrow, ?_, ?_⟩
  · rw [hxState, State.fl, hrd 4 (by decide)]
    exact hxState_hxEnterStopped s n.val
  · rw [hhx, hx_hxEnterStopped]

/-- GO = 1 in DTXCTL. -/
theorem exec_duskTxQueue_queues (h : opens s m (HX_DTXCTL n.val) (.hx n.val)) (hlen : fld v 7 0 < 128)
    (hfree : s.bt (HX_DTXCTL n.val) 31 = false) : ∃ t, exec (.duskTxQueue m n v) s = .next t ∧ t.resp = .ok 0 ∧
      t.bt (HX_DTXCTL n.val) 31 = true ∧ t.fl (HX_DTXCTL n.val) 29 24 = fld v 29 24 ∧
      t.fl (HX_DTXCTL n.val) 7 0 = fld v 7 0 ∧ t.fl (HX_DTXCTL n.val) 15 8 = 0 := by
  have hd := regDesc_dtxctl n.isLt
  have hgo : bitAt (putBit v 31 true) 31 = true := bitAt_putBit_self v 31 true (by decide)
  have hlow : fld (putBit v 31 true) 7 0 = fld v 7 0 := fld_putBit_apart v true (by decide) (by decide) (by decide)
  have hdst : fld (putBit v 31 true) 29 24 = fld v 29 24 := fld_putBit_apart v true (by decide) (by decide) (by decide)
  have hw := (hxWrite_dtxctl s n.val (putBit v 31 true)).trans (dtxWrite_queue (hlow.symm ▸ hlen) hgo hfree)
  obtain ⟨t, hrow, hresp, -, hrd⟩ := writeRow_keeps (o := 0x70) (by decide) n.isLt h hw
    (noSteps_wr (noSteps_softWrite hs _ _) _ _) (noOverdue_wr (noOverdue_softWrite hf _ _) _ _)
  have hend : t.rd (HX_DTXCTL n.val) = _ := (hrd 0x70 (by decide)).trans (rd_setFl_self _ _ _ _ _)
  refine ⟨t, hrow, hresp, ?_, ?_, ?_, ?_⟩
  · rw [State.bt, hend, bitAt_setFld_apart _ _ (by decide) (by decide) (by decide), ← State.bt,
      bt_softWrite_self s hd (by decide) (by decide), hgo]
  · rw [State.fl, hend, fld_setFld_apart _ _ (by decide) (by decide) (by decide) (by decide), ← State.fl,
      fl_softWrite_self s hd (by decide) (by decide), hdst]
  · rw [State.fl, hend, fld_setFld_apart _ _ (by decide) (by decide) (by decide) (by decide), ← State.fl,
      fl_softWrite_self s hd (by decide) (by decide), hlow]
  · rw [State.fl, hend, ← rd_setFl_self, ← State.fl, fl_setFl_self _ _ _ _ _ (by decide) (by decide), Nat.zero_mod]

/-- GO = 0 in DTXCTL. -/
theorem exec_duskTxWithdraw_withdraws (h : opens s m (HX_DTXCTL n.val) (.hx n.val)) (hlen : fld v 7 0 < 128)
    (hidle : (s.hx n.val).tx = none) (hsame : s.bt (HX_DTXCTL n.val) 31 = true → fld v 29 24 = s.fl (HX_DTXCTL n.val) 29 24 ∧
      fld v 7 0 = s.fl (HX_DTXCTL n.val) 7 0) :
    ∃ t, exec (.duskTxWithdraw m n v) s = .next t ∧ t.resp = .ok 0 ∧ t.bt (HX_DTXCTL n.val) 31 = false := by
  have hgo : bitAt (putBit v 31 false) 31 = false := bitAt_putBit_self v 31 false (by decide)
  have hlow : fld (putBit v 31 false) 7 0 = fld v 7 0 := fld_putBit_apart v false (by decide) (by decide) (by decide)
  have hdst : fld (putBit v 31 false) 29 24 = fld v 29 24 := fld_putBit_apart v false (by decide) (by decide) (by decide)
  have hw := (hxWrite_dtxctl s n.val (putBit v 31 false)).trans
    (dtxWrite_withdraw (hlow.symm ▸ hlen) hgo hidle (by rwa [hlow, hdst]))
  obtain ⟨t, hrow, hresp, -, hrd⟩ := writeRow_keeps (o := 0x70) (by decide) n.isLt h hw (noSteps_softWrite hs _ _)
    (noOverdue_softWrite hf _ _)
  refine ⟨t, hrow, hresp, ?_⟩
  rw [State.bt, hrd 0x70 (by decide), ← State.bt, bt_softWrite_self s (regDesc_dtxctl n.isLt) (by decide) (by decide), hgo]

/-- GO = 1 in CLAIM. -/
theorem exec_claimWrite_claims (h : opens s m (HX_CLAIM n.val) (.hx n.val)) (hrole : hxRole s n.val = 0)
    (hlo : 1 ≤ hxAddr s n.val) (hhi : hxAddr s n.val ≤ 62) (hst : hxState s n.val = 4)
    (hpolled : polledAddr s n.val (hxAddr s n.val) = false) (hheld : s.fl (HX_CLAIM n.val) 7 0 = 0xFF)
    (hslot : fld v 23 16 = 0xFF ∨ isTwilight s n.val (fld v 23 16) = true) : ∃ t, exec (.claimWrite m n v) s = .next t ∧
      t.resp = .ok 0 ∧ t.bt (HX_CLAIM n.val) 31 = true ∧ t.fl (HX_CLAIM n.val) 23 16 = fld v 23 16 := by
  have hd := regDesc_claim n.isLt
  have hgo : bitAt (putBit v 31 true) 31 = true := bitAt_putBit_self v 31 true (by decide)
  have hfld : fld (putBit v 31 true) 23 16 = fld v 23 16 := fld_putBit_apart v true (by decide) (by decide) (by decide)
  have hbit := (bt_softWrite_self s hd (i := 31) (by decide) (by decide) (putBit v 31 true)).trans hgo
  have hfield := (fl_softWrite_self s hd (hi := 23) (lo := 16) (by decide) (by decide) (putBit v 31 true)).trans hfld
  have hw := (hxWrite_claim s n.val (putBit v 31 true)).trans
    (claimWrite_claim hgo hrole hlo hhi hst hpolled hheld (hfld.symm ▸ hslot))
  by_cases hstood : s.bt (HX_CLAIM n.val) 31 = true
  · rw [if_pos hstood] at hw
    obtain ⟨t, hrow, hresp, -, hrd⟩ := writeRow_keeps (o := 0xA0) (by decide) n.isLt h hw (noSteps_softWrite hs _ _)
      (noOverdue_softWrite hf _ _)
    refine ⟨t, hrow, hresp, ?_, ?_⟩
    · rw [State.bt, hrd 0xA0 (by decide)]
      exact hbit
    · rw [State.fl, hrd 0xA0 (by decide)]
      exact hfield
  · rw [if_neg hstood] at hw
    obtain ⟨t, hrow, hresp, -, hrd⟩ := writeRow_keeps (o := 0xA0) (by decide) n.isLt h hw
      (noSteps_wr (noSteps_softWrite hs _ _) _ _) (noOverdue_wr (noOverdue_softWrite hf _ _) _ _)
    have hend : t.rd (HX_CLAIM n.val) = _ := (hrd 0xA0 (by decide)).trans (rd_setFl_self _ _ _ _ _)
    refine ⟨t, hrow, hresp, ?_, ?_⟩
    · rw [State.bt, hend, bitAt_setFld_apart _ _ (by decide) (by decide) (by decide)]
      exact hbit
    · rw [State.fl, hend, fld_setFld_apart _ _ (by decide) (by decide) (by decide) (by decide)]
      exact hfield

/-- GO = 0 in CLAIM. -/
theorem exec_claimWithdraw_withdraws (h : opens s m (HX_CLAIM n.val) (.hx n.val)) (hidle : (s.hx n.val).tx = none) :
    ∃ t, exec (.claimWithdraw m n v) s = .next t ∧ t.resp = .ok 0 ∧ t.bt (HX_CLAIM n.val) 31 = false ∧
      t.fl (HX_CLAIM n.val) 7 0 = s.fl (HX_CLAIM n.val) 7 0 := by
  have hd := regDesc_claim n.isLt
  have hgo : bitAt (putBit v 31 false) 31 = false := bitAt_putBit_self v 31 false (by decide)
  have hw := (hxWrite_claim s n.val (putBit v 31 false)).trans (claimWrite_withdraw hgo hidle)
  obtain ⟨t, hrow, hresp, -, hrd⟩ := writeRow_keeps (o := 0xA0) (by decide) n.isLt h hw (noSteps_softWrite hs _ _)
    (noOverdue_softWrite hf _ _)
  refine ⟨t, hrow, hresp, ?_, ?_⟩
  · rw [State.bt, hrd 0xA0 (by decide), ← State.bt, bt_softWrite_self s hd (by decide) (by decide), hgo]
  · rw [State.fl, hrd 0xA0 (by decide), ← State.fl, fl_softWrite_kept s hd (by decide) (by decide)]

/-- A write of HX_GRANT that a master accepts. -/
theorem exec_grantWrite_accepts (h : opens s m (HX_GRANT n.val) (.hx n.val)) (hst : hxState s n.val = 5)
    (hslot : isTwilight s n.val (fld v 23 16) = true) (haddr : fld v 5 0 ≠ 63) (hroom : (s.hx n.val).grants.length < 8) :
    ∃ t, exec (.grantWrite m n v) s = .next t ∧ t.resp = .ok 0 ∧
      (bitAt v 31 = true → (t.hx n.val).grants = (s.hx n.val).grants ++ [(fld v 23 16, fld v 5 0, 0)] ∧
        t.fl (HX_GRSTAT n.val) 3 0 = (s.hx n.val).grants.length + 1) ∧
      (bitAt v 31 = false → (t.hx n.val).grants = (s.hx n.val).grants) := by
  have hw := (hxWrite_grant s n.val v).trans (grantWrite_accepts hst hslot haddr hroom)
  cases hgo : bitAt v 31 with
  | true =>
    rw [hgo, if_pos rfl] at hw
    obtain ⟨t, hrow, hresp, hhx, hrd⟩ := writeRow_keeps (o := 0xA4) (by decide) n.isLt h hw (noSteps_hxQueue hroom _ _ hs)
      (noOverdue_hxQueue hroom _ _ hf)
    refine ⟨t, hrow, hresp, fun _ => ⟨?_, ?_⟩, nofun⟩
    · rw [hhx, hxQueue_grants hroom]
    · rw [State.fl, hrd 0xA8 (by decide), ← State.fl, hxQueue_length hroom]
  | false =>
    rw [hgo, if_neg nofun] at hw
    obtain ⟨t, hrow, hresp, hhx, -⟩ := writeRow_keeps (o := 0xA4) (by decide) n.isLt h hw hs hf
    exact ⟨t, hrow, hresp, nofun, fun _ => by rw [hhx]⟩

end

/-- A read of the schedule makes no frame overdue. -/
theorem noOverdue_hxRead {s s1 : State} {n a len : Nat} {l : Option (List Byte)} (h : noOverdueFrame s)
    (hread : hxRead s n a len = (s1, l)) : noOverdueFrame s1 := by
  have hsame := (HxSame.hxRead s n a len).txSame
  rw [hread] at hsame
  exact hsame.noOverdue h

theorem noSteps_hxListen {s : State} (h : noSteps s) (n : Nat) : noSteps (hxListen s n) := by
  rw [hxListen, noSteps, State.setHx_ctxH, hxGo_ctxH]
  exact h

/-- START of a good schedule. -/
theorem exec_hxStart_listens {s s0 s1 : State} {m : Master} {n : Fin 32} {l : List Byte} (hf : noOverdueFrame s)
    (h : opens s m (HX_CTRL n.val) (.hx n.val)) (hst : hxState s n.val = 0) (hs0 : s0 = s.setBt (HX_STATUS n.val) 25 false)
    (hread : hxRead s0 n.val (s0.rd (HX_SCHBASE n.val)).toNat (16 * hxSlots s0 n.val) = (s1, some l)) (hs : noSteps s1)
    (hok : startOk s1 n.val = true) (hbad : badSlot s1 n.val = none) : ∃ t, exec (.hxStart m n) s = .next t ∧ t.resp = .ok 0 ∧
      hxState t n.val = 1 ∧ (t.hx n.val).tx = none ∧ (t.hx n.val).since = s1.cycles := by
  have hf0 : noOverdueFrame s0 := by
    rw [hs0]
    exact noOverdue_wr hf _ _
  have hf1 : noOverdueFrame s1 := noOverdue_hxRead hf0 hread
  have hw := (hxWrite_start s n.val).trans (hxStartOp_listens hst hs0 hread hok hbad)
  have hset : noOverdueFrame ((s1.setFl (HX_SUSTAT n.val) 1 0 0).setHx n.val { grants := (s1.hx n.val).grants }) :=
    noOverdue_setHx (s := s1.setFl (HX_SUSTAT n.val) 1 0 0) hf1 (.inl rfl)
  have hcycles : ((s1.setFl (HX_SUSTAT n.val) 1 0 0).setHx n.val { grants := (s1.hx n.val).grants }).cycles = s1.cycles := rfl
  have hsteps : noSteps ((s1.setFl (HX_SUSTAT n.val) 1 0 0).setHx n.val { grants := (s1.hx n.val).grants }) := hs
  generalize (s1.setFl (HX_SUSTAT n.val) 1 0 0).setHx n.val { grants := (s1.hx n.val).grants } = u at hw hset hcycles hsteps
  obtain ⟨t, hrow, hresp, hhx, hrd⟩ := writeRow_keeps (o := 0) (by decide) n.isLt h hw (noSteps_hxListen hsteps _)
    (noOverdue_hxListen _ hset)
  refine ⟨t, hrow, hresp, ?_, ?_, ?_⟩
  · rw [hxState, State.fl, hrd 4 (by decide)]
    exact hxState_hxListen _ n.val
  · rw [hhx, hx_hxListen]
  · rw [hhx, hx_hxListen, hcycles]

/-- Settles O44, row by row: each is a write of a command register of the sequencer, which accepts it, and the end of the row finds no
frame overdue. -/
theorem huxonCommands : Obligations.HuxonCommands := by
  unfold Obligations.HuxonCommands
  rintro s m n k v rfl hs hf
  refine ⟨fun h => ⟨fun s0 s1 l hst hs0 hread hs1 hok hbad => exec_hxStart_listens hf h hst hs0 hread hs1 hok hbad,
    fun hst => exec_hxStop_active hs hf h hst, fun hst => ?_, fun hst => ?_⟩,
    fun h hlen => ⟨fun hfree => exec_duskTxQueue_queues hs hf h hlen hfree,
      fun hidle hsame => exec_duskTxWithdraw_withdraws hs hf h hlen hidle hsame⟩,
    fun h => ⟨fun hrole hlo hhi hst hpolled hheld hslot => exec_claimWrite_claims hs hf h hrole hlo hhi hst hpolled hheld hslot,
      fun hidle => exec_claimWithdraw_withdraws hs hf h hidle⟩,
    fun h hst hslot haddr hroom => exec_grantWrite_accepts hs hf h hst hslot haddr hroom⟩
  · obtain ⟨t, hrow, hstopped, -⟩ := writeRow_stops hs hf h (v := 2) (by rw [hxWrite_stop, hxStopOp_outside hst])
    exact ⟨t, hrow, hstopped⟩
  · exact writeRow_stops hs hf h (v := 3) (by rw [hxWrite_halt, hxHaltOp_running hst])

end Sys2Proof.Machine

/-! SUPPORT. The rows of a sequencer's frames and timers: each acts on a sequencer that takes part (R261). The begin of a cycle, and the
dawn a master sends (R233, R236, R246, R247). -/

namespace Sys2Proof.Machine

/-! ## The rows -/

theorem hxLive_of_state {u : State} {k : Nat} (hr : inReset u (blkHx k) = false) (h : hxState u k ≠ 0 ∧ hxState u k ≠ 6) :
    hxLive u k = true := by
  simp [hxLive, hr, h]

theorem done_hxRow {u : State} {k : Nat} {f : State → State × List Nat} (h : hxLive u k = true) :
    done (hxRow u k f) = .next (close (pulsesNow (f u).1 (f u).2)) := congrArg done (if_pos h)

theorem done_hxEvent {u : State} {k : Nat} {f : State → State} (h : hxLive u k = true) :
    done (hxEvent u k f) = .next (close (f u)) := congrArg done (if_pos h)

theorem done_hxOut {u : State} {k : Nat} {f : State → State} (h : inReset u (blkHx k) = false) :
    done (hxOut u k f) = .next (close (f u)) := congrArg done (if_neg (Bool.not_eq_true _ ▸ h))

/-! ## Fields apart -/

section
variable (s : State) (a : Nat) {hi lo hi' lo' : Nat}

theorem fl_setFl_apart (v : Nat) (h : lo ≤ hi) (h32 : hi < 32) (hl : lo' ≤ hi')
    (hd : hi < lo' ∨ hi' < lo) : (s.setFl a hi lo v).fl a hi' lo' = s.fl a hi' lo' := by
  rw [State.fl, rd_setFl_self, fld_setFld_apart _ _ h h32 hl hd, State.fl]

theorem fl_setBt_apart (b : Bool) {i : Nat} (h : i < 32) (hl : lo ≤ hi)
    (hd : i < lo ∨ hi < i) : (s.setBt a i b).fl a hi lo = s.fl a hi lo := by
  rw [State.fl, rd_setBt_self, fld_putBit_apart _ _ h hl hd, State.fl]

end

/-! ## The begin of a cycle (R233) -/

section
variable (s : State) (n ref cy : Nat)

theorem hx_hxCycle : (hxCycle s n ref cy).hx n =
    { s.hx n with ref := ref, await := none, due := none, next := 0, recd := [],
                  claimed := false, pulse := 0, pre := none, late := none } := by
  simp only [hxCycle, hx_setHx_self, hx_setFl, hx_wrapInc]

theorem rd_hxCycle {o : Nat} (h : o ≠ 0x40 ∧ o ≠ 0x5C ∧ o ≠ 4) :
    (hxCycle s n ref cy).rd (HX_CTRL n + o) = s.rd (HX_CTRL n + o) := by
  obtain ⟨hcy, hcnt, hst⟩ := h
  rw [hxCycle, rd_setHx, rd_setFl_ne _ _ _ _ (seqReg_ne n hst), rd_wrapInc_ne _ _ _ _ (seqReg_ne n hcnt),
    rd_setFl_ne _ _ _ _ (seqReg_ne n hcy)]

theorem cycnt_hxCycle : (hxCycle s n ref cy).fl (HX_CYCNT n) 15 0 = cy % 65536 := by
  rw [hxCycle, State.fl, rd_setHx, rd_setFl_ne _ _ _ _ (seqReg_ne n (o := 0x40) (by decide)),
    rd_wrapInc_ne _ _ _ _ (seqReg_ne n (o := 0x40) (by decide)),
    ← State.fl, fl_setFl_self _ _ _ _ _ (by decide) (by decide)]
  rfl

theorem rd_status_hxCycle : (hxCycle s n ref cy).rd (HX_STATUS n) = setFld (s.rd (HX_STATUS n)) 15 14 0 := by
  rw [hxCycle, rd_setHx, rd_setFl_self, rd_wrapInc_ne _ _ _ _ (seqReg_ne n (o := 4) (by decide)),
    rd_setFl_ne _ _ _ _ (seqReg_ne n (o := 4) (by decide))]

theorem hxState_hxCycle : hxState (hxCycle s n ref cy) n = hxState s n := by
  rw [hxState, State.fl, rd_status_hxCycle, fld_setFld_apart _ _ (by decide) (by decide) (by decide) (by decide), hxState, State.fl]

theorem hxDur_hxCycle (len : Nat) : hxDur (hxCycle s n ref cy) n len = hxDur s n len :=
  congrArg (fun w => 10 * hxBytes len * fld w 10 0) (rd_hxCycle s n ref cy (o := 8) (by decide))

end

/-! ## A dawn sent (R236) -/

/-- The count that the next dawn of a master carries (R236, Table 11.1). -/
def nextCycnt (s : State) (n : Nat) : Nat := if (s.hx n).first then 0 else (s.fl (HX_CYCNT n) 15 0 + 1) % 65536

/-- The state in which a dawn from cycle `at_` begins its cycle, with `rest` the grants that stay queued. -/
def dawnCycle (s : State) (n at_ : Nat) (rest : List (Nat × Nat × Nat)) : State :=
  hxCycle (s.setHx n { s.hx n with grants := rest, first := false, exp := at_ + hxLen s n }) n at_ (nextCycnt s n)

/-- A dawn begins a cycle, raises DAWN within it, goes out as 16 bytes of payload, and the first slot is fetched. -/
theorem hxSendDawn_steps (s : State) (n at_ : Nat) (takeover : Bool) : ∃ rest b addr payload,
    InCycle n (dawnCycle s n at_ rest) b ∧ b.bt (HX_IRQSTAT n) 0 = true ∧ payload.length = 16 ∧
      (hxSendDawn s n at_ takeover).1 = hxFetch (hxTransmit b n 1 0xFF at_ addr false payload) n 0 := by
  unfold hxSendDawn
  extract_lets h
  split
  next slot a rest first heq =>
    refine ⟨rest, _, _, _, ?_, bt_raise _ (by decide), ?_, rfl⟩
    · refine (InCycle.trans ?_ (.hxTimes _ n _ _ _)).hxIrq _
      have hwr := ((InCycle.refl (n := n) (dawnCycle s n at_ rest)).wr (o := 0xA8)
        (setFld ((dawnCycle s n at_ rest).rd (HX_GRSTAT n)) 3 0 rest.length) (by decide)).wr (o := 0x94) 0 (by decide)
      split_ifs
      · exact hwr.trans (.hxGrant _ n slot a)
      · exact hwr
    · simp only [List.length_append, length_leBytes]

section
variable (s : State) (n at_ : Nat) (takeover : Bool)

/-- The cycle a dawn begins stays begun. -/
theorem hxSendDawn_inCycle : ∃ rest, InCycle n (dawnCycle s n at_ rest) (hxSendDawn s n at_ takeover).1 := by
  obtain ⟨rest, b, addr, payload, hb, -, -, he⟩ := hxSendDawn_steps s n at_ takeover
  exact ⟨rest, he ▸ (hb.trans (.hxTransmit b n _ _ _ _ _ _)).trans (.hxFetch _ n 0)⟩

theorem hxSendDawn_state : hxState (hxSendDawn s n at_ takeover).1 n = hxState s n := by
  obtain ⟨rest, h⟩ := hxSendDawn_inCycle s n at_ takeover
  rw [h.state, dawnCycle, hxState_hxCycle, hxState_setHx]

theorem hxSendDawn_ref : ((hxSendDawn s n at_ takeover).1.hx n).ref = at_ := by
  obtain ⟨rest, h⟩ := hxSendDawn_inCycle s n at_ takeover
  rw [h.ref, dawnCycle, hx_hxCycle]

theorem hxSendDawn_exp : ((hxSendDawn s n at_ takeover).1.hx n).exp = at_ + hxLen s n := by
  obtain ⟨rest, h⟩ := hxSendDawn_inCycle s n at_ takeover
  rw [h.exp, dawnCycle, hx_hxCycle, hx_setHx_self]

theorem hxSendDawn_cycnt (h : (s.hx n).first = false) :
    (hxSendDawn s n at_ takeover).1.fl (HX_CYCNT n) 15 0 = (s.fl (HX_CYCNT n) 15 0 + 1) % 65536 := by
  obtain ⟨rest, hin⟩ := hxSendDawn_inCycle s n at_ takeover
  rw [hin.fl (o := 0x40) _ _ rfl, dawnCycle, cycnt_hxCycle, nextCycnt, h, if_neg Bool.false_ne_true, Nat.mod_mod]

theorem hxSendDawn_irq : (hxSendDawn s n at_ takeover).1.bt (HX_IRQSTAT n) 0 = true := by
  obtain ⟨rest, b, addr, payload, -, hirq, -, he⟩ := hxSendDawn_steps s n at_ takeover
  rw [he]
  exact ((InCycle.hxTransmit b n _ _ _ _ _ _).trans (.hxFetch _ n 0)).irq 0 hirq

theorem hxSendDawn_tx : ((hxSendDawn s n at_ takeover).1.hx n).tx.map (fun x => (x.typ, x.endAt)) =
    some (1, at_ + hxDur s n 16) := by
  obtain ⟨rest, b, addr, payload, hb, -, hlen, he⟩ := hxSendDawn_steps s n at_ takeover
  have hdur : hxDur b n 16 = hxDur s n 16 := (hb.dur 16).trans (hxDur_hxCycle _ n _ _ 16)
  rw [he, (HxTxSame.hxFetch _ n 0).tx, hxTransmit_tx, hlen, hdur, Option.map_some]

end

/-- DAWN_SEND of a master without CEN whose dawn is due (R236). -/
theorem dawnSend_due {u : State} {k : Nat} (hst : hxState u k = 5) (hstop : (u.hx k).stopping = false)
    (hcen : u.bt (HX_EVCFG k) 15 = false) (hexp : (u.hx k).exp ≤ u.cycles) :
    dawnSend u k = hxSendDawn u k (u.hx k).exp false := by
  rw [dawnSend]
  simp only [hst, hstop, hcen, hexp, ne_eq, not_true_eq_false, Bool.false_eq_true, or_self, if_false, if_true]

/-- BACKUP_TAKEOVER of a standby in ACTIVE at its instant (R263). -/
theorem takeover_due {u : State} {k i : Nat} (hi : standby u k = some i) (hst : hxState u k = 4) (hbk : hxBk u k ≠ 0)
    (hsil : u.bt (HX_STATUS k) 27 = false) (hstop : (u.hx k).stopping = false)
    (hat : (u.hx k).ref + hxLen u k + i * hxBk u k ≤ u.cycles) (hheard : (u.hx k).heard + hxW u k ≤ (u.hx k).ref + hxLen u k) :
    takeover u k = hxSendDawn ((((hxGo u k 5).satInc (HX_CNT_SU k) 15 8).raise (HX_SUSTAT k) 0x20000000).setHx k
      { u.hx k with lost := 0 }) k ((u.hx k).ref + hxLen u k + i * hxBk u k) true := by
  have hno : ¬(hxState u k ≠ 4 ∨ hxBk u k = 0 ∨ u.bt (HX_STATUS k) 27 = true ∨ (u.hx k).stopping = true ∨
      u.cycles < (u.hx k).ref + hxLen u k + i * hxBk u k ∨ (u.hx k).ref + hxLen u k + 1 ≤ (u.hx k).heard + hxW u k) := by
    simp only [hst, hbk, hsil, hstop, ne_eq, not_true_eq_false, Bool.false_eq_true, false_or]
    omega
  rw [takeover]
  simp only [hi, if_neg hno, hx_raise, hx_satInc, hx_hxGo]

theorem takeover_state (u : State) (k at_ : Nat) (x : HxH) : hxState (hxSendDawn ((((hxGo u k 5).satInc (HX_CNT_SU k) 15 8).raise
    (HX_SUSTAT k) 0x20000000).setHx k x) k at_ true).1 k = 5 := by
  rw [hxSendDawn_state, hxState_setHx, hxState, State.fl, rd_raise_ne _ _ (seqReg_ne k (o := 4) (by decide)),
    rd_satInc_ne _ _ _ _ (seqReg_ne k (o := 4) (by decide))]
  exact hxState_hxGo u k (by decide)

end Sys2Proof.Machine

/-! SUPPORT. The slots of a sequencer (R237, R238, R240, R244, R245): the poll of a master, the response of a node, a dusk message, and the
close of a window; and the dawn that LISTEN accepts (R258). -/

namespace Sys2Proof.Machine

/-! ## Polls and responses (R238, R244) -/

theorem InCycle.hxFetched (s : State) (n j : Nat) : InCycle n s (hxFetched s n j).1 := by
  unfold Machine.hxFetched
  dsimp only
  split
  · split
    · exact refl s
    · exact .hxFetch s n j
  · exact .hxFetch s n j

/-- A master sends the poll it has fetched of a slot that serves the address of another. -/
theorem pollSlot_sends {s : State} {n j a : Nat} {p : HxPre} (at_ : Nat) (hok : p.ok = true)
    (ha : a = (if (hxEntryOf p.entry).kind = 2 then twAddr s n j else (hxEntryOf p.entry).addr % 64)) (h0 : a ≠ 0)
    (hown : a ≠ hxAddr s n) : ∃ t, InCycle n s t ∧ (t.hx n).tx.map (fun x => (x.typ, x.slot, x.endAt)) =
      some (2, j, at_ + hxDur s n p.data.length) ∧
      pollSlot s n j at_ p false = (t.setHx n { t.hx n with await := some j }, hxSlotPulse t n) := by
  refine ⟨hxTransmit s n 2 j at_ a p.qok p.data, .hxTransmit s n _ _ _ _ _ _, ?_, ?_⟩
  · rw [hxTransmit_tx, Option.map_some]
  · rw [pollSlot]
    simp only [← ha, hok, h0, hown, Bool.true_eq_false, Bool.false_eq_true, if_false]

/-- POLL_SEND of a slot that has started, fetched without error (R238). -/
theorem pollSend_polls {u s1 s2 : State} {k j a : Nat} {q : HxPre} (hj : j = (u.hx k).next) (hst : hxState u k = 5)
    (hfirst : (u.hx k).first = false) (hslots : j < hxSlots u k) (hat : (u.hx k).ref + (hxEntry u k j).start ≤ u.cycles)
    (hs1 : s1 = ((u.setHx k { u.hx k with next := j + 1, await := none, late := none }).setFl (HX_STATUS k) 23 16 j).setFl
      (HX_STATUS k) 15 14 1) (hfetched : hxFetched s1 k j = (s2, q)) (hok : q.ok = true)
    (ha : a = (if (hxEntryOf q.entry).kind = 2 then twAddr s2 k j else (hxEntryOf q.entry).addr % 64)) (h0 : a ≠ 0)
    (hown : a ≠ hxAddr s2 k) : ∃ v, pollSend u k false = (v, hxSlotPulse v k) ∧ (v.hx k).await = some j ∧
      (v.hx k).tx.map (fun x => (x.typ, x.slot, x.endAt)) =
        some (2, j, (u.hx k).ref + (hxEntry u k j).start + hxDur s2 k q.data.length) := by
  obtain ⟨t, -, htx, hpoll⟩ := pollSlot_sends ((u.hx k).ref + (hxEntry u k j).start) hok ha h0 hown
  have hnext := InCycle.hxFetch (t.setHx k { t.hx k with await := some j }) k (j + 1)
  refine ⟨hxFetch (t.setHx k { t.hx k with await := some j }) k (j + 1), ?_, ?_, ?_⟩
  · have hgo : ¬(hxState u k ≠ 5 ∨ (u.hx k).first = true ∨ hxSlots u k ≤ j ∨
        u.cycles < (u.hx k).ref + (hxEntry u k j).start) := by
      simp only [hst, hfirst, ne_eq, not_true_eq_false, Bool.false_eq_true, false_or]
      omega
    rw [hj] at hgo
    rw [pollSend, if_neg hgo, ← hj]
    dsimp only at hs1 ⊢
    rw [← hs1, hfetched]
    dsimp only
    rw [hpoll, hnext.slotPulse]
    rfl
  · rw [hnext.await, hx_setHx_self]
  · rw [(HxTxSame.hxFetch _ k (j + 1)).tx, hx_setHx_self, htx]

/-- RESP_SEND at the action point of a node that is not silent, fetched without error (R238, R261). -/
theorem respSend_responds {u s1 s3 : State} {k j : Nat} {q : HxPre} (hdue : (u.hx k).due = some j) (hst : hxState u k = 4)
    (hat : (u.hx k).ref + (hxEntry u k j).start + actionOff u k (hxEntry u k j) ≤ u.cycles) (hsil : u.bt (HX_STATUS k) 27 = false)
    (hs1 : s1 = u.setHx k { u.hx k with due := none }) (hfetched : hxFetched s1 k j = (s3, q)) (hok : q.ok = true) :
    ∃ v, respSend u k false = (v, hxSlotPulse s1 k) ∧ (v.hx k).due = none ∧
      (v.hx k).tx.map (fun x => (x.typ, x.slot, x.endAt)) =
        some (3, j, (u.hx k).ref + (hxEntry u k j).start + actionOff u k (hxEntry u k j) + hxDur s3 k q.data.length) := by
  have hin := InCycle.hxFetched s1 k j
  rw [hfetched] at hin
  have hsend := hin.trans (.hxTransmit s3 k 3 j ((u.hx k).ref + (hxEntry u k j).start + actionOff u k (hxEntry u k j))
    (hxAddr s1 k) q.qok q.data)
  refine ⟨hxTransmit s3 k 3 j ((u.hx k).ref + (hxEntry u k j).start + actionOff u k (hxEntry u k j)) (hxAddr s1 k) q.qok q.data,
    ?_, ?_, ?_⟩
  · have hsil1 : s1.bt (HX_STATUS k) 27 = false := by rw [hs1]; exact hsil
    rw [respSend, hdue]
    dsimp only at hs1 ⊢
    rw [if_neg (by omega), ← hs1, hsil1, hfetched, if_neg Bool.false_ne_true, if_neg Bool.false_ne_true, if_pos hok]
  · rw [hsend.due, hs1, hx_setHx_self]
  · rw [hxTransmit_tx, Option.map_some]

/-! ## Windows (R245) and the dusk (R237, R240) -/

theorem windowClose_master {u : State} {k j : Nat} (hst : hxState u k = 5) (hslots : j < hxSlots u k)
    (hrec : (u.hx k).recd.contains j = false) (hawait : (u.hx k).await = some j)
    (hat : (u.hx k).ref + (hxEntry u k j).start + actionOff u k (hxEntry u k j) + hxW u k ≤ u.cycles) : windowClose u k j =
      hxRecord (u.setHx k { u.hx k with await := none, late := some j }) k j 1 false none [] := by
  rw [windowClose, if_neg (by rw [hrec]; simp only [Bool.false_eq_true, or_false]; omega), if_pos ⟨hst, hawait, hat⟩]

theorem windowClose_node {u : State} {k j : Nat} (hst : hxState u k = 4) (hslots : j < hxSlots u k)
    (hrec : (u.hx k).recd.contains j = false) (haddr : slotAddr u k j = hxAddr u k) (h63 : hxAddr u k ≠ 63)
    (hat : (u.hx k).ref + (hxEntry u k j).start + hxW u k ≤ u.cycles) : windowClose u k j =
      hxRecord (u.setHx k { u.hx k with late := some j }) k j 1 false none [] := by
  rw [windowClose, if_neg (by rw [hrec]; simp only [Bool.false_eq_true, or_false]; omega),
    if_neg (fun h => by omega), if_pos ⟨hst, haddr, h63, hat⟩]

/-- DUSK_SEND of a queued message, with no claim before it, once its address' idle time has passed (R240). -/
theorem duskSend_message {u : State} {k : Nat} (hst : hxState u k = 4 ∨ hxState u k = 5) (hphase : u.fl (HX_STATUS k) 15 14 = 2)
    (hsil : u.bt (HX_STATUS k) 27 = false) (h63 : hxAddr u k ≠ 63) (htx : (u.hx k).tx = none) (hclaim : u.bt (HX_CLAIM k) 31 = false)
    (hgo : u.bt (HX_DTXCTL k) 31 = true)
    (hidle : max ((u.hx k).ref + hxDusk u k) (u.hx k).idleFrom + (12 + 2 * hxAddr u k) * hxTb u k ≤ u.cycles)
    (hfits : u.cycles + hxDur u k (duskPayload u k).length + hxG u k ≤ (u.hx k).ref + hxLen u k) :
    duskSend u k = hxTransmit u k 6 0xFF u.cycles (hxAddr u k) false (duskPayload u k) := by
  rw [duskSend]
  simp only [hclaim, hphase, hsil, h63, htx, hgo, Bool.false_and, Bool.false_eq_true, Bool.true_eq_false, Option.isSome_none,
    and_false, ne_eq, not_true_eq_false, false_or, if_false]
  exact if_neg (by omega)

/-- DUSK_START at the dusk offset of a cycle that has not reached its dusk (R237). -/
theorem duskStart_begins {u : State} {k : Nat} (hst : hxState u k = 4 ∨ hxState u k = 5) (hfirst : (u.hx k).first = false)
    (hat : (u.hx k).ref + hxDusk u k ≤ u.cycles) (hphase : u.fl (HX_STATUS k) 15 14 ≠ 2) : duskStart u k =
      hxIrq ((u.setHx k { u.hx k with await := none, due := none, late := none }).setFl (HX_STATUS k) 15 14 2) k 0x2 := by
  have hno : ¬((hxState u k ≠ 4 ∧ hxState u k ≠ 5) ∨ (u.hx k).first = true ∨ u.cycles < (u.hx k).ref + hxDusk u k ∨
      u.fl (HX_STATUS k) 15 14 = 2) := by
    simp only [hfirst, hphase, Bool.false_eq_true, false_or, or_false]
    omega
  rw [duskStart, if_neg hno]

/-! ## The dawn that LISTEN accepts (R258, R259) -/

theorem hxDawnPulse_hxGo (s : State) (n st : Nat) : hxDawnPulse (hxGo s n st) n = hxDawnPulse s n := by
  unfold hxDawnPulse State.bt State.fl
  rw [rd_hxGo s n st (o := 0x34) (by decide)]

/-- INTEGRATE with the dawn's reference and count, its times and its grant. -/
theorem hxAccept_listen {u : State} {k : Nat} (robs : Nat) (p : List Byte) (ts : Nat × Nat × Nat) (f : State → State)
    (hst : hxState u k = 1) : ∃ b, InCycle k (hxCycle (hxGo (u.setHx k { u.hx k with brk := 0, tx := none }) k 3) k robs
      (leNat (p.take 2))) b ∧ b.bt (HX_IRQSTAT k) 0 = true ∧ hxAccept u k robs p ts f = (b, hxDawnPulse u k) := by
  have hpulse := hxDawnPulse_hxGo (u.setHx k { u.hx k with brk := 0, tx := none }) k 3
  refine ⟨(hxAccept u k robs p ts f).1, ?_⟩
  rw [hxAccept]
  simp only [hst, true_or, if_true]
  exact ⟨((InCycle.refl _).trans (.hxTimes _ k _ _ _)).hxIrq _ |>.trans (.hxGrant _ k _ _),
    (InCycle.hxGrant _ k _ _).irq 0 (bt_raise _ (by decide)), by rw [hpulse]; rfl⟩

end Sys2Proof.Machine

/-! SUPPORT. The timers of a sequencer (R227, R237, R253 to R261): what each leaves of the state it acts on. -/

namespace Sys2Proof.Machine

/-- With no frame overdue the end of a row leaves the sequencers and their registers. -/
theorem close_keeps {w : State} {n : Nat} (hn : n < 32) (h : noOverdueFrame w) :
    (∀ k, (close w).hx k = w.hx k) ∧ ∀ o, o < 0x1000 → (close w).rd (HX_CTRL n + o) = w.rd (HX_CTRL n + o) :=
  ⟨hx_close h, fun o ho => rd_close_noOverdue h (by unfold HX_CTRL MEM_FT_STAT MEM_DG_IRQSTAT; omega)⟩

/-! ## DAYBREAK (R255, R256) -/

section
variable (s : State) (n : Nat)

/-- The DAYBREAK goes out after its count. -/
theorem InCycle.daybreakSend :
    InCycle n ((s.satInc (HX_CNT_SU n) 31 24).setHx n { s.hx n with brk := 1 }) (daybreakSend s n) := .hxTransmit _ n _ _ _ _ _ _

theorem hxState_daybreakSend : hxState (daybreakSend s n) n = hxState s n := by
  rw [(InCycle.daybreakSend s n).state, hxState_setHx, hxState, State.fl, rd_satInc_ne _ _ _ _ (seqReg_ne n (o := 4) (by decide)),
    hxState, State.fl]

theorem cntSu_daybreakSend :
    (daybreakSend s n).fl (HX_CNT_SU n) 31 24 = min (2 ^ 8 - 1) (s.fl (HX_CNT_SU n) 31 24 + 1) := by
  rw [(InCycle.daybreakSend s n).fl (o := 0x98) _ _ rfl, State.fl, rd_setHx, ← State.fl, fl_satInc_self _ _ _ _ (by decide) (by decide)]

end

theorem listenTimeout_expired {u : State} {k : Nat} (hst : hxState u k = 1) (hrank : hxRank u k ≠ 0)
    (hat : (u.hx k).since + 2 * hxLen u k + hxRank u k * hxU u k ≤ u.cycles) : listenTimeout u k = daybreakSend (hxGo u k 2) k := by
  rw [listenTimeout, if_neg (by omega)]

theorem backoffEnd_expired {u : State} {k : Nat} (hst : hxState u k = 2) (hbrk : (u.hx k).brk = 4)
    (hat : (u.hx k).since + hxRank u k * hxU u k ≤ u.cycles) : backoffEnd u k = daybreakSend u k := by
  rw [backoffEnd, if_neg (by omega)]

/-- The confirmation period makes a master, whose first dawn is due at once (R255). -/
theorem confirmEnd_expired {u : State} {k : Nat} (hst : hxState u k = 2) (hbrk : (u.hx k).brk = 2)
    (hat : (u.hx k).since + 5 * hxU u k ≤ u.cycles) : confirmEnd u k =
      (hxGo (u.setHx k { u.hx k with brk := 0, first := true, exp := u.cycles, pulse := 0, lost := 0 }) k 5).wr (HX_CORR k) 0 := by
  rw [confirmEnd, if_neg (by omega)]

/-! ## The close of the dawn windows (R258, R260, R261) -/

theorem dawnWindowClose_integrate {u : State} {k : Nat} (hst : hxState u k = 3)
    (hat : (u.hx k).ref + hxLen u k + 4 * hxBk u k + hxW u k ≤ u.cycles) : dawnWindowClose u k = hxListen u k := by
  rw [dawnWindowClose, if_neg (by omega), if_pos hst]

theorem dawnWindowClose_active {u : State} {k : Nat} (hst : hxState u k = 4)
    (hat : (u.hx k).ref + hxLen u k + 4 * hxBk u k + hxW u k ≤ u.cycles) : dawnWindowClose u k =
      hxSilence (hxCycle (u.satInc (HX_CNT_DAWN k) 31 24) k ((u.hx k).ref + hxLen u k) ((u.fl (HX_CYCNT k) 15 0 + 1) % 65536)) k
        true := by
  rw [dawnWindowClose, if_neg (by omega), if_neg (by omega), if_pos hst]

/-- A silent cycle that is not the third in a row (R261). -/
theorem hxSilence_silent {s : State} {n : Nat} (h : s.fl (HX_SUSTAT n) 1 0 < 2) : hxSilence s n true =
    (s.setBt (HX_STATUS n) 27 true).setFl (HX_SUSTAT n) 1 0 (s.fl (HX_SUSTAT n) 1 0 + 1) := by
  rw [hxSilence, if_neg nofun, if_neg (by omega)]

theorem noOverdue_hxCycle {s : State} (h : noOverdueFrame s) (n ref cy : Nat) :
    noOverdueFrame (hxCycle s n ref cy) := by
  have hset : noOverdueFrame (((s.setFl (HX_CYCNT n) 15 0 cy).wrapInc (HX_CNT_CYC n) 31 16).setFl (HX_STATUS n) 15 14 0) :=
    noOverdue_wr (noOverdue_wr (noOverdue_wr h _ _) _ _) _ _
  rw [hxCycle]
  exact noOverdue_setHx hset (.inr rfl)

/-- A cycle without a dawn, after at most one before it, is silent, and counts on from the dawn expected (R260, R261). -/
theorem dawnWindowClose_silences {u : State} {k : Nat} (hf : noOverdueFrame u) (hst : hxState u k = 4)
    (hfew : u.fl (HX_SUSTAT k) 1 0 < 2) (hat : (u.hx k).ref + hxLen u k + 4 * hxBk u k + hxW u k ≤ u.cycles) :
    noOverdueFrame (dawnWindowClose u k) ∧ ((dawnWindowClose u k).hx k).ref = (u.hx k).ref + hxLen u k ∧
      hxState (dawnWindowClose u k) k = 4 ∧ (dawnWindowClose u k).bt (HX_STATUS k) 27 = true ∧
      (dawnWindowClose u k).fl (HX_SUSTAT k) 1 0 = u.fl (HX_SUSTAT k) 1 0 + 1 ∧
      (dawnWindowClose u k).fl (HX_CYCNT k) 15 0 = (u.fl (HX_CYCNT k) 15 0 + 1) % 65536 := by
  rw [dawnWindowClose_active hst hat]
  obtain ⟨c, hc⟩ : ∃ c, c = hxCycle (u.satInc (HX_CNT_DAWN k) 31 24) k ((u.hx k).ref + hxLen u k)
    ((u.fl (HX_CYCNT k) 15 0 + 1) % 65536) := ⟨_, rfl⟩
  have hover : noOverdueFrame c := hc ▸ noOverdue_hxCycle (noOverdue_wr hf _ _) k _ _
  have hsust : c.fl (HX_SUSTAT k) 1 0 = u.fl (HX_SUSTAT k) 1 0 := by
    rw [hc, State.fl, rd_hxCycle _ _ _ _ (o := 0x90) (by decide), rd_satInc_ne _ _ _ _ (seqReg_ne k (o := 0x90) (by decide)), State.fl]
  have hstc : hxState c k = 4 := by
    rw [hc, hxState_hxCycle, hxState, State.fl, rd_satInc_ne _ _ _ _ (seqReg_ne k (o := 4) (by decide))]
    exact hst
  rw [← hc, hxSilence_silent (by omega), hsust]
  refine ⟨noOverdue_wr (noOverdue_wr hover _ _) _ _, ?_, ?_, ?_, ?_, ?_⟩
  · rw [hx_setFl, hx_setBt, hc, hx_hxCycle]
  · rw [hxState, State.fl, rd_setFl_ne _ _ _ _ (seqReg_ne k (o := 4) (by decide)), ← State.fl,
      fl_setBt_apart _ _ _ (by decide) (by decide) (by decide)]
    exact hstc
  · rw [State.bt, rd_setFl_ne _ _ _ _ (seqReg_ne k (o := 4) (by decide)), ← State.bt, bt_setBt_self _ _ _ _ (by decide)]
  · rw [fl_setFl_self _ _ _ _ _ (by decide) (by decide)]
    exact Nat.mod_eq_of_lt (by omega)
  · rw [State.fl, rd_setFl_ne _ _ _ _ (seqReg_ne k (o := 0x40) (by decide)), rd_setBt_ne _ _ _ (seqReg_ne k (o := 0x40) (by decide)),
      ← State.fl, hc, cycnt_hxCycle, Nat.mod_mod]

/-! ## The dusk (R237) -/

/-- The dusk ends what the sequencer awaited and owed of the cycle's slots. -/
theorem duskStart_leaves {u : State} {k : Nat} (hf : noOverdueFrame u) (hst : hxState u k = 4 ∨ hxState u k = 5)
    (hfirst : (u.hx k).first = false) (hat : (u.hx k).ref + hxDusk u k ≤ u.cycles) (hphase : u.fl (HX_STATUS k) 15 14 ≠ 2) :
    noOverdueFrame (duskStart u k) ∧ (duskStart u k).hx k = { u.hx k with await := none, due := none, late := none } ∧
      (duskStart u k).fl (HX_STATUS k) 15 14 = 2 ∧ hxState (duskStart u k) k = hxState u k := by
  rw [duskStart_begins hst hfirst hat hphase]
  have hset : noOverdueFrame (u.setHx k { u.hx k with await := none, due := none, late := none }) := noOverdue_setHx hf (.inr rfl)
  refine ⟨noOverdue_wr (noOverdue_wr hset _ _) _ _, ?_, ?_, ?_⟩
  · rw [hx_hxIrq, hx_setFl, hx_setHx_self]
  · rw [State.fl, hxIrq, rd_raise_ne _ _ (seqReg_ne k (o := 4) (by decide)), ← State.fl, fl_setFl_self _ _ _ _ _ (by decide) (by decide)]
    rfl
  · rw [hxState, State.fl, hxIrq, rd_raise_ne _ _ (seqReg_ne k (o := 4) (by decide)), ← State.fl,
      fl_setFl_apart _ _ _ (by decide) (by decide) (by decide) (by decide)]
    rfl

/-! ## Readback errors (R227) -/

/-- A response is abandoned. -/
theorem readback_response {u : State} {k : Nat} {x : HxTx} (htx : (u.hx k).tx = some x) (h : x.typ = 3) : readback u k =
    (u.satInc (HX_CNT_ERR k) 7 0).setHx k { u.hx k with tx := none, idleFrom := u.cycles } := by
  rw [readback, htx]
  simp only [h, Nat.reduceEqDiff, if_false, if_true, le_refl]

/-- A dusk message is abandoned, and counted in DTXCTL. -/
theorem readback_dusk {u : State} {k : Nat} {x : HxTx} (htx : (u.hx k).tx = some x) (h : x.typ = 6) : readback u k =
    ((u.satInc (HX_CNT_ERR k) 7 0).setHx k { u.hx k with tx := none }).satInc (HX_DTXCTL k) 15 8 := by
  rw [readback, htx]
  simp only [h, Nat.reduceEqDiff, Nat.reduceLeDiff, if_false, if_true]

/-- The frame abandoned, its error counted, and the idle of the line begun where the frame was not one of contention. -/
theorem readback_abandons {u : State} {k : Nat} {x : HxTx} (hf : noOverdueFrame u) (htx : (u.hx k).tx = some x)
    (h : x.typ = 3 ∨ x.typ = 6) : noOverdueFrame (readback u k) ∧
      (readback u k).hx k = { u.hx k with tx := none, idleFrom := if x.typ = 3 then u.cycles else (u.hx k).idleFrom } ∧
      (readback u k).fl (HX_CNT_ERR k) 7 0 = min (2 ^ 8 - 1) (u.fl (HX_CNT_ERR k) 7 0 + 1) := by
  have hcount := fl_satInc_self u (HX_CNT_ERR k) 7 0 (by decide) (by decide)
  have hf1 : noOverdueFrame (u.satInc (HX_CNT_ERR k) 7 0) := noOverdue_wr hf _ _
  rcases h with h | h
  · rw [readback_response htx h, if_pos h, hx_setHx_self]
    exact ⟨noOverdue_setHx hf1 (.inl rfl), rfl, hcount⟩
  · rw [readback_dusk htx h, if_neg (by omega), hx_satInc, hx_setHx_self, State.fl,
      rd_satInc_ne _ _ _ _ (seqReg_ne k (o := 0x58) (by decide)),
      rd_setHx, ← State.fl]
    exact ⟨noOverdue_wr (noOverdue_setHx hf1 (.inl rfl)) _ _, rfl, hcount⟩

end Sys2Proof.Machine

/-! SUPPORT. A frame that a sequencer receives (R228, R229, R234): what its error leaves where no record is due. -/

namespace Sys2Proof.Machine

/-! ## The slot that a record is due for -/

section
variable {s t : State} {n : Nat} (hmem : t.mem = s.mem)
  (hrd : ∀ o, o < 0x400 ∧ o ≠ 0x58 ∧ o ≠ 0x60 → t.rd (HX_CTRL n + o) = s.rd (HX_CTRL n + o))
include hmem hrd

theorem hxEntry_congr (j : Nat) : hxEntry t n j = hxEntry s n j := by
  rw [hxEntry, hxEntry, hrd 0x24 (by decide), bytes_congr s t hmem]

theorem slotAddr_congr (j : Nat) : slotAddr t n j = slotAddr s n j := by
  have htw : twAddr t n j = twAddr s n j := by
    unfold twAddr
    split_ifs with hj
    · rfl
    · rw [State.fl, State.fl, HX_TWADDR, Nat.add_assoc, hrd _ (by omega)]
  rw [slotAddr, slotAddr, hxEntry_congr hmem hrd, htw]

theorem slotAt_congr (o : Nat) : slotAt t n o = slotAt s n o := by
  have hslots : hxSlots t n = hxSlots s n := congrArg (fld · 23 16) (hrd 0x20 (by decide))
  have hw : hxW t n = hxW s n := congrArg (fld · 19 0) (hrd 0x1C (by decide))
  simp only [slotAt, hslots, hw, hxEntry_congr hmem hrd]

/-- The slot a record is due for does not hang on the error count and the interrupts. -/
theorem recordSlot_congr (hhx : t.hx n = s.hx n) (o : Nat) : recordSlot t n o = recordSlot s n o := by
  have hst : hxState t n = hxState s n := congrArg (fld · 31 28) (hrd 4 (by decide))
  have hdusk : hxDusk t n = hxDusk s n := congrArg (fld · 29 0) (hrd 0x14 (by decide))
  have haddr : hxAddr t n = hxAddr s n := congrArg (fld · 21 16) (hrd 8 (by decide))
  simp only [recordSlot, hst, hdusk, haddr, hhx, slotAt_congr hmem hrd, slotAddr_congr hmem hrd]

end

/-! ## A framing error (R228, R229) -/

/-- A framing error counted (R234). -/
def framingCounted (s : State) (n : Nat) : State := hxIrq (s.satInc (HX_CNT_ERR n) 23 16) n 0x8

section
variable (s : State) (n : Nat)

theorem OnlyWrites.framingCounted : OnlyWrites (fun a => a = HX_CNT_ERR n ∨ a = HX_IRQSTAT n) s (framingCounted s n) :=
  ((refl s).wr _ (.inl rfl)).wr _ (.inr rfl)

theorem rd_framingCounted {o : Nat} (h : o ≠ 0x58 ∧ o ≠ 0x60) :
    (framingCounted s n).rd (HX_CTRL n + o) = s.rd (HX_CTRL n + o) :=
  (OnlyWrites.framingCounted s n).rd _ fun he => he.elim (seqReg_ne n h.1) (seqReg_ne n h.2)

theorem cntErr_framingCounted :
    (framingCounted s n).fl (HX_CNT_ERR n) 23 16 = min (2 ^ 8 - 1) (s.fl (HX_CNT_ERR n) 23 16 + 1) := by
  rw [framingCounted, hxIrq, State.fl, rd_raise_ne _ _ (seqReg_ne n (o := 0x58) (by decide)), ← State.fl,
    fl_satInc_self _ _ _ _ (by decide) (by decide)]

theorem recordSlot_framingCounted (o : Nat) : recordSlot (framingCounted s n) n o = recordSlot s n o :=
  recordSlot_congr (by rw [(OnlyWrites.framingCounted s n).eq]) (fun _ h => rd_framingCounted s n h.2)
    ((OnlyWrites.framingCounted s n).hx n) o

/-- The captures of the data cell stand below the sequencers (R79). -/
theorem OnlyWrites.hxTsClear : OnlyWrites (· < 0x36000000) s (hxTsClear s n) := by
  unfold Machine.hxTsClear
  split
  · exact refl s
  · next c hc =>
    have hlt := hxDataCell_lt s n c hc
    exact ((refl s).wr _ (by unfold CELL_TSA_SEC; omega)).wr _ (by unfold CELL_TSB_SEC; omega)

theorem rd_hxTsClear (o : Nat) : (hxTsClear s n).rd (HX_CTRL n + o) = s.rd (HX_CTRL n + o) :=
  (OnlyWrites.hxTsClear s n).rd _ (by unfold HX_CTRL; omega)

end

/-- A frame cut short, or one of good format with a character that breaks R228 or R229, where no record is due: the framing error is
counted, and the line idles from now on. -/
theorem hxReceive_framing {v : State} {n : Nat} {l : List Byte} {framing : Bool} {start : Nat} {own : TB}
    (hbroken : l.length < 3 ∨ (framing = true ∧ hxFormatOk (l.take (max 3 (hxBytes (l.getD 2 0).toNat))) = true))
    (hnone : recordSlot v n (((start : Int) + stampDiff (hxStamp v n own) own).toNat - (v.hx n).ref) = none) :
    ∃ x : HxH, x.idleFrom = v.cycles ∧
      hxReceive v n l framing start own = ((hxTsClear (framingCounted v n) n).setHx n x, []) := by
  obtain ⟨w, hw⟩ : ∃ w, w = framingCounted v n := ⟨_, rfl⟩
  have hcycles : (hxTsClear w n).cycles = v.cycles :=
    (OnlyWrites.hxTsClear w n).cycles.trans (hw ▸ (OnlyWrites.framingCounted v n).cycles)
  have hnone' := (recordSlot_framingCounted v n _).trans hnone
  rw [← hw] at hnone' ⊢
  unfold hxReceive
  extract_lets ts start' o bad len l'
  have hbad : bad v 3 23 16 = w := by
    unfold bad
    rw [← framingCounted, ← hw]
    extract_lets t
    rw [show recordSlot t n o = none from hnone']
  by_cases h3 : l'.length < 3
  · rw [if_pos h3, hbad]
    exact ⟨_, hcycles, rfl⟩
  · have hlong : ¬l.length < 3 := fun h => h3 (lt_of_le_of_lt (List.length_take_le' _ l) h)
    obtain ⟨hframing, hformat⟩ := hbroken.resolve_left hlong
    rw [if_neg h3, if_neg (Bool.not_eq_false _ ▸ hformat), if_pos (.inl hframing), hbad]
    exact ⟨_, hcycles, rfl⟩

/-- HX_FRAME_RECEIVE of a sequencer that takes part and hears the frame, with no transmission of its own due before its end. -/
theorem hxFrame_heard {u : State} {k len : Nat} (l : List Byte) (framing : Bool) (hlive : hxLive u k = true)
    (hhears : hxHears u k = true) (hdue : ∀ t ∈ hxNextDue u k, u.cycles + len < t) : hxFrame u k l framing len =
      pulseRow (hxReceive (elapse (hxHear u k) len) k l framing u.cycles (u.tb 0)) := by
  rw [hxFrame, hxRow, if_pos hlive, if_neg (by rw [hhears]; decide)]
  cases hn : hxNextDue u k with
  | none => simp only [Bool.or_false, Bool.false_eq_true, if_false]
  | some t =>
    have hlate : decide (t ≤ u.cycles + len) = false := decide_eq_false (Nat.not_le.2 (hdue t hn))
    simp only [hlate, Bool.or_false, Bool.false_eq_true, if_false]

end Sys2Proof.Machine

/-! SUPPORT. The rows of O45: each clause is its row, what the row's operation makes of a sequencer whose instant has come, and what the end
of the row leaves of it. -/

namespace Sys2Proof.Machine

section
variable {s u : State} {n : Fin 32} {dt : Nat} (hu : u = elapse s dt)
include hu

/-! ## Frames -/

section
variable (hlive : hxLive u n.val = true)
include hlive

/-- DAWN_SEND (R236). -/
theorem exec_dawnSend_due {r : State × List Nat} (hst : hxState u n.val = 5) (hfirst : (u.hx n.val).first = false)
    (hstop : (u.hx n.val).stopping = false) (hcen : u.bt (HX_EVCFG n.val) 15 = false) (hexp : (u.hx n.val).exp ≤ u.cycles)
    (hr : r = hxSendDawn u n.val (u.hx n.val).exp false) : exec (.dawnSend n dt) s = .next (close (pulsesNow r.1 r.2)) ∧
      r.1.fl (HX_CYCNT n.val) 15 0 = (u.fl (HX_CYCNT n.val) 15 0 + 1) % 65536 ∧ (r.1.hx n.val).ref = (u.hx n.val).exp ∧
      (r.1.hx n.val).exp = (u.hx n.val).exp + hxLen u n.val ∧ r.1.bt (HX_IRQSTAT n.val) 0 = true ∧
      (r.1.hx n.val).tx.map (fun x => (x.typ, x.endAt)) = some (1, (u.hx n.val).exp + hxDur u n.val 16) := by
  have hrow : exec (.dawnSend n dt) s = done (hxRow u n.val fun t => dawnSend t n.val) := hu ▸ rfl
  rw [hrow, done_hxRow hlive, dawnSend_due hst hstop hcen hexp, hr]
  exact ⟨rfl, hxSendDawn_cycnt _ _ _ _ hfirst, hxSendDawn_ref _ _ _ _, hxSendDawn_exp _ _ _ _, hxSendDawn_irq _ _ _ _,
    hxSendDawn_tx _ _ _ _⟩

/-- BACKUP_TAKEOVER (R263). -/
theorem exec_backupTakeover_due {i : Nat} {r : State × List Nat} (hi : standby u n.val = some i) (hst : hxState u n.val = 4)
    (hbk : hxBk u n.val ≠ 0) (hsil : u.bt (HX_STATUS n.val) 27 = false) (hstop : (u.hx n.val).stopping = false)
    (hat : (u.hx n.val).ref + hxLen u n.val + i * hxBk u n.val ≤ u.cycles)
    (hheard : (u.hx n.val).heard + hxW u n.val ≤ (u.hx n.val).ref + hxLen u n.val)
    (hr : r = hxSendDawn ((((hxGo u n.val 5).satInc (HX_CNT_SU n.val) 15 8).raise (HX_SUSTAT n.val) 0x20000000).setHx n.val
      { u.hx n.val with lost := 0 }) n.val ((u.hx n.val).ref + hxLen u n.val + i * hxBk u n.val) true) :
    exec (.backupTakeover n dt) s = .next (close (pulsesNow r.1 r.2)) ∧ hxState r.1 n.val = 5 ∧
      (r.1.hx n.val).ref = (u.hx n.val).ref + hxLen u n.val + i * hxBk u n.val := by
  have hrow : exec (.backupTakeover n dt) s = done (hxRow u n.val fun t => takeover t n.val) := hu ▸ rfl
  rw [hrow, done_hxRow hlive, takeover_due hi hst hbk hsil hstop hat hheard, hr]
  exact ⟨rfl, takeover_state _ _ _ _, hxSendDawn_ref _ _ _ _⟩

/-- HX_FRAME_RECEIVE (R229, R234). -/
theorem exec_hxFrameReceive_heard {l : List Byte} {framing : Bool} {len : Nat} (hhears : hxHears u n.val = true)
    (hdue : ∀ t ∈ hxNextDue u n.val, u.cycles + len < t) {v : State} (hv : v = elapse (hxHear u n.val) len) {r : State × List Nat}
    (hr : r = hxReceive v n.val l framing u.cycles (u.tb 0)) :
    exec (.hxFrameReceive n l framing dt len) s = .next (close (pulsesNow r.1 r.2)) := by
  have hrow : exec (.hxFrameReceive n l framing dt len) s = done (hxFrame u n.val l framing len) := hu ▸ rfl
  rw [hrow, hxFrame_heard l framing hlive hhears hdue, ← hv, ← hr, done, pulseRow]

/-- READBACK_ERROR (R227, R240). -/
theorem exec_readbackError_abandons {x : HxTx} (htx : (u.hx n.val).tx = some x) (h : x.typ = 3 ∨ x.typ = 6) :
    ∃ t, exec (.readbackError n dt) s = .next t ∧ (t.hx n.val).tx = none ∧
      (t.hx n.val).idleFrom = (if x.typ = 3 then u.cycles else (u.hx n.val).idleFrom) ∧
      t.fl (HX_CNT_ERR n.val) 7 0 = min (2 ^ 8 - 1) (u.fl (HX_CNT_ERR n.val) 7 0 + 1) := by
  have hrow : exec (.readbackError n dt) s = done (hxEvent u n.val fun t => readback t n.val) := hu ▸ rfl
  obtain ⟨hover, hhx, hcount⟩ := readback_abandons (hu ▸ elapse_noOverdue s dt) htx h
  refine ⟨_, hrow.trans (done_hxEvent hlive), ?_, ?_, ?_⟩
  · rw [hx_close hover, hhx]
  · rw [hx_close hover, hhx]
  · rw [fl_close_seq _ n.isLt (o := 0x58) _ _ (by decide), hcount]

end

/-! ## Timers -/

section
variable (hreset : inReset u (blkHx n.val) = false)
include hreset

/-- DUSK_START (R237). -/
theorem exec_duskStart_begins (hst : hxState u n.val = 4 ∨ hxState u n.val = 5) (hfirst : (u.hx n.val).first = false)
    (hat : (u.hx n.val).ref + hxDusk u n.val ≤ u.cycles) (hphase : u.fl (HX_STATUS n.val) 15 14 ≠ 2) :
    ∃ t, exec (.duskStart n dt) s = .next t ∧ t.fl (HX_STATUS n.val) 15 14 = 2 ∧ (t.hx n.val).await = none ∧
      (t.hx n.val).due = none ∧ hxState t n.val = hxState u n.val := by
  have hrow : exec (.duskStart n dt) s = done (hxEvent u n.val fun t => duskStart t n.val) := hu ▸ rfl
  obtain ⟨hover, hhx, hdusk, hstate⟩ := duskStart_leaves (hu ▸ elapse_noOverdue s dt) hst hfirst hat hphase
  refine ⟨_, hrow.trans (done_hxEvent (hxLive_of_state hreset (by omega))), ?_, ?_, ?_, ?_⟩
  · rw [fl_close_seq _ n.isLt (o := 4) _ _ (by decide), hdusk]
  · rw [hx_close hover, hhx]
  · rw [hx_close hover, hhx]
  · rw [hxState_close _ n.isLt, hstate]

/-- LISTEN_TIMEOUT (R255). -/
theorem exec_listenTimeout_expires (hst : hxState u n.val = 1) (hrank : hxRank u n.val ≠ 0)
    (hat : (u.hx n.val).since + 2 * hxLen u n.val + hxRank u n.val * hxU u n.val ≤ u.cycles) :
    exec (.listenTimeout n dt) s = .next (close (daybreakSend (hxGo u n.val 2) n.val)) ∧
      ∃ t, exec (.listenTimeout n dt) s = .next t ∧ hxState t n.val = 2 ∧
        t.fl (HX_CNT_SU n.val) 31 24 = min (2 ^ 8 - 1) (u.fl (HX_CNT_SU n.val) 31 24 + 1) := by
  have hrow : exec (.listenTimeout n dt) s = done (hxEvent u n.val fun t => listenTimeout t n.val) := hu ▸ rfl
  rw [hrow, done_hxEvent (hxLive_of_state hreset (by omega)), listenTimeout_expired hst hrank hat]
  refine ⟨rfl, _, rfl, ?_, ?_⟩
  · rw [hxState_close _ n.isLt, hxState_daybreakSend, hxState_hxGo u n.val (by decide)]
  · rw [fl_close_seq _ n.isLt (o := 0x98) _ _ (by decide), cntSu_daybreakSend, State.fl, rd_hxGo u n.val 2 (o := 0x98) (by decide),
      ← State.fl]

/-- CONFIRMATION_END (R255). -/
theorem exec_confirmationEnd_expires (hst : hxState u n.val = 2) (hbrk : (u.hx n.val).brk = 2)
    (hat : (u.hx n.val).since + 5 * hxU u n.val ≤ u.cycles) : ∃ t, exec (.confirmationEnd n dt) s = .next t ∧
      hxState t n.val = 5 ∧ (t.hx n.val).first = true ∧ (t.hx n.val).exp = u.cycles ∧ t.rd (HX_CORR n.val) = 0 := by
  have hrow : exec (.confirmationEnd n dt) s = done (hxEvent u n.val fun t => confirmEnd t n.val) := hu ▸ rfl
  have hset : noOverdueFrame (u.setHx n.val { u.hx n.val with brk := 0, first := true, exp := u.cycles, pulse := 0, lost := 0 }) :=
    noOverdue_setHx (hu ▸ elapse_noOverdue s dt) (.inr rfl)
  obtain ⟨hhx, hrd⟩ := close_keeps n.isLt (noOverdue_wr (noOverdue_hxGo n.val hset 5) (HX_CORR n.val) 0)
  rw [hrow, done_hxEvent (hxLive_of_state hreset (by omega)), confirmEnd_expired hst hbrk hat]
  refine ⟨_, rfl, ?_, ?_, ?_, ?_⟩
  · rw [hxState_close _ n.isLt, hxState, State.fl, rd_wr_ne _ _ (seqReg_ne n.val (o := 4) (by decide))]
    exact hxState_hxGo _ n.val (by decide)
  · rw [hhx, hx_wr, hx_hxGo, hx_setHx_self]
  · rw [hhx, hx_wr, hx_hxGo, hx_setHx_self]
  · exact (hrd 0x94 (by decide)).trans (rd_wr_self _ _ _)

/-- DAYBREAK_BACKOFF_END (R256). -/
theorem exec_daybreakBackoffEnd_expires (hst : hxState u n.val = 2) (hbrk : (u.hx n.val).brk = 4)
    (hat : (u.hx n.val).since + hxRank u n.val * hxU u n.val ≤ u.cycles) :
    exec (.daybreakBackoffEnd n dt) s = .next (close (daybreakSend u n.val)) ∧
      ∃ t, exec (.daybreakBackoffEnd n dt) s = .next t ∧
        t.fl (HX_CNT_SU n.val) 31 24 = min (2 ^ 8 - 1) (u.fl (HX_CNT_SU n.val) 31 24 + 1) := by
  have hrow : exec (.daybreakBackoffEnd n dt) s = done (hxEvent u n.val fun t => backoffEnd t n.val) := hu ▸ rfl
  rw [hrow, done_hxEvent (hxLive_of_state hreset (by omega)), backoffEnd_expired hst hbrk hat]
  exact ⟨rfl, _, rfl, by rw [fl_close_seq _ n.isLt (o := 0x98) _ _ (by decide), cntSu_daybreakSend]⟩

/-- DAWN_WINDOW_CLOSE of a sequencer that integrates (R258). -/
theorem exec_dawnWindowClose_integrate (hst : hxState u n.val = 3)
    (hat : (u.hx n.val).ref + hxLen u n.val + 4 * hxBk u n.val + hxW u n.val ≤ u.cycles) :
    ∃ t, exec (.dawnWindowClose n dt) s = .next t ∧ hxState t n.val = 1 := by
  have hrow : exec (.dawnWindowClose n dt) s = done (hxEvent u n.val fun t => dawnWindowClose t n.val) := hu ▸ rfl
  rw [hrow, done_hxEvent (hxLive_of_state hreset (by omega)), dawnWindowClose_integrate hst hat]
  exact ⟨_, rfl, by rw [hxState_close _ n.isLt, hxState_hxListen]⟩

/-- DAWN_WINDOW_CLOSE of a node in ACTIVE, after at most one silent cycle (R260, R261). -/
theorem exec_dawnWindowClose_active (hst : hxState u n.val = 4) (hfew : u.fl (HX_SUSTAT n.val) 1 0 < 2)
    (hat : (u.hx n.val).ref + hxLen u n.val + 4 * hxBk u n.val + hxW u n.val ≤ u.cycles) :
    ∃ t, exec (.dawnWindowClose n dt) s = .next t ∧ hxState t n.val = 4 ∧ t.bt (HX_STATUS n.val) 27 = true ∧
      (t.hx n.val).ref = (u.hx n.val).ref + hxLen u n.val ∧ t.fl (HX_SUSTAT n.val) 1 0 = u.fl (HX_SUSTAT n.val) 1 0 + 1 ∧
      t.fl (HX_CYCNT n.val) 15 0 = (u.fl (HX_CYCNT n.val) 15 0 + 1) % 65536 := by
  have hrow : exec (.dawnWindowClose n dt) s = done (hxEvent u n.val fun t => dawnWindowClose t n.val) := hu ▸ rfl
  obtain ⟨hover, href, hstate, hsilent, hcount, hcycnt⟩ := dawnWindowClose_silences (hu ▸ elapse_noOverdue s dt) hst hfew hat
  refine ⟨_, hrow.trans (done_hxEvent (hxLive_of_state hreset (by omega))), ?_, ?_, ?_, ?_, ?_⟩
  · rw [hxState_close _ n.isLt, hstate]
  · rw [bt_close_seq _ n.isLt (o := 4) _ (by decide), hsilent]
  · rw [hx_close hover, href]
  · rw [fl_close_seq _ n.isLt (o := 0x90) _ _ (by decide), hcount]
  · rw [fl_close_seq _ n.isLt (o := 0x40) _ _ (by decide), hcycnt]

/-- PASSIVE_TIMEOUT (R261). -/
theorem exec_passiveTimeout_expires (hst : hxState u n.val = 6) (hat : (u.hx n.val).since + hxLen u n.val ≤ u.cycles) :
    ∃ t, exec (.passiveTimeout n dt) s = .next t ∧ hxState t n.val = 1 ∧ (t.hx n.val).since = u.cycles := by
  have hrow : exec (.passiveTimeout n dt) s = done (hxOut u n.val fun t => passiveTimeout t n.val) := hu ▸ rfl
  rw [hrow, done_hxOut hreset, passiveTimeout, if_pos ⟨hst, hat⟩]
  refine ⟨_, rfl, ?_, ?_⟩
  · rw [hxState_close _ n.isLt, hxState_hxListen]
  · rw [hx_close (noOverdue_hxListen _ (hu ▸ elapse_noOverdue s dt)), hx_hxListen]

/-- STOP_CYCLE_FINISHED (R253). -/
theorem exec_stopCycleFinished_stops (h0 : hxState u n.val ≠ 0) (h6 : hxState u n.val ≠ 6) (hstop : (u.hx n.val).stopping = true)
    (hat : (u.hx n.val).ref + hxLen u n.val ≤ u.cycles) : ∃ t, exec (.stopCycleFinished n dt) s = .next t ∧ hxState t n.val = 0 ∧
      (t.hx n.val).stopping = false ∧ (t.hx n.val).tx = none := by
  have hrow : exec (.stopCycleFinished n dt) s = done (hxEvent u n.val fun t => stopFinished t n.val) := hu ▸ rfl
  have hhx := hx_close (noOverdue_hxEnterStopped n.val (hu ▸ elapse_noOverdue s dt : noOverdueFrame u)) n.val
  rw [hrow, done_hxEvent (hxLive_of_state hreset ⟨h0, h6⟩), stopFinished, if_pos ⟨hstop, hat⟩]
  refine ⟨_, rfl, ?_, ?_, ?_⟩
  · rw [hxState_close _ n.isLt, hxState_hxEnterStopped]
  · rw [hhx, hx_hxEnterStopped]
  · rw [hhx, hx_hxEnterStopped]

end

end

end Sys2Proof.Machine

/-! SUPPORT. O45, clause by clause. -/

namespace Sys2Proof.Machine

/-- What a framing error leaves where no record is due (R228, R229, R234). -/
theorem hxReceive_framing_leaves {v : State} {n : Nat} {l : List Byte} {framing : Bool} {start : Nat} {own : TB}
    {r : State × List Nat} (hr : r = hxReceive v n l framing start own)
    (hbroken : l.length < 3 ∨ (framing = true ∧ hxFormatOk (l.take (max 3 (hxBytes (l.getD 2 0).toNat))) = true))
    (hnone : recordSlot v n (((start : Int) + stampDiff (hxStamp v n own) own).toNat - (v.hx n).ref) = none) :
    r.2 = [] ∧ (r.1.hx n).idleFrom = v.cycles ∧
      r.1.fl (HX_CNT_ERR n) 23 16 = min (2 ^ 8 - 1) (v.fl (HX_CNT_ERR n) 23 16 + 1) ∧ hxState r.1 n = hxState v n := by
  obtain ⟨x, hidle, he⟩ := hxReceive_framing hbroken hnone
  rw [hr, he]
  refine ⟨rfl, ?_, ?_, ?_⟩
  · rw [hx_setHx_self, hidle]
  · rw [State.fl, rd_setHx, rd_hxTsClear _ n 0x58, ← State.fl, cntErr_framingCounted]
  · rw [hxState_setHx, hxState, State.fl, rd_hxTsClear _ n 4, rd_framingCounted v n (by decide), hxState, State.fl]

/-- What the dawn that LISTEN accepts leaves (R258, R259). -/
theorem hxAccept_listen_leaves {u : State} {k robs : Nat} {p : List Byte} {ts : Nat × Nat × Nat} {f : State → State}
    {r : State × List Nat} (hst : hxState u k = 1) (hr : r = hxAccept u k robs p ts f) : hxState r.1 k = 3 ∧
      (r.1.hx k).ref = robs ∧ r.1.fl (HX_CYCNT k) 15 0 = leNat (p.take 2) % 65536 ∧ r.1.bt (HX_IRQSTAT k) 0 = true ∧
      r.2 = hxDawnPulse u k := by
  obtain ⟨b, hin, hirq, he⟩ := hxAccept_listen robs p ts f hst
  rw [hr, he]
  refine ⟨?_, ?_, ?_, hirq, rfl⟩
  · rw [hin.state, hxState_hxCycle, hxState_hxGo _ _ (by decide)]
  · rw [hin.ref, hx_hxCycle]
  · rw [hin.fl (o := 0x40) _ _ rfl, cycnt_hxCycle]

section
variable {s u : State} {n : Fin 32} {dt : Nat} (hu : u = elapse s dt)
include hu

/-- POLL_SEND (R238). -/
theorem exec_pollSend_polls {s1 s2 : State} {j a : Nat} {q : HxPre} (hlive : hxLive u n.val = true) (hj : j = (u.hx n.val).next)
    (hst : hxState u n.val = 5) (hfirst : (u.hx n.val).first = false) (hslots : j < hxSlots u n.val)
    (hat : (u.hx n.val).ref + (hxEntry u n.val j).start ≤ u.cycles)
    (hs1 : s1 = ((u.setHx n.val { u.hx n.val with next := j + 1, await := none, late := none }).setFl
      (HX_STATUS n.val) 23 16 j).setFl (HX_STATUS n.val) 15 14 1) (hfetched : hxFetched s1 n.val j = (s2, q)) (hok : q.ok = true)
    (ha : a = (if (hxEntryOf q.entry).kind = 2 then twAddr s2 n.val j else (hxEntryOf q.entry).addr % 64)) (h0 : a ≠ 0)
    (hown : a ≠ hxAddr s2 n.val) :
    ∃ v, exec (.pollSend n false dt) s = .next (close (pulsesNow v (hxSlotPulse v n.val))) ∧ (v.hx n.val).await = some j ∧
      (v.hx n.val).tx.map (fun x => (x.typ, x.slot, x.endAt)) =
        some (2, j, (u.hx n.val).ref + (hxEntry u n.val j).start + hxDur s2 n.val q.data.length) := by
  have hrow : exec (.pollSend n false dt) s = done (hxRow u n.val fun t => pollSend t n.val false) := hu ▸ rfl
  obtain ⟨v, hv, hawait, htx⟩ := pollSend_polls hj hst hfirst hslots hat hs1 hfetched hok ha h0 hown
  exact ⟨v, by rw [hrow, done_hxRow hlive, hv], hawait, htx⟩

/-- RESP_SEND (R238, R261). -/
theorem exec_respSend_responds {s1 s3 : State} {j : Nat} {q : HxPre} (hlive : hxLive u n.val = true)
    (hdue : (u.hx n.val).due = some j) (hst : hxState u n.val = 4)
    (hat : (u.hx n.val).ref + (hxEntry u n.val j).start + actionOff u n.val (hxEntry u n.val j) ≤ u.cycles)
    (hsil : u.bt (HX_STATUS n.val) 27 = false) (hs1 : s1 = u.setHx n.val { u.hx n.val with due := none })
    (hfetched : hxFetched s1 n.val j = (s3, q)) (hok : q.ok = true) :
    ∃ v, exec (.respSend n false dt) s = .next (close (pulsesNow v (hxSlotPulse s1 n.val))) ∧ (v.hx n.val).due = none ∧
      (v.hx n.val).tx.map (fun x => (x.typ, x.slot, x.endAt)) = some (3, j, (u.hx n.val).ref + (hxEntry u n.val j).start +
        actionOff u n.val (hxEntry u n.val j) + hxDur s3 n.val q.data.length) := by
  have hrow : exec (.respSend n false dt) s = done (hxRow u n.val fun t => respSend t n.val false) := hu ▸ rfl
  obtain ⟨v, hv, hdone, htx⟩ := respSend_responds hdue hst hat hsil hs1 hfetched hok
  exact ⟨v, by rw [hrow, done_hxRow hlive, hv], hdone, htx⟩

/-- DUSK_SEND is its row's event. -/
theorem exec_duskSend_live (hlive : hxLive u n.val = true) : exec (.duskSend n dt) s = .next (close (duskSend u n.val)) := by
  have hrow : exec (.duskSend n dt) s = done (hxEvent u n.val fun t => duskSend t n.val) := hu ▸ rfl
  rw [hrow, done_hxEvent hlive]

/-- RESPONSE_WINDOW_CLOSE is its row's event. -/
theorem exec_responseWindowClose_live (j : Fin 256) (hlive : hxLive u n.val = true) :
    exec (.responseWindowClose n j dt) s = .next (close (windowClose u n.val j.val)) := by
  have hrow : exec (.responseWindowClose n j dt) s = done (hxEvent u n.val fun t => windowClose t n.val j.val) := hu ▸ rfl
  rw [hrow, done_hxEvent hlive]

end

/-- Settles O45, clause by clause: the row of each frame or timer acts on a sequencer that takes part, and the lemma about its operation
says what it makes of one whose instant has come. -/
theorem huxonFramesAndTimers : Obligations.HuxonFramesAndTimers := by
  unfold Obligations.HuxonFramesAndTimers
  constructor
  · rintro s n _ dt u rfl hu hlive
    refine ⟨?dawn, ?poll, ?response, ?dusk, ?frame, ?listen⟩
    case dawn => exact fun r hst hfirst hstop hcen hexp hr => exec_dawnSend_due hu hlive hst hfirst hstop hcen hexp hr
    case poll =>
      rintro j _ s1 s2 q _ a hj rfl hst hfirst hslots hat hs1 hfetched hok rfl ha h0 hown
      exact exec_pollSend_polls hu hlive hj hst hfirst hslots hat hs1 hfetched hok ha h0 hown
    case response =>
      rintro j _ _ s1 s3 q hdue rfl rfl hst hat hsil hs1 hfetched hok
      exact exec_respSend_responds hu hlive hdue hst hat hsil hs1 hfetched hok
    case dusk =>
      intro hst hphase hsil h63 htx hclaim hgo hidle hfits
      rw [exec_duskSend_live hu hlive, duskSend_message hst hphase hsil h63 htx hclaim hgo hidle hfits]
    case frame =>
      rintro l framing len v r _ _ hhears hdue hv hr rfl rfl
      exact ⟨exec_hxFrameReceive_heard hu hlive hhears hdue hv hr, hxReceive_framing_leaves hr⟩
    case listen => exact fun robs p ts f r hst hr => hxAccept_listen_leaves hst hr
  · rintro s n _ dt u rfl hu hreset
    refine ⟨?window, ?nodeWindow, ?dusk, ?readback, ?listen, ?confirmation, ?backoff, ?dawnWindow, ?passive, ?takeover, ?stop⟩
    case window =>
      rintro j _ hst hslots hrec hawait rfl hat
      rw [exec_responseWindowClose_live hu j (hxLive_of_state hreset (by omega)), windowClose_master hst hslots hrec hawait hat]
    case nodeWindow =>
      intro j hst hslots hrec haddr h63 hat
      rw [exec_responseWindowClose_live hu j (hxLive_of_state hreset (by omega)), windowClose_node hst hslots hrec haddr h63 hat]
    case dusk => exact fun hst hfirst hat hphase => exec_duskStart_begins hu hreset hst hfirst hat hphase
    case readback => exact fun x hlive htx h => exec_readbackError_abandons hu hlive htx h
    case listen => exact fun hst hrank hat => exec_listenTimeout_expires hu hreset hst hrank hat
    case confirmation => exact fun hst hbrk hat => exec_confirmationEnd_expires hu hreset hst hbrk hat
    case backoff => exact fun hst hbrk hat => exec_daybreakBackoffEnd_expires hu hreset hst hbrk hat
    case dawnWindow =>
      exact fun hat => ⟨fun hst => exec_dawnWindowClose_integrate hu hreset hst hat,
        fun hst hfew => exec_dawnWindowClose_active hu hreset hst hfew hat⟩
    case passive => exact fun hst hat => exec_passiveTimeout_expires hu hreset hst hat
    case takeover =>
      rintro i _ r hi rfl hst hbk hsil hstop hat hheard hr
      exact exec_backupTakeover_due hu (hxLive_of_state hreset (by omega)) hi hst hbk hsil hstop hat hheard hr
    case stop => exact fun h0 h6 hstop hat => exec_stopCycleFinished_stops hu hreset h0 h6 hstop hat

end Sys2Proof.Machine

/-! SUPPORT. The step, the state at reset, and the statements that an overdue forced test or a register listed twice refutes. -/

namespace Sys2Proof.Machine

/-! ## The step and the state at reset (R403) -/

/-- Settles O1, by the equations of `step`. -/
theorem stepRunsFront : Obligations.StepRunsFront := by
  intro s
  refine ⟨fun c rest h => ?_, fun c => rfl, fun h => ?_⟩
  · simp only [step, h]
  · simp only [step, h, idle]

/-- A register that reset does not list has its reset word. -/
theorem rd_reset {a : Nat} (hcause : a ≠ RST_CAUSE) (hcnt : a ≠ RST_CNT) : State.reset.rd a = resetWord a := by
  simp [State.rd, State.reset, smGet, smFind, hcause, hcnt]

/-- The state word of a context at reset is that of its STAT register. -/
theorem cst_reset {k : Nat} (hk : k < 66) : cst State.reset k = 0 := by
  have all : ∀ k < 66, cst State.reset k = 0 := by decide +kernel
  exact all k hk

/-- Settles O2, by what reset lists: two registers, no memory, no queue. -/
theorem resetState : Obligations.ResetState := by
  refine ⟨rfl, fun a => rd_reset, ?_, ?_, rfl, ?_, ?_, rfl, rfl, rfl, fun k => cst_reset, rfl, rfl, rfl⟩ <;> decide +kernel

/-- Settles O3: at reset no message has gone and none is due, no frame is in transmission and no forced test runs. -/
theorem invariantAtReset : Obligations.InvariantAtReset := by
  refine ⟨?vectors, ?frames, ?test⟩
  case vectors => decide +kernel
  case frames => exact fun n _ x hx => by cases hx
  case test => exact fun hruns => absurd hruns (by decide +kernel)

/-! ## A short SPI frame and a memory test while a forced test is overdue (R358, R444, R447) -/

/-- The overdue test of `overdueTest`, after start-up has halted, where the SPI port responds (R367). -/
def overdueHalted : State :=
  { overdueTest with regs := [(MEM_FT_STAT, 0x20000000), (LDR_STATUS, 0xF0000000)] }

/-- Refutes O53, in its clause on a WRITE of fewer bytes than a word: the frame leaves the memories, but the end of its command aborts
an overdue forced test and makes the memories of its target undefined (R447). The byte listed at 0x10000000 is gone. -/
theorem not_spiPort : ¬ Obligations.SpiPort := by
  intro h
  obtain ⟨-, hshort, -⟩ := h overdueHalted (by decide) (by decide +kernel)
  obtain ⟨t, hrow, -, hmem, -⟩ := hshort 0 [0] (by decide) (by decide)
  obtain rfl : close (runSteps (spiWrite overdueHalted 0 [0])) = t := Host.Outcome.next.inj hrow
  have hgone : (close (runSteps (spiWrite overdueHalted 0 [0]))).mem = [] := by decide +kernel
  exact absurd (hgone.symm.trans hmem) (by decide)

/-- The row of the boot loader's START of a memory test on bank 0 in `overdueTest`. -/
def overdueBist : State := runSteps (busWrite overdueTest 16 MEM_BIST_CMD 0x100).1

/-- Refutes O60, in its clause on the START of a memory test, which leaves the memories: the end of the command aborts an overdue forced
test and makes the memories of its target undefined (R447). -/
theorem not_diagnostics : ¬ Obligations.Diagnostics := by
  intro h
  have hopen : opens overdueTest 16 MEM_BIST_CMD .mbx := by decide +kernel
  obtain ⟨-, -, -, hbist, -⟩ := h overdueTest 16 (by decide)
  obtain ⟨hstart, -⟩ := hbist hopen (by decide)
  obtain ⟨t, hrow, -, -, hmem, -⟩ := hstart 0 (by decide +kernel)
  have hrun : exec (.bistStart 16 0) overdueTest = .next (close { overdueBist with resp := .ok 0 }) := by
    have hresp : (busWrite overdueTest 16 MEM_BIST_CMD 0x100).2 = .ok 0 := by decide +kernel
    change writeRow overdueTest 16 MEM_BIST_CMD 0x100 = _
    unfold writeRow answer done
    exact congrArg _ (congrArg _ (congrArg (fun r => { overdueBist with resp := r }) hresp))
  obtain rfl : close { overdueBist with resp := .ok 0 } = t := Host.Outcome.next.inj (hrun.symm.trans hrow)
  have hgone : (close { overdueBist with resp := .ok 0 }).mem = [] := by decide +kernel
  exact absurd (hgone.symm.trans hmem) (by decide)

end Sys2Proof.Machine

/-! SUPPORT. RESETIN where a register is listed twice (R396, R403). -/

namespace Sys2Proof.Machine

/-- The registers of a cold reset by RESETIN: the reset counted, the cause recorded. -/
def resetinCounted (s : State) : State :=
  (State.raise { (s.sourceAt 3) with srcs := putBit s.srcs 3 true } RST_CAUSE (BitVec.ofNat 32 (2 ^ 3))).wrapInc RST_CNT 31 16

/-- What RESETIN leaves in RST_CNT where no source is asserted. -/
theorem rd_resetin_count {s : State} (hsrcs : s.srcs = 0) :
    (wideAssert s 3).rd RST_CNT = (coreReset (resetinCounted s) coldKeeps).rd RST_CNT := by
  unfold wideAssert
  rw [if_neg (by simp [hsrcs, bitAt])]
  simp only [hsrcs]
  exact (rd_ppsTakeover_count _ _).trans ((rd_coldEnter_count _).trans (by rw [resetinCounted, hsrcs]))

/-- Refutes O57, in its clause on RESETIN: it speaks of every register list. In `shadowedCount` RST_CNT wraps to its reset word, so its
entry goes; the cold reset then takes RST_CTRL from the list, which uncovers the second entry. COLD reads 5 and not 0. -/
theorem not_resetsAndDomains : ¬ Obligations.ResetsAndDomains := by
  intro h
  obtain ⟨⟨t, hrow, -, -, hcold⟩, -⟩ := h shadowedCount 0
  obtain ⟨-, hcnt, -⟩ := hcold (by decide)
  obtain rfl : close (wideAssert shadowedCount 3) = t := Host.Outcome.next.inj hrow
  have hwrap : (shadowedCount.fl RST_CNT 31 16 + 1) % 65536 = 0 := by decide +kernel
  have hfive : fld ((coreReset (resetinCounted shadowedCount) coldKeeps).rd RST_CNT) 31 16 = 5 := by decide +kernel
  rw [close_fl _ 31 16 (by decide), State.fl, rd_resetin_count rfl, hfive, hwrap] at hcnt
  exact absurd hcnt (by decide)

end Sys2Proof.Machine

/-! SUPPORT. Shared memory (R312, R315, R317): the access of an owner to a word that is defined and free of errors. -/

namespace Sys2Proof.Machine

/-- A write of bytes changes the memories alone. -/
theorem setBytes_eq (l : List Byte) (s : State) (a : Nat) : s.setBytes a l = { s with mem := (s.setBytes a l).mem } := by
  induction l generalizing s a with
  | nil => rfl
  | cons b l ih => exact ih (s.setByte a b) (a + 1)

/-- The bytes of an access, one by one. -/
theorem bytes_eq_map (s : State) (a n : Nat) : s.bytes a n = (List.range n).map (fun j => s.byte (a + j)) := by
  induction n generalizing a with
  | zero => rfl
  | succ n ih => simp [State.bytes, ih, List.range_succ_eq_map, Function.comp_def, Nat.add_assoc, Nat.add_comm 1]

theorem Size.bytes_ne_eight (sz : Size) : sz.bytes ≠ 8 := by cases sz <;> decide

section
variable {s : State} {a : Nat} (h : plainWord s a .good)
include h

/-- A word with good check bits and a value needs no settling. -/
theorem settleWord_good : s.settleWord (a / 8 * 8) = s := if_neg (by simp [h.2.2])

theorem sharedAcc_read {m : Nat} (ho : owns s m (bankOf a) = true) (n : Nat) :
    sharedAcc s m a n none .good = (s, .inl (leNat (s.bytes a n))) := by
  simp [sharedAcc, ho, checkAt_plain h, memEccNote, rawAcc, settleWord_good h]

theorem sharedAcc_write {m n : Nat} (ho : owns s m (bankOf a) = true) (hn : n ≠ 8) (v : Nat) :
    sharedAcc s m a n (some v) .good = (s.setBytes a (leBytes n v), .inl 0) := by
  simp [sharedAcc, ho, hn, checkAt_plain h, memEccNote, rawAcc, settleWord_good h]

end

/-- An access of an owner to shared memory, at an address aligned to its size, passes every test of R439. -/
theorem busAcc_shared {s t : State} {m a v : Nat} {sz : Size} {x : Acc} {u : Upset} (hi : canIssue s m = true)
    (ha : admits m .shared = true) (hr : regionOf a = some .shared) (hal : a % sz.bytes = 0)
    (hacc : sharedAcc s m a sz.bytes (accVal sz.bytes x) u = (t, .inl v)) :
    busAcc s m a sz x u = accept t (BitVec.ofNat 32 v) := by
  have hdiv : a / sz.bytes * sz.bytes = a := Nat.div_mul_cancel (Nat.dvd_of_mod_eq_zero hal)
  have hmem : Region.isMem .shared = true := rfl
  have hmask : maskedCell .shared = false := rfl
  simp only [busAcc, busAccFor, hi, hr, ha, hmem, hmask, hdiv, targetMem, hacc, shut_shared_of_canIssue hi, Bool.true_eq_false,
    Bool.false_eq_true, false_and, and_false, if_false, if_true]

/-- Where no forced test is overdue, the answer leaves every byte of memory. -/
theorem byte_answered {u : State} (h : testHeld u) (r : Resp) (b : Nat) : (answered u r).byte b = u.byte b := by
  have hmem : (answered u r).mem = u.mem := close_mem (s := { u with resp := r }) h
  simp only [State.byte, hmem]

/-- MEMORY_ACCESS where the access is accepted. -/
theorem exec_memoryAccess_accept {s t : State} {m : Master} {a : Word} {sz : Size} {x : Acc} {u : Upset} {v : Word}
    (h : busAcc s m.val a.toNat sz x u = accept t v) (ht : noSteps t) :
    exec (.memoryAccess m a sz x u) s = .next (answered t (.ok v)) := by
  change answer (busAcc s m.val a.toNat sz x u) = _
  rw [h, answer, runSteps_of_noSteps]
  · rfl
  · exact ht

/-- Settles O28: the owner's access is `sharedAcc`, and the end of the row leaves the memories, since no forced test is overdue. -/
theorem sharedMemory : Obligations.SharedMemory := by
  intro s m a v sz hs hheld hi hadm hreg hal howns hword
  constructor
  · have hbus := busAcc_shared (x := .wr v) hi hadm hreg hal (sharedAcc_write hword howns (Size.bytes_ne_eight sz) _)
    have hmem := setBytes_eq (leBytes sz.bytes (v.toNat % 2 ^ (8 * sz.bytes))) s a.toNat
    have hin := byte_setBytes_in (leBytes sz.bytes (v.toNat % 2 ^ (8 * sz.bytes))) s a.toNat
    have hout := byte_setBytes_out (leBytes sz.bytes (v.toNat % 2 ^ (8 * sz.bytes))) s a.toNat
    generalize s.setBytes a.toNat (leBytes sz.bytes (v.toNat % 2 ^ (8 * sz.bytes))) = u at *
    have hbyte := byte_answered (u := u) (by rw [hmem]; exact hheld) (.ok 0)
    refine ⟨_, exec_memoryAccess_accept hbus (by rw [hmem]; exact hs), answered_resp u _, fun j hj => ?_, fun b hb => ?_,
      fun r hr => ?_⟩
    · have hlen : j < (leBytes sz.bytes (v.toNat % 2 ^ (8 * sz.bytes))).length := by simpa using hj
      exact (hbyte _).trans ((hin j hlen).trans ((getElem_leBytes _ hlen).trans (ofNat_low_byte v.toNat hj)))
    · exact (hbyte b).trans (hout b (by simpa using hb))
    · exact (rd_answered u _ hr).trans (by rw [hmem]; rfl)
  · have hbus := busAcc_shared (x := .rd) hi hadm hreg hal (sharedAcc_read hword howns _)
    refine ⟨_, exec_memoryAccess_accept hbus hs, ?_, byte_answered hheld _⟩
    rw [answered_resp, bytes_eq_map]

end Sys2Proof.Machine

/-! SUPPORT. Masked writes (R345): a pair without the token, at a cell block and at the event fabric. -/

namespace Sys2Proof.Machine

/-- A pair that does not hold the token is masked. -/
theorem maskedPair_of_not_holder {s : State} {m : Master} (hm : m = 9 ∨ m = 10) (hh : holder s + 8 ≠ m.val) :
    maskedPair s m.val = true := by
  have hpair : m.val = 9 ∨ m.val = 10 := by
    rcases hm with rfl | rfl
    · exact .inl rfl
    · exact .inr rfl
  simp [maskedPair, hpair, hh]

@[simp] theorem maskCount_ctxH (s : State) (m : Nat) : (maskCount s m).ctxH = s.ctxH := by
  simp only [maskCount, State.satInc, State.setFl, apply_ite State.ctxH, State.wr_ctxH, ite_self]

@[simp] theorem maskCount_fifo (s : State) (m : Nat) : (maskCount s m).fifo = s.fifo := by
  simp only [maskCount, State.satInc, State.setFl, apply_ite State.fifo, State.wr_fifo, ite_self]

@[simp] theorem maskCount_cellH (s : State) (m : Nat) : (maskCount s m).cellH = s.cellH := by
  simp only [maskCount, State.satInc, State.setFl, apply_ite State.cellH, State.wr_cellH, ite_self]

/-- The count of masked writes is all that changes. -/
theorem rd_maskCount_ne (s : State) (m : Nat) {b : Nat} (h : b ≠ ARB_MASK) : (maskCount s m).rd b = s.rd b := by
  unfold maskCount
  split
  · exact rd_satInc_ne s _ _ _ h
  · exact rd_satInc_ne s _ _ _ h

/-- A write to an open cell block is masked at any size and offset, before the cell examines it. -/
theorem busAcc_cell_masked {s : State} {m a c : Nat} (hi : canIssue s m = true) (hr : regionOf a = some (.cell c))
    (hshut : shut s m (.cell c) = false) (hm : maskedPair s m = true) (sz : Size) (v : Word) (u : Upset) :
    busAcc s m a sz (.wr v) u = accept (maskCount s m) := by
  have hw : (Acc.wr v != .rd) = true := rfl
  have hcell : maskedCell (.cell c) = true := rfl
  simp only [busAcc, busAccFor, hi, hr, hw, hcell, hm, hshut, and_self, if_true, Bool.true_eq_false, if_false]

/-- A word write to a masked register of the event fabric. -/
theorem busAcc_evf_masked {s : State} {m : Master} {a : Nat} (h : opens s m a .evf) (hm : maskedPair s m.val = true)
    (ht : maskedTarget .evf (a % 0x10000) = true) (v : Word) : busAcc s m.val a .w (.wr v) .good = accept (maskCount s m.val) := by
  have hbus := busWrite_opens h (.inl rfl) v
  simpa [targetWrite, hm, ht, busWrite] using hbus

/-- Settles O30: both forms of the write end at the count of masked writes. -/
theorem maskedWrites : Obligations.MaskedWrites := by
  intro s m a v sz hs hpair hholder htarget
  have hm := maskedPair_of_not_holder hpair hholder
  have hbus : busAcc s m.val a.toNat sz (.wr v) .good = accept (maskCount s m.val) := by
    rcases htarget with ⟨hi, c, hr, hshut⟩ | ⟨hopen, rfl, hevf⟩
    · exact busAcc_cell_masked hi hr hshut hm sz v .good
    · exact busAcc_evf_masked hopen hm hevf v
  have hrow : exec (.registerWrite m a sz (.wr v)) s = .next (answered (maskCount s m.val) (.ok 0)) := by
    change answer (busAcc s m.val a.toNat sz (.wr v) .good) = _
    rw [hbus, answer, runSteps_of_noSteps]
    · rfl
    · simpa only [noSteps, maskCount_ctxH] using hs
  refine ⟨_, hrow, answered_resp _ _, ?_, ?_, fun b hmask hclose => ?_⟩
  · rw [answered_fifo, maskCount_fifo]
  · rw [answered_cellH, maskCount_cellH]
  · rw [rd_answered _ _ hclose, rd_maskCount_ne _ _ hmask]

end Sys2Proof.Machine

/-! SUPPORT. The FPU operations (R335): what each writes, as a number, and its flags. -/

namespace Sys2Proof.Machine

/-! ## FPU instructions that issue -/

/-- The operations of opcode 0x2D (Table 15.1). -/
def fpuRows : List JMn :=
  [.fadd, .fsub, .fmul, .fdiv, .fsqrt, .fmin, .fmax, .fneg, .fabs, .feq, .flt, .fle, .fcvtdw, .fcvtwd, .fcvtds, .fcvtsd]

/-- An FPU operation completes with what `fpuOp` makes of the state. -/
theorem jSem_fpu {i : JMn} (hi : i ∈ fpuRows) (s : State) (k : Nat) (w : Word) (u : Upset) :
    jSem s k i w u = .nxt ((fpuOp s k i w).getD s) := by
  have hsem : jSem s k i w u = match fpuOp s k i w with | some s => .nxt s | none => .nxt s := by
    simp only [fpuRows, List.mem_cons, List.not_mem_nil, or_false] at hi
    rcases hi with rfl | rfl | rfl | rfl | rfl | rfl | rfl | rfl | rfl | rfl | rfl | rfl | rfl | rfl | rfl | rfl
    all_goals rfl
  rw [hsem]
  cases fpuOp s k i w with
  | none => rfl
  | some t => rfl

section
variable {s s1 : State} {x : CtxId} {f : Upset} {i : JMn} {w : Word} (h : issues s x f i w s1) (hi : i ∈ fpuRows)
include h hi

/-- An operation that writes an FPU register gives its result, in whatever form the result is written. -/
theorem jRow_fpuF {r r' : Nat × Nat} (hr : fpuF i (s1.fl (ctxReg (ctxKey x) 17) 6 5) (getF s1 (ctxKey x) (jRa w))
      (getF s1 (ctxKey x) (jRb w)) (getG s1 (ctxKey x) (jRa w)).toNat = some r) (he : r = r') :
    jRow s x i f .good = givesF s s1 x i w r' := by
  have hop : fpuOp s1 (ctxKey x) i w = some (fFlags (setF s1 (ctxKey x) (jRd w) r.1) (ctxKey x) r.2) := by
    simp only [fpuOp, fRm, hr]
  subst he
  exact jRow_completes h ((jSem_fpu hi _ _ _ _).trans (by rw [hop]; rfl))

/-- An operation that writes a general register gives its value and its flags; `s'` has taken the free value of FCVTWD. -/
theorem jRow_fpuG {s' : State} {v v' : Word} {fl fl' : Nat} (hf : fpuF i (s1.fl (ctxReg (ctxKey x) 17) 6 5)
      (getF s1 (ctxKey x) (jRa w)) (getF s1 (ctxKey x) (jRb w)) (getG s1 (ctxKey x) (jRa w)).toNat = none)
    (hr : fpuG i (s1.fl (ctxReg (ctxKey x) 17) 6 5) (getF s1 (ctxKey x) (jRa w)) (getF s1 (ctxKey x) (jRb w))
      (Config.freeBit s1.freeCtr) = some (v, fl))
    (hs : (if i = .fcvtwd then { s1 with freeCtr := s1.freeCtr + 1 } else s1) = s') (hv : v = v') (hfl : fl % 32 = fl') :
    jRow s x i f .good = givesFlags s s' x i w v' fl' := by
  have hop : fpuOp s1 (ctxKey x) i w = some (fFlags (setG s' (ctxKey x) (jRd w) v) (ctxKey x) fl) := by
    simp only [fpuOp, fRm, hf, hr, hs]
  subst hv hfl
  exact jRow_completes h ((jSem_fpu hi _ _ _ _).trans (by rw [hop]; rfl))

end

/-! ## Values -/

theorem getF_lt (s : State) (k i : Nat) : getF s k i < 2 ^ 64 := BitVec.isLt _

/-- Turning bit `n` of a number below it sets it. -/
theorem xor_two_pow {a n : Nat} (h : a < 2 ^ n) : a ^^^ 2 ^ n = a + 2 ^ n := by
  have hor : a + 2 ^ n = 2 ^ n ||| a := by rw [Nat.add_comm]; simpa using Nat.two_pow_add_eq_or_of_lt h 1
  rw [hor]
  refine Nat.eq_of_testBit_eq fun i => ?_
  rw [Nat.testBit_xor, Nat.testBit_or, Nat.testBit_two_pow]
  by_cases hi : n = i
  · subst hi
    simp [Nat.testBit_lt_two_pow h]
  · simp [hi]

/-- FNEG turns the sign bit. -/
theorem fNeg_eq_xor {a : Nat} (h : a < 2 ^ 64) : fNeg a = (BitVec.ofNat 64 a ^^^ BitVec.ofNat 64 (2 ^ 63)).toNat := by
  have hsgn : f64.sgn = 2 ^ 63 := rfl
  have hword : (BitVec.ofNat 64 a ^^^ BitVec.ofNat 64 (2 ^ 63)).toNat = a ^^^ 2 ^ 63 := by
    rw [BitVec.toNat_xor, BitVec.toNat_ofNat, BitVec.toNat_ofNat, Nat.mod_eq_of_lt h]
    rfl
  rw [hword, fNeg, fSign, hsgn]
  simp only [beq_iff_eq]
  split
  · have hlow : a - 2 ^ 63 < 2 ^ 63 := by omega
    have hset : a = (a - 2 ^ 63) ^^^ 2 ^ 63 := by rw [xor_two_pow hlow]; omega
    conv_rhs => rw [hset, Nat.xor_assoc, Nat.xor_self, Nat.xor_zero]
  · rw [xor_two_pow (by omega)]

/-- FABS clears the sign bit. -/
theorem fAbs_eq_mod (a : Nat) : fAbs a = a % 2 ^ 63 := rfl

/-- The results of the arithmetic operations with a NaN operand (R335). -/
theorem arithmetic_nan (rm : Nat) {a b : Nat} (h : isNan f64 a ∨ isNan f64 b) : (fAdd rm a b).1 = 0x7FF8000000000000 ∧
    (fSub rm a b).1 = 0x7FF8000000000000 ∧ (fMul rm a b).1 = 0x7FF8000000000000 ∧ (fDiv rm a b).1 = 0x7FF8000000000000 := by
  have hor : (isNan f64 a || isNan f64 b) = true := by simpa using h
  have hnan : f64.nan = 0x7FF8000000000000 := rfl
  refine ⟨?_, ?_, ?_, ?_⟩
  · simp [fAdd, hor, nanResult, hnan]
  · rw [fSub]
    split
    · exact hnan
    · next hb =>
      have ha : isNan f64 a = true := h.resolve_right hb
      simp [fAdd, ha, nanResult, hnan]
  · simp [fMul, hor, nanResult, hnan]
  · simp [fDiv, hor, nanResult, hnan]

/-- A comparison with a NaN is false (R335). -/
theorem compare_nan {a b : Nat} (h : isNan f64 a ∨ isNan f64 b) :
    (fEq a b).1 = false ∧ (fLt a b).1 = false ∧ (fLe a b).1 = false := by
  have hor : (isNan f64 a || isNan f64 b) = true := by simpa using h
  simp [fEq, fLt, fLe, hor]

/-- FEQ raises NV on a signalling NaN only. -/
theorem fEq_flags (a b : Nat) : (fEq a b).2 % 32 = if isSnan f64 a ∨ isSnan f64 b then 16 else 0 := by
  have hsnan {c : Nat} (h : isSnan f64 c = true) : isNan f64 c = true := by
    simp only [isSnan, Bool.and_eq_true] at h
    exact h.1
  by_cases hs : isSnan f64 a ∨ isSnan f64 b
  · have hor : (isNan f64 a || isNan f64 b) = true := by simpa using hs.imp hsnan hsnan
    simp [fEq, hor, hs]
  · have hor : (isSnan f64 a || isSnan f64 b) = false := by simpa using hs
    rw [if_neg hs, fEq, hor]
    split
    · rfl
    · rfl

/-- FLT raises NV on every NaN. -/
theorem fLt_flags (a b : Nat) : (fLt a b).2 % 32 = if isNan f64 a ∨ isNan f64 b then 16 else 0 := by
  simp only [fLt, Bool.or_eq_true]
  split <;> rfl

/-- FLE raises NV on every NaN. -/
theorem fLe_flags (a b : Nat) : (fLe a b).2 % 32 = if isNan f64 a ∨ isNan f64 b then 16 else 0 := by
  simp only [fLe, Bool.or_eq_true]
  split <;> rfl

theorem fOfInt_sext (g : Word) : fOfInt (sext 32 g.toNat) = fOfInt g.toInt := by
  rw [sext_eq_toInt (by decide), BitVec.ofNat_toNat, BitVec.setWidth_eq]

/-- The flags of FCVTWD, with the free NX. -/
theorem fcvtwd_flags (nv nx free : Bool) : ((if nv then 16 else 0) + (if nx && free then 1 else 0)) % 32 =
    (if nv then 16 else 0) + if nx then free.toNat else 0 := by
  cases nv <;> cases nx <;> cases free <;> rfl

/-- Settles O22, operation by operation. -/
theorem fpuArithmetic : Obligations.FpuArithmetic := by
  constructor
  · rintro s b f w s1 x rm p q g - rfl rfl rfl rfl
    have hneg := fNeg_eq_xor (getF_lt s1 (ctxKey x) (jRa w))
    refine ⟨arithmetic_nan _, ?_, ?_, ?_, ?_, ?_, ?_, ?_, ?_, ?_, ?_, ?_⟩
    all_goals intro h
    · exact jRow_fpuF h (by decide) rfl rfl
    · exact jRow_fpuF h (by decide) rfl rfl
    · exact jRow_fpuF h (by decide) rfl rfl
    · exact jRow_fpuF h (by decide) rfl rfl
    · exact jRow_fpuF h (by decide) rfl rfl
    · exact jRow_fpuF h (by decide) rfl rfl
    · exact jRow_fpuF h (by decide) rfl rfl
    · exact jRow_fpuF h (by decide) rfl (by rw [hneg])
    · exact jRow_fpuF h (by decide) rfl (by rw [fAbs_eq_mod])
    · exact jRow_fpuF h (by decide) rfl (by rw [fOfInt_sext])
    · exact jRow_fpuF h (by decide) rfl rfl
  · rintro s b f w s1 x rm p q - rfl rfl rfl
    refine ⟨fun h => ?_, fun h => ?_, fun h => ?_, compare_nan, fun h => ?_, fun h => ?_⟩
    · exact jRow_fpuG h (by decide) rfl rfl rfl rfl (fEq_flags _ _)
    · exact jRow_fpuG h (by decide) rfl rfl rfl rfl (fLt_flags _ _)
    · exact jRow_fpuG h (by decide) rfl rfl rfl rfl (fLe_flags _ _)
    · exact jRow_fpuG h (by decide) rfl rfl rfl rfl rfl
    · exact ⟨(Config.freeBit s1.freeCtr).toNat, Bool.toNat_le _, jRow_fpuG h (by decide) rfl rfl rfl rfl (fcvtwd_flags _ _ _)⟩

end Sys2Proof.Machine

/-! SUPPORT. FLD and FST of the control pairs (R335, R336). -/

namespace Sys2Proof.Machine

/-- A context of a pair is not one of an engine. -/
theorem onEngine_pair (b : Bool) : onEngine (ctxKey (.pair b)) = false := by cases b <;> rfl

theorem ownScratch_of_pair {k : Nat} (hk : onEngine k = false) (a : Nat) : ownScratch k a = false := by
  rw [ownScratch, hk, Bool.false_and]

/-- Where no copy may be cached, the data cache gives none. -/
theorem dcacheHit_uncached {s : State} {k a : Nat} (hc : cacheable s k a = false) (n : Nat) : dcacheHit s k a n = (s, none) := by
  have hcopy : cachedCopy s s.dcache k a = (s, none) := if_neg (by simp [hc])
  simp only [dcacheHit, hcopy]

/-- An uncached load of a pair blocks its context (R335). -/
theorem jLoadAt_uncached {s : State} {k a : Nat} (hk : onEngine k = false) (hob : regionOf a ≠ some .ob)
    (hprot : protOk s k a 3 = true) (hc : cacheable s k a = false) (n rd : Nat) (sg pop fpu : Bool) (u : Upset) :
    jLoadAt s k a n rd sg pop fpu u = .hold (blockOn s k (.load a n rd sg pop fpu)) := by
  rw [jLoadAt, if_neg (by simp [ownScratch_of_pair hk]), if_neg (by simp [hprot]), if_neg hob, dcacheHit_uncached hc]

/-- A store changes only copies in the data cache before it is posted (R337). -/
theorem dcachePatch_eq (s : State) (k a n v : Nat) : ∃ d, dcachePatch s k a n v = { s with dcache := d } := by
  unfold dcachePatch
  split
  · exact ⟨_, rfl⟩
  · split
    · exact ⟨_, rfl⟩
    · exact ⟨_, rfl⟩

theorem dcacheStore_eq (s : State) (k a n v : Nat) : ∃ d, dcacheStore s k a n v = { s with dcache := d } := by
  unfold dcacheStore
  split
  · obtain ⟨d, hd⟩ := dcachePatch_eq s k a 4 v
    obtain ⟨e, he⟩ := dcachePatch_eq (dcachePatch s k a 4 v) k (a + 4) 4 (v / 2 ^ 32)
    exact ⟨e, by rw [he, hd]⟩
  · exact dcachePatch_eq s k a n v

/-- A permitted store of a pair is posted, behind the stores before it (R336). -/
theorem jStoreAt_pair {s : State} {k a : Nat} (hk : onEngine k = false) (hprot : protOk s k a 2 = true)
    (hlen : (postedOf s k).length < 4) (n v : Nat) (u : Upset) :
    ∃ t, jStoreAt s k a n v false u = .nxt t ∧ (t.ctx k).posted = (s.ctx k).posted ++
      [{ addr := a, size := n, val := v, seq := s.issueNo, cyc := cpuNow s (ctxBlk k) }] ∧ ∀ c, t.rd c = s.rd c := by
  obtain ⟨d, hd⟩ := dcacheStore_eq s k a n v
  rw [jStoreAt, if_neg (by simp [ownScratch_of_pair hk]), if_neg (by simp [hprot]), if_neg (Nat.not_le.2 hlen), hd]
  exact ⟨_, rfl, congrArg CtxH.posted (ctx_setCtx_self { s with dcache := d } k _), fun c => rfl⟩

/-- Settles O23, from the issue of each instruction. -/
theorem fpuMemory : Obligations.FpuMemory := by
  rintro s b f u w s1 x a rfl rfl ha hob
  rw [← jImm_eq_immS] at ha hob ⊢
  have hk := onEngine_pair b
  refine ⟨fun h hprot hc => ?_, fun h hprot hlen => ?_⟩
  · obtain ⟨t, hrow, hblk, -⟩ := jRow_blocks h
      ((if_neg (not_not.2 ha)).trans (jLoadAt_uncached hk hob hprot hc 8 (jRd w) false false true u))
      (by rw [ctx_blockOn_self]; exact Blk.noConfusion)
    exact ⟨t, hrow, by rw [hblk, ctx_blockOn_self]⟩
  · obtain ⟨t, hst, hposted, hrd⟩ := jStoreAt_pair hk hprot hlen 8 (getF s1 (ctxKey (.pair b)) (jRd w)) u
    exact ⟨t, jRow_completes h ((if_neg (not_not.2 ha)).trans hst), hposted, hrd⟩

end Sys2Proof.Machine

/-! SUPPORT. Fields and bits of registers through the writes of registers. -/

namespace Sys2Proof.Machine

/-- Registers read alike where the stores are the same. -/
theorem rd_of_regs {s t : State} (h : t.regs = s.regs) (a : Nat) : t.rd a = s.rd a := by
  simp only [State.rd, h]

theorem bt_of_regs {s t : State} (h : t.regs = s.regs) (a i : Nat) : t.bt a i = s.bt a i := by
  simp only [State.bt, rd_of_regs h]

theorem fl_of_regs {s t : State} (h : t.regs = s.regs) (a hi lo : Nat) : t.fl a hi lo = s.fl a hi lo := by
  simp only [State.fl, rd_of_regs h]

/-- No context has a STEP under way where the contexts are the same. -/
theorem noSteps_of_ctxH {s t : State} (hs : noSteps s) (h : t.ctxH = s.ctxH) : noSteps t := by
  unfold noSteps
  rwa [h]

/-! ## Another register -/

section
variable (s : State) {a b : Nat} (hi lo : Nat) (i : Nat) (h : b ≠ a)
include h

theorem fl_setFl_ne (hi' lo' v : Nat) : (s.setFl a hi' lo' v).fl b hi lo = s.fl b hi lo := by
  simp only [State.fl, rd_setFl_ne s _ _ _ h]
theorem fl_setBt_ne (j : Nat) (v : Bool) : (s.setBt a j v).fl b hi lo = s.fl b hi lo := by
  simp only [State.fl, rd_setBt_ne s _ _ h]
theorem fl_raise_ne (w : Word) : (s.raise a w).fl b hi lo = s.fl b hi lo := by simp only [State.fl, rd_raise_ne s _ h]
theorem fl_wr_ne (w : Word) : (s.wr a w).fl b hi lo = s.fl b hi lo := by simp only [State.fl, rd_wr_ne s _ h]
theorem fl_satInc_ne (hi' lo' n : Nat) : (s.satInc a hi' lo' n).fl b hi lo = s.fl b hi lo := by
  simp only [State.fl, rd_satInc_ne s _ _ _ h]
theorem fl_wrapInc_ne (hi' lo' n : Nat) : (s.wrapInc a hi' lo' n).fl b hi lo = s.fl b hi lo := by
  simp only [State.fl, rd_wrapInc_ne s _ _ _ h]
theorem bt_setFl_ne (hi' lo' v : Nat) : (s.setFl a hi' lo' v).bt b i = s.bt b i := by
  simp only [State.bt, rd_setFl_ne s _ _ _ h]
theorem bt_setBt_reg_ne (j : Nat) (v : Bool) : (s.setBt a j v).bt b i = s.bt b i := by
  simp only [State.bt, rd_setBt_ne s _ _ h]
theorem bt_raise_ne (w : Word) : (s.raise a w).bt b i = s.bt b i := by simp only [State.bt, rd_raise_ne s _ h]
theorem bt_wr_ne (w : Word) : (s.wr a w).bt b i = s.bt b i := by simp only [State.bt, rd_wr_ne s _ h]
theorem bt_satInc_ne (hi' lo' n : Nat) : (s.satInc a hi' lo' n).bt b i = s.bt b i := by
  simp only [State.bt, rd_satInc_ne s _ _ _ h]
theorem bt_wrapInc_ne (hi' lo' n : Nat) : (s.wrapInc a hi' lo' n).bt b i = s.bt b i := by
  simp only [State.bt, rd_wrapInc_ne s _ _ _ h]

end

/-! ## The same register -/

section
variable (s : State) (a : Nat) {hi lo hi' lo' i : Nat}

theorem bt_setFl_apart (v : Nat) (h : lo ≤ hi) (h32 : hi < 32) (hd : hi < i ∨ i < lo) :
    (s.setFl a hi lo v).bt a i = s.bt a i := by
  rw [State.bt, rd_setFl_self, bitAt_setFld_apart _ _ h h32 hd, State.bt]

theorem bt_wrapInc_apart (n : Nat) (h : lo ≤ hi) (h32 : hi < 32) (hd : hi < i ∨ i < lo) :
    (s.wrapInc a hi lo n).bt a i = s.bt a i := bt_setFl_apart s a _ h h32 hd

theorem bt_satInc_apart (n : Nat) (h : lo ≤ hi) (h32 : hi < 32) (hd : hi < i ∨ i < lo) :
    (s.satInc a hi lo n).bt a i = s.bt a i := bt_setFl_apart s a _ h h32 hd

theorem fl_wrapInc_self (h : lo ≤ hi) (h32 : hi < 32) :
    (s.wrapInc a hi lo).fl a hi lo = (s.fl a hi lo + 1) % 2 ^ (hi + 1 - lo) := fl_setFl_self s a _ _ _ h h32

theorem fl_wrapInc_apart (n : Nat) (h : lo ≤ hi) (h32 : hi < 32) (hl : lo' ≤ hi') (hd : hi < lo' ∨ hi' < lo) :
    (s.wrapInc a hi lo n).fl a hi' lo' = s.fl a hi' lo' := fl_setFl_apart s a _ h h32 hl hd

theorem fl_satInc_apart (n : Nat) (h : lo ≤ hi) (h32 : hi < 32) (hl : lo' ≤ hi') (hd : hi < lo' ∨ hi' < lo) :
    (s.satInc a hi lo n).fl a hi' lo' = s.fl a hi' lo' := fl_setFl_apart s a _ h h32 hl hd

/-- A bit after a raise: what it was, or a bit of the mask. -/
theorem bt_raise_self (w : Word) : (s.raise a w).bt a i = (s.bt a i || bitAt w i) := by
  rw [State.bt, State.raise, rd_wr_self, bitAt_or, State.bt]

end

end Sys2Proof.Machine

/-! SUPPORT. The flash update service (R378, R379): its commands and the ends of its operations. -/

namespace Sys2Proof.Machine

/-! ## Commands -/

/-- Where a master sees LDR_FUCMD, a write of it is a command of the service. -/
theorem writeRow_fuCommand {s u : State} {m : Master} {v : Word} (h : opens s m LDR_FUCMD .ldr)
    (hcmd : fuCommand s m.val v = accept u) (hu : noSteps u) : writeRow s m LDR_FUCMD v = .next (answered u (.ok 0)) :=
  writeRow_accept h (.inl rfl) ((targetWrite_ldr s m.val LDR_FUCMD v).trans hcmd) hu

/-- A command that starts an operation, accepted. -/
theorem fuCommand_begin {s : State} {m op : Nat} {v : Word} {copy : Bool} (hop : fld v 3 0 = op) (hkey : fld v 31 16 = 0xA55A)
    (hcopy : bitAt v 4 = copy) (hrange : op < 8 ∧ op ≠ 0 ∧ op ≠ 6) (hown : fuOwner s m = true) (hidle : fuBusy s = false)
    (hsusp : s.bt LDR_FUSTAT 30 = true ∨ op = 3 ∨ op = 7) (hclr : op = 4 → s.ldrH.verified = true)
    (hpe : op = 7 → peStill s (s.fl LDR_FUADDR 2 0) = true ∧ s.fl LDR_FUADDR 2 0 + 1 ≠ m) :
    fuCommand s m v = accept (fuBegin s op copy) := by
  obtain ⟨h8, h0, h6⟩ := hrange
  unfold fuCommand
  rw [hop, hkey, hcopy, if_neg (by simp [hown]; omega), if_neg h0, if_neg, if_neg, if_neg, if_neg h6]
  · rintro ⟨h7, hstill | hself⟩
    · exact absurd ((hpe h7).1.symm.trans hstill) (by decide)
    · exact (hpe h7).2 hself
  · rintro ⟨h4, hver⟩
    exact absurd ((hclr h4).symm.trans hver) (by decide)
  · rintro (⟨hbusy, -⟩ | ⟨hnot, h3, h7⟩)
    · exact absurd (hidle.symm.trans hbusy) (by decide)
    · rcases hsusp with h | h | h
      · exact absurd (h.symm.trans hnot) (by decide)
      · exact h3 h
      · exact h7 h

/-- ABORT with the flash suspended to the service (R378). -/
theorem fuCommand_abort {s : State} {m : Nat} (hown : fuOwner s m = true) (hsusp : s.bt LDR_FUSTAT 30 = true) :
    fuCommand s m 0xA55A0006 = accept (fuRes s 2) := by
  have hop : fld 0xA55A0006 3 0 = 6 := by decide
  have hkey : fld 0xA55A0006 31 16 = 0xA55A := by decide
  unfold fuCommand
  rw [hop, hkey]
  simp [hown, hsusp]

/-- The state in which an accepted command begins: BUSY, and RES at OK. -/
def fuStarted (s : State) : State := fuRes (s.setBt LDR_FUSTAT 31 true) 0

@[simp] theorem fuStarted_ldrH (s : State) : (fuStarted s).ldrH = s.ldrH := by
  simp only [fuStarted, fuRes, State.setFl, State.setBt, State.wr_ldrH]

@[simp] theorem fuStarted_flash (s : State) : (fuStarted s).flash = s.flash := by
  simp only [fuStarted, fuRes, State.setFl, State.setBt, State.wr_flash]

theorem fuWarned_fuStarted (s : State) : fuWarned (fuStarted s) = fuWarned s := by
  simp (disch := decide) only [fuStarted, fuWarned, brownWarn, seqState, pgood, fuRes, fl_setFl_ne, bt_setFl_ne, fl_setBt_ne,
    bt_setBt_reg_ne]

theorem bt_fuStarted_busy (s : State) : (fuStarted s).bt LDR_FUSTAT 31 = true := by
  rw [fuStarted, fuRes, bt_setFl_apart _ _ _ (by decide) (by decide) (by decide), bt_setBt_self _ _ _ _ (by decide)]

/-- ERASE of an aligned block, with no warning (R378), from the state `u` in which it begins. -/
theorem fuBegin_erase {s u : State} (hu : fuStarted s = u) (hwarn : fuWarned u = false) (hldr : u.ldrH = s.ldrH)
    (ha : s.fl LDR_FUADDR 27 0 % 65536 = 0) :
    fuBegin s 1 false = { u with ldrH := { s.ldrH with op := 1, opAddr := s.fl LDR_FUADDR 27 0, verified := false } } := by
  have hfold : fuRes (s.setBt LDR_FUSTAT 31 true) 0 = u := hu
  unfold fuBegin
  rw [hfold]
  simp only [hwarn, ha, hldr, if_true, Bool.false_eq_true, and_false, if_false]

/-- What it shows. -/
theorem fuBegin_erase_shows {s : State} (hw : fuWarned s = false) (ha : s.fl LDR_FUADDR 27 0 % 65536 = 0) :
    (fuBegin s 1 false).bt LDR_FUSTAT 31 = true ∧ (fuBegin s 1 false).ldrH.op = 1 ∧
      (fuBegin s 1 false).ldrH.opAddr = s.fl LDR_FUADDR 27 0 ∧ (fuBegin s 1 false).flash = s.flash := by
  obtain ⟨u, hu⟩ : ∃ u, fuStarted s = u := ⟨_, rfl⟩
  have hwarn : fuWarned u = false := by rw [← hu, fuWarned_fuStarted, hw]
  have hldr : u.ldrH = s.ldrH := by rw [← hu, fuStarted_ldrH]
  have hflash : u.flash = s.flash := by rw [← hu, fuStarted_flash]
  have hbusy : u.bt LDR_FUSTAT 31 = true := by rw [← hu, bt_fuStarted_busy]
  rw [fuBegin_erase hu hwarn hldr ha]
  exact ⟨(bt_of_regs (s := u) rfl _ _).trans hbusy, rfl, rfl, hflash⟩

/-! ## The ends of operations (R379) -/

/-- The operation forgotten. -/
def fuForgotten (s : State) : State := { s with ldrH := { s.ldrH with op := 0, opData := [] } }

/-- FUERR where RES is not OK. -/
def fuErrored (s : State) : State := if s.fl LDR_FUSTAT 29 28 = 0 then s else s.raise LDR_IRQSTAT 0x2

/-- Not BUSY, counted, FUDONE. -/
def fuCounted (s : State) : State := ((s.setBt LDR_FUSTAT 31 false).wrapInc LDR_FUSTAT 15 0).raise LDR_IRQSTAT 0x1

/-- An operation that runs ends with its effect. -/
theorem flashOpDone_busy {s : State} (hw : wideReset s = false) (hb : fuBusy s = true) (fail manifest : Bool) :
    flashOpDone s fail manifest = fuErrored (fuForgotten (fuCounted (fuEffect s fail manifest))) := by
  rw [flashOpDone, if_neg (by simp [hw, hb])]
  rfl

/-- What the end of an operation leaves, and what it shows. -/
structure FuEnds (s t : State) : Prop where
  flash : t.flash = s.flash
  ctxH : t.ctxH = s.ctxH
  verified : t.ldrH.verified = s.ldrH.verified
  busy : t.bt LDR_FUSTAT 31 = false
  count : t.fl LDR_FUSTAT 15 0 = (s.fl LDR_FUSTAT 15 0 + 1) % 65536
  code : t.fl LDR_FUSTAT 23 16 = s.fl LDR_FUSTAT 23 16
  done : t.bt LDR_IRQSTAT 0 = true

theorem fuEnds_counted (s : State) : FuEnds s (fuCounted s) where
  flash := by simp only [fuCounted, State.wrapInc, State.setFl, State.setBt, State.raise, State.wr_flash]
  ctxH := by simp only [fuCounted, State.wrapInc, State.setFl, State.setBt, State.raise, State.wr_ctxH]
  verified := by simp only [fuCounted, State.wrapInc, State.setFl, State.setBt, State.raise, State.wr_ldrH]
  busy := by
    rw [fuCounted, bt_raise_ne _ _ (by decide), bt_wrapInc_apart _ _ _ (by decide) (by decide) (by decide),
      bt_setBt_self _ _ _ _ (by decide)]
  count := by
    rw [fuCounted, fl_raise_ne _ _ _ (by decide), fl_wrapInc_self _ _ (by decide) (by decide),
      fl_setBt_apart _ _ _ (by decide) (by decide) (by decide), show 2 ^ (15 + 1 - 0) = 65536 by decide]
  code := by
    rw [fuCounted, fl_raise_ne _ _ _ (by decide), fl_wrapInc_apart _ _ _ (by decide) (by decide) (by decide) (by decide),
      fl_setBt_apart _ _ _ (by decide) (by decide) (by decide)]
  done := bt_raise _ (by decide)

theorem FuEnds.forgotten {s t : State} (h : FuEnds s t) : FuEnds s (fuForgotten t) where
  flash := h.flash
  ctxH := h.ctxH
  verified := h.verified
  busy := h.busy
  count := h.count
  code := h.code
  done := h.done

theorem FuEnds.errored {s t : State} (h : FuEnds s t) : FuEnds s (fuErrored t) := by
  unfold fuErrored
  split
  · exact h
  · exact {
      flash := h.flash
      ctxH := h.ctxH
      verified := h.verified
      busy := by rw [bt_raise_ne _ _ (by decide), h.busy]
      count := by rw [fl_raise_ne _ _ _ (by decide), h.count]
      code := by rw [fl_raise_ne _ _ _ (by decide), h.code]
      done := by rw [bt_raise_self, h.done, Bool.true_or] }

/-- The row of an operation's end, from its effect. -/
theorem exec_flashOpDone {s : State} (hw : wideReset s = false) (hb : fuBusy s = true) (manifest : Bool) {e : State}
    (he : fuEffect s false manifest = e) (hs : noSteps e) :
    ∃ t, exec (.flashOpDone false manifest) s = .next (close t) ∧ FuEnds e t := by
  have hends : FuEnds e (flashOpDone s false manifest) := by
    rw [flashOpDone_busy hw hb, he]
    exact (fuEnds_counted e).forgotten.errored
  refine ⟨_, congrArg done (runSteps_of_noSteps (flashOpDone s false manifest) ?_), hends⟩
  unfold noSteps
  rwa [hends.ctxH]

end Sys2Proof.Machine

/-! SUPPORT. The boot flash and the fuses (R378, R379, R382): what an erase, a page and a blow leave in each byte and word. -/

namespace Sys2Proof.Machine

/-! ## Bytes of the flash -/

theorem smFind_eq_none_of_forall {α : Type} {m : SMap α} {k : Nat} (h : ∀ e ∈ m, e.1 ≠ k) : smFind m k = none := by
  cases hf : smFind m k with
  | none => rfl
  | some v => exact absurd rfl (h _ (mem_of_smFind hf))

/-- An erased byte reads 0xFF. -/
theorem flashByte_eraseFlash (s : State) {lo n i : Nat} (h : i < n) : flashByte (eraseFlash s lo n) (lo + i) = 0xFF := by
  have hnone : smFind (eraseFlash s lo n).flash (lo + i) = none := by
    refine smFind_eq_none_of_forall fun e he => ?_
    have hout := (List.mem_filter.1 he).2
    simp only [Bool.or_eq_true, decide_eq_true_eq] at hout
    omega
  rw [flashByte, smGet, hnone]
  rfl

/-- Setting bytes changes only the flash. -/
theorem setFlash_eq (l : List Byte) (s : State) (o : Nat) : ∃ f, setFlash s o l = { s with flash := f } := by
  induction l generalizing s o with
  | nil => exact ⟨s.flash, rfl⟩
  | cons x r ih =>
    obtain ⟨f, hf⟩ := ih { s with flash := smSet 0xFF s.flash o x } (o + 1)
    exact ⟨f, hf⟩

/-- A byte outside those set. -/
theorem flashByte_setFlash_out (l : List Byte) (s : State) {o j : Nat} (h : j < o ∨ o + l.length ≤ j) :
    flashByte (setFlash s o l) j = flashByte s j := by
  induction l generalizing s o with
  | nil => rfl
  | cons x r ih =>
    rw [List.length_cons] at h
    rw [setFlash, ih _ (by omega)]
    exact smGet_smSet_ne _ _ _ _ (by omega)

/-- A byte among those set. -/
theorem flashByte_setFlash_in (l : List Byte) (s : State) (o : Nat) {i : Nat} (h : i < l.length) :
    flashByte (setFlash s o l) (o + i) = l[i] := by
  induction l generalizing s o i with
  | nil => exact absurd h (Nat.not_lt_zero i)
  | cons x r ih =>
    cases i with
    | zero =>
      rw [setFlash, flashByte_setFlash_out _ _ (by omega)]
      exact smGet_smSet_self _ _ _ _
    | succ i =>
      rw [setFlash, show o + (i + 1) = o + 1 + i by omega, ih _ _ (by simpa using h)]
      rfl

theorem length_flashBytes (s : State) (o n : Nat) : (flashBytes s o n).length = n := by simp [flashBytes]

/-- A programmed byte: bits go from 1 to 0. -/
theorem flashByte_programFlash_in (s : State) (o : Nat) {l : List Byte} {i : Nat} (h : i < l.length) :
    flashByte (programFlash s o l) (o + i) = flashByte s (o + i) &&& l[i] := by
  have hi : i < (l.zipWith (· &&& ·) (flashBytes s o l.length)).length := by
    rw [List.length_zipWith, length_flashBytes, Nat.min_self]
    exact h
  rw [programFlash, flashByte_setFlash_in _ _ _ hi, List.getElem_zipWith, BitVec.and_comm]
  simp [flashBytes]

theorem flashByte_programFlash_out (s : State) {o j : Nat} {l : List Byte} (h : j < o ∨ o + l.length ≤ j) :
    flashByte (programFlash s o l) j = flashByte s j := by
  refine flashByte_setFlash_out _ _ ?_
  rwa [List.length_zipWith, length_flashBytes, Nat.min_self]

/-- The code of an image's checks fits in VCODE. -/
theorem imageCode_lt (s : State) (b : Bool) (cap : Nat) (same manifest : Bool) : imageCode s b cap same manifest < 256 := by
  unfold imageCode
  dsimp only
  split_ifs <;> decide

/-! ## The effects of ERASE, PROGRAM and VERIFY -/

section
variable {s : State} (manifest : Bool)

theorem fuEffect_erase (h : s.ldrH.op = 1) : fuEffect s false manifest = eraseFlash s s.ldrH.opAddr 65536 := by
  simp only [fuEffect, h, if_true, Bool.false_eq_true, if_false]

theorem fuEffect_program (h : s.ldrH.op = 2) : fuEffect s false manifest = programFlash s s.ldrH.opAddr s.ldrH.opData := by
  simp [fuEffect, h]

theorem fuEffect_verify (h : s.ldrH.op = 3) (hres : s.fl LDR_FUSTAT 29 28 = 0) {c : Nat}
    (hc : c = imageCode s s.ldrH.opCopy (s.rd LDR_FLASHCAP).toNat true manifest) :
    fuEffect s false manifest = State.setFl { s with ldrH := { s.ldrH with
      verified := s.ldrH.verified || (c == 0 && !s.ldrH.opCopy) } } LDR_FUSTAT 23 16 c := by
  have hne : (3 : Nat) ≠ 1 ∧ (3 : Nat) ≠ 2 ∧ (3 : Nat) ≠ 9 := by decide
  obtain ⟨h1, h2, h9⟩ := hne
  have hab : ¬ ((s.fl LDR_FUSTAT 29 28 == 2) = true) := by rw [hres]; decide
  unfold fuEffect
  dsimp only
  rw [h, if_neg h1, if_neg h2, if_neg h9, if_neg hab, if_pos rfl, if_neg Bool.false_ne_true, if_neg Bool.false_ne_true, hc]

end

/-! ## Fuses (R382) -/

theorem fuseWord_fuseBurn_self (s : State) (w i : Nat) : fuseWord (fuseBurn s w i) w = putBit (fuseWord s w) i true :=
  smGet_smSet_self _ _ _ _

theorem fuseWord_fuseBurn_ne (s : State) {w v : Nat} (i : Nat) (h : v ≠ w) : fuseWord (fuseBurn s w i) v = fuseWord s v :=
  smGet_smSet_ne _ _ _ _ h

/-- A bit blown, in both copies of a dynamic word. -/
def fuseBurnt (s : State) (b : Nat) : State :=
  if b / 32 = 20 ∨ b / 32 = 21 then fuseBurn (fuseBurn s (b / 32) (b % 32)) (b / 32 + 2) (b % 32)
  else fuseBurn s (b / 32) (b % 32)

theorem fuseWord_fuseBurnt_self (s : State) (b : Nat) :
    fuseWord (fuseBurnt s b) (b / 32) = putBit (fuseWord s (b / 32)) (b % 32) true := by
  unfold fuseBurnt
  split
  · rw [fuseWord_fuseBurn_ne _ _ (by omega), fuseWord_fuseBurn_self]
  · exact fuseWord_fuseBurn_self _ _ _

theorem fuseWord_fuseBurnt_ne (s : State) {b w : Nat} (h : w ≠ b / 32) (h2 : w ≠ b / 32 + 2) :
    fuseWord (fuseBurnt s b) w = fuseWord s w := by
  unfold fuseBurnt
  split
  · rw [fuseWord_fuseBurn_ne _ _ h2, fuseWord_fuseBurn_ne _ _ h]
  · exact fuseWord_fuseBurn_ne _ _ h

/-- The end of a blow, whatever its read-back showed: nothing is being blown, and FPDONE. -/
def blowEnded (s : State) : State :=
  (State.setBt { s with ldrH := { s.ldrH with blowing := none } } LDR_FPSTAT 31 false).raise LDR_IRQSTAT 0x8

theorem fuseBlowDone_eq {s : State} {b : Nat} (h : s.ldrH.blowing = some b) (ok : Bool) :
    fuseBlowDone s ok = blowEnded (if ok then (fuseBurnt s b).wrapInc LDR_FPSTAT 15 0 else s.setBt LDR_FPSTAT 30 true) := by
  simp only [fuseBlowDone, h, fuseBurnt, blowEnded]

theorem blowEnded_fuses (s : State) : (blowEnded s).fuses = s.fuses := by
  simp only [blowEnded, State.setBt, State.raise, State.wr_fuses]

theorem bt_blowEnded_busy (s : State) : (blowEnded s).bt LDR_FPSTAT 31 = false := by
  rw [blowEnded, bt_raise_ne _ _ (by decide), bt_setBt_self _ _ _ _ (by decide)]

theorem bt_blowEnded_err (s : State) : (blowEnded s).bt LDR_FPSTAT 30 = s.bt LDR_FPSTAT 30 := by
  rw [blowEnded, bt_raise_ne _ _ (by decide), bt_setBt_ne _ _ _ _ _ (by decide) (by decide)]
  exact bt_of_regs rfl _ _

theorem bt_blowEnded_irq (s : State) : (blowEnded s).bt LDR_IRQSTAT 3 = true := bt_raise _ (by decide)

end Sys2Proof.Machine

/-! SUPPORT. A source of cold reach (R381, R395, R403): what a cold reset leaves of RST_CAUSE and of the sources. -/

namespace Sys2Proof.Machine

/-- An entry found is found in what a filter leaves, where the filter leaves it. -/
theorem smFind_filter {α : Type} {p : Nat × α → Bool} {m : SMap α} {k : Nat} {v : α} (h : smFind m k = some v)
    (hp : p (k, v) = true) : smFind (m.filter p) k = some v := by
  induction m with
  | nil => exact absurd h (by simp [smFind])
  | cons e r ih =>
    obtain ⟨j, u⟩ := e
    by_cases hj : k = j
    · subst hj
      rw [smFind, if_pos rfl, Option.some.injEq] at h
      rw [List.filter_cons_of_pos (h ▸ hp), smFind, if_pos rfl, h]
    · rw [smFind, if_neg hj] at h
      by_cases hlt : k < j
      · rw [if_pos hlt] at h
        exact absurd h (by simp)
      · rw [if_neg hlt] at h
        by_cases hpj : p (j, u) = true
        · rw [List.filter_cons_of_pos hpj, smFind, if_neg hj, if_neg hlt, ih h]
        · rw [List.filter_cons_of_neg hpj, ih h]

/-- A register that a reset of PD_CORE keeps, and that is not at its reset word, stands. -/
theorem rd_coreReset_kept {s : State} {keeps : Nat → Bool} {a : Nat} (hk : keeps a = true) (h : s.rd a ≠ resetWord a) :
    (coreReset s keeps).rd a = s.rd a := by
  unfold State.rd smGet at h ⊢
  cases hf : smFind s.regs a with
  | none => rw [hf] at h; exact absurd rfl h
  | some v =>
    have hkept : smFind (coreReset s keeps).regs a = some v := smFind_filter hf hk
    rw [hkept]

/-- The slots' part of a cold reset touches only the slots and their WEARHI. -/
theorem slotCold_keeps (s : State) (k a : Nat) (h : a ≠ AON_SLOT_WEARHI k) :
    (slotCold s k).rd a = s.rd a ∧ (slotCold s k).srcs = s.srcs := by
  unfold slotCold
  dsimp only
  rw [State.setSlot_srcs, rd_of_regs (State.setSlot_regs _ _ _)]
  split
  · exact ⟨rd_setBt_ne s 30 true h, State.wr_srcs s _ _⟩
  · exact ⟨rfl, rfl⟩

theorem slotsCold_keeps (s : State) {a : Nat} (h : 0x10000000 ≤ a) :
    ((List.range 32).foldl slotCold s).rd a = s.rd a ∧ ((List.range 32).foldl slotCold s).srcs = s.srcs := by
  refine List.foldlRecOn (motive := fun t : State => t.rd a = s.rd a ∧ t.srcs = s.srcs) _ _ ⟨rfl, rfl⟩ ?_
  rintro t ⟨hrd, hsrcs⟩ k hk
  have hk32 := List.mem_range.1 hk
  obtain ⟨hrd', hsrcs'⟩ := slotCold_keeps t k a (by unfold AON_SLOT_WEARHI; omega)
  exact ⟨hrd'.trans hrd, hsrcs'.trans hsrcs⟩

/-- What a cold reset keeps of the registers of resets, and the sources. -/
theorem coldEnter_keeps {s : State} {a : Nat} (ha : 0x10000000 ≤ a) (hne : a ≠ RST_CLKSTAT) (hk : coldKeeps a = true)
    (h : s.rd a ≠ resetWord a) : (coldEnter s).rd a = s.rd a ∧ (coldEnter s).srcs = s.srcs := by
  obtain ⟨hrd, hsrcs⟩ := slotsCold_keeps (coreReset s coldKeeps) ha
  have hcore := rd_coreReset_kept hk h
  unfold coldEnter
  generalize (List.range 32).foldl slotCold (coreReset s coldKeeps) = c at hrd hsrcs ⊢
  refine ⟨(rd_setBt_ne { c with ldrH := {} } 31 false hne).trans (hrd.trans hcore), ?_⟩
  rw [State.setBt, State.wr_srcs]
  exact hsrcs

theorem ppsTakeover_keeps (s : State) (driving : Bool) {a : Nat} (h : 0x38000000 ≤ a) :
    (ppsTakeover s driving).rd a = s.rd a ∧ (ppsTakeover s driving).srcs = s.srcs := by
  unfold ppsTakeover
  split
  · refine ⟨?_, ?_⟩
    · rw [rd_raise_ne _ _ (by unfold TU_IRQSTAT; omega), rd_wrapInc_ne _ _ _ _ (by unfold TU_PPS_STAT; omega),
        rd_setBt_ne _ _ _ (by unfold TU_PPS_STAT; omega)]
      rfl
    · simp only [State.raise, State.wrapInc, State.setFl, State.setBt, State.wr_srcs]
  · exact ⟨rfl, rfl⟩

/-- A source of cold reach asserted: it stands, and RST_CAUSE shows it. -/
theorem wideAssert_cold {s : State} {bit : Nat} (hcold : bit < 7) (hidle : bitAt s.srcs bit = false) :
    bitAt (wideAssert s bit).srcs bit = true ∧ (wideAssert s bit).bt RST_CAUSE bit = true := by
  have h32 : bit < 32 := by omega
  unfold wideAssert
  rw [if_neg (by simp [hidle])]
  dsimp only
  generalize hu : State.raise { s.sourceAt bit with srcs := putBit s.srcs bit true } RST_CAUSE (BitVec.ofNat 32 (2 ^ bit)) = u
  have hbit : u.bt RST_CAUSE bit = true := hu ▸ bt_raise RST_CAUSE (bitAt_twoPow h32)
  have hsrc : bitAt u.srcs bit = true := by
    rw [← hu]
    exact bitAt_putBit_self _ _ _ h32
  simp only [hcold, decide_true, Bool.true_and, if_true]
  split
  · exact ⟨hsrc, hbit⟩
  · generalize hw : u.wrapInc RST_CNT 31 16 = w
    have hwrd : w.rd RST_CAUSE = u.rd RST_CAUSE := hw ▸ rd_wrapInc_ne u _ _ _ (by decide)
    have hwsrc : w.srcs = u.srcs := by rw [← hw, State.wrapInc, State.setFl, State.wr_srcs]
    have hne : w.rd RST_CAUSE ≠ resetWord RST_CAUSE := by
      have hreset : resetWord RST_CAUSE = 0 := by decide
      intro h
      have hzero : bitAt (0 : Word) bit = true := by rwa [State.bt, ← hwrd, h, hreset] at hbit
      rw [bitAt_eq_getLsbD] at hzero
      simp at hzero
    obtain ⟨hrd, hsrcs⟩ := coldEnter_keeps (by decide) (by decide) (by decide) hne
    obtain ⟨hrd', hsrcs'⟩ := ppsTakeover_keeps (coldEnter w) (ppsDriven s) (a := RST_CAUSE) (by decide)
    refine ⟨?_, ?_⟩
    · rw [hsrcs', hsrcs, hwsrc, hsrc]
    · rw [State.bt, hrd', hrd, hwrd]
      exact hbit

/-- The sources after one of them ends. -/
theorem wideRelease_srcs (s : State) (bit : Nat) : (wideRelease s bit).srcs = putBit s.srcs bit false := by
  unfold wideRelease
  dsimp only
  split <;> rfl

end Sys2Proof.Machine

/-! SUPPORT. The obligation on the flash update service, debug, boundary scan and fuses (R378 to R382). -/

namespace Sys2Proof.Machine

/-- The text of LDR_FPROG that blows a bit. -/
theorem fprog_text (b : BitVec 12) :
    fld (BitVec.ofNat 32 (0xA55A0000 + b.toNat)) 31 16 = 0xA55A ∧ fld (BitVec.ofNat 32 (0xA55A0000 + b.toNat)) 11 0 = b.toNat := by
  have hb := b.isLt
  simp only [fld, BitVec.toNat_ofNat]
  omega

/-- Debug is usable where ID 31 can issue accesses (R380). -/
theorem dbgUsable_of_canIssue {s : State} (h : canIssue s 31 = true) : dbgUsable s = true := by
  have h' : wideReset s = false ∧ dbgUsable s = true := by simpa [canIssue] using h
  exact h'.2

/-- A blow started (R382). -/
theorem fprogWrite_blow {s : State} {b : BitVec 12} (hdbg : dbgUsable s = true) (hidle : s.bt LDR_FPSTAT 31 = false)
    (hopen : fuseOpen s b.toNat = true) : fprogWrite s 31 (BitVec.ofNat 32 (0xA55A0000 + b.toNat)) =
      accept (State.setBt { s with ldrH := { s.ldrH with blowing := some b.toNat } } LDR_FPSTAT 31 true) := by
  obtain ⟨hkey, hbit⟩ := fprog_text b
  rw [fprogWrite, hkey, hbit, if_neg (by simp [hdbg, hidle, hopen])]

/-- A token decided: unlocked, or refused (R380). -/
theorem debugUnlock_decides {s : State} (hload : s.bt LDR_FUSESTAT 31 = true) (hmode : dbgMode s = 1) (hu : s.ldrH.unlocked = false)
    (hr : s.ldrH.refused = false) (x y r t : Nat) :
    (debugUnlock s x y r t).ldrH.unlocked =
        (keyGood s (beOf 32 x ++ beOf 32 y) && ecdsaOk x y r t (sha256 (tokenText s))) ∧
      (debugUnlock s x y r t).ldrH.refused = !(debugUnlock s x y r t).ldrH.unlocked := by
  rw [debugUnlock, if_neg (by simp [hload, hmode, hu, hr])]
  exact ⟨rfl, rfl⟩

theorem flashByte_of_flash {s t : State} (h : t.flash = s.flash) (o : Nat) : flashByte t o = flashByte s o := by
  simp only [flashByte, h]

theorem fuseWord_of_fuses {s t : State} (h : t.fuses = s.fuses) (w : Nat) : fuseWord t w = fuseWord s w := by
  simp only [fuseWord, h]

/-- What a command of the service makes of the block, row by row (R378). -/
theorem exec_flashCommand {s : State} {m : Master} (ho : opens s m LDR_FUCMD .ldr) (hown : fuOwner s m.val = true) (copy : Bool)
    {p : Instr × Nat × Bool}
    (hp : p ∈ [(Instr.flashErase m, 1, false), (.flashProgram m, 2, false), (.flashVerify m copy, 3, copy), (.clrcnt m, 4, false),
      (.raisesvn m, 5, false), (.reloadpe m, 7, false)]) (hidle : fuBusy s = false)
    (hsusp : s.bt LDR_FUSTAT 30 = true ∨ p.2.1 = 3 ∨ p.2.1 = 7) (hclr : p.2.1 = 4 → s.ldrH.verified = true)
    (hpe : p.2.1 = 7 → peStill s (s.fl LDR_FUADDR 2 0) = true ∧ s.fl LDR_FUADDR 2 0 + 1 ≠ m.val)
    (hs : noSteps (fuBegin s p.2.1 p.2.2)) : exec p.1 s = .next (answered (fuBegin s p.2.1 p.2.2) (.ok 0)) := by
  have hrow (op : Nat) (b : Bool) (v : Word) (hv : fld v 3 0 = op ∧ fld v 31 16 = 0xA55A ∧ bitAt v 4 = b)
      (hrange : op < 8 ∧ op ≠ 0 ∧ op ≠ 6) (he : p.2 = (op, b)) :
      writeRow s m LDR_FUCMD v = .next (answered (fuBegin s p.2.1 p.2.2) (.ok 0)) := by
    obtain ⟨hop, hkey, hcopy⟩ := hv
    rw [he] at hsusp hclr hpe hs ⊢
    exact writeRow_fuCommand ho (fuCommand_begin hop hkey hcopy hrange hown hidle hsusp hclr hpe) hs
  simp only [List.mem_cons, List.not_mem_nil, or_false] at hp
  rcases hp with rfl | rfl | rfl | rfl | rfl | rfl
  · exact hrow 1 false 0xA55A0001 (by decide) (by decide) rfl
  · exact hrow 2 false 0xA55A0002 (by decide) (by decide) rfl
  · exact hrow 3 copy _ (by cases copy <;> decide) (by decide) rfl
  · exact hrow 4 false 0xA55A0004 (by decide) (by decide) rfl
  · exact hrow 5 false 0xA55A0005 (by decide) (by decide) rfl
  · exact hrow 7 false 0xA55A0007 (by decide) (by decide) rfl

/-- Settles O55: each command and each end by the lemma on it; the cold source of EXTEST by what a cold reset keeps. -/
theorem flashAndFuses : Obligations.FlashAndFuses := by
  intro s m
  refine ⟨fun ho hown => ⟨fun copy p hp hidle hsusp hclr hpe hs => ?_, fun hs hsusp => ?_⟩, fun hw ha => ?_,
    fun hwide hbusy hs => ⟨fun hop => ?_, fun hop => ?_, fun c manifest hop hres hc => ?_⟩, fun qx qy r x hload hmode hu hr => ?_,
    ?_, ?_, fun b ho hs hidle hopen => ?_, fun b hb => ⟨?_, ?_⟩⟩
  · exact exec_flashCommand ho hown copy hp hidle hsusp hclr hpe hs
  · refine ⟨_, writeRow_fuCommand ho (fuCommand_abort hown hsusp) (noSteps_wr hs _ _), answered_resp _ _, ?_, ?_⟩
    · rw [State.fl, rd_answered _ _ (by decide), ← State.fl, fuRes, fl_setFl_self _ _ _ _ _ (by decide) (by decide)]
      decide
    · rw [State.bt, rd_answered _ _ (by decide), ← State.bt, fuRes, bt_setFl_apart _ _ _ (by decide) (by decide) (by decide)]
  · exact fuBegin_erase_shows hw ha
  · obtain ⟨t, hrow, hends⟩ := exec_flashOpDone hwide hbusy false (fuEffect_erase false hop) hs
    refine ⟨_, hrow, ?_, ?_, ?_, ?_, fun i hi => ?_⟩
    · rw [close_bt _ _ (by decide), hends.busy]
    · rw [close_bt _ _ (by decide), hends.done]
    · rw [close_fl _ _ _ (by decide), hends.count]
      rfl
    · rw [close_flash, hends.flash]
      rfl
    · rw [flashByte_of_flash (close_flash t), flashByte_of_flash hends.flash, flashByte_eraseFlash _ hi]
  · obtain ⟨f, hf⟩ := setFlash_eq (s.ldrH.opData.zipWith (· &&& ·) (flashBytes s s.ldrH.opAddr s.ldrH.opData.length)) s s.ldrH.opAddr
    have hctx : (programFlash s s.ldrH.opAddr s.ldrH.opData).ctxH = s.ctxH := by rw [programFlash, hf]
    obtain ⟨t, hrow, hends⟩ := exec_flashOpDone hwide hbusy false (fuEffect_program false hop) (by unfold noSteps; rwa [hctx])
    have hbyte (j : Nat) : flashByte (close t) j = flashByte (programFlash s s.ldrH.opAddr s.ldrH.opData) j := by
      rw [flashByte_of_flash (close_flash t), flashByte_of_flash hends.flash]
    refine ⟨_, hrow, ?_, fun i hi => ?_, fun i hi => ?_⟩
    · rw [close_bt _ _ (by decide), hends.busy]
    · rw [hbyte, flashByte_programFlash_in s _ hi]
    · rw [hbyte, flashByte_programFlash_out s hi]
  · have heff := fuEffect_verify manifest hop hres hc
    obtain ⟨t, hrow, hends⟩ := exec_flashOpDone hwide hbusy manifest heff
      (noSteps_of_ctxH hs (by rw [State.setFl, State.wr_ctxH]))
    refine ⟨_, hrow, ?_, ?_, ?_⟩
    · have hlt : c < 256 := hc ▸ imageCode_lt s _ _ _ _
      rw [close_fl _ _ _ (by decide), hends.code, fl_setFl_self _ _ _ _ _ (by decide) (by decide)]
      exact Nat.mod_eq_of_lt hlt
    · rw [close_flash, hends.flash, State.setFl, State.wr_flash]
    · rw [close_ldrH, hends.verified, State.setFl, State.wr_ldrH]
  · obtain ⟨hunlocked, hrefused⟩ := debugUnlock_decides hload hmode hu hr qx.toNat qy.toNat r.toNat x.toNat
    refine ⟨_, rfl, ?_, ?_⟩
    · rw [close_ldrH, hrefused]
    · rw [close_ldrH, hunlocked, Bool.and_eq_true]
  · refine ⟨_, rfl, ?_, fun hidle => ?_⟩
    · rw [close_srcs]
      by_cases hon : bitAt s.srcs 5 = true
      · rw [wideAssert, if_pos hon, hon]
      · exact (wideAssert_cold (by decide) (Bool.eq_false_iff.2 hon)).1
    · rw [close_bt _ _ (by decide)]
      exact (wideAssert_cold (by decide) hidle).2
  · exact ⟨_, rfl, by rw [close_srcs, wideRelease_srcs]⟩
  · have hcmd := fprogWrite_blow (dbgUsable_of_canIssue ho.1) hidle hopen
    refine ⟨_, writeRow_accept ho (.inl rfl) ((targetWrite_ldr s 31 LDR_FPROG _).trans hcmd)
      (noSteps_of_ctxH hs (by rw [State.setBt, State.wr_ctxH])), answered_resp _ _, ?_, ?_, ?_⟩
    · rw [close_ldrH, State.setBt, State.wr_ldrH]
    · rw [close_bt _ _ (by decide)]
      exact bt_setBt_self _ _ _ _ (by decide)
    · rw [close_fuses, State.setBt, State.wr_fuses]
  · have hdone := fuseBlowDone_eq hb true
    rw [if_pos rfl] at hdone
    have hword (w : Nat) : fuseWord (close (fuseBlowDone s true)) w = fuseWord (fuseBurnt s b.val) w := by
      rw [fuseWord_of_fuses (close_fuses _), hdone, fuseWord_of_fuses (blowEnded_fuses _), State.wrapInc, State.setFl,
        fuseWord_of_fuses (State.wr_fuses _ _ _)]
    refine ⟨_, rfl, ?_, ?_, ?_, fun w hw hw2 => ?_⟩
    · rw [hword, fuseWord_fuseBurnt_self]
      exact bitAt_putBit_self _ _ _ (Nat.mod_lt _ (by decide))
    · rw [close_bt _ _ (by decide), hdone, bt_blowEnded_busy]
    · rw [close_bt _ _ (by decide), hdone, bt_blowEnded_irq]
    · rw [hword, fuseWord_fuseBurnt_ne s hw hw2]
  · have hdone := fuseBlowDone_eq hb false
    rw [if_neg Bool.false_ne_true] at hdone
    refine ⟨_, rfl, ?_, ?_, ?_⟩
    · rw [close_fuses, hdone, blowEnded_fuses, State.setBt, State.wr_fuses]
    · rw [close_bt _ _ (by decide), hdone, bt_blowEnded_err, bt_setBt_self _ _ _ _ (by decide)]
    · rw [close_bt _ _ (by decide), hdone, bt_blowEnded_busy]

end Sys2Proof.Machine

/-! SUPPORT. A supply failure where a register is listed behind another (R390, R403). -/

namespace Sys2Proof.Machine

/-- The sequencer reads OFF: PMU_SEQSTAT is listed, as ON, only behind LDR_FUCFG, where no read sees it: a list that is not in the
canonical form of the stores, in which keys rise. -/
def shadowedSequencer : State := { regs := [(LDR_FUCFG, 1), (PMU_SEQSTAT, 0x20000000)] }

/-- Refutes O56, in its clause on the failure of a supply: it speaks of every register list. BROWNOUT is a cold source, so LDR_FUCFG
goes from the list of `shadowedSequencer`, which uncovers PMU_SEQSTAT: STATE reads 2 and not 0, as before. -/
theorem not_powerSequencer : ¬ Obligations.PowerSequencer := by
  intro h
  obtain ⟨-, -, -, -, -, -, -, -, -, hrails, -⟩ := h shadowedSequencer
  obtain ⟨-, hfail, -⟩ := hrails 0
  obtain ⟨t, hrow, -, hkept, -⟩ := hfail (by decide)
  obtain rfl : close (supplyFail shadowedSequencer 0) = t := Host.Outcome.next.inj hrow
  have hbefore : seqState shadowedSequencer = 0 := by decide +kernel
  have hafter : seqState (supplyFail shadowedSequencer 0) = 2 := by decide +kernel
  rw [seqState, close_fl _ 31 28 (by decide), ← seqState, hafter, hbefore] at hkept
  exact absurd hkept (by decide)

end Sys2Proof.Machine

/-! SUPPORT. The forwarding database of the switch (R290, R291): its commands and its ageing. -/

namespace Sys2Proof.Machine

/-! ## Writes of switch registers -/

/-- The routes of the switch are SW_IRQROUTE and the routes of its rings. -/
theorem routeKind_switch {a : Nat} (h : 0x33000000 ≤ a ∧ a < 0x33400000) (hr : a ≠ SW_IRQROUTE)
    (hring : a < 0x33040000 ∨ 0x33041000 ≤ a ∨ a % 0x20 ≠ 0x18) : routeKind a = none := by
  unfold SW_IRQROUTE at hr
  unfold routeKind TU_IRQROUTE IMG_IRQROUTE LDR_IRQROUTE SW_IRQROUTE MEM_IRQROUTE MEM_DG_IRQROUTE ARB_IRQROUTE HB_IRQROUTE
    SLOT_IRQROUTE PMU_IRQROUTE AON_IRQROUTE
  simp (disch := omega) only [if_neg]

/-- A write of a switch register that its rules accept. -/
theorem writeRow_switch {s u : State} {m : Master} {a : Nat} {v : Word} (ho : opens s m a .sw) (hr : routeKind a = none)
    (hw : swWrite s (a % 0x400000) v = (u, .ok 0)) (hu : noSteps u) : writeRow s m a v = .next (answered u (.ok 0)) := by
  refine writeRow_accept ho (.inl rfl) ?_ hu
  have hrouted : routed m a .sw v = v := if_neg (by rw [if_neg (by decide), hr]; decide)
  rw [hrouted, targetWrite_sw, hw]

theorem bt_answered_switch (u : State) (r : Resp) {a : Nat} (i : Nat) (h : 0x33000000 ≤ a) (h' : a < 0x33400000) :
    (answered u r).bt a i = u.bt a i := by
  rw [State.bt, rd_answered_timed u r (by omega) (by omega), ← State.bt]

theorem fl_answered_switch (u : State) (r : Resp) {a : Nat} (hi lo : Nat) (h : 0x33000000 ≤ a) (h' : a < 0x33400000) :
    (answered u r).fl a hi lo = u.fl a hi lo := by
  rw [State.fl, rd_answered_timed u r (by omega) (by omega), ← State.fl]

@[simp] theorem answered_fdb (u : State) (r : Resp) : (answered u r).fdb = u.fdb := close_fdb _

/-! ## Entries by key -/

/-- The entry is of a key. -/
def FdbE.hasKey (e : FdbE) (mac vid : Nat) : Bool := e.mac == mac && e.vid == vid

theorem FdbE.hasKey_iff (e : FdbE) (mac vid : Nat) : e.hasKey mac vid = true ↔ e.mac = mac ∧ e.vid = vid := by
  simp [FdbE.hasKey]

theorem fdbFind_eq (s : State) (mac vid : Nat) : fdbFind s mac vid = (fdbIn s mac vid).find? (·.hasKey mac vid) := rfl

theorem fdbFind_of_fdb {s t : State} (h : t.fdb = s.fdb) (mac vid : Nat) : fdbFind t mac vid = fdbFind s mac vid := by
  simp only [fdbFind, fdbIn, h]

@[simp] theorem fdbIn_fdbSet_self (s : State) (mac vid : Nat) (l : List FdbE) : fdbIn (fdbSet s mac vid l) mac vid = l :=
  smGet_smSet_self _ _ _ _

/-- Setting a bucket leaves every other bucket. -/
theorem fdbIn_fdbSet_ne (s : State) {mac vid a b : Nat} (l : List FdbE) (h : fdbBucket a b ≠ fdbBucket mac vid) :
    fdbIn (fdbSet s mac vid l) a b = fdbIn s a b := smGet_smSet_ne _ _ _ _ h

/-- A bucket that changed only in entries of one key shows the same for every other key. -/
theorem fdbFind_fdbSet_other (s : State) {mac vid a b : Nat} {l : List FdbE} (hne : (a, b) ≠ (mac, vid))
    (hl : l = (fdbIn s mac vid).filter (fun e => !e.hasKey mac vid)) : fdbFind (fdbSet s mac vid l) a b = fdbFind s a b := by
  by_cases hb : fdbBucket a b = fdbBucket mac vid
  · have hin : fdbIn s a b = fdbIn s mac vid := by rw [fdbIn, hb, fdbIn]
    have hset : fdbIn (fdbSet s mac vid l) a b = l := by rw [fdbIn, hb, ← fdbIn, fdbIn_fdbSet_self]
    rw [fdbFind_eq, fdbFind_eq, hset, hin, hl, List.find?_filter]
    congr 1
    funext e
    cases hk : e.hasKey a b with
    | false => simp
    | true =>
      obtain ⟨rfl, rfl⟩ := (e.hasKey_iff a b).1 hk
      have hnot : e.hasKey mac vid = false :=
        Bool.eq_false_iff.2 fun h => hne (Prod.ext_iff.2 ((e.hasKey_iff mac vid).1 h))
      simp [hnot]
  · rw [fdbFind_eq, fdbFind_eq, fdbIn_fdbSet_ne s l hb]

/-- An entry written is found. -/
theorem fdbFind_fdbPut {s t : State} {e : FdbE} (h : fdbPut s e = some t) : fdbFind t e.mac e.vid = some e := by
  have hself : e.hasKey e.mac e.vid = true := (e.hasKey_iff _ _).2 ⟨rfl, rfl⟩
  unfold fdbPut at h
  dsimp only at h
  split at h
  next hany =>
    obtain rfl := Option.some.inj h
    rw [fdbFind_eq, fdbIn_fdbSet_self, List.find?_map]
    obtain ⟨x, hx, hkey⟩ := List.any_eq_true.1 hany
    cases hf : (fdbIn s e.mac e.vid).find?
        ((·.hasKey e.mac e.vid) ∘ fun x => if (x.mac == e.mac && x.vid == e.vid) = true then e else x) with
    | none =>
      have hnone := List.find?_eq_none.1 hf x hx
      rw [Function.comp, if_pos hkey] at hnone
      exact absurd hself hnone
    | some y =>
      have hy := List.find?_some hf
      rw [Option.map_some]
      by_cases hyk : (y.mac == e.mac && y.vid == e.vid) = true
      · rw [if_pos hyk]
      · rw [Function.comp, if_neg hyk] at hy
        exact absurd hy hyk
  next hany =>
    split at h
    · obtain rfl := Option.some.inj h
      have hnone : (fdbIn s e.mac e.vid).find? (·.hasKey e.mac e.vid) = none := by
        rw [List.find?_eq_none]
        intro x hx hk
        exact hany (List.any_eq_true.2 ⟨x, hx, hk⟩)
      rw [fdbFind_eq, fdbIn_fdbSet_self, List.find?_append, hnone, Option.none_or, List.find?_singleton, hself]
      rfl
    · exact absurd h (by simp)

theorem fdbPut_ctxH {s t : State} {e : FdbE} (h : fdbPut s e = some t) : t.ctxH = s.ctxH := by
  unfold fdbPut at h
  dsimp only at h
  split at h
  · rw [← Option.some.inj h]
    rfl
  · split at h
    · rw [← Option.some.inj h]
      rfl
    · exact absurd h (by simp)

/-! ## Commands (R291) -/

/-- The key that MACLO and MACHI name. -/
def fdbMac (s : State) : Nat := (s.rd SW_FDB_MACLO).toNat + s.fl SW_FDB_MACHI 15 0 * 2 ^ 32
def fdbVid (s : State) : Nat := s.fl SW_FDB_MACHI 27 16

/-- The entry that a WRITE puts. -/
def fdbNamed (s : State) : FdbE :=
  { mac := fdbMac s, vid := fdbVid s, static := true, smatch := s.bt SW_FDB_DATA 29, stren := s.bt SW_FDB_DATA 28,
    stream := s.fl SW_FDB_DATA 27 16, ports := s.fl SW_FDB_DATA 15 0 }

/-- The word of an entry in SW_FDB_DATA. -/
def fdbWord (e : FdbE) : Word :=
  BitVec.ofNat 32 (2 ^ 31 + e.static.toNat * 2 ^ 30 + e.smatch.toNat * 2 ^ 29 + e.stren.toNat * 2 ^ 28 + e.stream % 4096 * 2 ^ 16 +
    e.ports % 65536)

theorem fdbWord_valid (e : FdbE) : bitAt (fdbWord e) 31 = true := by
  have h30 := e.static.toNat_lt
  have h29 := e.smatch.toNat_lt
  have h28 := e.stren.toNat_lt
  simp only [bitAt, fdbWord, BitVec.toNat_ofNat, beq_iff_eq]
  omega

theorem fdbWord_static (e : FdbE) : bitAt (fdbWord e) 30 = e.static := by
  have h29 := e.smatch.toNat_lt
  have h28 := e.stren.toNat_lt
  cases hs : e.static
  · simp only [bitAt, fdbWord, hs, BitVec.toNat_ofNat, Bool.toNat_false, beq_eq_false_iff_ne]
    omega
  · simp only [bitAt, fdbWord, hs, BitVec.toNat_ofNat, Bool.toNat_true, beq_iff_eq]
    omega

theorem fdbWord_ports (e : FdbE) : fld (fdbWord e) 15 0 = e.ports % 65536 := by
  have h30 := e.static.toNat_lt
  have h29 := e.smatch.toNat_lt
  have h28 := e.stren.toNat_lt
  simp only [fld, fdbWord, BitVec.toNat_ofNat]
  omega

theorem fdbCommand_read (s : State) : fdbCommand s 1 = match fdbFind s (fdbMac s) (fdbVid s) with
    | some e => (s.wr SW_FDB_DATA (fdbWord e)).setBt SW_FDB_CMD 0 true
    | none => (s.setBt SW_FDB_DATA 31 false).setBt SW_FDB_CMD 0 false := by
  rw [fdbCommand, if_pos rfl]
  rfl

theorem fdbCommand_write (s : State) : fdbCommand s 2 = match fdbPut s (fdbNamed s) with
    | some t => t.setBt SW_FDB_CMD 1 false
    | none => s.setBt SW_FDB_CMD 1 true := by
  rw [fdbCommand, if_neg (by decide), if_pos rfl]
  rfl

/-- The bucket of the key named, without the entries of the key. -/
def fdbOthers (s : State) : List FdbE :=
  (fdbIn s (fdbMac s) (fdbVid s)).filter (fun e => !e.hasKey (fdbMac s) (fdbVid s))

theorem fdbCommand_delete (s : State) : fdbCommand s 3 = (fdbSet s (fdbMac s) (fdbVid s) (fdbOthers s)).setBt SW_FDB_CMD 0
    (decide ((fdbOthers s).length < (fdbIn s (fdbMac s) (fdbVid s)).length)) := by
  rw [fdbCommand, if_neg (by decide), if_neg (by decide), if_pos rfl]
  rfl

/-- What a FLUSH keeps of the database. -/
def fdbFlushed (s : State) : SMap (List FdbE) :=
  (s.fdb.map (fun b => (b.1, b.2.filter (fun e => e.static || e.ports &&& s.fl SW_FDB_DATA 15 0 == 0)))).filter (fun b => !b.2.isEmpty)

theorem fdbCommand_flush (s : State) : fdbCommand s 4 = { s with fdb := fdbFlushed s } := by
  rw [fdbCommand, if_neg (by decide), if_neg (by decide), if_neg (by decide)]
  rfl

/-- A DELETE says whether the key was there. -/
theorem fdbOthers_shorter (s : State) : decide ((fdbOthers s).length < (fdbIn s (fdbMac s) (fdbVid s)).length) =
    (fdbFind s (fdbMac s) (fdbVid s)).isSome := by
  rw [fdbFind_eq, fdbOthers, Bool.eq_iff_iff, decide_eq_true_iff, List.find?_isSome]
  generalize fdbIn s (fdbMac s) (fdbVid s) = l
  constructor
  · intro hlt
    by_contra hno
    refine absurd hlt (Nat.not_lt.2 (Nat.le_of_eq (congrArg List.length ?_)))
    rw [eq_comm, List.filter_eq_self]
    intro e he
    simp only [Bool.not_eq_true']
    exact Bool.eq_false_iff.2 fun hk => hno ⟨e, he, hk⟩
  · rintro ⟨e, he, hk⟩
    refine lt_of_le_of_ne (List.length_filter_le _ _) fun heq => ?_
    have hall := List.length_filter_eq_length_iff.1 heq e he
    rw [hk] at hall
    exact absurd hall (by decide)

theorem fdbFind_deleted (s : State) : fdbFind (fdbSet s (fdbMac s) (fdbVid s) (fdbOthers s)) (fdbMac s) (fdbVid s) = none := by
  rw [fdbFind_eq, fdbIn_fdbSet_self, fdbOthers, List.find?_eq_none]
  intro e he hk
  have hnot := (List.mem_filter.1 he).2
  rw [hk] at hnot
  exact absurd hnot (by decide)

theorem mem_fdbFlushed {s : State} {b : Nat × List FdbE} {x : FdbE} (hb : b ∈ fdbFlushed s) (hx : x ∈ b.2) :
    x.static = true ∨ x.ports &&& s.fl SW_FDB_DATA 15 0 = 0 := by
  obtain ⟨c, -, rfl⟩ := List.mem_map.1 (List.mem_filter.1 hb).1
  simpa using (List.mem_filter.1 hx).2

end Sys2Proof.Machine

/-! SUPPORT. The commands of the forwarding database as bus rows (R291), and its ageing (R290). -/

namespace Sys2Proof.Machine

/-- A command starts, and ends within 1 µs: only the busy time and the free values move. -/
theorem fdbStart_keeps (s : State) : (fdbStart s).regs = s.regs ∧ (fdbStart s).fdb = s.fdb ∧ (fdbStart s).ctxH = s.ctxH :=
  ⟨rfl, rfl, rfl⟩

theorem swWrite_fdbCmd {s : State} (hidle : fdbRuns s = false) {v : Word} {op : Nat} (hop : fld v 31 29 = op) (hr : op ≠ 0 ∧ op ≤ 4) :
    swWrite s (SW_FDB_CMD % 0x400000) v = (fdbStart (fdbCommand s op), .ok 0) := by
  obtain ⟨h0, h4⟩ := hr
  subst hop
  have hoff : SW_FDB_CMD % 0x400000 = 0x4C := by decide
  have hbad : ¬(fld v 31 29 = 0 ∨ 4 < fld v 31 29) := by omega
  have hbusy : ¬(0x40 ≤ 0x4C ∧ 0x4C < 0x50 ∧ fdbRuns s = true) := by simp [hidle]
  rw [hoff, swWrite]
  dsimp only
  rw [if_neg (by decide), if_neg (by decide), if_neg (by decide), if_neg hbusy, if_pos rfl, if_neg hbad]

/-- The row of an FDB command. -/
theorem writeRow_fdb {s u : State} {m : Master} (ho : opens s m SW_FDB_CMD .sw) (hidle : fdbRuns s = false) {v : Word} {op : Nat}
    (hop : fld v 31 29 = op) (hr : op ≠ 0 ∧ op ≤ 4) (hu : fdbCommand s op = u) (hs : noSteps u) :
    ∃ t, writeRow s m SW_FDB_CMD v = .next t ∧ t.fdb = u.fdb ∧ ∀ a, 0x33000000 ≤ a → a < 0x33400000 → t.rd a = u.rd a := by
  have hw := swWrite_fdbCmd hidle hop hr
  rw [hu] at hw
  obtain ⟨hregs, hfdb, hctx⟩ := fdbStart_keeps u
  refine ⟨_, writeRow_switch ho (by decide) hw (noSteps_of_ctxH hs hctx), ?_, fun a h h' => ?_⟩
  · rw [answered_fdb, hfdb]
  · rw [rd_answered_timed _ _ (by omega) (by omega), rd_of_regs hregs]

/-- READ (R291). -/
theorem fdbRead_shows {s : State} {m : Master} (hs : noSteps s) (ho : opens s m SW_FDB_CMD .sw) (hidle : fdbRuns s = false) :
    ∃ t, exec (.fdbRead m) s = .next t ∧ t.bt SW_FDB_CMD 0 = (fdbFind s (fdbMac s) (fdbVid s)).isSome ∧
      t.bt SW_FDB_DATA 31 = (fdbFind s (fdbMac s) (fdbVid s)).isSome ∧
      ∀ x, fdbFind s (fdbMac s) (fdbVid s) = some x → t.fl SW_FDB_DATA 15 0 = x.ports % 65536 ∧ t.bt SW_FDB_DATA 30 = x.static := by
  have hcmd := fdbCommand_read s
  have hne : SW_FDB_DATA ≠ SW_FDB_CMD := by decide
  have hne' : SW_FDB_CMD ≠ SW_FDB_DATA := by decide
  cases hf : fdbFind s (fdbMac s) (fdbVid s) with
  | none =>
    rw [hf] at hcmd
    obtain ⟨t, hrow, -, hrd⟩ := writeRow_fdb (v := 0x20000000) ho hidle (by decide) (by decide) hcmd
      (noSteps_of_ctxH hs (by simp only [State.setBt, State.wr_ctxH]))
    refine ⟨t, hrow, ?_, ?_, fun x hx => absurd hx (by simp)⟩
    · rw [State.bt, hrd _ (by decide) (by decide), ← State.bt, bt_setBt_self _ _ _ _ (by decide)]
      rfl
    · rw [State.bt, hrd _ (by decide) (by decide), ← State.bt, bt_setBt_reg_ne _ _ hne, bt_setBt_self _ _ _ _ (by decide)]
      rfl
  | some e =>
    rw [hf] at hcmd
    obtain ⟨t, hrow, -, hrd⟩ := writeRow_fdb (v := 0x20000000) ho hidle (by decide) (by decide) hcmd
      (noSteps_of_ctxH hs (by simp only [State.setBt, State.wr_ctxH]))
    have hdata : t.rd SW_FDB_DATA = fdbWord e := by
      rw [hrd _ (by decide) (by decide), rd_setBt_ne _ _ _ hne, rd_wr_self]
    refine ⟨t, hrow, ?_, ?_, fun x hx => ?_⟩
    · rw [State.bt, hrd _ (by decide) (by decide), ← State.bt, bt_setBt_self _ _ _ _ (by decide)]
      rfl
    · rw [State.bt, hdata, fdbWord_valid]
      rfl
    · obtain rfl := Option.some.inj hx
      rw [State.fl, State.bt, hdata]
      exact ⟨fdbWord_ports _, fdbWord_static _⟩

/-- WRITE with room in the bucket (R291). -/
theorem fdbWrite_puts {s : State} {m : Master} (hs : noSteps s) (ho : opens s m SW_FDB_CMD .sw) (hidle : fdbRuns s = false)
    (hroom : (fdbPut s (fdbNamed s)).isSome = true) :
    ∃ t, exec (.fdbWrite m) s = .next t ∧ t.bt SW_FDB_CMD 1 = false ∧ fdbFind t (fdbMac s) (fdbVid s) = some (fdbNamed s) := by
  have hcmd := fdbCommand_write s
  obtain ⟨u, hu⟩ := Option.isSome_iff_exists.1 hroom
  rw [hu] at hcmd
  dsimp only at hcmd
  have hctx : (u.setBt SW_FDB_CMD 1 false).ctxH = s.ctxH := by rw [State.setBt, State.wr_ctxH, fdbPut_ctxH hu]
  obtain ⟨t, hrow, hfdb, hrd⟩ := writeRow_fdb (v := 0x40000000) ho hidle (by decide) (by decide) hcmd (noSteps_of_ctxH hs hctx)
  rw [State.setBt, State.wr_fdb] at hfdb
  refine ⟨t, hrow, ?_, ?_⟩
  · rw [State.bt, hrd _ (by decide) (by decide), ← State.bt, bt_setBt_self _ _ _ _ (by decide)]
  · rw [fdbFind_of_fdb hfdb]
    exact fdbFind_fdbPut hu

/-- WRITE to a full bucket (R291). -/
theorem fdbWrite_full {s : State} {m : Master} (hs : noSteps s) (ho : opens s m SW_FDB_CMD .sw) (hidle : fdbRuns s = false)
    (hfull : (fdbPut s (fdbNamed s)).isSome = false) :
    ∃ t, exec (.fdbWrite m) s = .next t ∧ t.bt SW_FDB_CMD 1 = true ∧ t.fdb = s.fdb := by
  have hcmd := fdbCommand_write s
  rw [Option.isSome_eq_false_iff, Option.isNone_iff_eq_none] at hfull
  rw [hfull] at hcmd
  obtain ⟨t, hrow, hfdb, hrd⟩ := writeRow_fdb (v := 0x40000000) ho hidle (by decide) (by decide) hcmd
    (noSteps_of_ctxH hs (by rw [State.setBt, State.wr_ctxH]))
  rw [State.setBt, State.wr_fdb] at hfdb
  refine ⟨t, hrow, ?_, hfdb⟩
  rw [State.bt, hrd _ (by decide) (by decide), ← State.bt, bt_setBt_self _ _ _ _ (by decide)]

/-- DELETE (R291). -/
theorem fdbDelete_removes {s : State} {m : Master} (hs : noSteps s) (ho : opens s m SW_FDB_CMD .sw) (hidle : fdbRuns s = false) :
    ∃ t, exec (.fdbDelete m) s = .next t ∧ fdbFind t (fdbMac s) (fdbVid s) = none ∧
      t.bt SW_FDB_CMD 0 = (fdbFind s (fdbMac s) (fdbVid s)).isSome ∧
      ∀ a b, (a, b) ≠ (fdbMac s, fdbVid s) → fdbFind t a b = fdbFind s a b := by
  obtain ⟨t, hrow, hfdb, hrd⟩ := writeRow_fdb (v := 0x60000000) ho hidle (by decide) (by decide) (fdbCommand_delete s)
    (noSteps_of_ctxH hs (by rw [State.setBt, State.wr_ctxH]; rfl))
  rw [State.setBt, State.wr_fdb] at hfdb
  refine ⟨t, hrow, ?_, ?_, fun a b hne => ?_⟩
  · rw [fdbFind_of_fdb hfdb, fdbFind_deleted]
  · rw [State.bt, hrd _ (by decide) (by decide), ← State.bt, bt_setBt_self _ _ _ _ (by decide), fdbOthers_shorter]
  · rw [fdbFind_of_fdb hfdb]
    exact fdbFind_fdbSet_other s hne rfl

/-- FLUSH (R291). -/
theorem fdbFlush_keeps {s : State} {m : Master} (hs : noSteps s) (ho : opens s m SW_FDB_CMD .sw) (hidle : fdbRuns s = false) :
    ∃ t, exec (.fdbFlush m) s = .next t ∧
      ∀ b ∈ t.fdb, ∀ x ∈ b.2, x.static = true ∨ x.ports &&& s.fl SW_FDB_DATA 15 0 = 0 := by
  obtain ⟨t, hrow, hfdb, -⟩ := writeRow_fdb (v := 0x80000000) ho hidle (by decide) (by decide) (fdbCommand_flush s) hs
  refine ⟨t, hrow, fun b hb x hx => mem_fdbFlushed (s := s) ?_ hx⟩
  rw [← show t.fdb = fdbFlushed s from hfdb]
  exact hb

/-! ## Ageing (R290) -/

/-- A bucket one ageing period later. -/
def fdbAged (l : List FdbE) : List FdbE :=
  (l.map (fun e => if e.static then e else { e with hit := false, idle := if e.hit then 0 else e.idle + 1 })).filter
    (fun e => e.static || decide (e.idle < 2))

theorem fdbAge_fdb {s : State} (hlive : swLive s = true) (hage : s.fl SW_AGE 15 0 ≠ 0)
    (hdue : s.ageAt + s.fl SW_AGE 15 0 * 1000000000 ≤ s.cycles) :
    (fdbAge s).fdb = (s.fdb.map (fun b => (b.1, fdbAged b.2))).filter (fun b => !b.2.isEmpty) := by
  rw [fdbAge, if_neg]
  · rfl
  · rintro (h | h | h)
    · exact hage h
    · exact absurd (hlive.symm.trans h) (by decide)
    · omega

/-- What ageing leaves is static or was refreshed. -/
theorem mem_fdbAged {l : List FdbE} {x : FdbE} (h : x ∈ fdbAged l) : x.static = true ∨ x.idle < 2 := by
  simpa using (List.mem_filter.1 h).2

/-- A static entry stays as it is. -/
theorem static_mem_fdbAged {l : List FdbE} {x : FdbE} (h : x ∈ l) (hx : x.static = true) : x ∈ fdbAged l :=
  List.mem_filter.2 ⟨List.mem_map.2 ⟨x, h, if_pos hx⟩, by simp [hx]⟩

/-- FDB_AGEING when its period ends. -/
theorem fdbAgeing_ages {s : State} (hlive : swLive s = true) (hage : s.fl SW_AGE 15 0 ≠ 0)
    (hdue : s.ageAt + s.fl SW_AGE 15 0 * 1000000000 ≤ s.cycles) : ∃ t, exec .fdbAgeing s = .next t ∧
      (∀ b ∈ t.fdb, ∀ x ∈ b.2, x.static = true ∨ x.idle < 2) ∧
      ∀ b ∈ s.fdb, ∀ x ∈ b.2, x.static = true → ∃ c ∈ t.fdb, c.1 = b.1 ∧ x ∈ c.2 := by
  have hfdb : (close (fdbAge s)).fdb = _ := (close_fdb _).trans (fdbAge_fdb hlive hage hdue)
  refine ⟨_, rfl, fun b hb x hx => ?_, fun b hb x hx hst => ?_⟩
  · rw [hfdb] at hb
    obtain ⟨c, -, rfl⟩ := List.mem_map.1 (List.mem_filter.1 hb).1
    exact mem_fdbAged hx
  · have hin := static_mem_fdbAged hx hst
    refine ⟨(b.1, fdbAged b.2), ?_, rfl, hin⟩
    rw [hfdb, List.mem_filter]
    refine ⟨List.mem_map.2 ⟨b, hb, rfl⟩, ?_⟩
    simpa using List.ne_nil_of_mem hin

end Sys2Proof.Machine

/-! SUPPORT. Gates, links, rings and PRP pairs of the switch (R284, R300, R302, R305, R309). -/

namespace Sys2Proof.Machine

/-! ## Bits that a plain write leaves -/

/-- A bit without RW of a register without W1C and RWO bits stays. -/
theorem bt_softWrite_kept (s : State) {a i : Nat} {rw rc wo rst : Word} (h : regDesc a = some ⟨rw, 0, rc, wo, 0, rst⟩)
    (hrw : rw.getLsbD i = false) (h32 : i < 32) (v : Word) : (s.softWrite a v).bt a i = s.bt a i := by
  rw [State.bt, rd_softWrite_self s h, writtenWord_of_rwo_zero rfl, State.bt, bitAt_eq_getLsbD, bitAt_eq_getLsbD]
  rw [BitVec.getLsbD_eq_getElem h32] at hrw ⊢
  have hones : (4294967295#32)[i] = true := BitVec.getElem_allOnes i h32
  simp [h32, hrw, hones]

@[simp] theorem softWrite_gates (s : State) (a : Nat) (v : Word) : (s.softWrite a v).gates = s.gates := by
  obtain ⟨r, d, h⟩ := softWrite_eq s a v
  rw [h]

/-! ## Descriptors -/

section
variable {p : Nat} (hp : p < 12)
include hp

theorem regDesc_pMode : regDesc (SW_P_MODE p) = some ⟨0x3F, 0, 0, 0, 0, 0⟩ := by
  simp (disch := omega) only [regDesc, swDesc, SW_P_MODE, if_neg, if_pos]

theorem regDesc_pGctrl : regDesc (SW_P_GCTRL p) = some ⟨0x81FF01FF, 0, 0, 0x18000000, 0, 0x10001⟩ := by
  have hblk : regDesc (SW_P_GCTRL p) = swDesc (0x10018 + p * 0x100) := by
    have hoff : SW_P_GCTRL p - 0x33000000 = 0x10018 + p * 0x100 := by unfold SW_P_GCTRL; omega
    unfold regDesc
    rw [hoff]
    unfold SW_P_GCTRL
    simp (disch := omega) only [if_neg, if_pos]
  rw [hblk]
  unfold swDesc
  repeat rw [if_neg (by omega)]
  rw [if_pos (by omega)]

/-- Where swWrite finds a register of a port. -/
theorem swWrite_port (s : State) {o : Nat} (ho : o < 0x100) (v : Word) :
    swWrite s ((0x33010000 + o + p * 0x100) % 0x400000) v = portWrite s p o v := by
  have hoff : (0x33010000 + o + p * 0x100) % 0x400000 = 0x10000 + (o + p * 0x100) := by omega
  have hport : (0x10000 + (o + p * 0x100) - 0x10000) / 0x100 = p := by omega
  have hreg : (0x10000 + (o + p * 0x100)) % 0x100 = o := by omega
  have hbusy : ¬(0x40 ≤ 0x10000 + (o + p * 0x100) ∧ 0x10000 + (o + p * 0x100) < 0x50 ∧ fdbRuns s = true) := by omega
  rw [hoff, swWrite]
  dsimp only
  rw [if_neg (by omega), if_neg (by omega), if_neg (by omega), if_neg hbusy, if_neg (by omega), if_neg (by omega), if_pos (by omega),
    hport, hreg]

end

/-- The words at 0x33040800 to 0x33040BFF belong to no ring. -/
theorem regDesc_ringCfg {a : Nat} (h : 0x33040000 ≤ a ∧ a < 0x33041000 ∧ a % 0x20 = 0) (hd : regDesc a ≠ none) :
    regDesc a = some ⟨0xE70000FF, 0, 0, 0, 0, 0⟩ := by
  have hblk : regDesc a = swDesc (a - 0x33000000) := by simp (disch := omega) only [regDesc, if_neg, if_pos]
  rw [hblk] at hd ⊢
  unfold swDesc at hd ⊢
  by_cases hgap : (a - 0x33000000) / 0x400 = 0x102
  · refine absurd ?_ hd
    repeat rw [if_neg (by omega)]
  · repeat rw [if_neg (by omega)]
    rw [if_pos (by omega)]

theorem regDesc_ringLen {a : Nat} (h : 0x33040000 ≤ a ∧ a < 0x33041000 ∧ a % 0x20 = 8) (hd : regDesc a ≠ none) :
    regDesc a = some ⟨0xFFFF, 0, 0, 0, 0, 0⟩ := by
  have hblk : regDesc a = swDesc (a - 0x33000000) := by simp (disch := omega) only [regDesc, if_neg, if_pos]
  rw [hblk] at hd ⊢
  unfold swDesc at hd ⊢
  by_cases hgap : (a - 0x33000000) / 0x400 = 0x102
  · refine absurd ?_ hd
    repeat rw [if_neg (by omega)]
  · repeat rw [if_neg (by omega)]
    rw [if_pos (by omega)]

/-- Where swWrite finds a register of a ring. -/
theorem swWrite_ring {r : Nat} (hr : r < 128) (s : State) {o : Nat} (ho : o < 0x20) (v : Word) :
    swWrite s ((0x33040000 + o + r * 0x20) % 0x400000) v = ringRegWrite s r o v := by
  have hoff : (0x33040000 + o + r * 0x20) % 0x400000 = 0x40000 + (o + r * 0x20) := by omega
  have hring : (0x40000 + (o + r * 0x20) - 0x40000) / 0x20 = r := by omega
  have hreg : (0x40000 + (o + r * 0x20)) % 0x20 = o := by omega
  have hbusy : ¬(0x40 ≤ 0x40000 + (o + r * 0x20) ∧ 0x40000 + (o + r * 0x20) < 0x50 ∧ fdbRuns s = true) := by omega
  rw [hoff, swWrite]
  dsimp only
  rw [if_neg (by omega), if_neg (by omega), if_neg (by omega), if_neg hbusy, if_neg (by omega), if_neg (by omega), if_neg (by omega),
    if_neg (by omega), if_neg (by omega), if_pos (by omega), hring, hreg]

/-- Where swWrite finds a register of a PRP pair. -/
theorem swWrite_prp {k : Nat} (hk : k < 2) (s : State) {o : Nat} (ho : o < 0x40) (v : Word) :
    swWrite s ((0x33310000 + o + k * 0x40) % 0x400000) v = prpWrite s k o v := by
  have hoff : (0x33310000 + o + k * 0x40) % 0x400000 = 0x310000 + (o + k * 0x40) := by omega
  have hpair : (0x310000 + (o + k * 0x40) - 0x310000) / 0x40 = k := by omega
  have hreg : (0x310000 + (o + k * 0x40)) % 0x40 = o := by omega
  have hbusy : ¬(0x40 ≤ 0x310000 + (o + k * 0x40) ∧ 0x310000 + (o + k * 0x40) < 0x50 ∧ fdbRuns s = true) := by omega
  rw [hoff, swWrite]
  dsimp only
  rw [if_neg (by omega), if_neg (by omega), if_neg (by omega), if_neg hbusy, if_neg (by omega), if_neg (by omega), if_neg (by omega),
    if_neg (by omega), if_neg (by omega), if_neg (by omega), if_neg (by omega), if_neg (by omega), if_neg (by omega), if_pos (by omega),
    hpair, hreg]

theorem regDesc_prpCfg {k : Nat} (hk : k < 2) : regDesc (SW_PRP_CFG k) = some ⟨0x8000FFFF, 0, 0, 0, 0, 0x190⟩ := by
  simp (disch := omega) only [regDesc, swDesc, SW_PRP_CFG, if_neg, if_pos]

end Sys2Proof.Machine

/-! SUPPORT. What gate events, links and the registers of ports, rings and pairs make of the switch, row by row. -/

namespace Sys2Proof.Machine

/-! ## Gates (R300) -/

theorem gate_setGate_self (s : State) (p : Nat) (g : GateH) : gate (setGate s p g) p = g := smGet_smSet_self _ _ _ _

theorem gate_of_gates {s t : State} (h : t.gates = s.gates) (p : Nat) : gate t p = gate s p := by simp only [gate, h]

theorem gate_close (s : State) (p : Nat) : gate (close s) p = gate s p := gate_of_gates (close_gates s) p
theorem gate_answered (s : State) (r : Resp) (p : Nat) : gate (answered s r) p = gate s p := gate_of_gates (close_gates _) p

theorem gBank_of_bt {s t : State} {p : Nat} (h : t.bt (SW_P_GCTRL p) 30 = s.bt (SW_P_GCTRL p) 30) : gBank t p = gBank s p := by
  simp only [gBank, h]

/-- The other bank is active after a switch, and nothing is pending (R302). -/
theorem gateSwitch_shows (s : State) {p : Nat} :
    (gateSwitch s p).bt (SW_P_GCTRL p) 30 = !s.bt (SW_P_GCTRL p) 30 ∧ (gateSwitch s p).bt (SW_P_GCTRL p) 29 = false ∧
      (gateSwitch s p).bt SW_IRQSTAT 3 = true ∧ (gateSwitch s p).gates = s.gates ∧ (gateSwitch s p).ctxH = s.ctxH ∧
      (gateSwitch s p).cycles = s.cycles := by
  have hne : SW_P_GCTRL p ≠ SW_IRQSTAT := by unfold SW_P_GCTRL SW_IRQSTAT; omega
  refine ⟨?_, ?_, bt_raise _ (by decide), ?_, ?_, ?_⟩
  · rw [gateSwitch, bt_raise_ne _ _ hne, bt_setBt_ne _ _ _ _ _ (by decide) (by decide), bt_setBt_self _ _ _ _ (by decide)]
  · rw [gateSwitch, bt_raise_ne _ _ hne, bt_setBt_self _ _ _ _ (by decide)]
  · simp only [gateSwitch, State.raise, State.setBt, State.wr_gates]
  · simp only [gateSwitch, State.raise, State.setBt, State.wr_ctxH]
  · simp only [gateSwitch, State.raise, State.setBt, State.wr_cycles]

theorem gBank_gateSwitch (s : State) (p : Nat) : gBank (gateSwitch s p) p = 1 - gBank s p := by
  rw [gBank, (gateSwitch_shows s).1, gBank]
  cases s.bt (SW_P_GCTRL p) 30 <;> rfl

/-- The state in which a gate cycle begins: after the bank switch, where one is due. -/
def cycleBank (s : State) (p i : Nat) : State := if s.bt (SW_P_GCTRL p) 29 && decide (gChg s p ≤ i) then gateSwitch s p else s

theorem gateCycle_begins {s : State} {p n i : Nat} (hlive : swLive s = true) (hen : s.bt (SW_P_GCTRL p) 31 = true) (hcyc : gCyc s p ≠ 0)
    (hbase : gBase s p ≤ now0 s) (hn : n = (now0 s - gBase s p) / gCyc s p) (hi : i = gBase s p + n * gCyc s p)
    (hsince : (gate s p).since ≤ i) (hnew : (gate s p).cycle ≠ some n) : gateCycle s p = setGate (cycleBank s p i) p
      { gate s p with cycle := some n, on := true, idx := 0, begun := (cycleBank s p i).cycles + 1 } := by
  have hgo : ¬(swLive s = false ∨ s.bt (SW_P_GCTRL p) 31 = false ∨ now0 s < gBase s p ∨ gCyc s p = 0) := by
    simp only [hlive, hen, Bool.true_eq_false, false_or, not_or, Nat.not_lt]
    exact ⟨hbase, hcyc⟩
  have hnot : ¬(i < (gate s p).since ∨ (gate s p).cycle = some n) := not_or.2 ⟨Nat.not_lt.2 hsince, hnew⟩
  subst hi hn
  rw [gateCycle]
  exact (if_neg hgo).trans (if_neg hnot)

theorem cycleBank_cycles (s : State) (p i : Nat) : (cycleBank s p i).cycles = s.cycles := by
  unfold cycleBank
  split
  · exact (gateSwitch_shows s).2.2.2.2.2
  · rfl

theorem gateAdvance_next {s : State} {p n : Nat} (hcyc : (gate s p).cycle = some n) (hrun : gatesRun s p = true)
    (hlen : (gate s p).idx + 1 < gLen s p)
    (hdue : gBase s p + n * gCyc s p + gSum s p ((gate s p).idx + 1) ≤ now0 s) :
    gateAdvance s p = setGate s p { gate s p with idx := (gate s p).idx + 1, begun := s.cycles + 1 } := by
  have hgo : (gatesRun s p && decide ((gate s p).idx + 1 < gLen s p) &&
      decide (gBase s p + n * gCyc s p + gSum s p ((gate s p).idx + 1) ≤ now0 s)) = true := by
    simp only [hrun, hlen, hdue, decide_true, Bool.and_self]
  unfold gateAdvance
  dsimp only
  rw [hcyc]
  exact if_pos hgo

/-! ## The write of SW_P_GCTRL (R302) -/

section
variable {s : State} {p : Nat} {v : Word}

/-- The written word asks for a swap: bits 28 and 27 read 1. -/
theorem swapWord (v : Word) : fld (setFld v 28 27 1) 28 27 = 1 ∧ fld (setFld v 28 27 1) 24 16 = fld v 24 16 ∧
    fld (setFld v 28 27 1) 8 0 = fld v 8 0 ∧ bitAt (setFld v 28 27 1) 31 = bitAt v 31 := by
  refine ⟨fld_setFld_self v 28 27 1 (by decide) (by decide), ?_, ?_, ?_⟩
  · exact fld_setFld_apart v 1 (by decide) (by decide) (by decide) (by decide)
  · exact fld_setFld_apart v 1 (by decide) (by decide) (by decide) (by decide)
  · exact bitAt_setFld_apart v 1 (by decide) (by decide) (by decide)

/-- The checks of a swap pass. -/
theorem gctrlWrite_swap (hlen : 1 ≤ fld v 24 16 ∧ fld v 24 16 ≤ 256 ∧ 1 ≤ fld v 8 0 ∧ fld v 8 0 ≤ 256)
    (hsame : s.bt (SW_P_GCTRL p) 31 = true → fld v 24 16 = s.fl (SW_P_GCTRL p) 24 16 ∧ fld v 8 0 = s.fl (SW_P_GCTRL p) 8 0)
    (hnot : ¬(bitAt v 31 = true ∧ s.bt (SW_P_GCTRL p) 31 = false)) {u : State}
    (hu : u = (if bitAt v 31 then s.softWrite (SW_P_GCTRL p) (setFld v 28 27 1)
      else setGate (s.softWrite (SW_P_GCTRL p) (setFld v 28 27 1)) p {}).setBt (SW_P_GCTRL p) 29 true) :
    gctrlWrite s p (setFld v 28 27 1) = (if !bitAt v 31 then gateSwitch u p else u, .ok 0) := by
  obtain ⟨hswap, h24, h8, h31⟩ := swapWord v
  obtain ⟨hl1, hl2, hl3, hl4⟩ := hlen
  have hset : u.bt (SW_P_GCTRL p) 29 = true := hu ▸ bt_setBt_self _ _ _ _ (by decide)
  have hpass : ¬(2 ≤ 1 ∨ (fld v 24 16 == 0 || decide (256 < fld v 24 16)) = true ∨ (fld v 8 0 == 0 || decide (256 < fld v 8 0)) = true ∨
      (bitAt (s.rd (SW_P_GCTRL p)) 31 = true ∧
        (fld v 24 16 != fld (s.rd (SW_P_GCTRL p)) 24 16 || fld v 8 0 != fld (s.rd (SW_P_GCTRL p)) 8 0) = true)) := by
    rintro (h | h | h | ⟨hon, h⟩)
    · omega
    · simp only [Bool.or_eq_true, beq_iff_eq, decide_eq_true_eq] at h
      omega
    · simp only [Bool.or_eq_true, beq_iff_eq, decide_eq_true_eq] at h
      omega
    · obtain ⟨h1, h2⟩ := hsame hon
      rw [State.fl] at h1 h2
      simp [h1, h2] at h
  have hkeep : ¬((bitAt v 31 && !bitAt (s.rd (SW_P_GCTRL p)) 31) = true) := by
    simp only [Bool.and_eq_true, Bool.not_eq_true']
    exact hnot
  unfold gctrlWrite
  dsimp only
  rw [hswap, h24, h8, h31, if_neg hpass, if_neg hkeep, if_pos rfl, ← hu, hset, Bool.true_and]

end

/-! ## Links (R284) -/

section
variable (s : State) (p : Nat)

theorem linkUp_eq {p : Nat} (h : p < 12) : linkUp s p = s.bt (SW_P_LINK p) 31 := by simp [linkUp, h]

theorem linkLost_up : (linkLost s p).bt (SW_P_LINK p) 31 = false := by
  have hne : SW_P_LINK p ≠ SW_IRQSTAT := by unfold SW_P_LINK SW_IRQSTAT; omega
  unfold linkLost
  split
  · rw [bt_raise_ne _ _ hne, bt_satInc_apart _ _ _ (by decide) (by decide) (by decide),
      bt_setFl_apart _ _ _ (by decide) (by decide) (by decide), bt_setBt_self _ _ _ _ (by decide)]
  · next h => exact Bool.eq_false_iff.2 h

theorem linkLost_ctxH : (linkLost s p).ctxH = s.ctxH := by
  unfold linkLost
  split
  · simp only [State.raise, State.satInc, State.setFl, State.setBt, State.wr_ctxH]
  · rfl

theorem rd_linkLost_ne {a : Nat} (h : a ≠ SW_P_LINK p) (hi : a ≠ SW_IRQSTAT) : (linkLost s p).rd a = s.rd a := by
  unfold linkLost
  split
  · rw [rd_raise_ne _ _ hi, rd_satInc_ne _ _ _ _ h, rd_setFl_ne _ _ _ _ h, rd_setBt_ne _ _ _ h]
  · rfl

/-- A link that was up and is lost. -/
theorem linkLost_counts (h : s.bt (SW_P_LINK p) 31 = true) :
    (linkLost s p).fl (SW_P_LINK p) 15 0 = min (2 ^ 16 - 1) (s.fl (SW_P_LINK p) 15 0 + 1) ∧ (linkLost s p).bt SW_IRQSTAT 0 = true := by
  have hne : SW_P_LINK p ≠ SW_IRQSTAT := by unfold SW_P_LINK SW_IRQSTAT; omega
  rw [linkLost, if_pos h]
  refine ⟨?_, bt_raise _ (by decide)⟩
  rw [fl_raise_ne _ _ _ hne, fl_satInc_self _ _ _ _ (by decide) (by decide), fl_setFl_apart _ _ _ (by decide) (by decide) (by decide) (by decide),
    fl_setBt_apart _ _ _ (by decide) (by decide) (by decide)]

variable {s p}

theorem linkComes_refused {sp : Nat} {half fec : Bool} (hgo : swLive s = true ∧ inReset s 28 = false ∧ domOff s 26 = false ∧
    s.fl (SW_P_MODE p) 3 0 ≠ 0 ∧ s.bt (SW_P_LINK p) 31 = false) (h : half = true ∨ sp = 0) :
    linkComes s p sp half fec = s.raise (SW_P_LINK p) 0x40000000 := by
  obtain ⟨h1, h2, h3, h4, h5⟩ := hgo
  rw [linkComes, if_neg (by simp [h1, h2, h3, h4, h5]), if_pos h]

theorem linkComes_up {sp : Nat} {half fec : Bool} (hgo : swLive s = true ∧ inReset s 28 = false ∧ domOff s 26 = false ∧
    s.fl (SW_P_MODE p) 3 0 ≠ 0 ∧ s.bt (SW_P_LINK p) 31 = false) (hhalf : half = false) (hsp : sp ≠ 0) (h8 : sp < 8) :
    (linkComes s p sp half fec).bt (SW_P_LINK p) 31 = true ∧ (linkComes s p sp half fec).fl (SW_P_LINK p) 28 26 = sp ∧
      (linkComes s p sp half fec).bt SW_IRQSTAT 0 = true := by
  obtain ⟨h1, h2, h3, h4, h5⟩ := hgo
  have hne : SW_P_LINK p ≠ SW_IRQSTAT := by unfold SW_P_LINK SW_IRQSTAT; omega
  rw [linkComes, if_neg (by simp [h1, h2, h3, h4, h5]), if_neg (by simp [hhalf, hsp])]
  refine ⟨?_, ?_, bt_raise _ (by decide)⟩
  · rw [bt_raise_ne _ _ hne, bt_setFl_apart _ _ _ (by decide) (by decide) (by decide), bt_setBt_ne _ _ _ _ _ (by decide) (by decide),
      bt_setBt_self _ _ _ _ (by decide)]
  · rw [fl_raise_ne _ _ _ hne, fl_setFl_self _ _ _ _ _ (by decide) (by decide)]
    exact Nat.mod_eq_of_lt h8

end

/-! ## Rings (R305) -/

/-- EN and its bit apart. -/
theorem ringBad_putBit (s : State) (r : Nat) (v : Word) (b : Bool) : ringBad s r (putBit v 31 b) = ringBad s r v := by
  have h30 := bitAt_putBit_ne v 31 30 b (by decide) (by decide)
  have h29 := bitAt_putBit_ne v 31 29 b (by decide) (by decide)
  have hcls := fld_putBit_apart v (i := 31) (hi := 26) (lo := 24) b (by decide) (by decide) (by decide)
  simp only [ringBad, h30, h29, hcls]

theorem bitAt_putBit_top (v : Word) (b : Bool) : bitAt (putBit v 31 b) 31 = b := bitAt_putBit_self v 31 b (by decide)

section
variable {s : State} {r : Nat} {v : Word}

theorem ringRegWrite_enable (hoff : s.bt (SW_R_CFG r) 31 = false) (hok : ringBad s r v = false) :
    ringRegWrite s r 0 (putBit v 31 true) = (s.softWrite (SW_R_CFG r) (putBit v 31 true), .ok 0) := by
  have ha : 0x33040000 + r * 0x20 + 0 = SW_R_CFG r := rfl
  unfold ringRegWrite
  dsimp only
  rw [ha, hoff, if_pos rfl, if_neg (by decide), if_neg (by simp [ringBad_putBit, hok])]

theorem ringRegWrite_disable :
    ringRegWrite s r 0 (putBit v 31 false) = (s.softWrite (SW_R_CFG r) (putBit v 31 false), .ok 0) := by
  have ha : 0x33040000 + r * 0x20 + 0 = SW_R_CFG r := rfl
  unfold ringRegWrite
  dsimp only
  rw [ha, bitAt_putBit_top, if_pos rfl]
  split
  · rw [if_neg (by decide)]
  · rw [if_neg (by simp)]

theorem ringRegWrite_len (hoff : s.bt (SW_R_CFG r) 31 = false) :
    ringRegWrite s r 8 v = (((s.softWrite (SW_R_LEN r) v).wr (SW_R_HWPTR r) 0).wr (SW_R_SWPTR r) 0, .ok 0) := by
  have ha : 0x33040000 + r * 0x20 + 8 = SW_R_LEN r := by unfold SW_R_LEN; omega
  unfold ringRegWrite
  dsimp only
  rw [ha, hoff, if_neg (by decide), if_neg (by decide), if_pos rfl, if_neg (by decide)]

end

/-! ## PRP pairs (R309) -/

theorem prpWrite_enable {s : State} {k : Nat} {v : Word} (hforget : fld v 15 0 ≠ 0) (ha : portState s (2 * k) = 0)
    (hb : portState s (2 * k + 1) = 0) :
    prpWrite s k 0 (putBit v 31 true) = (s.softWrite (SW_PRP_CFG k) (putBit v 31 true), .ok 0) := by
  have hat : 0x33310000 + k * 0x40 + 0 = SW_PRP_CFG k := rfl
  have hlow := fld_putBit_apart v (i := 31) (hi := 15) (lo := 0) true (by decide) (by decide) (by decide)
  unfold prpWrite
  dsimp only
  rw [hat, hlow, if_pos rfl, if_neg (by simp [hforget, ha, hb])]

end Sys2Proof.Machine

/-! SUPPORT. The obligation on the forwarding database, gates, links, rings and PRP pairs of the switch. -/

namespace Sys2Proof.Machine

theorem bt_close_switch (u : State) {a : Nat} (i : Nat) (h : 0x33000000 ≤ a) (h' : a < 0x33400000) : (close u).bt a i = u.bt a i :=
  bt_close_timed u i (by omega) (by omega)

theorem fl_close_switch (u : State) {a : Nat} (hi lo : Nat) (h : 0x33000000 ≤ a) (h' : a < 0x33400000) :
    (close u).fl a hi lo = u.fl a hi lo := fl_close_timed u hi lo (by omega) (by omega)

theorem bt_setGate (s : State) (p a i : Nat) (g : GateH) : (setGate s p g).bt a i = s.bt a i := bt_of_regs (s := s) rfl a i

theorem gBank_setGate (s : State) (p : Nat) (g : GateH) : gBank (setGate s p g) p = gBank s p := by rw [gBank, bt_setGate, gBank]

theorem portWrite_gctrl (s : State) (p : Nat) (v : Word) : portWrite s p 0x18 v = gctrlWrite s p v := by
  unfold portWrite
  dsimp only
  rw [if_neg (by decide), if_neg (by decide), if_neg (by decide), if_pos rfl]

section
variable {p : Nat} (hp : p < 12)
include hp

/-- A port's registers lie in the switch, and are no routes. -/
theorem portReg_range {o : Nat} (ho : o < 0x100) : 0x33000000 ≤ 0x33010000 + o + p * 0x100 ∧ 0x33010000 + o + p * 0x100 < 0x33400000 := by
  omega

theorem routeKind_port {o : Nat} (ho : o < 0x100) : routeKind (0x33010000 + o + p * 0x100) = none :=
  routeKind_switch (portReg_range hp ho) (by unfold SW_IRQROUTE; omega) (.inl (by omega))

theorem bt_close_gctrl (u : State) (i : Nat) : (close u).bt (SW_P_GCTRL p) i = u.bt (SW_P_GCTRL p) i :=
  bt_close_switch u i (by unfold SW_P_GCTRL; omega) (by unfold SW_P_GCTRL; omega)

theorem bt_answered_gctrl (u : State) (r : Resp) (i : Nat) : (answered u r).bt (SW_P_GCTRL p) i = u.bt (SW_P_GCTRL p) i :=
  bt_answered_switch u r i (by unfold SW_P_GCTRL; omega) (by unfold SW_P_GCTRL; omega)

theorem bt_close_link (u : State) (i : Nat) : (close u).bt (SW_P_LINK p) i = u.bt (SW_P_LINK p) i :=
  bt_close_switch u i (by unfold SW_P_LINK; omega) (by unfold SW_P_LINK; omega)

theorem fl_close_link (u : State) (hi lo : Nat) : (close u).fl (SW_P_LINK p) hi lo = u.fl (SW_P_LINK p) hi lo :=
  fl_close_switch u hi lo (by unfold SW_P_LINK; omega) (by unfold SW_P_LINK; omega)

end

/-- GATE_CYCLE_START (R300, R302). -/
theorem gateCycleStart_begins {p : Fin 12} {s u : State} {dt n i : Nat} {g : GateH} (hu : u = elapse s dt) (hg : g = gate u p.val)
    (hlive : swLive u = true) (hen : u.bt (SW_P_GCTRL p.val) 31 = true) (hcyc : gCyc u p.val ≠ 0) (hbase : gBase u p.val ≤ now0 u)
    (hn : n = (now0 u - gBase u p.val) / gCyc u p.val) (hi : i = gBase u p.val + n * gCyc u p.val) (hsince : g.since ≤ i)
    (hnew : g.cycle ≠ some n) : ∃ t, exec (.gateCycleStart p dt) s = .next t ∧
      gate t p.val = { g with cycle := some n, on := true, idx := 0, begun := u.cycles + 1 } ∧
      (u.bt (SW_P_GCTRL p.val) 29 = true → gChg u p.val ≤ i →
        gBank t p.val = 1 - gBank u p.val ∧ t.bt (SW_P_GCTRL p.val) 29 = false ∧ t.bt SW_IRQSTAT 3 = true) := by
  subst hg
  have hrow := gateCycle_begins hlive hen hcyc hbase hn hi hsince hnew
  refine ⟨_, congrArg (fun x => done (gateCycle x p.val)) hu.symm, ?_, fun hpend hchg => ?_⟩
  · rw [gate_close, hrow, gate_setGate_self, cycleBank_cycles]
  · have hsw : cycleBank u p.val i = gateSwitch u p.val := if_pos (by simp [hpend, hchg])
    obtain ⟨-, h29, hirq, -⟩ := gateSwitch_shows u (p := p.val)
    refine ⟨?_, ?_, ?_⟩
    · rw [gBank_of_bt (bt_close_gctrl p.isLt _ 30), hrow, hsw, gBank_setGate, gBank_gateSwitch]
    · rw [bt_close_gctrl p.isLt, hrow, hsw, bt_setGate, h29]
    · rw [bt_close_switch _ _ (by decide) (by decide), hrow, hsw, bt_setGate, hirq]

/-- GATE_SWAP of running gates (R302): the swap waits. -/
theorem gateSwap_waits {s : State} {m : Master} {v : Word} {p : Fin 12} (hs : noSteps s) (ho : opens s m (SW_P_GCTRL p.val) .sw)
    (hlen : 1 ≤ fld v 24 16 ∧ fld v 24 16 ≤ 256 ∧ 1 ≤ fld v 8 0 ∧ fld v 8 0 ≤ 256) (hv : bitAt v 31 = true)
    (hen : s.bt (SW_P_GCTRL p.val) 31 = true) (h24 : fld v 24 16 = s.fl (SW_P_GCTRL p.val) 24 16)
    (h8 : fld v 8 0 = s.fl (SW_P_GCTRL p.val) 8 0) : ∃ t, exec (.gateSwap m p v) s = .next t ∧
      t.bt (SW_P_GCTRL p.val) 29 = true ∧ gBank t p.val = gBank s p.val ∧ gate t p.val = gate s p.val := by
  have hwrite := gctrlWrite_swap (s := s) (p := p.val) hlen (fun _ => ⟨h24, h8⟩) (by simp [hen]) rfl
  rw [hv, if_pos rfl, if_neg (by decide)] at hwrite
  refine ⟨_, writeRow_switch ho (routeKind_port p.isLt (o := 0x18) (by decide)) ((swWrite_port p.isLt s (o := 0x18) (by decide) _).trans
    ((portWrite_gctrl _ _ _).trans hwrite))
    (noSteps_wr (noSteps_softWrite hs _ _) _ _), ?_, ?_, ?_⟩
  · rw [bt_answered_gctrl p.isLt, bt_setBt_self _ _ _ _ (by decide)]
  · refine gBank_of_bt ?_
    rw [bt_answered_gctrl p.isLt, bt_setBt_ne _ _ _ _ _ (by decide) (by decide),
      bt_softWrite_kept s (regDesc_pGctrl p.isLt) (by decide) (by decide)]
  · rw [gate_answered]
    exact gate_of_gates (by rw [State.setBt, State.wr_gates, softWrite_gates]) _

/-- GATE_SWAP of stopped gates (R302): the bank changes at once. -/
theorem gateSwap_switches {s : State} {m : Master} {v : Word} {p : Fin 12} (hs : noSteps s) (ho : opens s m (SW_P_GCTRL p.val) .sw)
    (hlen : 1 ≤ fld v 24 16 ∧ fld v 24 16 ≤ 256 ∧ 1 ≤ fld v 8 0 ∧ fld v 8 0 ≤ 256) (hv : bitAt v 31 = false)
    (hen : s.bt (SW_P_GCTRL p.val) 31 = false) : ∃ t, exec (.gateSwap m p v) s = .next t ∧
      t.bt (SW_P_GCTRL p.val) 29 = false ∧ gBank t p.val = 1 - gBank s p.val := by
  have hwrite := gctrlWrite_swap (s := s) (p := p.val) hlen (fun h => absurd (hen.symm.trans h) (by decide)) (by simp [hv]) rfl
  simp only [hv, Bool.not_false, if_true, Bool.false_eq_true, if_false] at hwrite
  generalize hw : (setGate (s.softWrite (SW_P_GCTRL p.val) (setFld v 28 27 1)) p.val {}).setBt (SW_P_GCTRL p.val) 29 true = w at hwrite
  have hctx : w.ctxH = s.ctxH := by
    rw [← hw, State.setBt, State.wr_ctxH]
    exact softWrite_ctxH s _ _
  have hbank : gBank w p.val = gBank s p.val := by
    refine gBank_of_bt ?_
    rw [← hw, bt_setBt_ne _ _ _ _ _ (by decide) (by decide),
      bt_setGate, bt_softWrite_kept s (regDesc_pGctrl p.isLt) (by decide) (by decide)]
  obtain ⟨-, h29, -, -, hctx', -⟩ := gateSwitch_shows w (p := p.val)
  refine ⟨_, writeRow_switch ho (routeKind_port p.isLt (o := 0x18) (by decide)) ((swWrite_port p.isLt s (o := 0x18) (by decide) _).trans
    ((portWrite_gctrl _ _ _).trans hwrite))
    (noSteps_of_ctxH hs (hctx'.trans hctx)), ?_, ?_⟩
  · rw [bt_answered_gctrl p.isLt, h29]
  · rw [gBank_of_bt (bt_answered_gctrl p.isLt _ _ 30), gBank_gateSwitch, hbank]

/-- LMODE_WRITE (R284): the link restarts. -/
theorem lmodeWrite_restarts {s : State} {m : Master} {v : Word} {p : Fin 12} (hs : noSteps s) (ho : opens s m (SW_P_MODE p.val) .sw)
    (hv : fld v 3 0 = 0 ∨ (p.val < 4 ∧ fld v 3 0 ≤ 5) ∨ (4 ≤ p.val ∧ (fld v 3 0 = 6 ∨ fld v 3 0 = 7))) :
    ∃ t, exec (.lmodeWrite m p v) s = .next t ∧ t.resp = .ok 0 ∧ t.fl (SW_P_MODE p.val) 3 0 = fld v 3 0 ∧ linkUp t p.val = false := by
  have hwrite : portWrite s p.val 4 v = (linkLost (s.softWrite (SW_P_MODE p.val) v) p.val, .ok 0) := by
    have hat : 0x33010000 + p.val * 0x100 + 4 = SW_P_MODE p.val := by unfold SW_P_MODE; omega
    unfold portWrite
    dsimp only
    rw [hat, if_neg (by decide), if_pos rfl, if_pos hv]
  refine ⟨_, writeRow_switch ho (routeKind_port p.isLt (o := 4) (by decide)) ((swWrite_port p.isLt s (by decide) v).trans hwrite)
    (noSteps_of_ctxH hs ((linkLost_ctxH _ _).trans (softWrite_ctxH s _ _))), answered_resp _ _, ?_, ?_⟩
  · rw [fl_answered_switch _ _ _ _ (by unfold SW_P_MODE; omega) (by unfold SW_P_MODE; omega), State.fl,
      rd_linkLost_ne _ _ (by unfold SW_P_MODE SW_P_LINK; omega) (by unfold SW_P_MODE SW_IRQSTAT; omega), ← State.fl]
    exact fl_softWrite_self s (regDesc_pMode p.isLt) (by decide) (by decide) v
  · rw [linkUp_eq _ p.isLt, bt_answered_switch _ _ _ (by unfold SW_P_LINK; omega) (by unfold SW_P_LINK; omega), linkLost_up]

section
variable {s : State} {m : Master} {v : Word} {r : Fin 128} (hs : noSteps s)
include hs

/-- The row of a write of a ring register. -/
theorem writeRow_ring {u : State} {o : Nat} (hlt : o < 0x18) (ho : opens s m (0x33040000 + o + r.val * 0x20) .sw)
    (hw : ringRegWrite s r.val o v = (u, .ok 0)) (hctx : u.ctxH = s.ctxH) :
    writeRow s m (0x33040000 + o + r.val * 0x20) v = .next (answered u (.ok 0)) := by
  have hr := r.isLt
  exact writeRow_switch ho (routeKind_switch (by omega) (by unfold SW_IRQROUTE; omega) (.inr (.inr (by omega))))
    ((swWrite_ring hr s (by omega) v).trans hw) (noSteps_of_ctxH hs hctx)

/-- RING_ENABLE and RING_DISABLE (R305). -/
theorem ringEnable_enables (ho : opens s m (SW_R_CFG r.val) .sw) (hoff : s.bt (SW_R_CFG r.val) 31 = false)
    (hok : ringBad s r.val v = false) : ∃ t, exec (.ringEnable m r v) s = .next t ∧ t.resp = .ok 0 ∧
      t.bt (SW_R_CFG r.val) 31 = true ∧ t.fl (SW_R_CFG r.val) 7 0 = fld v 7 0 := by
  have hr := r.isLt
  have hrange : 0x33040000 ≤ SW_R_CFG r.val ∧ SW_R_CFG r.val < 0x33041000 ∧ SW_R_CFG r.val % 0x20 = 0 := by unfold SW_R_CFG; omega
  obtain ⟨-, -, -, -, hdesc, -⟩ := id ho
  have hd := regDesc_ringCfg hrange hdesc
  refine ⟨_, writeRow_ring hs (o := 0) (by decide) ho (ringRegWrite_enable hoff hok) (softWrite_ctxH s _ _), answered_resp _ _, ?_, ?_⟩
  · rw [bt_answered_switch _ _ _ (by omega) (by omega), bt_softWrite_self s hd (by decide) (by decide), bitAt_putBit_top]
  · rw [fl_answered_switch _ _ _ _ (by omega) (by omega), fl_softWrite_self s hd (by decide) (by decide)]
    exact fld_putBit_apart v true (by decide) (by decide) (by decide)

theorem ringDisable_disables (ho : opens s m (SW_R_CFG r.val) .sw) :
    ∃ t, exec (.ringDisable m r v) s = .next t ∧ t.resp = .ok 0 ∧ t.bt (SW_R_CFG r.val) 31 = false := by
  have hr := r.isLt
  have hrange : 0x33040000 ≤ SW_R_CFG r.val ∧ SW_R_CFG r.val < 0x33041000 ∧ SW_R_CFG r.val % 0x20 = 0 := by unfold SW_R_CFG; omega
  obtain ⟨-, -, -, -, hdesc, -⟩ := id ho
  have hd := regDesc_ringCfg hrange hdesc
  refine ⟨_, writeRow_ring hs (o := 0) (by decide) ho ringRegWrite_disable (softWrite_ctxH s _ _), answered_resp _ _, ?_⟩
  rw [bt_answered_switch _ _ _ (by omega) (by omega), bt_softWrite_self s hd (by decide) (by decide), bitAt_putBit_top]

/-- RING_LEN_WRITE (R305). -/
theorem ringLenWrite_resets (ho : opens s m (SW_R_LEN r.val) .sw) (hoff : s.bt (SW_R_CFG r.val) 31 = false) :
    ∃ t, exec (.ringLenWrite m r v) s = .next t ∧ t.fl (SW_R_LEN r.val) 15 0 = fld v 15 0 ∧ t.rd (SW_R_HWPTR r.val) = 0 ∧
      t.rd (SW_R_SWPTR r.val) = 0 := by
  have hr := r.isLt
  have hrange : 0x33040000 ≤ SW_R_LEN r.val ∧ SW_R_LEN r.val < 0x33041000 ∧ SW_R_LEN r.val % 0x20 = 8 := by unfold SW_R_LEN; omega
  have hhw : SW_R_HWPTR r.val ≠ SW_R_SWPTR r.val ∧ SW_R_LEN r.val ≠ SW_R_HWPTR r.val ∧ SW_R_LEN r.val ≠ SW_R_SWPTR r.val := by
    unfold SW_R_HWPTR SW_R_SWPTR SW_R_LEN; omega
  obtain ⟨h1, h2, h3⟩ := hhw
  obtain ⟨-, -, -, -, hdesc, -⟩ := id ho
  have hd := regDesc_ringLen hrange hdesc
  refine ⟨_, writeRow_ring hs (o := 8) (by decide) ho (ringRegWrite_len hoff)
    (by rw [State.wr_ctxH, State.wr_ctxH, softWrite_ctxH]), ?_, ?_, ?_⟩
  · rw [fl_answered_switch _ _ _ _ (by omega) (by omega), fl_wr_ne _ _ _ h3, fl_wr_ne _ _ _ h2,
      fl_softWrite_self s hd (by decide) (by decide)]
  · rw [rd_answered_timed _ _ (by unfold SW_R_HWPTR; omega) (by unfold SW_R_HWPTR; omega), rd_wr_ne _ _ h1, rd_wr_self]
  · rw [rd_answered_timed _ _ (by unfold SW_R_SWPTR; omega) (by unfold SW_R_SWPTR; omega), rd_wr_self]

end

/-- PRP_ENABLE (R309). -/
theorem prpEnable_enables {s : State} {m : Master} {v : Word} {k : Fin 6} (hs : noSteps s) (hk : k.val < 2)
    (ho : opens s m (SW_PRP_CFG k.val) .sw) (hforget : fld v 15 0 ≠ 0) (ha : portState s (2 * k.val) = 0)
    (hb : portState s (2 * k.val + 1) = 0) : ∃ t, exec (.prpEnable m k v) s = .next t ∧ t.resp = .ok 0 ∧
      t.bt (SW_PRP_CFG k.val) 31 = true ∧ t.fl (SW_PRP_CFG k.val) 15 0 = fld v 15 0 := by
  have hrange : 0x33310000 ≤ SW_PRP_CFG k.val ∧ SW_PRP_CFG k.val < 0x33310080 := by unfold SW_PRP_CFG; omega
  have hd := regDesc_prpCfg hk
  refine ⟨_, writeRow_switch ho (routeKind_switch (by omega) (by unfold SW_IRQROUTE; omega) (.inr (.inl (by omega))))
    ((swWrite_prp hk s (o := 0) (by decide) _).trans (prpWrite_enable hforget ha hb)) (noSteps_softWrite hs _ _), answered_resp _ _, ?_, ?_⟩
  · rw [bt_answered_switch _ _ _ (by omega) (by omega), bt_softWrite_self s hd (by decide) (by decide), bitAt_putBit_top]
  · rw [fl_answered_switch _ _ _ _ (by omega) (by omega), fl_softWrite_self s hd (by decide) (by decide)]
    exact fld_putBit_apart v true (by decide) (by decide) (by decide)

/-- Settles O48, row by row. -/
theorem switchControl : Obligations.SwitchControl := by
  intro s m v hs
  refine ⟨?_, fun hlive hage hdue => fdbAgeing_ages hlive hage hdue, ?_, ?_, fun p ho h1 h2 h3 h4 => ⟨?_, ?_⟩, ?_, ?_,
    fun p ho hv => lmodeWrite_restarts hs ho hv, fun r => ⟨fun ho => ⟨?_, ringDisable_disables hs ho⟩, ?_⟩, ?_⟩
  · rintro mac vid e ho hidle rfl rfl rfl
    exact ⟨fdbRead_shows hs ho hidle, fdbWrite_puts hs ho hidle, fdbWrite_full hs ho hidle, fdbDelete_removes hs ho hidle,
      fdbFlush_keeps hs ho hidle⟩
  · rintro p dt u n i g hu hg hlive hen hcyc hbase hn hi hsince hnew
    exact gateCycleStart_begins hu hg hlive hen hcyc hbase hn hi hsince hnew
  · rintro p dt u n g hu rfl hcyc hrun hlen hdue
    refine ⟨_, congrArg (fun x => done (gateAdvance x p.val)) hu.symm, ?_⟩
    rw [gate_close, gateAdvance_next hcyc hrun hlen hdue, gate_setGate_self]
  · intro hv hen h24 h8
    exact gateSwap_waits hs ho ⟨h1, h2, h3, h4⟩ hv hen h24 h8
  · intro hv hen
    exact gateSwap_switches hs ho ⟨h1, h2, h3, h4⟩ hv hen
  · intro p sp half fec hlive hser hoff hmode hdown
    have hgo := And.intro hlive (And.intro hser (And.intro hoff (And.intro hmode hdown)))
    refine ⟨_, rfl, fun hrefused => ?_, fun hhalf hsp => ?_⟩
    · rw [linkUp_eq _ p.isLt, bt_close_link p.isLt, bt_close_link p.isLt, linkComes_refused hgo hrefused, bt_raise_self, hdown]
      exact ⟨by decide, bt_raise _ (by decide)⟩
    · obtain ⟨hup, hspeed, hirq⟩ := linkComes_up hgo hhalf hsp sp.isLt (fec := fec)
      rw [linkUp_eq _ p.isLt, bt_close_link p.isLt, fl_close_link p.isLt, bt_close_switch _ _ (by decide) (by decide)]
      exact ⟨hup, hspeed, hirq⟩
  · intro p hup
    obtain ⟨hcount, hirq⟩ := linkLost_counts s p.val hup
    refine ⟨_, rfl, ?_, ?_, ?_⟩
    · rw [linkUp_eq _ p.isLt, bt_close_link p.isLt, linkLost_up]
    · rw [fl_close_link p.isLt, hcount]
    · rw [bt_close_switch _ _ (by decide) (by decide), hirq]
  · exact fun hoff hok => ringEnable_enables hs ho hoff hok
  · exact fun ho hoff => ringLenWrite_resets hs ho hoff
  · intro k hk ho hforget ha hb
    exact prpEnable_enables hs hk ho hforget ha hb

end Sys2Proof.Machine

/-! SUPPORT. A bank handed over while a memory test runs on it (R318, R444). -/

namespace Sys2Proof.Machine

/-- A memory test runs on bank 0 of shared memory. -/
def testedBank : State := { regs := [(MEM_BIST_STAT, 0x20000000)], ldrHold := [(27, false)] }

/-- What the boot loader's handover of bank 0 to group 0 makes of it, before the end of the command. -/
def handedOver : State := runSteps (busWrite testedBank 16 (MEM_OWN 0) 0x100).1

/-- Refutes O49, in its clause on a handover, which leaves what every master owns of every other bank `c`, and says so for every number
`c`. The handover of bank 0 aborts the test that runs on it (R444), which raises a bit of MEM_DG_IRQSTAT; that register stands where
MEM_OWN of bank 0x1030 would, so ID 0 no longer owns what it owned before. -/
theorem not_mailboxesAndLocks : ¬ Obligations.MailboxesAndLocks := by
  intro h
  have hopen : opens testedBank 16 (MEM_OWN 0) .mbx := by decide +kernel
  have hsup : supervisor testedBank 16 = true := by decide
  obtain ⟨hhand, -⟩ := h testedBank 16 0x100 (by decide)
  obtain ⟨t, hrow, -, -, howns⟩ := hhand 0 hopen (.inr hsup) (by decide)
  have hrun : exec (.bankHandover 16 0 0x100) testedBank = .next (close { handedOver with resp := .ok 0 }) := by
    have hresp : (busWrite testedBank 16 (MEM_OWN 0) 0x100).2 = .ok 0 := by decide +kernel
    change writeRow testedBank 16 (MEM_OWN 0) 0x100 = _
    unfold writeRow answer done
    exact congrArg _ (congrArg _ (congrArg (fun r => { handedOver with resp := r }) hresp))
  obtain rfl : close { handedOver with resp := .ok 0 } = t := Host.Outcome.next.inj (hrun.symm.trans hrow)
  have hbefore : owns testedBank 0 0x1030 = true := by decide +kernel
  have hafter : owns (close { handedOver with resp := .ok 0 }) 0 0x1030 = false := by decide +kernel
  exact absurd (hafter.symm.trans ((howns 0 0x1030 (by decide)).trans hbefore)) (by decide)

end Sys2Proof.Machine

/-! SUPPORT. Line module slots (R421 to R430): the state of a slot, its wear, and what an operation on one slot leaves. -/

namespace Sys2Proof.Machine

/-! ## The state of a slot -/

section
variable (s : State) (k : Nat)

@[simp] theorem slotH_setSlot_self (h : SlotH) : (s.setSlot k h).slot k = h := smGet_smSet_self _ _ _ _

theorem slotH_setSlot_ne {j : Nat} (h : SlotH) (hj : j ≠ k) : (s.setSlot k h).slot j = s.slot j := smGet_smSet_ne _ _ _ _ hj

@[simp] theorem slotH_wr (a : Nat) (v : Word) : (s.wr a v).slot k = s.slot k := rfl
@[simp] theorem slotH_setBt (a i : Nat) (b : Bool) : (s.setBt a i b).slot k = s.slot k := rfl
@[simp] theorem slotH_setFl (a hi lo v : Nat) : (s.setFl a hi lo v).slot k = s.slot k := rfl
@[simp] theorem slotH_raise (a : Nat) (v : Word) : (s.raise a v).slot k = s.slot k := rfl
@[simp] theorem slotH_satInc (a hi lo n : Nat) : (s.satInc a hi lo n).slot k = s.slot k := rfl
@[simp] theorem slotH_wrapInc (a hi lo n : Nat) : (s.wrapInc a hi lo n).slot k = s.slot k := rfl
@[simp] theorem slotH_emit (o : Out) : (s.emit o).slot k = s.slot k := rfl

theorem slotH_of_slotH {s t : State} (h : t.slotH = s.slotH) (k : Nat) : t.slot k = s.slot k := by simp only [State.slot, h]

@[simp] theorem slotH_close : (close s).slot k = s.slot k := slotH_of_slotH (close_slotH s) k

@[simp] theorem rd_setSlot (h : SlotH) (a : Nat) : (s.setSlot k h).rd a = s.rd a := rfl
@[simp] theorem bt_setSlot (h : SlotH) (a i : Nat) : (s.setSlot k h).bt a i = s.bt a i := rfl
@[simp] theorem fl_setSlot (h : SlotH) (a hi lo : Nat) : (s.setSlot k h).fl a hi lo = s.fl a hi lo := rfl

end

/-! ## An operation on one slot -/

/-- `t` is `s` but for slot `k`: its state, its registers in PD_AON, the alarms, and registers outside PD_AON. -/
structure SlotFrame (k : Nat) (s t : State) : Prop where
  eq : t = { s with regs := t.regs, slotH := t.slotH }
  slot : ∀ j, j ≠ k → t.slot j = s.slot j
  rd : ∀ a, a < 0x10000000 → a < AON_SLOT_SERLO k ∨ AON_SLOT_SERLO k + 0x20 ≤ a → a ≠ AON_IRQSTAT → t.rd a = s.rd a

section
variable {k : Nat} {s t u : State}

theorem SlotFrame.refl (s : State) : SlotFrame k s s := ⟨rfl, fun _ _ => rfl, fun _ _ _ _ => rfl⟩

theorem SlotFrame.trans (h : SlotFrame k s t) (h' : SlotFrame k t u) : SlotFrame k s u :=
  ⟨h'.eq.trans (by rw [h.eq]), fun j hj => (h'.slot j hj).trans (h.slot j hj),
    fun a ha hk hi => (h'.rd a ha hk hi).trans (h.rd a ha hk hi)⟩

theorem SlotFrame.setSlot (s : State) (h : SlotH) : SlotFrame k s (s.setSlot k h) :=
  ⟨rfl, fun _ hj => slotH_setSlot_ne s k h hj, fun _ _ _ _ => rfl⟩

/-- A register that belongs to the slot, or to all. -/
def SlotOwns (k a : Nat) : Prop := (AON_SLOT_SERLO k ≤ a ∧ a < AON_SLOT_SERLO k + 0x20) ∨ a = AON_IRQSTAT ∨ 0x10000000 ≤ a

theorem SlotFrame.wr (s : State) {a : Nat} (v : Word) (h : SlotOwns k a) : SlotFrame k s (s.wr a v) := by
  refine ⟨rfl, fun j _ => slotH_wr s j a v, fun b hb hk hi => rd_wr_ne s v ?_⟩
  rintro rfl
  rcases h with h | h | h
  · omega
  · exact hi h
  · omega

theorem SlotFrame.ite {p : Prop} [Decidable p] (h : SlotFrame k s t) (h' : SlotFrame k s u) : SlotFrame k s (if p then t else u) := by
  split
  · exact h
  · exact h'

theorem slotOwns_wearHi (k : Nat) : SlotOwns k (AON_SLOT_WEARHI k) := .inl (by unfold AON_SLOT_WEARHI AON_SLOT_SERLO; omega)
theorem slotOwns_wearLo (k : Nat) : SlotOwns k (AON_SLOT_WEARLO k) := .inl (by unfold AON_SLOT_WEARLO AON_SLOT_SERLO; omega)
theorem slotOwns_opsec (k : Nat) : SlotOwns k (AON_SLOT_OPSEC k) := .inl (by unfold AON_SLOT_OPSEC AON_SLOT_SERLO; omega)
theorem slotOwns_irq (k : Nat) : SlotOwns k AON_IRQSTAT := .inr (.inl rfl)

end

/-! ## Wear (R428) -/

/-- Wear stands in two registers. -/
theorem wearOf_of_rd {s t : State} {k : Nat} (hlo : t.rd (AON_SLOT_WEARLO k) = s.rd (AON_SLOT_WEARLO k))
    (hhi : t.fl (AON_SLOT_WEARHI k) 15 0 = s.fl (AON_SLOT_WEARHI k) 15 0) : wearOf t k = wearOf s k := by
  simp only [wearOf, hlo, hhi]

section
variable (s : State) (k : Nat)

theorem wearLo_ne : AON_SLOT_WEARLO k ≠ AON_SLOT_WEARHI k := by unfold AON_SLOT_WEARLO AON_SLOT_WEARHI; omega
theorem wearLo_ne_irq : AON_SLOT_WEARLO k ≠ AON_IRQSTAT := by unfold AON_SLOT_WEARLO AON_IRQSTAT; omega
theorem wearHi_ne_irq : AON_SLOT_WEARHI k ≠ AON_IRQSTAT := by unfold AON_SLOT_WEARHI AON_IRQSTAT; omega

/-- Another register has no part in wear. -/
theorem wearOf_wr_ne {a : Nat} (v : Word) (hlo : AON_SLOT_WEARLO k ≠ a) (hhi : AON_SLOT_WEARHI k ≠ a) :
    wearOf (s.wr a v) k = wearOf s k := wearOf_of_rd (rd_wr_ne s v hlo) (fl_wr_ne s _ _ hhi v)

/-- Nor has a status bit of WEARHI. -/
theorem wearOf_setBt {i : Nat} (b : Bool) (h : 16 ≤ i) (h32 : i < 32) : wearOf (s.setBt (AON_SLOT_WEARHI k) i b) k = wearOf s k :=
  wearOf_of_rd (rd_setBt_ne s _ _ (wearLo_ne k)) (fl_setBt_apart s _ b h32 (by decide) (.inr (by omega)))

theorem wearOf_setSlot (j : Nat) (h : SlotH) : wearOf (s.setSlot j h) k = wearOf s k := rfl

theorem wearOf_setWear {w : Nat} (h : w < 2 ^ 48) : wearOf (setWear s k w) k = w := by
  have hlo : (setWear s k w).rd (AON_SLOT_WEARLO k) = BitVec.ofNat 32 w := by
    rw [setWear, rd_setFl_ne _ _ _ _ (wearLo_ne k), rd_wr_self]
  rw [wearOf, hlo, setWear, fl_setFl_self _ _ _ _ _ (by decide) (by decide), BitVec.toNat_ofNat]
  omega

/-- The alarms set bits of WEARHI above the wear. -/
theorem wearAlarm_cases : ∃ u, (u = s ∨ u = (s.setBt (AON_SLOT_WEARHI k) 28 true).raise AON_IRQSTAT 0x1) ∧
    (wearAlarm s k = u ∨ wearAlarm s k = (u.setBt (AON_SLOT_WEARHI k) 29 true).raise AON_IRQSTAT 0x2) := by
  unfold wearAlarm
  split
  · exact ⟨s, .inl rfl, .inl rfl⟩
  · dsimp only
    generalize hu : (if (decide (64 * lifeOf s k ≤ 5 * wearOf s k) && !s.bt (AON_SLOT_WEARHI k) 28) = true then
      (s.setBt (AON_SLOT_WEARHI k) 28 true).raise AON_IRQSTAT 0x1 else s) = u
    refine ⟨u, ?_, ?_⟩
    · rw [← hu]
      split
      · exact .inr rfl
      · exact .inl rfl
    · split
      · exact .inr rfl
      · exact .inl rfl

theorem wearOf_alarmed {i : Nat} (w : Word) (h : 16 ≤ i) (h32 : i < 32) :
    wearOf ((s.setBt (AON_SLOT_WEARHI k) i true).raise AON_IRQSTAT w) k = wearOf s k :=
  (wearOf_wr_ne _ k _ (wearLo_ne_irq k) (wearHi_ne_irq k)).trans (wearOf_setBt s k true h h32)

theorem wearOf_wearAlarm : wearOf (wearAlarm s k) k = wearOf s k := by
  obtain ⟨u, hu, ht⟩ := wearAlarm_cases s k
  have hwu : wearOf u k = wearOf s k := by
    rcases hu with rfl | rfl
    · rfl
    · exact wearOf_alarmed s k _ (by decide) (by decide)
  rcases ht with h | h
  · rw [h, hwu]
  · rw [h, wearOf_alarmed u k _ (by decide) (by decide), hwu]

/-- Wear grows to 48 bits at most. -/
theorem wearOf_wearAdd (n : Nat) : wearOf (wearAdd s k n) k = min (2 ^ 48 - 1) (wearOf s k + n) := by
  rw [wearAdd, wearOf_wearAlarm, wearOf_setWear s k (by omega)]

theorem wearOf_wearStart : wearOf (wearStart s k) k = wearOf s k := by
  have hbit := wearOf_setBt s k (i := 30) true (by decide) (by decide)
  unfold wearStart
  dsimp only
  generalize s.setBt (AON_SLOT_WEARHI k) 30 true = u at hbit ⊢
  split
  · exact hbit
  · split
    · exact (wearOf_setSlot u k k _).trans hbit
    · exact (wearOf_setSlot u k k _).trans hbit

/-! ## Frames of the operations -/

theorem slotFrame_wearAlarm : SlotFrame k s (wearAlarm s k) := by
  obtain ⟨u, hu, ht⟩ := wearAlarm_cases s k
  have hframe (x : State) (i : Nat) (w : Word) : SlotFrame k x ((x.setBt (AON_SLOT_WEARHI k) i true).raise AON_IRQSTAT w) :=
    (SlotFrame.wr x _ (slotOwns_wearHi k)).trans (.wr _ _ (slotOwns_irq k))
  have hsu : SlotFrame k s u := by
    rcases hu with rfl | rfl
    · exact .refl _
    · exact hframe s _ _
  rcases ht with h | h
  · rw [h]
    exact hsu
  · rw [h]
    exact hsu.trans (hframe u _ _)

theorem slotFrame_wearAdd (n : Nat) : SlotFrame k s (wearAdd s k n) :=
  ((SlotFrame.wr s _ (slotOwns_wearLo k)).trans (.wr _ _ (slotOwns_wearHi k))).trans (slotFrame_wearAlarm _ k)

theorem slotFrame_wearStart : SlotFrame k s (wearStart s k) := by
  have hbit : SlotFrame k s (s.setBt (AON_SLOT_WEARHI k) 30 true) := .wr s _ (slotOwns_wearHi k)
  unfold wearStart
  dsimp only
  exact .ite hbit (.ite (hbit.trans (.setSlot _ _)) (hbit.trans (.setSlot _ _)))

end

end Sys2Proof.Machine

/-! SUPPORT. The RTC tick at the slots and the evaluation of the calendar: what they change (R415, R428, R434). -/

namespace Sys2Proof.Machine

/-! ## The tick at one slot -/

section
variable (s : State) (k : Nat)

/-- The slot as the tick leaves its timers. -/
def aged (h : SlotH) : SlotH :=
  let age := min 10 (h.tempAge + 1)
  { h with tempAge := age, band := if age = 10 then 15 else h.band, retry := if 1 < h.retry then h.retry - 1 else h.retry }

/-- The wear of one second in band `b` (R428). -/
def bandWear (b : Nat) : Nat := s.fl (AON_IDW k (6 + b / 4)) (8 * (b % 4) + 7) (8 * (b % 4))

/-- The tick at a slot with power, before the periodic write. -/
def onTick (u : State) (n : Nat) : State :=
  let v := (wearAdd u k (bandWear u k (u.slot k).band)).satInc (AON_SLOT_OPSEC k) 31 0
  v.setSlot k { v.slot k with onTicks := n }

theorem slotTick_off (h : (s.slot k).en = false) : slotTick s k = s.setSlot k (aged (s.slot k)) := if_pos h

theorem slotTick_on (h : (s.slot k).en = true) : slotTick s k =
    if 3600 ≤ (s.slot k).onTicks + 1 ∧ slotsLive (onTick k (s.setSlot k (aged (s.slot k))) ((s.slot k).onTicks + 1)) then
      wearStart (onTick k (s.setSlot k (aged (s.slot k))) ((s.slot k).onTicks + 1)) k
    else onTick k (s.setSlot k (aged (s.slot k))) ((s.slot k).onTicks + 1) :=
  if_neg (by simp [h])

theorem slotFrame_onTick (n : Nat) : SlotFrame k s (onTick k s n) :=
  ((slotFrame_wearAdd s k _).trans (.wr _ _ (slotOwns_opsec k))).trans (.setSlot _ _)

theorem slotFrame_slotTick : SlotFrame k s (slotTick s k) := by
  have hage := SlotFrame.setSlot (k := k) s (aged (s.slot k))
  cases hen : (s.slot k).en with
  | false => rw [slotTick_off s k hen]; exact hage
  | true =>
    have hon := hage.trans (slotFrame_onTick _ k ((s.slot k).onTicks + 1))
    rw [slotTick_on s k hen]
    exact .ite (hon.trans (slotFrame_wearStart _ k)) hon

theorem wearOf_onTick (n : Nat) : wearOf (onTick k s n) k = min (2 ^ 48 - 1) (wearOf s k + bandWear s k (s.slot k).band) := by
  have hlo : AON_SLOT_WEARLO k ≠ AON_SLOT_OPSEC k := by unfold AON_SLOT_WEARLO AON_SLOT_OPSEC; omega
  have hhi : AON_SLOT_WEARHI k ≠ AON_SLOT_OPSEC k := by unfold AON_SLOT_WEARHI AON_SLOT_OPSEC; omega
  rw [onTick, wearOf_setSlot, State.satInc, State.setFl, wearOf_wr_ne _ k _ hlo hhi, wearOf_wearAdd]

/-- A slot with power and a temperature of the last nine seconds wears by its band. -/
theorem wearOf_slotTick (hen : (s.slot k).en = true) (hage : (s.slot k).tempAge < 9) :
    wearOf (slotTick s k) k = min (2 ^ 48 - 1) (wearOf s k + bandWear s k (s.slot k).band) := by
  have hband : (aged (s.slot k)).band = (s.slot k).band := if_neg (by omega)
  have hon : wearOf (onTick k (s.setSlot k (aged (s.slot k))) ((s.slot k).onTicks + 1)) k =
      min (2 ^ 48 - 1) (wearOf s k + bandWear s k (s.slot k).band) := by
    rw [wearOf_onTick, slotH_setSlot_self, hband, wearOf_setSlot]
    rfl
  rw [slotTick_on s k hen]
  split
  · rw [wearOf_wearStart, hon]
  · exact hon

end

/-! ## The tick at every slot -/

/-- `t` has slot `k` and the registers of PD_AON that are no other slot's and no alarm as `s` has them. -/
structure SlotKept (k : Nat) (s t : State) : Prop where
  slot : t.slot k = s.slot k
  rd : ∀ a, a < 0x10000000 → a ≠ AON_IRQSTAT →
    a < 0x08000400 ∨ 0x08000800 ≤ a ∨ (AON_SLOT_SERLO k ≤ a ∧ a < AON_SLOT_SERLO k + 0x20) → t.rd a = s.rd a

section
variable {k : Nat} {s t u : State}

theorem SlotKept.refl (k : Nat) (s : State) : SlotKept k s s := ⟨rfl, fun _ _ _ _ => rfl⟩

theorem SlotKept.trans (h : SlotKept k s t) (h' : SlotKept k t u) : SlotKept k s u :=
  ⟨h'.slot.trans h.slot, fun a ha hi hk => (h'.rd a ha hi hk).trans (h.rd a ha hi hk)⟩

theorem SlotFrame.kept {j : Nat} (h : SlotFrame j s t) (hj : j < 32) (hne : k ≠ j) : SlotKept k s t :=
  ⟨h.slot k hne, fun a ha hi hk => h.rd a ha (by unfold AON_SLOT_SERLO at *; omega) hi⟩

theorem SlotKept.wearOf (hk : k < 32) (h : SlotKept k s t) : Machine.wearOf t k = Machine.wearOf s k := by
  have hlo := h.rd (AON_SLOT_WEARLO k) (by unfold AON_SLOT_WEARLO; omega) (wearLo_ne_irq k)
    (.inr (.inr (by unfold AON_SLOT_WEARLO AON_SLOT_SERLO; omega)))
  have hhi := h.rd (AON_SLOT_WEARHI k) (by unfold AON_SLOT_WEARHI; omega) (wearHi_ne_irq k)
    (.inr (.inr (by unfold AON_SLOT_WEARHI AON_SLOT_SERLO; omega)))
  exact wearOf_of_rd hlo (by rw [State.fl, hhi, State.fl])

theorem SlotKept.bandWear (hk : k < 32) (h : SlotKept k s t) {b : Nat} (hb : b < 16) :
    Machine.bandWear t k b = Machine.bandWear s k b := by
  have hidw := h.rd (AON_IDW k (6 + b / 4)) (by unfold AON_IDW; omega) (by unfold AON_IDW AON_IRQSTAT; omega)
    (.inr (.inl (by unfold AON_IDW; omega)))
  simp only [Machine.bandWear, State.fl, hidw]

end

/-- Ticks at other slots. -/
theorem slotKept_foldl {k : Nat} (l : List Nat) (s : State) (h : ∀ j ∈ l, j < 32 ∧ k ≠ j) : SlotKept k s (l.foldl slotTick s) := by
  induction l generalizing s with
  | nil => exact .refl k s
  | cons j l ih =>
    obtain ⟨hj, hne⟩ := h j (by simp)
    exact ((slotFrame_slotTick s j).kept hj hne).trans (ih _ fun i hi => h i (by simp [hi]))

/-- One slot of the tick at all 32. -/
theorem ticks_at (s : State) {k : Nat} (hk : k < 32) :
    ∃ u, SlotKept k s u ∧ SlotKept k (slotTick u k) ((List.range 32).foldl slotTick s) := by
  obtain ⟨l, l', hl⟩ := List.append_of_mem (List.mem_range.mpr hk)
  have hnodup : (l ++ k :: l').Nodup := hl ▸ List.nodup_range
  have hmem (j : Nat) (hj : j ∈ l ∨ j ∈ l') : j < 32 ∧ k ≠ j := by
    refine ⟨List.mem_range.mp (hl ▸ by simp only [List.mem_append, List.mem_cons]; tauto), ?_⟩
    rintro rfl
    obtain ⟨-, hcons, hdisj⟩ := List.nodup_append.mp hnodup
    rcases hj with hj | hj
    · exact hdisj k hj k (by simp) rfl
    · exact (List.nodup_cons.mp hcons).1 hj
  refine ⟨l.foldl slotTick s, slotKept_foldl l s fun j hj => hmem j (.inl hj), ?_⟩
  rw [hl, List.foldl_append, List.foldl_cons]
  exact slotKept_foldl l' _ fun j hj => hmem j (.inr hj)

theorem wearOf_ticks (s : State) {k b : Nat} (hk : k < 32) (hen : (s.slot k).en = true) (hage : (s.slot k).tempAge < 9)
    (hb : b = (s.slot k).band) (hb16 : b < 16) :
    wearOf ((List.range 32).foldl slotTick s) k = min (2 ^ 48 - 1) (wearOf s k + bandWear s k b) := by
  obtain ⟨u, hu, ht⟩ := ticks_at s hk
  rw [ht.wearOf hk, wearOf_slotTick u k (by rw [hu.slot, hen]) (by rw [hu.slot]; exact hage), hu.slot, ← hb, hu.wearOf hk,
    hu.bandWear hk hb16]

/-! ## The registers of PD_AON that are no slot's -/

/-- `t` is `s` but for registers at and above AON_SURV, the alarms, the slots and the latches of the survey entries. -/
structure AonFrame (s t : State) : Prop where
  eq : t = { s with regs := t.regs, slotH := t.slotH, survLatch := t.survLatch }
  rd : ∀ a, a < 0x08000100 → a ≠ AON_IRQSTAT → t.rd a = s.rd a

section
variable {s t u : State}

theorem AonFrame.refl (s : State) : AonFrame s s := ⟨rfl, fun _ _ _ => rfl⟩

theorem AonFrame.trans (h : AonFrame s t) (h' : AonFrame t u) : AonFrame s u :=
  ⟨h'.eq.trans (by rw [h.eq]), fun a ha hi => (h'.rd a ha hi).trans (h.rd a ha hi)⟩

theorem AonFrame.rtc (h : AonFrame s t) : t.rtc = s.rtc := by rw [h.eq]
theorem AonFrame.rtcPre (h : AonFrame s t) : t.rtcPre = s.rtcPre := by rw [h.eq]
theorem AonFrame.rtcFrom (h : AonFrame s t) : t.rtcFrom = s.rtcFrom := by rw [h.eq]
theorem AonFrame.rtcLoad (h : AonFrame s t) : t.rtcLoad = s.rtcLoad := by rw [h.eq]

theorem AonFrame.bt (h : AonFrame s t) {a : Nat} (ha : a < 0x08000100) (hi : a ≠ AON_IRQSTAT) (i : Nat) : t.bt a i = s.bt a i := by
  rw [State.bt, h.rd a ha hi, State.bt]

theorem SlotFrame.aon {k : Nat} (h : SlotFrame k s t) : AonFrame s t :=
  ⟨h.eq.trans (by rw [h.eq]), fun a ha hi => h.rd a (by omega) (.inl (by unfold AON_SLOT_SERLO; omega)) hi⟩

theorem aonFrame_foldl {f : State → Nat → State} (hf : ∀ x i, AonFrame x (f x i)) (l : List Nat) (s : State) :
    AonFrame s (l.foldl f s) := by
  induction l generalizing s with
  | nil => exact .refl s
  | cons i l ih => exact (hf s i).trans (ih _)

theorem aonFrame_ticks (s : State) : AonFrame s ((List.range 32).foldl slotTick s) :=
  aonFrame_foldl (fun x k => (slotFrame_slotTick x k).aon) _ s

end

/-! ## The calendar (R434) -/

theorem newlyReached_lt (today d latch : Nat) : newlyReached today d latch < 16 := by
  simp only [newlyReached, List.range, List.range.loop, List.foldl_cons, List.foldl_nil]
  split <;> split <;> split <;> split <;> norm_num

/-- What the evaluation of one entry or of all leaves: the latches, the alarms, AON_SURV and bits 23 to 20 of WEARHI apart. -/
structure CalFrame (s t : State) : Prop where
  aon : AonFrame s t
  slot : ∀ k, ∃ l, t.slot k = { s.slot k with latch := l }
  rd : ∀ a, a < 0x08000100 ∨ 0x08000140 ≤ a → a ≠ AON_IRQSTAT → (∀ k < 32, a ≠ AON_SLOT_WEARHI k) → t.rd a = s.rd a
  hi : ∀ k i, i < 20 ∨ 24 ≤ i → t.bt (AON_SLOT_WEARHI k) i = s.bt (AON_SLOT_WEARHI k) i

section
variable {s t u : State}

theorem CalFrame.refl (s : State) : CalFrame s s := ⟨.refl s, fun _ => ⟨_, rfl⟩, fun _ _ _ _ => rfl, fun _ _ _ => rfl⟩

theorem CalFrame.trans (h : CalFrame s t) (h' : CalFrame t u) : CalFrame s u := by
  refine ⟨h.aon.trans h'.aon, fun k => ?_, fun a ha hi hk => (h'.rd a ha hi hk).trans (h.rd a ha hi hk),
    fun k i hi => (h'.hi k i hi).trans (h.hi k i hi)⟩
  obtain ⟨l, hl⟩ := h.slot k
  obtain ⟨l', hl'⟩ := h'.slot k
  exact ⟨l', by rw [hl', hl]⟩

theorem CalFrame.wearOf (h : CalFrame s t) (k : Nat) : Machine.wearOf t k = Machine.wearOf s k := by
  refine wearOf_of_rd (h.rd _ (.inr (by unfold AON_SLOT_WEARLO; omega)) (wearLo_ne_irq k) fun j _ => ?_) (fld_congr fun i _ hi => ?_)
  · unfold AON_SLOT_WEARLO AON_SLOT_WEARHI; omega
  · have hbit := h.hi k i (.inl (by omega))
    rwa [State.bt, State.bt, bitAt_eq_getLsbD, bitAt_eq_getLsbD] at hbit

theorem CalFrame.raise_irq (s : State) (w : Word) : CalFrame s (s.raise AON_IRQSTAT w) :=
  ⟨⟨rfl, fun _ _ hi => rd_raise_ne s w hi⟩, fun _ => ⟨_, rfl⟩, fun _ _ hi _ => rd_raise_ne s w hi,
    fun k i _ => bt_raise_ne s i (wearHi_ne_irq k) w⟩

theorem calFrame_foldl {f : State → Nat → State} {n : Nat} (hf : ∀ x i, i < n → CalFrame x (f x i)) (l : List Nat)
    (hl : ∀ i ∈ l, i < n) (s : State) : CalFrame s (l.foldl f s) := by
  induction l generalizing s with
  | nil => exact .refl s
  | cons i l ih => exact (hf s i (hl i (by simp))).trans (ih (fun j hj => hl j (by simp [hj])) _)

theorem calFrame_survEval (s : State) {i : Nat} (hi : i < 16) : CalFrame s (survEval s i) := by
  have hw (w : Word) : CalFrame s (s.raise (AON_SURV i) w) := by
    refine ⟨⟨rfl, fun a ha _ => rd_raise_ne s w ?_⟩, fun _ => ⟨_, rfl⟩, fun a ha _ _ => rd_raise_ne s w ?_,
      fun k j _ => bt_raise_ne s j ?_ w⟩
    · unfold AON_SURV; omega
    · unfold AON_SURV; omega
    · unfold AON_SURV AON_SLOT_WEARHI; omega
  have hl (x : State) (l : SMap Nat) : CalFrame x { x with survLatch := l } :=
    ⟨⟨rfl, fun _ _ _ => rfl⟩, fun _ => ⟨_, rfl⟩, fun _ _ _ _ => rfl, fun _ _ _ => rfl⟩
  unfold survEval
  split
  · exact .refl s
  · dsimp only
    split
    · exact .refl s
    · exact ((hw _).trans (hl _ _)).trans (.raise_irq _ _)

theorem bitAt_reached {n i : Nat} (hn : n < 16) (hi : i < 20 ∨ 24 ≤ i) : bitAt (BitVec.ofNat 32 (n * 2 ^ 20)) i = false := by
  rw [bitAt_eq_getLsbD, BitVec.getLsbD_ofNat, Nat.testBit_mul_two_pow]
  rcases hi with hi | hi
  · simp [show ¬ 20 ≤ i by omega]
  · have hlt : n < 2 ^ (i - 20) := hn.trans_le (Nat.pow_le_pow_right (n := 2) (by decide) (show 4 ≤ i - 20 by omega))
    simp [Nat.testBit_lt_two_pow hlt]

theorem calFrame_repEval (s : State) {k : Nat} (hk : k < 32) : CalFrame s (repEval s k) := by
  have hl (x : State) (l : Nat) : CalFrame x (x.setSlot k { x.slot k with latch := l }) := by
    refine ⟨⟨rfl, fun _ _ _ => rfl⟩, fun j => ?_, fun _ _ _ _ => rfl, fun _ _ _ => rfl⟩
    by_cases hj : j = k
    · rw [hj, slotH_setSlot_self]
      exact ⟨l, rfl⟩
    · rw [slotH_setSlot_ne _ _ _ hj]
      exact ⟨_, rfl⟩
  have hw (x : State) {n : Nat} (hn : n < 16) : CalFrame x (x.raise (AON_SLOT_WEARHI k) (BitVec.ofNat 32 (n * 2 ^ 20))) := by
    refine ⟨⟨rfl, fun a ha _ => rd_raise_ne x _ (by unfold AON_SLOT_WEARHI; omega)⟩, fun _ => ⟨_, rfl⟩,
      fun a _ _ hne => rd_raise_ne x _ (hne k hk), fun j i hi => ?_⟩
    by_cases hj : j = k
    · rw [hj, bt_raise_self, bitAt_reached hn hi, Bool.or_false]
    · exact bt_raise_ne x i (by unfold AON_SLOT_WEARHI; omega) _
  unfold repEval
  dsimp only
  split
  · exact .refl s
  · split
    · exact .refl s
    · exact ((hl s _).trans (hw _ (newlyReached_lt _ _ _))).trans (.raise_irq _ _)

theorem calFrame_calEval (s : State) : CalFrame s (calEval s) := by
  unfold calEval
  split
  · exact (calFrame_foldl (fun x _ hi => calFrame_survEval x hi) _ (fun _ hi => List.mem_range.mp hi) s).trans
      (calFrame_foldl (n := 32) (fun x _ hk => calFrame_repEval x hk) _ (fun _ hi => List.mem_range.mp hi) _)
  · exact .refl s

end

end Sys2Proof.Machine

/-! SUPPORT. The real-time clock and the calendar (R413, R415, R416, R434). -/

namespace Sys2Proof.Machine

/-! ## Accesses of AON_ registers -/

theorem routeKind_aon {a : Nat} (h : 0x08000000 ≤ a ∧ a < 0x08001000) (hr : a ≠ AON_IRQROUTE) : routeKind a = none := by
  unfold AON_IRQROUTE at hr
  unfold routeKind TU_IRQROUTE IMG_IRQROUTE LDR_IRQROUTE SW_IRQROUTE MEM_IRQROUTE MEM_DG_IRQROUTE ARB_IRQROUTE HB_IRQROUTE
    SLOT_IRQROUTE PMU_IRQROUTE AON_IRQROUTE
  simp (disch := omega) only [if_neg]

/-- A write of an AON_ register that its rules accept. -/
theorem writeRow_aon {s u : State} {m : Master} {a : Nat} {v : Word} (ho : opens s m a .aon)
    (ha : 0x08000000 ≤ a ∧ a < 0x08001000) (hr : a ≠ AON_IRQROUTE) (hw : aonWrite s m.val (a % 0x1000) v = (u, .ok 0))
    (hu : noSteps u) : writeRow s m a v = .next (answered u (.ok 0)) := by
  refine writeRow_accept ho (.inl rfl) ?_ hu
  have hrouted : routed m a .aon v = v := if_neg (by rw [if_neg (by decide), routeKind_aon ha hr]; decide)
  rw [hrouted, targetWrite_aon, hw]

/-! ## The clock (R415, R416) -/

section
variable (s : State)

/-- The second that ends. -/
def secondOver : State := { rtcSecond s (s.rtcFrom + s.rtcLen - s.rtcPre) with rtc := (s.rtc + 1) % 2 ^ 64 }

/-- The count of the seconds on the battery. -/
def batteryCounted : State := if s.bt PMU_MONSTAT 26 = false then s.satInc AON_BATSEC 31 0 else s

/-- The state in which the slots have their tick. -/
def secondEnded : State := batteryCounted (secondOver s)

theorem rtcTick_running (hosc : s.bt AON_STAT 30 = true) (hlen : s.rtcLen ≤ rtcCount s) : rtcTick s =
    if ((List.range 32).foldl slotTick (secondEnded s)).rtc % 86400 = 0 then calEval ((List.range 32).foldl slotTick (secondEnded s))
    else (List.range 32).foldl slotTick (secondEnded s) :=
  if_neg (by rw [hosc]; simp only [Bool.true_eq_false, false_or]; omega)

/-- What the tick does once the second has ended, and the wear it leaves. -/
theorem rtcTick_frame (hosc : s.bt AON_STAT 30 = true) (hlen : s.rtcLen ≤ rtcCount s) : AonFrame (secondEnded s) (rtcTick s) ∧
    ∀ k, wearOf (rtcTick s) k = wearOf ((List.range 32).foldl slotTick (secondEnded s)) k := by
  have hticks := aonFrame_ticks (secondEnded s)
  rw [rtcTick_running s hosc hlen]
  split
  · have hcal := calFrame_calEval ((List.range 32).foldl slotTick (secondEnded s))
    exact ⟨hticks.trans hcal.aon, hcal.wearOf⟩
  · exact ⟨hticks, fun _ => rfl⟩

/-- A field of 32 bits is the register. -/
theorem rd_satInc_word (a : Nat) : (s.satInc a 31 0).rd a = BitVec.ofNat 32 (min (2 ^ 32 - 1) ((s.rd a).toNat + 1)) := by
  have hlt := (s.rd a).isLt
  have hfl : s.fl a 31 0 = (s.rd a).toNat := by
    simp only [State.fl, fld]
    omega
  rw [State.satInc, rd_setFl_self, hfl]
  apply BitVec.eq_of_toNat_eq
  rw [setFld_toNat _ _ _ _ (by decide) (by decide)]
  simp only [BitVec.toNat_ofNat]
  omega

theorem batteryCounted_cases : batteryCounted s = s ∨ batteryCounted s = s.satInc AON_BATSEC 31 0 := by
  unfold batteryCounted
  split
  · exact .inr rfl
  · exact .inl rfl

theorem secondOver_regs : (secondOver s).regs = s.regs := rfl

/-- The end of a second leaves the slots and the registers but the count. -/
theorem secondEnded_frame : (secondEnded s).rtc = (s.rtc + 1) % 2 ^ 64 ∧ (secondEnded s).rtcPre = 0 ∧
    (secondEnded s).rtcFrom = s.rtcFrom + s.rtcLen - s.rtcPre ∧ (secondEnded s).slotH = s.slotH ∧
    ∀ a, a ≠ AON_BATSEC → (secondEnded s).rd a = s.rd a := by
  have hregs := secondOver_regs s
  have hover : (secondOver s).rtc = (s.rtc + 1) % 2 ^ 64 ∧ (secondOver s).rtcPre = 0 ∧
    (secondOver s).rtcFrom = s.rtcFrom + s.rtcLen - s.rtcPre ∧ (secondOver s).slotH = s.slotH := ⟨rfl, rfl, rfl, rfl⟩
  obtain ⟨hrtc, hpre, hfrom, hslot⟩ := hover
  rw [secondEnded]
  generalize secondOver s = u at *
  rcases batteryCounted_cases u with h | h
  · rw [h]
    exact ⟨hrtc, hpre, hfrom, hslot, fun a _ => rd_of_regs hregs a⟩
  · rw [h]
    exact ⟨hrtc, hpre, hfrom, hslot, fun a ha => (rd_satInc_ne u _ _ _ ha).trans (rd_of_regs hregs a)⟩

theorem rd_secondEnded_batsec (h : s.bt PMU_MONSTAT 26 = false) :
    (secondEnded s).rd AON_BATSEC = BitVec.ofNat 32 (min (2 ^ 32 - 1) ((s.rd AON_BATSEC).toNat + 1)) := by
  have hregs := secondOver_regs s
  rw [secondEnded]
  generalize secondOver s = u at *
  rw [batteryCounted, if_pos ((bt_of_regs hregs _ _).trans h), rd_satInc_word, rd_of_regs hregs]

/-- RTC_TICK (R415, R428). -/
theorem exec_rtcTick (hosc : s.bt AON_STAT 30 = true) (hlen : s.rtcLen ≤ rtcCount s) :
    ∃ t, exec .rtcTick s = .next t ∧ t.rtc = (s.rtc + 1) % 2 ^ 64 ∧
      t.rtcPre = 0 ∧ t.rtcFrom = s.rtcFrom + s.rtcLen - s.rtcPre ∧ (s.bt PMU_MONSTAT 26 = false →
        t.rd AON_BATSEC = BitVec.ofNat 32 (min (2 ^ 32 - 1) ((s.rd AON_BATSEC).toNat + 1))) ∧
      ∀ (k : Fin 32) (b : Nat), (s.slot k.val).en = true → (s.slot k.val).tempAge < 9 → b = (s.slot k.val).band → b < 16 →
        wearOf t k.val = min (2 ^ 48 - 1) (wearOf s k.val +
          s.fl (AON_IDW k.val (6 + b / 4)) (8 * (b % 4) + 7) (8 * (b % 4))) := by
  obtain ⟨hframe, hwear⟩ := rtcTick_frame s hosc hlen
  obtain ⟨hrtc, hpre, hfrom, hslot, hrd⟩ := secondEnded_frame s
  refine ⟨close (rtcTick s), rfl, ?_, ?_, ?_, fun hvbat => ?_, fun k b hen hage hb hb16 => ?_⟩
  · rw [close_rtc, hframe.rtc, hrtc]
  · rw [close_rtcPre, hframe.rtcPre, hpre]
  · rw [close_rtcFrom, hframe.rtcFrom, hfrom]
  · rw [close_rd _ (closeTouches_low (by decide)), hframe.rd _ (by decide) (by decide), rd_secondEnded_batsec s hvbat]
  · have hk := k.isLt
    have hsame : (secondEnded s).slot k.val = s.slot k.val := slotH_of_slotH hslot k.val
    have hclose : wearOf (close (rtcTick s)) k.val = wearOf (rtcTick s) k.val :=
      wearOf_of_rd (close_rd _ (closeTouches_low (by unfold AON_SLOT_WEARLO; omega)))
        (fl_close_low _ _ _ (by unfold AON_SLOT_WEARHI; omega))
    have hw0 : wearOf (secondEnded s) k.val = wearOf s k.val :=
      wearOf_of_rd (hrd _ (by unfold AON_SLOT_WEARLO AON_BATSEC; omega))
        (by rw [State.fl, hrd _ (by unfold AON_SLOT_WEARHI AON_BATSEC; omega), State.fl])
    have hb0 : bandWear (secondEnded s) k.val b = bandWear s k.val b := by
      simp only [bandWear, State.fl, hrd (AON_IDW k.val (6 + b / 4)) (by unfold AON_IDW AON_BATSEC; omega)]
    rw [hclose, hwear, wearOf_ticks _ hk (by rw [hsame, hen]) (by rw [hsame]; exact hage) (by rw [hsame, hb]) hb16, hw0, hb0]
    rfl

end

end Sys2Proof.Machine

/-! SUPPORT. LOAD, the reads of the clock, its oscillator and supply, and the survey entries (R413, R415, R416, R434). -/

namespace Sys2Proof.Machine

section
variable (s : State)

/-! ## LOAD and the reads (R416) -/

/-- The state in which a LOAD waits. -/
def loadWaits : State := { s with rtcLoad := true }

theorem aonWrite_load {m : Nat} (hsup : supervisor s m = true) : aonWrite s m (AON_RTC_CMD % 0x1000) 1 =
    ((if s.bt AON_STAT 30 then (loadWaits s).plan (clk32Next s - 1) .rtc else loadWaits s), .ok 0) := by
  rw [show AON_RTC_CMD % 0x1000 = 0x1C from rfl]
  unfold aonWrite
  rw [if_neg (by decide), if_neg (by simp [hsup])]
  simp only [if_true, show ¬ 2 ≤ fld 1 1 0 by decide, show ¬ fld 1 1 0 = 0 by decide, if_false]
  rfl

theorem answered_rtc (u : State) (r : Resp) : (answered u r).rtc = u.rtc := close_rtc _
theorem answered_rtcLoad (u : State) (r : Resp) : (answered u r).rtcLoad = u.rtcLoad := close_rtcLoad _
theorem answered_agenda (u : State) (r : Resp) : (answered u r).agenda = u.agenda := close_agenda _

/-- The row of LOAD, by what the write does. -/
theorem exec_rtcLoad_of {u : State} {m : Master} (ho : opens s m AON_RTC_CMD .aon) (hu : noSteps u)
    (hw : aonWrite s m.val (AON_RTC_CMD % 0x1000) 1 = (u, .ok 0)) (hrtc : u.rtc = s.rtc) (hload : u.rtcLoad = true)
    (hdue : s.bt AON_STAT 30 = true → { at_ := clk32Next s - 1, what := .rtc } ∈ u.agenda) :
    ∃ t, exec (.rtcLoad m) s = .next t ∧ t.resp = .ok 0 ∧ t.rtc = s.rtc ∧ t.rtcLoad = true ∧
      (s.bt AON_STAT 30 = true → { at_ := clk32Next s - 1, what := .rtc } ∈ t.agenda) := by
  refine ⟨answered u (.ok 0), writeRow_aon ho (by decide) (by decide) hw hu, answered_resp _ _, ?_, ?_, fun h => ?_⟩
  · rw [answered_rtc, hrtc]
  · rw [answered_rtcLoad, hload]
  · rw [answered_agenda]
    exact hdue h

theorem plan_agenda (k : Nat) (d : DueK) : (s.plan k d).agenda = insertDue s.agenda { at_ := k, what := d } := rfl

theorem exec_rtcLoad {m : Master} (hs : noSteps s) (ho : opens s m AON_RTC_CMD .aon) (hsup : supervisor s m.val = true) :
    ∃ t, exec (.rtcLoad m) s = .next t ∧ t.resp = .ok 0 ∧ t.rtc = s.rtc ∧ t.rtcLoad = true ∧
      (s.bt AON_STAT 30 = true → { at_ := clk32Next s - 1, what := .rtc } ∈ t.agenda) := by
  have hw := aonWrite_load s hsup
  have hwait : noSteps (loadWaits s) := noSteps_of_ctxH hs rfl
  cases hosc : s.bt AON_STAT 30 with
  | false =>
    rw [hosc, if_neg (by simp)] at hw
    exact hosc ▸ exec_rtcLoad_of s (u := loadWaits s) ho hwait hw rfl rfl (fun h => by simp [hosc] at h)
  | true =>
    rw [hosc, if_pos rfl] at hw
    have hplan : noSteps ((loadWaits s).plan (clk32Next s - 1) .rtc) := noSteps_of_ctxH hwait rfl
    refine hosc ▸ exec_rtcLoad_of s ho hplan hw rfl rfl (fun _ => ?_)
    rw [plan_agenda]
    exact mem_insertDue_self _ _

/-- The clock with its LOAD applied. -/
def clockLoaded : State :=
  { s with rtc := (s.rd AON_RTC_SETLO).toNat + 2 ^ 32 * (s.rd AON_RTC_SETHI).toNat, rtcPre := 0, rtcFrom := clk32 s,
           rtcLoad := false }

theorem clockLoaded_regs : (clockLoaded s).regs = s.regs := rfl
theorem clockLoaded_rtcLoad : (clockLoaded s).rtcLoad = false := rfl
theorem clockLoaded_rtcPre : (clockLoaded s).rtcPre = 0 := rfl
theorem clockLoaded_rtc : (clockLoaded s).rtc = (s.rd AON_RTC_SETLO).toNat + 2 ^ 32 * (s.rd AON_RTC_SETHI).toNat := rfl

theorem rtcLoadNow_eq : rtcLoadNow s = if s.rtcLoad && s.bt AON_STAT 30 then calEval (clockLoaded s) else s := rfl

theorem rtcLoadNow_waiting (hload : s.rtcLoad = true) (hosc : s.bt AON_STAT 30 = true) : (rtcLoadNow s).rtcLoad = false ∧
    (rtcLoadNow s).rtcPre = 0 ∧ (rtcLoadNow s).rtc = (s.rd AON_RTC_SETLO).toNat + 2 ^ 32 * (s.rd AON_RTC_SETHI).toNat := by
  have hframe := (calFrame_calEval (clockLoaded s)).aon
  rw [rtcLoadNow_eq, hload, hosc, Bool.and_true, if_pos rfl, hframe.rtcLoad, hframe.rtcPre, hframe.rtc]
  exact ⟨clockLoaded_rtcLoad s, clockLoaded_rtcPre s, clockLoaded_rtc s⟩

/-- The evaluation of the calendar leaves OSCOK. -/
theorem bt_rtcLoadNow_osc : (rtcLoadNow s).bt AON_STAT 30 = s.bt AON_STAT 30 := by
  have hregs := clockLoaded_regs s
  rw [rtcLoadNow_eq]
  generalize clockLoaded s = u at *
  split
  · exact ((calFrame_calEval u).aon.bt (by decide) (by decide) 30).trans (bt_of_regs hregs _ _)
  · rfl

theorem rtcSub_mwr (m a : Nat) (v : Word) : rtcSub (s.mwr m a v) = rtcSub s := by
  simp only [rtcSub, rtcCount, State.bt, rd_mwr]
  rfl

theorem mwr_rtc (m a : Nat) (v : Word) : (s.mwr m a v).rtc = s.rtc := (rfl)
theorem mwr_ctxH (m a : Nat) (v : Word) : (s.mwr m a v).ctxH = s.ctxH := (rfl)

/-- The registers that a read of SECLO latches. -/
theorem rtcReadLo_fst (m : Nat) : (rtcReadLo s m).1 =
    (((s.mwr m AON_RTC_SECHI (BitVec.ofNat 32 (s.rtc / 2 ^ 32))).mwr m AON_RTC_SUB (BitVec.ofNat 32 (rtcSub s))).mwr m
      AON_RTC_CAL0 (cal0 s.rtc)).mwr m AON_RTC_CAL1 (cal1 s.rtc) := by
  simp only [rtcReadLo, rtcSub_mwr, mwr_rtc]

theorem targetRead_seclo (m : Nat) : targetRead s m AON_RTC_SECLO .aon = ((rtcReadLo s m).1, .ok (BitVec.ofNat 32 s.rtc)) := by
  have hsnd : (rtcReadLo s m).2 = BitVec.ofNat 32 s.rtc := by simp only [rtcReadLo, mwr_rtc]
  have haon : targetRead s m AON_RTC_SECLO .aon = aonRead s m 0 := rfl
  have hlo : aonRead s m 0 = accept (rtcReadLo s m).1 (rtcReadLo s m).2 := by
    rw [aonRead, if_pos rfl]
  rw [haon, hlo, hsnd, accept]

theorem exec_rtcRead {m : Master} (hs : noSteps s) (ho : opens s m AON_RTC_SECLO .aon) : ∃ t, exec (.rtcRead m) s = .next t ∧
    t.resp = .ok (BitVec.ofNat 32 s.rtc) ∧ t.rtc = s.rtc ∧ t.mrd m.val AON_RTC_SECHI = BitVec.ofNat 32 (s.rtc / 2 ^ 32) ∧
    t.mrd m.val AON_RTC_SUB = BitVec.ofNat 32 (rtcSub s) ∧ t.mrd m.val AON_RTC_CAL0 = cal0 s.rtc ∧
    t.mrd m.val AON_RTC_CAL1 = cal1 s.rtc := by
  have hfst := rtcReadLo_fst s m.val
  have hctx : (rtcReadLo s m.val).1.ctxH = s.ctxH := by simp only [hfst, mwr_ctxH]
  have hrtc : (rtcReadLo s m.val).1.rtc = s.rtc := by simp only [hfst, mwr_rtc]
  have hread := targetRead_seclo s m.val
  generalize (rtcReadLo s m.val).1 = u at *
  refine ⟨answered u (.ok (BitVec.ofNat 32 s.rtc)), readRow_accept ho (by decide) hread (noSteps_of_ctxH hs hctx),
    answered_resp _ _, (answered_rtc _ _).trans hrtc, ?_, ?_, ?_, ?_⟩
  · rw [mrd_answered, hfst, mrd_mwr_ne _ _ _ (by decide), mrd_mwr_ne _ _ _ (by decide), mrd_mwr_ne _ _ _ (by decide),
      mrd_mwr_self]
  · rw [mrd_answered, hfst, mrd_mwr_ne _ _ _ (by decide), mrd_mwr_ne _ _ _ (by decide), mrd_mwr_self]
  · rw [mrd_answered, hfst, mrd_mwr_ne _ _ _ (by decide), mrd_mwr_self]
  · rw [mrd_answered, hfst, mrd_mwr_self]

/-! ## The oscillator and the supply (R413, R415) -/

/-- The state whose prescaler stands. -/
def clockStood : State := { s with rtcPre := rtcSub s }

theorem clockStood_rtc : (clockStood s).rtc = s.rtc := rfl
theorem clockStood_rtcPre : (clockStood s).rtcPre = rtcSub s := rfl

theorem oscLoss_running (hosc : s.bt AON_STAT 30 = true) : oscLoss s = (clockStood s).setBt AON_STAT 30 false := if_pos hosc

theorem exec_oscLoss (hosc : s.bt AON_STAT 30 = true) : ∃ t, exec .oscLoss s = .next t ∧ t.bt AON_STAT 30 = false ∧ t.rtc = s.rtc ∧
    t.rtcPre = rtcSub s := by
  have hrtc := clockStood_rtc s
  have hpre := clockStood_rtcPre s
  have hrun := oscLoss_running s hosc
  refine ⟨close (oscLoss s), rfl, ?_⟩
  rw [hrun, bt_close_low _ _ (by decide), close_rtc, close_rtcPre]
  generalize clockStood s = u at *
  exact ⟨bt_setBt_self u _ _ _ (by decide), hrtc, hpre⟩

/-- The state whose clock counts from this edge on. -/
def clockFrom : State := { s with rtcFrom := clk32 s, rtcTrim := clk32 s / 2 ^ 20 }

/-- The crystal runs, and the rest stands as it stood. -/
def clockStarted : State := (clockFrom s).setBt AON_STAT 30 true

theorem clockFrom_regs : (clockFrom s).regs = s.regs := rfl
theorem clockFrom_rtc : (clockFrom s).rtc = s.rtc := rfl
theorem clockFrom_rtcLoad : (clockFrom s).rtcLoad = s.rtcLoad := rfl

theorem clockStarted_spec : (clockStarted s).rtc = s.rtc ∧ (clockStarted s).rtcLoad = s.rtcLoad ∧
    (clockStarted s).bt AON_STAT 30 = true ∧ ∀ a, a ≠ AON_STAT → (clockStarted s).rd a = s.rd a := by
  have hrtc := clockFrom_rtc s
  have hload := clockFrom_rtcLoad s
  have hregs := clockFrom_regs s
  rw [clockStarted]
  generalize clockFrom s = u at *
  exact ⟨hrtc, hload, bt_setBt_self u _ _ _ (by decide), fun a ha => (rd_setBt_ne u _ _ ha).trans (rd_of_regs hregs a)⟩

theorem oscReady_stopped (hosc : s.bt AON_STAT 30 = false) : oscReady s = rtcLoadNow (clockStarted s) := if_neg (by simp [hosc])

theorem exec_oscReady (hosc : s.bt AON_STAT 30 = false) : ∃ t, exec .oscReady s = .next t ∧ t.bt AON_STAT 30 = true ∧
    t.rtc = if s.rtcLoad then (s.rd AON_RTC_SETLO).toNat + 2 ^ 32 * (s.rd AON_RTC_SETHI).toNat else s.rtc := by
  obtain ⟨hrtc, hload, hon, hrd⟩ := clockStarted_spec s
  have he := oscReady_stopped s hosc
  refine ⟨close (oscReady s), rfl, ?_⟩
  rw [he, bt_close_low _ _ (by decide), close_rtc, bt_rtcLoadNow_osc]
  generalize clockStarted s = u at *
  refine ⟨hon, ?_⟩
  cases hl : s.rtcLoad with
  | false =>
    rw [rtcLoadNow_eq, if_neg (by simp [hload, hl]), if_neg (by decide), hrtc]
  | true =>
    rw [(rtcLoadNow_waiting u (hload.trans hl) hon).2.2, hrd _ (by decide), hrd _ (by decide), if_pos rfl]

theorem seqRestart_regs : (seqRestart s).regs = s.regs := rfl

theorem exec_aonSupplySwitch {vaon : Bool} (h : s.bt PMU_MONSTAT 26 = !vaon) :
    ∃ t, exec (.aonSupplySwitch vaon) s = .next t ∧ t.bt PMU_MONSTAT 26 = vaon ∧
      t.fl AON_BATCNT 15 0 = (s.fl AON_BATCNT 15 0 + if vaon then 0 else 1) % 65536 := by
  have hne : ¬ s.bt PMU_MONSTAT 26 = vaon := by rw [h]; cases vaon <;> decide
  have hmon : closeTouches PMU_MONSTAT = false := by decide
  have hbit := bt_setBt_self s PMU_MONSTAT 26 vaon (by decide)
  have hcnt : (s.setBt PMU_MONSTAT 26 vaon).fl AON_BATCNT 15 0 = s.fl AON_BATCNT 15 0 := fl_setBt_ne s 15 0 (by decide) 26 vaon
  refine ⟨close (aonSwitch s vaon), rfl, ?_⟩
  rw [close_bt _ _ hmon, fl_close_low _ _ _ (by decide), aonSwitch, if_neg hne]
  dsimp only
  generalize s.setBt PMU_MONSTAT 26 vaon = u at *
  cases vaon with
  | true =>
    have hlt : s.fl AON_BATCNT 15 0 < 65536 := Nat.mod_lt _ (by decide)
    rw [if_pos rfl, if_pos rfl, bt_of_regs (seqRestart_regs u), fl_of_regs (seqRestart_regs u), Nat.add_zero, Nat.mod_eq_of_lt hlt]
    exact ⟨hbit, hcnt⟩
  | false =>
    rw [if_neg (by decide), if_neg (by decide), bt_wrapInc_ne _ _ (by decide), fl_wrapInc_self _ _ (by decide) (by decide), hcnt]
    exact ⟨hbit, rfl⟩

/-! ## A survey entry (R434) -/

theorem regDesc_surv {i : Nat} (hi : i < 16) : regDesc (AON_SURV i) = some ⟨0x80FFFFFF, 0x78000000, 0x0, 0x0, 0x0, 0x0⟩ := by
  have hblock : regDesc (AON_SURV i) = aonDesc (AON_SURV i - 0x08000000) := by
    unfold regDesc AON_SURV
    simp (disch := omega) only [if_neg, if_pos]
  rw [hblock]
  unfold aonDesc AON_SURV
  simp (disch := omega) only [if_neg, if_pos]

/-- The entry's day, and whether it is set, are the word's. -/
theorem surv_written {i : Nat} (hi : i < 16) (v : Word) : (s.softWrite (AON_SURV i) v).fl (AON_SURV i) 15 0 = fld v 15 0 ∧
    (s.softWrite (AON_SURV i) v).bt (AON_SURV i) 31 = bitAt v 31 := by
  have hrd : (s.softWrite (AON_SURV i) v).rd (AON_SURV i) =
      (s.rd (AON_SURV i) &&& ~~~0x80FFFFFF ||| v &&& 0x80FFFFFF) &&& ~~~(0x78000000 &&& v) := by
    rw [rd_softWrite_self s (regDesc_surv hi), writtenWord_of_rwo_zero rfl]
  have hbits (j : Nat) (hj : j < 16 ∨ j = 31) : ((s.rd (AON_SURV i) &&& ~~~0x80FFFFFF ||| v &&& 0x80FFFFFF) &&&
      ~~~(0x78000000 &&& v)).getLsbD j = v.getLsbD j := by
    have h32 : j < 32 := by omega
    have hrw : (0x80FFFFFF : Word).getLsbD j = true := by rcases hj with hj | rfl; interval_cases j <;> decide; decide
    have hclr : (0x78000000 : Word).getLsbD j = false := by rcases hj with hj | rfl; interval_cases j <;> decide; decide
    simp only [BitVec.getLsbD_and, BitVec.getLsbD_or, BitVec.getLsbD_not, hrw, hclr, h32]
    simp
  refine ⟨?_, ?_⟩
  · rw [State.fl, hrd]
    exact fld_congr fun j _ hj => hbits j (.inl (by omega))
  · rw [State.bt, hrd, bitAt_eq_getLsbD, bitAt_eq_getLsbD, hbits 31 (.inr rfl)]

/-- A day that has come has reached every threshold. -/
theorem newlyReached_due {today d : Nat} (h : d ≤ today) : newlyReached today d 0 = 15 := by
  have hall : calReached today d = 15 := by
    simp only [calReached, show d ≤ today + 90 by omega, show d ≤ today + 30 by omega, show d ≤ today + 7 by omega, h, if_true]
  rw [newlyReached, hall]
  decide

/-- The bits the evaluation raises leave the day, and the entry set. -/
theorem getLsbD_survRaised {n j : Nat} (hn : n < 16) (hj : j < 27 ∨ j = 31) : (BitVec.ofNat 32 (n * 2 ^ 27)).getLsbD j = false := by
  rw [BitVec.getLsbD_ofNat, Nat.testBit_mul_two_pow]
  rcases hj with hj | rfl
  · simp [show ¬ 27 ≤ j by omega]
  · simp [Nat.testBit_lt_two_pow (show n < 2 ^ 4 from hn)]

/-- The entry with the thresholds `n` raised and latched. -/
def survRaised (i n : Nat) : State :=
  let u := s.raise (AON_SURV i) (BitVec.ofNat 32 (n * 2 ^ 27))
  { u with survLatch := smSet 0 s.survLatch i (smGet 0 s.survLatch i + n) }

theorem survRaised_regs (i n : Nat) : (survRaised s i n).regs = (s.raise (AON_SURV i) (BitVec.ofNat 32 (n * 2 ^ 27))).regs := rfl

theorem survEval_eq {i : Nat} (hset : s.bt (AON_SURV i) 31 = true) : survEval s i =
    if newlyReached (s.rtc / 86400) (s.fl (AON_SURV i) 15 0) (smGet 0 s.survLatch i) = 0 then s
    else (survRaised s i (newlyReached (s.rtc / 86400) (s.fl (AON_SURV i) 15 0) (smGet 0 s.survLatch i))).raise AON_IRQSTAT 0x4 :=
  if_neg (by simp [hset])

/-- What the evaluation of an entry leaves of its day and of its bit 31. -/
theorem survEval_kept (i : Nat) : (survEval s i).fl (AON_SURV i) 15 0 = s.fl (AON_SURV i) 15 0 ∧
    (survEval s i).bt (AON_SURV i) 31 = s.bt (AON_SURV i) 31 := by
  by_cases hset : s.bt (AON_SURV i) 31 = true
  swap
  · rw [survEval, if_pos (by simpa using hset)]
    exact ⟨rfl, rfl⟩
  rw [survEval_eq s hset]
  have hlt := newlyReached_lt (s.rtc / 86400) (s.fl (AON_SURV i) 15 0) (smGet 0 s.survLatch i)
  generalize newlyReached (s.rtc / 86400) (s.fl (AON_SURV i) 15 0) (smGet 0 s.survLatch i) = n at *
  split
  · exact ⟨rfl, rfl⟩
  · have hne : AON_SURV i ≠ AON_IRQSTAT := by unfold AON_SURV AON_IRQSTAT; omega
    rw [fl_raise_ne _ _ _ hne, bt_raise_ne _ _ hne, fl_of_regs (survRaised_regs s i n), bt_of_regs (survRaised_regs s i n)]
    refine ⟨?_, ?_⟩
    · rw [State.fl, State.raise, rd_wr_self, State.fl]
      refine fld_congr fun j _ hj => ?_
      rw [BitVec.getLsbD_or, getLsbD_survRaised hlt (.inl (by omega)), Bool.or_false]
    · rw [bt_raise_self, bitAt_eq_getLsbD _ 31, getLsbD_survRaised hlt (.inr rfl), Bool.or_false]

/-- An entry set whose day has come shows every threshold. -/
theorem survEval_due {i : Nat} (hset : s.bt (AON_SURV i) 31 = true) (hlatch : smGet 0 s.survLatch i = 0)
    (hday : s.fl (AON_SURV i) 15 0 ≤ s.rtc / 86400) : (survEval s i).fl (AON_SURV i) 30 27 = 15 := by
  have hne : AON_SURV i ≠ AON_IRQSTAT := by unfold AON_SURV AON_IRQSTAT; omega
  rw [survEval_eq s hset, hlatch, newlyReached_due hday, if_neg (by decide), fl_raise_ne _ _ _ hne, fl_of_regs (survRaised_regs s i 15)]
  have hfld : fld (s.rd (AON_SURV i) ||| BitVec.ofNat 32 (15 * 2 ^ 27)) 30 27 = fld 0x78000000 30 27 := by
    refine fld_congr fun j hlo hhi => ?_
    have hbit : (BitVec.ofNat 32 (15 * 2 ^ 27)).getLsbD j = true ∧ (0x78000000 : Word).getLsbD j = true := by
      interval_cases j <;> decide
    rw [BitVec.getLsbD_or, hbit.1, hbit.2, Bool.or_true]
  rw [State.fl, State.raise, rd_wr_self, hfld]
  decide

/-- The entry as written, with no threshold latched. -/
def survFresh (i : Nat) (v : Word) : State :=
  let u := s.softWrite (AON_SURV i) v
  { u with survLatch := smSet 0 u.survLatch i 0 }

theorem survFresh_regs (i : Nat) (v : Word) : (survFresh s i v).regs = (s.softWrite (AON_SURV i) v).regs := rfl

theorem survFresh_rtc (i : Nat) (v : Word) : (survFresh s i v).rtc = s.rtc := by
  obtain ⟨r, d, h⟩ := softWrite_eq s (AON_SURV i) v
  rw [survFresh, h]

theorem survFresh_latch (i : Nat) (v : Word) : smGet 0 (survFresh s i v).survLatch i = 0 :=
  smGet_smSet_self 0 (s.softWrite (AON_SURV i) v).survLatch i 0

theorem survFresh_ctxH (i : Nat) (v : Word) : (survFresh s i v).ctxH = s.ctxH := softWrite_ctxH s _ v

/-- The write of an entry with what it leaves. -/
theorem survWrite_eq (i : Nat) (v : Word) : survWrite s i v =
    if (survFresh s i v).bt AON_STAT 30 then survEval (survFresh s i v) i else survFresh s i v := rfl

theorem survWrite_kept {i : Nat} (hi : i < 16) (v : Word) : (survWrite s i v).ctxH = s.ctxH ∧
    (survWrite s i v).fl (AON_SURV i) 15 0 = fld v 15 0 ∧ (survWrite s i v).bt (AON_SURV i) 31 = bitAt v 31 := by
  obtain ⟨hday, hset⟩ := surv_written s hi v
  have hctx := survFresh_ctxH s i v
  have hregs := survFresh_regs s i v
  rw [survWrite_eq]
  generalize survFresh s i v = u at *
  rw [← fl_of_regs hregs] at hday
  rw [← bt_of_regs hregs] at hset
  obtain ⟨hday', hset'⟩ := survEval_kept u i
  split
  · have heq := (calFrame_survEval u hi).aon.eq
    exact ⟨by rw [heq, hctx], hday'.trans hday, hset'.trans hset⟩
  · exact ⟨hctx, hday, hset⟩

theorem survWrite_due {i : Nat} (hi : i < 16) {v : Word} (hosc : s.bt AON_STAT 30 = true) (hv : bitAt v 31 = true)
    (hday : fld v 15 0 ≤ s.rtc / 86400) : (survWrite s i v).fl (AON_SURV i) 30 27 = 15 := by
  obtain ⟨hfl, hset⟩ := surv_written s hi v
  have hregs := survFresh_regs s i v
  have hosc' : (survFresh s i v).bt AON_STAT 30 = true := by
    rw [bt_of_regs hregs, State.bt, rd_softWrite_ne _ _ (by unfold AON_STAT AON_SURV; omega), ← State.bt, hosc]
  rw [survWrite_eq, if_pos hosc']
  refine survEval_due _ ?_ (survFresh_latch s i v) ?_
  · rw [bt_of_regs hregs, hset, hv]
  · rw [fl_of_regs hregs, hfl, survFresh_rtc]
    exact hday

theorem aonWrite_surv {m i : Nat} (hi : i < 16) (hsup : supervisor s m = true) (v : Word) :
    aonWrite s m (AON_SURV i % 0x1000) v = (survWrite s i v, .ok 0) := by
  have hoff : AON_SURV i % 0x1000 = 0x100 + i * 4 := by unfold AON_SURV; omega
  have hidx : (0x100 + i * 4 - 0x100) / 4 = i := by omega
  rw [hoff, aonWrite, if_pos (by omega), if_pos hsup, hidx, accept]

theorem exec_surveyWrite {m : Master} (hs : noSteps s) (i : Fin 16) (v : Word) (ho : opens s m (AON_SURV i.val) .aon)
    (hsup : supervisor s m.val = true) : ∃ t, exec (.surveyWrite m i v) s = .next t ∧
      t.resp = .ok 0 ∧ t.fl (AON_SURV i.val) 15 0 = fld v 15 0 ∧ t.bt (AON_SURV i.val) 31 = bitAt v 31 ∧
      (s.bt AON_STAT 30 = true → bitAt v 31 = true → fld v 15 0 ≤ s.rtc / 86400 → t.fl (AON_SURV i.val) 30 27 = 15) := by
  have hi := i.isLt
  have hlow : AON_SURV i.val < 0x30000000 := by unfold AON_SURV; omega
  obtain ⟨hctx, hday, hset⟩ := survWrite_kept s hi v
  refine ⟨answered (survWrite s i.val v) (.ok 0), writeRow_aon ho (by unfold AON_SURV; omega) (by unfold AON_SURV AON_IRQROUTE; omega)
    (aonWrite_surv s hi hsup v) (noSteps_of_ctxH hs hctx), answered_resp _ _, ?_, ?_, fun hosc hv hd => ?_⟩
  · rw [fl_answered_low _ _ _ _ hlow, hday]
  · rw [bt_answered_low _ _ _ hlow, hset]
  · rw [fl_answered_low _ _ _ _ hlow, survWrite_due s hi hosc hv hd]

end

/-- Settles O58: the tick by the frames of the slots and of the calendar, LOAD and the entries by the writes of AON_ registers. -/
theorem realTimeClock : Obligations.RealTimeClock := by
  unfold Obligations.RealTimeClock
  intro s m vaon hs
  refine ⟨exec_rtcTick s, exec_rtcLoad s hs, ?_, exec_rtcRead s hs, exec_oscLoss s, exec_oscReady s, exec_aonSupplySwitch s,
    exec_surveyWrite s hs⟩
  rintro u rfl hload hosc
  exact rtcLoadNow_waiting s hload hosc

end Sys2Proof.Machine

/-! SUPPORT. The line module slots: insertion, commands, overcurrent, surges, temperature, wear writes (R421 to R430). -/

namespace Sys2Proof.Machine

/-! ## Frames of the steps of a slot -/

theorem closeTouches_hb {a : Nat} (h : 0x3A000000 ≤ a) : closeTouches a = false := by
  unfold closeTouches MEM_FT_STAT MEM_DG_IRQSTAT
  simp only [Bool.or_eq_false_iff, Bool.and_eq_false_iff, decide_eq_false_iff_not, beq_eq_false_iff_ne]
  omega

section
variable (s : State) (k : Nat)

theorem slotsLive_setSlot (j : Nat) (h : SlotH) : slotsLive (s.setSlot j h) = slotsLive s :=
  congrArg not (inReset_congr rfl rfl rfl rfl rfl (rd_setSlot s j h _) (rd_setSlot s j h _) (rd_setSlot s j h _) (rd_setSlot s j h _) 27)

/-- A register that no reset reads leaves the slot manager as it is. -/
theorem slotsLive_wr {a : Nat} (v : Word) (h : RST_SWSRC ≠ a ∧ ARB_STATUS ≠ a ∧ RST_BLKCAN ≠ a ∧ RST_BLKHX ≠ a) :
    slotsLive (s.wr a v) = slotsLive s :=
  congrArg not (inReset_congr (s := s) (t := s.wr a v) rfl rfl rfl rfl rfl (rd_wr_ne s v h.1) (rd_wr_ne s v h.2.1) (rd_wr_ne s v h.2.2.1) (rd_wr_ne s v h.2.2.2) 27)

theorem slotIrq_cases (w : Word) : slotIrq s w = s ∨ slotIrq s w = s.raise SLOT_IRQSTAT w := by
  unfold slotIrq
  split
  · exact .inr rfl
  · exact .inl rfl

@[simp] theorem slotH_slotIrq (w : Word) : (slotIrq s w).slot k = s.slot k := by
  rcases slotIrq_cases s w with h | h
  · rw [h]
  · rw [h, slotH_raise]

theorem rd_slotIrq (w : Word) {a : Nat} (h : a ≠ SLOT_IRQSTAT) : (slotIrq s w).rd a = s.rd a := by
  rcases slotIrq_cases s w with h' | h'
  · rw [h']
  · rw [h', rd_raise_ne _ _ h]

theorem slotFrame_slotIrq (w : Word) : SlotFrame k s (slotIrq s w) := by
  rcases slotIrq_cases s w with h | h
  · rw [h]
    exact .refl s
  · rw [h]
    exact .wr s _ (.inr (.inr (by decide)))

@[simp] theorem slotH_slotTo (st : Nat) : (slotTo s k st).slot k = { s.slot k with state := st } := by
  rw [slotTo, slotH_slotIrq, slotH_setSlot_self]

theorem rd_slotTo (st : Nat) {a : Nat} (h : a ≠ SLOT_IRQSTAT) : (slotTo s k st).rd a = s.rd a := by
  rw [slotTo, rd_slotIrq _ _ h, rd_setSlot]

theorem bt_slotTo (st : Nat) {a : Nat} (i : Nat) (h : a ≠ SLOT_IRQSTAT) : (slotTo s k st).bt a i = s.bt a i := by
  rw [State.bt, rd_slotTo s k st h, State.bt]

theorem fl_slotTo (st : Nat) {a : Nat} (hi lo : Nat) (h : a ≠ SLOT_IRQSTAT) : (slotTo s k st).fl a hi lo = s.fl a hi lo := by
  rw [State.fl, rd_slotTo s k st h, State.fl]

theorem slotFrame_slotTo (st : Nat) : SlotFrame k s (slotTo s k st) := (SlotFrame.setSlot s _).trans (slotFrame_slotIrq _ k _)

/-! ## The write of a record begins (R430) -/

/-- The registers after the write has begun. -/
theorem wearStart_regs : (wearStart s k).regs = (s.setBt (AON_SLOT_WEARHI k) 30 true).regs := by
  unfold wearStart
  dsimp only
  generalize s.setBt (AON_SLOT_WEARHI k) 30 true = u
  split
  · rfl
  · split
    · exact State.setSlot_regs _ _ _
    · exact State.setSlot_regs _ _ _

theorem bt_wearStart : (wearStart s k).bt (AON_SLOT_WEARHI k) 30 = true := by
  rw [bt_of_regs (wearStart_regs s k), bt_setBt_self _ _ _ _ (by decide)]

theorem fl_wearStart {a : Nat} (hi lo : Nat) (h : a ≠ AON_SLOT_WEARHI k) : (wearStart s k).fl a hi lo = s.fl a hi lo := by
  rw [fl_of_regs (wearStart_regs s k), fl_setBt_ne _ _ _ h]

/-- What the write leaves of the slot. -/
theorem wearStart_slot : ∃ w d n r, (wearStart s k).slot k = { s.slot k with writing := w, due := d, onTicks := n, retry := r } := by
  have hslot : (s.setBt (AON_SLOT_WEARHI k) 30 true).slot k = s.slot k := slotH_setBt s k _ _ _
  unfold wearStart
  dsimp only
  generalize s.setBt (AON_SLOT_WEARHI k) 30 true = u at *
  rw [← hslot]
  split
  · exact ⟨_, _, _, _, rfl⟩
  · split
    · rw [slotH_setSlot_self]
      exact ⟨_, _, _, _, rfl⟩
    · rw [slotH_setSlot_self]
      exact ⟨_, _, _, _, rfl⟩

/-- Power is cut, and the slot keeps its place and its state. -/
theorem slotCut_slot : ((slotCut s k).slot k).en = false ∧ ((slotCut s k).slot k).state = (s.slot k).state ∧
    ((slotCut s k).slot k).flt = (s.slot k).flt := by
  obtain ⟨w, d, n, r, h⟩ := wearStart_slot (s.setSlot k { s.slot k with en := false, rejoin := false }) k
  rw [slotCut, h, slotH_setSlot_self]
  exact ⟨rfl, rfl, rfl⟩

theorem bt_slotCut : (slotCut s k).bt (AON_SLOT_WEARHI k) 30 = true := bt_wearStart _ k

theorem fl_slotCut {a : Nat} (hi lo : Nat) (h : a ≠ AON_SLOT_WEARHI k) : (slotCut s k).fl a hi lo = s.fl a hi lo := by
  rw [slotCut, fl_wearStart _ _ _ _ h, fl_setSlot]

theorem slotFrame_slotCut : SlotFrame k s (slotCut s k) := (SlotFrame.setSlot s _).trans (slotFrame_wearStart _ k)

theorem slotFrame_slotPower : SlotFrame k s (slotPower s k) := (SlotFrame.setSlot s _).trans (slotFrame_slotTo _ k _)

/-! ## Addresses -/

theorem wearHi_ne_slotIrq : AON_SLOT_WEARHI k ≠ SLOT_IRQSTAT := by unfold AON_SLOT_WEARHI SLOT_IRQSTAT; omega
theorem slotStat_ne_irq : SLOT_STAT k ≠ SLOT_IRQSTAT := by unfold SLOT_STAT SLOT_IRQSTAT; omega
theorem bt_close_wearHi (i : Nat) (hk : k < 32) : (close s).bt (AON_SLOT_WEARHI k) i = s.bt (AON_SLOT_WEARHI k) i :=
  bt_close_low s i (by unfold AON_SLOT_WEARHI; omega)

end

/-! ## Removal and insertion (R421) -/

section
variable (s : State)

theorem wearAbandon_en (k : Nat) : ((wearAbandon s k).slot k).en = (s.slot k).en := by
  unfold wearAbandon
  split
  · rfl
  · rw [slotH_raise, slotH_satInc, slotH_setSlot_self]

/-- The record of a module removed under power waits. -/
def cutPending (k : Nat) : State := if (s.slot k).en then s.setBt (AON_SLOT_WEARHI k) 30 true else s

theorem slotRemove_present {k : Nat} (h : (s.slot k).prs = true) : slotRemove s k =
    let u := cutPending (if (s.slot k).writing.isSome then wearAbandon s k else s) k
    slotTo (u.setSlot k { u.slot k with prs := false, en := false, rejoin := false, due := false }) k 0 :=
  if_neg (by simp [h])

theorem exec_slotRemove {k : Fin 32} (hprs : (s.slot k.val).prs = true) : ∃ t, exec (.slotRemove k) s = .next t ∧
    (t.slot k.val).prs = false ∧ (t.slot k.val).en = false ∧ (t.slot k.val).state = 0 ∧
    ((s.slot k.val).en = true → t.bt (AON_SLOT_WEARHI k.val) 30 = true) := by
  refine ⟨close (slotRemove s k.val), rfl, ?_⟩
  have hen : ((if (s.slot k.val).writing.isSome then wearAbandon s k.val else s).slot k.val).en = (s.slot k.val).en := by
    split
    · exact wearAbandon_en s k.val
    · rfl
  rw [slotH_close, bt_close_wearHi _ _ _ k.isLt, slotRemove_present s hprs]
  generalize (if (s.slot k.val).writing.isSome then wearAbandon s k.val else s) = u at *
  dsimp only
  rw [slotH_slotTo, slotH_setSlot_self, bt_slotTo _ _ _ _ (wearHi_ne_slotIrq _), bt_setSlot]
  refine ⟨rfl, rfl, rfl, fun h => ?_⟩
  rw [cutPending, if_pos (hen.trans h), bt_setBt_self _ _ _ _ (by decide)]

theorem slotInsert_absent {k : Nat} (h : (s.slot k).prs = false) (hlive : slotsLive s = true) :
    slotInsert s k = slotTo (s.setSlot k { s.slot k with prs := true }) k 1 := by
  have hlive' : slotsLive (s.setSlot k { s.slot k with prs := true }) = true := (slotsLive_setSlot s k _).trans hlive
  rw [slotInsert, if_neg (by simp [h]), if_pos hlive']

/-- A change of state shows, where the slot manager runs. -/
theorem bt_slotTo_irq {k : Nat} (st : Nat) (hlive : slotsLive s = true) : (slotTo s k st).bt SLOT_IRQSTAT 0 = true := by
  rw [slotTo, slotIrq, if_pos ((slotsLive_setSlot s k _).trans hlive)]
  exact bt_raise _ (by decide)

theorem exec_slotInsert {k : Fin 32} (hprs : (s.slot k.val).prs = false) (hlive : slotsLive s = true) :
    ∃ t, exec (.slotInsert k) s = .next t ∧ (t.slot k.val).prs = true ∧ (t.slot k.val).state = 1 ∧ t.bt SLOT_IRQSTAT 0 = true := by
  refine ⟨close (slotInsert s k.val), rfl, ?_⟩
  rw [slotH_close, close_bt _ _ (closeTouches_hb (by decide)), slotInsert_absent s hprs hlive]
  refine ⟨?_, ?_, bt_slotTo_irq _ _ ((slotsLive_setSlot s _ _).trans hlive)⟩
  · rw [slotH_slotTo, slotH_setSlot_self]
  · rw [slotH_slotTo]

end

/-! ## The commands (R421) -/

theorem SlotFrame.ctxH {k : Nat} {s t : State} (h : SlotFrame k s t) : t.ctxH = s.ctxH := by rw [h.eq]

theorem slotH_answered (u : State) (r : Resp) (k : Nat) : (answered u r).slot k = u.slot k := slotH_of_slotH (close_slotH _) k

section
variable {s : State} {m : Master} {k : Fin 32}

theorem slotWrite_command (hsup : supervisor s m.val = true) (v : Word) :
    slotWrite s m.val (SLOT_CMD k.val % 0x10000) v = slotCommand s k.val (fld v 1 0) := by
  have hk := k.isLt
  have hoff : SLOT_CMD k.val % 0x10000 = 0x8008 + k.val * 0x20 := by unfold SLOT_CMD; omega
  have hidx : (0x8008 + k.val * 0x20 - 0x8000) / 0x20 = k.val := by omega
  have hr : (0x8008 + k.val * 0x20) % 0x20 = 8 := by omega
  rw [hoff, slotWrite, hidx, hr, if_neg (by simp [hsup]), if_neg (by simp), if_pos ⟨by omega, rfl⟩]

/-- The row of a command of SLOT_CMD that is accepted. -/
theorem writeRow_slotCmd (hs : noSteps s) (ho : opens s m (SLOT_CMD k.val) .hb) (hsup : supervisor s m.val = true) {v : Word}
    {u : State} (hw : slotCommand s k.val (fld v 1 0) = (u, .ok 0)) (hu : SlotFrame k.val s u) :
    writeRow s m (SLOT_CMD k.val) v = .next (answered u (.ok 0)) := by
  have hk := k.isLt
  refine writeRow_accept ho (.inl rfl) ?_ (noSteps_of_ctxH hs hu.ctxH)
  have hkind : routeKind (SLOT_CMD k.val) = none := by
    unfold routeKind SLOT_CMD TU_IRQROUTE IMG_IRQROUTE LDR_IRQROUTE SW_IRQROUTE MEM_IRQROUTE MEM_DG_IRQROUTE ARB_IRQROUTE HB_IRQROUTE
      SLOT_IRQROUTE PMU_IRQROUTE AON_IRQROUTE
    simp (disch := omega) only [if_neg]
  have hrouted : routed m (SLOT_CMD k.val) .hb v = v := if_neg (by rw [if_neg (by decide), hkind]; decide)
  rw [hrouted, targetWrite_hb, if_neg (by unfold SLOT_CMD; omega), slotWrite_command hsup, hw]

theorem exec_slotOn (hs : noSteps s) (ho : opens s m (SLOT_CMD k.val) .hb) (hsup : supervisor s m.val = true)
    (hst : (s.slot k.val).state = 2) (hflt : (s.slot k.val).flt = false) :
    ∃ t, exec (.slotOn m k) s = .next t ∧ t.resp = .ok 0 ∧ (t.slot k.val).state = 3 ∧ (t.slot k.val).en = true := by
  have hw : slotCommand s k.val (fld 1 1 0) = (slotPower s k.val, .ok 0) := by
    rw [slotCommand, if_pos (by decide), if_pos ⟨hst, hflt⟩, accept]
  refine ⟨_, writeRow_slotCmd hs ho hsup hw (slotFrame_slotPower s _), answered_resp _ _, ?_, ?_⟩
  · rw [slotH_answered, slotPower, slotH_slotTo]
  · rw [slotH_answered, slotPower, slotH_slotTo, slotH_setSlot_self]

theorem exec_slotOff (hs : noSteps s) (ho : opens s m (SLOT_CMD k.val) .hb) (hsup : supervisor s m.val = true)
    (hst : (s.slot k.val).state = 3) : ∃ t, exec (.slotOff m k) s = .next t ∧ t.resp = .ok 0 ∧ (t.slot k.val).state = 2 ∧
      (t.slot k.val).en = false ∧ t.bt (AON_SLOT_WEARHI k.val) 30 = true := by
  have hw : slotCommand s k.val (fld 2 1 0) = (slotTo (slotCut s k.val) k.val 2, .ok 0) := by
    rw [slotCommand, if_neg (by decide), if_pos (by decide), if_pos hst, accept]
  obtain ⟨hen, -, -⟩ := slotCut_slot s k.val
  refine ⟨_, writeRow_slotCmd hs ho hsup hw ((slotFrame_slotCut s _).trans (slotFrame_slotTo _ _ _)), answered_resp _ _, ?_, ?_, ?_⟩
  · rw [slotH_answered, slotH_slotTo]
  · rw [slotH_answered, slotH_slotTo]
    exact hen
  · rw [bt_answered_low _ _ _ (by have := k.isLt; unfold AON_SLOT_WEARHI; omega), bt_slotTo _ _ _ _ (wearHi_ne_slotIrq _), bt_slotCut]

/-- CLEAR of a slot in FAULT whose level has gone, or of one in REJECT. -/
theorem exec_slotClear_of (hs : noSteps s) (ho : opens s m (SLOT_CMD k.val) .hb) (hsup : supervisor s m.val = true) {st : Nat}
    (hw : slotCommand s k.val (fld 3 1 0) = (slotTo s k.val st, .ok 0)) :
    ∃ t, exec (.slotClear m k) s = .next t ∧ t.resp = .ok 0 ∧ (t.slot k.val).state = st := by
  refine ⟨_, writeRow_slotCmd hs ho hsup hw (slotFrame_slotTo s _ _), answered_resp _ _, ?_⟩
  rw [slotH_answered, slotH_slotTo]

theorem slotCommand_clearFault (hst : (s.slot k.val).state = 4) (hflt : (s.slot k.val).flt = false) :
    slotCommand s k.val (fld 3 1 0) = (slotTo s k.val 2, .ok 0) := by
  rw [slotCommand, if_neg (by decide), if_neg (by decide), if_pos (by decide), if_neg (by simp [hst]), if_pos hst, if_neg (by simp [hflt]),
    accept]

theorem slotCommand_clearReject (hst : (s.slot k.val).state = 5) :
    slotCommand s k.val (fld 3 1 0) = (slotTo s k.val 1, .ok 0) := by
  rw [slotCommand, if_neg (by decide), if_neg (by decide), if_pos (by decide), if_pos hst, accept]

end

/-! ## Overcurrent, temperature and the retry (R423, R429, R430) -/

section
variable (s : State) {k : Fin 32}

theorem exec_slotOvercurrent (hen : (s.slot k.val).en = true) (hst : (s.slot k.val).state = 3) :
    ∃ t, exec (.slotOvercurrent k) s = .next t ∧ (t.slot k.val).en = false ∧
      (t.slot k.val).state = 4 ∧ (t.slot k.val).flt = true ∧
      t.fl (AON_SLOT_INSOCT k.val) 15 0 = min 65535 (s.fl (AON_SLOT_INSOCT k.val) 15 0 + 1) := by
  have hk := k.isLt
  have hne : AON_SLOT_INSOCT k.val ≠ AON_SLOT_WEARHI k.val := by unfold AON_SLOT_INSOCT AON_SLOT_WEARHI; omega
  have hirq : AON_SLOT_INSOCT k.val ≠ SLOT_IRQSTAT := by unfold AON_SLOT_INSOCT SLOT_IRQSTAT; omega
  obtain ⟨u, hu⟩ : ∃ u, (slotFlt s k.val true).satInc (AON_SLOT_INSOCT k.val) 15 0 = u := ⟨_, rfl⟩
  have hslot : u.slot k.val = { s.slot k.val with flt := true } := by rw [← hu, slotH_satInc, slotFlt, slotH_setSlot_self]
  have hoct : u.fl (AON_SLOT_INSOCT k.val) 15 0 = min 65535 (s.fl (AON_SLOT_INSOCT k.val) 15 0 + 1) := by
    rw [← hu, fl_satInc_self _ _ _ _ (by decide) (by decide), slotFlt, fl_setSlot]
    norm_num
  obtain ⟨hen', hst', hflt'⟩ := slotCut_slot u k.val
  have htrip : slotTrip s k.val = slotIrq (slotTo (slotCut u k.val) k.val 4) 0x10 := by
    rw [slotTrip]
    dsimp only
    rw [if_neg (by rw [slotFlt, slotH_setSlot_self]; simp [hen]), hu, if_pos (by rw [hst', hslot]; exact hst)]
  refine ⟨close (slotTrip s k.val), rfl, ?_⟩
  rw [slotH_close, fl_close_low _ _ _ (by unfold AON_SLOT_INSOCT; omega), htrip, slotH_slotIrq, slotH_slotTo, State.fl,
    rd_slotIrq _ _ hirq, ← State.fl, fl_slotTo _ _ _ _ _ hirq, fl_slotCut _ _ _ _ hne]
  exact ⟨hen', rfl, hflt'.trans (by rw [hslot]), hoct⟩

theorem exec_slotTempRead {x : Nat} (hx : x < 8192) (hlive : slotsLive s = true) (hst : (s.slot k.val).state = 3) :
    ∃ t, exec (.slotTempRead k (some x)) s = .next t ∧ t.rd (SLOT_TEMP k.val) = BitVec.ofNat 32 (2 ^ 31 + x) ∧
      (t.slot k.val).tempAge = 0 ∧ (t.slot k.val).band = min 15 ((sext 13 x + 640) / 160).toNat := by
  refine ⟨close (slotTemp s k.val (some x)), rfl, ?_⟩
  rw [slotH_close, close_rd _ (closeTouches_hb (by unfold SLOT_TEMP; omega)), slotTemp, if_neg (by simp [hlive, hst])]
  dsimp only
  rw [rd_wr_self, slotH_wr, slotH_setSlot_self, Nat.mod_eq_of_lt (show x < 2 ^ 13 from hx)]
  exact ⟨rfl, rfl, rfl⟩

theorem recOf_pending : recOf (s.setBt (AON_SLOT_WEARHI k.val) 30 true) k.val = recOf s k.val := by
  have hoct : AON_SLOT_INSOCT k.val ≠ AON_SLOT_WEARHI k.val := by unfold AON_SLOT_INSOCT AON_SLOT_WEARHI; omega
  have hop : AON_SLOT_OPSEC k.val ≠ AON_SLOT_WEARHI k.val := by unfold AON_SLOT_OPSEC AON_SLOT_WEARHI; omega
  have h12 : AON_SLOT_S12 k.val ≠ AON_SLOT_WEARHI k.val := by unfold AON_SLOT_S12 AON_SLOT_WEARHI; omega
  have h34 : AON_SLOT_S34 k.val ≠ AON_SLOT_WEARHI k.val := by unfold AON_SLOT_S34 AON_SLOT_WEARHI; omega
  simp only [recOf, wearOf_setBt s k.val true (show 16 ≤ 30 by decide) (by decide), fl_setBt_ne s _ _ hoct, rd_setBt_ne s _ _ hop,
    fl_setBt_ne s _ _ h12, fl_setBt_ne s _ _ h34]

/-- A write that begins at once takes the record as it stands. -/
theorem wearStart_begins (hprs : (s.slot k.val).prs = true) (hlive : slotsLive s = true) (hw : (s.slot k.val).writing = none) :
    ((wearStart s k.val).slot k.val).writing = some (recOf s k.val) := by
  have hk := k.isLt
  have hslot : (s.setBt (AON_SLOT_WEARHI k.val) 30 true).slot k.val = s.slot k.val := slotH_setBt s _ _ _ _
  have hlive' : slotsLive (s.setBt (AON_SLOT_WEARHI k.val) 30 true) = true :=
    (slotsLive_wr s _ (by unfold RST_SWSRC ARB_STATUS RST_BLKCAN RST_BLKHX AON_SLOT_WEARHI; omega)).trans hlive
  have hrec := recOf_pending s (k := k)
  unfold wearStart
  dsimp only
  generalize s.setBt (AON_SLOT_WEARHI k.val) 30 true = u at *
  rw [hslot, if_neg (by simp [hprs, hlive']), if_neg (by simp [hw]), slotH_setSlot_self, hrec]

theorem exec_wearWriteRetry (hretry : (s.slot k.val).retry = 1) (hprs : (s.slot k.val).prs = true) (hlive : slotsLive s = true)
    (hw : (s.slot k.val).writing = none) : ∃ t, exec (.wearWriteRetry k) s = .next t ∧
      (t.slot k.val).writing = some (recOf s k.val) ∧ t.bt (AON_SLOT_WEARHI k.val) 30 = true := by
  refine ⟨close (wearRetry s k.val), rfl, ?_⟩
  rw [slotH_close, bt_close_wearHi _ _ _ k.isLt, wearRetry, if_pos ⟨hretry, hprs, hlive⟩]
  exact ⟨wearStart_begins s hprs hlive hw, bt_wearStart s k.val⟩

end

end Sys2Proof.Machine

/-! SUPPORT. The line module slots: surges, the end of a wear write, identification (R424 to R430). -/

namespace Sys2Proof.Machine

/-! ## Registers that wear leaves -/

section
variable (s : State) (k : Nat) {a : Nat}

theorem rd_wearAlarm_ne (hhi : a ≠ AON_SLOT_WEARHI k) (hirq : a ≠ AON_IRQSTAT) : (wearAlarm s k).rd a = s.rd a := by
  obtain ⟨u, hu, ht⟩ := wearAlarm_cases s k
  have hone (x : State) (i : Nat) (w : Word) : ((x.setBt (AON_SLOT_WEARHI k) i true).raise AON_IRQSTAT w).rd a = x.rd a := by
    rw [rd_raise_ne _ _ hirq, rd_setBt_ne _ _ _ hhi]
  have hsu : u.rd a = s.rd a := by
    rcases hu with rfl | rfl
    · rfl
    · exact hone s _ _
  rcases ht with h | h
  · rw [h, hsu]
  · rw [h, hone, hsu]

theorem rd_wearAdd_ne (n : Nat) (hlo : a ≠ AON_SLOT_WEARLO k) (hhi : a ≠ AON_SLOT_WEARHI k) (hirq : a ≠ AON_IRQSTAT) :
    (wearAdd s k n).rd a = s.rd a := by
  rw [wearAdd, rd_wearAlarm_ne _ _ hhi hirq, setWear, rd_setFl_ne _ _ _ _ hhi, rd_wr_ne _ _ hlo]

theorem fl_wearAdd_ne (n hi lo : Nat) (hlo : a ≠ AON_SLOT_WEARLO k) (hhi : a ≠ AON_SLOT_WEARHI k) (hirq : a ≠ AON_IRQSTAT) :
    (wearAdd s k n).fl a hi lo = s.fl a hi lo := by
  rw [State.fl, rd_wearAdd_ne s k n hlo hhi hirq, State.fl]

/-- The alarms and the wear leave the mark of a valid record. -/
theorem recValid_wearAdd (n : Nat) : recValid (wearAdd s k n) k = recValid s k := by
  have hset (w : Nat) : (setWear s k w).bt (AON_SLOT_WEARHI k) 31 = s.bt (AON_SLOT_WEARHI k) 31 := by
    rw [setWear, bt_setFl_apart _ _ _ (by decide) (by decide) (.inl (by decide)), bt_wr_ne _ _ (wearLo_ne k).symm]
  have hone (x : State) (i : Nat) (w : Word) (h : i < 31) :
      ((x.setBt (AON_SLOT_WEARHI k) i true).raise AON_IRQSTAT w).bt (AON_SLOT_WEARHI k) 31 = x.bt (AON_SLOT_WEARHI k) 31 := by
    rw [bt_raise_ne _ _ (wearHi_ne_irq k), bt_setBt_ne _ _ _ _ _ (by omega) (by omega)]
  obtain ⟨u, hu, ht⟩ := wearAlarm_cases (setWear s k (min (2 ^ 48 - 1) (wearOf s k + n))) k
  have hsu : u.bt (AON_SLOT_WEARHI k) 31 = s.bt (AON_SLOT_WEARHI k) 31 := by
    rcases hu with rfl | rfl
    · exact hset _
    · rw [hone _ _ _ (by decide), hset]
  rw [recValid, recValid, wearAdd]
  rcases ht with h | h
  · rw [h, hsu]
  · rw [h, hone _ _ _ (by decide), hsu]

end

/-! ## Surges (R424) -/

theorem surgeClass_eq (w : Nat) : (w < 1000 → surgeClass w = 0) ∧ (1000 ≤ w → w < 5000 → surgeClass w = 1) ∧
    (5000 ≤ w → w < 10000 → surgeClass w = 2) ∧ (10000 ≤ w → w < 20000 → surgeClass w = 3) ∧ (20000 ≤ w → surgeClass w = 4) := by
  unfold surgeClass
  dsimp only
  refine ⟨fun h => ?_, fun h h' => ?_, fun h h' => ?_, fun h h' => ?_, fun h => ?_⟩
  · rw [if_pos (by omega)]
  · rw [if_neg (by omega), if_pos (by omega)]
  · rw [if_neg (by omega), if_neg (by omega), if_pos (by omega)]
  · rw [if_neg (by omega), if_neg (by omega), if_neg (by omega), if_pos (by omega)]
  · rw [if_neg (by omega), if_neg (by omega), if_neg (by omega), if_neg (by omega)]

section
variable (s : State) {k : Fin 32} {w : Nat} (hflt : (s.slot k.val).flt = false)

include hflt in
/-- A pulse of class `c` counts in its field. -/
theorem fl_surge {c a hi lo : Nat} (hc : surgeClass w = c) (h0 : c ≠ 0) (hhi : (if c % 2 = 1 then 15 else 31) = hi)
    (hlo : (if c % 2 = 1 then 0 else 16) = lo) (ha : (if c < 3 then AON_SLOT_S12 k.val else AON_SLOT_S34 k.val) = a)
    (hle : lo ≤ hi) (h32 : hi < 32) :
    (surge s k.val w).fl a hi lo = min (2 ^ (hi + 1 - lo) - 1) (s.fl a hi lo + 1) := by
  have hk := k.isLt
  have hrange : AON_SLOT_S12 k.val = a ∨ AON_SLOT_S34 k.val = a := by
    rw [← ha]
    split
    · exact .inl rfl
    · exact .inr rfl
  have hne : a ≠ AON_SLOT_WEARLO k.val ∧ a ≠ AON_SLOT_WEARHI k.val ∧ a ≠ AON_IRQSTAT ∧ a ≠ SLOT_IRQSTAT ∧ a ≠ SLOT_STAT k.val := by
    unfold AON_SLOT_S12 AON_SLOT_S34 at hrange
    unfold AON_SLOT_WEARLO AON_SLOT_WEARHI AON_IRQSTAT SLOT_IRQSTAT SLOT_STAT
    omega
  obtain ⟨hwlo, hwhi, hirq, hsirq, hstat⟩ := hne
  have hcount := fl_satInc_self s a hi lo hle h32
  unfold surge
  dsimp only
  rw [if_neg (by simp [hflt]), hc, if_neg h0, ha, hhi, hlo, State.fl, rd_slotIrq _ _ hsirq, ← State.fl, ← hcount]
  generalize s.satInc a hi lo = u
  have hmark : (if 50000 ≤ w / 50 * 50 ∧ slotsLive u then u.setBt (SLOT_STAT k.val) 24 true else u).fl a hi lo = u.fl a hi lo := by
    split
    · exact fl_setBt_ne _ _ _ hstat _ _
    · rfl
  generalize (if 50000 ≤ w / 50 * 50 ∧ slotsLive u then u.setBt (SLOT_STAT k.val) 24 true else u) = v at *
  split
  · rw [fl_wearAdd_ne _ _ _ _ _ hwlo hwhi hirq, hmark]
  · exact hmark

include hflt in
theorem exec_surgePulse : (1000 ≤ w → w < 5000 → ∃ t, exec (.surgePulse k w) s = .next t ∧
        t.fl (AON_SLOT_S12 k.val) 15 0 = min 65535 (s.fl (AON_SLOT_S12 k.val) 15 0 + 1)) ∧
      (5000 ≤ w → w < 10000 → ∃ t, exec (.surgePulse k w) s = .next t ∧
        t.fl (AON_SLOT_S12 k.val) 31 16 = min 65535 (s.fl (AON_SLOT_S12 k.val) 31 16 + 1)) ∧
      (10000 ≤ w → w < 20000 → ∃ t, exec (.surgePulse k w) s = .next t ∧
        t.fl (AON_SLOT_S34 k.val) 15 0 = min 65535 (s.fl (AON_SLOT_S34 k.val) 15 0 + 1)) ∧
      (20000 ≤ w → ∃ t, exec (.surgePulse k w) s = .next t ∧
        t.fl (AON_SLOT_S34 k.val) 31 16 = min 65535 (s.fl (AON_SLOT_S34 k.val) 31 16 + 1)) ∧
      (w < 1000 → exec (.surgePulse k w) s = .next (close s)) := by
  have hk := k.isLt
  obtain ⟨h0, h1, h2, h3, h4⟩ := surgeClass_eq w
  have hlow12 : AON_SLOT_S12 k.val < 0x30000000 := by unfold AON_SLOT_S12; omega
  have hlow34 : AON_SLOT_S34 k.val < 0x30000000 := by unfold AON_SLOT_S34; omega
  refine ⟨fun h h' => ⟨close (surge s k.val w), rfl, ?_⟩, fun h h' => ⟨close (surge s k.val w), rfl, ?_⟩,
    fun h h' => ⟨close (surge s k.val w), rfl, ?_⟩, fun h => ⟨close (surge s k.val w), rfl, ?_⟩, fun h => ?_⟩
  · exact (fl_close_low _ _ _ hlow12).trans (fl_surge s hflt (h1 h h') (by decide) rfl rfl rfl (by decide) (by decide))
  · exact (fl_close_low _ _ _ hlow12).trans (fl_surge s hflt (h2 h h') (by decide) rfl rfl rfl (by decide) (by decide))
  · exact (fl_close_low _ _ _ hlow34).trans (fl_surge s hflt (h3 h h') (by decide) rfl rfl rfl (by decide) (by decide))
  · exact (fl_close_low _ _ _ hlow34).trans (fl_surge s hflt (h4 h) (by decide) rfl rfl rfl (by decide) (by decide))
  · have hsurge : surge s k.val w = s := by
      unfold surge
      dsimp only
      rw [if_neg (by simp [hflt]), h0 h, if_pos rfl]
    exact congrArg (fun u => Host.Outcome.next (close u)) hsurge

end

theorem exec_surgePulse_over (s : State) {k : Fin 32} (hflt : (s.slot k.val).flt = true) (w : Nat) :
    exec (.surgePulse k w) s = .next (close (slotFlt s k.val false)) :=
  congrArg (fun u => Host.Outcome.next (close u)) (if_pos hflt)

/-! ## What leaves the chip stays out (R430) -/

/-- `t` has put out what `s` has, and perhaps more. -/
def Emits (s t : State) : Prop := ∃ l, t.out = l ++ s.out

theorem Emits.of_eq {s t : State} (h : t.out = s.out) : Emits s t := ⟨[], h⟩

theorem Emits.trans {s t u : State} (h : Emits s t) (h' : Emits t u) : Emits s u := by
  obtain ⟨l, hl⟩ := h
  obtain ⟨l', hl'⟩ := h'
  exact ⟨l' ++ l, by rw [hl', hl, List.append_assoc]⟩

theorem Emits.mem {s t : State} (h : Emits s t) {o : Out} (ho : o ∈ s.out) : o ∈ t.out := by
  obtain ⟨l, hl⟩ := h
  rw [hl]
  exact List.mem_append_right l ho

theorem Emits.foldl {β : Type} {f : State → β → State} (hf : ∀ x b, Emits x (f x b)) (l : List β) (s : State) :
    Emits s (l.foldl f s) := by
  induction l generalizing s with
  | nil => exact .of_eq rfl
  | cons b l ih => exact (hf s b).trans (ih _)

theorem hxTsClear_out (s : State) (n : Nat) : (hxTsClear s n).out = s.out := by
  unfold hxTsClear
  split
  · rfl
  · exact (State.wr_out _ _ _).trans (State.wr_out _ _ _)

/-- The state in which a frame has left the sequencer. -/
theorem emits_hxSent (s : State) (n : Nat) (x : HxTx) : Emits s (hxSent s n x) := by
  have hclear (h : HxH) : Emits s ((hxTsClear (s.emit (.hx n x.data)) n).setHx n h) :=
    ⟨[.hx n x.data], (State.setHx_out _ _ _).trans (hxTsClear_out _ n)⟩
  unfold hxSent
  dsimp only
  have h0 := hclear { ((hxTsClear (s.emit (.hx n x.data)) n).hx n) with tx := none, idleFrom := x.endAt }
  generalize (hxTsClear (s.emit (.hx n x.data)) n).setHx n
    { ((hxTsClear (s.emit (.hx n x.data)) n).hx n) with tx := none, idleFrom := x.endAt } = u at *
  split_ifs
  · exact h0.trans (.of_eq (State.setHx_out _ _ _))
  · exact h0.trans (.of_eq (State.setHx_out _ _ _))
  · exact h0
  · exact h0.trans (.of_eq ((State.wr_out _ _ _).trans (State.wr_out _ _ _)))
  · exact h0

theorem emits_hxComplete (s : State) : Emits s (hxComplete s) := by
  refine .foldl (fun x n => ?_) _ s
  unfold hxEndOne
  split
  · split_ifs
    · exact emits_hxSent x n _
    · exact .of_eq rfl
  · exact .of_eq rfl

theorem emits_ftCheck (s : State) : Emits s (ftCheck s) := by
  unfold ftCheck
  split
  · have hund : Emits s ((ftRanges s).foldl (fun x r => x.undefine r.1 r.2) s) :=
      .foldl (f := fun (x : State) (r : Nat × Nat) => x.undefine r.1 r.2) (fun _ _ => .of_eq rfl) (ftRanges s) s
    exact hund.trans (.of_eq ((State.wr_out _ _ _).trans (State.wr_out _ _ _)))
  · exact .of_eq rfl

theorem emits_settle (s : State) : Emits s (settle s) := by
  unfold settle
  split
  · exact .of_eq rfl
  · exact ⟨_, rfl⟩

/-- The end of a command takes nothing back. -/
theorem emits_close (s : State) : Emits s (close s) := ((emits_hxComplete s).trans (emits_ftCheck _)).trans (emits_settle _)

/-! ## The end of a wear write (R430) -/

section
variable (s : State) {k : Fin 32}

/-- The write acknowledged: its page has left, no record waits, and SEQ has advanced. -/
def wearAcked (k : Nat) (r : WearRec) : State :=
  let u := s.emit (.wear k ((s.rd (SLOT_SEQ k)).toNat % 2) (wearPage s k r))
  ((u.setSlot k { u.slot k with writing := none }).setBt (AON_SLOT_WEARHI k) 30 false).wrapInc (SLOT_SEQ k) 31 0

theorem wearDone_writing {k : Nat} {r : WearRec} (hw : (s.slot k).writing = some r) : wearDone s k = wearNext (wearAcked s k r) k := by
  unfold wearDone
  rw [hw]
  rfl

theorem wearAcked_slot (k : Nat) (r : WearRec) : (wearAcked s k r).slot k = { s.slot k with writing := none } := by
  unfold wearAcked
  dsimp only
  rw [slotH_wrapInc, slotH_setBt, slotH_setSlot_self, slotH_emit]

/-- No write follows where none is due. -/
theorem wearNext_notDue {k : Nat} (h : (s.slot k).due = false) : wearNext s k = s := by
  rw [wearNext, if_neg (by simp [h])]

theorem exec_wearWriteDone {r : WearRec} (hw : (s.slot k.val).writing = some r) (hdue : (s.slot k.val).due = false) :
    ∃ t, exec (.wearWriteDone k) s = .next t ∧ (t.slot k.val).writing = none ∧
      t.bt (AON_SLOT_WEARHI k.val) 30 = false ∧ t.rd (SLOT_SEQ k.val) = s.rd (SLOT_SEQ k.val) + 1 ∧
      Out.wear k.val ((s.rd (SLOT_SEQ k.val)).toNat % 2) (wearPage s k.val r) ∈ t.out := by
  have hseq : SLOT_SEQ k.val ≠ AON_SLOT_WEARHI k.val := by have := k.isLt; unfold SLOT_SEQ AON_SLOT_WEARHI; omega
  have hacked := wearAcked_slot s k.val r
  have hrun : wearDone s k.val = wearAcked s k.val r := by
    rw [wearDone_writing s hw, wearNext_notDue _ (by rw [hacked]; exact hdue)]
  refine ⟨close (wearDone s k.val), rfl, ?_⟩
  rw [slotH_close, bt_close_wearHi _ _ _ k.isLt, close_rd _ (closeTouches_hb (by unfold SLOT_SEQ; omega)), hrun, hacked]
  refine ⟨rfl, ?_, ?_, (emits_close _).mem ?_⟩
  · rw [wearAcked, bt_wrapInc_ne _ _ hseq.symm, bt_setBt_self _ _ _ _ (by decide)]
  · rw [wearAcked, wrapInc_word, rd_wr_self, rd_setBt_ne _ _ _ hseq, rd_setSlot]
    rfl
  · exact List.mem_cons_self

theorem exec_wearWriteAbandon {r : WearRec} (hw : (s.slot k.val).writing = some r) (hdue : (s.slot k.val).due = false) :
    ∃ t, exec (.wearWriteAbandon k) s = .next t ∧ (t.slot k.val).writing = none ∧ (t.slot k.val).retry = 61 ∧
        t.bt (AON_SLOT_WEARHI k.val) 30 = s.bt (AON_SLOT_WEARHI k.val) 30 ∧
        t.fl (SLOT_STAT k.val) 15 8 = min 255 (s.fl (SLOT_STAT k.val) 15 8 + 1) ∧ t.bt SLOT_IRQSTAT 2 = true := by
  have hstat : AON_SLOT_WEARHI k.val ≠ SLOT_STAT k.val := by have := k.isLt; unfold SLOT_STAT AON_SLOT_WEARHI; omega
  have hab : wearAbandon s k.val =
      ((s.setSlot k.val { s.slot k.val with writing := none, retry := 61 }).satInc (SLOT_STAT k.val) 15 8).raise SLOT_IRQSTAT 0x4 :=
    if_neg (by simp [hw])
  have hslot : (wearAbandon s k.val).slot k.val = { s.slot k.val with writing := none, retry := 61 } := by
    rw [hab, slotH_raise, slotH_satInc, slotH_setSlot_self]
  have hrun : wearGiveUp s k.val = wearAbandon s k.val := by
    rw [wearGiveUp, if_neg (by simp [hw]), wearNext_notDue _ (by rw [hslot]; exact hdue)]
  refine ⟨close (wearGiveUp s k.val), rfl, ?_⟩
  rw [slotH_close, bt_close_wearHi _ _ _ k.isLt, close_fl _ _ _ (closeTouches_hb (by unfold SLOT_STAT; omega)),
    close_bt _ _ (closeTouches_hb (by decide)), hrun, hslot]
  refine ⟨rfl, rfl, ?_, ?_, ?_⟩
  · rw [hab, bt_raise_ne _ _ (wearHi_ne_slotIrq _), bt_satInc_ne _ _ hstat, bt_setSlot]
  · rw [hab, fl_raise_ne _ _ _ (slotStat_ne_irq _), fl_satInc_self _ _ _ _ (by decide) (by decide), fl_setSlot]
    norm_num
  · rw [hab]
    exact bt_raise _ (by decide)

end

/-! ## Identification (R421, R425 to R428) -/

section
variable (s : State) {k : Nat}

/-- The slot with what identification found of its level. -/
theorem slotIdentify_bad (hlive : slotsLive s = true) (hst : (s.slot k).state = 1) (id p0 p1 : List Byte) (flt : Bool) :
    slotIdentify s k false id p0 p1 flt = slotReject (s.setSlot k { s.slot k with flt := flt }) k := by
  rw [slotIdentify, if_neg (by simp [hlive, hst])]
  dsimp only
  rw [if_pos (.inl rfl)]

/-- A refused module stands without power in REJECT, counted and shown. -/
theorem slotReject_spec : ((slotReject s k).slot k).state = 5 ∧ ((slotReject s k).slot k).en = false ∧
    (slotReject s k).fl (SLOT_STAT k) 7 0 = min 255 (s.fl (SLOT_STAT k) 7 0 + 1) ∧ (slotReject s k).bt SLOT_IRQSTAT 1 = true := by
  obtain ⟨u, hu⟩ : ∃ u, (if (s.slot k).en then s.setSlot k { s.slot k with en := false } else s) = u := ⟨_, rfl⟩
  have hen : (u.slot k).en = false := by
    rw [← hu]
    split
    · rw [slotH_setSlot_self]
    · exact Bool.eq_false_of_not_eq_true ‹_›
  have hfl : u.fl (SLOT_STAT k) 7 0 = s.fl (SLOT_STAT k) 7 0 := by
    rw [← hu]
    split
    · exact fl_setSlot _ _ _ _ _ _
    · rfl
  rw [slotReject]
  dsimp only
  rw [hu]
  refine ⟨?_, ?_, ?_, bt_raise _ (by decide)⟩
  · rw [slotH_raise, slotH_satInc, slotH_slotTo]
  · rw [slotH_raise, slotH_satInc, slotH_slotTo, slotH_setSlot_self]
    exact hen
  · rw [fl_raise_ne _ _ _ (slotStat_ne_irq k), fl_satInc_self _ _ _ _ (by decide) (by decide), fl_slotTo _ _ _ _ _ (slotStat_ne_irq k),
      fl_setSlot, hfl]
    norm_num

end

end Sys2Proof.Machine

/-! SUPPORT. The identification of a module that no record names (R425 to R428). -/

namespace Sys2Proof.Machine

theorem leAt_lt (l : List Byte) (i n : Nat) : leAt l i n < 2 ^ (8 * n) := by
  have hlt := leNat_lt ((l.drop i).take n)
  have hlen : ((l.drop i).take n).length ≤ n := List.length_take_le _ _
  calc leAt l i n < 256 ^ ((l.drop i).take n).length := hlt
    _ ≤ 256 ^ n := Nat.pow_le_pow_right (by decide) hlen
    _ = 2 ^ (8 * n) := by rw [show 256 = 2 ^ 8 by norm_num, ← pow_mul]

section
variable (s : State) (k : Nat)

/-! ## The identity record in AON_IDW (R425) -/

theorem idw_foldl (id : List Byte) (n : Nat) : (∀ a, (∀ j < n, a ≠ AON_IDW k j) →
      ((List.range n).foldl (fun s j => s.wr (AON_IDW k j) (BitVec.ofNat 32 (leAt id (4 * j) 4))) s).rd a = s.rd a) ∧
    ∀ j < n, ((List.range n).foldl (fun s j => s.wr (AON_IDW k j) (BitVec.ofNat 32 (leAt id (4 * j) 4))) s).rd (AON_IDW k j) =
      BitVec.ofNat 32 (leAt id (4 * j) 4) := by
  induction n with
  | zero => exact ⟨fun _ _ => rfl, fun j hj => absurd hj (by omega)⟩
  | succ n ih =>
    obtain ⟨hother, hidw⟩ := ih
    simp only [List.range_succ, List.foldl_append, List.foldl_cons, List.foldl_nil]
    refine ⟨fun a ha => ?_, fun j hj => ?_⟩
    · rw [rd_wr_ne _ _ (ha n (by omega)), hother a fun j hj => ha j (by omega)]
    · by_cases hjn : j = n
      · rw [hjn, rd_wr_self]
      · rw [rd_wr_ne _ _ (by unfold AON_IDW; omega), hidw j (by omega)]

theorem rd_setIdw_ne (id : List Byte) {a : Nat} (h : ∀ j < 16, a ≠ AON_IDW k j) : (setIdw s k id).rd a = s.rd a :=
  (idw_foldl s k id 16).1 a h

theorem rd_setIdw (id : List Byte) {j : Nat} (h : j < 16) :
    (setIdw s k id).rd (AON_IDW k j) = BitVec.ofNat 32 (leAt id (4 * j) 4) := (idw_foldl s k id 16).2 j h

/-! ## The record (R427) -/

/-- A record put in place: its wear, its insertions, and the registers that are not the record's. -/
theorem setRec_spec {r : WearRec} (hr : r.wear < 2 ^ 48) : wearOf (setRec s k r) k = r.wear ∧
    (setRec s k r).fl (AON_SLOT_INSOCT k) 31 16 = r.ins % 2 ^ 16 ∧
    ∀ a, (a < AON_SLOT_WEARLO k ∨ AON_SLOT_INSOCT k < a) → (setRec s k r).rd a = s.rd a := by
  unfold setRec
  dsimp only
  refine ⟨?_, ?_, fun a ha => ?_⟩
  · have hne : ∀ o ∈ [AON_SLOT_OPSEC k, AON_SLOT_S12 k, AON_SLOT_S34 k, AON_SLOT_INSOCT k], AON_SLOT_WEARLO k ≠ o ∧ AON_SLOT_WEARHI k ≠ o := by
      simp only [List.forall_mem_cons, List.not_mem_nil, false_implies, implies_true, and_true]
      unfold AON_SLOT_OPSEC AON_SLOT_S12 AON_SLOT_S34 AON_SLOT_INSOCT AON_SLOT_WEARLO AON_SLOT_WEARHI
      omega
    simp only [List.forall_mem_cons, List.not_mem_nil, false_implies, implies_true, and_true] at hne
    obtain ⟨hop, h12, h34, hoct⟩ := hne
    rw [wearOf_wr_ne _ _ _ hoct.1 hoct.2, wearOf_wr_ne _ _ _ h34.1 h34.2, wearOf_wr_ne _ _ _ h12.1 h12.2, wearOf_wr_ne _ _ _ hop.1 hop.2,
      wearOf_setWear _ _ hr]
  · rw [State.fl, rd_wr_self]
    simp only [fld, BitVec.toNat_ofNat]
    omega
  · unfold AON_SLOT_WEARLO AON_SLOT_INSOCT at ha
    have hne : a ≠ AON_SLOT_WEARLO k ∧ a ≠ AON_SLOT_WEARHI k ∧ a ≠ AON_SLOT_OPSEC k ∧ a ≠ AON_SLOT_S12 k ∧ a ≠ AON_SLOT_S34 k ∧
        a ≠ AON_SLOT_INSOCT k := by
      unfold AON_SLOT_OPSEC AON_SLOT_S12 AON_SLOT_S34 AON_SLOT_INSOCT AON_SLOT_WEARLO AON_SLOT_WEARHI
      omega
    obtain ⟨hlo, hhi, hop, h12, h34, hoct⟩ := hne
    rw [rd_wr_ne _ _ hoct, rd_wr_ne _ _ h34, rd_wr_ne _ _ h12, rd_wr_ne _ _ hop, setWear, rd_setFl_ne _ _ _ _ hhi, rd_wr_ne _ _ hlo]

/-- The record in place, its mark set and the insertion counted. -/
def recIn (id : List Byte) (r : WearRec) : State :=
  ((setRec (setIdw s k id) k r).setBt (AON_SLOT_WEARHI k) 31 true).satInc (AON_SLOT_INSOCT k) 31 16

theorem chargeIn_eq (id : List Byte) (r : WearRec) : chargeIn s k id r = calEval (wearAdd (recIn s k id r) k (16 * leAt id 56 4)) := rfl

theorem wearHi_ne_insoct : AON_SLOT_WEARHI k ≠ AON_SLOT_INSOCT k := by unfold AON_SLOT_WEARHI AON_SLOT_INSOCT; omega
theorem wearLo_ne_insoct : AON_SLOT_WEARLO k ≠ AON_SLOT_INSOCT k := by unfold AON_SLOT_WEARLO AON_SLOT_INSOCT; omega

theorem recIn_spec (id : List Byte) : wearOf (recIn s k id {}) k = 0 ∧ recValid (recIn s k id {}) k = true ∧
    (recIn s k id {}).fl (AON_SLOT_INSOCT k) 31 16 = 1 ∧
    ∀ a, (a < AON_SLOT_WEARLO k ∨ AON_SLOT_INSOCT k < a) → (recIn s k id {}).rd a = (setIdw s k id).rd a := by
  obtain ⟨hw, hins, hrd⟩ := setRec_spec (setIdw s k id) k (r := {}) (by decide)
  rw [recIn]
  generalize setRec (setIdw s k id) k {} = u at *
  refine ⟨?_, ?_, ?_, fun a ha => ?_⟩
  · rw [State.satInc, State.setFl, wearOf_wr_ne _ _ _ (wearLo_ne_insoct k) (wearHi_ne_insoct k), wearOf_setBt _ _ _ (by decide) (by decide), hw]
  · rw [recValid, bt_satInc_ne _ _ (wearHi_ne_insoct k), bt_setBt_self _ _ _ _ (by decide)]
  · rw [fl_satInc_self _ _ _ _ (by decide) (by decide), fl_setBt_ne _ _ _ (wearHi_ne_insoct k).symm, hins]
    decide
  · unfold AON_SLOT_WEARLO AON_SLOT_INSOCT at ha
    rw [rd_satInc_ne _ _ _ _ (by unfold AON_SLOT_INSOCT; omega), rd_setBt_ne _ _ _ (by unfold AON_SLOT_WEARHI; omega),
      hrd a (by unfold AON_SLOT_WEARLO AON_SLOT_INSOCT; omega)]

/-- The insertion of a module without a record (R427, R428). -/
theorem chargeIn_new (hk : k < 32) (id : List Byte) : recValid (chargeIn s k id {}) k = true ∧
    wearOf (chargeIn s k id {}) k = 16 * leAt id 56 4 ∧ (chargeIn s k id {}).fl (AON_SLOT_INSOCT k) 31 16 = 1 ∧
    (∀ j < 16, (chargeIn s k id {}).rd (AON_IDW k j) = BitVec.ofNat 32 (leAt id (4 * j) 4)) ∧
    ∀ a, 0x10000000 ≤ a → (chargeIn s k id {}).rd a = s.rd a := by
  obtain ⟨hw, hvalid, hins, hrd⟩ := recIn_spec s k id
  rw [chargeIn_eq]
  generalize recIn s k id {} = u at *
  have hcal := calFrame_calEval (wearAdd u k (16 * leAt id 56 4))
  have hlt := leAt_lt id 56 4
  have hkept {a : Nat} (h : a = AON_SLOT_INSOCT k ∨ 0x08000800 ≤ a) :
      (calEval (wearAdd u k (16 * leAt id 56 4))).rd a = u.rd a := by
    unfold AON_SLOT_INSOCT at h
    rw [hcal.rd a (by omega) (by unfold AON_IRQSTAT; omega) (fun j hj => by unfold AON_SLOT_WEARHI; omega),
      rd_wearAdd_ne _ _ _ (by unfold AON_SLOT_WEARLO; omega) (by unfold AON_SLOT_WEARHI; omega) (by unfold AON_IRQSTAT; omega)]
  refine ⟨?_, ?_, ?_, fun j hj => ?_, fun a ha => ?_⟩
  · rw [recValid, hcal.hi k 31 (by decide)]
    exact (recValid_wearAdd u k _).trans hvalid
  · rw [hcal.wearOf, wearOf_wearAdd, hw]
    omega
  · rw [State.fl, hkept (.inl rfl), ← State.fl, hins]
  · rw [hkept (.inr (by unfold AON_IDW; omega)), hrd _ (by unfold AON_SLOT_WEARLO AON_SLOT_INSOCT AON_IDW; omega), rd_setIdw s k id hj]
  · rw [hkept (.inr (by omega)), hrd _ (by unfold AON_SLOT_WEARLO AON_SLOT_INSOCT; omega),
      rd_setIdw_ne s k id (fun j hj => by unfold AON_IDW; omega)]

/-! ## The row (R427) -/

theorem sameModule_of_regs {s t : State} (h : t.regs = s.regs) (k : Nat) (id : List Byte) : sameModule t k id = sameModule s k id := by
  simp only [sameModule, recValid, bt_of_regs h, rd_of_regs h]

/-- A module that no record names and that brings none is loaded with an empty one. -/
theorem slotLoad_new (id : List Byte) (hsame : sameModule s k id = false) : slotLoad s k id none =
    chargeIn (((newModule s k id).wr (SLOT_SEQ k) 0).setBt (AON_SLOT_WEARHI k) 30 false) k id {} := by
  unfold slotLoad
  rw [hsame]
  rfl

/-- A good module that no record names and that brings none enters OFF. -/
theorem slotIdentify_new {id p0 p1 : List Byte} (hlive : slotsLive s = true) (hst : (s.slot k).state = 1) (hid : idGood id = true)
    (hcfg : s.rd (SLOT_CFG k) = 0) (hback : (s.slot k).rejoin = false) (h0 : readPage p0 = none) (h1 : readPage p1 = none) (flt : Bool) :
    ∃ u, u.regs = s.regs ∧ slotIdentify s k true id p0 p1 flt = slotTo (slotLoad u k id none) k 2 := by
  refine ⟨(s.setSlot k { s.slot k with flt := flt }).setSlot k
    { (s.setSlot k { s.slot k with flt := flt }).slot k with en := false, rejoin := false },
    (State.setSlot_regs _ _ _).trans (State.setSlot_regs _ _ _), ?_⟩
  have hslot : ((s.setSlot k { s.slot k with flt := flt }).slot k).rejoin = false := by rw [slotH_setSlot_self]; exact hback
  have hrd : (s.setSlot k { s.slot k with flt := flt }).rd (SLOT_CFG k) = 0 := hcfg
  rw [slotIdentify, if_neg (by simp [hlive, hst])]
  dsimp only
  generalize s.setSlot k { s.slot k with flt := flt } = v at *
  have hany : fld 0 15 8 = 0 := by decide
  have hadmit : bitAt 0 30 = false ∧ bitAt 0 31 = false := by decide
  rw [hrd, hslot, h0, h1, hid, hany, hadmit.1, hadmit.2, if_neg (by simp), if_neg (by simp), if_neg (by simp), Bool.false_and,
    if_neg (by simp), Bool.false_and, if_neg (by simp)]
  rfl

theorem exec_slotIdentify_new {k : Fin 32} {id p0 p1 : List Byte} (flt : Bool) (hlive : slotsLive s = true)
    (hst : (s.slot k.val).state = 1) (hid : idGood id = true) (hcfg : s.rd (SLOT_CFG k.val) = 0) (hback : (s.slot k.val).rejoin = false)
    (hsame : sameModule s k.val id = false) (h0 : readPage p0 = none) (h1 : readPage p1 = none) :
    ∃ t, exec (.slotIdentify k true id p0 p1 flt) s = .next t ∧ (t.slot k.val).state = 2 ∧
        recValid t k.val = true ∧ wearOf t k.val = 16 * leAt id 56 4 ∧ t.fl (AON_SLOT_INSOCT k.val) 31 16 = 1 ∧
        t.rd (SLOT_SEQ k.val) = 0 ∧ ∀ j < 16, t.rd (AON_IDW k.val j) = BitVec.ofNat 32 (leAt id (4 * j) 4) := by
  have hk := k.isLt
  obtain ⟨u, hu, hrun⟩ := slotIdentify_new s k.val hlive hst hid hcfg hback h0 h1 flt
  refine ⟨close (slotIdentify s k.val true id p0 p1 flt), rfl, ?_⟩
  rw [hrun, slotLoad_new u k.val id ((sameModule_of_regs hu _ _).trans hsame), slotH_close, slotH_slotTo]
  have hseq : (((newModule u k.val id).wr (SLOT_SEQ k.val) 0).setBt (AON_SLOT_WEARHI k.val) 30 false).rd (SLOT_SEQ k.val) = 0 := by
    rw [rd_setBt_ne _ _ _ (by unfold SLOT_SEQ AON_SLOT_WEARHI; omega), rd_wr_self]
  generalize ((newModule u k.val id).wr (SLOT_SEQ k.val) 0).setBt (AON_SLOT_WEARHI k.val) 30 false = v at *
  obtain ⟨hvalid, hw, hins, hidw, hrd⟩ := chargeIn_new v k.val hk id
  generalize chargeIn v k.val id {} = x at *
  have hlow {a : Nat} (h : a < 0x30000000) : (close (slotTo x k.val 2)).rd a = x.rd a := by
    rw [close_rd _ (closeTouches_low h), rd_slotTo _ _ _ (by unfold SLOT_IRQSTAT; omega)]
  refine ⟨rfl, ?_, ?_, ?_, ?_, fun j hj => ?_⟩
  · rw [recValid, State.bt, hlow (by unfold AON_SLOT_WEARHI; omega)]
    exact hvalid
  · rw [wearOf_of_rd (s := x) (hlow (by unfold AON_SLOT_WEARLO; omega))
      (by rw [State.fl, hlow (by unfold AON_SLOT_WEARHI; omega), State.fl]), hw]
  · rw [State.fl, hlow (by unfold AON_SLOT_INSOCT; omega), ← State.fl, hins]
  · rw [close_rd _ (closeTouches_hb (by unfold SLOT_SEQ; omega)), rd_slotTo _ _ _ (by unfold SLOT_SEQ SLOT_IRQSTAT; omega),
      hrd _ (by unfold SLOT_SEQ; omega), hseq]
  · rw [hlow (by unfold AON_IDW; omega), hidw j hj]

theorem exec_slotIdentify_bad {k : Fin 32} (id p0 p1 : List Byte) (flt : Bool) (hlive : slotsLive s = true)
    (hst : (s.slot k.val).state = 1) : ∃ t, exec (.slotIdentify k false id p0 p1 flt) s = .next t ∧ (t.slot k.val).state = 5 ∧
      (t.slot k.val).en = false ∧ t.fl (SLOT_STAT k.val) 7 0 = min 255 (s.fl (SLOT_STAT k.val) 7 0 + 1) ∧ t.bt SLOT_IRQSTAT 1 = true := by
  refine ⟨close (slotIdentify s k.val false id p0 p1 flt), rfl, ?_⟩
  rw [slotH_close, close_fl _ _ _ (closeTouches_hb (by unfold SLOT_STAT; omega)), close_bt _ _ (closeTouches_hb (by decide)),
    slotIdentify_bad s hlive hst]
  exact slotReject_spec (s.setSlot k.val { s.slot k.val with flt := flt })

end

/-- Settles O59: each row by the frame of its slot, identification by the record put in place and the insertion charged. -/
theorem lineModuleSlots : Obligations.LineModuleSlots := by
  unfold Obligations.LineModuleSlots
  rintro s m k h rfl
  refine ⟨exec_slotRemove s, exec_slotInsert s, fun id p0 p1 flt hlive hst => ⟨exec_slotIdentify_bad s id p0 p1 flt hlive hst,
    fun hid hcfg hback hsame h0 h1 => exec_slotIdentify_new s flt hlive hst hid hcfg hback hsame h0 h1⟩,
    fun hs ho hsup => ⟨exec_slotOn hs ho hsup, exec_slotOff hs ho hsup,
      fun hst hflt => exec_slotClear_of hs ho hsup (slotCommand_clearFault hst hflt),
      fun hst => exec_slotClear_of hs ho hsup (slotCommand_clearReject hst)⟩,
    exec_slotOvercurrent s, exec_surgePulse_over s, fun w hflt => exec_surgePulse s hflt,
    fun x hx hlive hst => exec_slotTempRead s hx hlive hst,
    fun r hw hdue => ⟨exec_wearWriteDone s hw hdue, exec_wearWriteAbandon s hw hdue⟩, exec_wearWriteRetry s⟩

end Sys2Proof.Machine

/-! SUPPORT. The control pairs: their registers in the windows, and the events that reset and release them (R336 to R349). -/

namespace Sys2Proof.Machine

/-! ## A register of a pair in its windows (R341) -/

section
variable {m : Master} {p : Fin 2} {o : Nat} (ho : o < 0x10000)

theorem pairNo_toNat (p : Fin 2) : (p.val == 1).toNat = p.val := by
  obtain rfl | rfl : p = 0 ∨ p = 1 := by omega
  · rfl
  · rfl

include ho in
/-- A pair sees its own registers in its own window. -/
theorem localAddr_pl : localAddr m.val (0x40810000 + p.val * 0x10000 + o) =
    if m.val = 9 + p.val then 0x40800000 + o else 0x40810000 + p.val * 0x10000 + o := by
  have hp := p.isLt
  rw [localAddr]
  split_ifs <;> omega

theorem ctxRegion_pl : ctxRegion m (.pair (p.val == 1)) = if m.val = 9 + p.val then .plOwn else .pl p.val := by
  simp only [ctxRegion, pairNo_toNat]

include ho in
theorem routed_pl (v : Word) : routed m (localAddr m.val (0x40810000 + p.val * 0x10000 + o)) (ctxRegion m (.pair (p.val == 1))) v = v := by
  have hp := p.isLt
  have hnone : routeKind (if ctxRegion m (.pair (p.val == 1)) = .plOwn then
      ownWindow m.val (localAddr m.val (0x40810000 + p.val * 0x10000 + o))
      else localAddr m.val (0x40810000 + p.val * 0x10000 + o)) = none := by
    refine routeKind_ctx (.inr ?_)
    rw [localAddr_pl ho, ownWindow]
    split_ifs <;> omega
  rw [routed, hnone]
  rfl

include ho in
theorem targetWrite_pl (s : State) (v : Word) :
    targetWrite s m.val (localAddr m.val (0x40810000 + p.val * 0x10000 + o)) (ctxRegion m (.pair (p.val == 1))) v = plWrite s p.val o v := by
  rw [localAddr_pl ho, ctxRegion_pl]
  split_ifs with hm
  · have hoff : (0x40800000 + o) % 0x10000 = o := by omega
    simp only [targetWrite, maskedTarget, Bool.and_false, Bool.false_eq_true, if_false, hoff, hm, Nat.add_sub_cancel_left]
  · have hoff : (0x40810000 + p.val * 0x10000 + o) % 0x10000 = o := by omega
    simp only [targetWrite, maskedTarget, Bool.and_false, Bool.false_eq_true, if_false, hoff]

theorem maskedCell_pl : maskedCell (ctxRegion m (.pair (p.val == 1))) = false := by
  rw [ctxRegion_pl]
  split_ifs <;> rfl

include ho in
/-- A write of a pair's register that its rules accept. -/
theorem writeRow_pl {s u : State} (h : opens s m (localAddr m.val (0x40810000 + p.val * 0x10000 + o)) (ctxRegion m (.pair (p.val == 1))))
    {v : Word} (hw : plWrite s p.val o v = (u, .ok 0)) (hu : noSteps u) :
    writeRow s m (localAddr m.val (0x40810000 + p.val * 0x10000 + o)) v = .next (answered u (.ok 0)) := by
  refine writeRow_accept h (.inl maskedCell_pl) ?_ hu
  rw [routed_pl ho, targetWrite_pl ho, hw]

include ho in
/-- A write that they refuse is logged. -/
theorem writeRow_pl_refuse {s : State}
    (h : opens s m (localAddr m.val (0x40810000 + p.val * 0x10000 + o)) (ctxRegion m (.pair (p.val == 1)))) {v : Word}
    (hw : plWrite s p.val o v = (s, .err 3)) (hs : noSteps s) :
    writeRow s m (localAddr m.val (0x40810000 + p.val * 0x10000 + o)) v =
      .next (answered (logErr s m.val (localAddr m.val (0x40810000 + p.val * 0x10000 + o)) true 3) (.err 3)) := by
  refine writeRow_refuse h (.inl maskedCell_pl) ?_ (noSteps_of_ctxH hs (logErr_ctxH ..))
  rw [routed_pl ho, targetWrite_pl ho, hw]

end

/-! ## The caches and the protection regions (R336, R337, R339) -/

section
variable {s : State} {m : Master} {p : Fin 2}

theorem exec_invalidateCaches (hs : noSteps s) (h : opens s m (localAddr m.val (ARB_PL_CACHE p.val)) (ctxRegion m (.pair (p.val == 1)))) :
    (∃ t, exec (.invalidateDcache m p) s = .next t ∧ t.resp = .ok 0 ∧ t.icache = s.icache ∧
        t.dcache = s.dcache.filter (fun e => e.1 / 2 ^ 32 != p.val)) ∧
      ∃ t, exec (.invalidateIcache m p) s = .next t ∧ t.resp = .ok 0 ∧ t.dcache = s.dcache ∧
        t.icache = s.icache.filter (fun e => e.1 / 2 ^ 32 != p.val) := by
  have hd : plWrite s p.val 4 2 = (cacheDrop s p.val true false, .ok 0) := rfl
  have hi : plWrite s p.val 4 1 = (cacheDrop s p.val false true, .ok 0) := rfl
  refine ⟨⟨_, writeRow_pl (by decide) h hd (noSteps_of_ctxH hs rfl), answered_resp _ _, ?_, ?_⟩,
    ⟨_, writeRow_pl (by decide) h hi (noSteps_of_ctxH hs rfl), answered_resp _ _, ?_, ?_⟩⟩
  · exact close_icache _
  · exact close_dcache _
  · exact close_dcache _
  · exact close_icache _

/-- The words of a region: base and limit hold pages, the attributes five bits. -/
theorem regDesc_rgn (i : Fin 32) (o : Fin 3) : regDesc (rgn p.val i.val (4 * o.val)) =
    some ⟨if o.val = 2 then 0x1F else 0xFFFFF000, 0, 0, 0, 0, 0⟩ := by
  have hp := p.isLt
  have hi := i.isLt
  have hoff : rgn p.val i.val (4 * o.val) % 0x10000 = 0x400 + i.val * 0x10 + 4 * o.val := by unfold rgn; omega
  have hblock : regDesc (rgn p.val i.val (4 * o.val)) = plDesc (0x400 + i.val * 0x10 + 4 * o.val) := by
    rw [← hoff]
    unfold regDesc
    simp (disch := (unfold rgn; omega)) only [if_neg, if_pos]
  rw [hblock]
  unfold plDesc
  match o with
  | 0 | 1 | 2 =>
    simp (disch := omega) only [if_neg, if_pos]

theorem closeTouches_rgn (i : Fin 32) (o : Fin 3) : closeTouches (rgn p.val i.val (4 * o.val)) = false :=
  closeTouches_hb (by unfold rgn; omega)

theorem plWrite_region (i : Fin 32) (o : Fin 3) (v : Word) : plWrite s p.val (0x400 + i.val * 0x10 + 4 * o.val) v =
    if rgnRefuses s p.val i.val (4 * o.val) v then refuse s else accept (s.softWrite (rgn p.val i.val (4 * o.val)) v) := by
  have ho := o.isLt
  have hi : (0x400 + i.val * 0x10 + 4 * o.val - 0x400) / 0x10 = i.val := by omega
  have hr : (0x400 + i.val * 0x10 + 4 * o.val) % 0x10 = 4 * o.val := by omega
  have ha : ARB_PL_ID p.val + (0x400 + i.val * 0x10 + 4 * o.val) = rgn p.val i.val (4 * o.val) := by unfold ARB_PL_ID rgn; omega
  rw [plWrite, if_neg (by omega), if_neg (by omega), if_pos (by omega), hi, hr, ha]

/-- The fields of a region after its write. -/
theorem region_written (s : State) (i : Fin 32) (o : Fin 3) (v : Word) :
    (s.softWrite (rgn p.val i.val (4 * o.val)) v).fl (rgn p.val i.val (4 * o.val)) 31 12 =
      (if o.val = 2 then s.fl (rgn p.val i.val (4 * o.val)) 31 12 else fld v 31 12) ∧
    (o.val = 2 → (s.softWrite (rgn p.val i.val (4 * o.val)) v).fl (rgn p.val i.val (4 * o.val)) 4 0 = fld v 4 0) := by
  have hdesc := regDesc_rgn (p := p) i o
  by_cases h2 : o.val = 2
  · rw [if_pos h2] at hdesc ⊢
    refine ⟨fl_softWrite_kept s hdesc (fun j _ _ => ?_) (by decide) v, fun _ => fl_softWrite_self s hdesc (fun j _ _ => ?_) (by decide) v⟩
    · interval_cases j <;> decide
    · interval_cases j <;> decide
  · rw [if_neg h2] at hdesc ⊢
    refine ⟨fl_softWrite_self s hdesc (fun j _ _ => ?_) (by decide) v, fun h => absurd h h2⟩
    interval_cases j <;> decide

theorem exec_regionWrite (hs : noSteps s) (v : Word) (i : Fin 32) (o : Fin 3)
    (h : opens s m (localAddr m.val (rgn p.val i.val (4 * o.val))) (ctxRegion m (.pair (p.val == 1)))) :
    (rgnRefuses s p.val i.val (4 * o.val) v = false → ∃ t, exec (.regionWrite m p i o v) s = .next t ∧ t.resp = .ok 0 ∧
        t.fl (rgn p.val i.val (4 * o.val)) 31 12 = (if o.val = 2 then s.fl (rgn p.val i.val (4 * o.val)) 31 12 else fld v 31 12) ∧
        (o.val = 2 → t.fl (rgn p.val i.val (4 * o.val)) 4 0 = fld v 4 0)) ∧
      (s.bt (ARB_PL_PLOCK p.val) 0 = true → ∃ t, exec (.regionWrite m p i o v) s = .next t ∧ t.resp = .err 3 ∧
        t.rd (rgn p.val i.val (4 * o.val)) = s.rd (rgn p.val i.val (4 * o.val))) := by
  have hlt : 0x400 + i.val * 0x10 + 4 * o.val < 0x10000 := by omega
  have hclose := closeTouches_rgn (p := p) i o
  have hwrite := plWrite_region (s := s) (p := p) i o v
  have haddr : rgn p.val i.val (4 * o.val) = 0x40810000 + p.val * 0x10000 + (0x400 + i.val * 0x10 + 4 * o.val) := by unfold rgn; omega
  have hrow : exec (.regionWrite m p i o v) s =
      writeRow s m (localAddr m.val (0x40810000 + p.val * 0x10000 + (0x400 + i.val * 0x10 + 4 * o.val))) v := by
    refine congrArg (fun a => writeRow s m (localAddr m.val a) v) ?_
    unfold ARB_PL_RBASE
    omega
  have hopen : opens s m (localAddr m.val (0x40810000 + p.val * 0x10000 + (0x400 + i.val * 0x10 + 4 * o.val)))
      (ctxRegion m (.pair (p.val == 1))) := haddr ▸ h
  refine ⟨fun hok => ?_, fun hlock => ?_⟩
  · rw [hok, if_neg Bool.false_ne_true, accept] at hwrite
    obtain ⟨hpage, hattr⟩ := region_written (p := p) s i o v
    refine ⟨answered (s.softWrite (rgn p.val i.val (4 * o.val)) v) (.ok 0), 
      hrow.trans (writeRow_pl hlt hopen hwrite (noSteps_softWrite hs _ _)), answered_resp _ _, ?_, fun h2 => ?_⟩
    · rw [State.fl, rd_answered _ _ hclose, ← State.fl, hpage]
    · rw [State.fl, rd_answered _ _ hclose, ← State.fl, hattr h2]
  · have href : rgnRefuses s p.val i.val (4 * o.val) v = true := by
      rw [rgnRefuses]
      simp only [hlock, Bool.true_or]
    rw [href, if_pos rfl, refuse] at hwrite
    refine ⟨_, hrow.trans (writeRow_pl_refuse hlt hopen hwrite hs), answered_resp _ _, ?_⟩
    rw [rd_answered _ _ hclose, rd_logErr _ _ _ _ _ (.inr (by unfold rgn; omega))]

end

/-! ## The arbiter's part (R343, R349) -/

theorem routeKind_arb {a : Nat} (h : 0x39000000 ≤ a ∧ a < 0x39010000) (hr : a ≠ ARB_IRQROUTE) : routeKind a = none := by
  unfold ARB_IRQROUTE at hr
  unfold routeKind TU_IRQROUTE IMG_IRQROUTE LDR_IRQROUTE SW_IRQROUTE MEM_IRQROUTE MEM_DG_IRQROUTE ARB_IRQROUTE HB_IRQROUTE
    SLOT_IRQROUTE PMU_IRQROUTE AON_IRQROUTE
  simp (disch := omega) only [if_neg]

/-- A write of an ARB_ register that its rules accept. -/
theorem writeRow_arb {s u : State} {m : Master} {a : Nat} {v : Word} (ho : opens s m a .arb)
    (ha : 0x39000000 ≤ a ∧ a < 0x39010000) (hr : a ≠ ARB_IRQROUTE) (hw : arbWrite s m.val (a % 0x10000) v = (u, .ok 0))
    (hu : noSteps u) : writeRow s m a v = .next (answered u (.ok 0)) := by
  refine writeRow_accept ho (.inl rfl) ?_ hu
  have hrouted : routed m a .arb v = v := if_neg (by rw [if_neg (by decide), routeKind_arb ha hr]; decide)
  rw [hrouted, targetWrite_arb, hw]

theorem arbWrite_rearm {s : State} {m : Nat} {p : Fin 2} (hok : rearmOk s m p.val = true) :
    arbWrite s m (ARB_CMD % 0x10000) (BitVec.ofNat 32 (6 + 256 * p.val)) = (arbRearm s p.val, .ok 0) := by
  have hpair : fld (BitVec.ofNat 32 (6 + 256 * p.val)) 8 8 = p.val := by
    obtain rfl | rfl : p = 0 ∨ p = 1 := by omega
    · rfl
    · rfl
  have hop : fld (BitVec.ofNat 32 (6 + 256 * p.val)) 3 0 = 6 := by
    obtain rfl | rfl : p = 0 ∨ p = 1 := by omega
    · rfl
    · rfl
  have hcmd : arbWrite s m (ARB_CMD % 0x10000) (BitVec.ofNat 32 (6 + 256 * p.val)) =
      arbCmdWrite s m (BitVec.ofNat 32 (6 + 256 * p.val)) := by
    rw [arbWrite, if_neg (by decide), if_pos (by decide)]
  rw [hcmd, arbCmdWrite, hpair, hop, if_pos rfl, if_pos hok, accept]

theorem lockstepFault_live {s : State} {p : Nat} (h : inReset s (8 + p) = false) : lockstepFault s p =
    spareCheck (narrowChange ((countFault (heldDiscard s p) p).raise ARB_IRQSTAT 0x20)
      (fun s => s.setBt ARB_STATUS (stBit p 1) true) 0x800 3) := by
  rw [lockstepFault, if_neg (by simp [h])]

theorem spareCheck_due {u : State} (h : spareDue u = true) :
    spareCheck u = narrowChange u (fun s => s.setBt ARB_STATUS 25 false) 0 5 := by
  rw [spareCheck, if_pos h]

/-- Settles O51: the windows on a pair's registers, and each event of the arbiter as its rule. -/
theorem controlPairs : Obligations.ControlPairs := by
  unfold Obligations.ControlPairs
  rintro s m p v r rfl hs
  refine ⟨fun hlive => ?_, exec_invalidateCaches hs, ?_, ?_, ?_⟩
  · exact congrArg (fun u => Host.Outcome.next (close u)) (lockstepFault_live hlive)
  · rintro i o a rfl ho
    exact exec_regionWrite hs v i o ho
  · rintro u ho hok rfl hu
    exact writeRow_arb ho (by decide) (by decide) (arbWrite_rearm hok) hu
  · intro dt u hu hdue
    have hexec : exec (.unclaimedHeartbeatAgeExpiry dt) s = .next (close (spareCheck (elapse s dt))) := rfl
    rw [hexec, ← hu, spareCheck_due hdue]

end Sys2Proof.Machine

/-! SUPPORT. A frame received where the bound cell is listed behind the error counters (R79, R279, R280). -/

namespace Sys2Proof.Machine

/-- A controller in ACTIVE with REC 1 and a valid capture of cell 0. The register that binds cell 0 is listed behind CAN_ERR: a list
that is not in the canonical form of the stores, in which keys rise. -/
def shadowedBinding : State :=
  { regs := [(CELL_TSB_SEC 0, 0x80), (CAN_STATUS 0, 0x80000000), (CAN_ERR 0, 0x10000), (0x30000008, 1)], ldrHold := [(32, false)] }

/-- An empty classical frame. -/
def emptyFrame : CanFrame := { id := 0, ide := false, fdf := false, brs := false, rtr := false, esi := false, dlc := 0, data := [] }

/-- The state in which the frame begins, and the state in which it ends. -/
def frameBegun : State := canFrameStart (elapse shadowedBinding 0) 0
def frameOver : State := elapse frameBegun 0

/-- Refutes O46, in its clause on a frame heard: it speaks of every register list. A good reception takes REC of `shadowedBinding` to
0, so CAN_ERR leaves the list, and what stands behind it goes too: no cell is bound any more, and the frame is stored with the
controller's own timestamp and not with the capture that was valid at its end. -/
theorem not_canControllers : ¬ Obligations.CanControllers := by
  intro h
  obtain ⟨-, -, -, -, -, hframe, -⟩ := h shadowedBinding 16 0 0 0 0 rfl (by decide)
  obtain ⟨-, t, hrow, -, hstored⟩ := hframe 0 0 emptyFrame (elapse shadowedBinding 0) frameBegun frameOver
    (smGet (frameBegun.tb 0) frameBegun.canSof 0) 0 0 0 true rfl (by decide +kernel) (by decide +kernel) (by decide +kernel) rfl rfl rfl
    (by decide +kernel) rfl (by decide +kernel) (by decide +kernel) (by decide +kernel)
  obtain rfl : close (canReceiveRow (elapse shadowedBinding 0) 0 emptyFrame 0) = t := Host.Outcome.next.inj hrow
  have hbefore : canFifo frameOver 0 = [] := by decide +kernel
  have hafter : (canFifo (canReceiveRow (elapse shadowedBinding 0) 0 emptyFrame 0) 0).map CanRx.tssrc = [false] := by decide +kernel
  have hclose : canFifo (close (canReceiveRow (elapse shadowedBinding 0) 0 emptyFrame 0)) 0 =
      canFifo (canReceiveRow (elapse shadowedBinding 0) 0 emptyFrame 0) 0 := by
    rw [canFifo, close_canRx, ← canFifo]
  rw [hclose, hbefore] at hstored
  rw [hstored] at hafter
  exact absurd hafter (by decide)

end Sys2Proof.Machine

/-! SUPPORT. The leadership arbiter: what its steps change, and how it decides in duplex mode (R341 to R344). -/

namespace Sys2Proof.Machine

/-! ## What a fault, a claim and a resignation leave -/

/-- `t` is `s` but for the bits `l` of ARB_STATUS, the fault counts, the interrupts and what the arbiter remembers of pair A. -/
structure ArbSame (l : List Nat) (s t : State) : Prop where
  eq : t = { s with regs := t.regs, arbH := t.arbH }
  beat : ∀ p, beatAt t p = beatAt s p
  rd : ∀ a, a ≠ ARB_STATUS → a ≠ ARB_FCNT → a ≠ ARB_IRQSTAT → t.rd a = s.rd a
  bt : ∀ i, i ∉ l → t.bt ARB_STATUS i = s.bt ARB_STATUS i

section
variable {l : List Nat} {s t u : State}

theorem ArbSame.refl (l : List Nat) (s : State) : ArbSame l s s := ⟨rfl, fun _ => rfl, fun _ _ _ _ => rfl, fun _ _ => rfl⟩

theorem ArbSame.trans (h : ArbSame l s t) (h' : ArbSame l t u) : ArbSame l s u :=
  ⟨h'.eq.trans (by rw [h.eq]), fun p => (h'.beat p).trans (h.beat p),
    fun a hs hf hi => (h'.rd a hs hf hi).trans (h.rd a hs hf hi), fun i hi => (h'.bt i hi).trans (h.bt i hi)⟩

theorem ArbSame.setBt (s : State) {i : Nat} (b : Bool) (h : i ∈ l) (h32 : i < 32) : ArbSame l s (s.setBt ARB_STATUS i b) :=
  ⟨rfl, fun _ => rfl, fun _ ha _ _ => rd_setBt_ne s i b ha, fun j hj => bt_setBt_ne s _ i j b h32 (fun he => hj (he ▸ h))⟩

theorem ArbSame.raise (l : List Nat) (s : State) (w : Word) : ArbSame l s (s.raise ARB_IRQSTAT w) :=
  ⟨rfl, fun _ => rfl, fun _ _ _ hi => rd_raise_ne s w hi, fun i _ => bt_raise_ne s i (by decide) w⟩

theorem ArbSame.fcnt (l : List Nat) (s : State) (hi lo v : Nat) : ArbSame l s (s.setFl ARB_FCNT hi lo v) :=
  ⟨rfl, fun _ => rfl, fun _ _ hf _ => rd_setFl_ne s hi lo v hf, fun i _ => bt_setFl_ne s i (by decide) hi lo v⟩

theorem ArbSame.arbH (l : List Nat) (s : State) {h : ArbH} (ha : h.beatA = s.arbH.beatA) (hb : h.beatB = s.arbH.beatB) :
    ArbSame l s { s with arbH := h } :=
  ⟨rfl, fun p => by simp only [beatAt, ha, hb], fun _ _ _ _ => rfl, fun _ _ => rfl⟩

theorem ArbSame.fl (h : ArbSame l s t) {a : Nat} (hs : a ≠ ARB_STATUS) (hf : a ≠ ARB_FCNT) (hi : a ≠ ARB_IRQSTAT) (x y : Nat) :
    t.fl a x y = s.fl a x y := by
  rw [State.fl, h.rd a hs hf hi, State.fl]

theorem ArbSame.mode (h : ArbSame l s t) : arbMode t = arbMode s := h.fl (by decide) (by decide) (by decide) 31 30

theorem ArbSame.age (h : ArbSame l s t) (p : Nat) : beatAge t p = beatAge s p := by
  have hcycles : t.cycles = s.cycles := by rw [h.eq]
  rw [beatAge, h.beat, hcycles, beatAge]

theorem ArbSame.ctxH (h : ArbSame l s t) : t.ctxH = s.ctxH := by rw [h.eq]

/-- Apart from LSF and SPARE no bit of ARB_STATUS resets a block. -/
theorem ArbSame.inReset (h : ArbSame l s t) (h21 : 21 ∉ l) (h17 : 17 ∉ l) (h25 : 25 ∉ l) (k : Nat) :
    Machine.inReset t k = Machine.inReset s k := by
  have hrd (a : Nat) (ha : a ≠ ARB_STATUS ∧ a ≠ ARB_FCNT ∧ a ≠ ARB_IRQSTAT) (i : Nat) : t.bt a i = s.bt a i := by
    rw [State.bt, h.rd a ha.1 ha.2.1 ha.2.2, State.bt]
  have hsrcs : t.srcs = s.srcs := by rw [h.eq]
  have hldr : t.ldrHold = s.ldrHold := by rw [h.eq]
  have hoff : t.pdoff = s.pdoff := by rw [h.eq]
  have hwd : t.wdrst = s.wdrst := by rw [h.eq]
  have hbank : t.bankuv = s.bankuv := by rw [h.eq]
  simp only [Machine.inReset, wideReset, loaderHolds, narrowSource, hsrcs, hldr, hoff, hwd, hbank, h.bt 21 h21, h.bt 17 h17, h.bt 25 h25,
    hrd RST_SWSRC (by decide), hrd RST_BLKCAN (by decide), hrd RST_BLKHX (by decide)]

/-- A pair is as healthy as it was where its own bits stand. -/
theorem ArbSame.healthy (h : ArbSame l s t) (h21 : 21 ∉ l) (h17 : 17 ∉ l) (h25 : 25 ∉ l) {p : Nat} (hready : stBit p 2 ∉ l)
    (hlsf : stBit p 1 ∉ l) : Machine.healthy t p = Machine.healthy s p := by
  have hdom : domOff t 8 = domOff s 8 := by rw [domOff, State.bt, h.rd _ (by decide) (by decide) (by decide), domOff, State.bt]
  rw [Machine.healthy, h.mode, hdom, h.inReset h21 h17 h25, h.bt _ hlsf, h.bt _ hready, h.age,
    h.fl (by decide) (by decide) (by decide), Machine.healthy]

theorem ArbSame.beatLate (h : ArbSame l s t) {p : Nat} (hready : stBit p 2 ∉ l) : Machine.beatLate t p = Machine.beatLate s p := by
  rw [Machine.beatLate, h.bt _ hready, h.age, h.fl (by decide) (by decide) (by decide), Machine.beatLate]

theorem ArbSame.holder (h : ArbSame l s t) (hl : ∀ i ∈ l, i < 30) : Machine.holder t = Machine.holder s := by
  rw [Machine.holder, Machine.holder, State.fl, State.fl]
  refine fld_congr fun i hlo _ => ?_
  have hbit := h.bt i (fun hi => absurd (hl i hi) (by omega))
  rwa [State.bt, State.bt, bitAt_eq_getLsbD, bitAt_eq_getLsbD] at hbit

end

/-! ## The faults of a pair (R342) -/

section
variable (s : State) {p q : Nat}

theorem countFault_same (l : List Nat) : ArbSame l s (countFault s p) := by
  have hcount := ArbSame.fcnt l s (8 * p + 7) (8 * p) (min (s.fl ARB_FCNT (8 * p + 7) (8 * p) + 1) (2 ^ (8 * p + 7 + 1 - 8 * p) - 1))
  unfold countFault
  dsimp only
  split
  · exact hcount.trans (.arbH l _ rfl rfl)
  · exact hcount

theorem stBit_lt {p k : Nat} (hk : k ≤ 3) : stBit p k < 30 := by
  unfold stBit
  split <;> omega

theorem pairFault_same (cause : Nat) : ArbSame [stBit p 2, stBit p 0] s (pairFault s p cause) := by
  have h2 : stBit p 2 < 32 := (stBit_lt (by decide)).trans (by decide)
  have h0 : stBit p 0 < 32 := (stBit_lt (by decide)).trans (by decide)
  have hready := (countFault_same s (p := p) [stBit p 2, stBit p 0]).trans (.setBt _ false (by simp) h2)
  unfold pairFault
  dsimp only
  split
  · exact (hready.trans (.setBt _ true (by simp) h0)).trans (.raise _ _ _)
  · exact hready.trans (.raise _ _ _)

theorem faultCount_countFault (hp : p < 2) : faultCount (countFault s p) p = min (2 ^ 8 - 1) (faultCount s p + 1) := by
  have hcount := fl_satInc_self s ARB_FCNT (8 * p + 7) (8 * p) (by omega) (by omega)
  rw [show 8 * p + 7 + 1 - 8 * p = 8 by omega] at hcount
  unfold countFault faultCount
  dsimp only
  split
  · exact hcount
  · exact hcount

/-- A fault counts, and READY goes. -/
theorem pairFault_spec (hp : p < 2) (cause : Nat) : faultCount (pairFault s p cause) p = min (2 ^ 8 - 1) (faultCount s p + 1) ∧
    (pairFault s p cause).bt ARB_STATUS (stBit p 2) = false ∧
    (if cause = 2 then (pairFault s p cause).bt ARB_STATUS (stBit p 0) = true else (pairFault s p cause).bt ARB_IRQSTAT 3 = true) := by
  have h2 : stBit p 2 < 32 := (stBit_lt (by decide)).trans (by decide)
  have h0 : stBit p 0 < 32 := (stBit_lt (by decide)).trans (by decide)
  have hne : stBit p 2 ≠ stBit p 0 := by unfold stBit; split <;> omega
  have hcount := faultCount_countFault s hp
  unfold pairFault
  dsimp only
  generalize countFault s p = u at *
  unfold faultCount at *
  split
  · refine ⟨?_, ?_, ?_⟩
    · rw [fl_raise_ne _ _ _ (by decide), fl_setBt_ne _ _ _ (by decide), fl_setBt_ne _ _ _ (by decide), hcount]
    · rw [bt_raise_ne _ _ (by decide), bt_setBt_ne _ _ _ _ _ h0 hne, bt_setBt_self _ _ _ _ h2]
    · rw [bt_raise_ne _ _ (by decide), bt_setBt_self _ _ _ _ h0]
  · refine ⟨?_, ?_, bt_raise _ (by decide)⟩
    · rw [fl_raise_ne _ _ _ (by decide), fl_setBt_ne _ _ _ (by decide), hcount]
    · rw [bt_raise_ne _ _ (by decide), bt_setBt_self _ _ _ _ h2]

/-! ## The token (R343) -/

/-- The token in its new hands, a pending resignation withdrawn. -/
def tokenPut (nxt : Nat) : State := (s.setFl ARB_STATUS 31 30 nxt).setBt ARB_STATUS 27 false

/-- The record of a move. -/
def tokenLogged (w ns : Word) : State :=
  (((s.wr ARB_LAST w).wr ARB_LAST_NS ns).wrapInc ARB_MOVES 31 16).raise ARB_IRQSTAT 0x1

/-- The word of ARB_LAST. -/
def lastWord (old nxt cause : Nat) (aligned : Bool) : Word :=
  BitVec.ofNat 32 (old * 2 ^ 30 + nxt * 2 ^ 28 + cause * 2 ^ 25 + aligned.toNat * 2 ^ 24)

theorem tokenMove_eq (nxt cause : Nat) (aligned : Bool) : ∃ ns, tokenMove s nxt cause aligned =
    let u := tokenLogged (tokenPut s nxt) (lastWord (holder s) nxt cause aligned) ns
    if aligned then u else u.setBt ARB_STATUS 28 true := ⟨_, rfl⟩

theorem tokenPut_spec {nxt : Nat} (hn : nxt < 4) : holder (tokenPut s nxt) = nxt ∧ (tokenPut s nxt).bt ARB_STATUS 27 = false ∧
    (∀ i, i < 27 → (tokenPut s nxt).bt ARB_STATUS i = s.bt ARB_STATUS i) ∧
    ∀ a, a ≠ ARB_STATUS → (tokenPut s nxt).rd a = s.rd a := by
  refine ⟨?_, bt_setBt_self _ _ _ _ (by decide), fun i hi => ?_, fun a ha => ?_⟩
  · rw [holder, tokenPut, fl_setBt_apart _ _ _ (by decide) (by decide) (.inl (by decide)), fl_setFl_self _ _ _ _ _ (by decide) (by decide)]
    exact Nat.mod_eq_of_lt hn
  · rw [tokenPut, bt_setBt_ne _ _ _ _ _ (by decide) (by omega), bt_setFl_apart _ _ _ (by decide) (by decide) (.inr (by omega))]
  · rw [tokenPut, rd_setBt_ne _ _ _ ha, rd_setFl_ne _ _ _ _ ha]

theorem tokenLogged_spec (w ns : Word) : (tokenLogged s w ns).rd ARB_LAST = w ∧
    (tokenLogged s w ns).fl ARB_MOVES 31 16 = (s.fl ARB_MOVES 31 16 + 1) % 2 ^ 16 ∧
    ∀ a, a ≠ ARB_LAST → a ≠ ARB_LAST_NS → a ≠ ARB_MOVES → a ≠ ARB_IRQSTAT → (tokenLogged s w ns).rd a = s.rd a := by
  refine ⟨?_, ?_, fun a hl hn hm hi => ?_⟩
  · rw [tokenLogged, rd_raise_ne _ _ (by decide), rd_wrapInc_ne _ _ _ _ (by decide), rd_wr_ne _ _ (by decide), rd_wr_self]
  · rw [tokenLogged, fl_raise_ne _ _ _ (by decide), fl_wrapInc_self _ _ (by decide) (by decide), fl_wr_ne _ _ _ (by decide),
      fl_wr_ne _ _ _ (by decide)]
  · rw [tokenLogged, rd_raise_ne _ _ hi, rd_wrapInc_ne _ _ _ _ hm, rd_wr_ne _ _ hn, rd_wr_ne _ _ hl]

theorem lastWord_fields {old nxt cause : Nat} {aligned : Bool} (hc : cause < 8) :
    fld (lastWord old nxt cause aligned) 27 25 = cause ∧ bitAt (lastWord old nxt cause aligned) 24 = aligned := by
  have hal : aligned.toNat < 2 := aligned.toNat_lt
  refine ⟨?_, ?_⟩
  · simp only [lastWord, fld, BitVec.toNat_ofNat]
    omega
  · have hbit : (lastWord old nxt cause aligned).toNat / 2 ^ 24 % 2 = aligned.toNat := by
      simp only [lastWord, BitVec.toNat_ofNat]
      omega
    rw [bitAt, hbit]
    cases aligned <;> rfl

/-- A move of the token: its new holder, its records, and what it leaves. -/
structure TokenMoved (s t : State) (nxt cause : Nat) (aligned : Bool) : Prop where
  holder : Machine.holder t = nxt
  resign : t.bt ARB_STATUS 27 = false
  cause : t.fl ARB_LAST 27 25 = cause
  aligned : t.bt ARB_LAST 24 = aligned
  moves : t.fl ARB_MOVES 31 16 = (s.fl ARB_MOVES 31 16 + 1) % 2 ^ 16
  bt : ∀ i, i < 27 → t.bt ARB_STATUS i = s.bt ARB_STATUS i
  rd : ∀ a, a ≠ ARB_STATUS → a ≠ ARB_LAST → a ≠ ARB_LAST_NS → a ≠ ARB_MOVES → a ≠ ARB_IRQSTAT → t.rd a = s.rd a
  ctxH : t.ctxH = s.ctxH

theorem tokenPut_ctxH (nxt : Nat) : (tokenPut s nxt).ctxH = s.ctxH := by
  simp only [tokenPut, State.setBt, State.setFl, State.wr_ctxH]

theorem tokenLogged_ctxH (w ns : Word) : (tokenLogged s w ns).ctxH = s.ctxH := by
  simp only [tokenLogged, State.raise, State.wrapInc, State.setFl, State.wr_ctxH]

/-- A move of a token that the commit instant has aligned. -/
theorem tokenLogged_moved {nxt cause : Nat} (aligned : Bool) (ns : Word) (hn : nxt < 4) (hc : cause < 8) :
    TokenMoved s (tokenLogged (tokenPut s nxt) (lastWord (holder s) nxt cause aligned) ns) nxt cause aligned := by
  obtain ⟨hholder, hresign, hbt, hrd⟩ := tokenPut_spec s hn
  obtain ⟨hlast, hmoves, hlog⟩ := tokenLogged_spec (tokenPut s nxt) (lastWord (holder s) nxt cause aligned) ns
  obtain ⟨hcause, haligned⟩ := lastWord_fields (old := holder s) (nxt := nxt) (aligned := aligned) hc
  have hstat := hlog ARB_STATUS (by decide) (by decide) (by decide) (by decide)
  have hctx := (tokenLogged_ctxH (tokenPut s nxt) (lastWord (holder s) nxt cause aligned) ns).trans (tokenPut_ctxH s nxt)
  have hcount : (tokenPut s nxt).fl ARB_MOVES 31 16 = s.fl ARB_MOVES 31 16 := by rw [State.fl, hrd _ (by decide), State.fl]
  generalize tokenLogged (tokenPut s nxt) (lastWord (holder s) nxt cause aligned) ns = u at *
  refine ⟨?_, ?_, ?_, ?_, ?_, fun i hi => ?_, fun a hs hl hn' hm hi => ?_, hctx⟩
  · rw [holder, State.fl, hstat, ← State.fl, ← holder, hholder]
  · rw [State.bt, hstat, ← State.bt, hresign]
  · rw [State.fl, hlast, hcause]
  · rw [State.bt, hlast, haligned]
  · rw [hmoves, hcount]
  · rw [State.bt, hstat, ← State.bt, hbt i hi]
  · rw [hlog a hl hn' hm hi, hrd a hs]

/-- A move at another time than a commit instant shows besides. -/
theorem TokenMoved.unaligned {s t : State} {nxt cause : Nat} {aligned : Bool} (h : TokenMoved s t nxt cause aligned) :
    TokenMoved s (t.setBt ARB_STATUS 28 true) nxt cause aligned := by
  refine ⟨?_, ?_, ?_, ?_, ?_, fun i hi => ?_, fun a hs hl hn hm hi => ?_, ?_⟩
  · rw [Machine.holder, fl_setBt_apart _ _ _ (by decide) (by decide) (.inl (by decide)), ← Machine.holder, h.holder]
  · rw [bt_setBt_ne _ _ _ _ _ (by decide) (by decide), h.resign]
  · rw [fl_setBt_ne _ _ _ (by decide), h.cause]
  · rw [bt_setBt_reg_ne _ _ (by decide), h.aligned]
  · rw [fl_setBt_ne _ _ _ (by decide), h.moves]
  · rw [bt_setBt_ne _ _ _ _ _ (by decide) (by omega), h.bt i hi]
  · rw [rd_setBt_ne _ _ _ hs, h.rd a hs hl hn hm hi]
  · rw [State.setBt, State.wr_ctxH, h.ctxH]

theorem tokenMoved {nxt cause : Nat} (aligned : Bool) (hn : nxt < 4) (hc : cause < 8) :
    TokenMoved s (tokenMove s nxt cause aligned) nxt cause aligned := by
  obtain ⟨ns, heq⟩ := tokenMove_eq s nxt cause aligned
  have hmoved := tokenLogged_moved s aligned ns hn hc
  dsimp only at heq
  rw [heq]
  split
  · exact hmoved
  · exact hmoved.unaligned

end

/-! ## The evaluation in duplex mode (R343) -/

section
variable {s : State} {p q : Fin 2}

theorem otherPair (hq : q ≠ p) : 2 - (p.val + 1) = q.val := by omega

/-- With the token held SAFE is not entered. -/
theorem safeEntry_held (h : holder s ≠ 0) : safeEntry s = s := if_neg (by simp [h])

/-- Without a ready pair that is late no timeout is recorded. -/
theorem beatRecord_none (hp : beatLate s p.val = false) (hq : beatLate s q.val = false) (hne : q ≠ p) : beatRecord s = s := by
  have hboth : beatLate s 0 = false ∧ beatLate s 1 = false := by
    obtain ⟨rfl, rfl⟩ | ⟨rfl, rfl⟩ : p = 0 ∧ q = 1 ∨ p = 1 ∧ q = 0 := by omega
    · exact ⟨hp, hq⟩
    · exact ⟨hq, hp⟩
  simp [beatRecord, hboth]

/-- Of two pairs the late one is recorded. -/
theorem beatRecord_one (hp : beatLate s p.val = true) (hq : beatLate s q.val = false) (hne : q ≠ p) :
    beatRecord s = pairFault s p.val 2 := by
  obtain ⟨rfl, rfl⟩ | ⟨rfl, rfl⟩ : p = 0 ∧ q = 1 ∨ p = 1 ∧ q = 0 := by omega
  · have h0 : beatLate s 0 = true := hp
    have h1 : beatLate s 1 = false := hq
    simp [beatRecord, h0, h1]
  · have h0 : beatLate s 0 = false := hq
    have h1 : beatLate s 1 = true := hp
    simp [beatRecord, h0, h1]

/-- A healthy holder keeps the token. -/
theorem arbEval_held (hp : beatLate s p.val = false) (hq : beatLate s q.val = false) (hne : q ≠ p) (hh : holder s = p.val + 1)
    (hok : healthy s p.val = true) (ev : Option (Nat × Nat)) : arbEval s ev none = s := by
  unfold arbEval
  dsimp only
  have hkeeps : ¬ (p.val + 1 ≠ 0 ∧ healthy s p.val = false) := by simp [hok]
  rw [beatRecord_none hp hq hne, hh, Nat.add_sub_cancel, if_neg hkeeps, hh, if_neg (by simp)]
  exact safeEntry_held (by omega)

/-- A resignation due passes the token to the other pair, if that is healthy. -/
theorem arbEval_resigned (hp : beatLate s p.val = false) (hq : beatLate s q.val = false) (hne : q ≠ p) (hh : holder s = p.val + 1)
    (hok : healthy s p.val = true) (hoq : healthy s q.val = true) (ev : Option (Nat × Nat)) (aligned : Bool) :
    arbEval s ev (some aligned) = tokenMove s (q.val + 1) 1 aligned := by
  have hmove := (tokenMoved s (nxt := q.val + 1) (cause := 1) aligned (by omega) (by decide)).holder
  unfold arbEval
  dsimp only
  have hkeeps : ¬ (p.val + 1 ≠ 0 ∧ healthy s p.val = false) := by simp [hok]
  have hheld : ¬ p.val + 1 = 0 := by omega
  rw [beatRecord_none hp hq hne, hh, Nat.add_sub_cancel, if_neg hkeeps, if_neg hheld, otherPair hne, if_pos hoq, hmove,
    if_neg (by simp)]
  exact safeEntry_held (by omega)

/-- A holder that is late loses the token to the other pair, if that is healthy. -/
theorem arbEval_late (hp : beatLate s p.val = true) (hq : beatLate s q.val = false) (hne : q ≠ p) (hh : holder s = p.val + 1)
    (hoq : healthy s q.val = true) : arbEval s none none = tokenMove (pairFault s p.val 2) (q.val + 1) 2 false := by
  have hsame := pairFault_same s (p := p.val) 2
  have hready : stBit q.val 2 ∉ [stBit p.val 2, stBit p.val 0] := by
    obtain ⟨rfl, rfl⟩ | ⟨rfl, rfl⟩ : p = 0 ∧ q = 1 ∨ p = 1 ∧ q = 0 := by omega
    · decide
    · decide
  have hlsf : stBit q.val 1 ∉ [stBit p.val 2, stBit p.val 0] := by
    obtain ⟨rfl, rfl⟩ | ⟨rfl, rfl⟩ : p = 0 ∧ q = 1 ∨ p = 1 ∧ q = 0 := by omega
    · decide
    · decide
  have hsrc (i : Nat) (hi : i = 21 ∨ i = 17 ∨ i = 25) : i ∉ [stBit p.val 2, stBit p.val 0] := by
    obtain rfl | rfl : p = 0 ∨ p = 1 := by omega
    · rcases hi with rfl | rfl | rfl <;> decide
    · rcases hi with rfl | rfl | rfl <;> decide
  have hokq := hsame.healthy (hsrc 21 (by simp)) (hsrc 17 (by simp)) (hsrc 25 (by simp)) hready hlsf
  have hdown : healthy (pairFault s p.val 2) p.val = false := by
    simp [healthy, (pairFault_spec s p.isLt 2).2.1]
  have hmove := (tokenMoved (pairFault s p.val 2) (nxt := q.val + 1) (cause := 2) false (by omega) (by decide)).holder
  unfold arbEval
  dsimp only
  have hcause : loseCause (p.val + 1) (beatLate s p.val) none = 2 := by rw [hp]; rfl
  have hloses : p.val + 1 ≠ 0 ∧ healthy (pairFault s p.val 2) p.val = false := ⟨by omega, hdown⟩
  rw [beatRecord_one hp hq hne, hh, Nat.add_sub_cancel, otherPair hne, if_pos hloses, hokq, if_pos hoq, hcause, hmove, if_neg (by simp)]
  exact safeEntry_held (by omega)

/-- A free token goes to the only healthy pair. -/
theorem arbEval_free (hp : beatLate s p.val = false) (hq : beatLate s q.val = false) (hne : q ≠ p) (hh : holder s = 0)
    (hok : healthy s p.val = true) (hoq : healthy s q.val = false) (ev : Option (Nat × Nat)) :
    arbEval s ev none = tokenMove s (p.val + 1) 0 false := by
  have hmove := (tokenMoved s (nxt := p.val + 1) (cause := 0) false (by omega) (by decide)).holder
  have hchoice : tokenChoice s = p.val + 1 ∧ (healthy s 0 || healthy s 1) = true := by
    obtain ⟨rfl, rfl⟩ | ⟨rfl, rfl⟩ : p = 0 ∧ q = 1 ∨ p = 1 ∧ q = 0 := by omega
    · have h0 : healthy s 0 = true := hok
      have h1 : healthy s 1 = false := hoq
      simp [tokenChoice, h0, h1]
    · have h0 : healthy s 0 = false := hoq
      have h1 : healthy s 1 = true := hok
      simp [tokenChoice, h0, h1]
  unfold arbEval
  dsimp only
  have hnone : ¬ ((0 : Nat) ≠ 0 ∧ healthy s (0 - 1) = false) := by simp
  rw [beatRecord_none hp hq hne, hh, if_neg hnone, hh, hchoice.1, hchoice.2, if_pos ⟨rfl, rfl⟩]
  exact safeEntry_held (by omega)

/-- In duplex mode no spare waits. -/
theorem spareCheck_duplex (h : arbMode s = 1) : spareCheck s = s := if_neg (by simp [spareDue, h])

theorem TokenMoved.mode {s t : State} {nxt cause : Nat} {aligned : Bool} (h : TokenMoved s t nxt cause aligned) : arbMode t = arbMode s := by
  rw [arbMode, State.fl, h.rd _ (by decide) (by decide) (by decide) (by decide) (by decide), arbMode, State.fl]

end

end Sys2Proof.Machine

/-! SUPPORT. The leadership arbiter: heartbeats, commands and resignations in duplex mode (R341 to R346). -/

namespace Sys2Proof.Machine

/-! ## The registers of the arbiter at the end of a command -/

theorem closeTouches_arb {a : Nat} (h : 0x39000000 ≤ a) : closeTouches a = false := by
  unfold closeTouches MEM_FT_STAT MEM_DG_IRQSTAT
  simp only [Bool.or_eq_false_iff, Bool.and_eq_false_iff, decide_eq_false_iff_not, beq_eq_false_iff_ne]
  omega

section
variable (u : State) (r : Resp)

theorem fl_answered_arb {a : Nat} (hi lo : Nat) (h : 0x39000000 ≤ a) : (answered u r).fl a hi lo = u.fl a hi lo := by
  rw [State.fl, rd_answered u r (closeTouches_arb h), State.fl]

theorem bt_answered_arb {a : Nat} (i : Nat) (h : 0x39000000 ≤ a) : (answered u r).bt a i = u.bt a i := by
  rw [State.bt, rd_answered u r (closeTouches_arb h), State.bt]

theorem holder_answered : holder (answered u r) = holder u := fl_answered_arb u r 31 30 (by decide)
theorem holder_close : holder (close u) = holder u := close_fl u 31 30 (closeTouches_arb (by decide))

theorem beatAt_of_arbH {s t : State} (h : t.arbH = s.arbH) (p : Nat) : beatAt t p = beatAt s p := by simp only [beatAt, h]

end

/-! ## Heartbeats (R341) -/

section
variable {s : State} {m : Master} {p q : Fin 2}

theorem beatAt_setBeat (hne : q ≠ p) : beatAt (setBeat s p.val) p.val = s.cycles ∧ beatAt (setBeat s p.val) q.val = beatAt s q.val := by
  obtain ⟨rfl, rfl⟩ | ⟨rfl, rfl⟩ : p = 0 ∧ q = 1 ∨ p = 1 ∧ q = 0 := by omega
  · exact ⟨rfl, rfl⟩
  · exact ⟨rfl, rfl⟩

theorem setBeat_regs (s : State) (p : Nat) : (setBeat s p).regs = s.regs := rfl
theorem setBeat_ctxH (s : State) (p : Nat) : (setBeat s p).ctxH = s.ctxH := rfl

theorem wrapInc_arbH (s : State) (a hi lo n : Nat) : (s.wrapInc a hi lo n).arbH = s.arbH := State.wr_arbH _ _ _
theorem wrapInc_ctxH (s : State) (a hi lo n : Nat) : (s.wrapInc a hi lo n).ctxH = s.ctxH := State.wr_ctxH _ _ _

theorem exec_heartbeat (hs : noSteps s) (hne : q ≠ p) (v : Word) (ho : opens s m (ARB_HB p.val) .arb) (hm : m.val = 9 + p.val) :
    ∃ t, exec (.heartbeat m p v) s = .next t ∧ t.resp = .ok 0 ∧ beatAt t p.val = s.cycles ∧ beatAt t q.val = beatAt s q.val ∧
      t.fl (ARB_HB p.val) 15 0 = (s.fl (ARB_HB p.val) 15 0 + 1) % 2 ^ 16 := by
  have hp := p.isLt
  have hoff : ARB_HB p.val % 0x10000 = 0xC + 4 * p.val := by unfold ARB_HB; omega
  have hidx : 9 + (0xC + 4 * p.val - 0xC) / 4 = m.val ∧ m.val - 9 = p.val := by omega
  have hw : arbWrite s m.val (ARB_HB p.val % 0x10000) v = (heartbeatOf s p.val, .ok 0) := by
    rw [hoff, arbWrite, if_neg (by omega), if_neg (by omega), if_pos (by omega), if_pos hidx.1.symm, hidx.2, accept]
  have hctx : (heartbeatOf s p.val).ctxH = s.ctxH := by rw [heartbeatOf, wrapInc_ctxH, setBeat_ctxH]
  obtain ⟨hbp, hbq⟩ := beatAt_setBeat (s := s) hne
  have harb : (answered (heartbeatOf s p.val) (.ok 0)).arbH = (setBeat s p.val).arbH := by
    rw [answered, close_arbH]
    exact wrapInc_arbH (setBeat s p.val) (ARB_HB p.val) 15 0 1
  refine ⟨_, writeRow_arb ho (by unfold ARB_HB; omega) (by unfold ARB_HB ARB_IRQROUTE; omega) hw (noSteps_of_ctxH hs hctx),
    answered_resp _ _, (beatAt_of_arbH harb _).trans hbp, (beatAt_of_arbH harb _).trans hbq, ?_⟩
  rw [fl_answered_arb _ _ _ _ (by unfold ARB_HB; omega), heartbeatOf, fl_wrapInc_self _ _ (by decide) (by decide),
    fl_of_regs (setBeat_regs s p.val)]

/-- HEARTBEAT_TIMEOUT of the holder (R341, R343). -/
theorem exec_heartbeatTimeout (hne : q ≠ p) (dt : Nat) {u : State} (hu : u = elapse s dt) (hmode : arbMode u = 1)
    (hp : beatLate u p.val = true) (hq : beatLate u q.val = false) (hh : holder u = p.val + 1) (hoq : healthy u q.val = true) :
    ∃ t, exec (.heartbeatTimeout p dt) s = .next t ∧ holder t = q.val + 1 ∧
      t.bt ARB_STATUS (stBit p.val 2) = false ∧ t.bt ARB_STATUS (stBit p.val 0) = true ∧
      faultCount t p.val = min (2 ^ 8 - 1) (faultCount u p.val + 1) ∧ t.fl ARB_LAST 27 25 = 2 := by
  obtain ⟨hcount, hready, hlate⟩ := pairFault_spec u p.isLt 2
  have hmoved := tokenMoved (pairFault u p.val 2) (nxt := q.val + 1) (cause := 2) false (by omega) (by decide)
  have hrun : spareCheck (beatTimeout u p.val) = tokenMove (pairFault u p.val 2) (q.val + 1) 2 false := by
    rw [beatTimeout, if_pos hp, arbEval_late hp hq hne hh hoq,
      spareCheck_duplex (hmoved.mode.trans ((pairFault_same u 2).mode.trans hmode))]
  have hexec : exec (.heartbeatTimeout p dt) s = .next (close (spareCheck (beatTimeout (elapse s dt) p.val))) := rfl
  rw [← hu, hrun] at hexec
  refine ⟨_, hexec, ?_⟩
  rw [holder_close, close_bt _ _ (closeTouches_arb (by decide)), close_bt _ _ (closeTouches_arb (by decide)), faultCount,
    close_fl _ _ _ (closeTouches_arb (by decide)), close_fl _ _ _ (closeTouches_arb (by decide))]
  generalize tokenMove (pairFault u p.val 2) (q.val + 1) 2 false = w at *
  refine ⟨hmoved.holder, ?_, ?_, ?_, hmoved.cause⟩
  · rw [hmoved.bt _ (by unfold stBit; split <;> omega), hready]
  · rw [hmoved.bt _ (by unfold stBit; split <;> omega)]
    exact hlate
  · rw [State.fl, hmoved.rd _ (by decide) (by decide) (by decide) (by decide) (by decide), ← State.fl]
    exact hcount

/-! ## Commands (R343, R344, R346) -/

/-- A command but for REARM, in duplex mode. -/
theorem writeRow_arbCmd (hs : noSteps s) (ho : opens s m ARB_CMD .arb) {v : Word} {u : State} (hop : fld v 3 0 ≠ 6)
    (hcmd : arbCommand s m.val (fld v 3 0) (fld v 8 8) = accept u) (hmode : arbMode u = 1) (hctx : u.ctxH = s.ctxH) :
    writeRow s m ARB_CMD v = .next (answered u (.ok 0)) := by
  refine writeRow_arb ho (by decide) (by decide) ?_ (noSteps_of_ctxH hs hctx)
  have hrow : arbWrite s m.val (ARB_CMD % 0x10000) v = arbCmdWrite s m.val v := by
    rw [arbWrite, if_neg (by decide), if_pos (by decide)]
  rw [hrow, arbCmdWrite, if_neg hop, hcmd, accept]
  dsimp only
  rw [spareCheck_duplex hmode]

theorem isPair_of (hm : m.val = 9 + p.val) : (m.val == 9 || m.val == 10) = true ∧ m.val - 9 = p.val := by
  have hp := p.isLt
  refine ⟨?_, by omega⟩
  simp only [Bool.or_eq_true, beq_iff_eq]
  omega

/-- The bits of a pair other than LSF. -/
def arbBits (p : Nat) : List Nat := [stBit p 2, stBit p 0]

theorem arbBits_apart (hne : q ≠ p) : stBit q.val 2 ∉ arbBits p.val ∧ stBit q.val 1 ∉ arbBits p.val := by
  obtain ⟨rfl, rfl⟩ | ⟨rfl, rfl⟩ : p = 0 ∧ q = 1 ∨ p = 1 ∧ q = 0 := by omega
  · decide
  · decide

theorem arbBits_own (p : Fin 2) : 21 ∉ arbBits p.val ∧ 17 ∉ arbBits p.val ∧ 25 ∉ arbBits p.val ∧ stBit p.val 1 ∉ arbBits p.val ∧
    ∀ i ∈ arbBits p.val, i < 27 := by
  obtain rfl | rfl : p = 0 ∨ p = 1 := by omega
  · decide
  · decide

/-- A change of one pair's bits leaves the other as healthy and as late as it was, and the token where it was. -/
theorem ArbSame.other {t : State} (h : ArbSame (arbBits p.val) s t) (hne : q ≠ p) :
    Machine.healthy t q.val = Machine.healthy s q.val ∧ Machine.beatLate t q.val = Machine.beatLate s q.val ∧
    Machine.holder t = Machine.holder s := by
  obtain ⟨hready, hlsf⟩ := arbBits_apart hne
  obtain ⟨h21, h17, h25, -, hlt⟩ := arbBits_own p
  exact ⟨h.healthy h21 h17 h25 hready hlsf, h.beatLate hready, h.holder fun i hi => (hlt i hi).trans (by decide)⟩

/-- The state in which a CLAIM is evaluated. -/
def claimMarked (s : State) (p : Nat) : State :=
  let u := (s.setBt ARB_STATUS (stBit p 2) true).setBt ARB_STATUS (stBit p 0) false
  if p = 0 then { u with arbH := { u.arbH with claimedA := true } } else u

theorem claimMarked_spec (s : State) (p : Nat) : ArbSame (arbBits p) s (claimMarked s p) ∧
    (claimMarked s p).bt ARB_STATUS (stBit p 2) = true := by
  have h2 : stBit p 2 < 32 := (stBit_lt (by decide)).trans (by decide)
  have h0 : stBit p 0 < 32 := (stBit_lt (by decide)).trans (by decide)
  have hne : stBit p 2 ≠ stBit p 0 := by unfold stBit; split <;> omega
  have hmarks : ArbSame (arbBits p) s ((s.setBt ARB_STATUS (stBit p 2) true).setBt ARB_STATUS (stBit p 0) false) :=
    (ArbSame.setBt s true (by simp [arbBits]) h2).trans (.setBt _ false (by simp [arbBits]) h0)
  have hready : ((s.setBt ARB_STATUS (stBit p 2) true).setBt ARB_STATUS (stBit p 0) false).bt ARB_STATUS (stBit p 2) = true := by
    rw [bt_setBt_ne _ _ _ _ _ h0 hne, bt_setBt_self _ _ _ _ h2]
  unfold claimMarked
  dsimp only
  generalize (s.setBt ARB_STATUS (stBit p 2) true).setBt ARB_STATUS (stBit p 0) false = u at *
  split
  · exact ⟨hmarks.trans (.arbH _ _ rfl rfl), (bt_of_regs rfl _ _).trans hready⟩
  · exact ⟨hmarks, hready⟩

theorem exec_claim (hs : noSteps s) (hne : q ≠ p) (hmode : arbMode s = 1) (hq : beatLate s q.val = false) (ho : opens s m ARB_CMD .arb)
    (hm : m.val = 9 + p.val) (hlive : inReset s (8 + p.val) = false) (hdom : domOff s 8 = false)
    (hlsf : s.bt ARB_STATUS (stBit p.val 1) = false) (hage : beatAge s p.val ≤ s.fl ARB_CFG 15 0) (hh : holder s = 0)
    (hoq : healthy s q.val = false) : ∃ t, exec (.claim m) s = .next t ∧ t.resp = .ok 0 ∧ holder t = p.val + 1 ∧
      t.bt ARB_STATUS (stBit p.val 2) = true ∧ t.fl ARB_MOVES 31 16 = (s.fl ARB_MOVES 31 16 + 1) % 2 ^ 16 := by
  obtain ⟨hpair, hidx⟩ := isPair_of hm
  obtain ⟨hsame, hready⟩ := claimMarked_spec s p.val
  obtain ⟨h21, h17, h25, hlsf', -⟩ := arbBits_own p
  obtain ⟨hokq, hlq, hhold⟩ := hsame.other hne
  have hcmd : arbCommand s m.val (fld 1 3 0) (fld 1 8 8) = accept (arbEval (claimMarked s p.val) none none) := by
    rw [arbCommand, hpair, hidx, if_pos ⟨by decide, rfl, hlive⟩]
    rfl
  generalize claimMarked s p.val = u at *
  have hcfg := hsame.fl (a := ARB_CFG) (by decide) (by decide) (by decide) 15 0
  have hdom' : domOff u 8 = false := by
    rw [domOff, State.bt, hsame.rd _ (by decide) (by decide) (by decide)]
    exact hdom
  have hok : healthy u p.val = true := by
    rw [healthy, hsame.mode, hmode, hdom', hsame.inReset h21 h17 h25, hlive, hsame.bt _ hlsf', hlsf, hready, hsame.age, hcfg]
    simp [hage]
  have hlp : beatLate u p.val = false := by
    rw [beatLate, hsame.age, hcfg, decide_eq_false (by omega), Bool.and_false]
  rw [arbEval_free hlp (hlq.trans hq) hne (hhold.trans hh) hok (hokq.trans hoq)] at hcmd
  have hmoved := tokenMoved u (nxt := p.val + 1) (cause := 0) false (by omega) (by decide)
  refine ⟨_, writeRow_arbCmd hs ho (by decide) hcmd (hmoved.mode.trans (hsame.mode.trans hmode)) (hmoved.ctxH.trans hsame.ctxH),
    answered_resp _ _, ?_, ?_, ?_⟩
  · rw [holder_answered, hmoved.holder]
  · rw [bt_answered_arb _ _ _ (by decide), hmoved.bt _ (by unfold stBit; split <;> omega), hready]
  · rw [fl_answered_arb _ _ _ _ (by decide), hmoved.moves, hsame.fl (by decide) (by decide) (by decide)]

/-- The pair that does not hold the token is not ready: the holder stays. -/
theorem exec_unready (hs : noSteps s) (hne : q ≠ p) (hmode : arbMode s = 1) (hq : beatLate s q.val = false)
    (ho : opens s m ARB_CMD .arb) (hm : m.val = 9 + p.val) (hh : holder s = q.val + 1) (hoq : healthy s q.val = true) :
    ∃ t, exec (.unready m) s = .next t ∧ t.resp = .ok 0 ∧ t.bt ARB_STATUS (stBit p.val 2) = false ∧ holder t = q.val + 1 := by
  obtain ⟨hpair, hidx⟩ := isPair_of hm
  have h2 : stBit p.val 2 < 32 := (stBit_lt (by decide)).trans (by decide)
  have hsame : ArbSame (arbBits p.val) s (s.setBt ARB_STATUS (stBit p.val 2) false) := .setBt s false (by simp [arbBits]) h2
  have hready := bt_setBt_self s ARB_STATUS (stBit p.val 2) false h2
  obtain ⟨hokq, hlq, hhold⟩ := hsame.other hne
  have hcmd : arbCommand s m.val (fld 2 3 0) (fld 2 8 8) = accept (arbEval (s.setBt ARB_STATUS (stBit p.val 2) false) none none) := by
    have hop : fld 2 3 0 = 2 := by decide
    rw [arbCommand, hpair, hidx, hop, if_neg (by simp), if_pos ⟨rfl, rfl, by omega⟩]
  generalize s.setBt ARB_STATUS (stBit p.val 2) false = u at *
  have hlp : beatLate u p.val = false := by rw [beatLate, hready, Bool.false_and]
  rw [arbEval_held (hlq.trans hq) hlp hne.symm (hhold.trans hh) (hokq.trans hoq)] at hcmd
  refine ⟨_, writeRow_arbCmd hs ho (by decide) hcmd (hsame.mode.trans hmode) hsame.ctxH, answered_resp _ _, ?_, ?_⟩
  · rw [bt_answered_arb _ _ _ (by decide), hready]
  · rw [holder_answered, hhold, hh]

theorem exec_escalate (hs : noSteps s) (hne : q ≠ p) (hmode : arbMode s = 1) (hq : beatLate s q.val = false)
    (ho : opens s m ARB_CMD .arb) (hm : m.val = 31) (hh : holder s = q.val + 1) (hoq : healthy s q.val = true) :
    ∃ t, exec (.escalate m p) s = .next t ∧ t.resp = .ok 0 ∧ t.bt ARB_STATUS (stBit p.val 2) = false ∧ t.bt ARB_IRQSTAT 3 = true ∧
      faultCount t p.val = min (2 ^ 8 - 1) (faultCount s p.val + 1) := by
  have hfields : fld (BitVec.ofNat 32 (4 + 256 * p.val)) 3 0 = 4 ∧ fld (BitVec.ofNat 32 (4 + 256 * p.val)) 8 8 = p.val := by
    obtain rfl | rfl : p = 0 ∨ p = 1 := by omega
    · decide
    · decide
  obtain ⟨hop, hno⟩ := hfields
  have hsame : ArbSame (arbBits p.val) s (pairFault s p.val 4) := pairFault_same s 4
  obtain ⟨hcount, hready, hirq⟩ := pairFault_spec s p.isLt 4
  obtain ⟨hokq, hlq, hhold⟩ := hsame.other hne
  have hcmd : arbCommand s m.val (fld (BitVec.ofNat 32 (4 + 256 * p.val)) 3 0) (fld (BitVec.ofNat 32 (4 + 256 * p.val)) 8 8) =
      accept (arbEval (pairFault s p.val 4) (some (p.val, 4)) none) := by
    rw [hop, hno, arbCommand, hm]
    rfl
  rw [if_neg (by decide)] at hirq
  generalize pairFault s p.val 4 = u at *
  have hlp : beatLate u p.val = false := by rw [beatLate, hready, Bool.false_and]
  rw [arbEval_held (hlq.trans hq) hlp hne.symm (hhold.trans hh) (hokq.trans hoq)] at hcmd
  refine ⟨_, writeRow_arbCmd hs ho (by rw [hop]; decide) hcmd (hsame.mode.trans hmode) hsame.ctxH, answered_resp _ _, ?_, ?_, ?_⟩
  · rw [bt_answered_arb _ _ _ (by decide), hready]
  · rw [bt_answered_arb _ _ _ (by decide), hirq]
  · rw [faultCount, fl_answered_arb _ _ _ _ (by decide)]
    exact hcount

/-- The state in which a resignation waits. -/
theorem resigning_same (s : State) : ArbSame [27] s (s.setBt ARB_STATUS 27 true) := .setBt s true (by decide) (by decide)

theorem stBit_ne_27 (p k : Nat) (hk : k ≤ 3) : stBit p k ∉ [27] := by
  unfold stBit
  split
  · simp
    omega
  · simp
    omega

theorem resignNow_same {l : List Nat} {t : State} (h : ArbSame l s t) : resignNow t = resignNow s := by
  simp only [resignNow, State.bt, h.rd ARB_CFG (by decide) (by decide) (by decide), h.rd IMG_CTRL (by decide) (by decide) (by decide)]

theorem arbCommand_resign (hm : m.val = 9 + p.val) (hh : holder s = p.val + 1) (hfree : s.bt ARB_STATUS 27 = false) :
    arbCommand s m.val (fld 3 3 0) (fld 3 8 8) = accept (arbResign s) := by
  obtain ⟨hpair, hidx⟩ := isPair_of hm
  have hop : fld 3 3 0 = 3 := by decide
  rw [arbCommand, hpair, hidx, hop, if_neg (by simp), if_neg (by simp), if_pos ⟨rfl, rfl, hh, hfree⟩]

theorem exec_resign_waits (hs : noSteps s) (hmode : arbMode s = 1) (ho : opens s m ARB_CMD .arb) (hm : m.val = 9 + p.val)
    (hh : holder s = p.val + 1) (hfree : s.bt ARB_STATUS 27 = false) (hnow : resignNow s = false) :
    ∃ t, exec (.resign m) s = .next t ∧ t.resp = .ok 0 ∧ t.bt ARB_STATUS 27 = true ∧ holder t = p.val + 1 ∧ t.arbH.resignE = s.imgE := by
  have hsame := resigning_same s
  have hbit := bt_setBt_self s ARB_STATUS 27 true (by decide)
  have himg : (s.setBt ARB_STATUS 27 true).imgE = s.imgE := State.wr_imgE _ _ _
  have hcmd := arbCommand_resign hm hh hfree
  rw [arbResign] at hcmd
  dsimp only at hcmd
  generalize s.setBt ARB_STATUS 27 true = u at *
  rw [resignNow_same hsame, hnow, if_neg (by decide)] at hcmd
  obtain ⟨w, hw⟩ : ∃ w : State, w = { u with arbH := { u.arbH with resignE := u.imgE } } := ⟨_, rfl⟩
  have hsw : ArbSame [27] s w := hw ▸ hsame.trans (.arbH _ _ rfl rfl)
  have hregs : w.regs = u.regs := by rw [hw]
  have hresign : w.arbH.resignE = s.imgE := by rw [hw, ← himg]
  rw [← hw] at hcmd
  refine ⟨answered w (.ok 0), writeRow_arbCmd hs ho (by decide) hcmd (hsw.mode.trans hmode) hsw.ctxH, answered_resp _ _, ?_, ?_, ?_⟩
  · rw [bt_answered_arb _ _ _ (by decide), bt_of_regs hregs, hbit]
  · rw [holder_answered, hsw.holder (by decide), hh]
  · rw [answered, close_arbH]
    exact hresign

theorem exec_resign_now (hs : noSteps s) (hne : q ≠ p) (hmode : arbMode s = 1) (hlp : beatLate s p.val = false)
    (hlq : beatLate s q.val = false) (ho : opens s m ARB_CMD .arb) (hm : m.val = 9 + p.val) (hh : holder s = p.val + 1)
    (hok : healthy s p.val = true) (hoq : healthy s q.val = true) (hfree : s.bt ARB_STATUS 27 = false) (hnow : resignNow s = true) :
    ∃ t, exec (.resign m) s = .next t ∧ holder t = q.val + 1 ∧ t.fl ARB_LAST 27 25 = 1 ∧ t.bt ARB_STATUS 27 = false := by
  have hsame := resigning_same s
  have hhealthy (x : Fin 2) : healthy (s.setBt ARB_STATUS 27 true) x.val = healthy s x.val :=
    hsame.healthy (by decide) (by decide) (by decide) (stBit_ne_27 _ _ (by decide)) (stBit_ne_27 _ _ (by decide))
  have hlate (x : Fin 2) : beatLate (s.setBt ARB_STATUS 27 true) x.val = beatLate s x.val := hsame.beatLate (stBit_ne_27 _ _ (by decide))
  have hcmd := arbCommand_resign hm hh hfree
  rw [arbResign] at hcmd
  dsimp only at hcmd
  generalize s.setBt ARB_STATUS 27 true = u at *
  rw [resignNow_same hsame, hnow, if_pos rfl, arbEval_resigned ((hlate p).trans hlp) ((hlate q).trans hlq) hne
    ((hsame.holder (by decide)).trans hh) ((hhealthy p).trans hok) ((hhealthy q).trans hoq)] at hcmd
  have hmoved := tokenMoved u (nxt := q.val + 1) (cause := 1) false (by omega) (by decide)
  refine ⟨_, writeRow_arbCmd hs ho (by decide) hcmd (hmoved.mode.trans (hsame.mode.trans hmode)) (hmoved.ctxH.trans hsame.ctxH), ?_, ?_, ?_⟩
  · rw [holder_answered, hmoved.holder]
  · rw [fl_answered_arb _ _ _ _ (by decide), hmoved.cause]
  · rw [bt_answered_arb _ _ _ (by decide), hmoved.resign]

theorem exec_saferel (hs : noSteps s) (hmode : arbMode s = 1) (ho : opens s m ARB_CMD .arb) (hm : m.val = 9 + p.val)
    (hh : holder s = p.val + 1) (hsafe : s.bt ARB_STATUS 29 = true) :
    ∃ t, exec (.saferel m) s = .next t ∧ t.resp = .ok 0 ∧ t.bt ARB_STATUS 29 = false ∧ holder t = p.val + 1 := by
  obtain ⟨hpair, hidx⟩ := isPair_of hm
  have hop : fld 5 3 0 = 5 := by decide
  have hcmd : arbCommand s m.val (fld 5 3 0) (fld 5 8 8) = accept (arbSaferel s) := by
    rw [arbCommand, hpair, hidx, hop, if_neg (by simp), if_neg (by simp), if_neg (by simp), if_neg (by simp), if_neg (by simp),
      if_pos ⟨rfl, rfl, hh, hsafe⟩]
  have hsame : ArbSame [29] s (s.setBt ARB_STATUS 29 false) := .setBt s false (by decide) (by decide)
  have hbit := bt_setBt_self s ARB_STATUS 29 false (by decide)
  obtain ⟨k, hk⟩ := keepSync_eq (s.setBt ARB_STATUS 29 false)
  rw [arbSaferel] at hcmd
  generalize s.setBt ARB_STATUS 29 false = u at *
  have hregs : (keepSync u).regs = u.regs := by rw [hk]
  have hctx : (keepSync u).ctxH = u.ctxH := by rw [hk]
  have hmode' : arbMode (keepSync u) = 1 := (fl_of_regs hregs _ _ _).trans (hsame.mode.trans hmode)
  refine ⟨_, writeRow_arbCmd hs ho (by decide) hcmd hmode' (hctx.trans hsame.ctxH), answered_resp _ _, ?_, ?_⟩
  · rw [bt_answered_arb _ _ _ (by decide), bt_of_regs hregs, hbit]
  · rw [holder_answered, holder, fl_of_regs hregs, ← holder, hsame.holder (by decide), hh]

/-! ## The due time of a resignation, and the fault counts (R342, R344) -/

theorem resignDue_due (hwait : s.bt ARB_STATUS 27 = true)
    (hdue : s.arbH.resignE + 1 < s.imgE ∨ (s.arbH.resignE < s.imgE ∧ rcEdge (s.imgAt + 50) ≤ s.cycles) ∨ s.bt IMG_CTRL 31 = false) :
    resignDue s = arbEval s none (some (s.bt IMG_CTRL 31)) := by
  rw [resignDue, if_neg (by simp [hwait])]
  cases hcen : s.bt IMG_CTRL 31 with
  | false => rw [if_pos rfl]
  | true =>
    rw [hcen] at hdue
    rw [if_neg (by simp), if_pos (by simpa using hdue)]

theorem exec_resignDue (hne : q ≠ p) (hmode : arbMode s = 1) (hlp : beatLate s p.val = false) (hlq : beatLate s q.val = false)
    (hh : holder s = p.val + 1) (hok : healthy s p.val = true) (hoq : healthy s q.val = true) (hwait : s.bt ARB_STATUS 27 = true)
    (hdue : s.arbH.resignE + 1 < s.imgE ∨ (s.arbH.resignE < s.imgE ∧ rcEdge (s.imgAt + 50) ≤ s.cycles) ∨ s.bt IMG_CTRL 31 = false) :
    ∃ t, exec .resignDue s = .next t ∧ holder t = q.val + 1 ∧ t.bt ARB_LAST 24 = s.bt IMG_CTRL 31 ∧ t.bt ARB_STATUS 27 = false := by
  have hmoved := tokenMoved s (nxt := q.val + 1) (cause := 1) (s.bt IMG_CTRL 31) (by omega) (by decide)
  have hrun : spareCheck (resignDue s) = tokenMove s (q.val + 1) 1 (s.bt IMG_CTRL 31) := by
    rw [resignDue_due hwait hdue, arbEval_resigned hlp hlq hne hh hok hoq, spareCheck_duplex (hmoved.mode.trans hmode)]
  have hexec : exec .resignDue s = .next (close (spareCheck (resignDue s))) := rfl
  rw [hrun] at hexec
  refine ⟨_, hexec, ?_⟩
  rw [holder_close, close_bt _ _ (closeTouches_arb (by decide)), close_bt _ _ (closeTouches_arb (by decide))]
  exact ⟨hmoved.holder, hmoved.aligned, hmoved.resign⟩

theorem exec_faultCountClear (hs : noSteps s) (ho : opens s m ARB_FCNT .arb) (hm : m.val = 16 ∨ m.val = 31) :
    ∃ t, exec (.faultCountClear m) s = .next t ∧ t.resp = .ok 0 ∧ t.rd ARB_FCNT = 0 := by
  have hw : arbWrite s m.val (ARB_FCNT % 0x10000) 0x80000000 = (s.wr ARB_FCNT 0, .ok 0) := by
    rw [arbWrite, if_neg (by decide), if_neg (by decide), if_neg (by decide), if_pos (by decide), fcntWrite, if_pos hm,
      if_pos (by decide), accept]
  refine ⟨_, writeRow_arb ho (by decide) (by decide) hw (noSteps_of_ctxH hs (State.wr_ctxH _ _ _)), answered_resp _ _, ?_⟩
  rw [rd_answered _ _ (closeTouches_arb (by decide)), rd_wr_self]

end

/-- Neither pair is late, whichever is asked. -/
theorem notLate {s : State} (h0 : beatLate s 0 = false) (h1 : beatLate s 1 = false) (p : Fin 2) : beatLate s p.val = false := by
  obtain rfl | rfl : p = 0 ∨ p = 1 := by omega
  · exact h0
  · exact h1

/-- Settles O50: each command by what it does to its pair's bits, and the evaluation that follows with one healthy holder. -/
theorem arbiter : Obligations.Arbiter := by
  unfold Obligations.Arbiter
  intro s m p q v hne hs
  refine ⟨exec_heartbeat hs hne v, fun dt u hu hmode hp hq hh hoq => exec_heartbeatTimeout hne dt hu hmode hp hq hh hoq,
    fun hmode h0 h1 ho => ⟨?_, ?_, ?_, ?_, ?_, ?_⟩, fun hmode h0 h1 hh hok hoq hwait hdue =>
    exec_resignDue hne hmode (notLate h0 h1 p) (notLate h0 h1 q) hh hok hoq hwait hdue, exec_faultCountClear hs⟩
  · exact fun hm hlive hdom hlsf hage hh hoq => exec_claim hs hne hmode (notLate h0 h1 q) ho hm hlive hdom hlsf hage hh hoq
  · exact fun hm hh hoq => exec_unready hs hne hmode (notLate h0 h1 q) ho hm hh hoq
  · exact fun hm hh hfree hnow => exec_resign_waits hs hmode ho hm hh hfree hnow
  · exact fun hm hh hok hoq hfree hnow => exec_resign_now hs hne hmode (notLate h0 h1 p) (notLate h0 h1 q) ho hm hh hok hoq hfree hnow
  · exact fun hm hh hoq => exec_escalate hs hne hmode (notLate h0 h1 q) ho hm hh hoq
  · exact fun hm hh hsafe => exec_saferel hs hmode ho hm hh hsafe

end Sys2Proof.Machine
